-- ==== Sys2Proof/Word.lean ====
section
/-! DEFINITION. The FG-16's data words (00_scope, Numbers and units; R5): a word of a trough, a tag record or the fen is 64 bits,
the fen and every memory window are addressed in bytes, and a tick is a 64-bit count of 250 ps. -/

namespace Sys2Proof

/-- A 64-bit word (00_scope, "A word is 64 bits wherever troughs, tag records or the fen are concerned"). -/
abbrev Word := BitVec 64

/-- A byte of the fen, of the boot flash or of the retention memory. -/
abbrev Byte := BitVec 8

/-- A word from a number, keeping its low 64 bits. -/
abbrev word (n : Nat) : Word := BitVec.ofNat 64 n

/-- Ticks per microsecond: one tick is 250 ps (00_scope, Numbers and units). -/
abbrev ticksPerUs : Nat := 4000

/-- Ticks per second (R551, R563). -/
abbrev ticksPerSecond : Nat := 4000000000

/-- What reading a stored word finds at its SECDED check (R353, R389, R493, R583): the physical condition a command reports. -/
inductive Ecc where
  | clean | single | double
deriving DecidableEq, Repr

end Sys2Proof
end

