-- ==== Sys2Proof/Machine/Bits.lean ====
section
/-! DEFINITION. Bit fields, signed fields, byte order and the cyclic redundancy codes the spec names. -/

namespace Sys2Proof

/-- Bits [lo + w - 1 : lo] of a word, as a number (R4). -/
def bits (v : Word) (lo w : Nat) : Nat := (v.toNat >>> lo) % 2 ^ w

/-- One bit of a word (R4). -/
def bit (v : Word) (i : Nat) : Bool := v.getLsbD i

/-- The word with ones in bits [lo + w - 1 : lo]. -/
def fieldMask (lo w : Nat) : Word := BitVec.ofNat 64 ((2 ^ w - 1) * 2 ^ lo)

/-- The word with bits [lo + w - 1 : lo] replaced by the low `w` bits of `n`. -/
def setBits (v : Word) (lo w n : Nat) : Word :=
  (v &&& ~~~ fieldMask lo w) ||| (BitVec.ofNat 64 (n % 2 ^ w) <<< lo)

/-- A number as one field of a record word: its low `w` bits at `lo`. -/
def field (lo w n : Nat) : Word := BitVec.ofNat 64 (n % 2 ^ w) <<< lo

/-- A flag as a number. -/
def b2n (b : Bool) : Nat := if b then 1 else 0

/-- The two's complement reading of the low `w` bits of `n`. -/
def signed (w n : Nat) : Int :=
  if (n % 2 ^ w) < 2 ^ (w - 1) then (n % 2 ^ w : Int) else (n % 2 ^ w : Int) - 2 ^ w

/-- The low `w` bits of an integer, two's complement. -/
def unsigned (w : Nat) (i : Int) : Nat := (i % 2 ^ w).toNat

/-- A saturating sum at `w` bits (00_scope: "Saturating counters stop at their maximum value and never wrap"). -/
def satAdd (w a b : Nat) : Nat := min (a + b) (2 ^ w - 1)

/-- The word made of eight bytes, the first at the lowest address (R5). -/
def wordOfBytes : List Byte → Word
  | [] => 0
  | b :: bs => (b.zeroExtend 64) ||| (wordOfBytes bs <<< 8)

/-- The low `n` bytes of a number, lowest first (R5). -/
def bytesOfNat : Nat → Nat → List Byte
  | 0, _ => []
  | n + 1, v => BitVec.ofNat 8 v :: bytesOfNat n (v / 256)

/-- The number whose bytes are given, lowest first (R5). -/
def natOfBytes : List Byte → Nat
  | [] => 0
  | b :: bs => b.toNat + 256 * natOfBytes bs

/-- The number whose bytes are given, highest first (big-endian keys and signatures, Table 2.9). -/
def natOfBytesBE (bs : List Byte) : Nat := natOfBytes bs.reverse

/-- Eight steps of a reflected code with polynomial `poly` (already bit-reversed). -/
def crcReflStep (poly : Nat) : Nat → Nat → Nat
  | 0, c => c
  | n + 1, c => crcReflStep poly n (if c % 2 = 1 then (c / 2) ^^^ poly else c / 2)

/-- CRC-32C over bytes in address order: polynomial 0x1EDC6F41 reflected, initial value and final inversion all ones (R152). -/
def crc32cAux : Nat → List Byte → Nat
  | c, [] => c
  | c, b :: bs => crc32cAux (crcReflStep 0x82F63B78 8 (c ^^^ b.toNat)) bs

/-- CRC-32C (R152). -/
def crc32c (bs : List Byte) : Nat := (crc32cAux 0xFFFFFFFF bs) ^^^ 0xFFFFFFFF

/-- `n` steps of an unreflected code of width `w`. -/
def crcStep (w poly : Nat) : Nat → Nat → Nat
  | 0, c => c
  | n + 1, c =>
      crcStep w poly n (if c / 2 ^ (w - 1) = 1 then ((c * 2) % 2 ^ w) ^^^ poly else (c * 2) % 2 ^ w)

/-- An unreflected code of width `w` over bytes, most significant bit first. -/
def crcMsb (w poly : Nat) : Nat → List Byte → Nat
  | c, [] => c
  | c, b :: bs => crcMsb w poly (crcStep w poly 8 (c ^^^ (b.toNat * 2 ^ (w - 8)))) bs

/-- CRC-16 of the seal: polynomial 0x1021, initial value 0xFFFF, no reflection, no final inversion (R71). -/
def crc16 (bs : List Byte) : Nat := crcMsb 16 0x1021 0xFFFF bs

end Sys2Proof
end

