-- ==== Sys2Proof/Machine/Regs.lean ====
section
/-! DEFINITION. The registers of the FG-16: their names, fields, field types (Table 0.3), reset values and addresses, from the
register tables of each chapter. A register value holds the whole register, reserved bits at 0. -/

namespace Sys2Proof

/-- Every register of the spec's register tables, under its own name. -/
inductive Reg where
  | DEV_IDENT | DEV_MODE | DEV_STATUS | DEV_MODE_REQ | DEV_HOLD_CAUSE | DEV_RESET | DEV_RESET_CAUSE | BOOT_STATUS 
  | BOOT_SEQ | RET_SEAL | FEN_STATUS | FEN_SEG_CTRL | FEN_SEG_MAP | FEN_SEG_ACTIVE | FEN_ECC | FEN_UE_ADDR 
  | FEN_SCRUB | FEN_SCRUB_COUNT | FEN_POOL_RELEASE | FEN_RELEASE_STATUS | TRG_GLOBAL | TRG_ECC | TRG_WATCH 
  | FEN_POOL_CFG | FEN_POOL_LIST | FEN_POOL_STATUS | FEN_POOL_COUNT | TRG_CFG | TRG_BASE | TRG_THRESH | TRG_DEPTH 
  | TRG_CTRL | TRG_STATUS | TRG_COUNT | TRG_DROPS | YARD_GLOBAL | YARD_CTRL | YARD_OVERRUN | YARD_CH_CFG 
  | YARD_CH_COUNT | YARD_CH_LAST | YARD_PROD_EN | YARD_CONS_EN | MGMT_STATUS | MGMT_SMB_CFG | MGMT_UART_CFG 
  | MGMT_IRQ_EN | MGMT_DB_WINDOW | TEMP | FEN_CASE | RAIL | ACTIVITY | TELEM_CFG | TELEM_CTRL | LOG_CFG | LOG_CTRL 
  | LOG_STATUS | ALARM_STATUS | ALARM_ACK | ALARM_HOLD_SEQ | TRACE_CH_MASK | ALARM_CFG | ALARM_SUMMARY | IST_CFG 
  | IST_TASK | IST_TASK_COUNT | FLASH_CTRL | FLASH_ADDR | FLASH_STATUS | SEC_CMD | SEC_STATUS | TB_NOW | TB_STATUS 
  | TB_CFG | TB_CTRL | TB_SET_VALUE | TB_ADJUST | TB_PPS_STAMP | TB_PHASE_ERR | TB_COMPARE | TB_COMPARE_PERIOD 
  | TB_COUNT | TB_PPS_OFFSET | LATCH_TICK | LATCH_POS | LATCH_STATUS | LATCH_CFG | TRIGIN_CFG | TRIGIN_STATUS 
  | OUT_CFG | OUT_STATUS | OUT_COUNT | WP_LIST_DESC | WP_LIST_CFG | WP_LIST_CTRL | WP_LIST_STATUS | WP_LIST_COUNT 
  | WP_GLOBAL | HOST_STATUS | HOST_CTRL | HOST_CPL_TIMEOUT | HOST_TAG_STATUS | HOST_COUNT | HOST_COUNT2 | HOST_PM_CFG 
  | HIRQ_SRC_CFG | HIRQ_SRC_TICK | HIRQ_SRC_PENDING | HIRQ_DEV_CFG | HIRQ_DEV_STATUS | HIRQ_INTX_CAUSE 
  | HIRQ_COALESCE | ADC_GLOBAL_START | ADC_CFG | ADC_CTRL | ADC_STATUS | ADC_RUN_LEN | ADC_BUF | ADC_BUF_POS 
  | ADC_RUN_INFO | ADC_COUNT | ADC_URGENT_RESULT | ADC_CAL | ADC_CAL_MEAN | ADC_COEF | VST_CFG | VST_TIMING 
  | VST_GEOM | VST_STATUS | VST_COUNT | STALL_LINK_CFG | STALL_LINK_STATUS | STALL_LM_CTRL | STALL_LM_CAMREQ 
  | STALL_SKEW | STALL_LINK_COUNT | LANE_CTRL | LANE_STATUS | LANE_TX_FIR_SET | LANE_TX_FIR | LANE_EYE 
  | LANE_FEC_CW_CORR | LANE_FEC_CW_UNCORR | LANE_FEC_SYM_CORR | LANE_BLOCK_ERR | LANE_PAT_CTRL | LANE_PAT_BITS 
  | LANE_PAT_ERR | STALL_PROTO_CFG | STALL_PROTO_STATUS | STALL_CTRL_CFG | STALL_CTRL_STATUS | STALL_LATENCY 
  | STALL_TRIG_CFG | STALL_FRAME_ID | STALL_PKT_ERR | STALL_FRAME_ERR | STALL_CTRL_ERR | STALL_TRIG_COUNT | STALL_HB 
  | STALL_PATH_ERR | PPORT_CFG | PPORT_GEOM | PPORT_STATUS | PPORT_COUNT | PPORT_DESKEW | CTX_CTRL | CTX_STATUS 
  | CTX_COMMIT | CTX_APPLIED | CTX_APPLIED_SEQ | CTX_COUNT | CTX_COUNT2 | CHUTE_CFG | CHUTE_STATUS | CHUTE_COUNT 
  | CHUTE_DEFECT_BASE | CRIB_LOAD | CRIB_LOAD_ADDR | CRIB_LOAD_CRC | CRIB_STATE | PADDOCK_LOAD | PADDOCK_LOAD_ADDR 
  | PADDOCK_LOAD_CRC | PADDOCK_LOAD_RANGE | PADDOCK_SET | RED_CTX_CTRL | RED_CTX_STATE | RED_CTX_COUNT 
  | RED_CTX_OFFSET | SLUICE_CFG | SLUICE_STATUS | SLUICE_COUNT | SLUICE_COUNT2 | MIRROR_CFG | MIRROR_BASE 
  | MIRROR_PTR | HERD_CFG | HERD_ORIGIN | HERD_PERIOD | HERD_STATUS | HERD_COUNT | HERD_COUNT2 | RING_PTR | RING_BASE 
  | RING_COMPL | RING_TAG | RING_CTRL | CTX_DEST_NEXT | CTX_DEST_CTRL | CTX_DEST_STATUS | CTX_DEST_COUNT | CTX_SEQ_HI 
  | GROOM_CTRL | GROOM_STATUS | GROOM_FAULT | GROOM_EV | GROOM_WDOG_CFG | GROOM_DEV_COUNT | GROOM_DEV_COUNT2 
  | GROOM_G | GROOM_GROUP | FLD_STATUS | FLD_CTRL | FLD_LEVEE_COUNT | FLD_VFIELD | ENC_CFG | ENC_STATUS | ENC_POS 
  | ENC_POS_TICK | ENC_LOAD | ENC_Z_POS | ENC_COUNT | ENC_CTRL | FI_CFG | FI_STATUS | FO_CFG | FO_STATUS | PAIR_CFG 
  | PAIR_PEER_SERIAL | PAIR_STATUS | PAIR_CTRL | PAIR_EPOCH | PAIR_PEER_EPOCH | PAIR_CUTOVER | PAIR_COUNT 
  | PAIR_COUNT2 | PAIR_WM | PAIR_HERD_WM 
deriving DecidableEq, Repr

/-- Field types (Table 0.3). RSVD bits are the bits no field names. -/
inductive FTy where | ro | rw | rw1c | rw1s | wo | rc
deriving DecidableEq, Repr

/-- A field of a register: its lowest bit, its width and its type. -/
structure FSpec where
  lo : Nat
  w : Nat
  ty : FTy
deriving DecidableEq, Repr

/-- A named field: the register it lies in, its lowest bit and its width. -/
structure Fld where
  r : Reg
  lo : Nat
  w : Nat
deriving DecidableEq, Repr

/-- The value of a field in a register word. -/
def Fld.of (f : Fld) (v : Word) : Nat := bits v f.lo f.w

namespace F
abbrev DEV_IDENT_STEPPING : Fld := ⟨.DEV_IDENT, 0, 8⟩
abbrev DEV_IDENT_MEMBER : Fld := ⟨.DEV_IDENT, 8, 8⟩
abbrev DEV_IDENT_PART : Fld := ⟨.DEV_IDENT, 16, 16⟩
abbrev DEV_MODE_MODE : Fld := ⟨.DEV_MODE, 0, 4⟩
abbrev DEV_MODE_PREV_MODE : Fld := ⟨.DEV_MODE, 4, 4⟩
abbrev DEV_MODE_TARGET_MODE : Fld := ⟨.DEV_MODE, 8, 4⟩
abbrev DEV_MODE_IN_TRANSITION : Fld := ⟨.DEV_MODE, 12, 1⟩
abbrev DEV_STATUS_HEARTBEAT_ON : Fld := ⟨.DEV_STATUS, 0, 1⟩
abbrev DEV_STATUS_UNSYNC : Fld := ⟨.DEV_STATUS, 1, 1⟩
abbrev DEV_STATUS_RETENTION_VALID : Fld := ⟨.DEV_STATUS, 2, 1⟩
abbrev DEV_STATUS_BOOT_IMAGE : Fld := ⟨.DEV_STATUS, 3, 1⟩
abbrev DEV_STATUS_BOOT_DOWNGRADE : Fld := ⟨.DEV_STATUS, 4, 1⟩
abbrev DEV_STATUS_VBAT_LOW : Fld := ⟨.DEV_STATUS, 5, 1⟩
abbrev DEV_STATUS_THROTTLED : Fld := ⟨.DEV_STATUS, 6, 1⟩
abbrev DEV_STATUS_RAIL_RANGE : Fld := ⟨.DEV_STATUS, 7, 1⟩
abbrev DEV_STATUS_BOUNDS_SUSPENDED : Fld := ⟨.DEV_STATUS, 8, 1⟩
abbrev DEV_MODE_REQ_TARGET : Fld := ⟨.DEV_MODE_REQ, 0, 4⟩
abbrev DEV_MODE_REQ_GO : Fld := ⟨.DEV_MODE_REQ, 4, 1⟩
abbrev DEV_MODE_REQ_RESULT : Fld := ⟨.DEV_MODE_REQ, 8, 4⟩
abbrev DEV_HOLD_CAUSE_HOLD_CODE : Fld := ⟨.DEV_HOLD_CAUSE, 0, 8⟩
abbrev DEV_HOLD_CAUSE_HOLD_BY_REQUEST : Fld := ⟨.DEV_HOLD_CAUSE, 8, 1⟩
abbrev DEV_HOLD_CAUSE_HOLD_SOURCE : Fld := ⟨.DEV_HOLD_CAUSE, 9, 4⟩
abbrev DEV_HOLD_CAUSE_HOLD_GROOM : Fld := ⟨.DEV_HOLD_CAUSE, 13, 4⟩
abbrev DEV_RESET_SOFT_RESET : Fld := ⟨.DEV_RESET, 0, 1⟩
abbrev DEV_RESET_KEY : Fld := ⟨.DEV_RESET, 16, 16⟩
abbrev DEV_RESET_CAUSE_POWER_ON : Fld := ⟨.DEV_RESET_CAUSE, 0, 1⟩
abbrev DEV_RESET_CAUSE_PERST : Fld := ⟨.DEV_RESET_CAUSE, 1, 1⟩
abbrev DEV_RESET_CAUSE_HOT_RESET : Fld := ⟨.DEV_RESET_CAUSE, 2, 1⟩
abbrev DEV_RESET_CAUSE_SOFT_RESET : Fld := ⟨.DEV_RESET_CAUSE, 3, 1⟩
abbrev DEV_RESET_CAUSE_YM_WATCHDOG : Fld := ⟨.DEV_RESET_CAUSE, 4, 1⟩
abbrev DEV_RESET_CAUSE_FROM_KEEP : Fld := ⟨.DEV_RESET_CAUSE, 5, 1⟩
abbrev BOOT_STATUS_A_RESULT : Fld := ⟨.BOOT_STATUS, 0, 4⟩
abbrev BOOT_STATUS_B_RESULT : Fld := ⟨.BOOT_STATUS, 4, 4⟩
abbrev BOOT_STATUS_SELECTED : Fld := ⟨.BOOT_STATUS, 8, 1⟩
abbrev BOOT_STATUS_NONE_VALID : Fld := ⟨.BOOT_STATUS, 9, 1⟩
abbrev BOOT_STATUS_ROLLBACK_COUNT : Fld := ⟨.BOOT_STATUS, 16, 7⟩
abbrev BOOT_STATUS_KEY_REVOKED : Fld := ⟨.BOOT_STATUS, 23, 4⟩
abbrev BOOT_SEQ_SEQ : Fld := ⟨.BOOT_SEQ, 0, 64⟩
abbrev RET_SEAL_SEAL_CRC : Fld := ⟨.RET_SEAL, 0, 16⟩
abbrev RET_SEAL_GENERATION : Fld := ⟨.RET_SEAL, 16, 16⟩
abbrev FEN_STATUS_READY : Fld := ⟨.FEN_STATUS, 0, 1⟩
abbrev FEN_STATUS_SELF_REFRESH : Fld := ⟨.FEN_STATUS, 1, 1⟩
abbrev FEN_STATUS_RECORD_RESTORED : Fld := ⟨.FEN_STATUS, 2, 1⟩
abbrev FEN_SEG_CTRL_APPLY : Fld := ⟨.FEN_SEG_CTRL, 0, 1⟩
abbrev FEN_SEG_CTRL_RESULT : Fld := ⟨.FEN_SEG_CTRL, 4, 4⟩
abbrev FEN_SEG_CTRL_BAD_SEGMENT : Fld := ⟨.FEN_SEG_CTRL, 8, 7⟩
abbrev FEN_SEG_MAP_CODES : Fld := ⟨.FEN_SEG_MAP, 0, 64⟩
abbrev FEN_SEG_ACTIVE_CODES : Fld := ⟨.FEN_SEG_ACTIVE, 0, 64⟩
abbrev FEN_ECC_CORR : Fld := ⟨.FEN_ECC, 0, 32⟩
abbrev FEN_ECC_UE : Fld := ⟨.FEN_ECC, 32, 16⟩
abbrev FEN_ECC_STORED_POISON : Fld := ⟨.FEN_ECC, 48, 16⟩
abbrev FEN_UE_ADDR_ADDR : Fld := ⟨.FEN_UE_ADDR, 3, 34⟩
abbrev FEN_UE_ADDR_VALID : Fld := ⟨.FEN_UE_ADDR, 63, 1⟩
abbrev FEN_SCRUB_ENABLE : Fld := ⟨.FEN_SCRUB, 0, 1⟩
abbrev FEN_SCRUB_CNT_CLEAR : Fld := ⟨.FEN_SCRUB, 1, 1⟩
abbrev FEN_SCRUB_PERIOD : Fld := ⟨.FEN_SCRUB, 8, 16⟩
abbrev FEN_SCRUB_COUNT_PASSES : Fld := ⟨.FEN_SCRUB_COUNT, 0, 32⟩
abbrev FEN_SCRUB_COUNT_BAD_ADDR : Fld := ⟨.FEN_SCRUB_COUNT, 32, 16⟩
abbrev FEN_POOL_RELEASE_BLOCK : Fld := ⟨.FEN_POOL_RELEASE, 16, 21⟩
abbrev FEN_RELEASE_STATUS_BAD_RELEASE : Fld := ⟨.FEN_RELEASE_STATUS, 0, 16⟩
abbrev FEN_RELEASE_STATUS_DOUBLE_RELEASE : Fld := ⟨.FEN_RELEASE_STATUS, 16, 16⟩
abbrev TRG_GLOBAL_PKT_TIMEOUT : Fld := ⟨.TRG_GLOBAL, 0, 16⟩
abbrev TRG_ECC_CORR : Fld := ⟨.TRG_ECC, 0, 32⟩
abbrev TRG_ECC_POISON_POPS : Fld := ⟨.TRG_ECC, 32, 16⟩
abbrev TRG_ECC_DISABLED_ACCESS : Fld := ⟨.TRG_ECC, 48, 16⟩
abbrev TRG_WATCH_TROUGH : Fld := ⟨.TRG_WATCH, 0, 16⟩
abbrev TRG_WATCH_ENABLE : Fld := ⟨.TRG_WATCH, 16, 1⟩
abbrev FEN_POOL_CFG_ENABLE : Fld := ⟨.FEN_POOL_CFG, 0, 1⟩
abbrev FEN_POOL_CFG_PINNED : Fld := ⟨.FEN_POOL_CFG, 1, 1⟩
abbrev FEN_POOL_CFG_STACK : Fld := ⟨.FEN_POOL_CFG, 2, 2⟩
abbrev FEN_POOL_CFG_FORCE : Fld := ⟨.FEN_POOL_CFG, 4, 1⟩
abbrev FEN_POOL_CFG_BASE : Fld := ⟨.FEN_POOL_CFG, 16, 21⟩
abbrev FEN_POOL_CFG_BLOCKS : Fld := ⟨.FEN_POOL_CFG, 38, 21⟩
abbrev FEN_POOL_LIST_LIST_BASE : Fld := ⟨.FEN_POOL_LIST, 6, 31⟩
abbrev FEN_POOL_LIST_LOW_WATER : Fld := ⟨.FEN_POOL_LIST, 38, 21⟩
abbrev FEN_POOL_STATUS_FREE : Fld := ⟨.FEN_POOL_STATUS, 0, 21⟩
abbrev FEN_POOL_STATUS_STATE : Fld := ⟨.FEN_POOL_STATUS, 21, 2⟩
abbrev FEN_POOL_STATUS_LOW : Fld := ⟨.FEN_POOL_STATUS, 23, 1⟩
abbrev FEN_POOL_STATUS_CFG_REJECTED : Fld := ⟨.FEN_POOL_STATUS, 24, 1⟩
abbrev FEN_POOL_STATUS_REJECT_CODE : Fld := ⟨.FEN_POOL_STATUS, 25, 4⟩
abbrev FEN_POOL_STATUS_MIN_FREE : Fld := ⟨.FEN_POOL_STATUS, 32, 21⟩
abbrev FEN_POOL_COUNT_ALLOCS : Fld := ⟨.FEN_POOL_COUNT, 0, 32⟩
abbrev FEN_POOL_COUNT_EMPTY_POPS : Fld := ⟨.FEN_POOL_COUNT, 32, 16⟩
abbrev FEN_POOL_COUNT_LOW_EVENTS : Fld := ⟨.FEN_POOL_COUNT, 48, 16⟩
abbrev TRG_CFG_ENABLE : Fld := ⟨.TRG_CFG, 0, 1⟩
abbrev TRG_CFG_LOCATION : Fld := ⟨.TRG_CFG, 1, 1⟩
abbrev TRG_CFG_SIZE_LOG2 : Fld := ⟨.TRG_CFG, 2, 5⟩
abbrev TRG_CFG_THR_MSIX_EN : Fld := ⟨.TRG_CFG, 7, 1⟩
abbrev TRG_CFG_VECTOR : Fld := ⟨.TRG_CFG, 8, 11⟩
abbrev TRG_BASE_BASE : Fld := ⟨.TRG_BASE, 0, 37⟩
abbrev TRG_THRESH_LEVEL : Fld := ⟨.TRG_THRESH, 0, 29⟩
abbrev TRG_DEPTH_VISIBLE : Fld := ⟨.TRG_DEPTH, 0, 29⟩
abbrev TRG_DEPTH_RESERVED_DEPTH : Fld := ⟨.TRG_DEPTH, 32, 29⟩
abbrev TRG_DEPTH_PKT_OPEN : Fld := ⟨.TRG_DEPTH, 61, 1⟩
abbrev TRG_DEPTH_POP_HELD : Fld := ⟨.TRG_DEPTH, 62, 1⟩
abbrev TRG_DEPTH_GAP_PENDING : Fld := ⟨.TRG_DEPTH, 63, 1⟩
abbrev TRG_CTRL_FLUSH : Fld := ⟨.TRG_CTRL, 0, 1⟩
abbrev TRG_CTRL_CNT_CLEAR : Fld := ⟨.TRG_CTRL, 1, 1⟩
abbrev TRG_STATUS_THR_ARMED : Fld := ⟨.TRG_STATUS, 0, 1⟩
abbrev TRG_STATUS_THR_FIRED : Fld := ⟨.TRG_STATUS, 1, 1⟩
abbrev TRG_STATUS_CFG_REJECTED : Fld := ⟨.TRG_STATUS, 2, 1⟩
abbrev TRG_STATUS_REFUSED_ACCESS : Fld := ⟨.TRG_STATUS, 3, 1⟩
abbrev TRG_STATUS_REJECT_CODE : Fld := ⟨.TRG_STATUS, 4, 4⟩
abbrev TRG_COUNT_ECC_CORR : Fld := ⟨.TRG_COUNT, 0, 16⟩
abbrev TRG_COUNT_POISON_POPS : Fld := ⟨.TRG_COUNT, 16, 16⟩
abbrev TRG_COUNT_PKT_ABORTS : Fld := ⟨.TRG_COUNT, 32, 16⟩
abbrev TRG_COUNT_FLUSHES : Fld := ⟨.TRG_COUNT, 48, 16⟩
abbrev TRG_DROPS_DROPPED : Fld := ⟨.TRG_DROPS, 0, 32⟩
abbrev TRG_DROPS_MARKERS : Fld := ⟨.TRG_DROPS, 32, 32⟩
abbrev YARD_GLOBAL_XING_MERGED : Fld := ⟨.YARD_GLOBAL, 0, 32⟩
abbrev YARD_GLOBAL_OVERRUNS : Fld := ⟨.YARD_GLOBAL, 32, 16⟩
abbrev YARD_GLOBAL_DENIED_TOTAL : Fld := ⟨.YARD_GLOBAL, 48, 16⟩
abbrev YARD_CTRL_CNT_CLEAR : Fld := ⟨.YARD_CTRL, 0, 1⟩
abbrev YARD_OVERRUN_FLAGS : Fld := ⟨.YARD_OVERRUN, 0, 64⟩
abbrev YARD_CH_CFG_OWNER : Fld := ⟨.YARD_CH_CFG, 0, 5⟩
abbrev YARD_CH_CFG_SECURED : Fld := ⟨.YARD_CH_CFG, 5, 1⟩
abbrev YARD_CH_CFG_DENIED : Fld := ⟨.YARD_CH_CFG, 6, 1⟩
abbrev YARD_CH_CFG_LAST_PRODUCER : Fld := ⟨.YARD_CH_CFG, 8, 9⟩
abbrev YARD_CH_COUNT_EVENTS : Fld := ⟨.YARD_CH_COUNT, 0, 32⟩
abbrev YARD_CH_COUNT_COALESCED : Fld := ⟨.YARD_CH_COUNT, 32, 16⟩
abbrev YARD_CH_COUNT_DENIED_WRITES : Fld := ⟨.YARD_CH_COUNT, 48, 16⟩
abbrev YARD_CH_LAST_TICK : Fld := ⟨.YARD_CH_LAST, 0, 64⟩
abbrev YARD_PROD_EN_EN : Fld := ⟨.YARD_PROD_EN, 0, 64⟩
abbrev YARD_CONS_EN_EN : Fld := ⟨.YARD_CONS_EN, 0, 64⟩
abbrev MGMT_STATUS_FW_RUNNING : Fld := ⟨.MGMT_STATUS, 0, 1⟩
abbrev MGMT_STATUS_DEBUG_LOCK : Fld := ⟨.MGMT_STATUS, 1, 1⟩
abbrev MGMT_SMB_CFG_ADDR : Fld := ⟨.MGMT_SMB_CFG, 0, 7⟩
abbrev MGMT_SMB_CFG_SPEED : Fld := ⟨.MGMT_SMB_CFG, 8, 2⟩
abbrev MGMT_SMB_CFG_EID : Fld := ⟨.MGMT_SMB_CFG, 16, 8⟩
abbrev MGMT_UART_CFG_BAUD : Fld := ⟨.MGMT_UART_CFG, 0, 24⟩
abbrev MGMT_IRQ_EN_EN : Fld := ⟨.MGMT_IRQ_EN, 0, 10⟩
abbrev MGMT_DB_WINDOW_WINDOW : Fld := ⟨.MGMT_DB_WINDOW, 0, 6⟩
abbrev TEMP_CUR : Fld := ⟨.TEMP, 0, 16⟩
abbrev TEMP_MAX : Fld := ⟨.TEMP, 16, 16⟩
abbrev FEN_CASE_CUR : Fld := ⟨.FEN_CASE, 0, 16⟩
abbrev FEN_CASE_MAX : Fld := ⟨.FEN_CASE, 16, 16⟩
abbrev RAIL_MV : Fld := ⟨.RAIL, 0, 16⟩
abbrev RAIL_MIN_MV : Fld := ⟨.RAIL, 16, 16⟩
abbrev RAIL_MAX_MV : Fld := ⟨.RAIL, 32, 16⟩
abbrev RAIL_CURRENT : Fld := ⟨.RAIL, 48, 16⟩
abbrev ACTIVITY_BUSY : Fld := ⟨.ACTIVITY, 0, 64⟩
abbrev TELEM_CFG_TEMP_LIMIT : Fld := ⟨.TELEM_CFG, 0, 12⟩
abbrev TELEM_CTRL_CLEAR : Fld := ⟨.TELEM_CTRL, 0, 1⟩
abbrev LOG_CFG_OWNER_1 : Fld := ⟨.LOG_CFG, 0, 1⟩
abbrev LOG_CFG_OWNER_2 : Fld := ⟨.LOG_CFG, 1, 1⟩
abbrev LOG_CFG_OWNER_3 : Fld := ⟨.LOG_CFG, 2, 1⟩
abbrev LOG_CFG_SMB_ALERT_EN : Fld := ⟨.LOG_CFG, 3, 1⟩
abbrev LOG_CFG_MIRROR_BUDGET : Fld := ⟨.LOG_CFG, 16, 16⟩
abbrev LOG_CTRL_TRACE_THAW : Fld := ⟨.LOG_CTRL, 0, 1⟩
abbrev LOG_CTRL_SUMMARY_CLEAR : Fld := ⟨.LOG_CTRL, 1, 1⟩
abbrev LOG_CTRL_CNT_CLEAR : Fld := ⟨.LOG_CTRL, 2, 1⟩
abbrev LOG_STATUS_TRACE_FROZEN : Fld := ⟨.LOG_STATUS, 0, 1⟩
abbrev LOG_STATUS_FAULTS_PENDING : Fld := ⟨.LOG_STATUS, 16, 16⟩
abbrev LOG_STATUS_FROZEN_DROPS : Fld := ⟨.LOG_STATUS, 32, 32⟩
abbrev ALARM_STATUS_UNACKED : Fld := ⟨.ALARM_STATUS, 0, 9⟩
abbrev ALARM_STATUS_OVERFLOWED : Fld := ⟨.ALARM_STATUS, 9, 1⟩
abbrev ALARM_STATUS_NEXT_SEQ : Fld := ⟨.ALARM_STATUS, 32, 32⟩
abbrev ALARM_ACK_SEQ : Fld := ⟨.ALARM_ACK, 0, 32⟩
abbrev ALARM_HOLD_SEQ_SEQ : Fld := ⟨.ALARM_HOLD_SEQ, 0, 32⟩
abbrev ALARM_HOLD_SEQ_ACKED : Fld := ⟨.ALARM_HOLD_SEQ, 32, 1⟩
abbrev TRACE_CH_MASK_MASK : Fld := ⟨.TRACE_CH_MASK, 0, 64⟩
abbrev ALARM_CFG_HOLD : Fld := ⟨.ALARM_CFG, 0, 1⟩
abbrev ALARM_CFG_COPY_PF0 : Fld := ⟨.ALARM_CFG, 1, 1⟩
abbrev ALARM_SUMMARY_CODE0 : Fld := ⟨.ALARM_SUMMARY, 0, 16⟩
abbrev ALARM_SUMMARY_CODE1 : Fld := ⟨.ALARM_SUMMARY, 16, 16⟩
abbrev ALARM_SUMMARY_CODE2 : Fld := ⟨.ALARM_SUMMARY, 32, 16⟩
abbrev ALARM_SUMMARY_CODE3 : Fld := ⟨.ALARM_SUMMARY, 48, 16⟩
abbrev IST_CFG_ENABLE : Fld := ⟨.IST_CFG, 0, 6⟩
abbrev IST_CFG_IST_EYE_MIN : Fld := ⟨.IST_CFG, 8, 8⟩
abbrev IST_TASK_PERIOD : Fld := ⟨.IST_TASK, 0, 16⟩
abbrev IST_TASK_LAST_FAIL : Fld := ⟨.IST_TASK, 32, 32⟩
abbrev IST_TASK_COUNT_PASSES : Fld := ⟨.IST_TASK_COUNT, 0, 32⟩
abbrev IST_TASK_COUNT_FAILURES : Fld := ⟨.IST_TASK_COUNT, 32, 16⟩
abbrev IST_TASK_COUNT_PREEMPTIONS : Fld := ⟨.IST_TASK_COUNT, 48, 16⟩
abbrev FLASH_CTRL_OP : Fld := ⟨.FLASH_CTRL, 0, 4⟩
abbrev FLASH_CTRL_GO : Fld := ⟨.FLASH_CTRL, 4, 1⟩
abbrev FLASH_CTRL_KEY : Fld := ⟨.FLASH_CTRL, 16, 16⟩
abbrev FLASH_ADDR_ADDR : Fld := ⟨.FLASH_ADDR, 0, 32⟩
abbrev FLASH_STATUS_RESULT : Fld := ⟨.FLASH_STATUS, 0, 4⟩
abbrev FLASH_STATUS_VERIFY_RESULT : Fld := ⟨.FLASH_STATUS, 4, 4⟩
abbrev FLASH_STATUS_BUSY : Fld := ⟨.FLASH_STATUS, 8, 1⟩
abbrev SEC_CMD_OP : Fld := ⟨.SEC_CMD, 0, 4⟩
abbrev SEC_CMD_GO : Fld := ⟨.SEC_CMD, 4, 1⟩
abbrev SEC_CMD_SLOT : Fld := ⟨.SEC_CMD, 5, 3⟩
abbrev SEC_CMD_KEY : Fld := ⟨.SEC_CMD, 16, 16⟩
abbrev SEC_STATUS_RESULT : Fld := ⟨.SEC_STATUS, 0, 4⟩
abbrev SEC_STATUS_SLOTS_BLANK : Fld := ⟨.SEC_STATUS, 4, 4⟩
abbrev TB_NOW_COUNT : Fld := ⟨.TB_NOW, 0, 64⟩
abbrev TB_STATUS_STATE : Fld := ⟨.TB_STATUS, 0, 2⟩
abbrev TB_STATUS_UNSYNC : Fld := ⟨.TB_STATUS, 2, 1⟩
abbrev TB_STATUS_REF10M_PRESENT : Fld := ⟨.TB_STATUS, 3, 1⟩
abbrev TB_STATUS_PPS_PRESENT : Fld := ⟨.TB_STATUS, 4, 1⟩
abbrev TB_STATUS_SLEWING : Fld := ⟨.TB_STATUS, 5, 1⟩
abbrev TB_STATUS_SET_PENDING : Fld := ⟨.TB_STATUS, 6, 1⟩
abbrev TB_STATUS_SET_REFUSED : Fld := ⟨.TB_STATUS, 7, 1⟩
abbrev TB_STATUS_ADJ_REFUSED : Fld := ⟨.TB_STATUS, 8, 1⟩
abbrev TB_STATUS_SYNC_LOST : Fld := ⟨.TB_STATUS, 9, 1⟩
abbrev TB_CFG_REF10M_EN : Fld := ⟨.TB_CFG, 0, 1⟩
abbrev TB_CFG_PPS_EN : Fld := ⟨.TB_CFG, 1, 1⟩
abbrev TB_CFG_PPS_FALLING : Fld := ⟨.TB_CFG, 2, 1⟩
abbrev TB_CFG_SLEW_MAX : Fld := ⟨.TB_CFG, 8, 8⟩
abbrev TB_CFG_LOCK_NS : Fld := ⟨.TB_CFG, 16, 8⟩
abbrev TB_CFG_PPS_WINDOW : Fld := ⟨.TB_CFG, 24, 8⟩
abbrev TB_CTRL_SET : Fld := ⟨.TB_CTRL, 0, 1⟩
abbrev TB_CTRL_SET_AT_PPS : Fld := ⟨.TB_CTRL, 1, 1⟩
abbrev TB_CTRL_ADJUST_GO : Fld := ⟨.TB_CTRL, 2, 1⟩
abbrev TB_CTRL_MARK_UNSYNC : Fld := ⟨.TB_CTRL, 3, 1⟩
abbrev TB_CTRL_COMPARE_EN : Fld := ⟨.TB_CTRL, 4, 1⟩
abbrev TB_CTRL_CNT_CLEAR : Fld := ⟨.TB_CTRL, 5, 1⟩
abbrev TB_SET_VALUE_VALUE : Fld := ⟨.TB_SET_VALUE, 0, 64⟩
abbrev TB_ADJUST_TICKS : Fld := ⟨.TB_ADJUST, 0, 64⟩
abbrev TB_PPS_STAMP_STAMP : Fld := ⟨.TB_PPS_STAMP, 0, 64⟩
abbrev TB_PHASE_ERR_ERR : Fld := ⟨.TB_PHASE_ERR, 0, 64⟩
abbrev TB_COMPARE_VALUE : Fld := ⟨.TB_COMPARE, 0, 64⟩
abbrev TB_COMPARE_PERIOD_PERIOD : Fld := ⟨.TB_COMPARE_PERIOD, 0, 64⟩
abbrev TB_COUNT_PPS_REJECT : Fld := ⟨.TB_COUNT, 0, 16⟩
abbrev TB_COUNT_SYNC_LOSSES : Fld := ⟨.TB_COUNT, 16, 16⟩
abbrev TB_COUNT_SETS : Fld := ⟨.TB_COUNT, 32, 16⟩
abbrev TB_COUNT_ADJUSTS : Fld := ⟨.TB_COUNT, 48, 16⟩
abbrev TB_PPS_OFFSET_OFFSET : Fld := ⟨.TB_PPS_OFFSET, 0, 32⟩
abbrev LATCH_TICK_TICK : Fld := ⟨.LATCH_TICK, 0, 64⟩
abbrev LATCH_POS_POS : Fld := ⟨.LATCH_POS, 0, 64⟩
abbrev LATCH_STATUS_VALID : Fld := ⟨.LATCH_STATUS, 0, 1⟩
abbrev LATCH_STATUS_POS_INVALID : Fld := ⟨.LATCH_STATUS, 1, 1⟩
abbrev LATCH_STATUS_MISSED : Fld := ⟨.LATCH_STATUS, 16, 16⟩
abbrev LATCH_STATUS_CAPTURES : Fld := ⟨.LATCH_STATUS, 32, 32⟩
abbrev LATCH_CFG_ENABLE : Fld := ⟨.LATCH_CFG, 0, 1⟩
abbrev LATCH_CFG_KEEP_LAST : Fld := ⟨.LATCH_CFG, 1, 1⟩
abbrev LATCH_CFG_POS_EN : Fld := ⟨.LATCH_CFG, 2, 1⟩
abbrev LATCH_CFG_AXIS : Fld := ⟨.LATCH_CFG, 3, 3⟩
abbrev LATCH_CFG_TROUGH : Fld := ⟨.LATCH_CFG, 16, 16⟩
abbrev TRIGIN_CFG_ENABLE : Fld := ⟨.TRIGIN_CFG, 0, 1⟩
abbrev TRIGIN_CFG_EDGE : Fld := ⟨.TRIGIN_CFG, 1, 2⟩
abbrev TRIGIN_CFG_FILTER : Fld := ⟨.TRIGIN_CFG, 4, 8⟩
abbrev TRIGIN_STATUS_LEVEL : Fld := ⟨.TRIGIN_STATUS, 0, 1⟩
abbrev TRIGIN_STATUS_FAST : Fld := ⟨.TRIGIN_STATUS, 16, 16⟩
abbrev TRIGIN_STATUS_EDGES : Fld := ⟨.TRIGIN_STATUS, 32, 32⟩
abbrev OUT_CFG_ENABLE : Fld := ⟨.OUT_CFG, 0, 1⟩
abbrev OUT_CFG_INVERT : Fld := ⟨.OUT_CFG, 1, 1⟩
abbrev OUT_CFG_SKEW : Fld := ⟨.OUT_CFG, 2, 6⟩
abbrev OUT_CFG_CONS_EN : Fld := ⟨.OUT_CFG, 8, 1⟩
abbrev OUT_CFG_CONS_ACT : Fld := ⟨.OUT_CFG, 9, 3⟩
abbrev OUT_CFG_CONS_WIDTH : Fld := ⟨.OUT_CFG, 12, 20⟩
abbrev OUT_CFG_CONS_DELAY : Fld := ⟨.OUT_CFG, 32, 32⟩
abbrev OUT_STATUS_LEVEL : Fld := ⟨.OUT_STATUS, 0, 1⟩
abbrev OUT_STATUS_ASSERTED : Fld := ⟨.OUT_STATUS, 1, 1⟩
abbrev OUT_STATUS_PENDING : Fld := ⟨.OUT_STATUS, 2, 4⟩
abbrev OUT_STATUS_SUPPRESSED : Fld := ⟨.OUT_STATUS, 6, 1⟩
abbrev OUT_COUNT_WINDOW_EMPTY : Fld := ⟨.OUT_COUNT, 0, 16⟩
abbrev OUT_COUNT_WINDOW_STRETCHED : Fld := ⟨.OUT_COUNT, 16, 16⟩
abbrev OUT_COUNT_REFUSED : Fld := ⟨.OUT_COUNT, 32, 16⟩
abbrev OUT_COUNT_LATE : Fld := ⟨.OUT_COUNT, 48, 16⟩
abbrev WP_LIST_DESC_FIRST : Fld := ⟨.WP_LIST_DESC, 0, 18⟩
abbrev WP_LIST_DESC_COUNT : Fld := ⟨.WP_LIST_DESC, 18, 19⟩
abbrev WP_LIST_DESC_AXIS : Fld := ⟨.WP_LIST_DESC, 37, 3⟩
abbrev WP_LIST_DESC_DIR : Fld := ⟨.WP_LIST_DESC, 40, 1⟩
abbrev WP_LIST_CFG_SKIP_PASSED : Fld := ⟨.WP_LIST_CFG, 0, 1⟩
abbrev WP_LIST_CFG_TROUGH : Fld := ⟨.WP_LIST_CFG, 16, 16⟩
abbrev WP_LIST_CTRL_OP : Fld := ⟨.WP_LIST_CTRL, 0, 2⟩
abbrev WP_LIST_STATUS_STATE : Fld := ⟨.WP_LIST_STATUS, 0, 2⟩
abbrev WP_LIST_STATUS_REFUSED : Fld := ⟨.WP_LIST_STATUS, 2, 1⟩
abbrev WP_LIST_STATUS_UE : Fld := ⟨.WP_LIST_STATUS, 3, 1⟩
abbrev WP_LIST_STATUS_GATES : Fld := ⟨.WP_LIST_STATUS, 8, 5⟩
abbrev WP_LIST_STATUS_NEXT : Fld := ⟨.WP_LIST_STATUS, 32, 19⟩
abbrev WP_LIST_COUNT_HITS : Fld := ⟨.WP_LIST_COUNT, 0, 32⟩
abbrev WP_LIST_COUNT_SKIPPED : Fld := ⟨.WP_LIST_COUNT, 32, 16⟩
abbrev WP_LIST_COUNT_ACTION_ERR : Fld := ⟨.WP_LIST_COUNT, 48, 16⟩
abbrev WP_GLOBAL_WRITE_DISCARD : Fld := ⟨.WP_GLOBAL, 0, 16⟩
abbrev WP_GLOBAL_ECC_CORR : Fld := ⟨.WP_GLOBAL, 16, 16⟩
abbrev WP_GLOBAL_UE : Fld := ⟨.WP_GLOBAL, 32, 16⟩
abbrev HOST_STATUS_LINK_UP : Fld := ⟨.HOST_STATUS, 0, 1⟩
abbrev HOST_STATUS_SPEED : Fld := ⟨.HOST_STATUS, 1, 3⟩
abbrev HOST_STATUS_WIDTH : Fld := ⟨.HOST_STATUS, 4, 5⟩
abbrev HOST_STATUS_FLIT : Fld := ⟨.HOST_STATUS, 9, 1⟩
abbrev HOST_STATUS_IN_L1 : Fld := ⟨.HOST_STATUS, 10, 1⟩
abbrev HOST_STATUS_LINK_LOST_SEEN : Fld := ⟨.HOST_STATUS, 11, 1⟩
abbrev HOST_STATUS_D3HOT : Fld := ⟨.HOST_STATUS, 12, 1⟩
abbrev HOST_STATUS_BUS_MASTER : Fld := ⟨.HOST_STATUS, 13, 1⟩
abbrev HOST_STATUS_MSIX_EN : Fld := ⟨.HOST_STATUS, 14, 1⟩
abbrev HOST_STATUS_INTX_IN_USE : Fld := ⟨.HOST_STATUS, 15, 1⟩
abbrev HOST_STATUS_TAG_WIDTH : Fld := ⟨.HOST_STATUS, 16, 2⟩
abbrev HOST_CTRL_CNT_CLEAR : Fld := ⟨.HOST_CTRL, 0, 1⟩
abbrev HOST_CPL_TIMEOUT_TIMEOUT_US : Fld := ⟨.HOST_CPL_TIMEOUT, 0, 17⟩
abbrev HOST_TAG_STATUS_IN_USE : Fld := ⟨.HOST_TAG_STATUS, 0, 15⟩
abbrev HOST_TAG_STATUS_QUARANTINED : Fld := ⟨.HOST_TAG_STATUS, 16, 15⟩
abbrev HOST_TAG_STATUS_TAG_LIMIT : Fld := ⟨.HOST_TAG_STATUS, 32, 15⟩
abbrev HOST_COUNT_CPL_TIMEOUTS : Fld := ⟨.HOST_COUNT, 0, 16⟩
abbrev HOST_COUNT_LATE_CPL : Fld := ⟨.HOST_COUNT, 16, 16⟩
abbrev HOST_COUNT_FLR_DISCARDS : Fld := ⟨.HOST_COUNT, 32, 16⟩
abbrev HOST_COUNT_LINK_LOSSES : Fld := ⟨.HOST_COUNT, 48, 16⟩
abbrev HOST_COUNT2_UNEXPECTED_CPL : Fld := ⟨.HOST_COUNT2, 0, 16⟩
abbrev HOST_COUNT2_POISON_READS : Fld := ⟨.HOST_COUNT2, 16, 16⟩
abbrev HOST_COUNT2_UR_SENT : Fld := ⟨.HOST_COUNT2, 32, 16⟩
abbrev HOST_COUNT2_L1_ENTRIES : Fld := ⟨.HOST_COUNT2, 48, 16⟩
abbrev HOST_PM_CFG_L1_IDLE : Fld := ⟨.HOST_PM_CFG, 0, 10⟩
abbrev HOST_PM_CFG_LTR_IDLE : Fld := ⟨.HOST_PM_CFG, 16, 16⟩
abbrev HIRQ_SRC_CFG_ENABLE : Fld := ⟨.HIRQ_SRC_CFG, 0, 1⟩
abbrev HIRQ_SRC_CFG_VECTOR : Fld := ⟨.HIRQ_SRC_CFG, 1, 11⟩
abbrev HIRQ_SRC_TICK_TICK : Fld := ⟨.HIRQ_SRC_TICK, 0, 64⟩
abbrev HIRQ_SRC_PENDING_PENDING : Fld := ⟨.HIRQ_SRC_PENDING, 0, 16⟩
abbrev HIRQ_DEV_CFG_MODE_EN : Fld := ⟨.HIRQ_DEV_CFG, 0, 1⟩
abbrev HIRQ_DEV_CFG_ALARM_EN : Fld := ⟨.HIRQ_DEV_CFG, 1, 1⟩
abbrev HIRQ_DEV_CFG_BOUNDS_EN : Fld := ⟨.HIRQ_DEV_CFG, 2, 1⟩
abbrev HIRQ_DEV_CFG_VECTOR : Fld := ⟨.HIRQ_DEV_CFG, 16, 11⟩
abbrev HIRQ_DEV_STATUS_MODE_DONE : Fld := ⟨.HIRQ_DEV_STATUS, 0, 1⟩
abbrev HIRQ_DEV_STATUS_ALARM : Fld := ⟨.HIRQ_DEV_STATUS, 1, 1⟩
abbrev HIRQ_DEV_STATUS_BOUNDS : Fld := ⟨.HIRQ_DEV_STATUS, 2, 1⟩
abbrev HIRQ_INTX_CAUSE_RING : Fld := ⟨.HIRQ_INTX_CAUSE, 0, 1⟩
abbrev HIRQ_INTX_CAUSE_YARD : Fld := ⟨.HIRQ_INTX_CAUSE, 1, 1⟩
abbrev HIRQ_INTX_CAUSE_TROUGH : Fld := ⟨.HIRQ_INTX_CAUSE, 2, 1⟩
abbrev HIRQ_INTX_CAUSE_DEVICE : Fld := ⟨.HIRQ_INTX_CAUSE, 3, 1⟩
abbrev HIRQ_COALESCE_V0 : Fld := ⟨.HIRQ_COALESCE, 0, 6⟩
abbrev HIRQ_COALESCE_V1 : Fld := ⟨.HIRQ_COALESCE, 8, 6⟩
abbrev HIRQ_COALESCE_V2 : Fld := ⟨.HIRQ_COALESCE, 16, 6⟩
abbrev HIRQ_COALESCE_V3 : Fld := ⟨.HIRQ_COALESCE, 24, 6⟩
abbrev HIRQ_COALESCE_V4 : Fld := ⟨.HIRQ_COALESCE, 32, 6⟩
abbrev HIRQ_COALESCE_V5 : Fld := ⟨.HIRQ_COALESCE, 40, 6⟩
abbrev HIRQ_COALESCE_V6 : Fld := ⟨.HIRQ_COALESCE, 48, 6⟩
abbrev HIRQ_COALESCE_V7 : Fld := ⟨.HIRQ_COALESCE, 56, 6⟩
abbrev ADC_GLOBAL_START_START_MASK : Fld := ⟨.ADC_GLOBAL_START, 0, 8⟩
abbrev ADC_GLOBAL_START_STOP_MASK : Fld := ⟨.ADC_GLOBAL_START, 8, 8⟩
abbrev ADC_CFG_INPUT : Fld := ⟨.ADC_CFG, 0, 3⟩
abbrev ADC_CFG_DEST : Fld := ⟨.ADC_CFG, 3, 2⟩
abbrev ADC_CFG_LOWPWR : Fld := ⟨.ADC_CFG, 5, 1⟩
abbrev ADC_CFG_CONS_URGENT : Fld := ⟨.ADC_CFG, 6, 1⟩
abbrev ADC_CFG_MMC_FREEZE : Fld := ⟨.ADC_CFG, 7, 1⟩
abbrev ADC_CFG_URGENT_INPUT : Fld := ⟨.ADC_CFG, 8, 3⟩
abbrev ADC_CFG_RUN_TROUGH : Fld := ⟨.ADC_CFG, 16, 16⟩
abbrev ADC_CTRL_START : Fld := ⟨.ADC_CTRL, 0, 1⟩
abbrev ADC_CTRL_STOP : Fld := ⟨.ADC_CTRL, 1, 1⟩
abbrev ADC_CTRL_CNT_CLEAR : Fld := ⟨.ADC_CTRL, 2, 1⟩
abbrev ADC_STATUS_STATE : Fld := ⟨.ADC_STATUS, 0, 3⟩
abbrev ADC_STATUS_LOWPWR_ACTIVE : Fld := ⟨.ADC_STATUS, 3, 1⟩
abbrev ADC_STATUS_MMC_CONVERGED : Fld := ⟨.ADC_STATUS, 4, 1⟩
abbrev ADC_STATUS_CFG_REJECTED : Fld := ⟨.ADC_STATUS, 5, 1⟩
abbrev ADC_STATUS_LAST_STOPPED : Fld := ⟨.ADC_STATUS, 6, 1⟩
abbrev ADC_STATUS_LAST_CLIPPED : Fld := ⟨.ADC_STATUS, 7, 1⟩
abbrev ADC_STATUS_RUN_INPUT : Fld := ⟨.ADC_STATUS, 8, 3⟩
abbrev ADC_RUN_LEN_LEN : Fld := ⟨.ADC_RUN_LEN, 0, 48⟩
abbrev ADC_BUF_SIZE_LOG2 : Fld := ⟨.ADC_BUF, 0, 6⟩
abbrev ADC_BUF_BASE : Fld := ⟨.ADC_BUF, 16, 21⟩
abbrev ADC_BUF_POS_WR_OFFSET : Fld := ⟨.ADC_BUF_POS, 0, 34⟩
abbrev ADC_BUF_POS_WRAPS : Fld := ⟨.ADC_BUF_POS, 34, 30⟩
abbrev ADC_RUN_INFO_FIRST_TICK : Fld := ⟨.ADC_RUN_INFO, 0, 64⟩
abbrev ADC_COUNT_URGENT_DROP : Fld := ⟨.ADC_COUNT, 0, 16⟩
abbrev ADC_COUNT_START_IGNORED : Fld := ⟨.ADC_COUNT, 16, 16⟩
abbrev ADC_COUNT_CLIP : Fld := ⟨.ADC_COUNT, 32, 16⟩
abbrev ADC_COUNT_RUNS : Fld := ⟨.ADC_COUNT, 48, 16⟩
abbrev ADC_URGENT_RESULT_SAMPLE : Fld := ⟨.ADC_URGENT_RESULT, 0, 16⟩
abbrev ADC_URGENT_RESULT_INPUT : Fld := ⟨.ADC_URGENT_RESULT, 16, 3⟩
abbrev ADC_URGENT_RESULT_VALID : Fld := ⟨.ADC_URGENT_RESULT, 19, 1⟩
abbrev ADC_URGENT_RESULT_TICK : Fld := ⟨.ADC_URGENT_RESULT, 32, 32⟩
abbrev ADC_CAL_INPUT : Fld := ⟨.ADC_CAL, 0, 3⟩
abbrev ADC_CAL_PHASE : Fld := ⟨.ADC_CAL, 4, 1⟩
abbrev ADC_CAL_GO : Fld := ⟨.ADC_CAL, 8, 1⟩
abbrev ADC_CAL_RESULT : Fld := ⟨.ADC_CAL, 12, 4⟩
abbrev ADC_CAL_CAL_TARGET : Fld := ⟨.ADC_CAL, 16, 16⟩
abbrev ADC_CAL_MEAN_ZERO : Fld := ⟨.ADC_CAL_MEAN, 0, 32⟩
abbrev ADC_CAL_MEAN_FULL : Fld := ⟨.ADC_CAL_MEAN, 32, 32⟩
abbrev ADC_COEF_OFFSET : Fld := ⟨.ADC_COEF, 0, 16⟩
abbrev ADC_COEF_GAIN : Fld := ⟨.ADC_COEF, 32, 18⟩
abbrev VST_CFG_MEMBERS : Fld := ⟨.VST_CFG, 0, 8⟩
abbrev VST_CFG_COMBINE : Fld := ⟨.VST_CFG, 8, 1⟩
abbrev VST_CFG_TIMING : Fld := ⟨.VST_CFG, 9, 1⟩
abbrev VST_CFG_MEAN : Fld := ⟨.VST_CFG, 10, 1⟩
abbrev VST_CFG_DEPTH : Fld := ⟨.VST_CFG, 11, 3⟩
abbrev VST_CFG_ENABLE : Fld := ⟨.VST_CFG, 14, 1⟩
abbrev VST_CFG_SUM_SHIFT : Fld := ⟨.VST_CFG, 16, 6⟩
abbrev VST_CFG_OUT_OFFSET : Fld := ⟨.VST_CFG, 24, 24⟩
abbrev VST_TIMING_DWELL : Fld := ⟨.VST_TIMING, 0, 32⟩
abbrev VST_TIMING_LINE_GAP : Fld := ⟨.VST_TIMING, 32, 32⟩
abbrev VST_GEOM_SCAN_W : Fld := ⟨.VST_GEOM, 0, 16⟩
abbrev VST_GEOM_SCAN_H : Fld := ⟨.VST_GEOM, 16, 16⟩
abbrev VST_GEOM_FRAMES : Fld := ⟨.VST_GEOM, 32, 16⟩
abbrev VST_GEOM_FRAME_GAP : Fld := ⟨.VST_GEOM, 48, 16⟩
abbrev VST_STATUS_STATE : Fld := ⟨.VST_STATUS, 0, 2⟩
abbrev VST_STATUS_CFG_REJECTED : Fld := ⟨.VST_STATUS, 2, 1⟩
abbrev VST_STATUS_LINE : Fld := ⟨.VST_STATUS, 16, 16⟩
abbrev VST_STATUS_LAST_FRAME_ID : Fld := ⟨.VST_STATUS, 32, 32⟩
abbrev VST_COUNT_FRAMES : Fld := ⟨.VST_COUNT, 0, 32⟩
abbrev VST_COUNT_INCOMPLETE : Fld := ⟨.VST_COUNT, 32, 16⟩
abbrev VST_COUNT_SHORT_PIXEL : Fld := ⟨.VST_COUNT, 48, 16⟩
abbrev STALL_LINK_CFG_RATE : Fld := ⟨.STALL_LINK_CFG, 0, 2⟩
abbrev STALL_LINK_CFG_FEC_EN : Fld := ⟨.STALL_LINK_CFG, 2, 1⟩
abbrev STALL_LINK_CFG_MAX_WIDTH : Fld := ⟨.STALL_LINK_CFG, 4, 2⟩
abbrev STALL_LINK_CFG_PPORT_SEL : Fld := ⟨.STALL_LINK_CFG, 8, 1⟩
abbrev STALL_LINK_CFG_ENABLE : Fld := ⟨.STALL_LINK_CFG, 9, 1⟩
abbrev STALL_LINK_CFG_CNT_CLEAR : Fld := ⟨.STALL_LINK_CFG, 15, 1⟩
abbrev STALL_LINK_STATUS_STATE : Fld := ⟨.STALL_LINK_STATUS, 0, 4⟩
abbrev STALL_LINK_STATUS_WIDTH : Fld := ⟨.STALL_LINK_STATUS, 4, 2⟩
abbrev STALL_LINK_STATUS_BORROWED : Fld := ⟨.STALL_LINK_STATUS, 8, 1⟩
abbrev STALL_LINK_STATUS_FAULT_CAUSE : Fld := ⟨.STALL_LINK_STATUS, 9, 4⟩
abbrev STALL_LINK_STATUS_CFG_REJECTED : Fld := ⟨.STALL_LINK_STATUS, 16, 1⟩
abbrev STALL_LINK_STATUS_CAM_WAKE_SEEN : Fld := ⟨.STALL_LINK_STATUS, 17, 1⟩
abbrev STALL_LM_CTRL_OP : Fld := ⟨.STALL_LM_CTRL, 0, 4⟩
abbrev STALL_LM_CTRL_WIDTH : Fld := ⟨.STALL_LM_CTRL, 4, 2⟩
abbrev STALL_LM_CTRL_GO : Fld := ⟨.STALL_LM_CTRL, 8, 1⟩
abbrev STALL_LM_CTRL_RESULT : Fld := ⟨.STALL_LM_CTRL, 12, 4⟩
abbrev STALL_LM_CTRL_AUTO_GRANT_WIDTH : Fld := ⟨.STALL_LM_CTRL, 16, 1⟩
abbrev STALL_LM_CTRL_CAM_WAKE_EN : Fld := ⟨.STALL_LM_CTRL, 17, 1⟩
abbrev STALL_LM_CAMREQ_OPCODE : Fld := ⟨.STALL_LM_CAMREQ, 0, 8⟩
abbrev STALL_LM_CAMREQ_WIDTH : Fld := ⟨.STALL_LM_CAMREQ, 8, 2⟩
abbrev STALL_LM_CAMREQ_REASON : Fld := ⟨.STALL_LM_CAMREQ, 16, 8⟩
abbrev STALL_LM_CAMREQ_VALID : Fld := ⟨.STALL_LM_CAMREQ, 31, 1⟩
abbrev STALL_SKEW_SKEW0 : Fld := ⟨.STALL_SKEW, 0, 8⟩
abbrev STALL_SKEW_SKEW1 : Fld := ⟨.STALL_SKEW, 8, 8⟩
abbrev STALL_SKEW_SKEW2 : Fld := ⟨.STALL_SKEW, 16, 8⟩
abbrev STALL_SKEW_SKEW3 : Fld := ⟨.STALL_SKEW, 24, 8⟩
abbrev STALL_LINK_COUNT_RETRAINS : Fld := ⟨.STALL_LINK_COUNT, 0, 16⟩
abbrev STALL_LINK_COUNT_WIDTH_CHANGES : Fld := ⟨.STALL_LINK_COUNT, 16, 16⟩
abbrev STALL_LINK_COUNT_SUPERSEDED : Fld := ⟨.STALL_LINK_COUNT, 32, 16⟩
abbrev STALL_LINK_COUNT_TRAIN_FAILS : Fld := ⟨.STALL_LINK_COUNT, 48, 16⟩
abbrev LANE_CTRL_TX_INVERT : Fld := ⟨.LANE_CTRL, 0, 1⟩
abbrev LANE_CTRL_RX_PRECODE_REQ : Fld := ⟨.LANE_CTRL, 1, 1⟩
abbrev LANE_CTRL_TX_FIR_OVERRIDE : Fld := ⟨.LANE_CTRL, 2, 1⟩
abbrev LANE_CTRL_START_PRESET : Fld := ⟨.LANE_CTRL, 3, 3⟩
abbrev LANE_CTRL_TEST_EN : Fld := ⟨.LANE_CTRL, 6, 1⟩
abbrev LANE_CTRL_KEEP_SPARE : Fld := ⟨.LANE_CTRL, 7, 1⟩
abbrev LANE_CTRL_CNT_CLEAR : Fld := ⟨.LANE_CTRL, 15, 1⟩
abbrev LANE_STATUS_STATE : Fld := ⟨.LANE_STATUS, 0, 4⟩
abbrev LANE_STATUS_SIGNAL_DETECT : Fld := ⟨.LANE_STATUS, 4, 1⟩
abbrev LANE_STATUS_CDR_LOCK : Fld := ⟨.LANE_STATUS, 5, 1⟩
abbrev LANE_STATUS_FRAME_LOCK : Fld := ⟨.LANE_STATUS, 6, 1⟩
abbrev LANE_STATUS_BLOCK_LOCK : Fld := ⟨.LANE_STATUS, 7, 1⟩
abbrev LANE_STATUS_RX_INVERTED : Fld := ⟨.LANE_STATUS, 8, 1⟩
abbrev LANE_STATUS_RX_PRECODE_ON : Fld := ⟨.LANE_STATUS, 9, 1⟩
abbrev LANE_STATUS_TX_PRECODE_ON : Fld := ⟨.LANE_STATUS, 10, 1⟩
abbrev LANE_STATUS_FAR_RX_READY : Fld := ⟨.LANE_STATUS, 11, 1⟩
abbrev LANE_STATUS_LOCAL_RX_READY : Fld := ⟨.LANE_STATUS, 12, 1⟩
abbrev LANE_STATUS_LAST_FAIL : Fld := ⟨.LANE_STATUS, 16, 4⟩
abbrev LANE_TX_FIR_SET_PRE_MAG : Fld := ⟨.LANE_TX_FIR_SET, 0, 5⟩
abbrev LANE_TX_FIR_SET_MAIN : Fld := ⟨.LANE_TX_FIR_SET, 8, 7⟩
abbrev LANE_TX_FIR_SET_POST_MAG : Fld := ⟨.LANE_TX_FIR_SET, 16, 5⟩
abbrev LANE_TX_FIR_PRE_MAG : Fld := ⟨.LANE_TX_FIR, 0, 5⟩
abbrev LANE_TX_FIR_MAIN : Fld := ⟨.LANE_TX_FIR, 8, 7⟩
abbrev LANE_TX_FIR_POST_MAG : Fld := ⟨.LANE_TX_FIR, 16, 5⟩
abbrev LANE_EYE_EYE_UPPER : Fld := ⟨.LANE_EYE, 0, 8⟩
abbrev LANE_EYE_EYE_MIDDLE : Fld := ⟨.LANE_EYE, 8, 8⟩
abbrev LANE_EYE_EYE_LOWER : Fld := ⟨.LANE_EYE, 16, 8⟩
abbrev LANE_EYE_EYE_WIDTH : Fld := ⟨.LANE_EYE, 24, 8⟩
abbrev LANE_EYE_SNR : Fld := ⟨.LANE_EYE, 32, 16⟩
abbrev LANE_FEC_CW_CORR_COUNT : Fld := ⟨.LANE_FEC_CW_CORR, 0, 64⟩
abbrev LANE_FEC_CW_UNCORR_COUNT : Fld := ⟨.LANE_FEC_CW_UNCORR, 0, 64⟩
abbrev LANE_FEC_SYM_CORR_COUNT : Fld := ⟨.LANE_FEC_SYM_CORR, 0, 64⟩
abbrev LANE_BLOCK_ERR_MARK_ERR : Fld := ⟨.LANE_BLOCK_ERR, 0, 16⟩
abbrev LANE_BLOCK_ERR_CTRL_TYPE_ERR : Fld := ⟨.LANE_BLOCK_ERR, 16, 16⟩
abbrev LANE_PAT_CTRL_GEN_EN : Fld := ⟨.LANE_PAT_CTRL, 0, 1⟩
abbrev LANE_PAT_CTRL_CHK_EN : Fld := ⟨.LANE_PAT_CTRL, 1, 1⟩
abbrev LANE_PAT_CTRL_PATTERN : Fld := ⟨.LANE_PAT_CTRL, 2, 3⟩
abbrev LANE_PAT_CTRL_CHK_LOCK : Fld := ⟨.LANE_PAT_CTRL, 5, 1⟩
abbrev LANE_PAT_CTRL_INJ_MODE : Fld := ⟨.LANE_PAT_CTRL, 6, 2⟩
abbrev LANE_PAT_CTRL_INJ_GO : Fld := ⟨.LANE_PAT_CTRL, 8, 1⟩
abbrev LANE_PAT_CTRL_INJ_BURST_LEN : Fld := ⟨.LANE_PAT_CTRL, 12, 4⟩
abbrev LANE_PAT_CTRL_INJ_RATE_EXP : Fld := ⟨.LANE_PAT_CTRL, 16, 4⟩
abbrev LANE_PAT_BITS_COUNT : Fld := ⟨.LANE_PAT_BITS, 0, 64⟩
abbrev LANE_PAT_ERR_COUNT : Fld := ⟨.LANE_PAT_ERR, 0, 64⟩
abbrev STALL_PROTO_CFG_EVT_EN : Fld := ⟨.STALL_PROTO_CFG, 0, 1⟩
abbrev STALL_PROTO_CFG_CNT_CLEAR : Fld := ⟨.STALL_PROTO_CFG, 1, 1⟩
abbrev STALL_PROTO_CFG_YARD_TRIG_ACTION : Fld := ⟨.STALL_PROTO_CFG, 8, 8⟩
abbrev STALL_PROTO_CFG_FRAME_TIMEOUT : Fld := ⟨.STALL_PROTO_CFG, 16, 16⟩
abbrev STALL_PROTO_STATUS_CAM_STATE : Fld := ⟨.STALL_PROTO_STATUS, 0, 2⟩
abbrev STALL_PROTO_STATUS_FRAME_OPEN : Fld := ⟨.STALL_PROTO_STATUS, 2, 1⟩
abbrev STALL_PROTO_STATUS_CAM_ORPHAN : Fld := ⟨.STALL_PROTO_STATUS, 3, 1⟩
abbrev STALL_PROTO_STATUS_CAM_FOLLOWS : Fld := ⟨.STALL_PROTO_STATUS, 4, 1⟩
abbrev STALL_PROTO_STATUS_CAM_DUAL_PORT : Fld := ⟨.STALL_PROTO_STATUS, 5, 1⟩
abbrev STALL_PROTO_STATUS_KEEPER_SENT : Fld := ⟨.STALL_PROTO_STATUS, 6, 1⟩
abbrev STALL_PROTO_STATUS_HOLD_SENT : Fld := ⟨.STALL_PROTO_STATUS, 7, 1⟩
abbrev STALL_PROTO_STATUS_CAM_LOST_SEEN : Fld := ⟨.STALL_PROTO_STATUS, 8, 1⟩
abbrev STALL_CTRL_CFG_CREQ_TROUGH : Fld := ⟨.STALL_CTRL_CFG, 0, 16⟩
abbrev STALL_CTRL_CFG_CRESP_TROUGH : Fld := ⟨.STALL_CTRL_CFG, 16, 16⟩
abbrev STALL_CTRL_CFG_EVT_TROUGH : Fld := ⟨.STALL_CTRL_CFG, 32, 16⟩
abbrev STALL_CTRL_CFG_TIMEOUT : Fld := ⟨.STALL_CTRL_CFG, 48, 16⟩
abbrev STALL_CTRL_STATUS_OUTSTANDING : Fld := ⟨.STALL_CTRL_STATUS, 0, 9⟩
abbrev STALL_CTRL_STATUS_QUARANTINED : Fld := ⟨.STALL_CTRL_STATUS, 9, 9⟩
abbrev STALL_CTRL_STATUS_QUARANTINE_ALL : Fld := ⟨.STALL_CTRL_STATUS, 18, 1⟩
abbrev STALL_LATENCY_ONE_WAY : Fld := ⟨.STALL_LATENCY, 0, 20⟩
abbrev STALL_LATENCY_VALID : Fld := ⟨.STALL_LATENCY, 31, 1⟩
abbrev STALL_TRIG_CFG_COMP : Fld := ⟨.STALL_TRIG_CFG, 0, 16⟩
abbrev STALL_TRIG_CFG_YARD_DELAY : Fld := ⟨.STALL_TRIG_CFG, 16, 16⟩
abbrev STALL_FRAME_ID_LAST_FRAME_ID : Fld := ⟨.STALL_FRAME_ID, 0, 32⟩
abbrev STALL_FRAME_ID_GAP_TOTAL : Fld := ⟨.STALL_FRAME_ID, 32, 32⟩
abbrev STALL_PKT_ERR_CRC_ERR : Fld := ⟨.STALL_PKT_ERR, 0, 16⟩
abbrev STALL_PKT_ERR_ERRORED : Fld := ⟨.STALL_PKT_ERR, 16, 16⟩
abbrev STALL_PKT_ERR_RESYNC : Fld := ⟨.STALL_PKT_ERR, 32, 16⟩
abbrev STALL_PKT_ERR_BAD_FIELD : Fld := ⟨.STALL_PKT_ERR, 48, 16⟩
abbrev STALL_FRAME_ERR_FS_DISCARDED : Fld := ⟨.STALL_FRAME_ERR, 0, 16⟩
abbrev STALL_FRAME_ERR_INCOMPLETE : Fld := ⟨.STALL_FRAME_ERR, 16, 16⟩
abbrev STALL_FRAME_ERR_ORPHAN_LINE : Fld := ⟨.STALL_FRAME_ERR, 32, 16⟩
abbrev STALL_FRAME_ERR_LINE_ERR : Fld := ⟨.STALL_FRAME_ERR, 48, 16⟩
abbrev STALL_CTRL_ERR_TIMEOUTS : Fld := ⟨.STALL_CTRL_ERR, 0, 16⟩
abbrev STALL_CTRL_ERR_LATE_RESP : Fld := ⟨.STALL_CTRL_ERR, 16, 16⟩
abbrev STALL_CTRL_ERR_UNEXPECTED_RESP : Fld := ⟨.STALL_CTRL_ERR, 32, 16⟩
abbrev STALL_CTRL_ERR_LINK_LOST : Fld := ⟨.STALL_CTRL_ERR, 48, 16⟩
abbrev STALL_TRIG_COUNT_TRIG_SENT : Fld := ⟨.STALL_TRIG_COUNT, 0, 32⟩
abbrev STALL_TRIG_COUNT_TRIG_LATE : Fld := ⟨.STALL_TRIG_COUNT, 32, 16⟩
abbrev STALL_TRIG_COUNT_TRIG_UNSENT : Fld := ⟨.STALL_TRIG_COUNT, 48, 16⟩
abbrev STALL_HB_HB_RX_SEQ : Fld := ⟨.STALL_HB, 0, 32⟩
abbrev STALL_HB_CAM_STATUS : Fld := ⟨.STALL_HB, 32, 16⟩
abbrev STALL_PATH_ERR_CRESP_DISCARDS : Fld := ⟨.STALL_PATH_ERR, 0, 16⟩
abbrev STALL_PATH_ERR_EVT_DISCARDS : Fld := ⟨.STALL_PATH_ERR, 16, 16⟩
abbrev PPORT_CFG_PACK : Fld := ⟨.PPORT_CFG, 0, 1⟩
abbrev PPORT_CFG_FIRST_EDGE : Fld := ⟨.PPORT_CFG, 1, 1⟩
abbrev PPORT_CFG_FV_LOW : Fld := ⟨.PPORT_CFG, 2, 1⟩
abbrev PPORT_CFG_LV_LOW : Fld := ⟨.PPORT_CFG, 3, 1⟩
abbrev PPORT_CFG_DV_LOW : Fld := ⟨.PPORT_CFG, 4, 1⟩
abbrev PPORT_CFG_DV_IGNORE : Fld := ⟨.PPORT_CFG, 5, 1⟩
abbrev PPORT_CFG_DEPTH : Fld := ⟨.PPORT_CFG, 8, 3⟩
abbrev PPORT_CFG_EXP_OFFSET : Fld := ⟨.PPORT_CFG, 16, 16⟩
abbrev PPORT_GEOM_WIDTH : Fld := ⟨.PPORT_GEOM, 0, 16⟩
abbrev PPORT_GEOM_HEIGHT : Fld := ⟨.PPORT_GEOM, 16, 16⟩
abbrev PPORT_STATUS_CLK_PRESENT : Fld := ⟨.PPORT_STATUS, 0, 1⟩
abbrev PPORT_STATUS_IN_FRAME : Fld := ⟨.PPORT_STATUS, 1, 1⟩
abbrev PPORT_STATUS_CLK_LOST : Fld := ⟨.PPORT_STATUS, 2, 1⟩
abbrev PPORT_STATUS_GEOM_ERR : Fld := ⟨.PPORT_STATUS, 3, 1⟩
abbrev PPORT_COUNT_FRAMES : Fld := ⟨.PPORT_COUNT, 0, 32⟩
abbrev PPORT_COUNT_SHORT_LINES : Fld := ⟨.PPORT_COUNT, 32, 16⟩
abbrev PPORT_COUNT_LONG_LINES : Fld := ⟨.PPORT_COUNT, 48, 16⟩
abbrev PPORT_DESKEW_DELAY : Fld := ⟨.PPORT_DESKEW, 0, 6⟩
abbrev CTX_CTRL_ENABLE : Fld := ⟨.CTX_CTRL, 0, 1⟩
abbrev CTX_CTRL_ENABLE_REJECTED : Fld := ⟨.CTX_CTRL, 1, 1⟩
abbrev CTX_CTRL_CNT_CLEAR : Fld := ⟨.CTX_CTRL, 8, 1⟩
abbrev CTX_STATUS_ACTIVE_COPY : Fld := ⟨.CTX_STATUS, 0, 2⟩
abbrev CTX_STATUS_PENDING_COPY : Fld := ⟨.CTX_STATUS, 2, 2⟩
abbrev CTX_STATUS_ARMED : Fld := ⟨.CTX_STATUS, 4, 1⟩
abbrev CTX_STATUS_IN_FRAME : Fld := ⟨.CTX_STATUS, 5, 1⟩
abbrev CTX_STATUS_MERGE_OPEN : Fld := ⟨.CTX_STATUS, 6, 1⟩
abbrev CTX_STATUS_LOCKED_WRITE : Fld := ⟨.CTX_STATUS, 7, 1⟩
abbrev CTX_COMMIT_COPY : Fld := ⟨.CTX_COMMIT, 0, 1⟩
abbrev CTX_COMMIT_GO : Fld := ⟨.CTX_COMMIT, 4, 1⟩
abbrev CTX_COMMIT_CANCEL : Fld := ⟨.CTX_COMMIT, 5, 1⟩
abbrev CTX_COMMIT_GO_REFUSED : Fld := ⟨.CTX_COMMIT, 6, 1⟩
abbrev CTX_COMMIT_RESULT : Fld := ⟨.CTX_COMMIT, 8, 4⟩
abbrev CTX_COMMIT_BAD_OFFSET : Fld := ⟨.CTX_COMMIT, 12, 10⟩
abbrev CTX_APPLIED_APPLIED_FRAME_ID : Fld := ⟨.CTX_APPLIED, 0, 32⟩
abbrev CTX_APPLIED_ACTIVE_SEQUENCE : Fld := ⟨.CTX_APPLIED, 32, 32⟩
abbrev CTX_APPLIED_SEQ_SEQ : Fld := ⟨.CTX_APPLIED_SEQ, 0, 64⟩
abbrev CTX_COUNT_FRAMES : Fld := ⟨.CTX_COUNT, 0, 32⟩
abbrev CTX_COUNT_OVERRUN : Fld := ⟨.CTX_COUNT, 32, 16⟩
abbrev CTX_COUNT_GEOM_MISMATCH : Fld := ⟨.CTX_COUNT, 48, 16⟩
abbrev CTX_COUNT2_PIXEL_OVERRUN : Fld := ⟨.CTX_COUNT2, 0, 16⟩
abbrev CTX_COUNT2_DEFECT_SKIP : Fld := ⟨.CTX_COUNT2, 16, 16⟩
abbrev CTX_COUNT2_MAP_POISON : Fld := ⟨.CTX_COUNT2, 32, 16⟩
abbrev CTX_COUNT2_TACK_CRC : Fld := ⟨.CTX_COUNT2, 48, 16⟩
abbrev CHUTE_CFG_BAYS : Fld := ⟨.CHUTE_CFG, 0, 2⟩
abbrev CHUTE_CFG_CFG_REJECTED : Fld := ⟨.CHUTE_CFG, 2, 1⟩
abbrev CHUTE_STATUS_BAY_BUSY : Fld := ⟨.CHUTE_STATUS, 0, 4⟩
abbrev CHUTE_STATUS_THROTTLED : Fld := ⟨.CHUTE_STATUS, 4, 1⟩
abbrev CHUTE_STATUS_BAY0_CTX : Fld := ⟨.CHUTE_STATUS, 8, 6⟩
abbrev CHUTE_STATUS_BAY1_CTX : Fld := ⟨.CHUTE_STATUS, 16, 6⟩
abbrev CHUTE_STATUS_BAY2_CTX : Fld := ⟨.CHUTE_STATUS, 24, 6⟩
abbrev CHUTE_STATUS_BAY3_CTX : Fld := ⟨.CHUTE_STATUS, 32, 6⟩
abbrev CHUTE_COUNT_FRAMES : Fld := ⟨.CHUTE_COUNT, 0, 32⟩
abbrev CHUTE_COUNT_OVERRUNS : Fld := ⟨.CHUTE_COUNT, 32, 16⟩
abbrev CHUTE_COUNT_SWITCHES : Fld := ⟨.CHUTE_COUNT, 48, 16⟩
abbrev CHUTE_DEFECT_BASE_REJECTED : Fld := ⟨.CHUTE_DEFECT_BASE, 0, 1⟩
abbrev CHUTE_DEFECT_BASE_BASE : Fld := ⟨.CHUTE_DEFECT_BASE, 16, 21⟩
abbrev CRIB_LOAD_SLOT : Fld := ⟨.CRIB_LOAD, 0, 7⟩
abbrev CRIB_LOAD_KIND : Fld := ⟨.CRIB_LOAD, 8, 2⟩
abbrev CRIB_LOAD_GO : Fld := ⟨.CRIB_LOAD, 16, 1⟩
abbrev CRIB_LOAD_RESULT : Fld := ⟨.CRIB_LOAD, 20, 4⟩
abbrev CRIB_LOAD_ADDR_ADDR : Fld := ⟨.CRIB_LOAD_ADDR, 6, 31⟩
abbrev CRIB_LOAD_CRC_CRC : Fld := ⟨.CRIB_LOAD_CRC, 0, 32⟩
abbrev CRIB_STATE_STATES : Fld := ⟨.CRIB_STATE, 0, 64⟩
abbrev PADDOCK_LOAD_SET : Fld := ⟨.PADDOCK_LOAD, 0, 6⟩
abbrev PADDOCK_LOAD_GO : Fld := ⟨.PADDOCK_LOAD, 16, 1⟩
abbrev PADDOCK_LOAD_RESULT : Fld := ⟨.PADDOCK_LOAD, 20, 4⟩
abbrev PADDOCK_LOAD_ADDR_ADDR : Fld := ⟨.PADDOCK_LOAD_ADDR, 6, 31⟩
abbrev PADDOCK_LOAD_CRC_CRC : Fld := ⟨.PADDOCK_LOAD_CRC, 0, 32⟩
abbrev PADDOCK_LOAD_RANGE_FIRST : Fld := ⟨.PADDOCK_LOAD_RANGE, 0, 16⟩
abbrev PADDOCK_LOAD_RANGE_COUNT : Fld := ⟨.PADDOCK_LOAD_RANGE, 16, 15⟩
abbrev PADDOCK_SET_FIRST : Fld := ⟨.PADDOCK_SET, 0, 16⟩
abbrev PADDOCK_SET_COUNT : Fld := ⟨.PADDOCK_SET, 16, 15⟩
abbrev PADDOCK_SET_STATE : Fld := ⟨.PADDOCK_SET, 32, 2⟩
abbrev PADDOCK_SET_PINNED : Fld := ⟨.PADDOCK_SET, 34, 1⟩
abbrev RED_CTX_CTRL_CNT_CLEAR : Fld := ⟨.RED_CTX_CTRL, 0, 1⟩
abbrev RED_CTX_STATE_STACK_OPEN : Fld := ⟨.RED_CTX_STATE, 0, 1⟩
abbrev RED_CTX_STATE_STAGE_BUSY : Fld := ⟨.RED_CTX_STATE, 1, 1⟩
abbrev RED_CTX_STATE_STACK_FRAMES : Fld := ⟨.RED_CTX_STATE, 16, 16⟩
abbrev RED_CTX_STATE_LAST_EVENTS : Fld := ⟨.RED_CTX_STATE, 32, 32⟩
abbrev RED_CTX_COUNT_POOL_EMPTY : Fld := ⟨.RED_CTX_COUNT, 0, 16⟩
abbrev RED_CTX_COUNT_ACC_ABANDONED : Fld := ⟨.RED_CTX_COUNT, 16, 16⟩
abbrev RED_CTX_COUNT_SAA_REJECT : Fld := ⟨.RED_CTX_COUNT, 32, 16⟩
abbrev RED_CTX_COUNT_NO_OFFSET : Fld := ⟨.RED_CTX_COUNT, 48, 16⟩
abbrev RED_CTX_OFFSET_DX : Fld := ⟨.RED_CTX_OFFSET, 0, 22⟩
abbrev RED_CTX_OFFSET_DY : Fld := ⟨.RED_CTX_OFFSET, 32, 22⟩
abbrev RED_CTX_OFFSET_VALID : Fld := ⟨.RED_CTX_OFFSET, 63, 1⟩
abbrev SLUICE_CFG_RELAXED_EN : Fld := ⟨.SLUICE_CFG, 0, 1⟩
abbrev SLUICE_CFG_BURST_POLICY : Fld := ⟨.SLUICE_CFG, 1, 1⟩
abbrev SLUICE_CFG_CNT_CLEAR : Fld := ⟨.SLUICE_CFG, 2, 1⟩
abbrev SLUICE_CFG_BURST_RATE : Fld := ⟨.SLUICE_CFG, 8, 8⟩
abbrev SLUICE_STATUS_INFLIGHT : Fld := ⟨.SLUICE_STATUS, 0, 17⟩
abbrev SLUICE_STATUS_RINGS_ENABLED : Fld := ⟨.SLUICE_STATUS, 17, 11⟩
abbrev SLUICE_STATUS_LINK_DOWN : Fld := ⟨.SLUICE_STATUS, 28, 1⟩
abbrev SLUICE_COUNT_DESCRIPTORS : Fld := ⟨.SLUICE_COUNT, 0, 32⟩
abbrev SLUICE_COUNT_LINK_LOST : Fld := ⟨.SLUICE_COUNT, 32, 16⟩
abbrev SLUICE_COUNT_RECOVER_LOST : Fld := ⟨.SLUICE_COUNT, 48, 16⟩
abbrev SLUICE_COUNT2_BAD_DESC : Fld := ⟨.SLUICE_COUNT2, 0, 16⟩
abbrev SLUICE_COUNT2_POISONED : Fld := ⟨.SLUICE_COUNT2, 16, 16⟩
abbrev SLUICE_COUNT2_TAG_CRC : Fld := ⟨.SLUICE_COUNT2, 32, 16⟩
abbrev SLUICE_COUNT2_HOST_ERROR : Fld := ⟨.SLUICE_COUNT2, 48, 16⟩
abbrev MIRROR_CFG_ENABLE : Fld := ⟨.MIRROR_CFG, 0, 1⟩
abbrev MIRROR_CFG_SIZE_LOG2 : Fld := ⟨.MIRROR_CFG, 1, 5⟩
abbrev MIRROR_CFG_DROPPED : Fld := ⟨.MIRROR_CFG, 32, 32⟩
abbrev MIRROR_BASE_BASE : Fld := ⟨.MIRROR_BASE, 12, 52⟩
abbrev MIRROR_PTR_PTR : Fld := ⟨.MIRROR_PTR, 3, 61⟩
abbrev HERD_CFG_ENABLE : Fld := ⟨.HERD_CFG, 0, 1⟩
abbrev HERD_CFG_STRICT : Fld := ⟨.HERD_CFG, 1, 1⟩
abbrev HERD_CFG_WINDOW : Fld := ⟨.HERD_CFG, 2, 10⟩
abbrev HERD_CFG_TROUGH : Fld := ⟨.HERD_CFG, 16, 16⟩
abbrev HERD_ORIGIN_ORIGIN : Fld := ⟨.HERD_ORIGIN, 0, 64⟩
abbrev HERD_PERIOD_PERIOD : Fld := ⟨.HERD_PERIOD, 0, 40⟩
abbrev HERD_PERIOD_TOLERANCE : Fld := ⟨.HERD_PERIOD, 40, 24⟩
abbrev HERD_STATUS_MEMBERS : Fld := ⟨.HERD_STATUS, 0, 20⟩
abbrev HERD_STATUS_OVERSUBSCRIBED : Fld := ⟨.HERD_STATUS, 20, 1⟩
abbrev HERD_STATUS_CFG_REJECTED : Fld := ⟨.HERD_STATUS, 21, 1⟩
abbrev HERD_STATUS_LAST_SLOT : Fld := ⟨.HERD_STATUS, 32, 32⟩
abbrev HERD_COUNT_RECORDS : Fld := ⟨.HERD_COUNT, 0, 32⟩
abbrev HERD_COUNT_INCOMPLETE : Fld := ⟨.HERD_COUNT, 32, 16⟩
abbrev HERD_COUNT_MISALIGNED : Fld := ⟨.HERD_COUNT, 48, 16⟩
abbrev HERD_COUNT2_LATE_INCLUDED : Fld := ⟨.HERD_COUNT2, 0, 16⟩
abbrev HERD_COUNT2_LATE_DROPPED : Fld := ⟨.HERD_COUNT2, 16, 16⟩
abbrev HERD_COUNT2_DOUBLE : Fld := ⟨.HERD_COUNT2, 32, 16⟩
abbrev RING_PTR_TAIL : Fld := ⟨.RING_PTR, 0, 16⟩
abbrev RING_PTR_HEAD : Fld := ⟨.RING_PTR, 16, 16⟩
abbrev RING_BASE_SIZE_LOG2 : Fld := ⟨.RING_BASE, 0, 5⟩
abbrev RING_BASE_FEED : Fld := ⟨.RING_BASE, 5, 1⟩
abbrev RING_BASE_BASE : Fld := ⟨.RING_BASE, 6, 58⟩
abbrev RING_COMPL_BASE : Fld := ⟨.RING_COMPL, 6, 58⟩
abbrev RING_TAG_BASE : Fld := ⟨.RING_TAG, 6, 58⟩
abbrev RING_CTRL_ENABLE : Fld := ⟨.RING_CTRL, 0, 1⟩
abbrev RING_CTRL_STATE : Fld := ⟨.RING_CTRL, 1, 3⟩
abbrev RING_CTRL_IRQ_EN : Fld := ⟨.RING_CTRL, 4, 1⟩
abbrev RING_CTRL_VECTOR : Fld := ⟨.RING_CTRL, 5, 11⟩
abbrev RING_CTRL_CFG_REJECTED : Fld := ⟨.RING_CTRL, 16, 1⟩
abbrev RING_CTRL_INFLIGHT_RES : Fld := ⟨.RING_CTRL, 20, 12⟩
abbrev RING_CTRL_RECOVER : Fld := ⟨.RING_CTRL, 32, 16⟩
abbrev RING_CTRL_SRC_TROUGH : Fld := ⟨.RING_CTRL, 48, 16⟩
abbrev CTX_DEST_NEXT_ADDR : Fld := ⟨.CTX_DEST_NEXT, 6, 58⟩
abbrev CTX_DEST_CTRL_LEN : Fld := ⟨.CTX_DEST_CTRL, 0, 32⟩
abbrev CTX_DEST_CTRL_COMMIT : Fld := ⟨.CTX_DEST_CTRL, 32, 1⟩
abbrev CTX_DEST_CTRL_CANCEL : Fld := ⟨.CTX_DEST_CTRL, 33, 1⟩
abbrev CTX_DEST_CTRL_RESULT : Fld := ⟨.CTX_DEST_CTRL, 36, 4⟩
abbrev CTX_DEST_STATUS_LATCH_FRAME_ID : Fld := ⟨.CTX_DEST_STATUS, 0, 32⟩
abbrev CTX_DEST_STATUS_CUR_VALID : Fld := ⟨.CTX_DEST_STATUS, 32, 1⟩
abbrev CTX_DEST_STATUS_PENDING : Fld := ⟨.CTX_DEST_STATUS, 33, 1⟩
abbrev CTX_DEST_COUNT_PLACED : Fld := ⟨.CTX_DEST_COUNT, 0, 32⟩
abbrev CTX_DEST_COUNT_MISS : Fld := ⟨.CTX_DEST_COUNT, 32, 16⟩
abbrev CTX_DEST_COUNT_OVERRUN : Fld := ⟨.CTX_DEST_COUNT, 48, 16⟩
abbrev CTX_SEQ_HI_EPOCH : Fld := ⟨.CTX_SEQ_HI, 0, 32⟩
abbrev GROOM_CTRL_START_EN : Fld := ⟨.GROOM_CTRL, 0, 1⟩
abbrev GROOM_CTRL_RELEASE : Fld := ⟨.GROOM_CTRL, 1, 1⟩
abbrev GROOM_CTRL_HALT : Fld := ⟨.GROOM_CTRL, 2, 1⟩
abbrev GROOM_CTRL_CNT_CLEAR : Fld := ⟨.GROOM_CTRL, 3, 1⟩
abbrev GROOM_CTRL_REJECTED : Fld := ⟨.GROOM_CTRL, 4, 1⟩
abbrev GROOM_CTRL_START_ADDR : Fld := ⟨.GROOM_CTRL, 16, 14⟩
abbrev GROOM_STATUS_STATE : Fld := ⟨.GROOM_STATUS, 0, 2⟩
abbrev GROOM_STATUS_OUTSTANDING : Fld := ⟨.GROOM_STATUS, 2, 1⟩
abbrev GROOM_STATUS_PC : Fld := ⟨.GROOM_STATUS, 4, 14⟩
abbrev GROOM_STATUS_HALT_CODE : Fld := ⟨.GROOM_STATUS, 32, 14⟩
abbrev GROOM_STATUS_HALT_SOURCE : Fld := ⟨.GROOM_STATUS, 46, 2⟩
abbrev GROOM_FAULT_FAULT : Fld := ⟨.GROOM_FAULT, 0, 64⟩
abbrev GROOM_EV_EVPEND : Fld := ⟨.GROOM_EV, 0, 16⟩
abbrev GROOM_EV_EVOVER : Fld := ⟨.GROOM_EV, 16, 16⟩
abbrev GROOM_WDOG_CFG_CFG : Fld := ⟨.GROOM_WDOG_CFG, 0, 64⟩
abbrev GROOM_DEV_COUNT_EMIT_LATE : Fld := ⟨.GROOM_DEV_COUNT, 0, 16⟩
abbrev GROOM_DEV_COUNT_EMIT_REFUSED : Fld := ⟨.GROOM_DEV_COUNT, 16, 16⟩
abbrev GROOM_DEV_COUNT_EMIT_SUPPRESSED : Fld := ⟨.GROOM_DEV_COUNT, 32, 16⟩
abbrev GROOM_DEV_COUNT_CTRIG_FULL : Fld := ⟨.GROOM_DEV_COUNT, 48, 16⟩
abbrev GROOM_DEV_COUNT2_PUSH_DROPS : Fld := ⟨.GROOM_DEV_COUNT2, 0, 16⟩
abbrev GROOM_DEV_COUNT2_HALT_ABANDONED : Fld := ⟨.GROOM_DEV_COUNT2, 16, 16⟩
abbrev GROOM_DEV_COUNT2_IMEM_WRITE_DISCARD : Fld := ⟨.GROOM_DEV_COUNT2, 32, 16⟩
abbrev GROOM_DEV_COUNT2_REG_WRITE_DISCARD : Fld := ⟨.GROOM_DEV_COUNT2, 48, 16⟩
abbrev GROOM_G_G : Fld := ⟨.GROOM_G, 0, 64⟩
abbrev GROOM_GROUP_RELEASE_MASK : Fld := ⟨.GROOM_GROUP, 0, 16⟩
abbrev GROOM_GROUP_HALT_MASK : Fld := ⟨.GROOM_GROUP, 16, 16⟩
abbrev FLD_STATUS_LINK_UP : Fld := ⟨.FLD_STATUS, 0, 1⟩
abbrev FLD_STATUS_VFIELD_OK : Fld := ⟨.FLD_STATUS, 1, 1⟩
abbrev FLD_STATUS_FIELD_HOLD : Fld := ⟨.FLD_STATUS, 2, 1⟩
abbrev FLD_STATUS_HB_OUT : Fld := ⟨.FLD_STATUS, 3, 1⟩
abbrev FLD_STATUS_CFG_SYNCED : Fld := ⟨.FLD_STATUS, 4, 1⟩
abbrev FLD_STATUS_FIELD_LOST_SEEN : Fld := ⟨.FLD_STATUS, 5, 1⟩
abbrev FLD_STATUS_HOLD_SEEN : Fld := ⟨.FLD_STATUS, 6, 1⟩
abbrev FLD_CTRL_CNT_CLEAR : Fld := ⟨.FLD_CTRL, 0, 1⟩
abbrev FLD_LEVEE_COUNT_LEVEE_CRC : Fld := ⟨.FLD_LEVEE_COUNT, 0, 16⟩
abbrev FLD_LEVEE_COUNT_LINK_LOSSES : Fld := ⟨.FLD_LEVEE_COUNT, 16, 16⟩
abbrev FLD_LEVEE_COUNT_CMD_RESENDS : Fld := ⟨.FLD_LEVEE_COUNT, 32, 16⟩
abbrev FLD_LEVEE_COUNT_CMD_DISCARDED : Fld := ⟨.FLD_LEVEE_COUNT, 48, 16⟩
abbrev FLD_VFIELD_VFIELD : Fld := ⟨.FLD_VFIELD, 0, 16⟩
abbrev ENC_CFG_ENABLE : Fld := ⟨.ENC_CFG, 0, 1⟩
abbrev ENC_CFG_MODE : Fld := ⟨.ENC_CFG, 1, 2⟩
abbrev ENC_CFG_DECODE : Fld := ⟨.ENC_CFG, 3, 2⟩
abbrev ENC_CFG_INVERT_DIR : Fld := ⟨.ENC_CFG, 5, 1⟩
abbrev ENC_CFG_Z_ACTION : Fld := ⟨.ENC_CFG, 6, 2⟩
abbrev ENC_CFG_Z_GATE : Fld := ⟨.ENC_CFG, 8, 1⟩
abbrev ENC_CFG_Z_EVENT_EN : Fld := ⟨.ENC_CFG, 9, 1⟩
abbrev ENC_CFG_FILTER : Fld := ⟨.ENC_CFG, 16, 8⟩
abbrev ENC_CFG_SSI_BITS : Fld := ⟨.ENC_CFG, 24, 6⟩
abbrev ENC_CFG_SSI_GRAY : Fld := ⟨.ENC_CFG, 30, 1⟩
abbrev ENC_CFG_SSI_EXTEND : Fld := ⟨.ENC_CFG, 31, 1⟩
abbrev ENC_CFG_SSI_CLK_DIV : Fld := ⟨.ENC_CFG, 32, 8⟩
abbrev ENC_CFG_SSI_MONO : Fld := ⟨.ENC_CFG, 40, 8⟩
abbrev ENC_STATUS_STATE : Fld := ⟨.ENC_STATUS, 0, 2⟩
abbrev ENC_STATUS_LEVELS : Fld := ⟨.ENC_STATUS, 2, 3⟩
abbrev ENC_STATUS_UNDET : Fld := ⟨.ENC_STATUS, 5, 3⟩
abbrev ENC_STATUS_FAULT_CAUSE : Fld := ⟨.ENC_STATUS, 8, 4⟩
abbrev ENC_STATUS_Z_ARMED : Fld := ⟨.ENC_STATUS, 12, 1⟩
abbrev ENC_STATUS_CFG_REJECTED : Fld := ⟨.ENC_STATUS, 13, 1⟩
abbrev ENC_STATUS_POS_SUSPECT : Fld := ⟨.ENC_STATUS, 14, 1⟩
abbrev ENC_POS_POS : Fld := ⟨.ENC_POS, 0, 64⟩
abbrev ENC_POS_TICK_TICK : Fld := ⟨.ENC_POS_TICK, 0, 64⟩
abbrev ENC_LOAD_LOAD : Fld := ⟨.ENC_LOAD, 0, 64⟩
abbrev ENC_Z_POS_POS : Fld := ⟨.ENC_Z_POS, 0, 64⟩
abbrev ENC_COUNT_QUAD_ERR : Fld := ⟨.ENC_COUNT, 0, 16⟩
abbrev ENC_COUNT_SSI_ERR : Fld := ⟨.ENC_COUNT, 16, 16⟩
abbrev ENC_COUNT_FAULTS : Fld := ⟨.ENC_COUNT, 32, 16⟩
abbrev ENC_COUNT_INDEX : Fld := ⟨.ENC_COUNT, 48, 16⟩
abbrev ENC_CTRL_LOAD : Fld := ⟨.ENC_CTRL, 0, 1⟩
abbrev ENC_CTRL_Z_ARM : Fld := ⟨.ENC_CTRL, 1, 1⟩
abbrev FI_CFG_ENABLE : Fld := ⟨.FI_CFG, 0, 1⟩
abbrev FI_CFG_EDGE : Fld := ⟨.FI_CFG, 1, 2⟩
abbrev FI_CFG_DEBOUNCE : Fld := ⟨.FI_CFG, 16, 16⟩
abbrev FI_STATUS_LEVEL : Fld := ⟨.FI_STATUS, 0, 1⟩
abbrev FI_STATUS_UNDETERMINED : Fld := ⟨.FI_STATUS, 1, 1⟩
abbrev FI_STATUS_GLITCHES : Fld := ⟨.FI_STATUS, 16, 16⟩
abbrev FI_STATUS_EDGES : Fld := ⟨.FI_STATUS, 32, 32⟩
abbrev FO_CFG_SAFE_ON : Fld := ⟨.FO_CFG, 0, 1⟩
abbrev FO_STATUS_SWITCH_ON : Fld := ⟨.FO_STATUS, 0, 1⟩
abbrev FO_STATUS_OVERLOAD : Fld := ⟨.FO_STATUS, 1, 1⟩
abbrev FO_STATUS_IN_HOLD : Fld := ⟨.FO_STATUS, 2, 1⟩
abbrev PAIR_CFG_ENABLE : Fld := ⟨.PAIR_CFG, 0, 1⟩
abbrev PAIR_CFG_PRIORITY : Fld := ⟨.PAIR_CFG, 8, 8⟩
abbrev PAIR_CFG_FWD_OUT : Fld := ⟨.PAIR_CFG, 32, 16⟩
abbrev PAIR_CFG_FWD_IN : Fld := ⟨.PAIR_CFG, 48, 16⟩
abbrev PAIR_PEER_SERIAL_SERIAL : Fld := ⟨.PAIR_PEER_SERIAL, 0, 64⟩
abbrev PAIR_STATUS_STATE : Fld := ⟨.PAIR_STATUS, 0, 3⟩
abbrev PAIR_STATUS_RIGHTS : Fld := ⟨.PAIR_STATUS, 3, 1⟩
abbrev PAIR_STATUS_KEEP_OUT : Fld := ⟨.PAIR_STATUS, 4, 1⟩
abbrev PAIR_STATUS_PEER_KEEP : Fld := ⟨.PAIR_STATUS, 5, 1⟩
abbrev PAIR_STATUS_CAUSEWAY_UP : Fld := ⟨.PAIR_STATUS, 6, 1⟩
abbrev PAIR_STATUS_SPLIT : Fld := ⟨.PAIR_STATUS, 7, 1⟩
abbrev PAIR_STATUS_PEER_STATE : Fld := ⟨.PAIR_STATUS, 8, 3⟩
abbrev PAIR_STATUS_CFG_REJECTED : Fld := ⟨.PAIR_STATUS, 11, 1⟩
abbrev PAIR_STATUS_MISCONFIG : Fld := ⟨.PAIR_STATUS, 12, 1⟩
abbrev PAIR_STATUS_LAST_TAKEOVER : Fld := ⟨.PAIR_STATUS, 13, 2⟩
abbrev PAIR_CTRL_HANDOVER : Fld := ⟨.PAIR_CTRL, 0, 1⟩
abbrev PAIR_CTRL_CNT_CLEAR : Fld := ⟨.PAIR_CTRL, 1, 1⟩
abbrev PAIR_EPOCH_EPOCH : Fld := ⟨.PAIR_EPOCH, 0, 64⟩
abbrev PAIR_PEER_EPOCH_EPOCH : Fld := ⟨.PAIR_PEER_EPOCH, 0, 64⟩
abbrev PAIR_CUTOVER_TICK : Fld := ⟨.PAIR_CUTOVER, 0, 64⟩
abbrev PAIR_COUNT_TAKEOVERS : Fld := ⟨.PAIR_COUNT, 0, 16⟩
abbrev PAIR_COUNT_STANDDOWNS : Fld := ⟨.PAIR_COUNT, 16, 16⟩
abbrev PAIR_COUNT_CW_LOSSES : Fld := ⟨.PAIR_COUNT, 32, 16⟩
abbrev PAIR_COUNT_FWD_DROPS : Fld := ⟨.PAIR_COUNT, 48, 16⟩
abbrev PAIR_COUNT2_TRIMMED : Fld := ⟨.PAIR_COUNT2, 0, 32⟩
abbrev PAIR_COUNT2_TRIM_GAPS : Fld := ⟨.PAIR_COUNT2, 32, 8⟩
abbrev PAIR_COUNT2_DUP_FLAGGED : Fld := ⟨.PAIR_COUNT2, 40, 16⟩
abbrev PAIR_COUNT2_CW_DISCARDS : Fld := ⟨.PAIR_COUNT2, 56, 8⟩
abbrev PAIR_WM_WM : Fld := ⟨.PAIR_WM, 0, 64⟩
abbrev PAIR_HERD_WM_WM : Fld := ⟨.PAIR_HERD_WM, 0, 64⟩
end F

/-- The fields of each register, from its table (Table 0.3 types). -/
def Reg.fields : Reg → List FSpec
  | .DEV_IDENT => [⟨0, 8, .ro⟩, ⟨8, 8, .ro⟩, ⟨16, 16, .ro⟩]
  | .DEV_MODE => [⟨0, 4, .ro⟩, ⟨4, 4, .ro⟩, ⟨8, 4, .ro⟩, ⟨12, 1, .ro⟩]
  | .DEV_STATUS => [⟨0, 1, .ro⟩, ⟨1, 1, .ro⟩, ⟨2, 1, .ro⟩, ⟨3, 1, .ro⟩, ⟨4, 1, .ro⟩, ⟨5, 1, .ro⟩, ⟨6, 1, .ro⟩,
      ⟨7, 1, .ro⟩, ⟨8, 1, .ro⟩]
  | .DEV_MODE_REQ => [⟨0, 4, .rw⟩, ⟨4, 1, .rw1s⟩, ⟨8, 4, .ro⟩]
  | .DEV_HOLD_CAUSE => [⟨0, 8, .ro⟩, ⟨8, 1, .ro⟩, ⟨9, 4, .ro⟩, ⟨13, 4, .ro⟩]
  | .DEV_RESET => [⟨0, 1, .wo⟩, ⟨16, 16, .wo⟩]
  | .DEV_RESET_CAUSE => [⟨0, 1, .rw1c⟩, ⟨1, 1, .rw1c⟩, ⟨2, 1, .rw1c⟩, ⟨3, 1, .rw1c⟩, ⟨4, 1, .rw1c⟩, ⟨5, 1, .rw1c⟩]
  | .BOOT_STATUS => [⟨0, 4, .ro⟩, ⟨4, 4, .ro⟩, ⟨8, 1, .ro⟩, ⟨9, 1, .ro⟩, ⟨16, 7, .ro⟩, ⟨23, 4, .ro⟩]
  | .BOOT_SEQ => [⟨0, 64, .ro⟩]
  | .RET_SEAL => [⟨0, 16, .ro⟩, ⟨16, 16, .ro⟩]
  | .FEN_STATUS => [⟨0, 1, .ro⟩, ⟨1, 1, .ro⟩, ⟨2, 1, .ro⟩]
  | .FEN_SEG_CTRL => [⟨0, 1, .rw1s⟩, ⟨4, 4, .ro⟩, ⟨8, 7, .ro⟩]
  | .FEN_SEG_MAP => [⟨0, 64, .rw⟩]
  | .FEN_SEG_ACTIVE => [⟨0, 64, .ro⟩]
  | .FEN_ECC => [⟨0, 32, .ro⟩, ⟨32, 16, .ro⟩, ⟨48, 16, .ro⟩]
  | .FEN_UE_ADDR => [⟨3, 34, .ro⟩, ⟨63, 1, .rw1c⟩]
  | .FEN_SCRUB => [⟨0, 1, .rw⟩, ⟨1, 1, .wo⟩, ⟨8, 16, .rw⟩]
  | .FEN_SCRUB_COUNT => [⟨0, 32, .ro⟩, ⟨32, 16, .ro⟩]
  | .FEN_POOL_RELEASE => [⟨16, 21, .wo⟩]
  | .FEN_RELEASE_STATUS => [⟨0, 16, .ro⟩, ⟨16, 16, .ro⟩]
  | .TRG_GLOBAL => [⟨0, 16, .rw⟩]
  | .TRG_ECC => [⟨0, 32, .ro⟩, ⟨32, 16, .ro⟩, ⟨48, 16, .ro⟩]
  | .TRG_WATCH => [⟨0, 16, .rw⟩, ⟨16, 1, .rw⟩]
  | .FEN_POOL_CFG => [⟨0, 1, .rw⟩, ⟨1, 1, .rw⟩, ⟨2, 2, .rw⟩, ⟨4, 1, .wo⟩, ⟨16, 21, .rw⟩, ⟨38, 21, .rw⟩]
  | .FEN_POOL_LIST => [⟨6, 31, .rw⟩, ⟨38, 21, .rw⟩]
  | .FEN_POOL_STATUS => [⟨0, 21, .ro⟩, ⟨21, 2, .ro⟩, ⟨23, 1, .ro⟩, ⟨24, 1, .rw1c⟩, ⟨25, 4, .ro⟩, ⟨32, 21, .ro⟩]
  | .FEN_POOL_COUNT => [⟨0, 32, .ro⟩, ⟨32, 16, .ro⟩, ⟨48, 16, .ro⟩]
  | .TRG_CFG => [⟨0, 1, .rw⟩, ⟨1, 1, .rw⟩, ⟨2, 5, .rw⟩, ⟨7, 1, .rw⟩, ⟨8, 11, .rw⟩]
  | .TRG_BASE => [⟨0, 37, .rw⟩]
  | .TRG_THRESH => [⟨0, 29, .rw⟩]
  | .TRG_DEPTH => [⟨0, 29, .ro⟩, ⟨32, 29, .ro⟩, ⟨61, 1, .ro⟩, ⟨62, 1, .ro⟩, ⟨63, 1, .ro⟩]
  | .TRG_CTRL => [⟨0, 1, .wo⟩, ⟨1, 1, .wo⟩]
  | .TRG_STATUS => [⟨0, 1, .ro⟩, ⟨1, 1, .rw1c⟩, ⟨2, 1, .rw1c⟩, ⟨3, 1, .rw1c⟩, ⟨4, 4, .ro⟩]
  | .TRG_COUNT => [⟨0, 16, .ro⟩, ⟨16, 16, .ro⟩, ⟨32, 16, .ro⟩, ⟨48, 16, .ro⟩]
  | .TRG_DROPS => [⟨0, 32, .ro⟩, ⟨32, 32, .ro⟩]
  | .YARD_GLOBAL => [⟨0, 32, .ro⟩, ⟨32, 16, .ro⟩, ⟨48, 16, .ro⟩]
  | .YARD_CTRL => [⟨0, 1, .wo⟩]
  | .YARD_OVERRUN => [⟨0, 64, .rw1c⟩]
  | .YARD_CH_CFG => [⟨0, 5, .rw⟩, ⟨5, 1, .rw⟩, ⟨6, 1, .rw1c⟩, ⟨8, 9, .ro⟩]
  | .YARD_CH_COUNT => [⟨0, 32, .ro⟩, ⟨32, 16, .ro⟩, ⟨48, 16, .ro⟩]
  | .YARD_CH_LAST => [⟨0, 64, .ro⟩]
  | .YARD_PROD_EN => [⟨0, 64, .rw⟩]
  | .YARD_CONS_EN => [⟨0, 64, .rw⟩]
  | .MGMT_STATUS => [⟨0, 1, .ro⟩, ⟨1, 1, .ro⟩]
  | .MGMT_SMB_CFG => [⟨0, 7, .rw⟩, ⟨8, 2, .rw⟩, ⟨16, 8, .ro⟩]
  | .MGMT_UART_CFG => [⟨0, 24, .rw⟩]
  | .MGMT_IRQ_EN => [⟨0, 10, .rw⟩]
  | .MGMT_DB_WINDOW => [⟨0, 6, .rw⟩]
  | .TEMP => [⟨0, 16, .ro⟩, ⟨16, 16, .ro⟩]
  | .FEN_CASE => [⟨0, 16, .ro⟩, ⟨16, 16, .ro⟩]
  | .RAIL => [⟨0, 16, .ro⟩, ⟨16, 16, .ro⟩, ⟨32, 16, .ro⟩, ⟨48, 16, .ro⟩]
  | .ACTIVITY => [⟨0, 64, .ro⟩]
  | .TELEM_CFG => [⟨0, 12, .rw⟩]
  | .TELEM_CTRL => [⟨0, 1, .wo⟩]
  | .LOG_CFG => [⟨0, 1, .rw⟩, ⟨1, 1, .rw⟩, ⟨2, 1, .rw⟩, ⟨3, 1, .rw⟩, ⟨16, 16, .rw⟩]
  | .LOG_CTRL => [⟨0, 1, .wo⟩, ⟨1, 1, .wo⟩, ⟨2, 1, .wo⟩]
  | .LOG_STATUS => [⟨0, 1, .ro⟩, ⟨16, 16, .ro⟩, ⟨32, 32, .ro⟩]
  | .ALARM_STATUS => [⟨0, 9, .ro⟩, ⟨9, 1, .rw1c⟩, ⟨32, 32, .ro⟩]
  | .ALARM_ACK => [⟨0, 32, .wo⟩]
  | .ALARM_HOLD_SEQ => [⟨0, 32, .ro⟩, ⟨32, 1, .ro⟩]
  | .TRACE_CH_MASK => [⟨0, 64, .rw⟩]
  | .ALARM_CFG => [⟨0, 1, .rw⟩, ⟨1, 1, .rw⟩]
  | .ALARM_SUMMARY => [⟨0, 16, .ro⟩, ⟨16, 16, .ro⟩, ⟨32, 16, .ro⟩, ⟨48, 16, .ro⟩]
  | .IST_CFG => [⟨0, 6, .rw⟩, ⟨8, 8, .rw⟩]
  | .IST_TASK => [⟨0, 16, .rw⟩, ⟨32, 32, .ro⟩]
  | .IST_TASK_COUNT => [⟨0, 32, .ro⟩, ⟨32, 16, .ro⟩, ⟨48, 16, .ro⟩]
  | .FLASH_CTRL => [⟨0, 4, .rw⟩, ⟨4, 1, .rw1s⟩, ⟨16, 16, .wo⟩]
  | .FLASH_ADDR => [⟨0, 32, .rw⟩]
  | .FLASH_STATUS => [⟨0, 4, .ro⟩, ⟨4, 4, .ro⟩, ⟨8, 1, .ro⟩]
  | .SEC_CMD => [⟨0, 4, .rw⟩, ⟨4, 1, .rw1s⟩, ⟨5, 3, .rw⟩, ⟨16, 16, .wo⟩]
  | .SEC_STATUS => [⟨0, 4, .ro⟩, ⟨4, 4, .ro⟩]
  | .TB_NOW => [⟨0, 64, .ro⟩]
  | .TB_STATUS => [⟨0, 2, .ro⟩, ⟨2, 1, .ro⟩, ⟨3, 1, .ro⟩, ⟨4, 1, .ro⟩, ⟨5, 1, .ro⟩, ⟨6, 1, .ro⟩, ⟨7, 1, .rw1c⟩,
      ⟨8, 1, .rw1c⟩, ⟨9, 1, .rw1c⟩]
  | .TB_CFG => [⟨0, 1, .rw⟩, ⟨1, 1, .rw⟩, ⟨2, 1, .rw⟩, ⟨8, 8, .rw⟩, ⟨16, 8, .rw⟩, ⟨24, 8, .rw⟩]
  | .TB_CTRL => [⟨0, 1, .rw1s⟩, ⟨1, 1, .rw⟩, ⟨2, 1, .rw1s⟩, ⟨3, 1, .wo⟩, ⟨4, 1, .rw⟩, ⟨5, 1, .wo⟩]
  | .TB_SET_VALUE => [⟨0, 64, .rw⟩]
  | .TB_ADJUST => [⟨0, 64, .rw⟩]
  | .TB_PPS_STAMP => [⟨0, 64, .ro⟩]
  | .TB_PHASE_ERR => [⟨0, 64, .ro⟩]
  | .TB_COMPARE => [⟨0, 64, .rw⟩]
  | .TB_COMPARE_PERIOD => [⟨0, 64, .rw⟩]
  | .TB_COUNT => [⟨0, 16, .ro⟩, ⟨16, 16, .ro⟩, ⟨32, 16, .ro⟩, ⟨48, 16, .ro⟩]
  | .TB_PPS_OFFSET => [⟨0, 32, .rw⟩]
  | .LATCH_TICK => [⟨0, 64, .ro⟩]
  | .LATCH_POS => [⟨0, 64, .ro⟩]
  | .LATCH_STATUS => [⟨0, 1, .rw1c⟩, ⟨1, 1, .ro⟩, ⟨16, 16, .ro⟩, ⟨32, 32, .ro⟩]
  | .LATCH_CFG => [⟨0, 1, .rw⟩, ⟨1, 1, .rw⟩, ⟨2, 1, .rw⟩, ⟨3, 3, .rw⟩, ⟨16, 16, .rw⟩]
  | .TRIGIN_CFG => [⟨0, 1, .rw⟩, ⟨1, 2, .rw⟩, ⟨4, 8, .rw⟩]
  | .TRIGIN_STATUS => [⟨0, 1, .ro⟩, ⟨16, 16, .ro⟩, ⟨32, 32, .ro⟩]
  | .OUT_CFG => [⟨0, 1, .rw⟩, ⟨1, 1, .rw⟩, ⟨2, 6, .rw⟩, ⟨8, 1, .rw⟩, ⟨9, 3, .rw⟩, ⟨12, 20, .rw⟩, ⟨32, 32, .rw⟩]
  | .OUT_STATUS => [⟨0, 1, .ro⟩, ⟨1, 1, .ro⟩, ⟨2, 4, .ro⟩, ⟨6, 1, .ro⟩]
  | .OUT_COUNT => [⟨0, 16, .ro⟩, ⟨16, 16, .ro⟩, ⟨32, 16, .ro⟩, ⟨48, 16, .ro⟩]
  | .WP_LIST_DESC => [⟨0, 18, .rw⟩, ⟨18, 19, .rw⟩, ⟨37, 3, .rw⟩, ⟨40, 1, .rw⟩]
  | .WP_LIST_CFG => [⟨0, 1, .rw⟩, ⟨16, 16, .rw⟩]
  | .WP_LIST_CTRL => [⟨0, 2, .wo⟩]
  | .WP_LIST_STATUS => [⟨0, 2, .ro⟩, ⟨2, 1, .rw1c⟩, ⟨3, 1, .rw1c⟩, ⟨8, 5, .ro⟩, ⟨32, 19, .ro⟩]
  | .WP_LIST_COUNT => [⟨0, 32, .ro⟩, ⟨32, 16, .ro⟩, ⟨48, 16, .ro⟩]
  | .WP_GLOBAL => [⟨0, 16, .ro⟩, ⟨16, 16, .ro⟩, ⟨32, 16, .ro⟩]
  | .HOST_STATUS => [⟨0, 1, .ro⟩, ⟨1, 3, .ro⟩, ⟨4, 5, .ro⟩, ⟨9, 1, .ro⟩, ⟨10, 1, .ro⟩, ⟨11, 1, .rw1c⟩,
      ⟨12, 1, .ro⟩, ⟨13, 1, .ro⟩, ⟨14, 1, .ro⟩, ⟨15, 1, .ro⟩, ⟨16, 2, .ro⟩]
  | .HOST_CTRL => [⟨0, 1, .wo⟩]
  | .HOST_CPL_TIMEOUT => [⟨0, 17, .rw⟩]
  | .HOST_TAG_STATUS => [⟨0, 15, .ro⟩, ⟨16, 15, .ro⟩, ⟨32, 15, .ro⟩]
  | .HOST_COUNT => [⟨0, 16, .ro⟩, ⟨16, 16, .ro⟩, ⟨32, 16, .ro⟩, ⟨48, 16, .ro⟩]
  | .HOST_COUNT2 => [⟨0, 16, .ro⟩, ⟨16, 16, .ro⟩, ⟨32, 16, .ro⟩, ⟨48, 16, .ro⟩]
  | .HOST_PM_CFG => [⟨0, 10, .rw⟩, ⟨16, 16, .rw⟩]
  | .HIRQ_SRC_CFG => [⟨0, 1, .rw⟩, ⟨1, 11, .rw⟩]
  | .HIRQ_SRC_TICK => [⟨0, 64, .ro⟩]
  | .HIRQ_SRC_PENDING => [⟨0, 16, .rw1c⟩]
  | .HIRQ_DEV_CFG => [⟨0, 1, .rw⟩, ⟨1, 1, .rw⟩, ⟨2, 1, .rw⟩, ⟨16, 11, .rw⟩]
  | .HIRQ_DEV_STATUS => [⟨0, 1, .rw1c⟩, ⟨1, 1, .rw1c⟩, ⟨2, 1, .rw1c⟩]
  | .HIRQ_INTX_CAUSE => [⟨0, 1, .rw1c⟩, ⟨1, 1, .rw1c⟩, ⟨2, 1, .rw1c⟩, ⟨3, 1, .rw1c⟩]
  | .HIRQ_COALESCE => [⟨0, 6, .rw⟩, ⟨8, 6, .rw⟩, ⟨16, 6, .rw⟩, ⟨24, 6, .rw⟩, ⟨32, 6, .rw⟩, ⟨40, 6, .rw⟩,
      ⟨48, 6, .rw⟩, ⟨56, 6, .rw⟩]
  | .ADC_GLOBAL_START => [⟨0, 8, .wo⟩, ⟨8, 8, .wo⟩]
  | .ADC_CFG => [⟨0, 3, .rw⟩, ⟨3, 2, .rw⟩, ⟨5, 1, .rw⟩, ⟨6, 1, .rw⟩, ⟨7, 1, .rw⟩, ⟨8, 3, .rw⟩, ⟨16, 16, .rw⟩]
  | .ADC_CTRL => [⟨0, 1, .wo⟩, ⟨1, 1, .wo⟩, ⟨2, 1, .wo⟩]
  | .ADC_STATUS => [⟨0, 3, .ro⟩, ⟨3, 1, .ro⟩, ⟨4, 1, .ro⟩, ⟨5, 1, .rw1c⟩, ⟨6, 1, .ro⟩, ⟨7, 1, .ro⟩, ⟨8, 3, .ro⟩]
  | .ADC_RUN_LEN => [⟨0, 48, .rw⟩]
  | .ADC_BUF => [⟨0, 6, .rw⟩, ⟨16, 21, .rw⟩]
  | .ADC_BUF_POS => [⟨0, 34, .ro⟩, ⟨34, 30, .ro⟩]
  | .ADC_RUN_INFO => [⟨0, 64, .ro⟩]
  | .ADC_COUNT => [⟨0, 16, .ro⟩, ⟨16, 16, .ro⟩, ⟨32, 16, .ro⟩, ⟨48, 16, .ro⟩]
  | .ADC_URGENT_RESULT => [⟨0, 16, .ro⟩, ⟨16, 3, .ro⟩, ⟨19, 1, .rc⟩, ⟨32, 32, .ro⟩]
  | .ADC_CAL => [⟨0, 3, .rw⟩, ⟨4, 1, .rw⟩, ⟨8, 1, .rw1s⟩, ⟨12, 4, .ro⟩, ⟨16, 16, .rw⟩]
  | .ADC_CAL_MEAN => [⟨0, 32, .ro⟩, ⟨32, 32, .ro⟩]
  | .ADC_COEF => [⟨0, 16, .rw⟩, ⟨32, 18, .rw⟩]
  | .VST_CFG => [⟨0, 8, .rw⟩, ⟨8, 1, .rw⟩, ⟨9, 1, .rw⟩, ⟨10, 1, .rw⟩, ⟨11, 3, .rw⟩, ⟨14, 1, .rw⟩, ⟨16, 6, .rw⟩,
      ⟨24, 24, .rw⟩]
  | .VST_TIMING => [⟨0, 32, .rw⟩, ⟨32, 32, .rw⟩]
  | .VST_GEOM => [⟨0, 16, .rw⟩, ⟨16, 16, .rw⟩, ⟨32, 16, .rw⟩, ⟨48, 16, .rw⟩]
  | .VST_STATUS => [⟨0, 2, .ro⟩, ⟨2, 1, .rw1c⟩, ⟨16, 16, .ro⟩, ⟨32, 32, .ro⟩]
  | .VST_COUNT => [⟨0, 32, .ro⟩, ⟨32, 16, .ro⟩, ⟨48, 16, .ro⟩]
  | .STALL_LINK_CFG => [⟨0, 2, .rw⟩, ⟨2, 1, .rw⟩, ⟨4, 2, .rw⟩, ⟨8, 1, .rw⟩, ⟨9, 1, .rw⟩, ⟨15, 1, .wo⟩]
  | .STALL_LINK_STATUS => [⟨0, 4, .ro⟩, ⟨4, 2, .ro⟩, ⟨8, 1, .ro⟩, ⟨9, 4, .ro⟩, ⟨16, 1, .rw1c⟩, ⟨17, 1, .rw1c⟩]
  | .STALL_LM_CTRL => [⟨0, 4, .rw⟩, ⟨4, 2, .rw⟩, ⟨8, 1, .rw1s⟩, ⟨12, 4, .ro⟩, ⟨16, 1, .rw⟩, ⟨17, 1, .rw⟩]
  | .STALL_LM_CAMREQ => [⟨0, 8, .ro⟩, ⟨8, 2, .ro⟩, ⟨16, 8, .ro⟩, ⟨31, 1, .rw1c⟩]
  | .STALL_SKEW => [⟨0, 8, .ro⟩, ⟨8, 8, .ro⟩, ⟨16, 8, .ro⟩, ⟨24, 8, .ro⟩]
  | .STALL_LINK_COUNT => [⟨0, 16, .ro⟩, ⟨16, 16, .ro⟩, ⟨32, 16, .ro⟩, ⟨48, 16, .ro⟩]
  | .LANE_CTRL => [⟨0, 1, .rw⟩, ⟨1, 1, .rw⟩, ⟨2, 1, .rw⟩, ⟨3, 3, .rw⟩, ⟨6, 1, .rw⟩, ⟨7, 1, .rw⟩, ⟨15, 1, .wo⟩]
  | .LANE_STATUS => [⟨0, 4, .ro⟩, ⟨4, 1, .ro⟩, ⟨5, 1, .ro⟩, ⟨6, 1, .ro⟩, ⟨7, 1, .ro⟩, ⟨8, 1, .ro⟩, ⟨9, 1, .ro⟩,
      ⟨10, 1, .ro⟩, ⟨11, 1, .ro⟩, ⟨12, 1, .ro⟩, ⟨16, 4, .ro⟩]
  | .LANE_TX_FIR_SET => [⟨0, 5, .rw⟩, ⟨8, 7, .rw⟩, ⟨16, 5, .rw⟩]
  | .LANE_TX_FIR => [⟨0, 5, .ro⟩, ⟨8, 7, .ro⟩, ⟨16, 5, .ro⟩]
  | .LANE_EYE => [⟨0, 8, .ro⟩, ⟨8, 8, .ro⟩, ⟨16, 8, .ro⟩, ⟨24, 8, .ro⟩, ⟨32, 16, .ro⟩]
  | .LANE_FEC_CW_CORR => [⟨0, 64, .ro⟩]
  | .LANE_FEC_CW_UNCORR => [⟨0, 64, .ro⟩]
  | .LANE_FEC_SYM_CORR => [⟨0, 64, .ro⟩]
  | .LANE_BLOCK_ERR => [⟨0, 16, .ro⟩, ⟨16, 16, .ro⟩]
  | .LANE_PAT_CTRL => [⟨0, 1, .rw⟩, ⟨1, 1, .rw⟩, ⟨2, 3, .rw⟩, ⟨5, 1, .ro⟩, ⟨6, 2, .rw⟩, ⟨8, 1, .rw1s⟩,
      ⟨12, 4, .rw⟩, ⟨16, 4, .rw⟩]
  | .LANE_PAT_BITS => [⟨0, 64, .rc⟩]
  | .LANE_PAT_ERR => [⟨0, 64, .rc⟩]
  | .STALL_PROTO_CFG => [⟨0, 1, .rw⟩, ⟨1, 1, .wo⟩, ⟨8, 8, .rw⟩, ⟨16, 16, .rw⟩]
  | .STALL_PROTO_STATUS => [⟨0, 2, .ro⟩, ⟨2, 1, .ro⟩, ⟨3, 1, .ro⟩, ⟨4, 1, .ro⟩, ⟨5, 1, .ro⟩, ⟨6, 1, .ro⟩,
      ⟨7, 1, .ro⟩, ⟨8, 1, .rw1c⟩]
  | .STALL_CTRL_CFG => [⟨0, 16, .rw⟩, ⟨16, 16, .rw⟩, ⟨32, 16, .rw⟩, ⟨48, 16, .rw⟩]
  | .STALL_CTRL_STATUS => [⟨0, 9, .ro⟩, ⟨9, 9, .ro⟩, ⟨18, 1, .ro⟩]
  | .STALL_LATENCY => [⟨0, 20, .ro⟩, ⟨31, 1, .ro⟩]
  | .STALL_TRIG_CFG => [⟨0, 16, .rw⟩, ⟨16, 16, .rw⟩]
  | .STALL_FRAME_ID => [⟨0, 32, .ro⟩, ⟨32, 32, .ro⟩]
  | .STALL_PKT_ERR => [⟨0, 16, .ro⟩, ⟨16, 16, .ro⟩, ⟨32, 16, .ro⟩, ⟨48, 16, .ro⟩]
  | .STALL_FRAME_ERR => [⟨0, 16, .ro⟩, ⟨16, 16, .ro⟩, ⟨32, 16, .ro⟩, ⟨48, 16, .ro⟩]
  | .STALL_CTRL_ERR => [⟨0, 16, .ro⟩, ⟨16, 16, .ro⟩, ⟨32, 16, .ro⟩, ⟨48, 16, .ro⟩]
  | .STALL_TRIG_COUNT => [⟨0, 32, .ro⟩, ⟨32, 16, .ro⟩, ⟨48, 16, .ro⟩]
  | .STALL_HB => [⟨0, 32, .ro⟩, ⟨32, 16, .ro⟩]
  | .STALL_PATH_ERR => [⟨0, 16, .ro⟩, ⟨16, 16, .ro⟩]
  | .PPORT_CFG => [⟨0, 1, .rw⟩, ⟨1, 1, .rw⟩, ⟨2, 1, .rw⟩, ⟨3, 1, .rw⟩, ⟨4, 1, .rw⟩, ⟨5, 1, .rw⟩, ⟨8, 3, .rw⟩,
      ⟨16, 16, .rw⟩]
  | .PPORT_GEOM => [⟨0, 16, .rw⟩, ⟨16, 16, .rw⟩]
  | .PPORT_STATUS => [⟨0, 1, .ro⟩, ⟨1, 1, .ro⟩, ⟨2, 1, .rw1c⟩, ⟨3, 1, .rw1c⟩]
  | .PPORT_COUNT => [⟨0, 32, .ro⟩, ⟨32, 16, .ro⟩, ⟨48, 16, .ro⟩]
  | .PPORT_DESKEW => [⟨0, 6, .rw⟩]
  | .CTX_CTRL => [⟨0, 1, .rw⟩, ⟨1, 1, .rw1c⟩, ⟨8, 1, .wo⟩]
  | .CTX_STATUS => [⟨0, 2, .ro⟩, ⟨2, 2, .ro⟩, ⟨4, 1, .ro⟩, ⟨5, 1, .ro⟩, ⟨6, 1, .ro⟩, ⟨7, 1, .rw1c⟩]
  | .CTX_COMMIT => [⟨0, 1, .rw⟩, ⟨4, 1, .rw1s⟩, ⟨5, 1, .rw1s⟩, ⟨6, 1, .rw1c⟩, ⟨8, 4, .ro⟩, ⟨12, 10, .ro⟩]
  | .CTX_APPLIED => [⟨0, 32, .ro⟩, ⟨32, 32, .ro⟩]
  | .CTX_APPLIED_SEQ => [⟨0, 64, .ro⟩]
  | .CTX_COUNT => [⟨0, 32, .ro⟩, ⟨32, 16, .ro⟩, ⟨48, 16, .ro⟩]
  | .CTX_COUNT2 => [⟨0, 16, .ro⟩, ⟨16, 16, .ro⟩, ⟨32, 16, .ro⟩, ⟨48, 16, .ro⟩]
  | .CHUTE_CFG => [⟨0, 2, .rw⟩, ⟨2, 1, .rw1c⟩]
  | .CHUTE_STATUS => [⟨0, 4, .ro⟩, ⟨4, 1, .ro⟩, ⟨8, 6, .ro⟩, ⟨16, 6, .ro⟩, ⟨24, 6, .ro⟩, ⟨32, 6, .ro⟩]
  | .CHUTE_COUNT => [⟨0, 32, .ro⟩, ⟨32, 16, .ro⟩, ⟨48, 16, .ro⟩]
  | .CHUTE_DEFECT_BASE => [⟨0, 1, .rw1c⟩, ⟨16, 21, .rw⟩]
  | .CRIB_LOAD => [⟨0, 7, .rw⟩, ⟨8, 2, .rw⟩, ⟨16, 1, .rw1s⟩, ⟨20, 4, .ro⟩]
  | .CRIB_LOAD_ADDR => [⟨6, 31, .rw⟩]
  | .CRIB_LOAD_CRC => [⟨0, 32, .rw⟩]
  | .CRIB_STATE => [⟨0, 64, .ro⟩]
  | .PADDOCK_LOAD => [⟨0, 6, .rw⟩, ⟨16, 1, .rw1s⟩, ⟨20, 4, .ro⟩]
  | .PADDOCK_LOAD_ADDR => [⟨6, 31, .rw⟩]
  | .PADDOCK_LOAD_CRC => [⟨0, 32, .rw⟩]
  | .PADDOCK_LOAD_RANGE => [⟨0, 16, .rw⟩, ⟨16, 15, .rw⟩]
  | .PADDOCK_SET => [⟨0, 16, .ro⟩, ⟨16, 15, .ro⟩, ⟨32, 2, .ro⟩, ⟨34, 1, .ro⟩]
  | .RED_CTX_CTRL => [⟨0, 1, .wo⟩]
  | .RED_CTX_STATE => [⟨0, 1, .ro⟩, ⟨1, 1, .ro⟩, ⟨16, 16, .ro⟩, ⟨32, 32, .ro⟩]
  | .RED_CTX_COUNT => [⟨0, 16, .ro⟩, ⟨16, 16, .ro⟩, ⟨32, 16, .ro⟩, ⟨48, 16, .ro⟩]
  | .RED_CTX_OFFSET => [⟨0, 22, .ro⟩, ⟨32, 22, .ro⟩, ⟨63, 1, .ro⟩]
  | .SLUICE_CFG => [⟨0, 1, .rw⟩, ⟨1, 1, .rw⟩, ⟨2, 1, .wo⟩, ⟨8, 8, .rw⟩]
  | .SLUICE_STATUS => [⟨0, 17, .ro⟩, ⟨17, 11, .ro⟩, ⟨28, 1, .ro⟩]
  | .SLUICE_COUNT => [⟨0, 32, .ro⟩, ⟨32, 16, .ro⟩, ⟨48, 16, .ro⟩]
  | .SLUICE_COUNT2 => [⟨0, 16, .ro⟩, ⟨16, 16, .ro⟩, ⟨32, 16, .ro⟩, ⟨48, 16, .ro⟩]
  | .MIRROR_CFG => [⟨0, 1, .rw⟩, ⟨1, 5, .rw⟩, ⟨32, 32, .ro⟩]
  | .MIRROR_BASE => [⟨12, 52, .rw⟩]
  | .MIRROR_PTR => [⟨3, 61, .rw⟩]
  | .HERD_CFG => [⟨0, 1, .rw⟩, ⟨1, 1, .rw⟩, ⟨2, 10, .rw⟩, ⟨16, 16, .rw⟩]
  | .HERD_ORIGIN => [⟨0, 64, .rw⟩]
  | .HERD_PERIOD => [⟨0, 40, .rw⟩, ⟨40, 24, .rw⟩]
  | .HERD_STATUS => [⟨0, 20, .ro⟩, ⟨20, 1, .rw1c⟩, ⟨21, 1, .rw1c⟩, ⟨32, 32, .ro⟩]
  | .HERD_COUNT => [⟨0, 32, .ro⟩, ⟨32, 16, .ro⟩, ⟨48, 16, .ro⟩]
  | .HERD_COUNT2 => [⟨0, 16, .ro⟩, ⟨16, 16, .ro⟩, ⟨32, 16, .ro⟩]
  | .RING_PTR => [⟨0, 16, .rw⟩, ⟨16, 16, .ro⟩]
  | .RING_BASE => [⟨0, 5, .rw⟩, ⟨5, 1, .rw⟩, ⟨6, 58, .rw⟩]
  | .RING_COMPL => [⟨6, 58, .rw⟩]
  | .RING_TAG => [⟨6, 58, .rw⟩]
  | .RING_CTRL => [⟨0, 1, .rw⟩, ⟨1, 3, .ro⟩, ⟨4, 1, .rw⟩, ⟨5, 11, .rw⟩, ⟨16, 1, .rw1c⟩, ⟨20, 12, .rw⟩,
      ⟨32, 16, .rw⟩, ⟨48, 16, .rw⟩]
  | .CTX_DEST_NEXT => [⟨6, 58, .rw⟩]
  | .CTX_DEST_CTRL => [⟨0, 32, .rw⟩, ⟨32, 1, .rw1s⟩, ⟨33, 1, .rw1s⟩, ⟨36, 4, .ro⟩]
  | .CTX_DEST_STATUS => [⟨0, 32, .ro⟩, ⟨32, 1, .ro⟩, ⟨33, 1, .ro⟩]
  | .CTX_DEST_COUNT => [⟨0, 32, .ro⟩, ⟨32, 16, .ro⟩, ⟨48, 16, .ro⟩]
  | .CTX_SEQ_HI => [⟨0, 32, .rw⟩]
  | .GROOM_CTRL => [⟨0, 1, .rw⟩, ⟨1, 1, .wo⟩, ⟨2, 1, .wo⟩, ⟨3, 1, .wo⟩, ⟨4, 1, .rw1c⟩, ⟨16, 14, .rw⟩]
  | .GROOM_STATUS => [⟨0, 2, .ro⟩, ⟨2, 1, .ro⟩, ⟨4, 14, .ro⟩, ⟨32, 14, .ro⟩, ⟨46, 2, .ro⟩]
  | .GROOM_FAULT => [⟨0, 64, .ro⟩]
  | .GROOM_EV => [⟨0, 16, .ro⟩, ⟨16, 16, .ro⟩]
  | .GROOM_WDOG_CFG => [⟨0, 64, .ro⟩]
  | .GROOM_DEV_COUNT => [⟨0, 16, .ro⟩, ⟨16, 16, .ro⟩, ⟨32, 16, .ro⟩, ⟨48, 16, .ro⟩]
  | .GROOM_DEV_COUNT2 => [⟨0, 16, .ro⟩, ⟨16, 16, .ro⟩, ⟨32, 16, .ro⟩, ⟨48, 16, .ro⟩]
  | .GROOM_G => [⟨0, 64, .ro⟩]
  | .GROOM_GROUP => [⟨0, 16, .wo⟩, ⟨16, 16, .wo⟩]
  | .FLD_STATUS => [⟨0, 1, .ro⟩, ⟨1, 1, .ro⟩, ⟨2, 1, .ro⟩, ⟨3, 1, .ro⟩, ⟨4, 1, .ro⟩, ⟨5, 1, .rw1c⟩, ⟨6, 1, .rw1c⟩]
  | .FLD_CTRL => [⟨0, 1, .wo⟩]
  | .FLD_LEVEE_COUNT => [⟨0, 16, .ro⟩, ⟨16, 16, .ro⟩, ⟨32, 16, .ro⟩, ⟨48, 16, .ro⟩]
  | .FLD_VFIELD => [⟨0, 16, .ro⟩]
  | .ENC_CFG => [⟨0, 1, .rw⟩, ⟨1, 2, .rw⟩, ⟨3, 2, .rw⟩, ⟨5, 1, .rw⟩, ⟨6, 2, .rw⟩, ⟨8, 1, .rw⟩, ⟨9, 1, .rw⟩,
      ⟨16, 8, .rw⟩, ⟨24, 6, .rw⟩, ⟨30, 1, .rw⟩, ⟨31, 1, .rw⟩, ⟨32, 8, .rw⟩, ⟨40, 8, .rw⟩]
  | .ENC_STATUS => [⟨0, 2, .ro⟩, ⟨2, 3, .ro⟩, ⟨5, 3, .ro⟩, ⟨8, 4, .ro⟩, ⟨12, 1, .ro⟩, ⟨13, 1, .rw1c⟩, ⟨14, 1, .rw1c⟩]
  | .ENC_POS => [⟨0, 64, .ro⟩]
  | .ENC_POS_TICK => [⟨0, 64, .ro⟩]
  | .ENC_LOAD => [⟨0, 64, .rw⟩]
  | .ENC_Z_POS => [⟨0, 64, .ro⟩]
  | .ENC_COUNT => [⟨0, 16, .ro⟩, ⟨16, 16, .ro⟩, ⟨32, 16, .ro⟩, ⟨48, 16, .ro⟩]
  | .ENC_CTRL => [⟨0, 1, .wo⟩, ⟨1, 1, .rw1s⟩]
  | .FI_CFG => [⟨0, 1, .rw⟩, ⟨1, 2, .rw⟩, ⟨16, 16, .rw⟩]
  | .FI_STATUS => [⟨0, 1, .ro⟩, ⟨1, 1, .ro⟩, ⟨16, 16, .ro⟩, ⟨32, 32, .ro⟩]
  | .FO_CFG => [⟨0, 1, .rw⟩]
  | .FO_STATUS => [⟨0, 1, .ro⟩, ⟨1, 1, .rw1c⟩, ⟨2, 1, .ro⟩]
  | .PAIR_CFG => [⟨0, 1, .rw⟩, ⟨8, 8, .rw⟩, ⟨32, 16, .rw⟩, ⟨48, 16, .rw⟩]
  | .PAIR_PEER_SERIAL => [⟨0, 64, .rw⟩]
  | .PAIR_STATUS => [⟨0, 3, .ro⟩, ⟨3, 1, .ro⟩, ⟨4, 1, .ro⟩, ⟨5, 1, .ro⟩, ⟨6, 1, .ro⟩, ⟨7, 1, .ro⟩, ⟨8, 3, .ro⟩,
      ⟨11, 1, .rw1c⟩, ⟨12, 1, .rw1c⟩, ⟨13, 2, .ro⟩]
  | .PAIR_CTRL => [⟨0, 1, .rw1s⟩, ⟨1, 1, .wo⟩]
  | .PAIR_EPOCH => [⟨0, 64, .ro⟩]
  | .PAIR_PEER_EPOCH => [⟨0, 64, .ro⟩]
  | .PAIR_CUTOVER => [⟨0, 64, .ro⟩]
  | .PAIR_COUNT => [⟨0, 16, .ro⟩, ⟨16, 16, .ro⟩, ⟨32, 16, .ro⟩, ⟨48, 16, .ro⟩]
  | .PAIR_COUNT2 => [⟨0, 32, .ro⟩, ⟨32, 8, .ro⟩, ⟨40, 16, .ro⟩, ⟨56, 8, .ro⟩]
  | .PAIR_WM => [⟨0, 64, .ro⟩]
  | .PAIR_HERD_WM => [⟨0, 64, .ro⟩]

/-- The Reset column of each register's table; instance `i` matters only where the table gives instances different values. -/
def Reg.rst (r : Reg) (i : Nat) : Word :=
  match r with
  | .DEV_IDENT => 0xf1601c0
  | .DEV_MODE => 0x1323
  | .DEV_STATUS => 0x2
  | .DEV_MODE_REQ => 0x4
  | .DEV_RESET_CAUSE => 0x1
  | .FEN_SCRUB => 0xe1001
  | .TRG_GLOBAL => 0xa
  | .TRG_CFG => 0x10
  | .TRG_THRESH => 0x1fffffff
  | .TRG_STATUS => 0x1
  | .MGMT_SMB_CFG => 0x24e
  | .MGMT_UART_CFG => 0x1c200
  | .TELEM_CFG => 0x5f0
  | .LOG_CFG => 0x40000000
  | .ALARM_CFG => if i = 0x01 ∨ i = 0x06 ∨ i = 0x08 then 3 else 2
  | .IST_CFG => 0x203f
  | .IST_TASK => 0xe10
  | .TB_STATUS => 0x4
  | .TB_CFG => 0xa646400
  | .HOST_CPL_TIMEOUT => 0xc350
  | .HOST_PM_CFG => 0x3e8000a
  | .ADC_CFG => 0x400
  | .ADC_CAL => 0x1f400000
  | .ADC_COEF => 0x1000000000000
  | .VST_CFG => 0x2000002400
  | .VST_TIMING => 0x1f40
  | .VST_GEOM => 0x2000200
  | .STALL_LINK_CFG => 0x14
  | .STALL_LM_CTRL => 0x20000
  | .LANE_CTRL => 0x90
  | .LANE_TX_FIR_SET => 0x83404
  | .LANE_TX_FIR => 0x4000
  | .STALL_PROTO_CFG => 0x27100101
  | .STALL_CTRL_CFG => 0x64000000000000
  | .STALL_TRIG_CFG => 0x20000000
  | .PPORT_CFG => 0x400
  | .PPORT_GEOM => 0x4000400
  | .SLUICE_CFG => 0x1001
  | .ENC_CFG => 0x140459000000
  | .FI_CFG => 0x640000
  | .FO_STATUS => 0x4
  | .PAIR_CFG => 0x8000
  | _ => 0

/-- The chapter whose tables give the register (used by the resets). -/
def Reg.chapter : Reg → Nat
  | .DEV_IDENT | .DEV_MODE | .DEV_STATUS | .DEV_MODE_REQ | .DEV_HOLD_CAUSE | .DEV_RESET | .DEV_RESET_CAUSE 
  | .BOOT_STATUS | .BOOT_SEQ | .RET_SEAL => 2
  | .STALL_LINK_CFG | .STALL_LINK_STATUS | .STALL_LM_CTRL | .STALL_LM_CAMREQ | .STALL_SKEW | .STALL_LINK_COUNT 
  | .LANE_CTRL | .LANE_STATUS | .LANE_TX_FIR_SET | .LANE_TX_FIR | .LANE_EYE | .LANE_FEC_CW_CORR 
  | .LANE_FEC_CW_UNCORR | .LANE_FEC_SYM_CORR | .LANE_BLOCK_ERR | .LANE_PAT_CTRL | .LANE_PAT_BITS 
  | .LANE_PAT_ERR => 3
  | .STALL_PROTO_CFG | .STALL_PROTO_STATUS | .STALL_CTRL_CFG | .STALL_CTRL_STATUS | .STALL_LATENCY 
  | .STALL_TRIG_CFG | .STALL_FRAME_ID | .STALL_PKT_ERR | .STALL_FRAME_ERR | .STALL_CTRL_ERR | .STALL_TRIG_COUNT 
  | .STALL_HB | .STALL_PATH_ERR | .PPORT_CFG | .PPORT_GEOM | .PPORT_STATUS | .PPORT_COUNT | .PPORT_DESKEW => 4
  | .CTX_CTRL | .CTX_STATUS | .CTX_COMMIT | .CTX_APPLIED | .CTX_APPLIED_SEQ | .CTX_COUNT | .CTX_COUNT2 
  | .CHUTE_CFG | .CHUTE_STATUS | .CHUTE_COUNT | .CHUTE_DEFECT_BASE | .CRIB_LOAD | .CRIB_LOAD_ADDR 
  | .CRIB_LOAD_CRC | .CRIB_STATE => 5
  | .PADDOCK_LOAD | .PADDOCK_LOAD_ADDR | .PADDOCK_LOAD_CRC | .PADDOCK_LOAD_RANGE | .PADDOCK_SET | .RED_CTX_CTRL 
  | .RED_CTX_STATE | .RED_CTX_COUNT | .RED_CTX_OFFSET => 6
  | .ADC_GLOBAL_START | .ADC_CFG | .ADC_CTRL | .ADC_STATUS | .ADC_RUN_LEN | .ADC_BUF | .ADC_BUF_POS 
  | .ADC_RUN_INFO | .ADC_COUNT | .ADC_URGENT_RESULT | .ADC_CAL | .ADC_CAL_MEAN | .ADC_COEF | .VST_CFG 
  | .VST_TIMING | .VST_GEOM | .VST_STATUS | .VST_COUNT => 7
  | .FEN_STATUS | .FEN_SEG_CTRL | .FEN_SEG_MAP | .FEN_SEG_ACTIVE | .FEN_ECC | .FEN_UE_ADDR | .FEN_SCRUB 
  | .FEN_SCRUB_COUNT | .FEN_POOL_RELEASE | .FEN_RELEASE_STATUS | .TRG_GLOBAL | .TRG_ECC | .TRG_WATCH 
  | .FEN_POOL_CFG | .FEN_POOL_LIST | .FEN_POOL_STATUS | .FEN_POOL_COUNT | .TRG_CFG | .TRG_BASE | .TRG_THRESH 
  | .TRG_DEPTH | .TRG_CTRL | .TRG_STATUS | .TRG_COUNT | .TRG_DROPS => 8
  | .SLUICE_CFG | .SLUICE_STATUS | .SLUICE_COUNT | .SLUICE_COUNT2 | .MIRROR_CFG | .MIRROR_BASE | .MIRROR_PTR 
  | .HERD_CFG | .HERD_ORIGIN | .HERD_PERIOD | .HERD_STATUS | .HERD_COUNT | .HERD_COUNT2 | .RING_PTR 
  | .RING_BASE | .RING_COMPL | .RING_TAG | .RING_CTRL | .CTX_DEST_NEXT | .CTX_DEST_CTRL | .CTX_DEST_STATUS 
  | .CTX_DEST_COUNT | .CTX_SEQ_HI => 9
  | .GROOM_CTRL | .GROOM_STATUS | .GROOM_FAULT | .GROOM_EV | .GROOM_WDOG_CFG | .GROOM_DEV_COUNT 
  | .GROOM_DEV_COUNT2 | .GROOM_G | .GROOM_GROUP => 11
  | .TB_NOW | .TB_STATUS | .TB_CFG | .TB_CTRL | .TB_SET_VALUE | .TB_ADJUST | .TB_PPS_STAMP | .TB_PHASE_ERR 
  | .TB_COMPARE | .TB_COMPARE_PERIOD | .TB_COUNT | .TB_PPS_OFFSET | .LATCH_TICK | .LATCH_POS | .LATCH_STATUS 
  | .LATCH_CFG | .TRIGIN_CFG | .TRIGIN_STATUS | .OUT_CFG | .OUT_STATUS | .OUT_COUNT | .WP_LIST_DESC 
  | .WP_LIST_CFG | .WP_LIST_CTRL | .WP_LIST_STATUS | .WP_LIST_COUNT | .WP_GLOBAL => 12
  | .YARD_GLOBAL | .YARD_CTRL | .YARD_OVERRUN | .YARD_CH_CFG | .YARD_CH_COUNT | .YARD_CH_LAST | .YARD_PROD_EN 
  | .YARD_CONS_EN => 13
  | .FLD_STATUS | .FLD_CTRL | .FLD_LEVEE_COUNT | .FLD_VFIELD | .ENC_CFG | .ENC_STATUS | .ENC_POS 
  | .ENC_POS_TICK | .ENC_LOAD | .ENC_Z_POS | .ENC_COUNT | .ENC_CTRL | .FI_CFG | .FI_STATUS | .FO_CFG 
  | .FO_STATUS => 14
  | .HOST_STATUS | .HOST_CTRL | .HOST_CPL_TIMEOUT | .HOST_TAG_STATUS | .HOST_COUNT | .HOST_COUNT2 
  | .HOST_PM_CFG | .HIRQ_SRC_CFG | .HIRQ_SRC_TICK | .HIRQ_SRC_PENDING | .HIRQ_DEV_CFG | .HIRQ_DEV_STATUS 
  | .HIRQ_INTX_CAUSE | .HIRQ_COALESCE => 15
  | .PAIR_CFG | .PAIR_PEER_SERIAL | .PAIR_STATUS | .PAIR_CTRL | .PAIR_EPOCH | .PAIR_PEER_EPOCH | .PAIR_CUTOVER 
  | .PAIR_COUNT | .PAIR_COUNT2 | .PAIR_WM | .PAIR_HERD_WM => 16
  | .MGMT_STATUS | .MGMT_SMB_CFG | .MGMT_UART_CFG | .MGMT_IRQ_EN | .MGMT_DB_WINDOW | .TEMP | .FEN_CASE | .RAIL 
  | .ACTIVITY | .TELEM_CFG | .TELEM_CTRL | .LOG_CFG | .LOG_CTRL | .LOG_STATUS | .ALARM_STATUS | .ALARM_ACK 
  | .ALARM_HOLD_SEQ | .TRACE_CH_MASK | .ALARM_CFG | .ALARM_SUMMARY | .IST_CFG | .IST_TASK | .IST_TASK_COUNT 
  | .FLASH_CTRL | .FLASH_ADDR | .FLASH_STATUS | .SEC_CMD | .SEC_STATUS => 17

/-- Every register, in the order of its number. -/
def Reg.all : List Reg := [
  .DEV_IDENT, .DEV_MODE, .DEV_STATUS, .DEV_MODE_REQ, .DEV_HOLD_CAUSE, .DEV_RESET, .DEV_RESET_CAUSE, .BOOT_STATUS, 
  .BOOT_SEQ, .RET_SEAL, .FEN_STATUS, .FEN_SEG_CTRL, .FEN_SEG_MAP, .FEN_SEG_ACTIVE, .FEN_ECC, .FEN_UE_ADDR, 
  .FEN_SCRUB, .FEN_SCRUB_COUNT, .FEN_POOL_RELEASE, .FEN_RELEASE_STATUS, .TRG_GLOBAL, .TRG_ECC, .TRG_WATCH, 
  .FEN_POOL_CFG, .FEN_POOL_LIST, .FEN_POOL_STATUS, .FEN_POOL_COUNT, .TRG_CFG, .TRG_BASE, .TRG_THRESH, .TRG_DEPTH, 
  .TRG_CTRL, .TRG_STATUS, .TRG_COUNT, .TRG_DROPS, .YARD_GLOBAL, .YARD_CTRL, .YARD_OVERRUN, .YARD_CH_CFG, 
  .YARD_CH_COUNT, .YARD_CH_LAST, .YARD_PROD_EN, .YARD_CONS_EN, .MGMT_STATUS, .MGMT_SMB_CFG, .MGMT_UART_CFG, 
  .MGMT_IRQ_EN, .MGMT_DB_WINDOW, .TEMP, .FEN_CASE, .RAIL, .ACTIVITY, .TELEM_CFG, .TELEM_CTRL, .LOG_CFG, .LOG_CTRL, 
  .LOG_STATUS, .ALARM_STATUS, .ALARM_ACK, .ALARM_HOLD_SEQ, .TRACE_CH_MASK, .ALARM_CFG, .ALARM_SUMMARY, .IST_CFG, 
  .IST_TASK, .IST_TASK_COUNT, .FLASH_CTRL, .FLASH_ADDR, .FLASH_STATUS, .SEC_CMD, .SEC_STATUS, .TB_NOW, .TB_STATUS, 
  .TB_CFG, .TB_CTRL, .TB_SET_VALUE, .TB_ADJUST, .TB_PPS_STAMP, .TB_PHASE_ERR, .TB_COMPARE, .TB_COMPARE_PERIOD, 
  .TB_COUNT, .TB_PPS_OFFSET, .LATCH_TICK, .LATCH_POS, .LATCH_STATUS, .LATCH_CFG, .TRIGIN_CFG, .TRIGIN_STATUS, 
  .OUT_CFG, .OUT_STATUS, .OUT_COUNT, .WP_LIST_DESC, .WP_LIST_CFG, .WP_LIST_CTRL, .WP_LIST_STATUS, .WP_LIST_COUNT, 
  .WP_GLOBAL, .HOST_STATUS, .HOST_CTRL, .HOST_CPL_TIMEOUT, .HOST_TAG_STATUS, .HOST_COUNT, .HOST_COUNT2, .HOST_PM_CFG, 
  .HIRQ_SRC_CFG, .HIRQ_SRC_TICK, .HIRQ_SRC_PENDING, .HIRQ_DEV_CFG, .HIRQ_DEV_STATUS, .HIRQ_INTX_CAUSE, 
  .HIRQ_COALESCE, .ADC_GLOBAL_START, .ADC_CFG, .ADC_CTRL, .ADC_STATUS, .ADC_RUN_LEN, .ADC_BUF, .ADC_BUF_POS, 
  .ADC_RUN_INFO, .ADC_COUNT, .ADC_URGENT_RESULT, .ADC_CAL, .ADC_CAL_MEAN, .ADC_COEF, .VST_CFG, .VST_TIMING, 
  .VST_GEOM, .VST_STATUS, .VST_COUNT, .STALL_LINK_CFG, .STALL_LINK_STATUS, .STALL_LM_CTRL, .STALL_LM_CAMREQ, 
  .STALL_SKEW, .STALL_LINK_COUNT, .LANE_CTRL, .LANE_STATUS, .LANE_TX_FIR_SET, .LANE_TX_FIR, .LANE_EYE, 
  .LANE_FEC_CW_CORR, .LANE_FEC_CW_UNCORR, .LANE_FEC_SYM_CORR, .LANE_BLOCK_ERR, .LANE_PAT_CTRL, .LANE_PAT_BITS, 
  .LANE_PAT_ERR, .STALL_PROTO_CFG, .STALL_PROTO_STATUS, .STALL_CTRL_CFG, .STALL_CTRL_STATUS, .STALL_LATENCY, 
  .STALL_TRIG_CFG, .STALL_FRAME_ID, .STALL_PKT_ERR, .STALL_FRAME_ERR, .STALL_CTRL_ERR, .STALL_TRIG_COUNT, .STALL_HB, 
  .STALL_PATH_ERR, .PPORT_CFG, .PPORT_GEOM, .PPORT_STATUS, .PPORT_COUNT, .PPORT_DESKEW, .CTX_CTRL, .CTX_STATUS, 
  .CTX_COMMIT, .CTX_APPLIED, .CTX_APPLIED_SEQ, .CTX_COUNT, .CTX_COUNT2, .CHUTE_CFG, .CHUTE_STATUS, .CHUTE_COUNT, 
  .CHUTE_DEFECT_BASE, .CRIB_LOAD, .CRIB_LOAD_ADDR, .CRIB_LOAD_CRC, .CRIB_STATE, .PADDOCK_LOAD, .PADDOCK_LOAD_ADDR, 
  .PADDOCK_LOAD_CRC, .PADDOCK_LOAD_RANGE, .PADDOCK_SET, .RED_CTX_CTRL, .RED_CTX_STATE, .RED_CTX_COUNT, 
  .RED_CTX_OFFSET, .SLUICE_CFG, .SLUICE_STATUS, .SLUICE_COUNT, .SLUICE_COUNT2, .MIRROR_CFG, .MIRROR_BASE, 
  .MIRROR_PTR, .HERD_CFG, .HERD_ORIGIN, .HERD_PERIOD, .HERD_STATUS, .HERD_COUNT, .HERD_COUNT2, .RING_PTR, .RING_BASE, 
  .RING_COMPL, .RING_TAG, .RING_CTRL, .CTX_DEST_NEXT, .CTX_DEST_CTRL, .CTX_DEST_STATUS, .CTX_DEST_COUNT, .CTX_SEQ_HI, 
  .GROOM_CTRL, .GROOM_STATUS, .GROOM_FAULT, .GROOM_EV, .GROOM_WDOG_CFG, .GROOM_DEV_COUNT, .GROOM_DEV_COUNT2, 
  .GROOM_G, .GROOM_GROUP, .FLD_STATUS, .FLD_CTRL, .FLD_LEVEE_COUNT, .FLD_VFIELD, .ENC_CFG, .ENC_STATUS, .ENC_POS, 
  .ENC_POS_TICK, .ENC_LOAD, .ENC_Z_POS, .ENC_COUNT, .ENC_CTRL, .FI_CFG, .FI_STATUS, .FO_CFG, .FO_STATUS, .PAIR_CFG, 
  .PAIR_PEER_SERIAL, .PAIR_STATUS, .PAIR_CTRL, .PAIR_EPOCH, .PAIR_PEER_EPOCH, .PAIR_CUTOVER, .PAIR_COUNT, 
  .PAIR_COUNT2, .PAIR_WM, .PAIR_HERD_WM]

/-- Where a register lies in a BAR: base, outer count and stride, inner count and stride, width in bytes,
and the number of its first instance. -/
structure Span where
  reg : Reg
  base : Nat
  n : Nat
  stride : Nat
  m : Nat
  stride2 : Nat
  bytes : Nat
  first : Nat
deriving DecidableEq, Repr

def pf0Map0 : List Span := [
  ⟨.DEV_IDENT, 0x10000, 1, 0x4, 1, 0x0, 4, 0⟩,
  ⟨.DEV_MODE, 0x10008, 1, 0x4, 1, 0x0, 4, 0⟩,
  ⟨.DEV_STATUS, 0x10010, 1, 0x4, 1, 0x0, 4, 0⟩,
  ⟨.DEV_MODE_REQ, 0x10018, 1, 0x4, 1, 0x0, 4, 0⟩,
  ⟨.DEV_HOLD_CAUSE, 0x10020, 1, 0x4, 1, 0x0, 4, 0⟩,
  ⟨.DEV_RESET, 0x10028, 1, 0x4, 1, 0x0, 4, 0⟩,
  ⟨.DEV_RESET_CAUSE, 0x10030, 1, 0x4, 1, 0x0, 4, 0⟩,
  ⟨.BOOT_STATUS, 0x10040, 1, 0x4, 1, 0x0, 4, 0⟩,
  ⟨.BOOT_SEQ, 0x10048, 1, 0x8, 1, 0x0, 8, 0⟩,
  ⟨.RET_SEAL, 0x10050, 1, 0x4, 1, 0x0, 4, 0⟩,
  ⟨.TB_NOW, 0x20000, 1, 0x8, 1, 0x0, 8, 0⟩,
  ⟨.TB_STATUS, 0x20008, 1, 0x4, 1, 0x0, 4, 0⟩,
  ⟨.TB_CFG, 0x20010, 1, 0x4, 1, 0x0, 4, 0⟩,
  ⟨.TB_CTRL, 0x20018, 1, 0x4, 1, 0x0, 4, 0⟩,
  ⟨.TB_SET_VALUE, 0x20020, 1, 0x8, 1, 0x0, 8, 0⟩,
  ⟨.TB_ADJUST, 0x20028, 1, 0x8, 1, 0x0, 8, 0⟩,
  ⟨.TB_PPS_STAMP, 0x20030, 1, 0x8, 1, 0x0, 8, 0⟩,
  ⟨.TB_PHASE_ERR, 0x20038, 1, 0x8, 1, 0x0, 8, 0⟩,
  ⟨.TB_COMPARE, 0x20040, 1, 0x8, 1, 0x0, 8, 0⟩,
  ⟨.TB_COMPARE_PERIOD, 0x20048, 1, 0x8, 1, 0x0, 8, 0⟩,
  ⟨.TB_COUNT, 0x20050, 1, 0x8, 1, 0x0, 8, 0⟩,
  ⟨.TB_PPS_OFFSET, 0x20058, 1, 0x4, 1, 0x0, 4, 0⟩,
  ⟨.LATCH_TICK, 0x21000, 64, 0x20, 1, 0x0, 8, 0⟩,
  ⟨.LATCH_POS, 0x21008, 64, 0x20, 1, 0x0, 8, 0⟩,
  ⟨.LATCH_STATUS, 0x21010, 64, 0x20, 1, 0x0, 8, 0⟩,
  ⟨.LATCH_CFG, 0x21018, 64, 0x20, 1, 0x0, 8, 0⟩,
  ⟨.TRIGIN_CFG, 0x22000, 8, 0x10, 1, 0x0, 4, 0⟩,
  ⟨.TRIGIN_STATUS, 0x22008, 8, 0x10, 1, 0x0, 8, 0⟩,
  ⟨.OUT_CFG, 0x23000, 32, 0x20, 1, 0x0, 8, 0⟩,
  ⟨.OUT_STATUS, 0x23008, 32, 0x20, 1, 0x0, 4, 0⟩,
  ⟨.OUT_COUNT, 0x23010, 32, 0x20, 1, 0x0, 8, 0⟩,
  ⟨.WP_LIST_DESC, 0x24000, 32, 0x40, 1, 0x0, 8, 0⟩,
  ⟨.WP_LIST_CFG, 0x24008, 32, 0x40, 1, 0x0, 8, 0⟩,
  ⟨.WP_LIST_CTRL, 0x24010, 32, 0x40, 1, 0x0, 4, 0⟩,
  ⟨.WP_LIST_STATUS, 0x24018, 32, 0x40, 1, 0x0, 8, 0⟩,
  ⟨.WP_LIST_COUNT, 0x24020, 32, 0x40, 1, 0x0, 8, 0⟩,
  ⟨.WP_GLOBAL, 0x25000, 1, 0x8, 1, 0x0, 8, 0⟩,
  ⟨.FLD_STATUS, 0x28000, 1, 0x4, 1, 0x0, 4, 0⟩,
  ⟨.FLD_CTRL, 0x28008, 1, 0x4, 1, 0x0, 4, 0⟩,
  ⟨.FLD_LEVEE_COUNT, 0x28010, 1, 0x8, 1, 0x0, 8, 0⟩]

def pf0Map1 : List Span := [
  ⟨.FLD_VFIELD, 0x28018, 1, 0x4, 1, 0x0, 4, 0⟩,
  ⟨.ENC_CFG, 0x28100, 8, 0x40, 1, 0x0, 8, 0⟩,
  ⟨.ENC_STATUS, 0x28108, 8, 0x40, 1, 0x0, 8, 0⟩,
  ⟨.ENC_POS, 0x28110, 8, 0x40, 1, 0x0, 8, 0⟩,
  ⟨.ENC_POS_TICK, 0x28118, 8, 0x40, 1, 0x0, 8, 0⟩,
  ⟨.ENC_LOAD, 0x28120, 8, 0x40, 1, 0x0, 8, 0⟩,
  ⟨.ENC_Z_POS, 0x28128, 8, 0x40, 1, 0x0, 8, 0⟩,
  ⟨.ENC_COUNT, 0x28130, 8, 0x40, 1, 0x0, 8, 0⟩,
  ⟨.ENC_CTRL, 0x28138, 8, 0x40, 1, 0x0, 4, 0⟩,
  ⟨.FI_CFG, 0x28400, 16, 0x10, 1, 0x0, 4, 0⟩,
  ⟨.FI_STATUS, 0x28408, 16, 0x10, 1, 0x0, 8, 0⟩,
  ⟨.FO_CFG, 0x28600, 16, 0x10, 1, 0x0, 4, 0⟩,
  ⟨.FO_STATUS, 0x28608, 16, 0x10, 1, 0x0, 4, 0⟩,
  ⟨.YARD_GLOBAL, 0x30000, 1, 0x8, 1, 0x0, 8, 0⟩,
  ⟨.YARD_CTRL, 0x30008, 1, 0x4, 1, 0x0, 4, 0⟩,
  ⟨.YARD_OVERRUN, 0x30100, 8, 0x8, 1, 0x0, 8, 0⟩,
  ⟨.YARD_CH_CFG, 0x31000, 256, 0x10, 1, 0x0, 4, 0⟩,
  ⟨.YARD_CH_COUNT, 0x31008, 256, 0x10, 1, 0x0, 8, 0⟩,
  ⟨.YARD_CH_LAST, 0x32000, 256, 0x8, 1, 0x0, 8, 0⟩,
  ⟨.YARD_PROD_EN, 0x34000, 512, 0x20, 4, 0x8, 8, 0⟩,
  ⟨.YARD_CONS_EN, 0x38000, 512, 0x20, 4, 0x8, 8, 0⟩,
  ⟨.SLUICE_CFG, 0x40000, 1, 0x4, 1, 0x0, 4, 0⟩,
  ⟨.SLUICE_STATUS, 0x40008, 1, 0x8, 1, 0x0, 8, 0⟩,
  ⟨.SLUICE_COUNT, 0x40010, 1, 0x8, 1, 0x0, 8, 0⟩,
  ⟨.SLUICE_COUNT2, 0x40018, 1, 0x8, 1, 0x0, 8, 0⟩,
  ⟨.MIRROR_CFG, 0x40100, 4, 0x20, 1, 0x0, 8, 0⟩,
  ⟨.MIRROR_BASE, 0x40108, 4, 0x20, 1, 0x0, 8, 0⟩,
  ⟨.MIRROR_PTR, 0x40110, 4, 0x20, 1, 0x0, 8, 0⟩,
  ⟨.HERD_CFG, 0x41000, 16, 0x40, 1, 0x0, 8, 0⟩,
  ⟨.HERD_ORIGIN, 0x41008, 16, 0x40, 1, 0x0, 8, 0⟩,
  ⟨.HERD_PERIOD, 0x41010, 16, 0x40, 1, 0x0, 8, 0⟩,
  ⟨.HERD_STATUS, 0x41018, 16, 0x40, 1, 0x0, 8, 0⟩,
  ⟨.HERD_COUNT, 0x41020, 16, 0x40, 1, 0x0, 8, 0⟩,
  ⟨.HERD_COUNT2, 0x41028, 16, 0x40, 1, 0x0, 8, 0⟩,
  ⟨.HOST_STATUS, 0x42000, 1, 0x4, 1, 0x0, 4, 0⟩,
  ⟨.HOST_CTRL, 0x42008, 1, 0x4, 1, 0x0, 4, 0⟩,
  ⟨.HOST_CPL_TIMEOUT, 0x42010, 1, 0x4, 1, 0x0, 4, 0⟩,
  ⟨.HOST_TAG_STATUS, 0x42018, 1, 0x8, 1, 0x0, 8, 0⟩,
  ⟨.HOST_COUNT, 0x42020, 1, 0x8, 1, 0x0, 8, 0⟩,
  ⟨.HOST_COUNT2, 0x42028, 1, 0x8, 1, 0x0, 8, 0⟩]

def pf0Map2 : List Span := [
  ⟨.HOST_PM_CFG, 0x42030, 1, 0x4, 1, 0x0, 4, 0⟩,
  ⟨.HIRQ_SRC_CFG, 0x42100, 16, 0x10, 1, 0x0, 4, 0⟩,
  ⟨.HIRQ_SRC_TICK, 0x42108, 16, 0x10, 1, 0x0, 8, 0⟩,
  ⟨.HIRQ_SRC_PENDING, 0x42200, 1, 0x4, 1, 0x0, 4, 0⟩,
  ⟨.HIRQ_DEV_CFG, 0x42208, 1, 0x4, 1, 0x0, 4, 0⟩,
  ⟨.HIRQ_DEV_STATUS, 0x42210, 1, 0x4, 1, 0x0, 4, 0⟩,
  ⟨.HIRQ_INTX_CAUSE, 0x42218, 1, 0x4, 1, 0x0, 4, 0⟩,
  ⟨.HIRQ_COALESCE, 0x43000, 256, 0x8, 1, 0x0, 8, 0⟩,
  ⟨.RING_PTR, 0x44000, 1024, 0x8, 1, 0x0, 4, 0⟩,
  ⟨.RING_BASE, 0x48000, 1024, 0x20, 1, 0x0, 8, 0⟩,
  ⟨.RING_COMPL, 0x48008, 1024, 0x20, 1, 0x0, 8, 0⟩,
  ⟨.RING_TAG, 0x48010, 1024, 0x20, 1, 0x0, 8, 0⟩,
  ⟨.RING_CTRL, 0x48018, 1024, 0x20, 1, 0x0, 8, 0⟩,
  ⟨.FEN_STATUS, 0x50000, 1, 0x4, 1, 0x0, 4, 0⟩,
  ⟨.FEN_SEG_CTRL, 0x50008, 1, 0x4, 1, 0x0, 4, 0⟩,
  ⟨.FEN_SEG_MAP, 0x50010, 6, 0x8, 1, 0x0, 8, 0⟩,
  ⟨.FEN_SEG_ACTIVE, 0x50040, 6, 0x8, 1, 0x0, 8, 0⟩,
  ⟨.FEN_ECC, 0x50080, 1, 0x8, 1, 0x0, 8, 0⟩,
  ⟨.FEN_UE_ADDR, 0x50088, 1, 0x8, 1, 0x0, 8, 0⟩,
  ⟨.FEN_SCRUB, 0x50090, 1, 0x4, 1, 0x0, 4, 0⟩,
  ⟨.FEN_SCRUB_COUNT, 0x50098, 1, 0x8, 1, 0x0, 8, 0⟩,
  ⟨.FEN_POOL_RELEASE, 0x500a0, 1, 0x8, 1, 0x0, 8, 0⟩,
  ⟨.FEN_RELEASE_STATUS, 0x500a8, 1, 0x8, 1, 0x0, 8, 0⟩,
  ⟨.TRG_GLOBAL, 0x50100, 1, 0x4, 1, 0x0, 4, 0⟩,
  ⟨.TRG_ECC, 0x50108, 1, 0x8, 1, 0x0, 8, 0⟩,
  ⟨.TRG_WATCH, 0x50200, 16, 0x8, 1, 0x0, 4, 0⟩,
  ⟨.FEN_POOL_CFG, 0x51000, 256, 0x20, 1, 0x0, 8, 0⟩,
  ⟨.FEN_POOL_LIST, 0x51008, 256, 0x20, 1, 0x0, 8, 0⟩,
  ⟨.FEN_POOL_STATUS, 0x51010, 256, 0x20, 1, 0x0, 8, 0⟩,
  ⟨.FEN_POOL_COUNT, 0x51018, 256, 0x20, 1, 0x0, 8, 0⟩,
  ⟨.ADC_GLOBAL_START, 0x60000, 1, 0x4, 1, 0x0, 4, 0⟩,
  ⟨.ADC_CFG, 0x61000, 8, 0x100, 1, 0x0, 8, 0⟩,
  ⟨.ADC_CTRL, 0x61008, 8, 0x100, 1, 0x0, 4, 0⟩,
  ⟨.ADC_STATUS, 0x61010, 8, 0x100, 1, 0x0, 4, 0⟩,
  ⟨.ADC_RUN_LEN, 0x61018, 8, 0x100, 1, 0x0, 8, 0⟩,
  ⟨.ADC_BUF, 0x61020, 8, 0x100, 1, 0x0, 8, 0⟩,
  ⟨.ADC_BUF_POS, 0x61028, 8, 0x100, 1, 0x0, 8, 0⟩,
  ⟨.ADC_RUN_INFO, 0x61030, 8, 0x100, 1, 0x0, 8, 0⟩,
  ⟨.ADC_COUNT, 0x61038, 8, 0x100, 1, 0x0, 8, 0⟩,
  ⟨.ADC_URGENT_RESULT, 0x61040, 8, 0x100, 1, 0x0, 8, 0⟩]

def pf0Map3 : List Span := [
  ⟨.ADC_CAL, 0x61048, 8, 0x100, 1, 0x0, 4, 0⟩,
  ⟨.ADC_CAL_MEAN, 0x61050, 8, 0x100, 1, 0x0, 8, 0⟩,
  ⟨.ADC_COEF, 0x61080, 8, 0x100, 7, 0x8, 8, 0⟩,
  ⟨.VST_CFG, 0x62000, 4, 0x100, 1, 0x0, 8, 0⟩,
  ⟨.VST_TIMING, 0x62008, 4, 0x100, 1, 0x0, 8, 0⟩,
  ⟨.VST_GEOM, 0x62010, 4, 0x100, 1, 0x0, 8, 0⟩,
  ⟨.VST_STATUS, 0x62018, 4, 0x100, 1, 0x0, 8, 0⟩,
  ⟨.VST_COUNT, 0x62020, 4, 0x100, 1, 0x0, 8, 0⟩,
  ⟨.PADDOCK_LOAD, 0x70000, 1, 0x4, 1, 0x0, 4, 0⟩,
  ⟨.PADDOCK_LOAD_ADDR, 0x70008, 1, 0x8, 1, 0x0, 8, 0⟩,
  ⟨.PADDOCK_LOAD_CRC, 0x70010, 1, 0x4, 1, 0x0, 4, 0⟩,
  ⟨.PADDOCK_LOAD_RANGE, 0x70018, 1, 0x4, 1, 0x0, 4, 0⟩,
  ⟨.PADDOCK_SET, 0x70100, 64, 0x8, 1, 0x0, 8, 0⟩,
  ⟨.RED_CTX_CTRL, 0x71000, 64, 0x20, 1, 0x0, 4, 0⟩,
  ⟨.RED_CTX_STATE, 0x71008, 64, 0x20, 1, 0x0, 8, 0⟩,
  ⟨.RED_CTX_COUNT, 0x71010, 64, 0x20, 1, 0x0, 8, 0⟩,
  ⟨.RED_CTX_OFFSET, 0x71018, 64, 0x20, 1, 0x0, 8, 0⟩,
  ⟨.STALL_LINK_CFG, 0x100000, 16, 0x10000, 1, 0x0, 4, 0⟩,
  ⟨.STALL_LINK_STATUS, 0x100008, 16, 0x10000, 1, 0x0, 4, 0⟩,
  ⟨.STALL_LM_CTRL, 0x100010, 16, 0x10000, 1, 0x0, 4, 0⟩,
  ⟨.STALL_LM_CAMREQ, 0x100018, 16, 0x10000, 1, 0x0, 4, 0⟩,
  ⟨.STALL_SKEW, 0x100020, 16, 0x10000, 1, 0x0, 4, 0⟩,
  ⟨.STALL_LINK_COUNT, 0x100028, 16, 0x10000, 1, 0x0, 8, 0⟩,
  ⟨.LANE_CTRL, 0x100100, 16, 0x10000, 2, 0x100, 4, 0⟩,
  ⟨.LANE_STATUS, 0x100108, 16, 0x10000, 2, 0x100, 4, 0⟩,
  ⟨.LANE_TX_FIR_SET, 0x100110, 16, 0x10000, 2, 0x100, 4, 0⟩,
  ⟨.LANE_TX_FIR, 0x100118, 16, 0x10000, 2, 0x100, 4, 0⟩,
  ⟨.LANE_EYE, 0x100120, 16, 0x10000, 2, 0x100, 8, 0⟩,
  ⟨.LANE_FEC_CW_CORR, 0x100128, 16, 0x10000, 2, 0x100, 8, 0⟩,
  ⟨.LANE_FEC_CW_UNCORR, 0x100130, 16, 0x10000, 2, 0x100, 8, 0⟩,
  ⟨.LANE_FEC_SYM_CORR, 0x100138, 16, 0x10000, 2, 0x100, 8, 0⟩,
  ⟨.LANE_BLOCK_ERR, 0x100140, 16, 0x10000, 2, 0x100, 4, 0⟩,
  ⟨.LANE_PAT_CTRL, 0x100148, 16, 0x10000, 2, 0x100, 4, 0⟩,
  ⟨.LANE_PAT_BITS, 0x100150, 16, 0x10000, 2, 0x100, 8, 0⟩,
  ⟨.LANE_PAT_ERR, 0x100158, 16, 0x10000, 2, 0x100, 8, 0⟩,
  ⟨.STALL_PROTO_CFG, 0x101000, 16, 0x10000, 1, 0x0, 4, 0⟩,
  ⟨.STALL_PROTO_STATUS, 0x101008, 16, 0x10000, 1, 0x0, 4, 0⟩,
  ⟨.STALL_CTRL_CFG, 0x101010, 16, 0x10000, 1, 0x0, 8, 0⟩,
  ⟨.STALL_CTRL_STATUS, 0x101018, 16, 0x10000, 1, 0x0, 4, 0⟩,
  ⟨.STALL_LATENCY, 0x101020, 16, 0x10000, 1, 0x0, 4, 0⟩]

def pf0Map4 : List Span := [
  ⟨.STALL_TRIG_CFG, 0x101028, 16, 0x10000, 1, 0x0, 4, 0⟩,
  ⟨.STALL_FRAME_ID, 0x101030, 16, 0x10000, 1, 0x0, 8, 0⟩,
  ⟨.STALL_PKT_ERR, 0x101038, 16, 0x10000, 1, 0x0, 8, 0⟩,
  ⟨.STALL_FRAME_ERR, 0x101040, 16, 0x10000, 1, 0x0, 8, 0⟩,
  ⟨.STALL_CTRL_ERR, 0x101048, 16, 0x10000, 1, 0x0, 8, 0⟩,
  ⟨.STALL_TRIG_COUNT, 0x101050, 16, 0x10000, 1, 0x0, 8, 0⟩,
  ⟨.STALL_HB, 0x101058, 16, 0x10000, 1, 0x0, 8, 0⟩,
  ⟨.STALL_PATH_ERR, 0x101060, 16, 0x10000, 1, 0x0, 8, 0⟩,
  ⟨.PPORT_CFG, 0x1e2000, 2, 0x10000, 1, 0x0, 4, 0⟩,
  ⟨.PPORT_GEOM, 0x1e2008, 2, 0x10000, 1, 0x0, 4, 0⟩,
  ⟨.PPORT_STATUS, 0x1e2010, 2, 0x10000, 1, 0x0, 4, 0⟩,
  ⟨.PPORT_COUNT, 0x1e2018, 2, 0x10000, 1, 0x0, 8, 0⟩,
  ⟨.PPORT_DESKEW, 0x1e2040, 2, 0x10000, 19, 0x4, 4, 0⟩,
  ⟨.CTX_CTRL, 0x200800, 64, 0x4000, 1, 0x0, 4, 0⟩,
  ⟨.CTX_STATUS, 0x200808, 64, 0x4000, 1, 0x0, 4, 0⟩,
  ⟨.CTX_COMMIT, 0x200810, 64, 0x4000, 1, 0x0, 4, 0⟩,
  ⟨.CTX_APPLIED, 0x200818, 64, 0x4000, 1, 0x0, 8, 0⟩,
  ⟨.CTX_APPLIED_SEQ, 0x200820, 64, 0x4000, 1, 0x0, 8, 0⟩,
  ⟨.CTX_COUNT, 0x200828, 64, 0x4000, 1, 0x0, 8, 0⟩,
  ⟨.CTX_COUNT2, 0x200830, 64, 0x4000, 1, 0x0, 8, 0⟩,
  ⟨.CTX_DEST_NEXT, 0x200880, 64, 0x4000, 1, 0x0, 8, 0⟩,
  ⟨.CTX_DEST_CTRL, 0x200888, 64, 0x4000, 1, 0x0, 8, 0⟩,
  ⟨.CTX_DEST_STATUS, 0x200890, 64, 0x4000, 1, 0x0, 8, 0⟩,
  ⟨.CTX_DEST_COUNT, 0x200898, 64, 0x4000, 1, 0x0, 8, 0⟩,
  ⟨.CTX_SEQ_HI, 0x2008a0, 64, 0x4000, 1, 0x0, 4, 0⟩,
  ⟨.CHUTE_CFG, 0x203000, 4, 0x40, 1, 0x0, 4, 0⟩,
  ⟨.CHUTE_STATUS, 0x203008, 4, 0x40, 1, 0x0, 8, 0⟩,
  ⟨.CHUTE_COUNT, 0x203010, 4, 0x40, 1, 0x0, 8, 0⟩,
  ⟨.CHUTE_DEFECT_BASE, 0x203100, 1, 0x8, 1, 0x0, 8, 0⟩,
  ⟨.CRIB_LOAD, 0x203108, 1, 0x4, 1, 0x0, 4, 0⟩,
  ⟨.CRIB_LOAD_ADDR, 0x203110, 1, 0x8, 1, 0x0, 8, 0⟩,
  ⟨.CRIB_LOAD_CRC, 0x203118, 1, 0x4, 1, 0x0, 4, 0⟩,
  ⟨.CRIB_STATE, 0x203140, 8, 0x8, 1, 0x0, 8, 0⟩,
  ⟨.GROOM_CTRL, 0x420000, 16, 0x40000, 1, 0x0, 4, 0⟩,
  ⟨.GROOM_STATUS, 0x420008, 16, 0x40000, 1, 0x0, 8, 0⟩,
  ⟨.GROOM_FAULT, 0x420010, 16, 0x40000, 1, 0x0, 8, 0⟩,
  ⟨.GROOM_EV, 0x420018, 16, 0x40000, 1, 0x0, 8, 0⟩,
  ⟨.GROOM_WDOG_CFG, 0x420020, 16, 0x40000, 1, 0x0, 8, 0⟩,
  ⟨.GROOM_DEV_COUNT, 0x420028, 16, 0x40000, 1, 0x0, 8, 0⟩,
  ⟨.GROOM_DEV_COUNT2, 0x420030, 16, 0x40000, 1, 0x0, 8, 0⟩]

def pf0Map5 : List Span := [
  ⟨.GROOM_G, 0x420100, 16, 0x40000, 16, 0x8, 8, 0⟩,
  ⟨.GROOM_GROUP, 0x420800, 1, 0x4, 1, 0x0, 4, 0⟩,
  ⟨.TRG_CFG, 0x1000000, 65536, 0x40, 1, 0x0, 8, 0⟩,
  ⟨.TRG_BASE, 0x1000008, 65536, 0x40, 1, 0x0, 8, 0⟩,
  ⟨.TRG_THRESH, 0x1000010, 65536, 0x40, 1, 0x0, 8, 0⟩,
  ⟨.TRG_DEPTH, 0x1000018, 65536, 0x40, 1, 0x0, 8, 0⟩,
  ⟨.TRG_CTRL, 0x1000020, 65536, 0x40, 1, 0x0, 4, 0⟩,
  ⟨.TRG_STATUS, 0x1000028, 65536, 0x40, 1, 0x0, 4, 0⟩,
  ⟨.TRG_COUNT, 0x1000030, 65536, 0x40, 1, 0x0, 8, 0⟩,
  ⟨.TRG_DROPS, 0x1000038, 65536, 0x40, 1, 0x0, 8, 0⟩]

/-- The registers of PF0 BAR0 (Table 18.2, Table 18.4). -/
def pf0Map : List Span := pf0Map0 ++ pf0Map1 ++ pf0Map2 ++ pf0Map3 ++ pf0Map4 ++ pf0Map5

def pf1Map0 : List Span := [
  ⟨.DEV_IDENT, 0x0, 1, 0x4, 1, 0x0, 4, 0⟩,
  ⟨.DEV_MODE, 0x8, 1, 0x4, 1, 0x0, 4, 0⟩,
  ⟨.DEV_STATUS, 0x10, 1, 0x4, 1, 0x0, 4, 0⟩,
  ⟨.DEV_MODE_REQ, 0x18, 1, 0x4, 1, 0x0, 4, 0⟩,
  ⟨.DEV_HOLD_CAUSE, 0x20, 1, 0x4, 1, 0x0, 4, 0⟩,
  ⟨.DEV_RESET, 0x28, 1, 0x4, 1, 0x0, 4, 0⟩,
  ⟨.DEV_RESET_CAUSE, 0x30, 1, 0x4, 1, 0x0, 4, 0⟩,
  ⟨.BOOT_STATUS, 0x40, 1, 0x4, 1, 0x0, 4, 0⟩,
  ⟨.BOOT_SEQ, 0x48, 1, 0x8, 1, 0x0, 8, 0⟩,
  ⟨.RET_SEAL, 0x50, 1, 0x4, 1, 0x0, 4, 0⟩,
  ⟨.MGMT_STATUS, 0x2000, 1, 0x4, 1, 0x0, 4, 0⟩,
  ⟨.MGMT_SMB_CFG, 0x2008, 1, 0x4, 1, 0x0, 4, 0⟩,
  ⟨.MGMT_UART_CFG, 0x2010, 1, 0x4, 1, 0x0, 4, 0⟩,
  ⟨.MGMT_IRQ_EN, 0x2018, 1, 0x8, 1, 0x0, 8, 0⟩,
  ⟨.MGMT_DB_WINDOW, 0x2020, 1, 0x4, 1, 0x0, 4, 0⟩,
  ⟨.TEMP, 0x10000, 32, 0x8, 1, 0x0, 8, 0⟩,
  ⟨.FEN_CASE, 0x10100, 4, 0x8, 1, 0x0, 8, 0⟩,
  ⟨.RAIL, 0x10200, 10, 0x8, 1, 0x0, 8, 0⟩,
  ⟨.ACTIVITY, 0x10300, 5, 0x8, 1, 0x0, 8, 0⟩,
  ⟨.TELEM_CFG, 0x10800, 1, 0x4, 1, 0x0, 4, 0⟩,
  ⟨.TELEM_CTRL, 0x10808, 1, 0x4, 1, 0x0, 4, 0⟩,
  ⟨.LOG_CFG, 0x20000, 1, 0x8, 1, 0x0, 8, 0⟩,
  ⟨.LOG_CTRL, 0x20008, 1, 0x4, 1, 0x0, 4, 0⟩,
  ⟨.LOG_STATUS, 0x20010, 1, 0x8, 1, 0x0, 8, 0⟩,
  ⟨.ALARM_STATUS, 0x20018, 1, 0x8, 1, 0x0, 8, 0⟩,
  ⟨.ALARM_ACK, 0x20020, 1, 0x4, 1, 0x0, 4, 0⟩,
  ⟨.ALARM_HOLD_SEQ, 0x20028, 1, 0x8, 1, 0x0, 8, 0⟩,
  ⟨.TRACE_CH_MASK, 0x20100, 4, 0x8, 1, 0x0, 8, 0⟩,
  ⟨.ALARM_CFG, 0x21000, 256, 0x4, 1, 0x0, 4, 0⟩,
  ⟨.ALARM_SUMMARY, 0x21800, 64, 0x8, 1, 0x0, 8, 0⟩,
  ⟨.PAIR_CFG, 0x30000, 1, 0x8, 1, 0x0, 8, 0⟩,
  ⟨.PAIR_PEER_SERIAL, 0x30008, 1, 0x8, 1, 0x0, 8, 0⟩,
  ⟨.PAIR_STATUS, 0x30010, 1, 0x8, 1, 0x0, 8, 0⟩,
  ⟨.PAIR_CTRL, 0x30018, 1, 0x4, 1, 0x0, 4, 0⟩,
  ⟨.PAIR_EPOCH, 0x30020, 1, 0x8, 1, 0x0, 8, 0⟩,
  ⟨.PAIR_PEER_EPOCH, 0x30028, 1, 0x8, 1, 0x0, 8, 0⟩,
  ⟨.PAIR_CUTOVER, 0x30030, 1, 0x8, 1, 0x0, 8, 0⟩,
  ⟨.PAIR_COUNT, 0x30038, 1, 0x8, 1, 0x0, 8, 0⟩,
  ⟨.PAIR_COUNT2, 0x30040, 1, 0x8, 1, 0x0, 8, 0⟩,
  ⟨.PAIR_WM, 0x30100, 64, 0x8, 1, 0x0, 8, 0⟩]

def pf1Map1 : List Span := [
  ⟨.PAIR_HERD_WM, 0x30300, 16, 0x8, 1, 0x0, 8, 0⟩,
  ⟨.LANE_CTRL, 0x30800, 8, 0x100, 1, 0x0, 4, 32⟩,
  ⟨.LANE_STATUS, 0x30808, 8, 0x100, 1, 0x0, 4, 32⟩,
  ⟨.LANE_TX_FIR_SET, 0x30810, 8, 0x100, 1, 0x0, 4, 32⟩,
  ⟨.LANE_TX_FIR, 0x30818, 8, 0x100, 1, 0x0, 4, 32⟩,
  ⟨.LANE_EYE, 0x30820, 8, 0x100, 1, 0x0, 8, 32⟩,
  ⟨.LANE_FEC_CW_CORR, 0x30828, 8, 0x100, 1, 0x0, 8, 32⟩,
  ⟨.LANE_FEC_CW_UNCORR, 0x30830, 8, 0x100, 1, 0x0, 8, 32⟩,
  ⟨.LANE_FEC_SYM_CORR, 0x30838, 8, 0x100, 1, 0x0, 8, 32⟩,
  ⟨.LANE_BLOCK_ERR, 0x30840, 8, 0x100, 1, 0x0, 4, 32⟩,
  ⟨.LANE_PAT_CTRL, 0x30848, 8, 0x100, 1, 0x0, 4, 32⟩,
  ⟨.LANE_PAT_BITS, 0x30850, 8, 0x100, 1, 0x0, 8, 32⟩,
  ⟨.LANE_PAT_ERR, 0x30858, 8, 0x100, 1, 0x0, 8, 32⟩,
  ⟨.YARD_GLOBAL, 0x40000, 1, 0x8, 1, 0x0, 8, 0⟩,
  ⟨.YARD_CTRL, 0x40008, 1, 0x4, 1, 0x0, 4, 0⟩,
  ⟨.YARD_OVERRUN, 0x40100, 8, 0x8, 1, 0x0, 8, 0⟩,
  ⟨.YARD_CH_CFG, 0x41000, 256, 0x10, 1, 0x0, 4, 0⟩,
  ⟨.YARD_CH_COUNT, 0x41008, 256, 0x10, 1, 0x0, 8, 0⟩,
  ⟨.YARD_CH_LAST, 0x42000, 256, 0x8, 1, 0x0, 8, 0⟩,
  ⟨.YARD_PROD_EN, 0x44000, 512, 0x20, 4, 0x8, 8, 0⟩,
  ⟨.YARD_CONS_EN, 0x48000, 512, 0x20, 4, 0x8, 8, 0⟩,
  ⟨.IST_CFG, 0x50000, 1, 0x4, 1, 0x0, 4, 0⟩,
  ⟨.IST_TASK, 0x50100, 6, 0x20, 1, 0x0, 8, 0⟩,
  ⟨.IST_TASK_COUNT, 0x50108, 6, 0x20, 1, 0x0, 8, 0⟩,
  ⟨.FLASH_CTRL, 0x60000, 1, 0x4, 1, 0x0, 4, 0⟩,
  ⟨.FLASH_ADDR, 0x60008, 1, 0x4, 1, 0x0, 4, 0⟩,
  ⟨.FLASH_STATUS, 0x60010, 1, 0x4, 1, 0x0, 4, 0⟩,
  ⟨.SEC_CMD, 0x60018, 1, 0x4, 1, 0x0, 4, 0⟩,
  ⟨.SEC_STATUS, 0x60020, 1, 0x4, 1, 0x0, 4, 0⟩]

/-- The registers of PF1 BAR0 (Table 17.8, Table 18.4, R764). -/
def pf1Map : List Span := pf1Map0 ++ pf1Map1

end Sys2Proof
end

