-- ==== Sys2Proof/Syntax.lean ====
section
/-! DEFINITION. The commands of the FG-16: one constructor for each row of the table of operations and events, with its operands. -/

namespace Sys2Proof

/-- The commands (the table of operations and events). -/
inductive Instr where
  /-- An entry written into a handshake channel is taken by the receiving island 2 to 4 of its cycles after the write
  (R17); the sender of channel `c` writes entry `w`. -/
  | handshakeEntryVisible (c : Fin 64) (w : Word)
  /-- The acknowledgement of an entry is synchronised into the sender and the entry becomes free, releasing back-
  pressure (R19); the oldest entry of channel `c` is freed. -/
  | handshakeEntryFreed (c : Fin 64)
  /-- Every 50 µs the yardmaster samples the 32 die sensors, forms the gradient and raises gradient alarms, throttles
  the chutes or requests HOLD (R23); the readings of die sensors 0 to 31, in 1/16 °C. -/
  | thermalSample (temps : List Int)
  /-- The gradient has stayed at 40 °C or below for 10 ms, so throttling and the suspension end (R23). -/
  | throttleRelease
  /-- Every 10 µs the rail monitors are read; a rail outside its band sets BOUNDS_SUSPENDED and raises RAIL_RANGE
  (R24); rails 0 to 9 of Table 17.3 in mV, and the VDD_CORE current in 0.25 A. -/
  | railSample (mv : List Nat) (current : Nat)
  /-- Every rail has been inside its band for 10 ms without a break and the rail cause of BOUNDS_SUSPENDED ends (R24).
  -/
  | boundsRelease
  /-- VBAT rises to 2.0 V with VDD_AON absent and the retention island starts from the cell in KEEP (R53); VBAT in mV.
  -/
  | vbatRise (mv : Nat)
  /-- VDD_AON rises above 2.9 V; the multiplexer moves the retention island to main power and the device enters RESET
  with a power-on reset (R69). -/
  | vddAonRise
  /-- VDD_AON falls below 2.9 V; the island moves to VBAT and the device goes to KEEP, or to OFF without a cell (R69).
  -/
  | vddAonFall
  /-- At each 32.768 kHz edge the backup counter advances by 30 or 31 µs as the fractional accumulator chooses (R74).
  -/
  | backupCounterStep
  /-- VBAT falls through 1.9 V while the island runs from it and the comparator clears the seal (R70); VBAT in mV. -/
  | vbatBrownout (mv : Nat)
  /-- VBAT falls below 2.0 V on main power; VBAT_LOW is set, the alarm is raised once and WAKE_N may be asserted in
  D3cold (R70); VBAT in mV. -/
  | vbatLow (mv : Nat)
  /-- VBAT returns to 2.0 V or above and VBAT_LOW clears (R70); VBAT in mV. -/
  | vbatRecover (mv : Nat)
  /-- 100 µs after VDD_AON good the seal is sampled once; an invalid seal zeroes retention memory, marks UNSYNC and
  raises RETENTION_LOST (R76). -/
  | sealSample
  /-- A PF1 write to the software area of the retention window is accepted for the sequencer; other writes are ignored
  (R79); PF1 writes `bytes` at offset `off` of the retention window. -/
  | retentionSoftwareWrite (off : Nat) (bytes : List Byte)
  /-- The retention sequencer writes data, advances GENERATION and rewrites the seal in one step (R72). -/
  | retentionSequencerStep
  /-- PERST_N is asserted; a fundamental reset stops any transition, loads the backup counter and puts the device in
  RESET (R83). -/
  | perstAssert
  /-- A main rail falls below 90 % of typical after PERST_N release and the device acts as on PERST_N assertion
  (R768); the rail of Table 17.3 that fell. -/
  | railDropReset (rail : Fin 10)
  /-- PERST_N is released with all rails good and the boot ROM starts in BOOT (R53). -/
  | perstRelease
  /-- Image checks end; the valid image with the higher SEQUENCE starts, or HOLD is entered with BOOT_NO_IMAGE (R65);
  whether reading a slot ended with a flash error. -/
  | bootImageSelect (readErrA readErrB : Bool)
  /-- A write of GO to DEV_MODE_REQ of PF0 or PF1 submits TARGET as that function's pending request, superseding any
  older one (R58); a write of `v` with GO 1 to function `fn`'s DEV_MODE_REQ. -/
  | modeRequestGo (fn : Fin 2) (v : Word)
  /-- The mode controller serves pending requests in source order, refusing illegal or denied ones and starting the
  first allowed transition (R49). -/
  | modeRequestEval
  /-- A transition completes; DEV_MODE shows the new mode and the requests served with it complete DONE or SUPERSEDED
  (R52). -/
  | modeTransitionEnd
  /-- A write of SOFT_RESET with KEY 0x5253 to DEV_RESET starts a soft reset (R81); a write of `v` to DEV_RESET. -/
  | softReset (v : Word)
  /-- An in-band hot reset on the host link resets the device, keeping the fen, pools and logs (R80). -/
  | hotReset
  /-- The yardmaster watchdog goes 250 ms without service and causes the yardmaster watchdog reset (R724). -/
  | yardmasterWatchdogExpiry
  /-- A write setting STALL_LINK_CFG.ENABLE enables the stall, or refuses it with CFG_REJECTED for a conflicting
  configuration (R87); a write of `v`, with ENABLE 1, to STALL_LINK_CFG of stall `n`. -/
  | stallEnable (n : Fin 16) (v : Word)
  /-- A write clearing ENABLE is taken whole; the stall's lanes go to electrical idle and DISABLED (R138); a write of
  `v`, with ENABLE 0, to STALL_LINK_CFG of stall `n`. -/
  | stallDisable (n : Fin 16) (v : Word)
  /-- CNT_CLEAR of STALL_LINK_CFG clears STALL_LINK_COUNT (R143); stall `n`. -/
  | stallLinkCntClear (n : Fin 16)
  /-- Training frames from the camera are detected on a DEEP lane; the lane wakes, or CAM_WAKE_SEEN is set in QUIET
  (R120); lane `l`: 0 to 31 are CL0 to CL31, 32 to 39 CWL0 to CWL7. -/
  | cameraWakeDetect (l : Fin 40)
  /-- A training frame is received; its control request is applied once per new toggle and its status updates the far-
  end view (R112); a training frame's fields, the order of its marker's halves, and the eye measured. -/
  | trainingFrameReceived (l : Fin 40) (control status : BitVec 32) (inverted : Bool) (eye : Word)
  /-- A lane in WAKE finds frame lock on the camera's training frames and enters TRAIN (R120); lane `l`, and the order
  of the frame marker's halves. -/
  | frameLock (l : Fin 40) (inverted : Bool)
  /-- 250 µs pass in WAKE without frame lock and the lane goes to TRAIN_WAIT with LAST_FAIL set (R120); lane `l`;
  whether a signal was present. -/
  | wakeTimeout (l : Fin 40) (signal : Bool)
  /-- 1,550 µs pass in TRAIN and the lane goes to TRAIN_WAIT, counting TRAIN_FAILS (R120); lane `l`. -/
  | trainTimeout (l : Fin 40)
  /-- 100 µs elapse in TRAIN_WAIT and the lane seeks frame lock again in WAKE (R120); lane `l`. -/
  | trainWaitExpiry (l : Fin 40)
  /-- Every 16,384 block slots a transmitter sends a MARK row on every lane of the stall (R101); link `n`: stalls 0 to
  15, and 20 the causeway. -/
  | markRowTransmit (n : Fin 21)
  /-- A transmitter inserts a FILL row between packets for rate matching, at least once per 2,048 rows (R105); link
  `n`. -/
  | fillRowTransmit (n : Fin 21)
  /-- A MARK row arrives; the stall deskews, checks lane order, applies a pending width switch and may become UP
  (R103); a MARK row's MARKER_SEQ, and its LANE fields and arrivals in ns by lane. -/
  | markRowReceived (n : Fin 21) (seq : Fin 65536) (ids : List (Fin 8)) (arrive : List Nat)
  /-- An expected MARK row does not arrive; MARK_ERR counts and two in a row cause lock loss (R120); lane `l`. -/
  | markRowMissing (l : Fin 40)
  /-- An RS(544,514) codeword is decoded; corrections are counted and an uncorrectable one marks its 20 blocks errored
  (R98); the symbols in error of a codeword of lane `l`. -/
  | codewordDecode (l : Fin 40) (errors : Nat)
  /-- A block is received and descrambled; control blocks of unknown type are counted and treated as errored (R94); a
  block's header bit and 32 body bytes as received, still scrambled. -/
  | blockReceive (l : Fin 40) (header : Bool) (body : List Byte)
  /-- 2 ms after its lanes entered WAKE a stall no longer holds back the QUIET to READY transition (R122); stall `n`.
  -/
  | quietReadyTimeout (n : Fin 16)
  /-- Setting LANE_CTRL.TEST_EN with the stall disabled puts the lane in TEST (R120); a write of `v`, with TEST_EN 1,
  to LANE_CTRL. -/
  | laneTestEnter (l : Fin 40) (v : Word)
  /-- Clearing TEST_EN returns the lane to DISABLED (R120); a write of `v`, with TEST_EN 0, to LANE_CTRL. -/
  | laneTestExit (l : Fin 40) (v : Word)
  /-- LANE_CTRL.CNT_CLEAR clears the lane's FEC and block counters (R148); lane `l`. -/
  | laneCntClear (l : Fin 40)
  /-- The pattern checker locks after 64 error-free UI, or loses lock above 256 errors in 1,024 UI and relocks (R135);
  UI compared, UI in error, and errored bits. -/
  | checkerLock (l : Fin 40) (ui bad : Fin 1025) (errs : Nat)
  /-- INJ_GO starts error injection in single, burst or rate mode (R136); a write of `v`, with INJ_GO 1, to
  LANE_PAT_CTRL. -/
  | laneInjectGo (l : Fin 40) (v : Word)
  /-- A read of LANE_PAT_BITS or LANE_PAT_ERR returns the count and clears it (R149); a read of LANE_PAT_BITS, or of
  LANE_PAT_ERR. -/
  | patCounterRead (l : Fin 40) (err : Bool)
  /-- STALL_LM_CTRL GO with OP RETRAIN sends a RETRAIN request to the camera (R140); a write of `v`, with OP RETRAIN
  and GO, to STALL_LM_CTRL. -/
  | lmRetrain (n : Fin 16) (v : Word)
  /-- GO with OP WIDTH_CHANGE trains the lanes of the new width and then sends WIDTH_CHANGE with a SWITCH_SEQ (R131);
  a write of `v`, with OP WIDTH_CHANGE and GO. -/
  | lmWidthChange (n : Fin 16) (v : Word)
  /-- GO with OP ENTER_IDLE asks the camera to gate the packet path into IDLE (R140); a write of `v`, with OP
  ENTER_IDLE and GO. -/
  | lmEnterIdle (n : Fin 16) (v : Word)
  /-- GO with OP ENTER_DEEP asks the camera to take the lanes to DEEP (R140); a write of `v`, with OP ENTER_DEEP and
  GO. -/
  | lmEnterDeep (n : Fin 16) (v : Word)
  /-- GO with OP EXIT sends an EXIT notice and opens the packet path (R132); a write of `v`, with OP EXIT and GO. -/
  | lmExit (n : Fin 16) (v : Word)
  /-- GO with an undefined OP, or while another request is in progress, completes ILLEGAL (R140); a write of `v`, with
  GO. -/
  | lmIllegalOp (n : Fin 16) (v : Word)
  /-- A camera RETRAIN arrives; it is ACKed and carried out, or answered SUPERSEDED on a collision (R128); a Training
  packet of link `n`: its message, its CRC, and whether a block was errored. -/
  | lmRetrainReceived (n : Fin 21) (msg : Word) (crc : BitVec 32) (errored : Bool)
  /-- A camera WIDTH_REQ is granted within MAX_WIDTH when AUTO_GRANT_WIDTH is 1, else NAKed and recorded (R130); as
  LM_RETRAIN_RECEIVED. -/
  | lmWidthReqReceived (n : Fin 21) (msg : Word) (crc : BitVec 32) (errored : Bool)
  /-- An EXIT notice from the camera opens the packet path of an IDLE stall (R132); as LM_RETRAIN_RECEIVED. -/
  | lmExitReceived (n : Fin 21) (msg : Word) (crc : BitVec 32) (errored : Bool)
  /-- A message the camera may not send is answered NAK NOT_ALLOWED (R126); as LM_RETRAIN_RECEIVED. -/
  | lmDisallowedReceived (n : Fin 21) (msg : Word) (crc : BitVec 32) (errored : Bool)
  /-- A camera ACK completes the outstanding FG-16 request and its action proceeds (R127); as LM_RETRAIN_RECEIVED. -/
  | lmAckReceived (n : Fin 21) (msg : Word) (crc : BitVec 32) (errored : Bool)
  /-- A camera NAK completes the outstanding FG-16 request with result NAK (R127); as LM_RETRAIN_RECEIVED. -/
  | lmNakReceived (n : Fin 21) (msg : Word) (crc : BitVec 32) (errored : Bool)
  /-- 4 µs without response resends the request, and after the third attempt completes it TIMEOUT (R127); link `n`. -/
  | lmResponseTimeout (n : Fin 21)
  /-- A Frame Start packet is checked, closes any open frame INCOMPLETE, and is accepted, refused or discarded (R162);
  a packet's header and body, the CRC it carries, whether a block after its header block was errored, its arrival
  tick, and whether the forwarding buffer has room. -/
  | frameStartReceived (n : Fin 16) (fseq : Fin 256) (param : BitVec 32) (body : List Byte) (crc : BitVec 32) (errored : Bool) (tick : Nat) (room : Bool)
  /-- A Frame Start held behind the stall's own finishing frame reaches the bay once that frame's last pixel has
  entered (R207); stall `n`. -/
  | heldFrameStartRelease (n : Fin 20)
  /-- A Line packet is checked against the expected position and buffered, discarded as LINE_ERR or ORPHAN_LINE, or
  overruns the buffer (R160); as FRAME_START_RECEIVED. -/
  | lineReceived (n : Fin 16) (fseq : Fin 256) (param : BitVec 32) (body : List Byte) (crc : BitVec 32) (errored : Bool) (tick : Nat) (room : Bool)
  /-- A Frame End closes the matching open frame, flagging INCOMPLETE on a count mismatch or camera status (R161); as
  FRAME_START_RECEIVED. -/
  | frameEndReceived (n : Fin 16) (fseq : Fin 256) (param : BitVec 32) (body : List Byte) (crc : BitVec 32) (errored : Bool) (tick : Nat) (room : Bool)
  /-- FRAME_TIMEOUT passes with no accepted packet and the open frame closes INCOMPLETE (R162); stall `n`. -/
  | frameTimeout (n : Fin 20)
  /-- A Control Response completes its outstanding request, or is discarded as LATE_RESP or UNEXPECTED_RESP (R179); a
  packet with control ID `id` in FSEQ. -/
  | controlResponseReceived (n : Fin 16) (id : Fin 256) (param : BitVec 32) (body : List Byte) (crc : BitVec 32) (errored : Bool) (tick : Nat)
  /-- A camera Event packet is pushed to the event trough as a 2-word packet when EVT_EN is 1 (R172); as
  FRAME_START_RECEIVED. -/
  | eventPacketReceived (n : Fin 16) (param : BitVec 32) (body : List Byte) (crc : BitVec 32) (errored : Bool) (tick : Nat) (room : Bool)
  /-- A camera Heartbeat updates CAM_STATE and status and yields a link-latency sample (R171); as
  CONTROL_RESPONSE_RECEIVED. -/
  | heartbeatReceived (n : Fin 16) (param : BitVec 32) (body : List Byte) (crc : BitVec 32) (errored : Bool) (tick : Nat)
  /-- Every 1,000 ns on an UP stall the FG-16 sends a Heartbeat with its KEEPER, HOLD and PAIRED bits (R181); stall
  `n`. -/
  | heartbeatSend (n : Fin 16)
  /-- 10 µs without a good camera Heartbeat declares the camera lost, closes the frame, completes requests and
  retrains (R182); stall `n`. -/
  | cameraLost (n : Fin 16)
  /-- An event on camera-trigger consumer 288 + n queues a Trigger, or is discarded when 4 are held (R604); stall `n`.
  -/
  | yardCameraTrigger (n : Fin 16)
  /-- A queued Trigger reaches its lead and is committed with TRIG_ID and ACT_DELAY, or counted TRIG_UNSENT (R169);
  the tick at which its block's first UI leaves; whether the stall left UP before. -/
  | triggerCommit (n : Fin 16) (tx : Nat) (gone : Bool)
  /-- With the stall UP and an ID free the stall pops a request item and sends a Control Request, or completes it
  BAD_REQUEST (R176); stall `n`. -/
  | controlRequestPop (n : Fin 16)
  /-- STALL_CTRL_CFG.TIMEOUT passes without response; the request completes TIMEOUT and its ID is quarantined (R177);
  stall `n`. -/
  | controlTimeout (n : Fin 16)
  /-- A quarantine of one ID or of all IDs ends and the IDs become free (R178); stall `n`. -/
  | controlIdQuarantineEnd (n : Fin 16)
  /-- STALL_PROTO_CFG.CNT_CLEAR clears the protocol and parallel-port counters (R191); stall `n`. -/
  | protoCntClear (n : Fin 16)
  /-- FRAME_V is asserted and a parallel-port frame opens (R186); port `p`, and the tick of the edge. -/
  | pportFrameVAssert (p : Fin 2) (tick : Nat)
  /-- LINE_V is released and the line is filled or cut to WIDTH, or discarded beyond HEIGHT (R186); port `p`, and the
  words captured on rising and on falling clock edges. -/
  | pportLineEnd (p : Fin 2) (rise fall : List (BitVec 16))
  /-- FRAME_V is released and the frame closes, filling missing lines and flagging GEOM_ERR (R186); port `p`. -/
  | pportFrameVRelease (p : Fin 2)
  /-- The port clock has run 100 µs without a break and the port stall is UP (R187); port `p`. -/
  | pportClockUp (p : Fin 2)
  /-- 10 µs without a clock edge make the port DOWN, set CLK_LOST and close the frame (R187); port `p`. -/
  | pportClockLost (p : Fin 2)
  /-- A bay takes the pixels of a released Line packet, corrects them and passes them to its route unit (R205); stall
  `n`; whether its frame's placement writes have backed up beyond their buffer. -/
  | bayLineIntake (n : Fin 20) (backed : Bool)
  /-- A fen map read returns; poisoned data leaves the correction out and counts MAP_POISON (R231); stall `n`. -/
  | mapReadReturn (n : Fin 20)
  /-- The bay pushes the statistics set of a measured frame to trough 80 + c and raises its producer (R240); context
  `c`. -/
  | statisticsPush (c : Fin 64)
  /-- A write of CTX_CTRL.ENABLE enables the context or refuses it with ENABLE_REJECTED (R211); a write of `v`, with
  ENABLE 1, to CTX_CTRL. -/
  | contextEnable (c : Fin 64) (v : Word)
  /-- A write clearing CTX_CTRL.ENABLE disables the context (R211); a write of `v`, with ENABLE 0, to CTX_CTRL. -/
  | contextDisable (c : Fin 64) (v : Word)
  /-- CTX_CTRL.CNT_CLEAR clears CTX_COUNT, CTX_COUNT2 and the chute's CHUTE_COUNT (R250); context `c`. -/
  | ctxCntClear (c : Fin 64)
  /-- A write to a tack-set copy is taken, or ignored with LOCKED_WRITE when the copy is locked (R241); word `w` of
  copy A or B of context `c`, and the bytes enabled. -/
  | tackCopyWrite (c : Fin 64) (b : Bool) (w : Fin 128) (v : Word) (be : BitVec 8)
  /-- CTX_COMMIT GO locks the named copy for checking, or is refused with GO_REFUSED (R242); a write of `v`, with GO
  1, to CTX_COMMIT. -/
  | tackCommitGo (c : Fin 64) (v : Word)
  /-- The tack sequencer ends its CRC, sequence and field checks with a failure, PENDING or APPLIED (R242); context
  `c`. -/
  | tackCheckComplete (c : Fin 64)
  /-- CTX_COMMIT CANCEL unlocks a pending copy with result CANCELLED (R246); context `c`. -/
  | tackCommitCancel (c : Fin 64)
  /-- A write of CHUTE_CFG.BAYS changes the bay division, or is refused with CFG_REJECTED (R255); a write of `v` to
  CHUTE_CFG of chute `k`. -/
  | chuteBaysWrite (k : Fin 4) (v : Word)
  /-- A write of CHUTE_DEFECT_BASE sets the defect pool, or is refused with REJECTED (R257); a write of `v` to
  CHUTE_DEFECT_BASE. -/
  | defectBaseWrite (v : Word)
  /-- CRIB_LOAD GO starts a crib load, or is refused PINNED or BAD_KIND (R235); a write of `v`, with GO 1, to
  CRIB_LOAD. -/
  | cribLoadGo (v : Word)
  /-- A crib load ends; the slot becomes LIN or COL if the CRC matches, otherwise EMPTY (R235); the load in progress.
  -/
  | cribLoadComplete
  /-- Once a product's writes are acknowledged the route unit pushes its tag record, releasing the product if the push
  drops (R418); context `c`. -/
  | tagRecordPush (c : Fin 64)
  /-- A result packet is pushed once its last window is complete (R280); context `c`. -/
  | windowResultPush (c : Fin 64)
  /-- Resampling of a staged frame ends, the half is freed and a completed stack's product and tag are written (R289);
  context `c`. -/
  | shiftaddResampleEnd (c : Fin 64)
  /-- PADDOCK_LOAD GO starts a window-set load, or is refused PINNED or BAD_RANGE (R276); a write of `v`, with GO 1,
  to PADDOCK_LOAD. -/
  | paddockLoadGo (v : Word)
  /-- A paddock load ends; the set becomes VALID, or EMPTY on CRC or entry failure (R276); the load in progress. -/
  | paddockLoadComplete
  /-- RED_CTX_CTRL.CNT_CLEAR clears RED_CTX_COUNT (R305); context `c`. -/
  | redCntClear (c : Fin 64)
  /-- An event on converter consumer 304 + n is a start, resolved against the converter state as Table 7.2 states
  (R319); converter `n`. -/
  | adcYardStart (n : Fin 8)
  /-- An urgent conversion request is served or dropped as Table 7.2 states (R317); converter `n`; through its yard
  consumer, or by the yardmaster. -/
  | adcUrgentRequest (n : Fin 8) (yard : Bool)
  /-- ADC_CTRL.START starts a run whose first sample is 1,600 ticks after the start tick (R312); converter `n`. -/
  | adcCtrlStart (n : Fin 8)
  /-- ADC_CTRL.STOP stops the run at its tick plus 1,600 ticks (R317); converter `n`. -/
  | adcCtrlStop (n : Fin 8)
  /-- ADC_CTRL.CNT_CLEAR clears ADC_COUNT (R337); converter `n`. -/
  | adcCntClear (n : Fin 8)
  /-- START_MASK bits of ADC_GLOBAL_START start the named converters with one tick (R337); START_MASK. -/
  | adcGlobalStart (mask : BitVec 8)
  /-- STOP_MASK bits of ADC_GLOBAL_START stop the named converters with one tick (R337); STOP_MASK. -/
  | adcGlobalStop (mask : BitVec 8)
  /-- A 64-byte unit of 32 samples becomes readable and WR_OFFSET advances past it (R321); the next 32 mismatch-
  corrected samples of converter `n`. -/
  | adcUnitCommit (n : Fin 8) (xs : List (BitVec 14))
  /-- A run ends; the last unit is padded, ADC_RUN_INFO updated, a run record pushed and producer 400 + 2n raised
  (R323); the samples of the last, unfinished unit, and how many samples of a scan outside its pixels saturated. -/
  | adcRunEnd (n : Fin 8) (xs : List (BitVec 14)) (stray : Nat)
  /-- An urgent conversion completes into ADC_URGENT_RESULT and raises producer 400 + 2n (R318); the mismatch-
  corrected sample. -/
  | adcUrgentResult (n : Fin 8) (x : BitVec 14)
  /-- A read of ADC_URGENT_RESULT returns VALID and clears it (R341); converter `n`. -/
  | urgentResultRead (n : Fin 8)
  /-- A write of ADC_CFG is taken, or refused field by field with CFG_REJECTED while not IDLE or for code 7 or 3
  (R338); a write of `v` to ADC_CFG. -/
  | adcCfgWrite (n : Fin 8) (v : Word)
  /-- WAKING ends and the converter is IDLE at full rate (R325); converter `n`. -/
  | adcWakeComplete (n : Fin 8)
  /-- A write of ADC_BUF sets the record buffer, or is refused for misalignment, range or a busy converter (R340); a
  write of `v` to ADC_BUF. -/
  | adcBufWrite (n : Fin 8) (v : Word)
  /-- The mismatch estimates settle and MMC_CONVERGED is set (R314); converter `n`. -/
  | mmcConverged (n : Fin 8)
  /-- ADC_CAL GO with PHASE ZERO starts averaging 65,536 samples of the input (R327); a write of `v`, with PHASE ZERO
  and GO, to ADC_CAL. -/
  | adcCalZero (n : Fin 8) (v : Word)
  /-- ADC_CAL GO with PHASE FULL averages the full-scale level, or ends NO_ZERO (R328); a write of `v`, with PHASE
  FULL and GO, to ADC_CAL. -/
  | adcCalFull (n : Fin 8) (v : Word)
  /-- A calibration phase ends with ZERO_DONE, or with the computed coefficients written, DONE or BAD_SPAN (R328); the
  sum of the 65,536 mismatch-corrected samples. -/
  | adcCalPhaseEnd (n : Fin 8) (sum : Int)
  /-- Setting VST_CFG.ENABLE enables a virtual stall and raises link up, or is refused with CFG_REJECTED (R329); a
  write of `w`, with ENABLE 1, to VST_CFG of virtual stall 16 + v. -/
  | vstEnable (v : Fin 4) (w : Word)
  /-- Clearing VST_CFG.ENABLE disables the virtual stall and raises link down (R335); a write of `w`, with ENABLE 0,
  to VST_CFG. -/
  | vstDisable (v : Fin 4) (w : Word)
  /-- At a frame's first pixel instant the virtual stall presents its Frame Start (R334); virtual stall 16 + v. -/
  | vstFrameStart (v : Fin 4)
  /-- A dwell interval ends and the pixel value is formed from its samples (R333); the samples of the pixel's dwell, a
  list for each member. -/
  | vstPixelEnd (v : Fin 4) (xs : List (List (BitVec 14)))
  /-- With TIMING EVENT a lead-consumer event ends one pixel and begins the next (R332); as VST_PIXEL_END. -/
  | vstPixelEvent (v : Fin 4) (xs : List (List (BitVec 14)))
  /-- A pixel with no boundary within DWELL ticks ends the run as a stop (R332); virtual stall 16 + v. -/
  | vstDwellTimeout (v : Fin 4)
  /-- FEN_SEG_CTRL.APPLY checks the staged segment map and starts applying it, or refuses it (R349). -/
  | fenSegApply
  /-- The changed segments have been zeroed and the new map is in effect (R350). -/
  | fenSegApplyComplete
  /-- A fen read checks SECDED, correcting a single error or returning an uncorrectable word poisoned with alarm
  FEN_UE (R355); an engine reads the fen word at byte address `addr`; `ecc` is what the stored bits hold. -/
  | fenWordRead (addr : Nat) (ecc : Ecc)
  /-- The corrected word is written back unless a client wrote its unit meanwhile (R356); `written`: a client wrote
  the 64-byte unit since the read. -/
  | fenCorrectionWriteback (addr : Nat) (written : Bool)
  /-- A write of fewer than eight bytes reads, merges and rewrites its word, keeping poison (R346); a write of the
  enabled bytes of one word. -/
  | fenPartialWrite (addr : Nat) (data : Word) (be : BitVec 8) (ecc : Ecc)
  /-- FEN_SCRUB.CNT_CLEAR clears FEN_ECC and FEN_SCRUB_COUNT (R400). -/
  | fenScrubCntClear
  /-- Setting FEN_POOL_CFG.ENABLE starts FILLING, or is refused with REJECT_CODE (R360); a write of `v` with ENABLE 1
  to FEN_POOL_CFG `p`. -/
  | poolEnable (p : Fin 256) (v : Word)
  /-- Every block address has been pushed and the pool becomes READY (R362). -/
  | poolFillComplete (p : Fin 256)
  /-- Clearing ENABLE disables the pool, or is refused BLOCKS_OUT (R366); a write of `v` with ENABLE 0. -/
  | poolDisable (p : Fin 256) (v : Word)
  /-- FORCE disables the pool at once, clearing its out bits and list (R366); a write of `v` with FORCE 1. -/
  | poolForce (p : Fin 256) (v : Word)
  /-- A write of FEN_POOL_RELEASE releases a block, or is discarded as BAD_RELEASE or DOUBLE_RELEASE (R364); a write
  of `v` to FEN_POOL_RELEASE. -/
  | poolRelease (v : Word)
  /-- Setting TRG_CFG.ENABLE enables a trough, or refuses with REJECT_CODE (R372); a write of `v` with ENABLE 1 to
  TRG_CFG `t`. -/
  | troughEnable (t : Fin 65536) (v : Word)
  /-- Clearing TRG_CFG.ENABLE disables the trough and discards its contents (R391); a write of `v` with ENABLE 0. -/
  | troughDisable (t : Fin 65536) (v : Word)
  /-- TRG_CTRL.FLUSH empties the trough, discarding open packets and pending markers (R385). -/
  | trgFlush (t : Fin 65536)
  /-- TRG_CTRL.CNT_CLEAR clears TRG_COUNT and TRG_DROPS (R407). -/
  | trgCntClear (t : Fin 65536)
  /-- The PUSH doorbell pushes a single-word item (R409); a doorbell write by function `fn`. -/
  | push (fn : Fin 2) (t : Fin 65536) (w : Word) (poisoned : Bool)
  /-- The PUSH_SOP doorbell opens a packet with its first word (R409). -/
  | pushSop (fn : Fin 2) (t : Fin 65536) (w : Word) (poisoned : Bool)
  /-- The PUSH_MID doorbell adds a middle word to the function's open packet (R409). -/
  | pushMid (fn : Fin 2) (t : Fin 65536) (w : Word) (poisoned : Bool)
  /-- The PUSH_EOP doorbell adds the last word and commits the packet (R409). -/
  | pushEop (fn : Fin 2) (t : Fin 65536) (w : Word) (poisoned : Bool)
  /-- The PUSH_ABORT doorbell rewinds the function's open packet (R409). -/
  | pushAbort (fn : Fin 2) (t : Fin 65536)
  /-- A read of the POP doorbell pops one word and returns its status, holding the data word (R410); `ecc`: what the
  check of the popped word finds. -/
  | pop (fn : Fin 2) (t : Fin 65536) (ecc : Ecc)
  /-- A read of POP_DATA returns the data word of the function's last pop (R409). -/
  | popData (fn : Fin 2)
  /-- A read of the DEPTH doorbell returns TRG_DEPTH (R409). -/
  | depth (fn : Fin 2) (t : Fin 65536)
  /-- An open packet gets no word for PKT_TIMEOUT and is rewound with a marker (R383). -/
  | packetTimeout (t : Fin 65536)
  /-- A holder pops no word for PKT_TIMEOUT; it loses its hold and the rest of the packet is discarded (R384). -/
  | popHoldTimeout (t : Fin 65536)
  /-- The sluice issues a read for posted descriptors of a host-fed ring (R438); a read of `n` posted slots of ring
  `r`, with read tag `tag`. -/
  | descriptorFetch (r : Fin 1024) (n : Fin 17) (tag : Fin 16384)
  /-- Fetched descriptors arrive and each is checked and started (R438); the whole data of the fetch with tag `tag`.
  -/
  | descriptorFetchComplete (tag : Fin 16384) (data : List Byte)
  /-- The sluice pops a 4-word descriptor packet from a trough-fed ring's source trough (R437); ring `r`. -/
  | descriptorPop (r : Fin 1024)
  /-- A NOP descriptor does nothing and retires (R440); the descriptor of slot `slot` of ring `r`. -/
  | sluiceNop (r : Fin 1024) (slot : Fin 65536)
  /-- A COPY descriptor copies fen bytes to a host address (R440); as SLUICE_NOP. -/
  | sluiceCopy (r : Fin 1024) (slot : Fin 65536)
  /-- A DELIVER pops a tag record and writes its product and tag copy to host memory (R441); as SLUICE_NOP. -/
  | sluiceDeliver (r : Fin 1024) (slot : Fin 65536)
  /-- A FETCH reads host bytes and writes them into the fen (R440); as SLUICE_NOP; its next read, with read tag `tag`.
  -/
  | sluiceFetch (r : Fin 1024) (slot : Fin 65536) (tag : Fin 16384)
  /-- A PUSH reads host bytes and pushes them to a trough as one item (R440); as SLUICE_FETCH. -/
  | sluicePush (r : Fin 1024) (slot : Fin 65536) (tag : Fin 16384)
  /-- A POP pops whole items from a trough and writes them with headers to host memory (R442); as SLUICE_NOP. -/
  | sluicePop (r : Fin 1024) (slot : Fin 65536)
  /-- A DELIVER or POP waiting with WAIT finds an item in its trough and proceeds (R441); as SLUICE_NOP. -/
  | deliverWaitResume (r : Fin 1024) (slot : Fin 65536)
  /-- A descriptor retires in slot order; its completion record is issued and its vector sent if IRQ is set (R444);
  ring `r`. -/
  | completionRecordIssue (r : Fin 1024)
  /-- A pending MSI-X vector is issued in a reserved or shared slot of the 500 ns window (R36); `window`: a new 500 ns
  window has begun. -/
  | msixMessageIssue (fn : Fin 2) (vector : Fin 2048) (window : Bool)
  /-- A write of RING_PTR.TAIL posts descriptors, or is refused with CFG_REJECTED (R461); a write of `v` to RING_PTR.
  -/
  | ringTailWrite (r : Fin 1024) (v : Word)
  /-- Setting RING_CTRL.ENABLE starts the ring, or is refused with CFG_REJECTED (R462); a write of `v`, with ENABLE 1,
  to RING_CTRL. -/
  | ringEnable (r : Fin 1024) (v : Word)
  /-- Clearing ENABLE stops fetching; waiting DELIVER or POP complete CANCELLED (R462); a write of `v`, with ENABLE 0,
  to RING_CTRL. -/
  | ringDisable (r : Fin 1024) (v : Word)
  /-- SLUICE_CFG.CNT_CLEAR clears SLUICE_COUNT and SLUICE_COUNT2 (R456); the sluice. -/
  | sluiceCntClear
  /-- A mirror writes an item committed to a log trough and a pointer word to host memory, or counts DROPPED (R454);
  mirror `k`; whether it has a share of the paths for the item. -/
  | mirrorCopy (k : Fin 4) (share : Bool)
  /-- CTX_DEST_CTRL.COMMIT makes a host buffer pending, replacing any pending one (R432); a write of `v`, with COMMIT
  1, to CTX_DEST_CTRL. -/
  | destCommit (c : Fin 64) (v : Word)
  /-- CTX_DEST_CTRL.CANCEL discards the pending buffer with result CANCELLED (R432); context `c`. -/
  | destCancel (c : Fin 64)
  /-- Setting HERD_CFG.ENABLE enables a herd, or is refused with CFG_REJECTED (R459); a write of `v`, with ENABLE 1,
  to HERD_CFG. -/
  | herdEnable (h : Fin 16) (v : Word)
  /-- Clearing HERD_CFG.ENABLE disables the herd and clears its counters (R460); a write of `v`, with ENABLE 0, to
  HERD_CFG. -/
  | herdDisable (h : Fin 16) (v : Word)
  /-- WINDOW µs pass after a later-slot frame in STRICT mode and waiting members are marked absent (R428); herd `h`.
  -/
  | herdStrictWindowExpiry (h : Fin 16)
  /-- A slot's herd record is released in slot order and pushed to the herd trough (R428); herd `h`. -/
  | herdRecordRelease (h : Fin 16)
  /-- ADD writes A + B and sets Z N C V (R480); groom `g` executes the instruction at its PC; `ecc`: what the check of
  the fetched words finds. -/
  | add (g : Fin 16) (ecc : Ecc)
  /-- SUB writes A − B and sets Z N C V (R480); groom `g` executes the instruction at its PC; `ecc`: what the check of
  the fetched words finds. -/
  | sub (g : Fin 16) (ecc : Ecc)
  /-- AND writes A AND B (R480); groom `g` executes the instruction at its PC; `ecc`: what the check of the fetched
  words finds. -/
  | and (g : Fin 16) (ecc : Ecc)
  /-- OR writes A OR B (R480); groom `g` executes the instruction at its PC; `ecc`: what the check of the fetched
  words finds. -/
  | or (g : Fin 16) (ecc : Ecc)
  /-- XOR writes A XOR B (R480); groom `g` executes the instruction at its PC; `ecc`: what the check of the fetched
  words finds. -/
  | xor (g : Fin 16) (ecc : Ecc)
  /-- SHL shifts A left by a register or immediate amount (R482); groom `g` executes the instruction at its PC; `ecc`:
  what the check of the fetched words finds. -/
  | shl (g : Fin 16) (ecc : Ecc)
  /-- SHR shifts A right with zeros in (R482); groom `g` executes the instruction at its PC; `ecc`: what the check of
  the fetched words finds. -/
  | shr (g : Fin 16) (ecc : Ecc)
  /-- SAR shifts A right with the sign in (R482); groom `g` executes the instruction at its PC; `ecc`: what the check
  of the fetched words finds. -/
  | sar (g : Fin 16) (ecc : Ecc)
  /-- MUL writes the low, unsigned high or signed high 64 bits of A × B in 3 cycles (R483); groom `g` executes the
  instruction at its PC; `ecc`: what the check of the fetched words finds. -/
  | mul (g : Fin 16) (ecc : Ecc)
  /-- MIN writes the smaller of A and B, signed or unsigned (R483); groom `g` executes the instruction at its PC;
  `ecc`: what the check of the fetched words finds. -/
  | min (g : Fin 16) (ecc : Ecc)
  /-- MAX writes the larger of A and B, signed or unsigned (R483); groom `g` executes the instruction at its PC;
  `ecc`: what the check of the fetched words finds. -/
  | max (g : Fin 16) (ecc : Ecc)
  /-- CMP sets flags as SUB without writing a result (R481); groom `g` executes the instruction at its PC; `ecc`: what
  the check of the fetched words finds. -/
  | cmp (g : Fin 16) (ecc : Ecc)
  /-- ADDI writes A plus a sign-extended 14-bit immediate (R480); groom `g` executes the instruction at its PC; `ecc`:
  what the check of the fetched words finds. -/
  | addi (g : Fin 16) (ecc : Ecc)
  /-- MOVI writes a sign-extended 14-bit immediate (R480); groom `g` executes the instruction at its PC; `ecc`: what
  the check of the fetched words finds. -/
  | movi (g : Fin 16) (ecc : Ecc)
  /-- ADDI32 writes A plus a sign-extended 32-bit extension word (R480); groom `g` executes the instruction at its PC;
  `ecc`: what the check of the fetched words finds. -/
  | addi32 (g : Fin 16) (ecc : Ecc)
  /-- LI32 loads the extension word sign-extended, zero-extended or into the high half (R483); groom `g` executes the
  instruction at its PC; `ecc`: what the check of the fetched words finds. -/
  | li32 (g : Fin 16) (ecc : Ecc)
  /-- BIT.SET writes A with bit p set (R484); groom `g` executes the instruction at its PC; `ecc`: what the check of
  the fetched words finds. -/
  | bitSet (g : Fin 16) (ecc : Ecc)
  /-- BIT.CLR writes A with bit p cleared (R484); groom `g` executes the instruction at its PC; `ecc`: what the check
  of the fetched words finds. -/
  | bitClr (g : Fin 16) (ecc : Ecc)
  /-- BIT.TST sets Z when bit p of A is 0 (R484); groom `g` executes the instruction at its PC; `ecc`: what the check
  of the fetched words finds. -/
  | bitTst (g : Fin 16) (ecc : Ecc)
  /-- BIT.EXT extracts a field of w + 1 bits from bit p of A (R484); groom `g` executes the instruction at its PC;
  `ecc`: what the check of the fetched words finds. -/
  | bitExt (g : Fin 16) (ecc : Ecc)
  /-- B branches by a signed 14-bit offset (R486); groom `g` executes the instruction at its PC; `ecc`: what the check
  of the fetched words finds. -/
  | b (g : Fin 16) (ecc : Ecc)
  /-- BC branches when its condition code holds (R486); groom `g` executes the instruction at its PC; `ecc`: what the
  check of the fetched words finds. -/
  | bc (g : Fin 16) (ecc : Ecc)
  /-- CALL pushes the return index and branches (R486); groom `g` executes the instruction at its PC; `ecc`: what the
  check of the fetched words finds. -/
  | call (g : Fin 16) (ecc : Ecc)
  /-- RET pops the return stack and branches there (R486); groom `g` executes the instruction at its PC; `ecc`: what
  the check of the fetched words finds. -/
  | ret (g : Fin 16) (ecc : Ecc)
  /-- LOOP decrements its counter and branches while it is not 0 (R486); groom `g` executes the instruction at its PC;
  `ecc`: what the check of the fetched words finds. -/
  | loop (g : Fin 16) (ecc : Ecc)
  /-- BL32 branches to A plus the extension word, pushing a return index with LINK (R486); groom `g` executes the
  instruction at its PC; `ecc`: what the check of the fetched words finds. -/
  | bl32 (g : Fin 16) (ecc : Ecc)
  /-- HALT stops the groom in HALTED and records its code (R486); groom `g` executes the instruction at its PC; `ecc`:
  what the check of the fetched words finds. -/
  | halt (g : Fin 16) (ecc : Ecc)
  /-- NOP does nothing for one cycle (R486); groom `g` executes the instruction at its PC; `ecc`: what the check of
  the fetched words finds. -/
  | nop (g : Fin 16) (ecc : Ecc)
  /-- FENCE waits until every earlier device instruction is complete (R487); groom `g` executes the instruction at its
  PC; `ecc`: what the check of the fetched words finds. -/
  | fence (g : Fin 16) (ecc : Ecc)
  /-- LD loads 8 to 64 bits from groom data memory, zero- or sign-extended (R488); groom `g` executes the instruction
  at its PC; `mem`: what the check of the words it reads finds. -/
  | ld (g : Fin 16) (ecc mem : Ecc)
  /-- ST stores the low bits of B to groom data memory (R488); groom `g` executes the instruction at its PC; `mem`:
  what the check of the words it reads finds. -/
  | st (g : Fin 16) (ecc mem : Ecc)
  /-- LDS loads from shared scratch after an arbiter grant (R491); groom `g` executes the instruction at its PC;
  `mem`: what the check of the words it reads finds. -/
  | lds (g : Fin 16) (ecc mem : Ecc)
  /-- STS stores to shared scratch after an arbiter grant (R491); groom `g` executes the instruction at its PC; `mem`:
  what the check of the words it reads finds. -/
  | sts (g : Fin 16) (ecc mem : Ecc)
  /-- AMO.ADD atomically adds B to a scratch word and returns the old value (R490); groom `g` executes the instruction
  at its PC; `mem`: what the check of the words it reads finds. -/
  | amoAdd (g : Fin 16) (ecc mem : Ecc)
  /-- AMO.SWAP atomically replaces a scratch word with B and returns the old value (R490); groom `g` executes the
  instruction at its PC; `mem`: what the check of the words it reads finds. -/
  | amoSwap (g : Fin 16) (ecc mem : Ecc)
  /-- AMO.CAS atomically writes B if the word equals GD, setting Z on success (R490); groom `g` executes the
  instruction at its PC; `mem`: what the check of the words it reads finds. -/
  | amoCas (g : Fin 16) (ecc mem : Ecc)
  /-- WAITE waits for a masked pending event, optionally consuming it, or a deadline (R495); groom `g` executes the
  instruction at its PC; `ecc`: what the check of the fetched words finds. -/
  | waite (g : Fin 16) (ecc : Ecc)
  /-- WAITT waits until the time base reaches a target tick or a deadline (R495); groom `g` executes the instruction
  at its PC; `ecc`: what the check of the fetched words finds. -/
  | waitt (g : Fin 16) (ecc : Ecc)
  /-- WAITP waits until an axis position is at or above, or at or below, a value (R495); groom `g` executes the
  instruction at its PC; `ecc`: what the check of the fetched words finds. -/
  | waitp (g : Fin 16) (ecc : Ecc)
  /-- WAITQ waits until a trough's visible depth is above, or at or below, a level (R495); groom `g` executes the
  instruction at its PC; `ecc`: what the check of the fetched words finds. -/
  | waitq (g : Fin 16) (ecc : Ecc)
  /-- WAITX waits for any condition armed in ARM_EN (R497); groom `g` executes the instruction at its PC; `ecc`: what
  the check of the fetched words finds. -/
  | waitx (g : Fin 16) (ecc : Ecc)
  /-- WAITR waits for a tick count after its issue (R495); groom `g` executes the instruction at its PC; `ecc`: what
  the check of the fetched words finds. -/
  | waitr (g : Fin 16) (ecc : Ecc)
  /-- A WAIT's condition becomes true or its deadline passes; the groom resumes within 4 cycles with GD, C and T set
  (R496). -/
  | waitEnd (g : Fin 16)
  /-- CSR.R reads a control and status register into GD (R499); groom `g` executes the instruction at its PC; `ecc`:
  what the check of the fetched words finds. -/
  | csrR (g : Fin 16) (ecc : Ecc)
  /-- CSR.W writes a control and status register, restarting the watchdog for WDOG_KICK or WDOG_CFG (R499); groom `g`
  executes the instruction at its PC; `ecc`: what the check of the fetched words finds. -/
  | csrW (g : Fin 16) (ecc : Ecc)
  /-- CSR.S reads a register and sets the bits of A (R499); groom `g` executes the instruction at its PC; `ecc`: what
  the check of the fetched words finds. -/
  | csrS (g : Fin 16) (ecc : Ecc)
  /-- CSR.C reads a register and clears the bits of A (R499); groom `g` executes the instruction at its PC; `ecc`:
  what the check of the fetched words finds. -/
  | csrC (g : Fin 16) (ecc : Ecc)
  /-- An instruction with a reserved opcode or bad fields has no effect and faults ILLEGAL (R473); `ecc`: what the
  check of the fetched words finds. -/
  | illegalInstruction (g : Fin 16) (ecc : Ecc)
  /-- A yard event reaches a groom input, setting EVPEND and EVTICK or EVOVER (R494); an event delivered to input `n`
  of groom `g`. -/
  | groomEventInput (g n : Fin 16)
  /-- The groom watchdog reaches PERIOD, raises its event and alarm, and faults the groom with WDOG_HALT (R502). -/
  | groomWatchdogExpiry (g : Fin 16)
  /-- EMIT PULSE requests a pulse on an output, now or at a target tick (R515); groom `g` executes the instruction at
  its PC; `ecc`: what the check of the fetched words finds. -/
  | emitPulse (g : Fin 16) (ecc : Ecc)
  /-- EMIT SET asserts an output's level at its tick (R516); groom `g` executes the instruction at its PC; `ecc`: what
  the check of the fetched words finds. -/
  | emitSet (g : Fin 16) (ecc : Ecc)
  /-- EMIT CLEAR deasserts an output's level at its tick (R516); groom `g` executes the instruction at its PC; `ecc`:
  what the check of the fetched words finds. -/
  | emitClear (g : Fin 16) (ecc : Ecc)
  /-- EMITW requests a pulse from a start tick to a stop tick (R515); groom `g` executes the instruction at its PC;
  `ecc`: what the check of the fetched words finds. -/
  | emitw (g : Fin 16) (ecc : Ecc)
  /-- SIG raises one groom yard producer (R519); groom `g` executes the instruction at its PC; `ecc`: what the check
  of the fetched words finds. -/
  | sig (g : Fin 16) (ecc : Ecc)
  /-- SIG.M raises every groom producer named in a mask (R519); groom `g` executes the instruction at its PC; `ecc`:
  what the check of the fetched words finds. -/
  | sigM (g : Fin 16) (ecc : Ecc)
  /-- CTRIG queues a Trigger for a stall, or is discarded with CTRIG_FULL (R521); groom `g` executes the instruction
  at its PC; `ecc`: what the check of the fetched words finds. -/
  | ctrig (g : Fin 16) (ecc : Ecc)
  /-- WPT.SET writes a list descriptor, making it IDLE with NEXT 0, unless refused (R524); groom `g` executes the
  instruction at its PC; `ecc`: what the check of the fetched words finds. -/
  | wptSet (g : Fin 16) (ecc : Ecc)
  /-- WPT.ACT starts comparing a list against its axis (R524); groom `g` executes the instruction at its PC; `ecc`:
  what the check of the fetched words finds. -/
  | wptAct (g : Fin 16) (ecc : Ecc)
  /-- WPT.DEACT stops comparing a list (R524); groom `g` executes the instruction at its PC; `ecc`: what the check of
  the fetched words finds. -/
  | wptDeact (g : Fin 16) (ecc : Ecc)
  /-- ARM arms a context (R527); groom `g` executes the instruction at its PC; `ecc`: what the check of the fetched
  words finds. -/
  | arm (g : Fin 16) (ecc : Ecc)
  /-- ARM.OFF disarms a context, letting an open frame finish (R527); groom `g` executes the instruction at its PC;
  `ecc`: what the check of the fetched words finds. -/
  | armOff (g : Fin 16) (ecc : Ecc)
  /-- TACK commits a tack-set copy as CTX_COMMIT does (R528); groom `g` executes the instruction at its PC; `ecc`:
  what the check of the fetched words finds. -/
  | tack (g : Fin 16) (ecc : Ecc)
  /-- TACK with LOAD writes a 1,024-byte image from data memory into a copy and commits it (R528); groom `g` executes
  the instruction at its PC; `mem`: what the check of the words it reads finds. -/
  | tackLoad (g : Fin 16) (ecc mem : Ecc)
  /-- TACK.CANCEL cancels the context's pending commit (R528); groom `g` executes the instruction at its PC; `ecc`:
  what the check of the fetched words finds. -/
  | tackCancel (g : Fin 16) (ecc : Ecc)
  /-- A TACK.W wait ends at APPLIED, CANCELLED or its deadline (R529). -/
  | tackWaitEnd (g : Fin 16)
  /-- QPUSH pushes one word to a trough (R531); groom `g` executes the instruction at its PC; `ecc`: what the check of
  the fetched words finds. -/
  | qpush (g : Fin 16) (ecc : Ecc)
  /-- QPUSH.P pushes a packet from data memory as one burst (R531); groom `g` executes the instruction at its PC;
  `mem`: what the check of the words it reads finds. -/
  | qpushP (g : Fin 16) (ecc mem : Ecc)
  /-- QPOP pops one word, flagging gap, poison or a multi-word head (R532); groom `g` executes the instruction at its
  PC; `mem`: what the check of the popped word finds. -/
  | qpop (g : Fin 16) (ecc mem : Ecc)
  /-- QPOP.P pops one item into data memory and returns its status (R533); groom `g` executes the instruction at its
  PC; `mem`: what the check of the popped words finds. -/
  | qpopP (g : Fin 16) (ecc mem : Ecc)
  /-- TAG pushes a program tag packet with its tick and CRC (R534); groom `g` executes the instruction at its PC;
  `mem`: what the check of the words it reads finds. -/
  | tag (g : Fin 16) (ecc mem : Ecc)
  /-- DRAIN pushes a descriptor to a trough-fed ring's source trough (R535); groom `g` executes the instruction at its
  PC; `mem`: what the check of the words it reads finds. -/
  | drain (g : Fin 16) (ecc mem : Ecc)
  /-- ACAP START starts every converter in its mask with one tick (R538); groom `g` executes the instruction at its
  PC; `ecc`: what the check of the fetched words finds. -/
  | acapStart (g : Fin 16) (ecc : Ecc)
  /-- ACAP STOP stops every converter in its mask with one tick (R538); groom `g` executes the instruction at its PC;
  `ecc`: what the check of the fetched words finds. -/
  | acapStop (g : Fin 16) (ecc : Ecc)
  /-- MODE places the groom's mode request with the mode controller (R539); groom `g` executes the instruction at its
  PC; `ecc`: what the check of the fetched words finds. -/
  | mode (g : Fin 16) (ecc : Ecc)
  /-- A MODE.W wait ends when the request completes or its deadline passes (R539). -/
  | modeWaitEnd (g : Fin 16)
  /-- GROOM_CTRL.RELEASE releases a halted groom at START_ADDR, or is refused (R544); a write of `v` with RELEASE 1 to
  GROOM_CTRL. -/
  | groomRelease (g : Fin 16) (v : Word)
  /-- GROOM_CTRL.HALT asks the groom to halt (R544); a write of `v` with HALT 1 to GROOM_CTRL. -/
  | groomHalt (g : Fin 16) (v : Word)
  /-- The halt takes effect at the next boundary, withdrawing waiting requests and abandoning waits (R510). -/
  | groomHaltEffect (g : Fin 16)
  /-- GROOM_CTRL.CNT_CLEAR clears the groom's device counters (R548). -/
  | groomCntClear (g : Fin 16)
  /-- GROOM_GROUP RELEASE_MASK releases the named grooms in one cycle (R545); a write of `v` to GROOM_GROUP. -/
  | groupRelease (v : Word)
  /-- GROOM_GROUP HALT_MASK halts the named grooms (R545); a write of `v` to GROOM_GROUP. -/
  | groupHalt (v : Word)
  /-- A host write to instruction memory is taken while halted, otherwise discarded and counted (R543). -/
  | imemHostWrite (g : Fin 16) (i : Fin 16384) (v : BitVec 32)
  /-- A host write of GROOM_G is taken while halted, otherwise discarded and counted (R543). -/
  | groomGWrite (g n : Fin 16) (v : Word)
  /-- A host write of GROOM_WDOG_CFG sets the watchdog and restarts its count (R547). -/
  | groomWdogCfgWrite (g : Fin 16) (v : Word)
  /-- A host access to shared scratch is served in the service slot in grant order (R492); word `i` of the shared
  scratch. -/
  | scratchHostAccess (write : Bool) (i : Fin 8192) (v : Word) (be : BitVec 8)
  /-- A scheduled output edge or level change reaches its tick and is launched to the pin or sent to the field side
  (R569). -/
  | outputEdgeDue (o : Fin 31)
  /-- A yard event on output consumer n schedules a pulse or level change at its tick plus CONS_DELAY (R571). -/
  | outputConsumerEvent (o : Fin 32)
  /-- A PPS_IN edge is stamped, accepted or rejected, drives the discipline and may apply a pending SET (R554); an
  edge of PPS_IN and its stamp. -/
  | ppsEdge (stamp : Nat) (falling : Bool)
  /-- 1.5 s without an accepted edge moves LOCKED to HOLDOVER (R556). -/
  | ppsTimeout
  /-- 1 µs without an edge declares REF10M_IN lost and the PLL holds (R552). -/
  | ref10mLost
  /-- 1 ms of unbroken edges declares REF10M_IN present again (R552). -/
  | ref10mPresent
  /-- TB_CTRL.SET applies TB_SET_VALUE now or at the next PPS, or is refused (R558); a write of `v` with SET 1 to
  TB_CTRL. -/
  | tbSet (v : Word)
  /-- TB_CTRL.ADJUST_GO slews the count by TB_ADJUST, or is refused while PPS_EN is 1 (R560); a write of `v` with
  ADJUST_GO 1 to TB_CTRL. -/
  | tbAdjustGo (v : Word)
  /-- TB_CTRL.MARK_UNSYNC sets UNSYNC (R557). -/
  | markUnsync
  /-- TB_CTRL.CNT_CLEAR clears the time-base, latch, trigger and waypoint counters (R588). -/
  | tbCntClear
  /-- The count reaches TB_COMPARE, producer 435 is raised and a periodic compare advances (R562). -/
  | tbCompareFire
  /-- The count passes a multiple of 4,000,000,000 and producer 433 is raised (R563). -/
  | secondBoundary
  /-- An event on latch consumer 312 + n is captured with its tick and position, or counted MISSED (R564). -/
  | latchEvent (n : Fin 64)
  /-- A qualified TRIG_IN edge is stamped and raises producer 16 + i, or is counted FAST (R566); a qualified edge of
  TRIG_IN `i`. -/
  | trigInEdge (i : Fin 8) (rising : Bool) (stamp : Nat)
  /-- A position sample enters ISL_YARD and every active list compares its NEXT entry against it (R575); the axis's
  oldest sample that crossed the levee; `ecc`: what the check of the entry a list examines first finds. -/
  | positionSampleReceived (axis : Fin 8) (ecc : List (Fin 32 × Ecc))
  /-- A host write of WP_LIST_DESC sets the list IDLE with NEXT 0, or is refused (R580); a write of `v` to
  WP_LIST_DESC `l`. -/
  | wpListDescWrite (l : Fin 32) (v : Word)
  /-- WP_LIST_CTRL OP 1 activates the list, skipping passed entries with SKIP_PASSED (R580). -/
  | wpListActivate (l : Fin 32)
  /-- WP_LIST_CTRL OP 2 deactivates the list and closes its gates (R580). -/
  | wpListDeactivate (l : Fin 32)
  /-- A host write of a waypoint entry is taken, or discarded inside an ACTIVE list (R584); a host write of one word
  of entry `i`. -/
  | waypointEntryWrite (i : Fin 262144) (word1 : Bool) (v : Word)
  /-- An event enters the producer stage and passes the channel and consumer matrices to its consumers (R599); the
  producers whose raised events enter the producer stage in one cycle. -/
  | yardProducerEvent (ps : List (Fin 512))
  /-- A write of a producer or consumer enable row changes each permitted bit and marks refused channels DENIED
  (R610); a write of `v` to word `m` of a row. -/
  | yardEnableWrite (fn : Fin 2) (cons : Bool) (row : Fin 512) (m : Fin 4) (v : Word)
  /-- A write of YARD_CH_CFG changes owner and SECURED, or is refused with DENIED (R609). -/
  | yardChCfgWrite (fn : Fin 2) (c : Fin 256) (v : Word)
  /-- YARD_CTRL.CNT_CLEAR clears YARD_GLOBAL and every channel count (R617). -/
  | yardCntClear
  /-- A levee frame crosses and is checked, discarded with LEVEE_CRC on failure (R619); one frame toward the field
  side or toward the core; `ok`: its CRC holds. -/
  | leveeFrame (toField : Bool) (ok : Bool)
  /-- Two consecutive lost frames cause a command resend, counted in CMD_RESENDS (R620). -/
  | leveeCmdResend
  /-- Every 10 µs the core sends a levee heartbeat with RUN, HOLD and HB_ENABLE (R637). -/
  | coreHeartbeatSend
  /-- Every 1 µs the core sends a time sync word to align the field copy of the time base (R621). -/
  | timeSyncSend
  /-- The field side receives a core heartbeat, entering field hold on HOLD or leaving it on RUN (R639). -/
  | coreHeartbeatReceived
  /-- 990 µs without a good core heartbeat put the field side in field hold (R639). -/
  | fieldHoldTimeout
  /-- A field heartbeat reaches the core with VFIELD_OK and CONFIG_VALID (R642); VFIELD in units of 10 mV. -/
  | fieldHeartbeatReceived (vfield : Nat)
  /-- 100 µs without a field heartbeat, or VFIELD_OK 0, declares the field side lost and raises FIELD_LOST (R642). -/
  | fieldLost
  /-- Every 500 µs FO15 toggles while HB_ENABLE was last received (R638). -/
  | heartbeatToggle
  /-- VFIELD falls below 16 V and the field side holds itself in reset (R643). -/
  | vfieldLow
  /-- VFIELD has been above 17 V for 1 ms and the field side restarts cleared in field hold (R643). -/
  | vfieldRestart
  /-- An UNDETERMINED receiver outside its band for 1 µs adopts that level silently (R623); field input `n`, or pin A,
  B or Z of axis `n`, and its level. -/
  | receiverQualify (input : Bool) (n : Fin 16) (pin : Fin 3) (high : Bool)
  /-- A qualified RS-422 receiver inside its band for 10 µs becomes UNDETERMINED and its axis faults (R624). -/
  | brokenWire (n : Fin 8) (pin : Fin 3)
  /-- A qualified encoder edge is decoded into a count, or counted as QUAD_ERR (R627); the levels of A, B and Z at a
  receiver sample; a rising edge of Z is ENCODER_INDEX's. -/
  | encoderEdge (n : Fin 8) (a b z : Bool)
  /-- Every 40 ns an incremental axis sends a position sample with its tick (R626). -/
  | positionSampleSend (n : Fin 8)
  /-- An SSI read completes and delivers a sample, or counts an SSI frame error (R628); the data bits of a read,
  whether its framing held, and the tick of its first clock edge. -/
  | ssiRead (n : Fin 8) (raw : Nat) (ok : Bool) (tick : Nat)
  /-- A qualified Z edge is an index; INDEX counts, producer 24 + n may be raised and Z_ACTION latches or loads
  (R630); a qualified rising edge of Z and its stamp. -/
  | encoderIndex (n : Fin 8) (stamp : Nat)
  /-- ENC_CTRL.LOAD loads ENC_LOAD into the count at the next sample (R631). -/
  | encLoad (n : Fin 8)
  /-- ENC_CTRL.Z_ARM arms a LOAD_ONCE for the next index (R630). -/
  | encZArm (n : Fin 8)
  /-- A write of ENC_CFG enables or disables the axis, or is refused with CFG_REJECTED (R650). -/
  | encCfgWrite (n : Fin 8) (v : Word)
  /-- A valid FI edge after debounce raises producer i with its stamp, or a glitch is counted (R633); the new level,
  whether it returned before DEBOUNCE passed, and the stamp. -/
  | fieldInputEdge (i : Fin 16) (rising glitch : Bool) (stamp : Nat)
  /-- An output over its current limit switches off, sets OVERLOAD and raises FO_OVERLOAD (R635). -/
  | foOverloadTrip (k : Fin 15)
  /-- Clearing OVERLOAD lets the output take the level its commands call for (R635). -/
  | foOverloadClear (k : Fin 15)
  /-- A write to a field register is applied across the levee, or held while LINK_UP is 0 (R641); a write of `v` to
  ENC_CFG, ENC_LOAD, FI_CFG or FO_CFG. -/
  | fieldWrite (r : Reg) (i : Fin 16) (v : Word)
  /-- FLD_CTRL.CNT_CLEAR clears the levee, encoder and input counters (R649). -/
  | fldCntClear
  /-- A configuration request is served, or answered Request Retry Status before an image starts or during FLR (R660);
  a configuration read or write of the dword at `off`. -/
  | configRequest (fn : Fin 2) (write : Bool) (off : Nat) (data : BitVec 32) (be : BitVec 4)
  /-- Unmasking a vector with its PBA bit set sends one message and clears the bit (R666). -/
  | msixUnmask (fn : Fin 2) (vector : Fin 2048)
  /-- A memory request is completed, served or answered Unsupported Request as Table 15.6 orders (R660); a memory
  request to a BAR. -/
  | hostMemoryRequest (fn : Fin 2) (bar : Nat) (write : Bool) (off : Nat) (len : Nat) (data : List Byte) (be : List Bool) (ep : Bool) (posted : Bool)
  /-- A write to a register with no row of its own acts on its fields by type (R6); a write of register `r`, instance
  `i`. -/
  | registerWrite (fn : Fin 2) (r : Reg) (i : Nat) (v : Word) (be : BitVec 8)
  /-- A host completion arrives and completes its request, or is dropped as late, unexpected or after FLR (R680); a
  completion from the host. -/
  | hostCompletionReceived (tag : Nat) (data : List Byte) (ok : Bool) (ep : Bool) (last : Bool)
  /-- A non-posted request is not completed in HOST_CPL_TIMEOUT; its work completes TIMEOUT and its tag is quarantined
  (R679). -/
  | completionTimeout (tag : Nat)
  /-- A quarantined read tag returns to its class (R685). -/
  | tagQuarantineEnd (tag : Nat)
  /-- A yard event on host interrupt source k sets PENDING, records its tick and sends its vector (R668). -/
  | hirqSourceEvent (k : Fin 16)
  /-- After L1_IDLE µs idle PF0 sends its idle LTR and asks for ASPM L1 (R673). -/
  | l1EntryRequest
  /-- DL_Down retires outstanding requests LINK_LOST, restores configuration space and stops the sluice (R681); `hot`:
  by an in-band hot reset. -/
  | hostLinkDown (hot : Bool)
  /-- With the link up and Bus Master Enable 1 the sluice writes LINK_LOST completion records and stops rings (R451).
  -/
  | hostLinkUp (speed : Nat) (width : Nat) (flit : Bool)
  /-- An FLR of PF0 stops its requests, abandons descriptors, halts grooms, disarms contexts and moves to READY
  (R684). -/
  | flrPf0
  /-- The PF0 FLR completes and configuration requests are served again (R684). -/
  | flrPf0Complete
  /-- An FLR of PF1 resets its configuration and MSI-X, rewinds its packets and withdraws its mode request (R754). -/
  | flrPf1
  /-- HOST_CTRL.CNT_CLEAR clears HOST_COUNT and HOST_COUNT2 (R692). -/
  | hostCntClear
  /-- Setting PAIR_CFG.ENABLE enters SEEKING, or is refused for a bad peer serial (R721); a write of `v`, with ENABLE
  1, to PAIR_CFG. -/
  | pairEnable (v : Word)
  /-- Clearing ENABLE releases the keeper line and returns the pair state to OFF (R709); a write of `v`, with ENABLE
  0, to PAIR_CFG. -/
  | pairDisable (v : Word)
  /-- Every 1,000 ns a member sends a STATUS packet with its state, epoch and watermarks (R704); the STATUS packet
  due. -/
  | pairStatusSend
  /-- A peer STATUS updates watermarks and epochs and drives election, shadowing or takeover by FINAL (R709); a STATUS
  packet's body, its CRC, whether a block was errored, and its arrival tick. -/
  | pairStatusReceived (body : List Word) (crc : BitVec 32) (errored : Bool) (tick : Nat)
  /-- 10 µs without a good STATUS takes the causeway down and raises CAUSEWAY_LOST (R703); the causeway. -/
  | causewayStatusTimeout
  /-- The filtered PEER_KEEP_N changes, setting the release tick, raising its producer or detecting both lines
  asserted (R700); the filtered levels of the member's own KEEP_OUT_N pin and of PEER_KEEP_N, asserted or not. -/
  | peerKeepChange (own peer : Bool)
  /-- 100 µs after the release tick with no FINAL the shadow takes keeper with PAIR_CUTOVER set (R711); this member.
  -/
  | peerReleaseTakeover
  /-- After 1 ms or 2 ms in STANDDOWN with the peer line released the member takes keeper (R714); this member. -/
  | standdownReclaim
  /-- PAIR_CTRL.HANDOVER moves a keeper to HANDING_OVER, or is refused (R720); a write of `v`, with HANDOVER 1, to
  PAIR_CTRL. -/
  | pairHandover (v : BitVec 32)
  /-- Every started descriptor has retired; the member sends FINAL and takes shadow (R709); this member. -/
  | handoverComplete
  /-- A causeway FORWARD packet feeds the stall named in it as a received packet (R707); a FORWARD packet's body and
  CRC, whether a block was errored, its arrival tick, and whether the forwarding buffer has room. -/
  | forwardPacketReceived (body : List Byte) (crc : BitVec 32) (errored : Bool) (tick : Nat) (room : Bool)
  /-- A shadow pops delivered records and their markers from tag troughs and releases their blocks (R712); trough `t`.
  -/
  | tagTroughTrim (t : Fin 65536)
  /-- PAIR_CTRL.CNT_CLEAR clears PAIR_COUNT and PAIR_COUNT2 (R720); the pair counters. -/
  | pairCntClear
  /-- The yardmaster enters a raised alarm in trough 0 and retention memory, requests HOLD if hold-causing and signals
  it (R729). -/
  | alarmEntry
  /-- A write of ALARM_ACK acknowledges and pops entries up to SEQ, then enters any ALARM_OVERFLOW (R732). -/
  | alarmAck (seq : BitVec 32)
  /-- A pending fault record is pushed to trough 1 when it has room (R735). -/
  | faultRecordPush
  /-- Every 1 ms the event window closes and one entry per non-zero code is pushed to trough 2 (R735). -/
  | eventWindowClose
  /-- LOG_CTRL.TRACE_THAW ends the trace freeze (R737). -/
  | traceThaw
  /-- LOG_CTRL.SUMMARY_CLEAR clears ALARM_SUMMARY (R751). -/
  | summaryClear
  /-- LOG_CTRL.CNT_CLEAR clears LOG_STATUS (R751). -/
  | logCntClear
  /-- Every 1 ms the fen case sensors are read and FEN_CASE_HIGH or TEMP_CRIT raised (R739); FEN0 to FEN3, in 1/16 °C.
  -/
  | fenCaseSample (temps : List Int)
  /-- Every 1 ms island activity is sampled (R739); busy cycles per 256 of islands 0 to 33. -/
  | activitySample (busy : List Nat)
  /-- TELEM_CTRL.CLEAR resets every telemetry minimum and maximum (R749). -/
  | telemClear
  /-- In-service test runs a slice of a task within its share, yielding within 64 cycles and repeating preempted
  slices (R740); one slice; `detail`: as Table 17.1 gives it for the failure. -/
  | istSlice (task : Fin 6) (detail : Nat) (preempted passEnd failed : Bool)
  /-- A complete scrub pass over the fen ends and PASSES increments (R357). -/
  | fenScrubPass
  /-- The MCTP Set Endpoint ID command sets the SMBus endpoint ID (R741). -/
  | mctpSetEndpointId (eid : BitVec 8)
  /-- The MCTP Get Endpoint ID command returns the endpoint ID (R741). -/
  | mctpGetEndpointId
  /-- Get MCTP Version Support returns the supported versions (R741). -/
  | mctpGetVersionSupport
  /-- Get Message Type Support returns the supported message types (R741). -/
  | mctpGetMessageTypeSupport
  /-- Get Vendor Defined Message Support returns the vendor support (R741). -/
  | mctpGetVendorSupport
  /-- A PLDM request reads a numeric telemetry sensor (R742). -/
  | pldmSensorRead (id : Nat)
  /-- ALARM_READ returns up to 4 unacknowledged alarm entries from a SEQ (R743). -/
  | mctpAlarmRead (seq : BitVec 32)
  /-- ALARM_ACK over SMBus acknowledges entries as R732 states (R743). -/
  | mctpAlarmAck (seq : BitVec 32)
  /-- LOG_POP pops entries of a log trough owned by SMBus, or is REFUSED (R743). -/
  | mctpLogPop (trough : Nat) (maxEntries : Nat)
  /-- REG_READ returns a PF1 BAR0 64-bit register, or is REFUSED (R743). -/
  | mctpRegRead (off : Nat)
  /-- Any other vendor command is answered UNSUPPORTED (R743). -/
  | mctpUnsupported (cmd : Nat)
  /-- Console input on UART_RX is accepted only while DEBUG_LOCK is intact (R744). -/
  | uartConsoleInput (c : Byte)
  /-- The JTAG BYPASS instruction selects the bypass register (R745). -/
  | jtagBypass
  /-- The JTAG IDCODE instruction returns 0x20F1_66FD (R745). -/
  | jtagIdcode
  /-- The JTAG SAMPLE/PRELOAD instruction samples or preloads the boundary scan (R745); the levels at the balls of the
  scan chain, and the bits shifted in. -/
  | jtagSamplePreload (sampled preload : List Bool)
  /-- The JTAG EXTEST instruction drives and captures balls from the boundary scan (R745). -/
  | jtagExtest (sampled : List Bool)
  /-- The JTAG CLAMP instruction holds outputs from the boundary register with bypass selected (R745). -/
  | jtagClamp
  /-- The JTAG HIGHZ instruction puts outputs at high impedance (R745). -/
  | jtagHighz
  /-- IEEE 1149.6 EXTEST_PULSE tests the AC-coupled lanes (R745). -/
  | jtagExtestPulse (sampled : List Bool)
  /-- IEEE 1149.6 EXTEST_TRAIN tests the AC-coupled lanes with a pulse train (R745). -/
  | jtagExtestTrain (sampled : List Bool)
  /-- FLASH_CTRL OP READ copies 4 KiB of boot flash into FLASH_BUF (R746); a write of `v` with OP READ and GO to
  FLASH_CTRL. -/
  | flashRead (v : Word)
  /-- FLASH_CTRL OP ERASE erases a 64 KiB sector outside the running slot (R746). -/
  | flashErase (v : Word)
  /-- FLASH_CTRL OP PROGRAM writes FLASH_BUF to 4 KiB of flash outside the running slot (R746). -/
  | flashProgram (v : Word)
  /-- FLASH_CTRL OP VERIFY runs the image checks on a slot into VERIFY_RESULT (R746). -/
  | flashVerify (v : Word) (readErr : Bool)
  /-- A flash operation ends, sets FLASH_STATUS.RESULT and sends PF1 vector 5 (R753). -/
  | flashOpComplete (ok : Bool)
  /-- SEC_CMD CONFIRM blows rollback fuses up to the running ROLLBACK_LEVEL (R67). -/
  | secConfirm (v : Word)
  /-- SEC_CMD PROGRAM_KEY blows a key hash into a blank slot (R746). -/
  | secProgramKey (v : Word)
  /-- SEC_CMD REVOKE blows a slot's revoke fuse (R746). -/
  | secRevoke (v : Word)
  /-- A security operation ends, sets SEC_STATUS.RESULT and sends PF1 vector 6 (R753). -/
  | secOpComplete (ok : Bool)
  /-- A write of MGMT_DB_WINDOW moves the PF1 doorbell window for later accesses (R764). -/
  | mgmtDbWindowWrite (v : Word)
  /-- From PLL lock onward a lane sends a training frame every 4,096 UI, carrying its receiver's next tap request and
  its status, and counts HANDOFF down to the first UI of mission data (R117); a new request of the lane's receiver,
  and whether it has finished training. -/
  | trainingFrameSend (l : Fin 40) (req : Option (Fin 64)) (ready : Bool)
  /-- Every 1 ms in ACTIVE and IDLE the lane's receiver measures its eye and updates LANE_EYE (R147); the eye
  measured, as LANE_EYE lays it out. -/
  | laneEyeUpdate (l : Fin 40) (eye : Word)
  /-- An ADJUST or loop slew finishes removing its offset at SLEW_MAX and SLEWING clears (R560). -/
  | slewComplete
  /-- At a field-output command's tick the field side switches FO0 to FO14 within ±2 ns, unless the output is in field
  hold or in overload (R634). -/
  | fieldOutputSwitch (k : Fin 15)
deriving DecidableEq, Repr

end Sys2Proof
end

