-- ==== Sys2Proof/WellFormed.lean ====
section
/-! DEFINITION. Which commands can occur: the operands that the specification's own widths and counts allow. A command that is not
well-formed spells nothing that reaches the FG-16; exec gives it an effect all the same, and no statement needs it to be well-formed unless
it says so. -/

namespace Sys2Proof

/-- A tick is a 64-bit count (R551). -/
def isTick (t : Nat) : Bool := decide (t < 2 ^ 64)

/-- No element twice. -/
def noTwice {n : Nat} : List (Fin n) → Bool
  | [] => true
  | x :: l => !l.contains x && noTwice l

/-- Whether a command's operands fit the widths and counts of the specification. -/
def wellFormed : Instr → Bool
  | .handshakeEntryVisible _ _ => true
  | .handshakeEntryFreed _ => true
  | .thermalSample temps => temps.length == 32
  | .throttleRelease => true
  | .railSample mv current => mv.length == 10 && decide (current < 65536)
  | .boundsRelease => true
  | .vbatRise mv => decide (mv < 65536)
  | .vddAonRise => true
  | .vddAonFall => true
  | .backupCounterStep => true
  | .vbatBrownout mv => decide (mv < 65536)
  | .vbatLow mv => decide (mv < 65536)
  | .vbatRecover mv => decide (mv < 65536)
  | .sealSample => true
  | .retentionSoftwareWrite off bytes => decide (off + bytes.length ≤ 4096)
  | .retentionSequencerStep => true
  | .perstAssert => true
  | .railDropReset _ => true
  | .perstRelease => true
  | .bootImageSelect _ _ => true
  | .modeRequestGo _ _ => true
  | .modeRequestEval => true
  | .modeTransitionEnd => true
  | .softReset _ => true
  | .hotReset => true
  | .yardmasterWatchdogExpiry => true
  | .stallEnable _ _ => true
  | .stallDisable _ _ => true
  | .stallLinkCntClear _ => true
  | .cameraWakeDetect _ => true
  | .trainingFrameReceived _ _ _ _ _ => true
  | .frameLock _ _ => true
  | .wakeTimeout _ _ => true
  | .trainTimeout _ => true
  | .trainWaitExpiry _ => true
  | .markRowTransmit _ => true
  | .fillRowTransmit _ => true
  | .markRowReceived _ _ ids arrive => ids.length == arrive.length
  | .markRowMissing _ => true
  | .codewordDecode _ errors => decide (errors ≤ 544)
  | .blockReceive _ _ body => body.length == 32
  | .quietReadyTimeout _ => true
  | .laneTestEnter _ _ => true
  | .laneTestExit _ _ => true
  | .laneCntClear _ => true
  | .checkerLock _ ui bad _ => decide (bad.val ≤ ui.val)
  | .laneInjectGo _ _ => true
  | .patCounterRead _ _ => true
  | .lmRetrain _ _ => true
  | .lmWidthChange _ _ => true
  | .lmEnterIdle _ _ => true
  | .lmEnterDeep _ _ => true
  | .lmExit _ _ => true
  | .lmIllegalOp _ _ => true
  | .lmRetrainReceived _ _ _ _ => true
  | .lmWidthReqReceived _ _ _ _ => true
  | .lmExitReceived _ _ _ _ => true
  | .lmDisallowedReceived _ _ _ _ => true
  | .lmAckReceived _ _ _ _ => true
  | .lmNakReceived _ _ _ _ => true
  | .lmResponseTimeout _ => true
  | .frameStartReceived _ _ _ body _ _ tick _ => isTick tick && body.length % 4 == 0
  | .heldFrameStartRelease _ => true
  | .lineReceived _ _ _ body _ _ tick _ => isTick tick && body.length % 4 == 0
  | .frameEndReceived _ _ _ body _ _ tick _ => isTick tick && body.length % 4 == 0
  | .frameTimeout _ => true
  | .controlResponseReceived _ _ _ body _ _ tick => isTick tick && body.length % 4 == 0
  | .eventPacketReceived _ _ body _ _ tick _ => isTick tick && body.length % 4 == 0
  | .heartbeatReceived _ _ body _ _ tick => isTick tick && body.length % 4 == 0
  | .heartbeatSend _ => true
  | .cameraLost _ => true
  | .yardCameraTrigger _ => true
  | .triggerCommit _ tx _ => isTick tx
  | .controlRequestPop _ => true
  | .controlTimeout _ => true
  | .controlIdQuarantineEnd _ => true
  | .protoCntClear _ => true
  | .pportFrameVAssert _ tick => isTick tick
  | .pportLineEnd _ rise fall => decide (fall.length ≤ rise.length)
  | .pportFrameVRelease _ => true
  | .pportClockUp _ => true
  | .pportClockLost _ => true
  | .bayLineIntake _ _ => true
  | .mapReadReturn _ => true
  | .statisticsPush _ => true
  | .contextEnable _ _ => true
  | .contextDisable _ _ => true
  | .ctxCntClear _ => true
  | .tackCopyWrite _ _ _ _ _ => true
  | .tackCommitGo _ _ => true
  | .tackCheckComplete _ => true
  | .tackCommitCancel _ => true
  | .chuteBaysWrite _ _ => true
  | .defectBaseWrite _ => true
  | .cribLoadGo _ => true
  | .cribLoadComplete => true
  | .tagRecordPush _ => true
  | .windowResultPush _ => true
  | .shiftaddResampleEnd _ => true
  | .paddockLoadGo _ => true
  | .paddockLoadComplete => true
  | .redCntClear _ => true
  | .adcYardStart _ => true
  | .adcUrgentRequest _ _ => true
  | .adcCtrlStart _ => true
  | .adcCtrlStop _ => true
  | .adcCntClear _ => true
  | .adcGlobalStart _ => true
  | .adcGlobalStop _ => true
  | .adcUnitCommit _ xs => xs.length == 32
  | .adcRunEnd _ xs _ => decide (xs.length < 32)
  | .adcUrgentResult _ _ => true
  | .urgentResultRead _ => true
  | .adcCfgWrite _ _ => true
  | .adcWakeComplete _ => true
  | .adcBufWrite _ _ => true
  | .mmcConverged _ => true
  | .adcCalZero _ _ => true
  | .adcCalFull _ _ => true
  | .adcCalPhaseEnd _ _ => true
  | .vstEnable _ _ => true
  | .vstDisable _ _ => true
  | .vstFrameStart _ => true
  | .vstPixelEnd _ xs => xs.all (fun l => l.length == (xs.headD []).length)
  | .vstPixelEvent _ xs => xs.all (fun l => l.length == (xs.headD []).length)
  | .vstDwellTimeout _ => true
  | .fenSegApply => true
  | .fenSegApplyComplete => true
  | .fenWordRead addr _ => decide (addr < 2 ^ 37)
  | .fenCorrectionWriteback addr _ => decide (addr < 2 ^ 37)
  | .fenPartialWrite addr _ _ _ => decide (addr < 2 ^ 37)
  | .fenScrubCntClear => true
  | .poolEnable _ _ => true
  | .poolFillComplete _ => true
  | .poolDisable _ _ => true
  | .poolForce _ _ => true
  | .poolRelease _ => true
  | .troughEnable _ _ => true
  | .troughDisable _ _ => true
  | .trgFlush _ => true
  | .trgCntClear _ => true
  | .push _ _ _ _ => true
  | .pushSop _ _ _ _ => true
  | .pushMid _ _ _ _ => true
  | .pushEop _ _ _ _ => true
  | .pushAbort _ _ => true
  | .pop _ _ _ => true
  | .popData _ => true
  | .depth _ _ => true
  | .packetTimeout _ => true
  | .popHoldTimeout _ => true
  | .descriptorFetch _ n _ => n.val != 0
  | .descriptorFetchComplete _ data => data.length % 32 == 0
  | .descriptorPop _ => true
  | .sluiceNop _ _ => true
  | .sluiceCopy _ _ => true
  | .sluiceDeliver _ _ => true
  | .sluiceFetch _ _ _ => true
  | .sluicePush _ _ _ => true
  | .sluicePop _ _ => true
  | .deliverWaitResume _ _ => true
  | .completionRecordIssue _ => true
  | .msixMessageIssue _ _ _ => true
  | .ringTailWrite _ _ => true
  | .ringEnable _ _ => true
  | .ringDisable _ _ => true
  | .sluiceCntClear => true
  | .mirrorCopy _ _ => true
  | .destCommit _ _ => true
  | .destCancel _ => true
  | .herdEnable _ _ => true
  | .herdDisable _ _ => true
  | .herdStrictWindowExpiry _ => true
  | .herdRecordRelease _ => true
  | .add _ _ => true
  | .sub _ _ => true
  | .and _ _ => true
  | .or _ _ => true
  | .xor _ _ => true
  | .shl _ _ => true
  | .shr _ _ => true
  | .sar _ _ => true
  | .mul _ _ => true
  | .min _ _ => true
  | .max _ _ => true
  | .cmp _ _ => true
  | .addi _ _ => true
  | .movi _ _ => true
  | .addi32 _ _ => true
  | .li32 _ _ => true
  | .bitSet _ _ => true
  | .bitClr _ _ => true
  | .bitTst _ _ => true
  | .bitExt _ _ => true
  | .b _ _ => true
  | .bc _ _ => true
  | .call _ _ => true
  | .ret _ _ => true
  | .loop _ _ => true
  | .bl32 _ _ => true
  | .halt _ _ => true
  | .nop _ _ => true
  | .fence _ _ => true
  | .ld _ _ _ => true
  | .st _ _ _ => true
  | .lds _ _ _ => true
  | .sts _ _ _ => true
  | .amoAdd _ _ _ => true
  | .amoSwap _ _ _ => true
  | .amoCas _ _ _ => true
  | .waite _ _ => true
  | .waitt _ _ => true
  | .waitp _ _ => true
  | .waitq _ _ => true
  | .waitx _ _ => true
  | .waitr _ _ => true
  | .waitEnd _ => true
  | .csrR _ _ => true
  | .csrW _ _ => true
  | .csrS _ _ => true
  | .csrC _ _ => true
  | .illegalInstruction _ _ => true
  | .groomEventInput _ _ => true
  | .groomWatchdogExpiry _ => true
  | .emitPulse _ _ => true
  | .emitSet _ _ => true
  | .emitClear _ _ => true
  | .emitw _ _ => true
  | .sig _ _ => true
  | .sigM _ _ => true
  | .ctrig _ _ => true
  | .wptSet _ _ => true
  | .wptAct _ _ => true
  | .wptDeact _ _ => true
  | .arm _ _ => true
  | .armOff _ _ => true
  | .tack _ _ => true
  | .tackLoad _ _ _ => true
  | .tackCancel _ _ => true
  | .tackWaitEnd _ => true
  | .qpush _ _ => true
  | .qpushP _ _ _ => true
  | .qpop _ _ _ => true
  | .qpopP _ _ _ => true
  | .tag _ _ _ => true
  | .drain _ _ _ => true
  | .acapStart _ _ => true
  | .acapStop _ _ => true
  | .mode _ _ => true
  | .modeWaitEnd _ => true
  | .groomRelease _ _ => true
  | .groomHalt _ _ => true
  | .groomHaltEffect _ => true
  | .groomCntClear _ => true
  | .groupRelease _ => true
  | .groupHalt _ => true
  | .imemHostWrite _ _ _ => true
  | .groomGWrite _ _ _ => true
  | .groomWdogCfgWrite _ _ => true
  | .scratchHostAccess _ _ _ _ => true
  | .outputEdgeDue _ => true
  | .outputConsumerEvent _ => true
  | .ppsEdge stamp _ => isTick stamp
  | .ppsTimeout => true
  | .ref10mLost => true
  | .ref10mPresent => true
  | .tbSet _ => true
  | .tbAdjustGo _ => true
  | .markUnsync => true
  | .tbCntClear => true
  | .tbCompareFire => true
  | .secondBoundary => true
  | .latchEvent _ => true
  | .trigInEdge _ _ stamp => isTick stamp
  | .positionSampleReceived _ ecc => noTwice (ecc.map (·.1))
  | .wpListDescWrite _ _ => true
  | .wpListActivate _ => true
  | .wpListDeactivate _ => true
  | .waypointEntryWrite _ _ _ => true
  | .yardProducerEvent ps => noTwice ps
  | .yardEnableWrite _ _ _ _ _ => true
  | .yardChCfgWrite _ _ _ => true
  | .yardCntClear => true
  | .leveeFrame _ _ => true
  | .leveeCmdResend => true
  | .coreHeartbeatSend => true
  | .timeSyncSend => true
  | .coreHeartbeatReceived => true
  | .fieldHoldTimeout => true
  | .fieldHeartbeatReceived vfield => decide (vfield < 65536)
  | .fieldLost => true
  | .heartbeatToggle => true
  | .vfieldLow => true
  | .vfieldRestart => true
  | .receiverQualify _ _ _ _ => true
  | .brokenWire _ _ => true
  | .encoderEdge _ _ _ _ => true
  | .positionSampleSend _ => true
  | .ssiRead _ _ _ tick => isTick tick
  | .encoderIndex _ stamp => isTick stamp
  | .encLoad _ => true
  | .encZArm _ => true
  | .encCfgWrite _ _ => true
  | .fieldInputEdge _ _ _ stamp => isTick stamp
  | .foOverloadTrip _ => true
  | .foOverloadClear _ => true
  | .fieldWrite _ _ _ => true
  | .fldCntClear => true
  | .configRequest _ _ off _ _ => off % 4 == 0 && decide (off < 4096)
  | .msixUnmask _ _ => true
  | .hostMemoryRequest _ _ write _ len data be ep _ => (!write || (data.length == len && be.length == len)) && (write || !ep)
  | .registerWrite _ _ i _ _ => decide (i < 65536)
  | .hostCompletionReceived tag data _ _ _ => decide (tag < 16384) && decide (data.length ≤ 4096)
  | .completionTimeout tag => decide (tag < 16384)
  | .tagQuarantineEnd tag => decide (tag < 16384)
  | .hirqSourceEvent _ => true
  | .l1EntryRequest => true
  | .hostLinkDown _ => true
  | .hostLinkUp speed width _ => decide (1 ≤ speed) && decide (speed ≤ 6) && [1, 2, 4, 8, 16].contains width
  | .flrPf0 => true
  | .flrPf0Complete => true
  | .flrPf1 => true
  | .hostCntClear => true
  | .pairEnable _ => true
  | .pairDisable _ => true
  | .pairStatusSend => true
  | .pairStatusReceived _ _ _ tick => isTick tick
  | .causewayStatusTimeout => true
  | .peerKeepChange _ _ => true
  | .peerReleaseTakeover => true
  | .standdownReclaim => true
  | .pairHandover _ => true
  | .handoverComplete => true
  | .forwardPacketReceived body _ _ tick _ => isTick tick && body.length % 8 == 0
  | .tagTroughTrim _ => true
  | .pairCntClear => true
  | .alarmEntry => true
  | .alarmAck _ => true
  | .faultRecordPush => true
  | .eventWindowClose => true
  | .traceThaw => true
  | .summaryClear => true
  | .logCntClear => true
  | .fenCaseSample temps => temps.length == 4
  | .activitySample busy => busy.length == 34 && busy.all (fun n => decide (n ≤ 256))
  | .telemClear => true
  | .istSlice _ detail _ _ _ => decide (detail < 2 ^ 32)
  | .fenScrubPass => true
  | .mctpSetEndpointId _ => true
  | .mctpGetEndpointId => true
  | .mctpGetVersionSupport => true
  | .mctpGetMessageTypeSupport => true
  | .mctpGetVendorSupport => true
  | .pldmSensorRead id => decide (id < 65536)
  | .mctpAlarmRead _ => true
  | .mctpAlarmAck _ => true
  | .mctpLogPop trough _ => decide (trough < 65536)
  | .mctpRegRead off => off % 8 == 0 && decide (off < 0x100000)
  | .mctpUnsupported cmd => decide (cmd < 256)
  | .uartConsoleInput _ => true
  | .jtagBypass => true
  | .jtagIdcode => true
  | .jtagSamplePreload _ _ => true
  | .jtagExtest _ => true
  | .jtagClamp => true
  | .jtagHighz => true
  | .jtagExtestPulse _ => true
  | .jtagExtestTrain _ => true
  | .flashRead _ => true
  | .flashErase _ => true
  | .flashProgram _ => true
  | .flashVerify _ _ => true
  | .flashOpComplete _ => true
  | .secConfirm _ => true
  | .secProgramKey _ => true
  | .secRevoke _ => true
  | .secOpComplete _ => true
  | .mgmtDbWindowWrite _ => true
  | .trainingFrameSend _ _ _ => true
  | .laneEyeUpdate _ _ => true
  | .slewComplete => true
  | .fieldOutputSwitch _ => true

end Sys2Proof
end

