-- ==== Sys2Proof/Decode.lean ====
section
/-! DEFINITION. The command a word of the opcode table spells. The table gives no row any bits: a command reaches the FG-16 as a bus
request, a packet, an edge or an event, and no word encodes one. The encodings the specification does give, those of Bertor's
instructions, are decoded and encoded in Sys2Proof.Machine.Bertor. -/

namespace Sys2Proof

/-- The command that the `nbits` bits of `w` spell by the table: none, for every word. -/
def decodeTableWord (_nbits _w : Nat) : Option Instr := none

end Sys2Proof
end

