-- ==== Sys2Proof/Machine/Bertor.lean ====
section
/-! DEFINITION. Bertor, the grooms' instruction set: its instructions, the decoder of an instruction word and its extension word,
and the encoder (R472, R473, Tables 10.2 to 10.11 and 11.2 to 11.8). -/

namespace Sys2Proof.Machine

/-- The three-register operations that only differ in their result (Table 10.5). -/
inductive AluOp where
  | add | sub | and | or | xor
deriving DecidableEq, Repr

inductive ShiftOp where
  | shl | shr | sar
deriving DecidableEq, Repr

/-- The modes of MUL (Table 10.6). -/
inductive MulMode where
  | low | highU | highS
deriving DecidableEq, Repr

/-- The modes of LI32 (Table 10.6). -/
inductive LiMode where
  | sign | zero | high
deriving DecidableEq, Repr

/-- The operations of AMO (R490). -/
inductive AmoOp where
  | add | swap | cas
deriving DecidableEq, Repr

/-- The operations of CSR (R499). -/
inductive CsrOp where
  | read | write | set | clear
deriving DecidableEq, Repr

/-- The actions of EMIT (Table 11.2). -/
inductive EmitAct where
  | pulse | set | clear
deriving DecidableEq, Repr

/-- The actions of WPT (Table 11.4). -/
inductive WptOp where
  | set | act | deact
deriving DecidableEq, Repr

/-- A decoded instruction. `d`, `a` and `b` are the register fields GD, GA and GB. -/
inductive BInstr where
  | alu (op : AluOp) (d a b : BitVec 4)
  | shift (op : ShiftOp) (d a b : BitVec 4)
  | shiftI (op : ShiftOp) (d a : BitVec 4) (n : BitVec 6)
  | mul (mode : MulMode) (d a b : BitVec 4)
  | minmax (max uns : Bool) (d a b : BitVec 4)
  | cmp (a b : BitVec 4)
  | addi (d a : BitVec 4) (imm : BitVec 14)
  | movi (d : BitVec 4) (imm : BitVec 14)
  | addi32 (d a : BitVec 4) (ext : BitVec 32)
  | li32 (mode : LiMode) (d : BitVec 4) (ext : BitVec 32)
  | bitSet (d a : BitVec 4) (p : BitVec 6)
  | bitClr (d a : BitVec 4) (p : BitVec 6)
  | bitTst (a : BitVec 4) (p : BitVec 6)
  | bitExt (d a : BitVec 4) (p w : BitVec 6)
  | csr (op : CsrOp) (d a : BitVec 4) (num : BitVec 12)
  | br (imm : BitVec 14)
  | bc (cond : BitVec 4) (imm : BitVec 14)
  | call (imm : BitVec 14)
  | ret
  | loop (a : BitVec 4) (imm : BitVec 14)
  | bl32 (link : Bool) (a : BitVec 4) (ext : BitVec 32)
  | halt (code : BitVec 14)
  | nop
  | fence
  | load (scratch : Bool) (d a : BitVec 4) (size : BitVec 2) (sgn : Bool) (off : BitVec 11)
  | store (scratch : Bool) (a b : BitVec 4) (size : BitVec 2) (off : BitVec 11)
  | amo (op : AmoOp) (wide : Bool) (d a b : BitVec 4)
  | waite (consume : Bool) (d a b : BitVec 4)
  | waitt (d a : BitVec 4)
  | waitp (below : Bool) (axis : BitVec 3) (d a b : BitVec 4)
  | waitq (below : Bool) (d a b : BitVec 4)
  | waitx (d b : BitVec 4)
  | waitr (d : BitVec 4) (ext : BitVec 32)
  | emit (act : EmitAct) (timed : Bool) (out : BitVec 5) (d a b : BitVec 4)
  | emitw (out : BitVec 5) (d a b : BitVec 4)
  | sig (n : BitVec 4)
  | sigM (a : BitVec 4)
  | ctrig (stall : BitVec 4) (action : BitVec 8) (a b : BitVec 4)
  | wpt (op : WptOp) (list : BitVec 5) (d a : BitVec 4)
  | arm (off : Bool) (ctx : BitVec 6) (d : BitVec 4)
  | tack (copy wait load : Bool) (ctx : BitVec 6) (d a b : BitVec 4)
  | tackCancel (ctx : BitVec 6) (d : BitVec 4)
  | tag (n : BitVec 3) (idx : BitVec 11) (d a b : BitVec 4)
  | qpush (d a b : BitVec 4)
  | qpushP (n : BitVec 12) (d a b : BitVec 4)
  | qpop (d a : BitVec 4)
  | qpopP (n : BitVec 12) (d a b : BitVec 4)
  | drain (d a b : BitVec 4)
  | acap (stop : Bool) (mask : BitVec 8) (d : BitVec 4)
  | mode (wait : Bool) (target : BitVec 4) (d b : BitVec 4)
deriving DecidableEq, Repr

/-- Whether an opcode is extended: its second word is an extension word (R472); 0x34 to 0x37 are reserved (R473). -/
def isExtended (op : BitVec 6) : Bool := op.toNat == 0x30 || op.toNat == 0x31 || op.toNat == 0x32 || op.toNat == 0x33

/-- The opcode field of an instruction word (Table 10.2). -/
def opOf (w : BitVec 32) : BitVec 6 := w.extractLsb' 26 6

/-- What each opcode makes of its fields; `f` is FUNC or IMM14, `e` the extension word. -/
def decodeFields (op : BitVec 6) (d a b : BitVec 4) (f : BitVec 14) (e : BitVec 32) : Option BInstr :=
  let z {n : Nat} (v : BitVec n) : Bool := v == 0
  match op.toNat with
  | 0x00 => if z f then some (.alu .add d a b) else none
  | 0x01 => if z f then some (.alu .sub d a b) else none
  | 0x02 => if z f then some (.alu .and d a b) else none
  | 0x03 => if z f then some (.alu .or d a b) else none
  | 0x04 => if z f then some (.alu .xor d a b) else none
  | 0x05 => decodeShift .shl d a b f
  | 0x06 => decodeShift .shr d a b f
  | 0x07 => decodeShift .sar d a b f
  | 0x08 => match f.toNat with
      | 0 => some (.mul .low d a b)
      | 1 => some (.mul .highU d a b)
      | 2 => some (.mul .highS d a b)
      | _ => none
  | 0x09 => if z (f.extractLsb' 1 13) then some (.minmax false (f.getLsbD 0) d a b) else none
  | 0x0A => if z (f.extractLsb' 1 13) then some (.minmax true (f.getLsbD 0) d a b) else none
  | 0x0B => if z f && z d then some (.cmp a b) else none
  | 0x0C => if z b then some (.addi d a f) else none
  | 0x0D => if z a && z b then some (.movi d f) else none
  | 0x0E =>
      let p := f.extractLsb' 0 6
      let w := f.extractLsb' 6 6
      if !z b then none
      else match (f.extractLsb' 12 2).toNat with
        | 0 => if z w then some (.bitSet d a p) else none
        | 1 => if z w then some (.bitClr d a p) else none
        | 2 => if z w && z d then some (.bitTst a p) else none
        | _ => some (.bitExt d a p w)
  | 0x0F =>
      let n := f.extractLsb' 0 12
      if !z b then none
      else match (f.extractLsb' 12 2).toNat with
        | 0 => if z a then some (.csr .read d a n) else none
        | 1 => if z d then some (.csr .write d a n) else none
        | 2 => some (.csr .set d a n)
        | _ => some (.csr .clear d a n)
  | 0x10 => if z d && z a && z b then some (.br f) else none
  | 0x11 => if z a && z b then some (.bc d f) else none
  | 0x12 => if z d && z a && z b then some (.call f) else none
  | 0x13 => if z d && z a && z b && z f then some .ret else none
  | 0x14 => if z d && z b && !z a then some (.loop a f) else none
  | 0x15 => if z d && z a && z b then some (.halt f) else none
  | 0x16 => if z d && z a && z b && z f then some .nop else none
  | 0x17 => if z d && z a && z b && z f then some .fence else none
  | 0x18 => decodeLoad false d a b f
  | 0x19 => decodeStore false d a b f
  | 0x1A => decodeLoad true d a b f
  | 0x1B => decodeStore true d a b f
  | 0x1C =>
      let wide := f.getLsbD 11
      if !z (f.extractLsb' 0 11) then none
      else match (f.extractLsb' 12 2).toNat with
        | 0 => some (.amo .add wide d a b)
        | 1 => some (.amo .swap wide d a b)
        | 2 => some (.amo .cas wide d a b)
        | _ => none
  | 0x20 => if z (f.extractLsb' 1 13) then some (.waite (f.getLsbD 0) d a b) else none
  | 0x21 => if z f && z b then some (.waitt d a) else none
  | 0x22 => if z (f.extractLsb' 4 10) then some (.waitp (f.getLsbD 3) (f.extractLsb' 0 3) d a b) else none
  | 0x23 => if z (f.extractLsb' 1 13) then some (.waitq (f.getLsbD 0) d a b) else none
  | 0x24 => if z f && z a then some (.waitx d b) else none
  | 0x28 =>
      let out := f.extractLsb' 0 5
      let timed := f.getLsbD 5
      if !z (f.extractLsb' 8 6) then none
      else match (f.extractLsb' 6 2).toNat with
        | 0 => some (.emit .pulse timed out d a b)
        | 1 => some (.emit .set timed out d a b)
        | 2 => some (.emit .clear timed out d a b)
        | _ => none
  | 0x29 => if z (f.extractLsb' 5 9) then some (.emitw (f.extractLsb' 0 5) d a b) else none
  | 0x2A =>
      if !z d || !z b then none
      else if f.getLsbD 13 then (if z (f.extractLsb' 0 13) then some (.sigM a) else none)
      else if z (f.extractLsb' 4 9) && z a && f.extractLsb' 0 4 != 15 then some (.sig (f.extractLsb' 0 4)) else none
  | 0x2B => if z d && z (f.extractLsb' 12 2) then some (.ctrig (f.extractLsb' 0 4) (f.extractLsb' 4 8) a b) else none
  | 0x2C =>
      let l := f.extractLsb' 0 5
      if !z b || !z (f.extractLsb' 5 7) then none
      else match (f.extractLsb' 12 2).toNat with
        | 0 => some (.wpt .set l d a)
        | 1 => if z a then some (.wpt .act l d a) else none
        | 2 => if z a then some (.wpt .deact l d a) else none
        | _ => none
  | 0x30 =>
      if !z a || !z b then none
      else match f.toNat with
        | 0 => some (.li32 .sign d e)
        | 1 => some (.li32 .zero d e)
        | 2 => some (.li32 .high d e)
        | _ => none
  | 0x31 => if z f && z b then some (.addi32 d a e) else none
  | 0x32 => if z f && z a && z b then some (.waitr d e) else none
  | 0x33 => if z d && z b && z (f.extractLsb' 1 13) then some (.bl32 (f.getLsbD 0) a e) else none
  | 0x38 => if z a && z b && z (f.extractLsb' 7 7) then some (.arm (f.getLsbD 6) (f.extractLsb' 0 6) d) else none
  | 0x39 =>
      let ctx := f.extractLsb' 0 6
      let copy := f.getLsbD 6
      let wait := f.getLsbD 8
      let load := f.getLsbD 9
      if !z (f.extractLsb' 10 4) then none
      else if f.getLsbD 7 then
        if copy || wait || load || !z a || !z b then none else some (.tackCancel ctx d)
      else if (!load && !z a) || (!wait && !z b) then none
      else some (.tack copy wait load ctx d a b)
  | 0x3A =>
      if (f.extractLsb' 0 3).toNat ≤ 4 then some (.tag (f.extractLsb' 0 3) (f.extractLsb' 3 11) d a b) else none
  | 0x3B =>
      if f.getLsbD 0 then
        (if f.getLsbD 13 then none else some (.qpushP (f.extractLsb' 1 12) d a b))
      else if z f then some (.qpush d a b) else none
  | 0x3C =>
      if f.getLsbD 0 then
        (if f.getLsbD 13 then none else some (.qpopP (f.extractLsb' 1 12) d a b))
      else if z f && z b then some (.qpop d a) else none
  | 0x3D => if z f then some (.drain d a b) else none
  | 0x3E =>
      if z a && z b && z (f.extractLsb' 9 5) then some (.acap (f.getLsbD 8) (f.extractLsb' 0 8) d) else none
  | 0x3F =>
      let wait := f.getLsbD 4
      if z a && z (f.extractLsb' 5 9) && (f.extractLsb' 0 4).toNat ≤ 0xB && (wait || z b) then
        some (.mode wait (f.extractLsb' 0 4) d b)
      else none
  | _ => none
where
  /-- The two forms of a shift (R482). -/
  decodeShift (op : ShiftOp) (d a b : BitVec 4) (f : BitVec 14) : Option BInstr :=
    if f.getLsbD 13 then
      (if b == 0 && f.extractLsb' 6 7 == 0 then some (.shiftI op d a (f.extractLsb' 0 6)) else none)
    else if f == 0 then some (.shift op d a b) else none
  /-- LD and LDS (R488). -/
  decodeLoad (scratch : Bool) (d a b : BitVec 4) (f : BitVec 14) : Option BInstr :=
    if b == 0 then some (.load scratch d a (f.extractLsb' 12 2) (f.getLsbD 11) (f.extractLsb' 0 11)) else none
  /-- ST and STS (R488). -/
  decodeStore (scratch : Bool) (d a b : BitVec 4) (f : BitVec 14) : Option BInstr :=
    if d == 0 && !f.getLsbD 11 then some (.store scratch a b (f.extractLsb' 12 2) (f.extractLsb' 0 11)) else none

/-- The instruction that a word, with its extension word `e` if it is extended, stands for; none is illegal (R473). -/
def decodeBertor (w e : BitVec 32) : Option BInstr :=
  decodeFields (opOf w) (w.extractLsb' 22 4) (w.extractLsb' 18 4) (w.extractLsb' 14 4) (w.extractLsb' 0 14) e

/-- An instruction word from its fields (Table 10.2). -/
def wordOf (op : BitVec 6) (d a b : BitVec 4) (f : BitVec 14) : BitVec 32 := op ++ d ++ a ++ b ++ f

/-- A FUNC field with one flag bit. -/
def flagBit (b : Bool) : BitVec 1 := BitVec.ofBool b

/-- The word of an instruction (R505). -/
def encodeWord : BInstr → BitVec 32
  | .alu op d a b => wordOf (match op with | .add => 0x00 | .sub => 0x01 | .and => 0x02 | .or => 0x03 | .xor => 0x04) d a b 0
  | .shift op d a b => wordOf (match op with | .shl => 0x05 | .shr => 0x06 | .sar => 0x07) d a b 0
  | .shiftI op d a n =>
      wordOf (match op with | .shl => 0x05 | .shr => 0x06 | .sar => 0x07) d a 0 ((1#1 ++ 0#7) ++ n)
  | .mul m d a b => wordOf 0x08 d a b (match m with | .low => 0 | .highU => 1 | .highS => 2)
  | .minmax mx u d a b => wordOf (if mx then 0x0A else 0x09) d a b (0#13 ++ flagBit u)
  | .cmp a b => wordOf 0x0B 0 a b 0
  | .addi d a imm => wordOf 0x0C d a 0 imm
  | .movi d imm => wordOf 0x0D d 0 0 imm
  | .addi32 d a _ => wordOf 0x31 d a 0 0
  | .li32 m d _ => wordOf 0x30 d 0 0 (match m with | .sign => 0 | .zero => 1 | .high => 2)
  | .bitSet d a p => wordOf 0x0E d a 0 ((0#2 ++ 0#6) ++ p)
  | .bitClr d a p => wordOf 0x0E d a 0 ((1#2 ++ 0#6) ++ p)
  | .bitTst a p => wordOf 0x0E 0 a 0 ((2#2 ++ 0#6) ++ p)
  | .bitExt d a p w => wordOf 0x0E d a 0 ((3#2 ++ w) ++ p)
  | .csr op d a n =>
      match op with
      | .read => wordOf 0x0F d 0 0 (0#2 ++ n)
      | .write => wordOf 0x0F 0 a 0 (1#2 ++ n)
      | .set => wordOf 0x0F d a 0 (2#2 ++ n)
      | .clear => wordOf 0x0F d a 0 (3#2 ++ n)
  | .br imm => wordOf 0x10 0 0 0 imm
  | .bc c imm => wordOf 0x11 c 0 0 imm
  | .call imm => wordOf 0x12 0 0 0 imm
  | .ret => wordOf 0x13 0 0 0 0
  | .loop a imm => wordOf 0x14 0 a 0 imm
  | .bl32 l a _ => wordOf 0x33 0 a 0 (0#13 ++ flagBit l)
  | .halt c => wordOf 0x15 0 0 0 c
  | .nop => wordOf 0x16 0 0 0 0
  | .fence => wordOf 0x17 0 0 0 0
  | .load sc d a sz sg off => wordOf (if sc then 0x1A else 0x18) d a 0 ((sz ++ flagBit sg) ++ off)
  | .store sc a b sz off => wordOf (if sc then 0x1B else 0x19) 0 a b ((sz ++ 0#1) ++ off)
  | .amo op w d a b =>
      wordOf 0x1C d a b (((match op with | .add => 0#2 | .swap => 1#2 | .cas => 2#2) ++ flagBit w) ++ 0#11)
  | .waite c d a b => wordOf 0x20 d a b (0#13 ++ flagBit c)
  | .waitt d a => wordOf 0x21 d a 0 0
  | .waitp bl ax d a b => wordOf 0x22 d a b ((0#10 ++ flagBit bl) ++ ax)
  | .waitq bl d a b => wordOf 0x23 d a b (0#13 ++ flagBit bl)
  | .waitx d b => wordOf 0x24 d 0 b 0
  | .waitr d _ => wordOf 0x32 d 0 0 0
  | .emit act t out d a b =>
      wordOf 0x28 d a b (((0#6 ++ (match act with | .pulse => 0#2 | .set => 1#2 | .clear => 2#2)) ++ flagBit t) ++ out)
  | .emitw out d a b => wordOf 0x29 d a b (0#9 ++ out)
  | .sig n => wordOf 0x2A 0 0 0 (0#10 ++ n)
  | .sigM a => wordOf 0x2A 0 a 0 (1#1 ++ 0#13)
  | .ctrig st ac a b => wordOf 0x2B 0 a b ((0#2 ++ ac) ++ st)
  | .wpt op l d a =>
      wordOf 0x2C d a 0 (((match op with | .set => 0#2 | .act => 1#2 | .deact => 2#2) ++ 0#7) ++ l)
  | .arm off c d => wordOf 0x38 d 0 0 ((0#7 ++ flagBit off) ++ c)
  | .tack cp wt ld c d a b => wordOf 0x39 d a b (((((0#4 ++ flagBit ld) ++ flagBit wt) ++ 0#1) ++ flagBit cp) ++ c)
  | .tackCancel c d => wordOf 0x39 d 0 0 (((0#6 ++ 1#1) ++ 0#1) ++ c)
  | .tag n ix d a b => wordOf 0x3A d a b (ix ++ n)
  | .qpush d a b => wordOf 0x3B d a b 0
  | .qpushP n d a b => wordOf 0x3B d a b ((0#1 ++ n) ++ 1#1)
  | .qpop d a => wordOf 0x3C d a 0 0
  | .qpopP n d a b => wordOf 0x3C d a b ((0#1 ++ n) ++ 1#1)
  | .drain d a b => wordOf 0x3D d a b 0
  | .acap st m d => wordOf 0x3E d 0 0 ((0#5 ++ flagBit st) ++ m)
  | .mode w t d b => wordOf 0x3F d 0 b ((0#9 ++ flagBit w) ++ t)

/-- The extension word of an instruction; an instruction that has none gives 0 (R472). -/
def encodeExt : BInstr → BitVec 32
  | .addi32 _ _ e => e
  | .li32 _ _ e => e
  | .bl32 _ _ e => e
  | .waitr _ e => e
  | _ => 0

/-- Whether an instruction is one the manual allows: the encodings that R473 makes illegal are left out. -/
def BInstr.ok : BInstr → Bool
  | .csr .read _ a _ => a == 0
  | .csr .write d _ _ => d == 0
  | .loop a _ => a != 0
  | .sig n => n != 15
  | .wpt op _ _ a => op == .set || a == 0
  | .tack _ w l _ _ a b => (l || a == 0) && (w || b == 0)
  | .tag n _ _ _ _ => n.toNat ≤ 4
  | .mode w t _ b => t.toNat ≤ 0xB && (w || b == 0)
  | _ => true

/-- The words an instruction occupies (R472). -/
def BInstr.len : BInstr → Nat
  | .addi32 _ _ _ | .li32 _ _ _ | .bl32 _ _ _ | .waitr _ _ => 2
  | _ => 1

end Sys2Proof.Machine
end

