-- ==== Sys2Proof/Config.lean ====
section
/-! DEFINITION. What an implementation fixes and the specification does not give: functions and values with no body, so that no
statement can rest on one of them. -/

namespace Sys2Proof

/-- SHA-384 of a message: 48 bytes, as a number read big-endian (R63; the digest is the standard's, not the specification's). -/
opaque Config.sha384 : List (BitVec 8) → Nat

/-- Whether an ECDSA P-384 signature (r, s) of a digest verifies under a public key (X, Y) (Table 2.9, Table 2.10). -/
opaque Config.ecdsaVerify : Nat → Nat → Nat → Nat → Nat → Bool

/-- The content of an MCTP control response whose fields the specification leaves to the DMTF binding (R741), by command. -/
opaque Config.mctpResponse : Nat → List (BitVec 64)

/-- Values the specification leaves open, one for each number the state counts. -/
opaque Config.freeWord : Nat → BitVec 64

end Sys2Proof
end

