-- ==== Sys2Proof/Machine/State.lean ====
section
/-! DEFINITION. The state of the FG-16 as plain data: the register file, the memories, every block's state between its registers,
and the queue of commands waiting. -/

namespace Sys2Proof.Machine

/-- What the FG-16 has sent out of the die, oldest first: the model's record of its outputs, read by no rule. -/
inductive Out where
  | completion (fn status : Nat) (data : List Byte) (ep : Bool)   -- to a host request: 0 SC, 1 UR, 2 RRS
  | msix (fn vector addr data : Nat)
  | hostWrite (addr : Nat) (bytes : List Byte) (relaxed : Bool)   -- posted write to host memory
  | hostRead (tag addr len : Nat)
  | pcieMessage (kind : Nat) (value : Nat)                        -- 0 PM_PME, 1 ERR_COR, 2 ERR_NONFATAL, 3 ERR_FATAL, 4 LTR, 5 L1 request
  | laneRow (stall kind value : Nat)                              -- 0 MARK row, 1 FILL row
  | trainFrame (lane : Nat) (request status : Nat)
  | linkMsg (stall : Nat) (msg : Word)                            -- link-management message to the far end
  | inject (lane mode n : Nat)                                    -- an error injection on a lane's transmitter (R136)
  | camPacket (stall : Nat) (bytes : List Byte)                   -- back-channel packet to the camera
  | causeway (kind : Nat) (words : List Word)
  | levee (toField : Bool) (kind value : Nat)
  | edge (output : Nat) (level : Bool) (tick : Nat)               -- an edge at an output's pin
  | uart (seq code tick : Nat) (data : Word)                      -- one console line of an alarm (R744)
  | smbus (cmd : Nat) (words : List Word)
  | jtag (ir : Nat) (value : Nat)
deriving DecidableEq, Repr

/-- The twelve modes (Table 2.2). -/
inductive Mode where
  | off | keep | reset | boot | quiet | ready | armed | stream | burst | drain | shadow | hold
deriving DecidableEq, Repr

/-- Who asks the mode controller for a change (Table 2.3), in the order of service (R49). -/
inductive ReqSource where
  | yardmaster | pf1 | pf0 | groom (g : Nat)
deriving DecidableEq, Repr

/-- Why the yardmaster asks (Table 2.3). -/
inductive ReqReason where
  | request                 -- a source other than the yardmaster
  | fault (code : Nat)      -- a hold-causing alarm (R728)
  | pairLeave | takeover | election | standDown
  | flr                     -- the move to READY that an FLR of PF0 makes (Table 2.14)
deriving DecidableEq, Repr

/-- A mode request held by the mode controller (R48); `seq` is the ALARM_SEQ of a hold-causing alarm. -/
structure ModeReq where
  src : ReqSource
  target : Nat
  reason : ReqReason
  seq : Nat
deriving DecidableEq, Repr

/-- A transition in progress (R49, R51): the request that started it, and the requests served with it. -/
structure Transition where
  target : Mode
  winner : Option ModeReq
  served : List ModeReq
deriving DecidableEq, Repr

/-- The mode controller (R44 to R52). -/
structure ModeCtl where
  mode : Mode
  prev : Mode
  trans : Option Transition
  pend : List ModeReq
deriving DecidableEq, Repr

/-- Supplies and reset balls as the retention island and the mode controller see them (R69 to R83, R768). -/
structure Power where
  vddAon : Bool          -- VDD_AON above 2.9 V
  vbatMv : Nat           -- VBAT in mV
  perst : Bool           -- PERST_N asserted
  railsGood : Bool       -- every main rail good
  sampled : Bool         -- the seal has been sampled for this rise (R76)
deriving DecidableEq, Repr

/-- A write the retention sequencer has accepted and not yet made (R72, R79). -/
structure RetWrite where
  parts : List (Nat × List Byte)     -- offset and bytes
deriving DecidableEq, Repr

/-- The retention island (R69 to R79): its memory, seal, sequencer and backup counter, and PF1's PME bits (R676). -/
structure Retention where
  mem : Tab Byte
  sealWord : Nat
  valid : Bool           -- result of the last sample (R76)
  queue : List RetWrite
  backup : Nat
  acc : Nat
  carrying : Bool        -- the backup counter carries the count through a fundamental reset (R561)
  pmeEn : Bool
  pmeStatus : Bool
  wakeN : Bool           -- WAKE_N asserted (R677)
deriving DecidableEq, Repr

/-- The fuses (R63, R746): four root key hash slots with revoke fuses, the 64 anti-rollback fuses, the unit serial, DEBUG_LOCK. -/
structure Fuses where
  keys : List (List Byte)     -- four slots of 48 bytes; [] is a blank slot
  revoked : List Bool
  rollback : Nat
  serial : Nat
  debugLock : Bool
deriving DecidableEq, Repr

/-- The boot flash and the image in use (R61 to R68). -/
structure Boot where
  flash : Tab Byte
  running : Option Nat        -- slot of the running image
  runLevel : Nat              -- its ROLLBACK_LEVEL
  runKey : Nat                -- its KEY_INDEX
  autoReady : Bool
deriving DecidableEq, Repr

/-- A handshake channel of eight entries (R17 to R20): entries occupied, entries its sender holds back, and what the receiver took. -/
structure Chan where
  slots : List Word
  held : List Word
  taken : List Word
deriving DecidableEq, Repr

/-- The states of a groom (R469). -/
inductive GroomSt where
  | halted | running | waiting | faulted
deriving DecidableEq, Repr

/-- The flags of GSTAT (Table 10.3). -/
structure Flags where
  z : Bool
  n : Bool
  c : Bool
  v : Bool
  t : Bool
deriving DecidableEq, Repr

/-- What a groom waits for: the conditions of Table 10.11, and the replies of TACK, MODE and a push that waits under R381. A
position condition carries how many samples of its axis had been delivered at issue. -/
inductive WaitKind where
  | event (mask : BitVec 16) (consume : Bool)
  | time (target : Nat) (result : Word)         -- WAITT; WAITR writes `result`
  | reltime (target : Nat)
  | position (axis : Nat) (below : Bool) (value : Word) (seen : Nat)
  | depth (trough : Nat) (below : Bool) (level : Nat)
  | armed (en : Word) (ev : BitVec 16) (t : Nat) (p pv q : Word) (seen : Nat)
  | tackCheck (ctx : Nat) (wait : Bool)         -- TACK until its commit leaves CHECKING
  | tackDone (ctx : Nat)                        -- TACK.W after PENDING
  | tackEnded (result : Nat)                    -- its commit has become APPLIED or CANCELLED
  | mode                                        -- MODE.W
  | modeEnded (result : Nat)                    -- its request has completed
  | push (trough : Nat)                         -- a push waiting for another producer's packet to end
deriving DecidableEq, Repr

/-- An instruction in progress: its destination register, its deadline, and how many words it occupies. -/
structure Wait where
  kind : WaitKind
  d : BitVec 4
  deadline : Option Nat
  len : Nat
deriving DecidableEq, Repr

/-- A groom (R465 to R502): state, program counter, G1 to G15, flags, return stack (top first), memories, control and status
registers, event inputs, and the instruction in progress. -/
structure Groom where
  st : GroomSt
  pc : Nat
  g : Tab Word
  flags : Flags
  stack : List Nat
  imem : Tab (BitVec 32)
  dmem : Tab Word             -- by word index
  cycleBase : Nat             -- value of the cycle count at release
  wdogBase : Nat              -- value of the cycle count at the watchdog's restart
  wdogCfg : Word
  fault : Word
  eccCorr : Word
  evpend : BitVec 16
  evover : BitVec 16
  evtick : Tab Word
  armEn : Word
  armEv : Word
  armT : Word
  armP : Word
  armPv : Word
  armQ : Word
  wait : Option Wait
  haltCode : Nat
  haltSource : Nat            -- 0 HALT, 1 host, 2 mode controller, 3 fault
  haltReq : Option Nat        -- a halt asked for and not yet in effect: its source
deriving DecidableEq, Repr

/-- An item whose push waits for an open packet to end (R381), and the groom that pushes it, if one does. -/
structure WaitItem where
  groom : Option Nat
  words : List Word
deriving DecidableEq, Repr

/-- Who pushes or pops (R380, Table 8.6). -/
inductive Agent where
  | pf0 | pf1 | groom (g : Nat) | smbus | sluice | yardmaster | engine
deriving DecidableEq, Repr

/-- A trough word (R371): data, framing, kind, and whether it is uncorrectable as stored (R390). -/
structure TWord where
  data : Word
  sop : Bool
  eop : Bool
  gap : Bool
  bad : Bool
deriving DecidableEq, Repr

/-- One trough's queue (R375 to R393). Slots `head` to `head + vis - 1` hold the visible words, the open packet's words follow. -/
structure Trough where
  head : Nat
  vis : Nat
  openBy : Option Agent
  openLen : Nat
  holder : Option Agent
  gaps : Nat            -- drops whose marker is held pending (R381, R392)
  gapTick : Nat         -- tick of the first of them
  waiting : List WaitItem   -- items of grooms and hardware that wait for the open packet to end (R381)
deriving DecidableEq, Repr

/-- A yard event: a producer or consumer number and the tick it carries (R596, R603). -/
structure YEvent where
  id : Nat
  tick : Nat
deriving DecidableEq, Repr

/-- The yard between its registers: events at the producers' resynchronisers, and events delivered to consumers that have not
yet acted on them (Table 13.2). -/
structure Yard where
  raised : List YEvent
  delivered : List YEvent
deriving DecidableEq, Repr

/-- Discipline states (Table 12.1). -/
inductive Disc where
  | free | locking | locked | holdover
deriving DecidableEq, Repr

/-- The time base (R550 to R563): the count, its discipline, slew, reference state and compare. -/
structure TimeBase where
  count : Nat
  unsync : Bool
  disc : Disc
  inRow : Nat             -- accepted edges in a row with |e| ≤ LOCK_NS
  rejects : Nat           -- consecutive rejected edges
  spaced : Nat            -- of them, in HOLDOVER, consecutive ones 900 ms to 1,100 ms after the one before
  lastEdge : Option Nat   -- stamp of the last edge of the selected polarity
  lastAccept : Option Nat -- stamp of the last accepted edge
  refPresent : Bool
  slew : Int              -- ticks still to be slewed
  slewAcc : Nat           -- fraction of the next slewed tick, in millionths
  setPending : Bool
  cmpNext : Nat           -- next value of the compare's series (R562)
  cmpLate : Bool          -- it was already past when written or enabled
  cmpFired : Bool         -- a compare with period 0 has fired
  seconds : Nat           -- second boundaries passed
  cycles : Nat            -- cycles of ISL_YARD since reset
  unsyncEnd : Nat         -- tick at which UNSYNC last ended (Table 9.3)
  trigLast : Tab Nat      -- 1 + stamp of the last qualified edge of each TRIG_IN (R566)
deriving DecidableEq, Repr

/-- What made a request at an output scheduler (R516, R517). -/
inductive OutSrc where
  | groom (g : Nat) | consumer | waypoint | gate (l : Nat)
deriving DecidableEq, Repr

/-- A pending pulse of an output: from its start tick to its stop tick; an open gate has no stop yet (R516, R578). -/
structure Pulse where
  src : OutSrc
  start : Nat
  stop : Option Nat
deriving DecidableEq, Repr

/-- What a level change does. -/
inductive LevelAct where
  | set | clear | toggle
deriving DecidableEq, Repr

/-- A level change scheduled for a tick. -/
structure LevelChange where
  src : OutSrc
  tick : Nat
  act : LevelAct
deriving DecidableEq, Repr

/-- An output scheduler (R514 to R517, R568 to R573): its SET level, whether it drives the output asserted, its pending pulses and
level changes, and the tick up to which its edges have been made. -/
structure Sched where
  level : Bool
  driven : Bool
  pulses : List Pulse
  changes : List LevelChange
  seen : Nat
deriving DecidableEq, Repr

/-- An open gate of a waypoint list (R578): its output and its start tick before any lead limit. -/
structure Gate where
  out : Nat
  start : Nat
deriving DecidableEq, Repr

/-- A waypoint list beside its registers (R575 to R582): open gates, outputs whose GATE_START was refused, the configuration in
effect since activation, and whether SKIP_PASSED waits for the first sample. -/
structure WpList where
  gates : List Gate
  refused : List Nat
  cfg : Word
  skip : Bool
deriving DecidableEq, Repr

/-- A position sample (R626). -/
structure Sample where
  axis : Nat
  pos : Word
  tick : Nat
deriving DecidableEq, Repr

/-- Flags of a core heartbeat across the levee (R637). -/
structure HbFlags where
  run : Bool
  hold : Bool
  hbEnable : Bool
deriving DecidableEq, Repr

/-- A command for a field output with its tick (R634). -/
structure FoCmd where
  out : Nat
  on : Bool
  tick : Nat
deriving DecidableEq, Repr

/-- What a levee frame to the field side carries (Table 14.2): a heartbeat, a sync word, or an output command with the number of
its two frames still to come (R620). -/
inductive LeveeItem where
  | heartbeat (f : HbFlags)
  | sync (tick : Nat)
  | cmd (c : FoCmd) (copies : Nat)
deriving DecidableEq, Repr

/-- The field side of an encoder axis (R622 to R632): its configuration, the qualified levels of A, B and Z (none while
UNDETERMINED), its fault cause, count, load and index state, SSI history, and counters (Table 14.11, R652). -/
structure FieldAxis where
  cfg : Word
  a : Option Bool
  b : Option Bool
  z : Option Bool
  fault : Nat               -- 0 none, 1 BROKEN_WIRE, 2 SSI_FRAME
  count : Word
  load : Word               -- ENC_LOAD
  loadDue : Bool            -- a host LOAD waits for the next sample
  armed : Bool              -- Z_ARM
  zpos : Word
  ssiPrev : Option Nat
  ssiBad : Nat
  ssiGood : Nat
  counters : Word           -- as ENC_COUNT
  suspect : Bool            -- POS_SUSPECT to be reported
deriving DecidableEq, Repr

/-- The field side of a field input: configuration, qualified level, counters as FI_STATUS. -/
structure FieldIn where
  cfg : Word
  level : Option Bool
  counters : Word
deriving DecidableEq, Repr

/-- The field side of a field output (R634 to R640): its safe state, the level its commands call for, and overload. -/
structure FieldOut where
  safeOn : Bool
  level : Bool
  overload : Bool
deriving DecidableEq, Repr

/-- A field register write made while the levee link was down (R641): the register and its instance. -/
structure HeldWrite where
  reg : Reg
  i : Nat
deriving DecidableEq, Repr

/-- The field side and the levee (chapter 14). -/
structure Field where
  up : Bool                 -- out of its VFIELD reset (R643)
  report : Bool             -- VFIELD_OK as last reported
  cfgValid : Bool
  hold : Bool
  holdEntered : Bool        -- field hold entered since the last report
  last : HbFlags            -- flags of the last good core heartbeat
  synced : Bool             -- a sync word aligned the copy of the time base (R621)
  fo15 : Bool
  axes : Tab FieldAxis
  ins : Tab FieldIn
  outs : Tab FieldOut
  toField : List LeveeItem
  toCore : List Sample
  beats : List HbFlags      -- core heartbeats that crossed and wait for the field side
  arrived : List Sample     -- samples that crossed and wait to enter ISL_YARD
  armed : List FoCmd        -- output commands that crossed and wait for their tick
  lost : List FoCmd         -- output commands both of whose frames failed
  held : List HeldWrite     -- writes made while the link was down, oldest first
deriving DecidableEq, Repr

/-- An alarm raised and not yet handled (R729). -/
structure Alarm where
  code : Nat
  data : Word
  seq : Nat
  tick : Nat
  hold : Bool
deriving DecidableEq, Repr

/-- A pending fault record (R735). -/
structure FaultRec where
  code : Nat
  first : Nat
  last : Nat
  count : Nat
  data : Word
deriving DecidableEq, Repr

/-- An event code's count in the open window (R735). -/
structure EventCount where
  code : Nat
  count : Nat
  start : Nat
deriving DecidableEq, Repr

/-- The operation of the flash and security block under way (R746). -/
inductive FlashOp where
  | none | flash (op : Nat) | sec (op : Nat)
deriving DecidableEq, Repr

/-- What the JTAG port drives at the balls of the scan chain (R745). -/
inductive Scan where
  | system | boundary | highz
deriving DecidableEq, Repr

/-- The JTAG port (R745): the instruction in effect, the boundary register, the levels last captured, and what it drives. -/
structure Jtag where
  ir : Nat
  boundary : List Bool
  captured : List Bool
  drive : Scan
deriving DecidableEq, Repr

/-- The management plane between its registers (R724 to R754). -/
structure Mgmt where
  raised : List Alarm
  unacked : List Nat          -- ALARM_SEQ of each entry in trough 0, oldest first
  missedFirst : Nat           -- first SEQ not entered since the last ALARM_OVERFLOW entry (R730)
  missed : Nat                -- alarms not entered since then
  faults : List FaultRec
  events : List EventCount
  windowStart : Nat
  mirrorUsed : Nat            -- mirror items issued in the present 1 ms window (R738)
  freezeTick : Nat            -- tick of the alarm that froze the trace (R737)
  flashOp : FlashOp
  flashBuf : Tab Byte
  tempHigh : List Nat         -- die sensors whose TEMP_HIGH is raised and not re-armed
  tempCrit : List Nat         -- sensors whose TEMP_CRIT is raised and not re-armed (32 + k for FENk)
  caseHigh : List Nat         -- stacks whose FEN_CASE_HIGH is raised and not re-armed
  gradRaised : Bool           -- THERMAL_GRADIENT raised and not re-armed (Table 1.5)
  gradient : Int              -- last gradient, 1/16 °C
  thermal : Bool              -- gradient cause of BOUNDS_SUSPENDED present (R23)
  railsOut : List Nat         -- rails outside their band
  railCause : Bool            -- rail cause of BOUNDS_SUSPENDED present (R24)
  suspendedUntil : Nat        -- tick at which the last suspension ended (R27)
  seen : List Nat             -- sensors sampled since the last TELEM_CTRL.CLEAR
  console : List Byte
  jtag : Jtag
deriving DecidableEq, Repr

/-- One MSI-X table entry (R666). -/
structure Vec where
  addr : Nat
  data : Nat
  masked : Bool
deriving DecidableEq, Repr

/-- Class of an MSI-X message (Table 1.10). -/
inductive MsgClass where
  | ring | yard | trough | device | shared
deriving DecidableEq, Repr

/-- A message waiting for a slot of its message engine (R35, R36). -/
structure Msg where
  fn : Nat
  vector : Nat
  cls : MsgClass
deriving DecidableEq, Repr

/-- Configuration space of a function, and its interrupt tables (R655 to R659, R665, R666, R687). -/
structure Func where
  regs : Tab Nat            -- configuration dwords written, by offset
  d3hot : Bool
  vecs : Tab Vec
  pba : Tab Bool
  inFlr : Bool
  holdLo : Option (Nat × Nat × Nat)     -- low half of a 32-bit write held (R12): address, value, enabled bytes
  latchHi : Option (Nat × Nat)    -- high half of a 32-bit read held (R11): address, value
  popData : Word                  -- data word of the function's last pop (R409)
deriving DecidableEq, Repr

/-- What made a non-posted request of PF0 (R679). -/
inductive TagUse where
  | fetch (ring slot n : Nat)       -- descriptor fetch of `n` slots from `slot`
  | data (ring slot off len : Nat)  -- FETCH or PUSH read of a descriptor: `len` bytes from `off` of its range
deriving DecidableEq, Repr

/-- A read tag in use or quarantined (R679, R685): what of its completion has come, and the tick at which it times out or its
quarantine ends (none: an FLR in progress). -/
structure RTag where
  tag : Nat
  use : TagUse
  quar : Bool
  flr : Bool                -- quarantined by an FLR (R685)
  got : List Byte
  due : Option Nat
deriving DecidableEq, Repr

/-- The host endpoint between its registers. -/
structure HostEp where
  linkUp : Bool
  speed : Nat
  width : Nat
  flit : Bool
  inL1 : Bool
  pf0 : Func
  pf1 : Func
  tagWidth : Nat            -- 0 8-bit, 1 10-bit, 2 14-bit (R678)
  tags : List RTag
  msgs : List Msg           -- messages waiting for a slot
  slots : List MsgClass     -- slots used in the current 500 ns window (Table 1.10)
  slots1 : List Nat         -- vectors of PF1 sent in the window (R36)
  lastMsg : Tab Nat         -- 1 + tick of the last message of a PF0 vector (coalescing, R35, R698)
  intb : Bool               -- PF1 holds INTB asserted
  flrTicks : Nat            -- HOST_CPL_TIMEOUT in force when the FLR of PF0 began, in ticks (R685)
  lastRun : Nat             -- tick at which a descriptor last ran (R674)
deriving DecidableEq, Repr

/-- What asked for an FG-16 link-management request (R140). -/
inductive LmSource where
  | software | modes | engine
deriving DecidableEq, Repr

/-- An outstanding link-management request of the FG-16 (R127): its message, and how often it has been sent. -/
structure LmReq where
  op : Nat
  id : Nat
  width : Nat
  seq : Nat
  src : LmSource
  sent : Nat
  since : Nat                  -- tick of its last sending
deriving DecidableEq, Repr

/-- A lane between its registers (R107 to R120): when it entered its state; whether it trains from the taps in use; its own and the
camera's training requests and status; the handoff count it shows (9 before the countdown); runs of uncorrectable codewords, missing
MARK rows and frame markers; blocks still errored of the last codeword; the descrambler's 58 bits; and the MARK it last received. -/
structure Lane where
  since : Nat
  retrain : Bool
  reqToggle : Bool
  reqs : Nat
  ask : Nat
  acted : Bool
  stats : Nat
  goodReady : Nat
  hand : Nat
  uncorr : Nat
  missed : Nat
  markers : Nat
  badBlocks : Nat
  scramble : BitVec 58
deriving DecidableEq, Repr

/-- A Trigger held by a stall and not yet committed (R169, R521, R604). -/
structure Trig where
  target : Nat
  action : Nat
  arg : Nat
  yard : Bool
  groom : Option Nat
deriving DecidableEq, Repr

/-- An outstanding control request (R177): its control ID, word 0 of its item, and the tick of its commit. -/
structure CtlReq where
  id : Nat
  head : Word
  since : Nat
deriving DecidableEq, Repr

/-- A frame's header as its stall presents it (Table 4.4, R166, R186, R334): geometry, exposure-merge place, exposure-start tick and
whether that is a Trigger's target, and the position instant with ENC_LATE (R416). -/
structure FrameHdr where
  id : Nat
  width : Nat
  height : Nat
  depth : Nat
  packing : Nat
  expIndex : Nat
  expCount : Nat
  start : Nat
  triggered : Bool
  posTick : Option Nat         -- none: the tick of its acceptance
  encLate : Bool
deriving DecidableEq, Repr

/-- A pixel on its way through a bay: its value, and whether the stall reports it missing (R160, R278). -/
structure Px where
  v : Int
  miss : Bool
deriving DecidableEq, Repr

/-- A released segment of pixels in the stall's 64 KiB buffer (R156): its line and first column, its pixels and its bytes. -/
structure Seg where
  line : Nat
  x : Nat
  px : List Nat
  bytes : Nat
deriving DecidableEq, Repr

/-- One row's correction data, as its fen reads returned it (R230, R231): row offset, dark and gain values, interpolated shading, and
merge entries; and the defect list when it is the first row. -/
structure MapRow where
  row : Int
  dark : List Nat
  gain : List Nat
  shade : List Nat
  merge : List Nat
deriving DecidableEq, Repr

/-- A product being written (R421, R431): its region, the host address it is placed at, its blocks in order, bytes written, bytes held
back until it is known whether they end the last block, and whether it was abandoned or its placement cut. -/
structure Prod where
  region : Nat
  host : Option Nat
  blocks : List Nat
  bytes : Nat
  tail : List Byte
  dead : Bool
  cut : Bool
deriving DecidableEq, Repr

/-- The event chunks of a frame (R272, R299). -/
structure Chunks where
  block : Option Nat
  events : Nat
  index : Nat
  total : Nat
  dropped : Nat
  dead : Bool
  done : List (Nat × Nat × Nat)     -- completed chunks: block, events, index
deriving DecidableEq, Repr

/-- A frame from its acceptance until its last pixel has left its bay (R162, R207): the stall's side, then the bay's and route unit's.
`copy` holds the tack-set copy it runs under. -/
structure Frame where
  hdr : FrameHdr
  ctx : Nat
  copy : Tab Word
  seq : Nat
  suspect : Bool             -- an axis it selects was disabled or in fault (ENC_INVALID)
  enc0 : Word
  enc1 : Word
  host : Option Nat          -- host buffer it is placed in (R433)
  line : Nat                 -- next expected position (R160)
  col : Nat
  pkts : Nat
  incomplete : Bool
  overran : Bool
  lastPkt : Nat
  closed : Option Nat
  queue : List Px            -- pixels taken by the bay and not yet corrected
  entered : Nat              -- pixels that have entered the bay
  maps : List MapRow
  mapped : Nat               -- rows whose map data has returned
  defects : List (Nat × Nat)
  above : List (List Int)    -- last rows at the input of defect repair, newest first
  rows : List (List Px)      -- corrected rows
  poisoned : Bool
  slot : Nat                 -- its place in its stack (R284)
  discard : Bool             -- no buffer, and DIRECT_MISS discards it (R435)
  prods : List Prod
  sums : List Prod           -- SUM products of a stack's last member
  bins : Tab (List (List Px))
  chunks : Chunks
  results : List Nat         -- result packets already formed
  offset : Option (Int × Int)   -- programmed offset (R290); none when rejected for want of one
  stage : Nat                -- staging half
  herd : Bool                -- counted into a herd
deriving DecidableEq, Repr

/-- A forward packet as it reaches the protocol engine (Table 4.1): type, FSEQ, PARAM, body, the CRC it carries, whether a block other
than its header block was errored, and the arrival tick of its header block at lane 0. -/
structure Rx where
  type : Nat
  fseq : Nat
  param : Nat
  body : List Byte
  crc : Nat
  errored : Bool
  tick : Nat
deriving DecidableEq, Repr

/-- A stall (chapters 3 and 4), stalls 0 to 15, with virtual stalls 16 to 19 using the frame part, and the causeway's link as number
20. -/
structure Stall where
  lm : Option LmReq
  nextMsg : Nat
  goal : Option (Nat × LmSource)           -- width code its lanes train toward (R131), and who asked
  switch : Option (Nat × Nat × LmSource)   -- SWITCH_SEQ and width code of an acknowledged WIDTH_CHANGE
  retrainDue : Bool            -- a software RETRAIN completes DONE when the stall is UP (R140)
  rxSeq : Nat                  -- MARKER_SEQ of the last MARK row received
  txSeq : Nat
  wakeAt : Nat
  waited : Bool                -- it no longer holds back QUIET to READY (R122)
  camRetrain : Bool
  quietPeer : Bool             -- heartbeat supervision suspended (R124)
  need : Nat                   -- blocks still to come of the packet in progress
  lost : Bool                  -- packet alignment lost (R155)
  rxBytes : List Byte          -- bytes of the packet in progress, when its type is not a forward type
  rxErr : Bool                 -- one of its blocks was errored
  rtt : List Nat               -- samples since UP, newest first (R171)
  rttCount : Nat
  hbSeq : Nat
  hbTx : Nat                   -- tick of the last Heartbeat sent
  hbRx : Option Nat            -- tick of the last good Heartbeat since supervision began
  trigs : List Trig            -- Triggers held, in the order queued
  trigId : Nat
  fired : List (Nat × Nat)     -- last 16 EXPOSE Triggers sent: TRIG_ID and target
  reqs : List CtlReq
  quar : List (Nat × Nat)      -- quarantined IDs and when each ends
  quarAll : Option (Option Nat)   -- all IDs quarantined; the tick 2 ms after UP, once UP
  lastCid : Nat
  skip : Option (Nat × Bool)   -- FSEQ of the last discarded Frame Start, and whether its packets are counted
  ref : Option Nat             -- last accepted FRAME_ID since the enable (R164)
  gapPend : Bool
  frame : Option Frame
  held : Option FrameHdr       -- Frame Start held behind the stall's own frame (R207)
  heldPkts : List Rx           -- packets behind it
  buf : List Seg
  ppOpen : Option Nat          -- FRAME_ID of the port's frame in progress (R186)
  ppLines : Nat                -- its lines so far
  ppBad : Bool                 -- one of R186's cases has occurred in it
  ppId : Nat                   -- FRAME_ID of the port's next frame
deriving DecidableEq, Repr

/-- A tag record due for push (Table 9.1): what its words hold, but for what is fixed at the push. -/
structure TagDue where
  stall : Nat
  herd : Option Nat
  kind : Nat
  region : Nat
  aux : Nat
  flags : Nat                 -- FLAGS bits known at the close
  seq : Nat
  start : Nat
  endTick : Nat
  enc0 : Word
  enc1 : Word
  addr : Nat
  bytes : Nat
  blocks : List Nat
deriving DecidableEq, Repr

/-- What tag records take from a frame (R288, R414 to R416). -/
structure FrameTag where
  seq : Nat
  start : Nat
  endTick : Nat
  enc0 : Word
  enc1 : Word
  trig : Nat                  -- TRIGGERED, ENC_LATE and ENC_INVALID as FLAGS bits
deriving DecidableEq, Repr

/-- An open merge group (R225): its EXP_COUNT, the next index due, whether it is cut short, and what member 0 gives its record. -/
structure Merge where
  count : Nat
  next : Nat
  incomplete : Bool
  poisoned : Bool
  first : FrameTag
  stall : Nat
  last : FrameTag
deriving DecidableEq, Repr

/-- An open stack (R284 to R288). `copy` holds the parameters it runs under. -/
structure Stack where
  copy : Tab Word
  taken : Nat                 -- frames accepted into it
  frames : Nat                -- frames examined
  members : Nat
  rejected : Nat
  flags : Nat
  first : FrameTag
  last : FrameTag
  stall : Nat
  ref : Option (Int × Int)
  closeDue : Bool             -- it closes early once its open frame has passed
deriving DecidableEq, Repr

/-- A staged frame that awaits resampling (R289): its half, the offset a trough gave, the centroid of its reference window if S is not 0,
the window's largest pixel, tags and flags. -/
structure Staged where
  half : Nat
  offset : Option (Int × Int)
  centroid : Option (Int × Int)
  peak : Int
  tag : FrameTag
  flags : Nat
deriving DecidableEq, Repr

/-- A copy under check (R242): B or not, and the groom whose TACK asked. -/
structure Check where
  b : Bool
  groom : Option Nat
deriving DecidableEq, Repr

/-- A host buffer committed to a context (R432): address, length, and the tick its commit completed. -/
structure Dest where
  addr : Nat
  len : Nat
  tick : Nat
deriving DecidableEq, Repr

/-- A context beside its registers (chapters 5, 6 and 9). -/
structure Ctx where
  a : Tab Word
  b : Tab Word
  check : Option Check
  epoch : Option Nat          -- sequence epoch since the enable (R414)
  lastId : Nat
  gap : Bool
  seqDue : Option (Nat × Nat) -- CTX_APPLIED_SEQ is due: records still queued from the copy before, and the least sequence it takes
  merge : Option Merge
  stack : Option Stack
  staged : List Staged
  tags : List TagDue
  stats : List (List (List Word))
  results : List (Nat × List Word)   -- result packets due, each with its trough
  dest : Option Dest
deriving DecidableEq, Repr

/-- A crib slot (R234): 0 EMPTY, 1 LIN, 2 COL, 3 LOADING; its entries. -/
structure CribSlot where
  st : Nat
  entries : Tab Nat
deriving DecidableEq, Repr

/-- A load under way: its slot or set, its kind, and the image words read when it began. -/
structure Load where
  slot : Nat
  kind : Nat
  image : List Word
  poison : Bool
deriving DecidableEq, Repr

/-- A member's frame in a herd slot (R427 to R430). -/
structure HerdEntry where
  ctx : Nat
  stall : Nat
  start : Nat
  seq : Nat
  flags : Nat
  late : Bool
deriving DecidableEq, Repr

/-- An open herd slot: present frames, members passed, and the tick at which a member first closed a frame of a later slot. -/
structure HerdSlot where
  slot : Nat
  present : List HerdEntry
  passed : List Nat
  later : Option Nat
deriving DecidableEq, Repr

/-- A released herd record that waits for its push (R428, R430): its slot, its members, its release tick, and whether GAP_BEFORE is set. -/
structure HerdDue where
  slot : HerdSlot
  members : List (Nat × Nat)
  tick : Nat
  gap : Bool
deriving DecidableEq, Repr

/-- A herd between its registers (R425 to R430): open slots, released records waiting for their push, the last slot released. -/
structure Herd where
  slots : List HerdSlot
  seen : Tab Nat              -- latest slot a member has accepted a Frame Start in, plus 1
  due : List HerdDue
  released : Option Nat
deriving DecidableEq, Repr

/-- A converter between its registers (R309 to R328): the run in progress, an urgent request, and calibration. -/
structure Adc where
  start : Nat
  t0 : Nat
  stopAt : Option Nat         -- stop tick plus 1,600
  modeEnd : Bool              -- the mode ends the run
  offset : Int
  gain : Nat
  len : Nat
  dest : Nat
  taken : Nat                 -- samples committed in whole units
  startOff : Nat
  startWraps : Nat
  clipped : Bool
  vst : Option Nat            -- virtual stall it runs for
  urgent : Nat                -- tick of the urgent request
  zeroFor : Option Nat        -- input whose ZERO phase is done, no GO since
  arrived : Nat               -- tick at which the start reached ISL_ANA (Table 7.2: starts of one cycle)
  cal : Option (Nat × Bool)   -- calibration in progress: input, and whether its phase is FULL
deriving DecidableEq, Repr

/-- A virtual stall's scan (R329 to R335): T0, end of frames taken, the next pixel, the present line's output, and its first instant. -/
structure Vst where
  t0 : Nat
  px : Nat                    -- pixels ended in the run
  began : Nat                 -- TIMING EVENT: the instant the present pixel began
  line : List Nat
  frameOpen : Bool
  nextId : Nat
  ending : Option Nat         -- the run ends at this instant
deriving DecidableEq, Repr

/-- A descriptor on the scoreboard (R439, R444): its slot and words ([] until its fetch returns); whether it has started or waits for
an item; the record its DELIVER popped and the blocks it is to release; records it took from a tag trough (trough, words 0 and 1); bytes
of host reads asked for and returned, PUSH data by offset, and an error of a read; its status, bytes and detail once it has ended. -/
structure Desc where
  slot : Nat
  words : List Word
  started : Bool
  waiting : Bool
  popped : Option (List Word)
  blocks : List Nat
  taken : List (Nat × Word × Word)
  asked : Nat
  back : Nat
  data : List (Nat × List Byte)
  err : Option Nat
  ended : Option (Nat × Nat × Nat)
deriving DecidableEq, Repr

/-- A ring beside its registers (R437 to R444, R451): next slot to fetch, descriptors not retired in slot order, descriptors retired
since ENABLE, and whether the host link was lost under it. -/
structure Ring where
  next : Nat
  descs : List Desc
  retired : Nat
  lost : Bool
deriving DecidableEq, Repr

/-- A mirror's place in its host buffer (R454). -/
structure Mirror where
  off : Nat
  wraps : Nat
deriving DecidableEq, Repr

/-- The pair controller beside its registers (chapter 16): the tick of the last good STATUS since the causeway's lanes were up; the
release tick; when STANDDOWN was entered; whether the peer has sent FINAL since its line was last asserted; and the watermarks as they
stood before the last takeover (R715). -/
structure Pair where
  lastStatus : Option Nat
  release : Option Nat
  standAt : Nat
  peerFinal : Bool
  cutWm : Tab Word
  cutHerd : Tab Word
deriving DecidableEq, Repr

/-- Why the machine would stop with a fault. No command of the FG-16 stops it: a command whose trigger a state does not take
has no effect there (00_scope, Reading tables). No meaning raises this; that is safe. -/
inductive Fault where
  | noCommandFaults
deriving DecidableEq, Repr

/-- Why the model would refuse a command: only while its meaning is not written (safe). -/
inductive Refusal where
  | notModelled (mnemonic : String)
deriving DecidableEq, Repr

/-- The state of the FG-16. -/
structure State where
  pending : List Instr          -- commands waiting, first in first out
  regs : Tab Word               -- every register, by name and instance
  chans : Tab Chan              -- handshake channels
  ctl : ModeCtl
  power : Power
  ret : Retention
  fuses : Fuses
  boot : Boot
  fen : List Host.Cell          -- the fen's bytes (R346)
  fenChk : Tab Nat              -- check state of a fen word: 1 stored poisoned, 2 uncorrectable (R353, R354)
  fenFix : Tab Word             -- words a read corrected whose write-back is outstanding (R356)
  near : Tab TWord              -- the die's trough words (R369)
  troughs : Tab Trough
  mirrorQ : Tab (List (List Word))   -- items committed to a log trough and not yet mirrored, by trough (R454)
  outBits : Tab Bool            -- out bit of each 64 KiB block (R358)
  yard : Yard
  grooms : Tab Groom
  scratch : Tab Word            -- the shared scratch, by word index (R465)
  stalls : Tab Stall
  lanes : Tab Lane              -- CL0 to CL31, then CWL0 to CWL7 as 32 to 39
  ctxs : Tab Ctx
  baysServed : Tab Nat          -- context each bay served last, plus 1, by 4 * chute + bay (R214)
  crib : Tab CribSlot
  cribLoad : Option Load
  paddock : Tab Word            -- window entries (R275)
  padLoad : Option Load
  herds : Tab Herd
  adcs : Tab Adc
  vsts : Tab Vst
  rings : Tab Ring
  mirrors : Tab Mirror
  pair : Pair
  tb : TimeBase
  outs : Tab Sched
  wpLists : Tab WpList
  wpMem : Tab Word              -- waypoint entries: word w of entry i at 2 i + w (Table 12.4)
  samples : Tab (List Sample)   -- samples that entered ISL_YARD, newest first, by axis
  fld : Field
  mgmt : Mgmt
  host : HostEp
  sent : List Out
  frees : Nat                   -- free values used so far: the model's own field, no part of the FG-16
deriving DecidableEq, Repr

def ModeCtl.zero : ModeCtl := ⟨.reset, .reset, none, []⟩
def Power.zero : Power := ⟨true, 3000, true, true, false⟩
def Retention.zero : Retention := ⟨[], 0, false, [], 0, 0, false, false, false, false⟩
def Fuses.zero : Fuses := ⟨[[], [], [], []], [false, false, false, false], 0, 0, false⟩
def Boot.zero : Boot := ⟨[], none, 0, 0, false⟩
def Chan.zero : Chan := ⟨[], [], []⟩
def Trough.zero : Trough := ⟨0, 0, none, 0, none, 0, 0, []⟩
def TWord.zero : TWord := ⟨0, false, false, false, false⟩
def Flags.zero : Flags := ⟨false, false, false, false, false⟩
def Groom.zero : Groom :=
  ⟨.halted, 0, [], Flags.zero, [], [], [], 0, 0, 0, 0, 0, 0, 0, [], 0, 0, 0, 0, 0, 0, none, 0, 0, none⟩
def Lane.zero : Lane := ⟨0, false, false, 0, 0, false, 0, 0, 0, 0, 0, 0, 0, BitVec.allOnes 58⟩
def Stall.zero : Stall :=
  ⟨none, 1, none, none, false, 0, 0, 0, false, false, false, 0, false, [], false, [], 0, 0, 0, none, [], 0, [], [], [], none, 255, none, none,
    false, none, none, [], [], none, 0, false, 0⟩
def Chunks.zero : Chunks := ⟨none, 0, 0, 0, 0, false, []⟩
def FrameTag.zero : FrameTag := ⟨0, 0, 0, 0, 0, 0⟩
def Ctx.zero : Ctx := ⟨[], [], none, none, 0, false, none, none, none, [], [], [], [], none⟩
def CribSlot.zero : CribSlot := ⟨0, []⟩
def Herd.zero : Herd := ⟨[], [], [], none⟩
def Adc.zero : Adc := ⟨0, 0, none, false, 0, 0, 0, 0, 0, 0, 0, false, none, 0, none, 0, none⟩
def Vst.zero : Vst := ⟨0, 0, 0, [], false, 0, none⟩
def Ring.zero : Ring := ⟨0, [], 0, false⟩
def Mirror.zero : Mirror := ⟨0, 0⟩
def Pair.zero : Pair := ⟨none, none, 0, false, [], []⟩
def Yard.zero : Yard := ⟨[], []⟩
def TimeBase.zero : TimeBase :=
  ⟨0, true, .free, 0, 0, 0, none, none, false, 0, 0, false, 0, false, false, 0, 0, 0, []⟩
def Sched.zero : Sched := ⟨false, false, [], [], 0⟩
def WpList.zero : WpList := ⟨[], [], 0, false⟩
def HbFlags.zero : HbFlags := ⟨false, false, false⟩
def FieldAxis.zero : FieldAxis :=
  ⟨Reg.rst .ENC_CFG 0, none, none, none, 0, 0, 0, false, false, 0, none, 0, 0, 0, false⟩
def FieldIn.zero : FieldIn := ⟨Reg.rst .FI_CFG 0, none, 0⟩
def FieldOut.zero : FieldOut := ⟨false, false, false⟩
def Field.zero : Field :=
  ⟨true, false, false, true, false, HbFlags.zero, false, false, [], [], [], [], [], [], [], [], [], []⟩
def Jtag.zero : Jtag := ⟨0, [], [], .system⟩
def Mgmt.zero : Mgmt :=
  ⟨[], [], 0, 0, [], [], 0, 0, 0, .none, [], [], [], [], false, 0, false, [], false, 0, [], [], Jtag.zero⟩
def Vec.zero : Vec := ⟨0, 0, true⟩
def Func.zero : Func := ⟨[], false, [], [], false, none, none, 0⟩
def HostEp.zero : HostEp := ⟨false, 0, 0, false, false, Func.zero, Func.zero, 0, [], [], [], [], [], false, 0, 0⟩

/-- The machine right after a power-on reset (Table 2.14): mode RESET with PERST_N asserted, every register at its Reset column. -/
def State.reset : State where
  pending := []
  regs := []
  chans := []
  ctl := ModeCtl.zero
  power := Power.zero
  ret := Retention.zero
  fuses := Fuses.zero
  boot := Boot.zero
  fen := []
  fenChk := []
  fenFix := []
  near := []
  troughs := []
  mirrorQ := []
  outBits := []
  yard := Yard.zero
  grooms := []
  scratch := []
  stalls := []
  lanes := []
  ctxs := []
  baysServed := []
  crib := []
  cribLoad := none
  paddock := []
  padLoad := none
  herds := []
  adcs := []
  vsts := []
  rings := []
  mirrors := []
  pair := Pair.zero
  tb := TimeBase.zero
  outs := []
  wpLists := []
  wpMem := []
  samples := []
  fld := Field.zero
  mgmt := Mgmt.zero
  host := HostEp.zero
  sent := []
  frees := 0

end Sys2Proof.Machine
end

