-- ==== Sys2Proof/Machine/Ops.lean ====
section
/-! DEFINITION. The named operations over the register file, the fen, the yard, the alarms and logs, and the message engines. -/

namespace Sys2Proof.Machine

/-! ### The register file -/

/-- The key of register `r`, instance `i`, in the register file. -/
def regKey (r : Reg) (i : Nat) : Nat := r.ctorIdx * 2 ^ 20 + i

/-- The stored value of a register; its Reset column until something changes it. -/
def State.rd (s : State) (r : Reg) (i : Nat := 0) : Word := Tab.get (r.rst i) s.regs (regKey r i)

/-- The state with register `r`, instance `i`, holding `v`. -/
def State.wr (s : State) (r : Reg) (i : Nat) (v : Word) : State :=
  { s with regs := Tab.set (r.rst i) s.regs (regKey r i) v }

/-- A field of a register, as a number. -/
def State.get (s : State) (f : Fld) (i : Nat := 0) : Nat := bits (s.rd f.r i) f.lo f.w

/-- A one-bit field. -/
def State.isOn (s : State) (f : Fld) (i : Nat := 0) : Bool := s.get f i = 1

/-- The state with a field of a register set to the low bits of `n`. -/
def State.put (s : State) (f : Fld) (i : Nat) (n : Nat) : State :=
  s.wr f.r i (setBits (s.rd f.r i) f.lo f.w n)

/-- A saturating counter grown by `n` (00_scope, Numbers and units). -/
def State.addSat (s : State) (f : Fld) (i : Nat) (n : Nat) : State := s.put f i (satAdd f.w (s.get f i) n)

/-- A saturating counter grown by 1. -/
def State.inc (s : State) (f : Fld) (i : Nat := 0) : State := s.addSat f i 1

/-- A wrapping counter grown by 1. -/
def State.incWrap (s : State) (f : Fld) (i : Nat := 0) : State := s.put f i (s.get f i + 1)

/-- A register back at its Reset column. -/
def State.rst (s : State) (r : Reg) (i : Nat := 0) : State := s.wr r i (r.rst i)

/-- The register whose key is `k`, if any. -/
def regOfKey (k : Nat) : Option Reg := Reg.all[k / 2 ^ 20]?

/-- Every register of the chapters that `p` names, back at its Reset column. -/
def State.rstWhere (s : State) (p : Reg → Bool) : State :=
  { s with regs := Tab.drop (fun k => match regOfKey k with | some r => p r | none => false) s.regs }

/-- One field's new bits when software writes `v` with the bytes enabled in mask `m` (Table 0.3, R13). -/
def writeField (old v m : Word) (f : FSpec) : Word :=
  let e := fieldMask f.lo f.w &&& m
  match f.ty with
  | .rw => (old &&& ~~~e) ||| (v &&& e)
  | .rw1c => old &&& ~~~(v &&& e)
  | .rw1s => old ||| (v &&& e)
  | .ro | .wo | .rc => old

/-- A register's value after a software write (R6, R13). -/
def writeFields (r : Reg) (old v m : Word) : Word := r.fields.foldl (fun a f => writeField a v m f) old

/-- The word with ones in every enabled byte (R13). -/
def byteMask (be : BitVec 8) : Word :=
  wordOfBytes ((List.range 8).map (fun k => if be.getLsbD k then 0xFF else 0))

/-! ### Outputs and free values -/

/-- Something sent out of the die. -/
def State.emit (s : State) (o : Out) : State := { s with sent := s.sent ++ [o] }

/-- A value the specification leaves open, and the state that has used it: nothing constrains it. -/
def State.fresh (s : State) : Word × State := (Config.freeWord s.frees, { s with frees := s.frees + 1 })

/-! ### Time -/

/-- The present tick (R551). -/
def State.now (s : State) : Nat := s.tb.count

/-- Time has passed up to tick `t`, if it lies ahead. -/
def State.reach (s : State) (t : Nat) : State :=
  { s with tb := { s.tb with count := max s.tb.count t, cycles := s.tb.cycles + (t - s.tb.count) / 4 } }

/-! ### The yard's producers -/

/-- Whether a producer lies inside ISL_YARD (Table 13.1). -/
def prodInside (p : Nat) : Bool := (32 ≤ p && p ≤ 63) || (432 ≤ p && p ≤ 435)

/-- Whether a producer ever raises an event (Table 13.1: 464 to 511 never do). -/
def prodExists (p : Nat) : Bool := p < 464

/-- Producer `p` raises an event with tick `t`: it waits at its resynchroniser, which takes one event and holds one more; an
event that finds the held place full is merged into the held one, which keeps its earlier tick (R597). -/
def State.raiseYard (s : State) (p t : Nat) : State :=
  if !prodExists p then s
  else if !prodInside p && 2 ≤ (s.yard.raised.filter (fun e => e.id == p)).length then
    s.inc F.YARD_GLOBAL_XING_MERGED
  else { s with yard := { s.yard with raised := s.yard.raised ++ [⟨p, t⟩] } }

/-- The first delivered event of consumer `q`, and the state without it. -/
def State.takeEvent (s : State) (q : Nat) : Option (Nat × State) :=
  match s.yard.delivered.find? (fun e => e.id == q) with
  | none => none
  | some e => some (e.tick, { s with yard := { s.yard with delivered := s.yard.delivered.erase e } })

/-! ### Messages to the host -/

/-- Configuration dword offsets (R656; PCI Express layout). -/
def cfgMsix : Nat := 0x50

/-- A configuration dword as last written. -/
def Func.cfg (f : Func) (off : Nat) (dflt : Nat := 0) : Nat := Tab.get dflt f.regs off

/-- The state of function `fn`. -/
def State.func (s : State) (fn : Nat) : Func := if fn = 0 then s.host.pf0 else s.host.pf1

/-- The state with function `fn` changed. -/
def State.setFunc (s : State) (fn : Nat) (f : Func) : State :=
  if fn = 0 then { s with host := { s.host with pf0 := f } } else { s with host := { s.host with pf1 := f } }

/-- A vector becomes pending at its message engine; one already queued for it covers this event too (R35). -/
def State.sendVector (s : State) (fn vector : Nat) (c : MsgClass) : State :=
  if s.host.msgs.any (fun m => m.fn == fn && m.vector == vector) then s
  else { s with host := { s.host with msgs := s.host.msgs ++ [⟨fn, vector, c⟩] } }

/-- A PF1 vector, sent only while its bit of MGMT_IRQ_EN is 1 (R748). -/
def State.sendPf1 (s : State) (vector : Nat) : State :=
  if bit (s.rd .MGMT_IRQ_EN) vector then s.sendVector 1 vector .device else s

/-- A bit of HIRQ_DEV_STATUS is set; a change from 0 to 1 of an enabled bit sends the device vector (R669). `b` is 0 MODE_DONE,
1 ALARM, 2 BOUNDS. -/
def State.devIrq (s : State) (b : Nat) : State :=
  let old := bit (s.rd .HIRQ_DEV_STATUS) b
  let s1 := s.wr .HIRQ_DEV_STATUS 0 (s.rd .HIRQ_DEV_STATUS ||| (1#64 <<< b))
  if !old && bit (s.rd .HIRQ_DEV_CFG) b then s1.sendVector 0 (s1.get F.HIRQ_DEV_CFG_VECTOR) .device else s1

/-! ### Mode requests -/

/-- Results of a mode request (Table 2.8). -/
def resPending : Nat := 1
def resDone : Nat := 2
def resIllegal : Nat := 3
def resSuperseded : Nat := 4
def resAborted : Nat := 5
def resDenied : Nat := 6

/-- The mode codes (Table 2.2). -/
def Mode.code : Mode → Nat
  | .off => 0 | .keep => 1 | .reset => 2 | .boot => 3 | .quiet => 4 | .ready => 5 | .armed => 6 | .stream => 7
  | .burst => 8 | .drain => 9 | .shadow => 10 | .hold => 11

/-- The mode a code names; the reserved codes 0xC to 0xF name none. -/
def Mode.ofCode : Nat → Option Mode
  | 0 => some .off | 1 => some .keep | 2 => some .reset | 3 => some .boot | 4 => some .quiet | 5 => some .ready
  | 6 => some .armed | 7 => some .stream | 8 => some .burst | 9 => some .drain | 10 => some .shadow | 11 => some .hold
  | _ => none

/-! ### The fen -/

/-- The end of the populated fen (R346). -/
def fenEnd : Nat := 0x1800000000

/-- The end of the pool record (R358). -/
def poolRecordEnd : Nat := 0x40000

/-- The code of segment `k` in a six-word segment map (R398). -/
def segOf (m : Nat → Word) (k : Nat) : Nat := bits (m (k / 16)) (4 * (k % 16)) 4

/-- The code in effect of the segment that holds address `a`. -/
def State.segAt (s : State) (a : Nat) : Nat := segOf (fun m => s.rd .FEN_SEG_ACTIVE m) (a / 0x40000000)

/-- Whether every segment that a range of bytes covers satisfies `p`. -/
def State.segsAll (s : State) (lo hi : Nat) (p : Nat → Bool) : Bool :=
  (List.range 96).all fun k =>
    !(decide (k * 0x40000000 < hi) && decide (lo < (k + 1) * 0x40000000)) ||
      p (segOf (fun m => s.rd .FEN_SEG_ACTIVE m) k)

/-- Whether an engine access to address `a` meets storage it may use (R351). -/
def State.fenUsable (s : State) (a : Nat) : Bool :=
  decide (poolRecordEnd ≤ a) && decide (a < fenEnd) && s.segAt a != 1

/-- One stored byte of the fen. -/
def State.fenByte (s : State) (a : Nat) : Byte := Tab.get 0 s.fen a

/-- `n` stored bytes of the fen from `a`, lowest address first. -/
def State.fenBytes (s : State) (a n : Nat) : List Byte := (List.range n).map fun k => s.fenByte (a + k)

/-- The stored word at byte address `a` (a multiple of 8), as R5 orders its bytes. -/
def State.fenWord (s : State) (a : Nat) : Word := wordOfBytes (s.fenBytes a 8)

/-- Bytes stored from `a`. -/
def storeBytes (m : List Host.Cell) (a : Nat) : List Byte → List Host.Cell
  | [] => m
  | b :: bs => storeBytes (Tab.set 0 m a b) (a + 1) bs

/-- The check state of the word that holds address `a`: 0 clean, 1 stored poisoned, 2 uncorrectable. -/
def State.fenCheck (s : State) (a : Nat) : Nat := Tab.get 0 s.fenChk (a / 8)

/-- A whole word written at `a`, clean or stored poisoned (R346, R354). -/
def State.fenStore (s : State) (a : Nat) (w : Word) (poison : Bool) : State :=
  { s with
    fen := storeBytes s.fen a (bytesOfNat 8 w.toNat)
    fenChk := Tab.set 0 s.fenChk (a / 8) (b2n poison)
    fenFix := Tab.erase (a / 8) s.fenFix }

/-! ### Alarms, faults and events -/

/-- Puts a request with the mode controller; a source's earlier pending request is replaced (R48). A request for HOLD never waits
(R51), so none replaces it and a second one from its source joins it. -/
def State.placeRequest (s : State) (r : ModeReq) : State :=
  let hold := Mode.code .hold
  if r.target = hold ∧ s.ctl.pend.any (fun q => q.src == r.src && q.target == hold) then s
  else { s with ctl := { s.ctl with pend := s.ctl.pend.filter (fun q => q.src != r.src || q.target == hold) ++ [r] } }

/-- An alarm is raised: it takes the next ALARM_SEQ and counts in ALARM_SUMMARY (R729); a hold-causing one asks for HOLD at
once (R728). It then waits for the yardmaster to enter it. -/
def State.alarm (s : State) (code : Nat) (data : Word) : State :=
  let hold := bit (s.rd .ALARM_CFG code) 0
  let seq := s.get F.ALARM_STATUS_NEXT_SEQ
  let s1 := s.put F.ALARM_STATUS_NEXT_SEQ 0 (seq + 1)
  let s2 := s1.inc ⟨.ALARM_SUMMARY, 16 * (code % 4), 16⟩ (code / 4)
  let s3 := { s2 with mgmt := { s2.mgmt with raised := s2.mgmt.raised ++ [⟨code, data, seq, s2.now, hold⟩] } }
  if hold then s3.placeRequest ⟨.yardmaster, Mode.code .hold, .fault code, seq⟩ else s3

/-- A fault occurs: its code's pending record is opened, or its last tick and count are updated (R735). -/
def State.fault (s : State) (code : Nat) (data : Word) : State :=
  let rec upd : List FaultRec → List FaultRec
    | [] => [⟨code, s.now, s.now, 1, data⟩]
    | f :: fs => if f.code = code then { f with last := s.now, count := satAdd 32 f.count 1 } :: fs else f :: upd fs
  let l := upd s.mgmt.faults
  { s with mgmt := { s.mgmt with faults := l } }.put F.LOG_STATUS_FAULTS_PENDING 0 l.length

/-- An event of the event log is counted in the open window (R735). -/
def State.countEvent (s : State) (code : Nat) : State :=
  let rec upd : List EventCount → List EventCount
    | [] => [⟨code, 1, s.mgmt.windowStart⟩]
    | e :: es => if e.code = code then { e with count := satAdd 32 e.count 1 } :: es
                 else if code < e.code then ⟨code, 1, s.mgmt.windowStart⟩ :: e :: es else e :: upd es
  { s with mgmt := { s.mgmt with events := upd s.mgmt.events } }

/-- An uncorrectable fen word at `a` is counted, its address recorded and alarm FEN_UE raised (R355). -/
def State.fenUe (s : State) (a : Nat) : State :=
  let s1 := s.inc F.FEN_ECC_UE
  let s2 := if s1.isOn F.FEN_UE_ADDR_VALID then s1
            else (s1.put F.FEN_UE_ADDR_ADDR 0 (a / 8)).put F.FEN_UE_ADDR_VALID 0 1
  s2.alarm 0x18 (BitVec.ofNat 64 (a / 8 * 8))

/-- An engine reads the word at `a` (R351, R354, R355): the word, whether it is poisoned, and the state after. -/
def State.engineRead (s : State) (a : Nat) : Word × Bool × State :=
  if !s.fenUsable a then (0, true, s.inc F.FEN_SCRUB_COUNT_BAD_ADDR)
  else match s.fenCheck a with
    | 0 => (s.fenWord (a / 8 * 8), false, s)
    | 1 => (s.fenWord (a / 8 * 8), true, s.inc F.FEN_ECC_STORED_POISON)
    | _ => (s.fenWord (a / 8 * 8), true, s.fenUe a)

/-- An engine writes the whole word at `a`; a write to no storage is discarded and counted (R351). -/
def State.engineWrite (s : State) (a : Nat) (w : Word) (poison : Bool) : State :=
  if s.fenUsable a then s.fenStore (a / 8 * 8) w poison else s.inc F.FEN_SCRUB_COUNT_BAD_ADDR

/-- An engine reads `n` words from `a`: the words, whether any is poisoned, and the state after. -/
def State.engineReadWords : Nat → Nat → State → List Word × Bool × State
  | 0, _, s => ([], false, s)
  | n + 1, a, s =>
      let (w, p, s1) := s.engineRead a
      let (ws, q, s2) := State.engineReadWords n (a + 8) s1
      (w :: ws, p || q, s2)

/-- An engine writes words from `a`. -/
def State.engineWriteWords (s : State) (a : Nat) : List Word → State
  | [] => s
  | w :: ws => State.engineWriteWords (s.engineWrite a w false) (a + 8) ws

/-- Some bytes of the word at `a` are written: it is read, merged and rewritten, and stays poisoned where the read found it
poisoned or uncorrectable (R346, R354, R355). `be` enables bytes 0 to 7. -/
def State.fenMerge (s : State) (a : Nat) (w : Word) (be : BitVec 8) (poison : Bool) : State :=
  if be = 0xFF then s.fenStore a w poison
  else
    let m := byteMask be
    let v := (s.fenWord a &&& ~~~m) ||| (w &&& m)
    match s.fenCheck a with
    | 0 => s.fenStore a v poison
    | 1 => (s.inc F.FEN_ECC_STORED_POISON).fenStore a v true
    | _ => (s.fenUe a).fenStore a v true

/-- An engine writes bytes from any address, word by word (R346). -/
def State.engineWriteBytes : Nat → State → Nat → List Byte → State
  | 0, s, _, _ => s
  | _, s, _, [] => s
  | fuel + 1, s, a, bs =>
      let o := a % 8
      let n := min (8 - o) bs.length
      let w : Word := BitVec.ofNat 64 (natOfBytes (bs.take n) * 2 ^ (8 * o))
      let be : BitVec 8 := BitVec.ofNat 8 ((2 ^ n - 1) * 2 ^ o)
      let s1 := if s.fenUsable a then s.fenMerge (a / 8 * 8) w be false else s.inc F.FEN_SCRUB_COUNT_BAD_ADDR
      State.engineWriteBytes fuel s1 (a + n) (bs.drop n)

end Sys2Proof.Machine
end

