-- ==== Sys2Proof/Machine/Operands.lean ====
section
/-! DEFINITION. The operand forms of a groom's instructions: its general registers, sign-extended immediates, effective
addresses, and sized values in memory words (R476, R486, R488). -/

namespace Sys2Proof.Machine

def State.groom (s : State) (g : Nat) : Groom := Tab.get Groom.zero s.grooms g

def State.setGroom (s : State) (g : Nat) (x : Groom) : State := { s with grooms := Tab.set Groom.zero s.grooms g x }

/-- A general register: G0 reads 0 (R476). -/
def Groom.reg (x : Groom) (r : BitVec 4) : Word := if r = 0 then 0 else Tab.get 0 x.g r.toNat

/-- A write to a general register: one to G0 is discarded (R476). -/
def Groom.setG (x : Groom) (r : BitVec 4) (v : Word) : Groom := if r = 0 then x else { x with g := Tab.set 0 x.g r.toNat v }

/-- A sign-extended field (R480, R486, R488). -/
def sext {w : Nat} (v : BitVec w) : Word := v.signExtend 64

/-- The index a branch with offset `imm` at index `pc` reaches, which may lie outside 0 to 16,383 (R475, R486). -/
def branchTarget (pc : Nat) (imm : BitVec 14) : Int := pc + imm.toInt

/-- The byte address A + sext(FUNC[10:0]) over 64 bits (R488). -/
def effAddr (a : Word) (off : BitVec 11) : Nat := (a + sext off).toNat

/-- Bytes of a size code: 1, 2, 4 or 8 (R488). -/
def sizeBytes (sz : BitVec 2) : Nat := 2 ^ sz.toNat

/-- The sized value at byte `addr % 8` of a memory word, zero- or sign-extended (R488). -/
def loadSized (w : Word) (addr n : Nat) (sgn : Bool) : Word :=
  let v := bits w (8 * (addr % 8)) (8 * n)
  if sgn then BitVec.ofInt 64 (signed (8 * n) v) else word v

/-- A memory word with `n` bytes at byte `addr % 8` replaced by the low bits of `v` (R488). -/
def storeSized (w : Word) (addr n : Nat) (v : Word) : Word := setBits w (8 * (addr % 8)) (8 * n) v.toNat

end Sys2Proof.Machine
end

