-- ==== Sys2Proof/Machine/Trough.lean ====
section
/-! DEFINITION. The trough manager's operations (R368 to R395): storage, pushes, pops, gap markers, thresholds, holds, and the
free-block lists of the pools. -/

namespace Sys2Proof.Machine

/-! ### Storage -/

def State.trg (s : State) (t : Nat) : Trough := Tab.get Trough.zero s.troughs t

def State.setTrg (s : State) (t : Nat) (x : Trough) : State :=
  { s with troughs := Tab.set Trough.zero s.troughs t x }

/-- Size in words (R406). -/
def State.trgSize (s : State) (t : Nat) : Nat := 2 ^ s.get F.TRG_CFG_SIZE_LOG2 t

def State.trgOn (s : State) (t : Nat) : Bool := s.isOn F.TRG_CFG_ENABLE t

def State.trgFar (s : State) (t : Nat) : Bool := s.isOn F.TRG_CFG_LOCATION t

def State.trgBase (s : State) (t : Nat) : Nat := s.get F.TRG_BASE_BASE t

/-- The sideband word's address of slot `i` of a far trough (R370). -/
def State.sideAddr (s : State) (t i : Nat) : Nat := s.trgBase t + 8 * s.trgSize t + 8 * (i / 16)

/-- The word in ring slot `i` (R370, R371); an uncorrectable sideband word makes its slots single poisoned DATA words (R390). -/
def State.readSlot (s : State) (t i : Nat) : TWord :=
  if s.trgFar t then
    let a := s.trgBase t + 8 * i
    let sb := bits (s.fenWord (s.sideAddr t i)) (4 * (i % 16)) 4
    if s.fenCheck (s.sideAddr t i) ≠ 0 then ⟨s.fenWord a, true, true, false, true⟩
    else ⟨s.fenWord a, sb % 2 = 1, sb / 2 % 2 = 1, sb / 4 % 2 = 1, s.fenCheck a ≠ 0⟩
  else Tab.get TWord.zero s.near (s.trgBase t + i)

/-- Ring slot `i` takes a word (R370, R371). -/
def State.writeSlot (s : State) (t i : Nat) (w : TWord) : State :=
  if s.trgFar t then
    let s1 := s.fenStore (s.trgBase t + 8 * i) w.data false
    let sa := s.sideAddr t i
    let sb := b2n w.sop + 2 * b2n w.eop + 4 * b2n w.gap
    s1.fenStore sa (setBits (s1.fenWord sa) (4 * (i % 16)) 4 sb) false
  else { s with near := Tab.set TWord.zero s.near (s.trgBase t + i) w }

/-- The `k`-th visible word, 0 the oldest. -/
def State.visWord (s : State) (t k : Nat) : TWord := s.readSlot t (((s.trg t).head + k) % s.trgSize t)

/-- Words written from offset `k` past the oldest visible word. -/
def State.putWords (s : State) (t k : Nat) : List TWord → State
  | [] => s
  | w :: ws => State.putWords (s.writeSlot t (((s.trg t).head + k) % s.trgSize t) w) t (k + 1) ws

/-- A push whose words share one item: SOP on the first, EOP on the last (R371). -/
def itemWords (ws : List Word) : List TWord :=
  (List.range ws.length).zipWith (fun k w => ⟨w, k == 0, k + 1 == ws.length, false, false⟩) ws

/-! ### Threshold (R387, R388) -/

/-- Producers 416 + k of every enabled watch slot that names trough `t` (R388). -/
def State.watchFire (s : State) (t : Nat) : State :=
  (List.range 16).foldl (fun a k =>
    if a.isOn F.TRG_WATCH_ENABLE k && a.get F.TRG_WATCH_TROUGH k == t then a.raiseYard (416 + k) a.now else a) s

/-- The threshold, judged on the visible depth before and after a cycle. -/
def State.trgThresh (s : State) (t before : Nat) : State :=
  let after := (s.trg t).vis
  let lvl := s.get F.TRG_THRESH_LEVEL t
  let s1 := if t = 3 ∧ before ≤ 6144 ∧ 6144 < after then s.sendPf1 3 else s
  if after ≤ lvl then s1.put F.TRG_STATUS_THR_ARMED t 1
  else if before ≤ lvl then
    let s2 := (s1.put F.TRG_STATUS_THR_ARMED t 0).put F.TRG_STATUS_THR_FIRED t 1
    let s3 := if s2.isOn F.TRG_CFG_THR_MSIX_EN t then s2.sendVector 0 (s2.get F.TRG_CFG_VECTOR t) .trough else s2
    s3.watchFire t
  else s1

/-! ### Gap markers (R377, R378, R381) -/

/-- `n` dropped items, the first at tick `tick`, are recorded: an unpopped marker at the tail grows, or a new marker is
committed in the free slot. -/
def State.markDrops (s : State) (t n tick : Nat) : State :=
  if n = 0 then s
  else
    let x := s.trg t
    let last := s.visWord t (x.vis - 1)
    if 0 < x.vis ∧ last.gap = true then
      let w := { last with data := setBits last.data 0 32 (satAdd 32 (bits last.data 0 32) n) }
      s.writeSlot t ((x.head + (x.vis - 1)) % s.trgSize t) w
    else
      let m : TWord := ⟨field 0 32 n ||| field 32 32 (tick / 1024), true, true, true, false⟩
      let s1 := s.writeSlot t ((x.head + x.vis) % s.trgSize t) m
      (s1.setTrg t { s1.trg t with vis := x.vis + 1 }).incWrap F.TRG_DROPS_MARKERS t

/-- The newest item is dropped: counted, and recorded at once (R377). -/
def State.dropItem (s : State) (t : Nat) : State := (s.inc F.TRG_DROPS_DROPPED t).markDrops t 1 s.now

/-- An item is dropped and its marker held pending (R381, R392). -/
def State.dropPending (s : State) (t : Nat) : State :=
  let s1 := s.inc F.TRG_DROPS_DROPPED t
  let x := s1.trg t
  s1.setTrg t { x with gaps := satAdd 32 x.gaps 1, gapTick := if x.gaps = 0 then s.now else x.gapTick }

/-- The pending marker is committed. -/
def State.commitPending (s : State) (t : Nat) : State :=
  let x := s.trg t
  (s.setTrg t { x with gaps := 0, gapTick := 0 }).markDrops t x.gaps x.gapTick

/-- Whether a far trough stands still because the fen is in self-refresh (R392). -/
def State.trgAsleep (s : State) (t : Nat) : Bool := s.trgFar t && s.ctl.mode == .quiet

/-! ### Pushes -/

/-- A mirror that is enabled has an item to copy: the words committed to its log trough wait for it (R454). -/
def State.mirrorNote (s : State) (t : Nat) (ws : List TWord) : State :=
  if t < 4 ∧ s.isOn F.MIRROR_CFG_ENABLE t = true then { s with mirrorQ := Tab.modify [] s.mirrorQ t (fun q => q ++ [ws.map (·.data)]) } else s

/-- An item's words are committed behind the visible ones (R375, R382). -/
def State.commitItem (s : State) (t : Nat) (ws : List TWord) : State :=
  let x := s.trg t
  let s1 := s.putWords t x.vis ws
  (s1.setTrg t { s1.trg t with vis := x.vis + ws.length }).mirrorNote t ws

/-- An item pushed as one burst, no packet being open: taken if it fits, otherwise dropped (R376, R377, R379). -/
def State.pushBurst (s : State) (t : Nat) (ws : List TWord) : State :=
  if ws.length ≤ 4096 ∧ (s.trg t).vis + ws.length ≤ s.trgSize t - 1 then s.commitItem t ws else s.dropItem t

/-- Whether a burst of `n` words fits (R376, R379). -/
def State.burstFits (s : State) (t n : Nat) : Bool := n ≤ 4096 && decide ((s.trg t).vis + n ≤ s.trgSize t - 1)

/-- The reply to a groom whose push has been decided (R531): 0 ACCEPTED, 1 DROPPED, 2 DISABLED. -/
def State.groomPushed (s : State) (g code : Nat) : State :=
  let x := s.groom g
  match x.wait with
  | some ⟨.push _, d, _, _⟩ =>
      let y := { (x.setG d (word code)) with flags := { x.flags with z := code == 0 }, wait := none, pc := x.pc + 1 }
      let s1 := s.setGroom g y
      if code = 1 then s1.inc F.GROOM_DEV_COUNT2_PUSH_DROPS g else s1
  | _ => s

/-- A push that waited is made, and its groom, if one pushed it, gets its reply. -/
def State.pushWaited (s : State) (t : Nat) (w : WaitItem) : State :=
  let ok := s.burstFits t w.words.length
  let s1 := s.pushBurst t (itemWords w.words)
  match w.groom with
  | none => s1
  | some g => s1.groomPushed g (if ok then 0 else 1)

/-- After an open packet ends: the pending marker, then the pushes that waited (R381). -/
def State.afterOpen (s : State) (t : Nat) : State :=
  let s1 := if s.trgAsleep t then s else s.commitPending t
  let w := (s1.trg t).waiting
  w.foldl (fun a x => a.pushWaited t x) (s1.setTrg t { s1.trg t with waiting := [] })

/-- A groom or hardware producer pushes an item as one burst (R380, R381, R391, R392); the threshold is judged at the end. -/
def State.pushItem (s : State) (t : Nat) (ws : List Word) : State :=
  let before := (s.trg t).vis
  let x := s.trg t
  if !s.trgOn t then s.inc F.TRG_ECC_DISABLED_ACCESS
  else if s.trgAsleep t then s.dropPending t
  else if x.openBy.isSome then s.setTrg t { x with waiting := x.waiting ++ [⟨none, ws⟩] }
  else (s.pushBurst t (itemWords ws)).trgThresh t before

/-- An item of `n` words pushed as one burst of which a word arrived poisoned: dropped with a marker, a packet counted in PKT_ABORTS
(R383, Table 8.2). -/
def State.pushPoisoned (s : State) (t n : Nat) : State :=
  let x := s.trg t
  if !s.trgOn t then s.inc F.TRG_ECC_DISABLED_ACCESS
  else
    let s1 := if 1 < n then s.inc F.TRG_COUNT_PKT_ABORTS t else s
    if s.trgAsleep t || x.openBy.isSome then s1.dropPending t else (s1.dropItem t).trgThresh t x.vis

/-- The open packet is rewound: its slots are freed (R383). -/
def State.closeOpen (s : State) (t : Nat) : State := s.setTrg t { s.trg t with openBy := none, openLen := 0 }

/-- The open packet is rewound and recorded as a dropped item (Table 8.2); `abort` counts it in PKT_ABORTS. -/
def State.rewind (s : State) (t : Nat) (abort : Bool) : State :=
  let s1 := (s.closeOpen t).dropItem t
  if abort then s1.inc F.TRG_COUNT_PKT_ABORTS t else s1

/-- The parts of an item a doorbell pushes (Table 8.13). -/
inductive Part where
  | single | sop | mid | eop
deriving DecidableEq, Repr

/-- A single-word item or the first word of a packet, with no packet of this producer open. -/
def State.pushHead (s : State) (a : Agent) (t : Nat) (p : Part) (w : Word) (poisoned : Bool) : State :=
  let x := s.trg t
  if poisoned then
    let s1 := s.dropItem t
    if p = .single then s1 else s1.inc F.TRG_COUNT_PKT_ABORTS t
  else if s.trgSize t - 1 < x.vis + 1 then s.dropItem t
  else if p = .single then s.commitItem t [⟨w, true, true, false, false⟩]
  else (s.putWords t x.vis [⟨w, true, false, false, false⟩]).setTrg t { x with openBy := some a, openLen := 1 }

/-- A middle or last word of the producer's own open packet. -/
def State.pushTail (s : State) (t : Nat) (p : Part) (w : Word) (poisoned : Bool) : State :=
  let x := s.trg t
  if poisoned then (s.rewind t true).afterOpen t
  else if 4096 < x.openLen + 1 ∨ s.trgSize t - 1 < x.vis + x.openLen + 1 then (s.rewind t false).afterOpen t
  else
    let s1 := s.putWords t (x.vis + x.openLen) [⟨w, false, p == .eop, false, false⟩]
    if p = .eop then
      ((s1.setTrg t { s1.trg t with openBy := none, openLen := 0, vis := x.vis + x.openLen + 1 })).afterOpen t
    else s1.setTrg t { s1.trg t with openLen := x.openLen + 1 }

/-- A doorbell push may act on the trough (Table 8.6). -/
def pushAllowed (t : Nat) : Bool := 400 ≤ t

/-- A doorbell push by PF0 or PF1 (R376 to R383, R391, R392, R395). -/
def State.pushWord (s : State) (a : Agent) (t : Nat) (p : Part) (w : Word) (poisoned : Bool) : State :=
  let x := s.trg t
  let before := x.vis
  if !pushAllowed t then s.put F.TRG_STATUS_REFUSED_ACCESS t 1
  else if !s.trgOn t then s.inc F.TRG_ECC_DISABLED_ACCESS
  else if s.trgAsleep t then
    if p = .single ∨ p = .sop then s.dropPending t
    else if x.openBy = some a then ((s.closeOpen t).dropPending t).inc F.TRG_COUNT_PKT_ABORTS t else s
  else match p with
    | .single | .sop =>
        if x.openBy = some a then
          (((s.rewind t true).afterOpen t).pushHead a t p w poisoned).trgThresh t before
        else if x.openBy.isSome then s.dropPending t
        else (s.pushHead a t p w poisoned).trgThresh t before
    | .mid | .eop =>
        if x.openBy = some a then (s.pushTail t p w poisoned).trgThresh t before else s

/-- PUSH_ABORT: the producer's open packet vanishes (Table 8.2). -/
def State.pushAbort (s : State) (a : Agent) (t : Nat) : State :=
  let before := (s.trg t).vis
  if !pushAllowed t then s.put F.TRG_STATUS_REFUSED_ACCESS t 1
  else if (s.trg t).openBy = some a then
    (((s.closeOpen t).inc F.TRG_COUNT_PKT_ABORTS t).afterOpen t).trgThresh t before
  else s

/-! ### Pops -/

/-- The oldest visible words leave the queue. -/
def State.advance (s : State) (t n : Nat) : State :=
  let x := s.trg t
  s.setTrg t { x with head := (x.head + n) % s.trgSize t, vis := x.vis - n }

/-- Whether an agent may pop a trough (Table 8.6; R732, R738 for the log troughs). -/
def State.popAllowed (s : State) (a : Agent) (t : Nat) : Bool :=
  if 400 ≤ t then true
  else if 144 ≤ t then a == .engine
  else if 16 ≤ t then true
  else match a with
    | .yardmaster => true
    | .pf1 => (t == 1 && !s.isOn F.LOG_CFG_OWNER_1) || (t == 2 && !s.isOn F.LOG_CFG_OWNER_2) ||
        (t == 3 && !s.isOn F.LOG_CFG_OWNER_3)
    | .smbus => (t == 1 && s.isOn F.LOG_CFG_OWNER_1) || (t == 2 && s.isOn F.LOG_CFG_OWNER_2) ||
        (t == 3 && s.isOn F.LOG_CFG_OWNER_3)
    | _ => false

/-- What a pop answers (Table 8.14). -/
structure PopResult where
  valid : Bool
  word : TWord
  poison : Bool
  held : Bool
  after : Nat
deriving DecidableEq, Repr

/-- The status word of a pop (Table 8.14). -/
def PopResult.status (r : PopResult) : Word :=
  if r.valid then
    field 0 1 1 ||| field 1 1 (b2n r.word.sop) ||| field 2 1 (b2n r.word.eop) ||| field 3 1 (b2n r.word.gap) |||
      field 4 1 (b2n r.poison) ||| field 32 29 r.after
  else field 5 1 (b2n r.held) ||| field 32 29 r.after

/-- A watermark rises to `n`; it never decreases (R711). -/
def State.raiseMark (s : State) (r : Reg) (i n : Nat) : State := s.wr r i (BitVec.ofNat 64 (max (s.rd r i).toNat n))

/-- On a keeper, a record with LAST 1 taken from a tag trough, or a herd record taken from its trough, raises its watermark (R711).
`w0` and `w1` are the record's first two words. -/
def State.noteTaken (s : State) (t : Nat) (w0 w1 : Word) : State :=
  if s.get F.PAIR_STATUS_STATE = 2 ∨ s.get F.PAIR_STATUS_STATE = 4 then
    if bits w0 24 4 = 5 then
      (if s.get F.HERD_CFG_TROUGH (bits w0 19 4) = t then s.raiseMark .PAIR_HERD_WM (bits w0 19 4) w1.toNat else s)
    else if 16 ≤ t ∧ t < 80 ∧ bit w0 43 = true then s.raiseMark .PAIR_WM (t - 16) w1.toNat
    else s
  else s

/-- The item at the head is about to be taken. -/
def State.noteHead (s : State) (t : Nat) : State :=
  let w := s.visWord t 0
  if w.sop && !w.eop && !w.gap then s.noteTaken t w.data (s.visWord t 1).data else s

/-- A pop of one word (R384, R389, R390, R391, R392, R395). -/
def State.popWord (s : State) (a : Agent) (t : Nat) (e : Ecc) : PopResult × State :=
  let x := s.trg t
  let none' (held : Bool) (s' : State) : PopResult × State := (⟨false, TWord.zero, false, held, x.vis⟩, s')
  if !s.popAllowed a t then none' false (s.put F.TRG_STATUS_REFUSED_ACCESS t 1)
  else if !s.trgOn t || s.trgAsleep t then none' false s
  else if x.holder.isSome && x.holder != some a then none' true s
  else if x.vis = 0 then none' false s
  else
    let w := s.visWord t 0
    let poison := w.bad || e == .double
    let s1 := (s.noteHead t).advance t 1
    let s2 := s1.setTrg t { s1.trg t with
      holder := if w.eop then none else if w.sop || x.holder.isSome then some a else none }
    let s3 := if poison then (s2.inc F.TRG_COUNT_POISON_POPS t).inc F.TRG_ECC_POISON_POPS
      else if e = .single then (s2.inc F.TRG_COUNT_ECC_CORR t).inc F.TRG_ECC_CORR else s2
    (⟨true, w, poison, false, x.vis - 1⟩, s3.trgThresh t x.vis)

/-- Words of the item at the head: up to and including its EOP. -/
def State.headLen (s : State) (t : Nat) : Nat → Nat → Nat
  | 0, k => k
  | fuel + 1, k => if (s.trg t).vis ≤ k then k else if (s.visWord t k).eop then k + 1 else s.headLen t fuel (k + 1)

/-- A consumer pops the item at the head as one burst: its words, whether it is a gap marker, whether any word is poisoned. -/
structure Item where
  words : List Word
  gap : Bool
  poison : Bool
deriving DecidableEq, Repr

/-- The item at the head of the queue, if a burst consumer may take one. -/
def State.headItem (s : State) (t : Nat) : Option Item :=
  let x := s.trg t
  if !s.trgOn t || s.trgAsleep t || x.holder.isSome || x.vis = 0 then none
  else
    let n := s.headLen t x.vis 0
    let ws := (List.range n).map fun k => s.visWord t k
    some ⟨ws.map (·.data), (s.visWord t 0).gap, ws.any (·.bad)⟩

/-- The item at the head leaves the queue, its watermark left to the agent that takes it (R711: the sluice; R712: trimming). -/
def State.dropQuiet (s : State) (t : Nat) : State :=
  let x := s.trg t
  let n := s.headLen t x.vis 0
  let bad := ((List.range n).filter fun k => (s.visWord t k).bad).length
  (((s.advance t n).addSat F.TRG_COUNT_POISON_POPS t bad).addSat F.TRG_ECC_POISON_POPS 0 bad).trgThresh t x.vis

/-- The item at the head leaves the queue. -/
def State.dropHead (s : State) (t : Nat) : State := (s.noteHead t).dropQuiet t

/-- A holder loses its hold and the rest of its packet is discarded (R384). -/
def State.loseHold (s : State) (t : Nat) : State :=
  let x := s.trg t
  if x.holder.isSome then
    let n := s.headLen t x.vis 0
    let s1 := s.advance t n
    ((s1.setTrg t { s1.trg t with holder := none }).inc F.TRG_COUNT_PKT_ABORTS t).trgThresh t x.vis
  else s

/-- Everything in the queue is discarded, no marker is written and any hold is released (R385). -/
def State.emptyTrg (s : State) (t : Nat) : State := s.setTrg t Trough.zero

/-- Pushes that waited for the open packet meet the trough as a flush or a disable left it. -/
def State.runWaiting (s : State) (t : Nat) (w : List WaitItem) : State :=
  w.foldl (fun a x =>
    let code := if !a.trgOn t then 2 else if a.burstFits t x.words.length then 0 else 1
    let b := a.pushItem t x.words
    match x.groom with
    | none => b
    | some g => b.groomPushed g code) s

/-! ### Access by the engines' rings: pool free lists (R359 to R366) -/

def State.poolOn (s : State) (p : Nat) : Bool := s.isOn F.FEN_POOL_CFG_ENABLE p

def State.poolBase (s : State) (p : Nat) : Nat := s.get F.FEN_POOL_CFG_BASE p * 0x10000

def State.poolBlocks (s : State) (p : Nat) : Nat := s.get F.FEN_POOL_CFG_BLOCKS p

def State.poolEnd (s : State) (p : Nat) : Nat := s.poolBase p + s.poolBlocks p * 0x10000

/-- FREE: the blocks in the pool's free list (R405). -/
def State.poolFree (s : State) (p : Nat) : Nat := (s.trg (144 + p)).vis

/-- FREE has changed: LOW, its alarm and MIN_FREE (R365, Table 8.10). -/
def State.poolWatch (s : State) (p : Nat) : State :=
  let free := s.poolFree p
  let low := decide (free < s.get F.FEN_POOL_LIST_LOW_WATER p)
  let was := s.isOn F.FEN_POOL_STATUS_LOW p
  let s1 := s.put F.FEN_POOL_STATUS_LOW p (b2n low)
  let s2 := if low && !was then
      (s1.inc F.FEN_POOL_COUNT_LOW_EVENTS p).alarm 0x19 (field 0 8 p ||| field 32 21 free) else s1
  if s2.get F.FEN_POOL_STATUS_STATE p = 2 ∧ free < s2.get F.FEN_POOL_STATUS_MIN_FREE p then s2.put F.FEN_POOL_STATUS_MIN_FREE p free
  else s2

/-- A client allocates a block of pool `p` (R362, R363). -/
def State.allocBlock (s : State) (p : Nat) : Option Nat × State :=
  match (if s.poolOn p then s.headItem (144 + p) else none) with
  | none => (none, if s.poolOn p then s.inc F.FEN_POOL_COUNT_EMPTY_POPS p else s)
  | some it =>
      let a := ((it.words.head?).getD 0).toNat
      let s1 := s.dropHead (144 + p)
      let s2 := { s1 with outBits := Tab.set false s1.outBits (a / 0x10000) true }
      (some a, (s2.incWrap F.FEN_POOL_COUNT_ALLOCS p).poolWatch p)

/-- The enabled pool whose range holds address `a`. -/
def State.poolAt (s : State) (a : Nat) : Option Nat :=
  (List.range 256).find? fun p => s.poolOn p && decide (s.poolBase p ≤ a) && decide (a < s.poolEnd p)

/-- A block is released (R364). -/
def State.releaseBlock (s : State) (a : Nat) : State :=
  match s.poolAt a with
  | none => s.inc F.FEN_RELEASE_STATUS_BAD_RELEASE
  | some p =>
      if a % 0x10000 ≠ 0 then s.inc F.FEN_RELEASE_STATUS_BAD_RELEASE
      else if !Tab.get false s.outBits (a / 0x10000) then s.inc F.FEN_RELEASE_STATUS_DOUBLE_RELEASE
      else
        let s1 := { s with outBits := Tab.set false s.outBits (a / 0x10000) false }
        (s1.pushItem (144 + p) [BitVec.ofNat 64 a]).poolWatch p

/-- Whether any block of a pool has its out bit set. -/
def State.poolBusy (s : State) (p : Nat) : Bool :=
  s.outBits.any fun e => e.2 && decide (s.poolBase p ≤ e.1 * 0x10000) && decide (e.1 * 0x10000 < s.poolEnd p)

/-- A pool is disabled: its out bits are cleared, its list discarded and trough 144 + p unconfigured (R366). -/
def State.poolOff (s : State) (p : Nat) : State :=
  let s1 := (s.emptyTrg (144 + p)).rst .TRG_CFG (144 + p) |>.rst .TRG_BASE (144 + p)
  let s2 := { s1 with outBits := s1.outBits.filter fun e =>
    !(decide (s.poolBase p ≤ e.1 * 0x10000) && decide (e.1 * 0x10000 < s.poolEnd p)) }
  (s2.put F.FEN_POOL_STATUS_STATE p 0).put F.FEN_POOL_STATUS_LOW p 0

end Sys2Proof.Machine
end

