-- ==== Sys2Proof/Machine/Fen.lean ====
section
/-! DEFINITION. The fen and the troughs (chapter 8): segment map, protection, pools, trough configuration and doorbells. -/

namespace Sys2Proof.Machine

/-- The outcome of a command: the next state. -/
abbrev Result := Host.Outcome State Fault Refusal

/-! ### Segments (R347 to R350) -/

/-- The staged map. -/
def State.staged (s : State) (k : Nat) : Nat := segOf (fun m => s.rd .FEN_SEG_MAP m) k

/-- A segment code that may be applied (Table 8.1). -/
def segCodeOk (c : Nat) : Bool := c == 0 || c == 1 || (4 ≤ c && c ≤ 7)

/-- Whether the staged map fits the stacks: 4 × P_s + I ≤ 96 for every stack s (R348). -/
def State.segFits (s : State) : Bool :=
  let cs := (List.range 96).map s.staged
  (List.range 4).all fun k => 4 * (cs.filter (· == 4 + k)).length + (cs.filter (· == 0)).length ≤ 96

/-- The ranges that hold a segment in use (R349): enabled pools, enabled far troughs, record buffers of converters not OFF. -/
def State.fenInUse (s : State) : List (Nat × Nat) :=
  ((List.range 256).filter s.poolOn).map (fun p => (s.poolBase p, s.poolEnd p)) ++
  (s.regs.filterMap fun e =>
    let t := e.1 - regKey .TRG_CFG 0
    if regKey .TRG_CFG 0 ≤ e.1 ∧ t < 65536 ∧ s.trgOn t = true ∧ s.trgFar t = true then
      some (s.trgBase t, s.trgBase t + s.trgSize t * 17 / 2) else none) ++
  ((List.range 8).filter fun n =>
      s.get F.ADC_STATUS_STATE n != 0 && 16 ≤ s.get F.ADC_BUF_SIZE_LOG2 n && s.get F.ADC_BUF_SIZE_LOG2 n ≤ 34).map
    fun n => (s.get F.ADC_BUF_BASE n * 0x10000, s.get F.ADC_BUF_BASE n * 0x10000 + 2 ^ s.get F.ADC_BUF_SIZE_LOG2 n)

/-- Whether a range of bytes overlaps segment `k`. -/
def inSegment (k : Nat) (r : Nat × Nat) : Bool := k * 0x40000000 < r.2 && r.1 < (k + 1) * 0x40000000

/-- The segments whose code an APPLY changes. -/
def State.segChanges (s : State) : List Nat :=
  (List.range 96).filter fun k => s.staged k != segOf (fun m => s.rd .FEN_SEG_ACTIVE m) k

/-- An APPLY ends with a result. -/
def State.segResult (s : State) (r bad : Nat) : State :=
  ((s.put F.FEN_SEG_CTRL_RESULT 0 r).put F.FEN_SEG_CTRL_BAD_SEGMENT 0 bad).put F.FEN_SEG_CTRL_APPLY 0 0

/-- A write of 1 to APPLY (R347 to R349, R398): the whole staged map is checked, and then applied or refused whole. An APPLY under way
answers BUSY. -/
def State.segApply (s : State) : State :=
  if s.isOn F.FEN_SEG_CTRL_APPLY then s.put F.FEN_SEG_CTRL_RESULT 0 5
  else match (List.range 96).find? fun k => !segCodeOk (s.staged k) with
    | some k => s.segResult 4 k
    | none =>
        if !s.segFits then s.segResult 2 0
        else match s.segChanges.find? fun k => s.fenInUse.any (inSegment k) with
          | some k => s.segResult 3 k
          | none => (s.put F.FEN_SEG_CTRL_APPLY 0 1).put F.FEN_SEG_CTRL_RESULT 0 5

/-- FEN_SEG_APPLY. -/
def execFenSegApply (s : State) : Result := .next s.segApply

/-- FEN_SEG_APPLY_COMPLETE (R350): every word of each changed segment, other than one made UNUSED, holds 0 with valid check
bits, and the new map is in effect. -/
def execFenSegApplyComplete (s : State) : Result :=
  .next <|
    if s.isOn F.FEN_SEG_CTRL_APPLY then
      let zero := s.segChanges.filter fun k => s.staged k != 1
      let gone (a : Nat) : Bool := zero.any fun k => a / 0x40000000 == k
      let s1 := { s with
        fen := Tab.drop gone s.fen
        fenChk := Tab.drop (fun k => gone (8 * k)) s.fenChk
        fenFix := Tab.drop (fun k => gone (8 * k)) s.fenFix }
      let s2 := (List.range 6).foldl (fun a m => a.wr .FEN_SEG_ACTIVE m (s.rd .FEN_SEG_MAP m)) s1
      s2.segResult 1 0
    else s

/-! ### Protection (R353 to R357) -/

/-- FEN_WORD_READ (R351, R353 to R356): an engine reads a word. `ecc` is what its stored bits hold: a single-bit error is
corrected and its write-back is outstanding; a double-bit error makes the stored word uncorrectable until it is next written. -/
def execFenWordRead (addr : Nat) (ecc : Ecc) (s : State) : Result :=
  .next <|
    let a := addr / 8 * 8
    if !s.fenUsable a then s.inc F.FEN_SCRUB_COUNT_BAD_ADDR
    else match ecc with
      | .double => { (s.fenUe a) with fenChk := Tab.set 0 s.fenChk (a / 8) 2 }
      | .single =>
          if s.fenCheck a = 0 then
            let s1 := s.inc F.FEN_ECC_CORR
            { s1 with fenFix := Tab.insert (a / 8) (s.fenWord a) (Tab.erase (a / 8) s1.fenFix) }
          else (s.engineRead a).2.2
      | .clean => (s.engineRead a).2.2

/-- FEN_CORRECTION_WRITEBACK (R356): the corrected word is written back only if no client has written its 64-byte unit since. -/
def execFenCorrectionWriteback (addr : Nat) (written : Bool) (s : State) : Result :=
  .next <|
    let k := addr / 8
    match s.fenFix.find? (fun e => e.1 == k) with
    | none => s
    | some e =>
        if written then { s with fenFix := Tab.erase k s.fenFix } else s.fenStore (8 * k) e.2 false

/-- FEN_PARTIAL_WRITE (R346, R354): the enabled bytes of one word are written. -/
def execFenPartialWrite (addr : Nat) (data : Word) (be : BitVec 8) (ecc : Ecc) (s : State) : Result :=
  .next <|
    let a := addr / 8 * 8
    if !s.fenUsable a then s.inc F.FEN_SCRUB_COUNT_BAD_ADDR
    else if be = 0 then s
    else
      let s1 := match ecc with
        | .double => if be = 0xFF then s else { s with fenChk := Tab.set 0 s.fenChk (a / 8) 2 }
        | .single => if be = 0xFF then s else s.inc F.FEN_ECC_CORR
        | .clean => s
      s1.fenMerge a data be false

/-- FEN_SCRUB_CNT_CLEAR (R400). -/
def execFenScrubCntClear (s : State) : Result := .next ((s.rst .FEN_ECC).rst .FEN_SCRUB_COUNT)

/-! ### Pools (R358 to R366) -/

/-- log2 of a pool's list size: the larger of 1,024 and the smallest power of two above BLOCKS (R361). -/
def listLog2 (blocks : Nat) : Nat := max 10 (Nat.log2 blocks + 1)

/-- Whether two ranges overlap. -/
def overlaps (a b : Nat × Nat) : Bool := a.1 < b.2 && b.1 < a.2

/-- The storage of the enabled far troughs but `t`. -/
def State.farRanges (s : State) (t : Nat) : List (Nat × Nat) :=
  s.regs.filterMap fun e =>
    let u := e.1 - regKey .TRG_CFG 0
    if regKey .TRG_CFG 0 ≤ e.1 ∧ u < 65536 ∧ u ≠ t ∧ s.trgOn u = true ∧ s.trgFar u = true then
      some (s.trgBase u, s.trgBase u + s.trgSize u * 17 / 2) else none

/-- The ranges of the enabled pools but `p`. -/
def State.poolRanges (s : State) (p : Nat) : List (Nat × Nat) :=
  ((List.range 256).filter fun q => q != p && s.poolOn q).map fun q => (s.poolBase q, s.poolEnd q)

/-- Why enabling pool `p`, as its registers now stand, is refused: a REJECT_CODE, or 0 (R360). -/
def State.poolReject (s : State) (p : Nat) : Nat :=
  let r := (s.poolBase p, s.poolEnd p)
  let n := 2 ^ listLog2 (s.poolBlocks p)
  let lb := s.get F.FEN_POOL_LIST_LIST_BASE p * 64
  let l := (lb, lb + n * 17 / 2)
  let pinned := s.isOn F.FEN_POOL_CFG_PINNED p
  let stack := s.get F.FEN_POOL_CFG_STACK p
  if s.poolBlocks p = 0 ∨ fenEnd < r.2 ∨ r.1 < poolRecordEnd then 1
  else if (s.poolRanges p ++ s.farRanges (144 + p)).any (overlaps r) then 2
  else if !s.segsAll r.1 r.2 (fun c => if pinned then c == 4 + stack else c == 0) then 3
  else if fenEnd < l.2 ∨ l.1 < poolRecordEnd ∨ (r :: s.poolRanges p).any (overlaps l) ∨
      !s.segsAll l.1 l.2 (fun c => c != 1) then 5
  else 0

/-- The fields of a FEN_POOL_CFG write, ENABLE and FORCE apart. -/
def poolCfgMask : Word := fieldMask 1 3 ||| fieldMask 16 21 ||| fieldMask 38 21

/-- The bits of FEN_POOL_CFG a write stores (FORCE is WO). -/
def poolCfgOf (v : Word) : Word := v &&& (poolCfgMask ||| 1)

def State.poolRefuse (s : State) (p code : Nat) : State :=
  (s.put F.FEN_POOL_STATUS_CFG_REJECTED p 1).put F.FEN_POOL_STATUS_REJECT_CODE p code

/-- A write that clears ENABLE, or sets FORCE, while the pool is enabled (R366, R403). -/
def State.poolDisable (s : State) (p : Nat) (v : Word) (force : Bool) : State :=
  if !force && s.poolBusy p then s.poolRefuse p 4
  else
    let s1 := s.poolOff p
    let s2 := s1.wr .FEN_POOL_CFG p (poolCfgOf v &&& ~~~1)
    if force then s2.countEvent 6 else s2

/-- A write to FEN_POOL_CFG (R360 to R366, R403). -/
def State.poolCfgWrite (s : State) (p : Nat) (v : Word) : State :=
  let force := bit v 4
  if s.poolOn p then
    if force then s.poolDisable p v true
    else if !bit v 0 then s.poolDisable p v false
    else if (v ^^^ s.rd .FEN_POOL_CFG p) &&& poolCfgMask = 0 then s
    else s.put F.FEN_POOL_STATUS_CFG_REJECTED p 1
  else
    let s1 := s.wr .FEN_POOL_CFG p (poolCfgOf v &&& ~~~1)
    if !bit v 0 ∨ force then s1
    else match s1.poolReject p with
      | 0 =>
          let lg := listLog2 (s1.poolBlocks p)
          let t := 144 + p
          let s2 := (s1.put F.FEN_POOL_CFG_ENABLE p 1).emptyTrg t
          let s3 := ((s2.put F.TRG_CFG_LOCATION t 1).put F.TRG_CFG_SIZE_LOG2 t lg).put F.TRG_CFG_ENABLE t 1
          let s4 := s3.put F.TRG_BASE_BASE t (s1.get F.FEN_POOL_LIST_LIST_BASE p * 64)
          let s5 := ((s4.put F.FEN_POOL_STATUS_STATE p 1).put F.FEN_POOL_COUNT_ALLOCS p 0).put
            F.FEN_POOL_COUNT_EMPTY_POPS p 0
          (s5.put F.FEN_POOL_STATUS_REJECT_CODE p 0).poolWatch p
      | code => s1.poolRefuse p code

/-- POOL_ENABLE (R360 to R362). -/
def execPoolEnable (p : Fin 256) (v : Word) (s : State) : Result := .next (s.poolCfgWrite p.val (v ||| 1))

/-- Block addresses pushed to a free list in ascending order. -/
def State.fillList (s : State) (t a : Nat) : Nat → State
  | 0 => s
  | n + 1 => State.fillList (s.pushItem t [BitVec.ofNat 64 a]) t (a + 0x10000) n

/-- POOL_FILL_COMPLETE (R362): every block address has been pushed, in ascending order. -/
def execPoolFillComplete (p : Fin 256) (s : State) : Result :=
  .next <|
    if s.poolOn p && s.get F.FEN_POOL_STATUS_STATE p == 1 then
      let s1 := s.fillList (144 + p) (s.poolBase p) (s.poolBlocks p)
      let s2 := (s1.put F.FEN_POOL_STATUS_STATE p 2).put F.FEN_POOL_STATUS_MIN_FREE p (s1.poolFree p)
      s2.poolWatch p
    else s

/-- POOL_DISABLE (R366, R403). -/
def execPoolDisable (p : Fin 256) (v : Word) (s : State) : Result := .next (s.poolCfgWrite p.val (v &&& ~~~0x11#64))

/-- POOL_FORCE (R366, R403). -/
def execPoolForce (p : Fin 256) (v : Word) (s : State) : Result := .next (s.poolCfgWrite p.val (v ||| 0x10))

/-- POOL_RELEASE (R364, R401): FEN_POOL_RELEASE names the block by address bits [36:16]. -/
def execPoolRelease (v : Word) (s : State) : Result := .next (s.releaseBlock (F.FEN_POOL_RELEASE_BLOCK.of v * 0x10000))

/-! ### Trough configuration (R368 to R374, R391, R406) -/

/-- Why enabling trough `t`, as its registers now stand, is refused: a REJECT_CODE, or 0 (R372). `mgmt`: the yardmaster. -/
def State.trgReject (s : State) (t : Nat) (yardmaster : Bool) : Nat :=
  let lg := s.get F.TRG_CFG_SIZE_LOG2 t
  let sz := 2 ^ lg
  let b := s.trgBase t
  if s.trgFar t then
    let r := (b, b + sz * 17 / 2)
    if lg < 10 ∨ 28 < lg then 1
    else if b % 64 ≠ 0 then 2
    else if fenEnd < r.2 ∨ r.1 < poolRecordEnd ∨ !s.segsAll r.1 r.2 (fun c => c != 1) then 3
    else if (s.poolRanges 256).any (overlaps r) then 4
    else 0
  else
    let others := s.regs.filterMap fun e =>
      let u := e.1 - regKey .TRG_CFG 0
      if regKey .TRG_CFG 0 ≤ e.1 ∧ u < 65536 ∧ u ≠ t ∧ s.trgOn u = true ∧ s.trgFar u = false then
        some (s.trgBase u, s.trgBase u + s.trgSize u) else none
    if lg < 4 ∨ 16 < lg then 1
    else if b % sz ≠ 0 then 2
    else if 262144 < b + sz ∨ (!yardmaster ∧ b < 16384) then 3
    else if others.any (overlaps (b, b + sz)) then 4
    else 0

def State.trgRefuse (s : State) (t code : Nat) : State :=
  (s.put F.TRG_STATUS_CFG_REJECTED t 1).put F.TRG_STATUS_REJECT_CODE t code

/-- A trough that hardware configures: host writes of TRG_CFG and TRG_BASE are refused whole (R372). -/
def trgReserved (t : Nat) : Bool := t < 16 || (144 ≤ t && t < 400)

/-- A write to TRG_CFG (R372, R391). -/
def State.trgCfgWrite (s : State) (t : Nat) (v : Word) : State :=
  let w := v &&& fieldMask 0 19
  if trgReserved t then s.trgRefuse t 5
  else if s.trgOn t then
    if !bit v 0 then
      (((s.emptyTrg t).wr .TRG_CFG t w).put F.TRG_STATUS_THR_ARMED t 1).runWaiting t (s.trg t).waiting
    else if (v ^^^ s.rd .TRG_CFG t) &&& fieldMask 1 6 = 0 then s.wr .TRG_CFG t w
    else s.trgRefuse t 6
  else
    let s1 := s.wr .TRG_CFG t (w &&& ~~~1)
    if !bit v 0 then s1
    else match s1.trgReject t false with
      | 0 => (s1.emptyTrg t).put F.TRG_CFG_ENABLE t 1
      | code => s1.trgRefuse t code

/-- A write to TRG_BASE (R372). -/
def State.trgBaseWrite (s : State) (t : Nat) (v : Word) : State :=
  if trgReserved t then s.trgRefuse t 5
  else if s.trgOn t then s.trgRefuse t 6
  else s.wr .TRG_BASE t (v &&& fieldMask 0 37)

/-- A write to TRG_THRESH: the threshold is armed while the depth is at or below LEVEL (R387). -/
def State.trgThreshWrite (s : State) (t : Nat) (v : Word) : State :=
  let s1 := s.wr .TRG_THRESH t (v &&& fieldMask 0 29)
  s1.put F.TRG_STATUS_THR_ARMED t (b2n (decide ((s1.trg t).vis ≤ s1.get F.TRG_THRESH_LEVEL t)))

/-- TROUGH_ENABLE (R372). -/
def execTroughEnable (t : Fin 65536) (v : Word) (s : State) : Result := .next (s.trgCfgWrite t.val (v ||| 1))

/-- TROUGH_DISABLE (R372, R391). -/
def execTroughDisable (t : Fin 65536) (v : Word) (s : State) : Result := .next (s.trgCfgWrite t.val (v &&& ~~~1))

/-- Flush of a trough that is enabled (R385). -/
def State.trgFlush (s : State) (t : Nat) : State :=
  let before := (s.trg t).vis
  (((s.emptyTrg t).inc F.TRG_COUNT_FLUSHES t).trgThresh t before).runWaiting t (s.trg t).waiting

/-- TRG_FLUSH (R385). -/
def execTrgFlush (t : Fin 65536) (s : State) : Result := .next (s.trgFlush t.val)

/-- TRG_CNT_CLEAR (R407). -/
def execTrgCntClear (t : Fin 65536) (s : State) : Result := .next ((s.rst .TRG_COUNT t.val).rst .TRG_DROPS t.val)

/-! ### Doorbells (R409, R410) -/

/-- The agent of a function. -/
def fnAgent (fn : Nat) : Agent := if fn = 0 then .pf0 else .pf1

/-- PUSH. -/
def execPush (fn : Fin 2) (t : Fin 65536) (w : Word) (poisoned : Bool) (s : State) : Result :=
  .next (s.pushWord (fnAgent fn.val) t.val .single w poisoned)

/-- PUSH_SOP. -/
def execPushSop (fn : Fin 2) (t : Fin 65536) (w : Word) (poisoned : Bool) (s : State) : Result :=
  .next (s.pushWord (fnAgent fn.val) t.val .sop w poisoned)

/-- PUSH_MID. -/
def execPushMid (fn : Fin 2) (t : Fin 65536) (w : Word) (poisoned : Bool) (s : State) : Result :=
  .next (s.pushWord (fnAgent fn.val) t.val .mid w poisoned)

/-- PUSH_EOP. -/
def execPushEop (fn : Fin 2) (t : Fin 65536) (w : Word) (poisoned : Bool) (s : State) : Result :=
  .next (s.pushWord (fnAgent fn.val) t.val .eop w poisoned)

/-- PUSH_ABORT. -/
def execPushAbort (fn : Fin 2) (t : Fin 65536) (s : State) : Result := .next (s.pushAbort (fnAgent fn.val) t.val)

/-- A completion of a host read with eight bytes of data. -/
def State.answer (s : State) (fn : Nat) (w : Word) : State := s.emit (.completion fn 0 (bytesOfNat 8 w.toNat) false)

/-- A pop through the POP doorbell: its status word, and the state after, with the data held for POP_DATA (R409, R410). -/
def State.popDoorbell (s : State) (fn t : Nat) (e : Ecc) : Word × State :=
  let (r, s1) := s.popWord (fnAgent fn) t e
  let f := s1.func fn
  (r.status, s1.setFunc fn { f with popData := if r.valid then r.word.data else 0 })

/-- POP. -/
def execPop (fn : Fin 2) (t : Fin 65536) (ecc : Ecc) (s : State) : Result :=
  let (w, s1) := s.popDoorbell fn.val t.val ecc
  .next (s1.answer fn.val w)

/-- POP_DATA. -/
def execPopData (fn : Fin 2) (s : State) : Result := .next (s.answer fn.val (s.func fn.val).popData)

/-- TRG_DEPTH as it reads (R375, R407). -/
def State.trgDepth (s : State) (t : Nat) : Word :=
  let x := s.trg t
  field 0 29 x.vis ||| field 32 29 (x.vis + x.openLen) ||| field 61 1 (b2n x.openBy.isSome) |||
    field 62 1 (b2n x.holder.isSome) ||| field 63 1 (b2n (x.gaps != 0))

/-- DEPTH. -/
def execDepth (fn : Fin 2) (t : Fin 65536) (s : State) : Result := .next (s.answer fn.val (s.trgDepth t.val))

/-- PACKET_TIMEOUT (R383): an open packet gets no word for PKT_TIMEOUT. -/
def execPacketTimeout (t : Fin 65536) (s : State) : Result :=
  .next <|
    let before := (s.trg t).vis
    if (s.trg t).openBy.isSome then ((s.rewind t true).afterOpen t).trgThresh t before else s

/-- POP_HOLD_TIMEOUT (R384): a holder pops no word for PKT_TIMEOUT. -/
def execPopHoldTimeout (t : Fin 65536) (s : State) : Result := .next (s.loseHold t.val)

end Sys2Proof.Machine
end

