-- ==== Sys2Proof/Machine/Yard.lean ====
section
/-! DEFINITION. The yard (chapter 13): producers, channels, consumers, ownership, and the trace tap. -/

namespace Sys2Proof.Machine

/-! ### Routing (R596 to R606) -/

/-- Whether producer `p` drives channel `c` (R598). -/
def State.prodDrives (s : State) (p c : Nat) : Bool := bit (s.rd .YARD_PROD_EN (4 * p + c / 64)) (c % 64)

/-- Whether channel `c` drives consumer `q` (R598). -/
def State.consDriven (s : State) (c q : Nat) : Bool := bit (s.rd .YARD_CONS_EN (4 * q + c / 64)) (c % 64)

/-- An event on a channel: the channel, its lowest producer, the earliest tick, and how many events it combines (R600). -/
structure ChEvent where
  ch : Nat
  producer : Nat
  tick : Nat
  n : Nat
deriving DecidableEq, Repr

/-- The earliest of the ticks of some events. -/
def earliest : List YEvent → Nat
  | [] => 0
  | e :: es => es.foldl (fun t x => min t x.tick) e.tick

/-- The event that the entering events make on channel `c`, if any (R598, R600). -/
def State.chEvent (s : State) (es : List YEvent) (c : Nat) : Option ChEvent :=
  let on := es.filter fun e => s.prodDrives e.id c
  match on with
  | [] => none
  | e :: r => some ⟨c, r.foldl (fun p x => min p x.id) e.id, earliest on, on.length⟩

/-- The trace tap pushes an entry for the first traced channel event of the cycle; the others are dropped under R377, and a
frozen tap counts entries at or after its tick instead (R736, R737). -/
def State.traceTap (s : State) (cs : List ChEvent) : State :=
  let on := cs.filter fun c => bit (s.rd .TRACE_CH_MASK (c.ch / 64)) (c.ch % 64)
  let live := on.filter fun c => !(s.isOn F.LOG_STATUS_TRACE_FROZEN && decide (s.mgmt.freezeTick ≤ c.tick))
  let s1 := s.addSat F.LOG_STATUS_FROZEN_DROPS 0 (on.length - live.length)
  match live with
  | [] => s1
  | c :: rest =>
      let w : Word := field 0 8 0x0D ||| field 8 8 c.ch ||| field 16 9 c.producer
      let s2 := s1.pushItem 3 [w, BitVec.ofNat 64 c.tick]
      if s2.trgOn 3 then rest.foldl (fun a _ => a.dropItem 3) s2 else s2

/-- The channel stage counts an event (R600, Table 13.8, Table 13.9). -/
def State.chCount (s : State) (c : ChEvent) : State :=
  let s1 := s.incWrap F.YARD_CH_COUNT_EVENTS c.ch
  let s2 := s1.addSat F.YARD_CH_COUNT_COALESCED c.ch (c.n - 1)
  (s2.put F.YARD_CH_CFG_LAST_PRODUCER c.ch c.producer).wr .YARD_CH_LAST c.ch (BitVec.ofNat 64 c.tick)

/-- Whether consumer `q` ignores every event (R603: its own enable is 0; R605: its mode powers it down; reserved). -/
def State.consDeaf (s : State) (q : Nat) : Bool :=
  if q < 31 then !s.isOn F.OUT_CFG_CONS_EN q
  else if q = 31 then true
  else if q < 288 then false
  else if q < 304 then false
  else if q < 312 then s.get F.ADC_STATUS_STATE (q - 304) == 0
  else if q < 376 then !s.isOn F.LATCH_CFG_ENABLE (q - 312)
  else if q < 392 then !s.isOn F.HIRQ_SRC_CFG_ENABLE (q - 376)
  else true

/-- Events delivered to consumer `q` on which it has not yet acted. -/
def State.waitingAt (s : State) (q : Nat) : Nat := (s.yard.delivered.filter fun e => e.id == q).length

/-- Whether consumer `q` is busy (Table 13.4); an event already delivered to it occupies the place it will take. -/
def State.consBusy (s : State) (q : Nat) : Bool :=
  if q < 32 then false
  else if q < 288 then
    (Tab.get Groom.zero s.grooms ((q - 32) / 16)).evpend.getLsbD ((q - 32) % 16) || 0 < s.waitingAt q
  else if q < 304 then 4 ≤ ((Tab.get Stall.zero s.stalls (q - 288)).trigs.filter (·.yard)).length + s.waitingAt q
  else if q < 312 then 2 ≤ s.get F.ADC_STATUS_STATE (q - 304) || 0 < s.waitingAt q
  else if q < 376 then
    !s.isOn F.LATCH_CFG_KEEP_LAST (q - 312) && (s.isOn F.LATCH_STATUS_VALID (q - 312) || 0 < s.waitingAt q)
  else if q < 392 then bit (s.rd .HIRQ_SRC_PENDING) (q - 376) || 0 < s.waitingAt q
  else false

/-- A consumer receives the events of the channels that drive it, combined into one with the earliest tick (R600, R603). -/
def State.consStage (s : State) (cs : List ChEvent) (q : Nat) : State :=
  let on := cs.filter fun c => s.consDriven c.ch q
  match on with
  | [] => s
  | c :: r =>
      if s.consDeaf q then s
      else
        let t := r.foldl (fun t x => min t x.tick) c.tick
        let s1 := if s.consBusy q then
            let m := q / 64
            (s.wr .YARD_OVERRUN m (s.rd .YARD_OVERRUN m ||| (1#64 <<< (q % 64)))).inc F.YARD_GLOBAL_OVERRUNS
          else s
        { s1 with yard := { s1.yard with delivered := s1.yard.delivered ++ [⟨q, t⟩] } }

/-- The first raised event of each producer named, and what stays raised. -/
def takeRaised : List Nat → List YEvent → List YEvent × List YEvent
  | [], r => ([], r)
  | p :: ps, r =>
      match r.find? (fun e => e.id == p) with
      | none => takeRaised ps r
      | some e =>
          let (es, r') := takeRaised ps (r.erase e)
          (e :: es, r')

/-- The events that enter the producer stage in one cycle pass the channel and consumer matrices (Table 13.2). -/
def State.yardCycle (s : State) (es : List YEvent) : State :=
  let cs := (List.range 256).filterMap (s.chEvent es)
  let s1 := cs.foldl State.chCount s
  let s2 := s1.traceTap cs
  (List.range 392).foldl (fun a q => a.consStage cs q) s2

/-- Whether producer `p`'s events carry a tick of their own; the others carry their entry tick (Table 13.1). -/
def prodStamped (p : Nat) : Bool := p < 64 || (144 ≤ p && p < 400) || p == 432 || p == 433 || p == 435

/-- YARD_PRODUCER_EVENT (R597 to R606, R736): the named producers' oldest raised events enter the producer stage together. -/
def execYardProducerEvent (ps : List (Fin 512)) (s : State) : Result :=
  .next <|
    let (es, r) := takeRaised (ps.map (·.val)).dedup s.yard.raised
    let on := es.map fun e => if prodStamped e.id then e else { e with tick := s.now }
    { s with yard := { s.yard with raised := r } }.yardCycle on

/-! ### Ownership (R607 to R611) -/

/-- The writer number of a function (R608). -/
def writerOf (fn : Nat) : Nat := if fn = 0 then 1 else 18

/-- Whether a writer may change channel `c` (R609). -/
def State.mayChange (s : State) (writer c : Nat) : Bool :=
  !s.isOn F.YARD_CH_CFG_SECURED c || writer == 0 || writer == s.get F.YARD_CH_CFG_OWNER c

/-- A refused change of channel `c` is counted (R607, R610). -/
def State.denied (s : State) (c : Nat) : State :=
  ((s.put F.YARD_CH_CFG_DENIED c 1).inc F.YARD_CH_COUNT_DENIED_WRITES c).inc F.YARD_GLOBAL_DENIED_TOTAL

/-- The bits of word `m` of a row that a writer may change. -/
def State.rowMask (s : State) (writer m : Nat) : Word :=
  (List.range 64).foldl (fun w k => if s.mayChange writer (64 * m + k) then w ||| (1#64 <<< k) else w) 0

/-- A write of `v` to word `m` of an enable row (R610); rows of the reserved producers and consumers are RSVD (R613). -/
def State.rowWrite (s : State) (writer : Nat) (cons : Bool) (row m : Nat) (v : Word) : State :=
  let r := if cons then Reg.YARD_CONS_EN else Reg.YARD_PROD_EN
  if (if cons then 392 ≤ row else 464 ≤ row) then s
  else
    let old := s.rd r (4 * row + m)
    let mask := s.rowMask writer m
    let bad := (v ^^^ old) &&& ~~~mask
    let s1 := s.wr r (4 * row + m) ((old &&& ~~~mask) ||| (v &&& mask))
    (List.range 64).foldl (fun a k => if bit bad k then a.denied (64 * m + k) else a) s1

/-- YARD_ENABLE_WRITE. -/
def execYardEnableWrite (fn : Fin 2) (cons : Bool) (row : Fin 512) (m : Fin 4) (v : Word) (s : State) : Result :=
  .next (s.rowWrite (writerOf fn.val) cons row.val m.val v)

/-- A write of YARD_CH_CFG (R607, R609, R610): OWNER and SECURED change together or not at all; DENIED is RW1C. A write that
keeps both of a channel its writer may not change is no change, so it is not refused. -/
def State.chCfgWrite (s : State) (writer c : Nat) (v : Word) : State :=
  let owner := F.YARD_CH_CFG_OWNER.of v
  let same := decide (bits (v ^^^ s.rd .YARD_CH_CFG c) 0 6 = 0)
  if 19 ≤ owner then s.denied c
  else if !s.mayChange writer c && !same then s.denied c
  else
    let s1 := (s.put F.YARD_CH_CFG_OWNER c owner).put F.YARD_CH_CFG_SECURED c (F.YARD_CH_CFG_SECURED.of v)
    if bit v 6 then s1.put F.YARD_CH_CFG_DENIED c 0 else s1

/-- YARD_CH_CFG_WRITE. -/
def execYardChCfgWrite (fn : Fin 2) (c : Fin 256) (v : Word) (s : State) : Result :=
  .next (s.chCfgWrite (writerOf fn.val) c.val v)

/-- YARD_CNT_CLEAR (R617): YARD_GLOBAL and every YARD_CH_COUNT are cleared. -/
def State.yardCntClear (s : State) : State := s.rstWhere fun r => r == .YARD_GLOBAL || r == .YARD_CH_COUNT

def execYardCntClear (s : State) : Result := .next s.yardCntClear

end Sys2Proof.Machine
end

