-- ==== Sys2Proof/Machine/Retain.lean ====
section
/-! DEFINITION. The retention island (R69 to R79), and the boot images (R61 to R68). -/

namespace Sys2Proof.Machine

/-! ### Retention memory and seal -/

/-- A byte of the retention memory. -/
def Retention.byte (r : Retention) (a : Nat) : Byte := Tab.get 0 r.mem a

def Retention.bytes (r : Retention) (a n : Nat) : List Byte := (List.range n).map fun k => r.byte (a + k)

/-- A number held in the retention memory, lowest byte first. -/
def Retention.nat (r : Retention) (a n : Nat) : Nat := natOfBytes (r.bytes a n)

/-- Bytes stored in a byte table. -/
def putBytes (m : Tab Byte) (d : Byte) (a : Nat) : List Byte → Tab Byte
  | [] => m
  | b :: bs => putBytes (Tab.set d m a b) d (a + 1) bs

/-- SEAL_CRC over the GENERATION bytes and the 4,096 bytes of memory (R71). -/
def Retention.sealCrc (r : Retention) (gen : Nat) : Nat := crc16 (bytesOfNat 2 gen ++ r.bytes 0 4096)

/-- The seal is valid when GENERATION is non-zero and SEAL_CRC matches (R71). -/
def Retention.sealValid (r : Retention) : Bool :=
  let gen := r.sealWord / 65536
  gen != 0 && r.sealCrc gen == r.sealWord % 65536

/-- GENERATION advanced by 1, from 0xFFFF to 0x0001 (R72). -/
def nextGeneration (g : Nat) : Nat := if 65535 ≤ g then 1 else g + 1

/-- One step of the sequencer: the data is written, GENERATION advances, SEAL_CRC is recomputed and the seal written (R72). -/
def Retention.step (r : Retention) (w : RetWrite) : Retention :=
  let m := w.parts.foldl (fun m p => putBytes m 0 p.1 p.2) r.mem
  let r1 := { r with mem := m }
  let g := nextGeneration (r.sealWord / 65536)
  { r1 with sealWord := g * 65536 + r1.sealCrc g }

/-- A write handed to the retention sequencer. -/
def State.retain (s : State) (parts : List (Nat × List Byte)) : State :=
  { s with ret := { s.ret with queue := s.ret.queue ++ [⟨parts⟩] } }

/-- The memory as it will stand once the queued writes are made. -/
def Retention.ahead (r : Retention) : Retention := r.queue.foldl Retention.step { r with queue := [] }

/-- RETENTION_SEQUENCER_STEP (R72): the oldest accepted write is made in one step. -/
def execRetentionSequencerStep (s : State) : Result :=
  .next <| match s.ret.queue with
    | [] => s
    | w :: ws => { s with ret := { (s.ret.step w) with queue := ws } }

/-- RETENTION_SOFTWARE_WRITE (R79): only PF1, at offsets 0x800 to 0xFFF, reaches the memory; any other write is ignored. -/
def execRetentionSoftwareWrite (off : Nat) (bytes : List Byte) (s : State) : Result :=
  .next <| if 0x800 ≤ off ∧ off + bytes.length ≤ 0x1000 ∧ bytes ≠ [] then s.retain [(off, bytes)] else s

/-- BACKUP_COUNTER_STEP (R74): at a 32.768 kHz edge the counter advances by 30 or 31 µs, on VBAT or while it carries the count
through a fundamental reset. -/
def execBackupCounterStep (s : State) : Result :=
  .next <|
    if !s.power.vddAon && s.ctl.mode != .off || s.ret.carrying then
      let sum := s.ret.acc + 16960
      if 32768 ≤ sum then { s with ret := { s.ret with acc := sum - 32768, backup := s.ret.backup + 31 } }
      else { s with ret := { s.ret with acc := sum, backup := s.ret.backup + 30 } }
    else s

/-- The backup counter is loaded with the time base divided by 4,000 and its accumulator cleared (R75). -/
def State.loadBackup (s : State) : State := { s with ret := { s.ret with backup := s.now / 4000, acc := 0 } }

/-! ### Boot images (R61 to R68) -/

/-- A byte of the boot flash; an erased byte reads 0xFF (PRESUMED: NOR flash). -/
def Boot.byte (b : Boot) (a : Nat) : Byte := Tab.get 0xFF b.flash a

def Boot.bytes (b : Boot) (a n : Nat) : List Byte := (List.range n).map fun k => b.byte (a + k)

def Boot.nat (b : Boot) (a n : Nat) : Nat := natOfBytes (b.bytes a n)

/-- The flash offset of an image slot (R61). -/
def slotBase (k : Nat) : Nat := k * 0x2000000

/-- SEQUENCE of the image in a slot (Table 2.9). -/
def Boot.sequence (b : Boot) (k : Nat) : Nat := b.nat (slotBase k + 0x008) 8

/-- The checks of an image in the order of Table 2.10: the result code (R64). `readErr`: the flash read ended with an error. -/
def State.checkImage (s : State) (k : Nat) (readErr : Bool) : Nat :=
  let b := s.boot
  let a := slotBase k
  let len := b.nat (a + 0x014) 4
  let key := b.nat (a + 0x011) 1
  let payload := b.bytes (a + 0x1000) len
  let digest := Config.sha384 (b.bytes a 0x40 ++ payload)
  let pub := b.bytes (a + 0x0A0) 96
  let be (o n : Nat) : Nat := natOfBytesBE (b.bytes (a + o) n)
  if readErr then 0x8
  else if b.nat a 4 ≠ 0x4E454652 ∨ b.nat (a + 4) 4 ≠ 1 then 0x1
  else if b.sequence k = 0 ∨ len < 4 ∨ 33550336 < len ∨ len % 4 ≠ 0 then 0x2
  else if 3 < key ∨ 64 < b.nat (a + 0x010) 1 ∨ b.nat (a + 0x012) 2 / 2 ≠ 0 then 0x9
  else if crc32c (b.bytes a 0x20 ++ payload) ≠ b.nat (a + 0x020) 4 then 0x6
  else if b.nat (a + 0x010) 1 < s.fuses.rollback then 0x3
  else if (s.fuses.keys[key]?).getD [] = [] ∨ Config.sha384 pub ≠ natOfBytesBE ((s.fuses.keys[key]?).getD []) then 0x4
  else if (s.fuses.revoked[key]?).getD false then 0x5
  else if !Config.ecdsaVerify digest (be 0x40 48) (be 0x70 48) (be 0xA0 48) (be 0xD0 48) then 0x7
  else 0x0

/-- Whether the device is in the HOLD of BOOT_NO_IMAGE, or entering it (R66). -/
def State.noImage (s : State) : Bool := s.get F.DEV_HOLD_CAUSE_HOLD_CODE == 1 && s.boot.running.isNone

/-- Whether the image's yardmaster firmware runs (R724). -/
def State.firmware (s : State) : Bool :=
  s.boot.running.isSome && s.ctl.mode != .reset && s.ctl.mode != .boot && s.ctl.mode != .keep && s.ctl.mode != .off

end Sys2Proof.Machine
end

