-- ==== Sys2Proof/Machine/Mgmt.lean ====
section
/-! DEFINITION. The management plane (chapter 17): alarms, fault, event and trace logs, telemetry, in-service test, SMBus, UART,
JTAG, and the flash and security block. -/

namespace Sys2Proof.Machine

/-! ### Alarms (R728 to R733) -/

/-- Data bits of an alarm that are kept in the retention memory: [55:0] (Table 2.12). -/
def retainedData (w : Word) : List Byte := bytesOfNat 7 w.toNat

/-- An alarm is written to the retention memory: the oldest of 32 entries is overwritten (Table 2.12). -/
def State.retainAlarm (s : State) (a : Alarm) : State :=
  let i := ((s.ret.ahead.byte 0x022).toNat + 1) % 32
  s.retain [(0x040 + 16 * i, bytesOfNat 8 a.tick ++ [BitVec.ofNat 8 a.code] ++ retainedData a.data),
    (0x022, [BitVec.ofNat 8 i])]

/-- The three words of an alarm entry (R731). -/
def alarmEntry (a : Alarm) : List Word :=
  [field 0 8 0x0E ||| field 8 8 a.code ||| field 16 1 (b2n a.hold) ||| field 32 32 a.seq,
    BitVec.ofNat 64 a.tick, a.data]

/-- A temperature or rail alarm (Table 17.9, vector 9). -/
def isThermalAlarm (c : Nat) : Bool := 0x04 ≤ c && c ≤ 0x0A

/-- The effects of an alarm beside its entry (R729, R733, R737). -/
def State.signalAlarm (s : State) (a : Alarm) : State :=
  let s1 := s.retainAlarm a
  let s2 := if a.hold && !s1.isOn F.LOG_STATUS_TRACE_FROZEN then
      { (s1.put F.LOG_STATUS_TRACE_FROZEN 0 1) with mgmt := { s1.mgmt with freezeTick := a.tick } } else s1
  let s3 := s2.sendPf1 0
  let s4 := if isThermalAlarm a.code then s3.sendPf1 9 else s3
  let s5 := if a.code = 0x38 ∨ a.code = 0x39 ∨ a.code = 0x3A then s4.sendPf1 7 else s4
  let s6 := if bit (s5.rd .ALARM_CFG a.code) 1 then s5.devIrq 1 else s5
  let s7 := if s6.host.pf1.d3hot && s6.ret.pmeEn then
      { s6 with ret := { s6.ret with pmeStatus := true } }.emit (.pcieMessage 0 1) else s6
  s7.emit (.uart a.seq a.code a.tick a.data)

/-- An alarm is entered in trough 0, unless 256 entries are unacknowledged (R729, R730). -/
def State.enterAlarm (s : State) (a : Alarm) : State :=
  let m := s.mgmt
  let s1 :=
    if 256 ≤ m.unacked.length then
      { s with mgmt := { m with missedFirst := if m.missed = 0 then a.seq else m.missedFirst,
                                missed := satAdd 32 m.missed 1 } }.put F.ALARM_STATUS_OVERFLOWED 0 1
    else
      let t := { s with mgmt := { m with unacked := m.unacked ++ [a.seq] } }
      (t.put F.ALARM_STATUS_UNACKED 0 (m.unacked.length + 1)).pushItem 0 (alarmEntry a)
  s1.signalAlarm a

/-- ALARM_ENTRY (R729, R730, R733, R737): the yardmaster enters the oldest raised alarm. In HOLD with BOOT_NO_IMAGE the boot ROM
writes that alarm to the retention memory and sends vector 0, and no log trough exists (R727). -/
def execAlarmEntry (s : State) : Result :=
  .next <| match s.mgmt.raised with
    | [] => s
    | a :: r =>
        let t := { s with mgmt := { s.mgmt with raised := r } }
        if s.firmware then t.enterAlarm a
        else if s.noImage then (t.retainAlarm a).sendVector 1 0 .device
        else s

/-- Whether SEQ value `q` lies at or after `r` (R732). -/
def seqAtOrAfter (q r : Nat) : Bool := (q + 2 ^ 32 - r) % 2 ^ 32 < 2 ^ 31

/-- How many of the unacknowledged entries, oldest first, lie at or before `q` (R732). -/
def ackCount (q : Nat) : List Nat → Nat
  | [] => 0
  | e :: es => if seqAtOrAfter q e then 1 + ackCount q es else 0

/-- `n` entries of a log trough leave it. -/
def State.popEntries (s : State) (t : Nat) : Nat → State
  | 0 => s
  | n + 1 => State.popEntries (s.dropHead t) t n

/-- An acknowledgement of `q` (R730, R732): the entries at or before it are popped, and the first one that frees a slot is
followed by one ALARM_OVERFLOW entry for the alarms not entered. Answers the number of entries popped. -/
def State.ackAlarms (s : State) (q : Nat) : Nat × State :=
  let n := ackCount q s.mgmt.unacked
  let s1 := { s with mgmt := { s.mgmt with unacked := s.mgmt.unacked.drop n } }.popEntries 0 n
  let s2 := s1.put F.ALARM_STATUS_UNACKED 0 s1.mgmt.unacked.length
  let s3 := if s2.get F.DEV_HOLD_CAUSE_HOLD_CODE ≠ 0 ∧ seqAtOrAfter q (s2.get F.ALARM_HOLD_SEQ_SEQ) = true then
      s2.put F.ALARM_HOLD_SEQ_ACKED 0 1 else s2
  let m := s3.mgmt
  if 0 < n ∧ 0 < m.missed then
    let data := field 0 32 m.missedFirst ||| field 32 32 m.missed
    let s4 := { s3 with mgmt := { m with missed := 0, missedFirst := 0 } }.alarm 0x3F data
    match s4.mgmt.raised.getLast? with
    | none => (n, s4)
    | some a => (n, { s4 with mgmt := { s4.mgmt with raised := s4.mgmt.raised.dropLast } }.enterAlarm a)
  else (n, s3)

/-- ALARM_ACK (R732). -/
def execAlarmAck (seq : BitVec 32) (s : State) : Result :=
  .next (if s.firmware then (s.ackAlarms seq.toNat).2 else s)

/-- Whether SMB_ALERT_N is asserted (R733). -/
def State.smbAlert (s : State) : Bool := !s.mgmt.unacked.isEmpty && s.isOn F.LOG_CFG_SMB_ALERT_EN

/-! ### Faults, events and trace (R735 to R737) -/

/-- The pending fault record to push first: the earliest first tick, then the lowest code (R735). -/
def firstFault : List FaultRec → Option FaultRec
  | [] => none
  | f :: fs => match firstFault fs with
      | none => some f
      | some g => if g.first < f.first ∨ (g.first = f.first ∧ g.code < f.code) then some g else some f

/-- FAULT_RECORD_PUSH (R735): a pending fault record is pushed to trough 1 when it has room for 4 words. -/
def execFaultRecordPush (s : State) : Result :=
  .next <| match firstFault s.mgmt.faults with
    | none => s
    | some f =>
        if s.firmware && s.trgOn 1 && decide ((s.trg 1).vis + 4 ≤ s.trgSize 1 - 1) then
          let l := s.mgmt.faults.filter fun g => g.code != f.code
          let s1 := { s with mgmt := { s.mgmt with faults := l } }.put F.LOG_STATUS_FAULTS_PENDING 0 l.length
          let w : Word := field 0 8 0x0B ||| field 8 8 f.code ||| field 32 32 f.count
          (s1.pushItem 1 [w, BitVec.ofNat 64 f.first, BitVec.ofNat 64 f.last, f.data]).sendPf1 1
        else s

/-- The event codes of a closing window: those whose entry finds room are pushed, the others keep their count (R735). -/
def State.closeEvents (s : State) (t : Nat) : List EventCount → State × List EventCount
  | [] => (s, [])
  | e :: es =>
      if s.trgOn 2 && decide ((s.trg 2).vis + 3 ≤ s.trgSize 2 - 1) then
        let w : Word := field 0 8 0x0C ||| field 8 8 e.code ||| field 32 32 e.count
        State.closeEvents (s.pushItem 2 [w, BitVec.ofNat 64 e.start, BitVec.ofNat 64 t]) t es
      else
        let (s1, k) := State.closeEvents s t es
        (s1, e :: k)

/-- EVENT_WINDOW_CLOSE (R735): every 1 ms the event window closes; the mirrors' budget window closes with it (R738). -/
def execEventWindowClose (s : State) : Result :=
  .next <|
    if s.firmware then
      let (s1, k) := s.closeEvents s.now s.mgmt.events
      let s2 := { s1 with mgmt := { s1.mgmt with events := k, windowStart := s.now, mirrorUsed := 0 } }
      if k.length < s.mgmt.events.length then s2.sendPf1 2 else s2
    else s

/-- TRACE_THAW (R737). -/
def execTraceThaw (s : State) : Result := .next (s.put F.LOG_STATUS_TRACE_FROZEN 0 0)

/-- SUMMARY_CLEAR (R751). -/
def execSummaryClear (s : State) : Result := .next (s.rstWhere fun r => r == .ALARM_SUMMARY)

/-- LOG_CNT_CLEAR (R751): the counter of LOG_STATUS is cleared; TRACE_FROZEN and FAULTS_PENDING show states that go on. -/
def execLogCntClear (s : State) : Result := .next (s.put F.LOG_STATUS_FROZEN_DROPS 0 0)

/-! ### Telemetry and bounds (R23 to R27, R739) -/

/-- BOUNDS_SUSPENDED and its companions follow their causes; a change sets HIRQ_DEV_STATUS.BOUNDS (R23 to R25, R669). -/
def State.setBounds (s : State) : State :=
  let on := s.mgmt.thermal || s.mgmt.railCause
  let was := s.isOn F.DEV_STATUS_BOUNDS_SUSPENDED
  let s1 := ((s.put F.DEV_STATUS_BOUNDS_SUSPENDED 0 (b2n on)).put F.DEV_STATUS_THROTTLED 0 (b2n s.mgmt.thermal)).put
    F.DEV_STATUS_RAIL_RANGE 0 (b2n (!s.mgmt.railsOut.isEmpty))
  let s2 := (List.range 4).foldl (fun a k => a.put F.CHUTE_STATUS_THROTTLED k (b2n s.mgmt.thermal)) s1
  if on = was then s2
  else
    let s3 := if was then { s2 with mgmt := { s2.mgmt with suspendedUntil := s2.now } } else s2
    s3.devIrq 2

/-- Whether the yardmaster, or the boot ROM in its place, watches temperature and rails (R23, R24, R727). -/
def State.watched (s : State) : Bool := s.firmware || (s.noImage && s.ctl.mode == .hold)

/-- A sensor register takes a reading: its latest value, and its largest since the last clear (R739). -/
def State.takeTemp (s : State) (cur mx : Fld) (i key : Nat) (v : Int) : State :=
  let s1 := s.put cur i (unsigned 16 v)
  if s1.mgmt.seen.contains key then
    if signed 16 (s1.get mx i) < v then s1.put mx i (unsigned 16 v) else s1
  else { (s1.put mx i (unsigned 16 v)) with mgmt := { s1.mgmt with seen := key :: s1.mgmt.seen } }

/-- The alarm data of a temperature sensor (Table 17.1). -/
def tempData (key : Nat) (v : Int) : Word := field 0 8 key ||| field 16 16 (unsigned 16 v)

/-- A temperature alarm is raised once when its threshold is crossed upward, and re-armed 2 °C below it (R739). -/
def State.tempAlarm (s : State) (code key : Nat) (limit v : Int) (raised : Mgmt → List Nat)
    (put : Mgmt → List Nat → Mgmt) : State :=
  let l := raised s.mgmt
  if limit < v ∧ ¬ l.contains key then
    { s with mgmt := put s.mgmt (key :: l) }.alarm code (tempData key v)
  else if v ≤ limit - 32 ∧ l.contains key then { s with mgmt := put s.mgmt (l.filter (· != key)) }
  else s

def State.tempHighAlarm (s : State) (key : Nat) (v : Int) : State :=
  s.tempAlarm 0x07 key (s.get F.TELEM_CFG_TEMP_LIMIT : Int) v (·.tempHigh) fun m l => { m with tempHigh := l }

def State.tempCritAlarm (s : State) (key : Nat) (limit v : Int) : State :=
  s.tempAlarm 0x08 key limit v (·.tempCrit) fun m l => { m with tempCrit := l }

def State.caseHighAlarm (s : State) (key : Nat) (v : Int) : State :=
  s.tempAlarm 0x09 key (85 * 16) v (·.caseHigh) fun m l => { m with caseHigh := l }

/-- The gradient of one sample: the highest reading minus the lowest. -/
def gradientOf : List Int → Int
  | [] => 0
  | v :: vs => vs.foldl max v - vs.foldl min v

/-- THERMAL_SAMPLE (R23, R739): the die sensors are sampled; alarms of one sample are raised in ascending code order (R729). -/
def execThermalSample (temps : List Int) (s : State) : Result :=
  .next <|
    if temps.length ≠ 32 ∨ !s.watched then s
    else
      let g := gradientOf temps
      let gd : Word := field 0 16 (unsigned 16 g)
      let old := s.mgmt.gradient
      let s1 := { s with mgmt := { s.mgmt with gradient := g } }
      let s2 := if 560 < g ∧ s1.mgmt.gradRaised = false then
          { s1 with mgmt := { s1.mgmt with gradRaised := true } }.alarm 0x05 gd
        else if g ≤ 480 then { s1 with mgmt := { s1.mgmt with gradRaised := false } } else s1
      let s3 := if 880 < g ∧ old ≤ 880 then s2.alarm 0x06 gd else s2
      let s4 := if s.firmware then
          let idx := (List.range 32).zip temps
          let a := idx.foldl (fun a p => a.takeTemp F.TEMP_CUR F.TEMP_MAX p.1 p.1 p.2) s3
          let b := idx.foldl (fun a p => a.tempHighAlarm p.1 p.2) a
          idx.foldl (fun a p => a.tempCritAlarm p.1 (103 * 16) p.2) b
        else s3
      let s5 := if 720 < g then { s4 with mgmt := { s4.mgmt with thermal := true } } else s4
      s5.setBounds

/-- THROTTLE_RELEASE (Table 1.5): the gradient has stayed at 40 °C or below for 10 ms. -/
def execThrottleRelease (s : State) : Result :=
  .next <|
    if s.mgmt.thermal && decide (s.mgmt.gradient ≤ 640) then
      { s with mgmt := { s.mgmt with thermal := false } }.setBounds
    else s

/-- The ±4 % band of a rail in mV (Table 19.2); VBAT has none. -/
def railBand : Nat → Option (Nat × Nat)
  | 0 => some (720, 780) | 1 => some (816, 884) | 2 => some (864, 936) | 3 => some (1152, 1248)
  | 4 => some (1056, 1144) | 5 => some (1728, 1872) | 6 => some (1728, 1872) | 7 => some (1728, 1872)
  | 8 => some (3168, 3432) | _ => none

/-- Whether a rail's reading lies outside its band. -/
def railOut (m v : Nat) : Bool :=
  match railBand m with
  | some (lo, hi) => v < lo || hi < v
  | none => false

/-- A rail register takes a reading (R739). -/
def State.takeRail (s : State) (m v : Nat) : State :=
  let key := 40 + m
  let s1 := s.put F.RAIL_MV m v
  if s1.mgmt.seen.contains key then
    let s2 := if v < s1.get F.RAIL_MIN_MV m then s1.put F.RAIL_MIN_MV m v else s1
    if s2.get F.RAIL_MAX_MV m < v then s2.put F.RAIL_MAX_MV m v else s2
  else
    let s2 := (s1.put F.RAIL_MIN_MV m v).put F.RAIL_MAX_MV m v
    { s2 with mgmt := { s2.mgmt with seen := key :: s2.mgmt.seen } }

/-- RAIL_SAMPLE (R24, R739): a rail newly outside its band raises RAIL_RANGE, and BOUNDS_SUSPENDED is set. -/
def execRailSample (mv : List Nat) (current : Nat) (s : State) : Result :=
  .next <|
    if mv.length ≠ 10 ∨ !s.watched then s
    else
      let idx := (List.range 10).zip mv
      let out := (idx.filter fun p => railOut p.1 p.2).map (·.1)
      let fresh := idx.filter fun p => railOut p.1 p.2 && !s.mgmt.railsOut.contains p.1
      let s1 := if s.firmware then
          (idx.foldl (fun a p => a.takeRail p.1 p.2) s).put F.RAIL_CURRENT 0 current else s
      let s2 := fresh.foldl (fun a p => a.alarm 0x0A (field 0 8 p.1 ||| field 16 16 p.2)) s1
      let s3 := { s2 with mgmt := { s2.mgmt with railsOut := out, railCause := s2.mgmt.railCause || !out.isEmpty } }
      s3.setBounds

/-- BOUNDS_RELEASE (R24): every rail has been inside its band for 10 ms without a break. -/
def execBoundsRelease (s : State) : Result :=
  .next <|
    if s.mgmt.railCause && s.mgmt.railsOut.isEmpty then
      { s with mgmt := { s.mgmt with railCause := false } }.setBounds
    else s

/-- FEN_CASE_SAMPLE (R739). -/
def execFenCaseSample (temps : List Int) (s : State) : Result :=
  .next <|
    if temps.length ≠ 4 ∨ !s.firmware then s
    else
      let idx := (List.range 4).zip temps
      let a := idx.foldl (fun a p => a.takeTemp F.FEN_CASE_CUR F.FEN_CASE_MAX p.1 (32 + p.1) p.2) s
      let b := idx.foldl (fun a p => a.tempCritAlarm (32 + p.1) (90 * 16) p.2) a
      idx.foldl (fun a p => a.caseHighAlarm p.1 p.2) b

/-- ACTIVITY_SAMPLE (R739): busy cycles per 256 of islands 8j to 8j + 7 in 8-bit fields. -/
def execActivitySample (busy : List Nat) (s : State) : Result :=
  .next <|
    if busy.length ≠ 34 ∨ !s.firmware then s
    else ((List.range 34).zip busy).foldl
      (fun a p => a.put ⟨.ACTIVITY, 8 * (p.1 % 8), 8⟩ (p.1 / 8) (min p.2 255)) s

/-- TELEM_CLEAR (R749): every MIN and MAX is reset; the next reading starts them anew. -/
def State.telemClear (s : State) : State :=
  let s1 := (List.range 32).foldl (fun a k => a.put F.TEMP_MAX k 0) s
  let s2 := (List.range 4).foldl (fun a k => a.put F.FEN_CASE_MAX k 0) s1
  let s3 := (List.range 10).foldl (fun a k => (a.put F.RAIL_MIN_MV k 0).put F.RAIL_MAX_MV k 0) s2
  { s3 with mgmt := { s3.mgmt with seen := [] } }

def execTelemClear (s : State) : Result := .next s.telemClear

/-! ### In-service test (R740) -/

/-- The modes in which in-service test runs (Table 2.1). -/
def State.istMode (s : State) : Bool :=
  match s.ctl.mode with
  | .ready | .armed | .stream | .burst | .drain | .shadow => true
  | _ => false

/-- Whether a task is enabled: bit 0 is FEN_SCRUB.ENABLE itself (R749). -/
def State.istOn (s : State) (t : Nat) : Bool := if t = 0 then s.isOn F.FEN_SCRUB_ENABLE else bit (s.rd .IST_CFG) t

/-- A task has failed: its failure is counted and its alarm raised (Table 17.1, Table 17.4). -/
def State.istFail (s : State) (t code : Nat) (data : Word) : State :=
  ((s.inc F.IST_TASK_COUNT_FAILURES t).put F.IST_TASK_LAST_FAIL t s.now).alarm code data

/-- The lanes whose eye task 3 scans: a lane in IDLE, or a spare lane in ACTIVE (Table 17.4). -/
def State.eyeScannable (s : State) (l : Nat) : Bool := s.get F.LANE_STATUS_STATE l == 6 || s.get F.LANE_STATUS_STATE l == 5

/-- IST_SLICE (R740): one slice of a task. For tasks 1 and 5 `failed` says that the slice found a fault and `detail` gives
[39:8] of IST_FAIL; for task 2 `detail` is the reading as ADC_REF lays it out, judged against 7,680 ± 0.5 % for VREF; for task 3
it is the lane. -/
def execIstSlice (task : Fin 6) (detail : Nat) (preempted passEnd failed : Bool) (s : State) : Result :=
  .next <|
    let t := task.val
    if !(s.firmware && s.istMode && s.istOn t) then s
    else if preempted then s.inc F.IST_TASK_COUNT_PREEMPTIONS t
    else
      let s1 :=
        if (t = 1 ∨ t = 5) ∧ failed = true then s.istFail t 0x38 (field 0 8 t ||| field 8 32 detail)
        else if t = 2 ∧ detail / 256 % 256 = 4 ∧
            (signed 16 (detail / 65536) * 1000 < 7680 * 995 ∨ 7680 * 1005 < signed 16 (detail / 65536) * 1000) then
          s.istFail t 0x3A (field 0 32 detail)
        else if t = 3 ∧ s.eyeScannable detail = true ∧
            s.get F.LANE_EYE_EYE_MIDDLE detail < s.get F.IST_CFG_IST_EYE_MIN then
          s.istFail t 0x39 (field 0 8 detail ||| field 8 32 (bits (s.rd .LANE_EYE detail) 0 32))
        else s
      if passEnd && t != 0 then s1.incWrap F.IST_TASK_COUNT_PASSES t else s1

/-- FEN_SCRUB_PASS (R357): a complete scrub pass ends. -/
def execFenScrubPass (s : State) : Result :=
  .next <|
    if s.firmware && s.istMode && s.istOn 0 then
      (s.incWrap F.FEN_SCRUB_COUNT_PASSES).incWrap F.IST_TASK_COUNT_PASSES 0
    else s

/-! ### SMBus, UART and JTAG (R741 to R745) -/

/-- An SMBus response. -/
def State.smb (s : State) (cmd : Nat) (ws : List Word) : State := s.emit (.smbus cmd ws)

/-- Whether the SMBus target answers: with firmware, or from the boot ROM in HOLD with BOOT_NO_IMAGE (R727). -/
def State.smbLive (s : State) : Bool := s.firmware || (s.noImage && s.ctl.mode == .hold)

/-- MCTP_SET_ENDPOINT_ID (R741). -/
def execMctpSetEndpointId (eid : BitVec 8) (s : State) : Result :=
  .next (if s.smbLive then (s.put F.MGMT_SMB_CFG_EID 0 eid.toNat).smb 0x01 [BitVec.ofNat 64 eid.toNat] else s)

/-- MCTP_GET_ENDPOINT_ID (R741). -/
def execMctpGetEndpointId (s : State) : Result :=
  .next (if s.smbLive then s.smb 0x02 [BitVec.ofNat 64 (s.get F.MGMT_SMB_CFG_EID)] else s)

/-- MCTP_GET_VERSION_SUPPORT (R741): the response is the DMTF binding's. -/
def execMctpGetVersionSupport (s : State) : Result :=
  .next (if s.smbLive then s.smb 0x04 (Config.mctpResponse 0x04) else s)

/-- MCTP_GET_MESSAGE_TYPE_SUPPORT (R741 to R743): MCTP control, PLDM, and vendor-defined messages by PCI ID. -/
def execMctpGetMessageTypeSupport (s : State) : Result :=
  .next (if s.smbLive then s.smb 0x05 [0x00, 0x01, 0x7E] else s)

/-- MCTP_GET_VENDOR_SUPPORT (R741, R743): PCI Vendor ID 0x1F3E. -/
def execMctpGetVendorSupport (s : State) : Result :=
  .next (if s.smbLive then s.smb 0x06 [0x1F3E] else s)

/-- The value of a PLDM numeric sensor (Table 17.5). -/
def State.sensor (s : State) (id : Nat) : Option Word :=
  if 0x01 ≤ id ∧ id ≤ 0x20 then some (BitVec.ofNat 64 (s.get F.TEMP_CUR (id - 1)))
  else if 0x21 ≤ id ∧ id ≤ 0x24 then some (BitVec.ofNat 64 (s.get F.FEN_CASE_CUR (id - 0x21)))
  else if 0x30 ≤ id ∧ id ≤ 0x39 then some (BitVec.ofNat 64 (s.get F.RAIL_MV (id - 0x30)))
  else if id = 0x3A then some (BitVec.ofNat 64 (s.get F.RAIL_CURRENT 0))
  else if id = 0x3B then some (BitVec.ofNat 64 (s.get F.FLD_VFIELD_VFIELD))
  else if id = 0x40 then
    some (BitVec.ofNat 64 (unsigned 16
      (((List.range 32).map fun k => signed 16 (s.get F.TEMP_CUR k)).foldl max (signed 16 (s.get F.TEMP_CUR 0)))))
  else none

/-- PLDM_SENSOR_READ (R742). An id outside Table 17.5 names no sensor and is answered without a value. -/
def execPldmSensorRead (id : Nat) (s : State) : Result :=
  .next (if s.firmware then s.smb 0x11 (match s.sensor id with | some w => [w] | none => []) else s)

/-- MCTP_ALARM_READ (Table 17.6): up to 4 unacknowledged entries at or after a SEQ. -/
def execMctpAlarmRead (seq : BitVec 32) (s : State) : Result :=
  .next <|
    if s.firmware then
      let n := s.mgmt.unacked.length
      let ks := (((List.range n).zip s.mgmt.unacked).filter fun p => seqAtOrAfter p.2 seq.toNat).take 4
      s.smb 0x01 (ks.flatMap fun p => (List.range 3).map fun j => (s.visWord 0 (3 * p.1 + j)).data)
    else s

/-- MCTP_ALARM_ACK (Table 17.6): as R732; the number of entries popped. -/
def execMctpAlarmAck (seq : BitVec 32) (s : State) : Result :=
  .next <|
    if s.firmware then
      let (n, s1) := s.ackAlarms seq.toNat
      s1.smb 0x02 [BitVec.ofNat 64 n]
    else s

/-- Whole entries popped from a log trough while they fit in `room` words. -/
def State.popLog (s : State) (t : Nat) : Nat → Nat → List Word × State
  | 0, _ => ([], s)
  | n + 1, room =>
      match s.headItem t with
      | none => ([], s)
      | some it =>
          if room < it.words.length then ([], s)
          else
            let (ws, s1) := State.popLog (s.dropHead t) t n (room - it.words.length)
            (it.words ++ ws, s1)

/-- The answer REFUSED of an MCTP vendor command, and UNSUPPORTED (Table 17.6). -/
def mctpRefused : Word := 1
def mctpUnsupported : Word := 2

/-- MCTP_LOG_POP (Table 17.6, R738): up to 48 bytes of entries, popped; REFUSED unless the owner is SMBus. -/
def execMctpLogPop (trough : Nat) (maxEntries : Nat) (s : State) : Result :=
  .next <|
    if !s.firmware then s
    else if 1 ≤ trough ∧ trough ≤ 3 ∧ s.popAllowed .smbus trough = true then
      let (ws, s1) := s.popLog trough (min maxEntries 6) 6
      s1.smb 0x03 (0 :: ws)
    else s.smb 0x03 [mctpRefused]

/-- MCTP_UNSUPPORTED (R743): any other command is answered UNSUPPORTED. -/
def execMctpUnsupported (cmd : Nat) (s : State) : Result :=
  .next (if s.firmware then s.smb cmd [mctpUnsupported] else s)

/-- UART_CONSOLE_INPUT (R744): accepted only while DEBUG_LOCK is intact. -/
def execUartConsoleInput (c : Byte) (s : State) : Result :=
  .next <|
    if s.firmware && !s.fuses.debugLock then { s with mgmt := { s.mgmt with console := s.mgmt.console ++ [c] } } else s

/-- The JTAG port takes an instruction (R745). -/
def State.jtagGo (s : State) (j : Jtag) (v : Nat) : State := { s with mgmt := { s.mgmt with jtag := j } }.emit (.jtag j.ir v)

/-- JTAG_BYPASS: the bypass register is selected. -/
def execJtagBypass (s : State) : Result := .next (s.jtagGo { s.mgmt.jtag with ir := 0, drive := .system } 0)

/-- JTAG_IDCODE: the identification register reads 0x20F1_66FD. -/
def execJtagIdcode (s : State) : Result := .next (s.jtagGo { s.mgmt.jtag with ir := 1, drive := .system } 0x20F166FD)

/-- JTAG_SAMPLE_PRELOAD: the balls are sampled, and the boundary register preloaded. -/
def execJtagSamplePreload (sampled preload : List Bool) (s : State) : Result :=
  .next (s.jtagGo { ir := 2, boundary := preload, captured := sampled, drive := .system } 0)

/-- JTAG_EXTEST: the boundary register drives the balls, and their levels are captured. -/
def execJtagExtest (sampled : List Bool) (s : State) : Result :=
  .next (s.jtagGo { s.mgmt.jtag with ir := 3, captured := sampled, drive := .boundary } 0)

/-- JTAG_CLAMP: the boundary register holds the outputs, with bypass selected. -/
def execJtagClamp (s : State) : Result := .next (s.jtagGo { s.mgmt.jtag with ir := 4, drive := .boundary } 0)

/-- JTAG_HIGHZ: the outputs are at high impedance, with bypass selected. -/
def execJtagHighz (s : State) : Result := .next (s.jtagGo { s.mgmt.jtag with ir := 5, drive := .highz } 0)

/-- JTAG_EXTEST_PULSE: IEEE 1149.6 test of the AC-coupled lanes. -/
def execJtagExtestPulse (sampled : List Bool) (s : State) : Result :=
  .next (s.jtagGo { s.mgmt.jtag with ir := 6, captured := sampled, drive := .boundary } 0)

/-- JTAG_EXTEST_TRAIN: IEEE 1149.6 test of the AC-coupled lanes with a pulse train. -/
def execJtagExtestTrain (sampled : List Bool) (s : State) : Result :=
  .next (s.jtagGo { s.mgmt.jtag with ir := 7, captured := sampled, drive := .boundary } 0)

/-! ### Flash and security (R746, R753) -/

/-- Results of the block's operations (R753). -/
def flNone : Nat := 0
def flBusy : Nat := 1
def flDone : Nat := 2
def flRefused : Nat := 3
def flRunningSlot : Nat := 4
def flError : Nat := 5

/-- Whether the block serves operations: PF1 with firmware, or the boot ROM in HOLD with BOOT_NO_IMAGE (R726, R727). -/
def State.flashLive (s : State) : Bool := s.firmware || s.noImage

/-- A write to FLASH_CTRL: OP is stored; an operation is asked for only by GO with the KEY (R746). -/
def State.flashGo (s : State) (v : Word) (op : Nat) (why : Nat) (act : State → State) : State :=
  let s1 := s.put F.FLASH_CTRL_OP 0 op
  if F.FLASH_CTRL_KEY.of v ≠ 0x464C ∨ !s.flashLive then s1
  else if s.mgmt.flashOp ≠ .none then s1.put F.FLASH_STATUS_RESULT 0 flBusy
  else if why ≠ 0 then s1.put F.FLASH_STATUS_RESULT 0 why
  else
    let s2 := ((s1.put F.FLASH_CTRL_GO 0 1).put F.FLASH_STATUS_RESULT 0 flBusy).put F.FLASH_STATUS_BUSY 0 1
    act { s2 with mgmt := { s2.mgmt with flashOp := .flash op } }

/-- Whether a flash address lies in the running image's slot (R746). -/
def State.inRunningSlot (s : State) (a : Nat) : Bool :=
  match s.boot.running with
  | some k => decide (slotBase k ≤ a) && decide (a < slotBase (k + 1))
  | none => false

/-- Why an ERASE or a PROGRAM is refused: unaligned, or in the running slot (Table 17.7). -/
def State.flashWhy (s : State) (unit : Nat) : Nat :=
  let a := s.get F.FLASH_ADDR_ADDR
  if a % unit ≠ 0 then flRefused else if s.inRunningSlot a then flRunningSlot else 0

/-- FLASH_READ (Table 17.7): 4 KiB at FLASH_ADDR into FLASH_BUF. -/
def execFlashRead (v : Word) (s : State) : Result :=
  .next <|
    let a := s.get F.FLASH_ADDR_ADDR
    s.flashGo v 1 (if a % 4096 ≠ 0 then flRefused else 0) fun t =>
      { t with mgmt := { t.mgmt with flashBuf := putBytes [] 0 0 (t.boot.bytes a 4096) } }

/-- FLASH_ERASE (Table 17.7): the 64 KiB sector at FLASH_ADDR. -/
def execFlashErase (v : Word) (s : State) : Result :=
  .next <|
    let a := s.get F.FLASH_ADDR_ADDR
    s.flashGo v 2 (s.flashWhy 65536) fun t =>
      { t with boot := { t.boot with flash := Tab.drop (fun k => decide (a ≤ k) && decide (k < a + 65536)) t.boot.flash } }

/-- FLASH_PROGRAM (Table 17.7): FLASH_BUF to 4 KiB at FLASH_ADDR. -/
def execFlashProgram (v : Word) (s : State) : Result :=
  .next <|
    let a := s.get F.FLASH_ADDR_ADDR
    s.flashGo v 3 (s.flashWhy 4096) fun t =>
      let bs := (List.range 4096).map fun k => Tab.get (0 : Byte) t.mgmt.flashBuf k
      { t with boot := { t.boot with flash := putBytes t.boot.flash 0xFF a bs } }

/-- FLASH_VERIFY (Table 17.7): the checks of Table 2.10 on the slot in FLASH_ADDR[25]. -/
def execFlashVerify (v : Word) (readErr : Bool) (s : State) : Result :=
  .next <|
    let k := s.get F.FLASH_ADDR_ADDR / 2 ^ 25 % 2
    s.flashGo v 4 0 fun t => t.put F.FLASH_STATUS_VERIFY_RESULT 0 (t.checkImage k readErr)

/-- FLASH_OP_COMPLETE (R748, R753): a flash operation ends. -/
def execFlashOpComplete (ok : Bool) (s : State) : Result :=
  .next <| match s.mgmt.flashOp with
    | .flash _ =>
        let s1 := { s with mgmt := { s.mgmt with flashOp := .none } }
        let s2 := (s1.put F.FLASH_CTRL_GO 0 0).put F.FLASH_STATUS_BUSY 0 0
        (s2.put F.FLASH_STATUS_RESULT 0 (if ok then flDone else flError)).sendPf1 5
    | _ => s

/-- A write to SEC_CMD (R746). -/
def State.secGo (s : State) (v : Word) (op : Nat) (refused : Bool) (act : State → State) : State :=
  let s1 := (s.put F.SEC_CMD_OP 0 op).put F.SEC_CMD_SLOT 0 (F.SEC_CMD_SLOT.of v)
  if F.SEC_CMD_KEY.of v ≠ 0x5345 ∨ !s.flashLive then s1
  else if s.mgmt.flashOp ≠ .none then s1.put F.SEC_STATUS_RESULT 0 flBusy
  else if refused then s1.put F.SEC_STATUS_RESULT 0 flRefused
  else
    let s2 := (s1.put F.SEC_CMD_GO 0 1).put F.SEC_STATUS_RESULT 0 flBusy
    act { s2 with mgmt := { s2.mgmt with flashOp := .sec op } }

/-- SEC_CONFIRM (R67, Table 17.7): rollback fuses are blown up to the running ROLLBACK_LEVEL. -/
def execSecConfirm (v : Word) (s : State) : Result :=
  .next <| s.secGo v 1 (s.isOn F.DEV_STATUS_BOOT_DOWNGRADE) fun t =>
    let lvl := if t.boot.running.isSome then t.boot.runLevel else 0
    { t with fuses := { t.fuses with rollback := max t.fuses.rollback lvl } }

/-- SEC_PROGRAM_KEY (Table 17.7): the 48-byte hash in FLASH_BUF[47:0] is blown into a blank SLOT. -/
def execSecProgramKey (v : Word) (s : State) : Result :=
  .next <|
    let k := F.SEC_CMD_SLOT.of v
    s.secGo v 2 (decide (4 ≤ k) || (s.fuses.keys[k]?).getD [] != []) fun t =>
      let h := (List.range 48).map fun j => Tab.get (0 : Byte) t.mgmt.flashBuf j
      { t with fuses := { t.fuses with keys := t.fuses.keys.set k h } }

/-- Whether some other slot is programmed and unrevoked (Table 17.7). -/
def Fuses.otherKey (f : Fuses) (k : Nat) : Bool :=
  (List.range 4).any fun j => j != k && (f.keys[j]?).getD [] != [] && !(f.revoked[j]?).getD false

/-- SEC_REVOKE (Table 17.7): SLOT's revoke fuse is blown. -/
def execSecRevoke (v : Word) (s : State) : Result :=
  .next <|
    let k := F.SEC_CMD_SLOT.of v
    let bad := decide (4 ≤ k) || (s.boot.running.isSome && s.boot.runKey == k) || !s.fuses.otherKey k
    s.secGo v 3 bad fun t => { t with fuses := { t.fuses with revoked := t.fuses.revoked.set k true } }

/-- SEC_OP_COMPLETE (R748, R753): a security operation ends. -/
def execSecOpComplete (ok : Bool) (s : State) : Result :=
  .next <| match s.mgmt.flashOp with
    | .sec _ =>
        let s1 := { s with mgmt := { s.mgmt with flashOp := .none } }
        ((s1.put F.SEC_CMD_GO 0 0).put F.SEC_STATUS_RESULT 0 (if ok then flDone else flError)).sendPf1 6
    | _ => s

/-- MGMT_DB_WINDOW_WRITE (R764): the PF1 doorbell window moves for later accesses; an open packet stays open. -/
def execMgmtDbWindowWrite (v : Word) (s : State) : Result :=
  .next (s.put F.MGMT_DB_WINDOW_WINDOW 0 (F.MGMT_DB_WINDOW_WINDOW.of v))

end Sys2Proof.Machine
end

