-- ==== Sys2Proof/Machine/Outputs.lean ====
section
/-! DEFINITION. The output schedulers of TRIG_OUT0 to TRIG_OUT15 and FO0 to FO14 (R514 to R518, R568 to R573). -/

namespace Sys2Proof.Machine

def State.sched (s : State) (o : Nat) : Sched := Tab.get Sched.zero s.outs o

def State.setSched (s : State) (o : Nat) (x : Sched) : State := { s with outs := Tab.set Sched.zero s.outs o x }

/-- Whether output `o` is a field output. -/
def isFo (o : Nat) : Bool := 16 ≤ o

/-- The minimum width of an output in ticks (R515). -/
def minWidth (o : Nat) : Nat := if isFo o then 4000 else 4

/-- The lead limit for a request taken at tick `take` (R514). -/
def leadLimit (o take : Nat) : Nat := take + if isFo o then 512 else 16

/-- An edge of a field output moved to the nearest multiple of 32 ticks, ties upward (R515). -/
def gridTick (o t : Nat) : Nat := if isFo o then (t + 16) / 32 * 32 else t

/-- Whether the mode lets a scheduler take a request (R568). -/
def Mode.drives : Mode → Bool
  | .ready | .armed | .stream | .burst | .drain => true
  | _ => false

/-- The device holds keeper rights, or no pair is configured (R518, R568). -/
def State.rights (s : State) : Bool := !s.isOn F.PAIR_CFG_ENABLE || s.isOn F.PAIR_STATUS_RIGHTS

/-- Whether the mode and keeper rights let a scheduler take a request. -/
def State.outOpen (s : State) : Bool := s.ctl.mode.drives && s.rights

/-! ### The waveform (R516, R569, R570) -/

/-- Whether some pulse of the scheduler covers tick `t`. -/
def Sched.covered (x : Sched) (t : Nat) : Bool :=
  x.pulses.any fun p => decide (p.start ≤ t) && (match p.stop with | none => true | some e => decide (t < e))

/-- Whether the scheduler asserts again within `w` ticks after `t` (R570). -/
def Sched.returns (x : Sched) (t w : Nat) : Bool :=
  x.pulses.any (fun p => decide (t < p.start) && decide (p.start < t + w)) ||
    x.changes.any (fun c => decide (t < c.tick) && decide (c.tick < t + w) && c.act != .clear)

/-- The level after a change. -/
def LevelAct.apply (a : LevelAct) (l : Bool) : Bool :=
  match a with
  | .set => true
  | .clear => false
  | .toggle => !l

/-- A field output's switch is commanded: the command crosses the levee with its tick, in two frames, while the link is up; it is
discarded and counted otherwise (R620, R634, R642). -/
def State.foCommand (s : State) (k : Nat) (on : Bool) (t : Nat) : State :=
  if s.isOn F.FLD_STATUS_LINK_UP then
    { s with fld := { s.fld with toField := s.fld.toField ++ [.cmd ⟨k, on, t⟩ 2] } }
  else s.inc F.FLD_LEVEE_COUNT_CMD_DISCARDED

/-- An edge of output `o` at its tick: launched to a TRIG_OUT pin SKEW ticks later, or sent to the field side (R569, R634). -/
def State.launch (s : State) (o : Nat) (asserted : Bool) (t : Nat) : State :=
  if !s.isOn F.OUT_CFG_ENABLE o then s
  else
    let l := xor asserted (s.isOn F.OUT_CFG_INVERT o)
    if isFo o then s.foCommand (o - 16) l t else s.emit (.edge o l (t + s.get F.OUT_CFG_SKEW o))

/-- The edges of output `o` at tick `t` are made. -/
def State.edgeAt (s : State) (o t : Nat) : State :=
  let x := s.sched o
  let lvl := (x.changes.filter fun c => c.tick ≤ t).foldl (fun l c => c.act.apply l) x.level
  let x1 : Sched := { x with
    level := lvl
    changes := x.changes.filter fun c => t < c.tick
    pulses := x.pulses.filter fun p => match p.stop with | none => true | some e => decide (t < e) }
  let want := lvl || x1.covered t
  let drive := want || (x.driven && x1.returns t (minWidth o))
  let s1 := s.setSched o { x1 with driven := drive, seen := max x.seen t }
  if drive = x.driven then s1 else s1.launch o drive t

/-- The ticks at which a scheduler has something to do. -/
def Sched.ticks (x : Sched) : List Nat :=
  x.changes.map (·.tick) ++ x.pulses.map (·.start) ++ x.pulses.filterMap (·.stop)

/-- The next of a scheduler's ticks after those already made. -/
def Sched.next (x : Sched) : Option Nat :=
  (x.ticks.filter fun t => x.seen < t).foldl (fun m t => match m with | none => some t | some u => some (min t u)) none

/-- Every edge of output `o` up to the present tick is made, in order. -/
def State.settle (s : State) (o : Nat) : Nat → State
  | 0 => s
  | fuel + 1 => match (s.sched o).next with
      | none => s
      | some t => if t ≤ s.now then State.settle (s.edgeAt o t) o fuel else s

/-- As many rounds as a scheduler can need. -/
def State.settleOut (s : State) (o : Nat) : State := s.settle o ((s.sched o).ticks.length + 1)

/-- OUTPUT_EDGE_DUE (R569, R570, R634): the next edge of output `o` reaches its tick. -/
def execOutputEdgeDue (o : Fin 31) (s : State) : Result :=
  .next <| match (s.sched o.val).next with
    | none => s
    | some t => (s.reach t).settleOut o.val

/-! ### Requests (R514 to R518, R568) -/

/-- What became of a request: the tick of its first edge (0 when there is none), whether it was late, whether it gave no pulse,
and whether the mode or keeper rights (`suppressed`) or the scheduler (`refused`) refused it. -/
structure Taken where
  tick : Nat
  late : Bool
  noPulse : Bool
  suppressed : Bool
  refused : Bool
deriving DecidableEq, Repr

/-- Fault WINDOW_ORDER with its data word: a G-core number or a list number, and the output (R515, R578). -/
def State.windowOrder (s : State) (src : OutSrc) (o : Nat) : State :=
  let (n, isList) : Nat × Nat := match src with
    | .groom g => (g, 0)
    | .gate l => (l, 1)
    | .consumer | .waypoint => (0, 0)
  s.fault 0x02 (field 0 8 n ||| field 8 8 o ||| field 16 1 isList)

/-- The first edge of a request with target `target` (none: as soon as possible) taken at `take`: its tick, whether it was placed
at the lead limit past its target, and the state with LATE counted (R514, R593). -/
def State.place (s : State) (o : Nat) (target : Option Nat) (countLate : Bool) (take : Nat) : Nat × Bool × State :=
  let lead := leadLimit o take
  match target with
  | none => (lead, false, s)
  | some t =>
      if t < lead then (lead, true, if countLate then s.inc F.OUT_COUNT_LATE o else s) else (t, false, s)

/-- The rules of R515 on a pulse from `a` to `b`: its stop, or none when it gives no pulse. -/
def State.window (s : State) (o : Nat) (src : OutSrc) (a : Nat) (b : Int) : Option Nat × State :=
  if b = a then (none, s.inc F.OUT_COUNT_WINDOW_EMPTY o)
  else if b < a then (none, s.windowOrder src o)
  else if b.toNat - a < minWidth o then (some (a + minWidth o), s.inc F.OUT_COUNT_WINDOW_STRETCHED o)
  else (some b.toNat, s)

/-- A signed tick moved to the 8 ns grid of a field output. -/
def gridInt (o : Nat) (t : Int) : Int := if isFo o then (t + 16) / 32 * 32 else t

/-- A request the scheduler refuses before it is taken, if it refuses it (R568). -/
def State.barred (s : State) (o : Nat) : Option (Taken × State) :=
  if !s.outOpen then some (⟨0, false, true, true, false⟩, s.inc F.OUT_COUNT_REFUSED o)
  else if !s.isOn F.OUT_CFG_ENABLE o then some (⟨0, false, true, false, true⟩, s.inc F.OUT_COUNT_REFUSED o)
  else none

/-- A level change is requested (R514, R568). -/
def State.takeLevel (s0 : State) (o : Nat) (act : LevelAct) (target : Option Nat) (countLate : Bool) (src : OutSrc)
    (take : Nat) : Taken × State :=
  let s := s0.settleOut o
  match s.barred o with
  | some r => r
  | none =>
      let (first, late, s1) := s.place o target countLate take
      let t := gridTick o first
      let x := s1.sched o
      (⟨t, late, false, false, false⟩, s1.setSched o { x with changes := x.changes ++ [⟨src, t, act⟩] })

/-- A pulse enters the scheduler unless it holds 8 (R516). -/
def State.addPulse (s : State) (o : Nat) (p : Pulse) (late : Bool) : Taken × State :=
  let x := s.sched o
  if 8 ≤ x.pulses.length then (⟨0, late, true, false, true⟩, s.inc F.OUT_COUNT_REFUSED o)
  else (⟨p.start, late, false, false, false⟩, s.setSched o { x with pulses := x.pulses ++ [p] })

/-- A pulse of `dur` ticks is requested (R514 to R516, R568). -/
def State.takePulse (s0 : State) (o : Nat) (target : Option Nat) (dur : Int) (countLate : Bool) (src : OutSrc)
    (take : Nat) : Taken × State :=
  let s := s0.settleOut o
  match s.barred o with
  | some r => r
  | none =>
      let (first, late, s1) := s.place o target countLate take
      let a := gridTick o first
      match s1.window o src a (gridInt o (first + dur)) with
      | (none, s2) => (⟨0, late, true, false, false⟩, s2)
      | (some b, s2) => s2.addPulse o ⟨src, a, some b⟩ late

/-- OUTPUT_CONSUMER_EVENT (R571, R572): an event delivered to consumer `o` acts on the output. -/
def execOutputConsumerEvent (o : Fin 32) (s : State) : Result :=
  .next <| match s.takeEvent o.val with
    | none => s
    | some (t, s1) =>
        if o.val = 31 ∨ s1.isOn F.OUT_CFG_CONS_EN o.val = false then s1
        else
          let d := s1.get F.OUT_CFG_CONS_DELAY o.val
          let late := decide (d ≠ 0)
          match s1.get F.OUT_CFG_CONS_ACT o.val with
          | 1 => (s1.takeLevel o.val .set (some (t + d)) late .consumer s1.now).2
          | 2 => (s1.takeLevel o.val .clear (some (t + d)) late .consumer s1.now).2
          | 3 => (s1.takeLevel o.val .toggle (some (t + d)) late .consumer s1.now).2
          | _ => (s1.takePulse o.val (some (t + d)) (s1.get F.OUT_CFG_CONS_WIDTH o.val) late .consumer s1.now).2

/-! ### Modes and SET (R511, R559, R573) -/

/-- What R573 leaves of output `o`'s scheduler. -/
def Sched.cut (x : Sched) (o now : Nat) (hold : Bool) : Sched :=
  let alive := x.pulses.filter fun p => decide (p.start ≤ now)
  { x with
    level := x.level && !hold
    changes := []
    pulses := alive.map fun p =>
      if isFo o then (if hold then { p with stop := some now } else p)
      else
        let e := max now (p.start + minWidth o)
        { p with stop := some (match p.stop with | none => e | some t => min t e) } }

/-- Output `o` is brought to what its scheduler now calls for. -/
def State.redrive (s : State) (o : Nat) : State :=
  let s1 := s.edgeAt o s.now
  s1.settleOut o

/-- Entry to SHADOW, HOLD or QUIET, or a SET: R573 on every output. -/
def State.cutOutputs (s : State) (hold : Bool) : State :=
  (List.range 31).foldl (fun a o => let b := a.settleOut o; (b.setSched o ((b.sched o).cut o b.now hold)).redrive o) s

/-- A tick moved with the count by a SET. -/
def moveTick (d : Int) (t : Nat) : Nat := ((t : Int) + d).toNat

/-- The pulses in progress keep their lengths over a SET that moves the count by `d`. -/
def State.moveOutputs (s : State) (d : Int) : State :=
  { s with outs := s.outs.map fun e => (e.1, { e.2 with
      pulses := e.2.pulses.map fun p => { p with start := moveTick d p.start, stop := p.stop.map (moveTick d) }
      seen := moveTick d e.2.seen }) }

/-- Whether a source is a groom. -/
def OutSrc.isGroom : OutSrc → Bool
  | .groom _ => true
  | _ => false

/-- A halt by the mode controller discards the grooms' pulses and level changes that have not begun (R511). -/
def State.discardGroomOutputs (s : State) : State :=
  (List.range 31).foldl (fun a o =>
    let b := a.settleOut o
    let x := b.sched o
    b.setSched o { x with
      pulses := x.pulses.filter fun p => !(p.src.isGroom && decide (b.now < p.start))
      changes := x.changes.filter fun c => !(c.src.isGroom && decide (b.now < c.tick)) }) s

/-- A write to OUT_CFG (R568, R572): OUT_CFG 31 ignores writes; a field output's switch follows ENABLE and INVERT. -/
def State.outCfgWrite (s0 : State) (o : Nat) (v m : Word) : State :=
  if o = 31 then s0
  else
    let s := s0.settleOut o
    let before := xor (s.isOn F.OUT_CFG_ENABLE o && (s.sched o).driven) (s.isOn F.OUT_CFG_INVERT o)
    let s1 := s.wr .OUT_CFG o (writeFields .OUT_CFG (s.rd .OUT_CFG o) v m)
    let after := xor (s1.isOn F.OUT_CFG_ENABLE o && (s1.sched o).driven) (s1.isOn F.OUT_CFG_INVERT o)
    if isFo o && before != after then s1.foCommand (o - 16) after s1.now else s1

/-- OUT_STATUS as it reads (R593). -/
def State.outStatus (s0 : State) (o : Nat) : Word :=
  let s := s0.settleOut o
  let x := s.sched o
  field 0 1 (b2n x.level) ||| field 1 1 (b2n x.driven) ||| field 2 4 x.pulses.length ||| field 6 1 (b2n !s.outOpen)

end Sys2Proof.Machine
end

