-- ==== Sys2Proof/Machine/TimeBase.lean ====
section
/-! DEFINITION. The time base (R550 to R563), the timestamp capture latches (R564, R565) and the trigger inputs (R566). -/

namespace Sys2Proof.Machine

/-! ### Discipline (R554 to R556) -/

/-- The code of a discipline state (Table 12.9). -/
def Disc.code : Disc → Nat
  | .free => 0 | .locking => 1 | .locked => 2 | .holdover => 3

/-- Milliseconds in ticks. -/
def msTicks (n : Nat) : Nat := n * 4000000

/-- TB_PPS_OFFSET as a signed tick count (R589). -/
def State.ppsOffset (s : State) : Int := signed 32 (s.get F.TB_PPS_OFFSET_OFFSET)

/-- The multiple of 4,000,000,000 nearest to `x`. -/
def nearestSecond (x : Int) : Int := (x + 2000000000) / 4000000000 * 4000000000

/-- The phase error of an edge stamped `t` (R555). -/
def State.phaseError (s : State) (t : Nat) : Int := t - (nearestSecond (t - s.ppsOffset) + s.ppsOffset)

/-- A field whose 0 acts as 1 (Table 12.10). -/
def atLeast1 (n : Nat) : Nat := max n 1

/-- Whether the stamper accepts an edge stamped `t` (R554). -/
def State.ppsAccepts (s : State) (t : Nat) : Bool :=
  let far := match s.tb.lastAccept with
    | none => true
    | some u => decide (u + msTicks 900 ≤ t)
  let near := (s.phaseError t).natAbs ≤ atLeast1 (s.get F.TB_CFG_PPS_WINDOW) * ticksPerUs
  match s.tb.disc with
  | .free | .locking => far
  | .locked => near
  | .holdover => near || 3 ≤ s.tb.spaced

/-- The frequency reference lets an edge start the loop (Table 12.1). -/
def State.refGood (s : State) : Bool := s.tb.refPresent || !s.isOn F.TB_CFG_REF10M_EN

/-- LOCKED ends in HOLDOVER (Table 12.1). -/
def State.loseSync (s : State) : State :=
  let s1 := { s with tb := { s.tb with disc := .holdover, rejects := 0, spaced := 0 } }
  ((s1.raiseYard 434 s1.now).put F.TB_STATUS_SYNC_LOST 0 1).inc F.TB_COUNT_SYNC_LOSSES

/-- The loop stops slewing and the state returns to FREE (Table 12.1). -/
def State.freeRun (s : State) : State :=
  { s with tb := { s.tb with disc := .free, slew := 0, inRow := 0, rejects := 0, spaced := 0 } }

/-- The compare after a forward SET (R562): the first value of its series at or after the new count. -/
def State.cmpAfterSet (s : State) (old : Nat) : State :=
  let t := s.tb
  if old < t.count ∧ t.cmpNext < t.count then
    let p := (s.rd .TB_COMPARE_PERIOD).toNat
    if p = 0 then { s with tb := { t with cmpFired := true } }
    else
      let q := max p 4000
      { s with tb := { t with cmpNext := t.cmpNext + (t.count - t.cmpNext + q - 1) / q * q, cmpLate := false } }
  else s

/-- The count takes the value `v` (R559, Table 12.1). -/
def State.applySet (s : State) (v : Nat) : State :=
  let old := s.now
  let cut := s.cutOutputs false
  let d : Int := v - old
  let t := cut.tb
  let s1 := { cut with tb := { t with
    count := v
    unsync := false
    unsyncEnd := if t.unsync then v else t.unsyncEnd
    disc := if s.isOn F.TB_CFG_PPS_EN then .locking else .free
    inRow := 0
    rejects := 0
    spaced := 0
    lastEdge := t.lastEdge.map (moveTick d)
    lastAccept := t.lastAccept.map (moveTick d)
    slew := 0
    slewAcc := 0
    setPending := false
    seconds := v / ticksPerSecond } }
  (((s1.moveOutputs d).cmpAfterSet old).put F.TB_CTRL_SET 0 0).inc F.TB_COUNT_SETS

/-- A SET is refused (R558). -/
def State.refuseSet (s : State) : State :=
  ({ s with tb := { s.tb with setPending := false } }.put F.TB_CTRL_SET 0 0).put F.TB_STATUS_SET_REFUSED 0 1

/-- Whether the mode allows a SET (R558). -/
def Mode.settable : Mode → Bool
  | .ready | .quiet | .hold => true
  | _ => false

/-- A write of 1 to TB_CTRL.SET (R558). -/
def State.setGo (s : State) : State :=
  if !s.ctl.mode.settable then s.refuseSet
  else if s.isOn F.TB_CTRL_SET_AT_PPS then
    if s.isOn F.TB_CFG_PPS_EN then { s with tb := { s.tb with setPending := true } }.put F.TB_CTRL_SET 0 1
    else s.refuseSet
  else s.applySet (s.rd .TB_SET_VALUE).toNat

/-- A SET that waits for its edge is refused when the mode leaves READY, QUIET and HOLD (R558). -/
def State.tbMode (s : State) : State := if s.tb.setPending && !s.ctl.mode.settable then s.refuseSet else s

/-- The discipline state moves at an accepted edge with phase error `e` (Table 12.1); the loop slews the error away (R555). -/
def State.discipline (s : State) (e : Int) : State :=
  let t := s.tb
  let good := decide (e.natAbs ≤ atLeast1 (s.get F.TB_CFG_LOCK_NS) * 4)
  let start := s.isOn F.TB_CFG_PPS_EN && s.refGood
  match t.disc with
  | .free => if start then { s with tb := { t with disc := .locking, inRow := 0, slew := -e } } else s
  | .locking =>
      if good then
        if 2 ≤ t.inRow then { s with tb := { t with disc := .locked, inRow := 0, slew := -e } }
        else { s with tb := { t with inRow := t.inRow + 1, slew := -e } }
      else { s with tb := { t with inRow := 0, slew := -e } }
  | .locked => { s with tb := { t with slew := -e } }
  | .holdover => if start then { s with tb := { t with disc := .locking, inRow := 0, slew := -e } } else s

/-- An accepted edge stamped `t0`: a SET that waits for it is applied first (R554, R555, R558). -/
def State.acceptEdge (s : State) (t0 : Nat) : State :=
  let (s1, t) := if s.tb.setPending then
      let v := (s.rd .TB_SET_VALUE).toNat
      (s.applySet (v + (s.now - t0)), v)
    else (s, t0)
  let e := s1.phaseError t
  let s2 := { s1 with tb := { s1.tb with rejects := 0, spaced := 0, lastEdge := some t, lastAccept := some t } }
  let s3 := (s2.wr .TB_PPS_STAMP 0 (word t)).wr .TB_PHASE_ERR 0 (word (unsigned 64 e))
  (s3.discipline e).raiseYard 432 t

/-- A rejected edge stamped `t` (R554, Table 12.1). -/
def State.rejectEdge (s : State) (t : Nat) : State :=
  let b := s.tb
  let even := match b.lastEdge with
    | none => false
    | some u => decide (u + msTicks 900 ≤ t) && decide (t ≤ u + msTicks 1100)
  let s1 := { s with tb := { b with
    rejects := b.rejects + 1, spaced := if even then b.spaced + 1 else 0, lastEdge := some t } }
  let s2 := s1.inc F.TB_COUNT_PPS_REJECT
  if b.disc = .locked ∧ 3 ≤ b.rejects + 1 then s2.loseSync else s2

/-- PPS_EDGE (R554 to R556, R558): an edge of the polarity that PPS_FALLING selects is accepted or counted. -/
def execPpsEdge (stamp : Nat) (falling : Bool) (s : State) : Result :=
  .next <|
    if s.isOn F.TB_CFG_PPS_FALLING != falling then s
    else
      let s1 := s.reach stamp
      if s1.ppsAccepts stamp then s1.acceptEdge stamp else s1.rejectEdge stamp

/-- PPS_TIMEOUT (Table 12.1): 1.5 s without an accepted edge. -/
def execPpsTimeout (s : State) : Result := .next (if s.tb.disc = .locked then s.loseSync else s)

/-- REF10M_LOST (R552, Table 12.1). -/
def execRef10mLost (s : State) : Result :=
  .next <|
    let s1 := { s with tb := { s.tb with refPresent := false } }
    if s.isOn F.TB_CFG_REF10M_EN then
      match s.tb.disc with
      | .locking => s1.freeRun
      | .locked => s1.loseSync
      | .free | .holdover => s1
    else s1

/-- REF10M_PRESENT (R552). -/
def execRef10mPresent (s : State) : Result := .next { s with tb := { s.tb with refPresent := true } }

/-! ### TB_CTRL and TB_CFG (R556 to R562, R587, R588) -/

/-- The compare is written, enabled or disabled (R562). -/
def State.cmpArm (s : State) : State :=
  let v := (s.rd .TB_COMPARE).toNat
  { s with tb := { s.tb with cmpNext := v, cmpLate := decide (v ≤ s.now), cmpFired := false } }

/-- A write of 1 to TB_CTRL.ADJUST_GO (R560). -/
def State.adjustGo (s : State) : State :=
  if s.isOn F.TB_CFG_PPS_EN then s.put F.TB_STATUS_ADJ_REFUSED 0 1
  else { s with tb := { s.tb with slew := signed 64 (s.rd .TB_ADJUST).toNat, slewAcc := 0 } }.inc F.TB_COUNT_ADJUSTS

/-- TB_CTRL.MARK_UNSYNC (R557). -/
def State.markUnsync (s : State) : State := { s with tb := { s.tb with unsync := true } }

/-- TB_CTRL.CNT_CLEAR (R588): every counter at PF0 BAR0 + 0x0002_0000 to 0x0002_5FFF. -/
def State.tbCntClear (s : State) : State :=
  let s1 := s.rstWhere fun r => r == .TB_COUNT || r == .OUT_COUNT || r == .WP_LIST_COUNT || r == .WP_GLOBAL
  let s2 := (List.range 64).foldl (fun a n =>
    (a.put F.LATCH_STATUS_MISSED n 0).put F.LATCH_STATUS_CAPTURES n 0) s1
  (List.range 8).foldl (fun a i => (a.put F.TRIGIN_STATUS_FAST i 0).put F.TRIGIN_STATUS_EDGES i 0) s2

/-- A write to TB_CTRL (R588). -/
def State.tbCtrlWrite (s : State) (v m : Word) : State :=
  let w := v &&& m
  let was := s.isOn F.TB_CTRL_COMPARE_EN
  let keep := fieldMask 1 1 ||| fieldMask 4 1
  let s1 := s.wr .TB_CTRL 0 ((s.rd .TB_CTRL &&& ~~~(keep &&& m)) ||| (w &&& keep))
  let s2 := if bit w 3 then s1.markUnsync else s1
  let s3 := if bit w 5 then s2.tbCntClear else s2
  let s4 := if s3.isOn F.TB_CTRL_COMPARE_EN != was then s3.cmpArm else s3
  let s5 := if bit w 2 then s4.adjustGo else s4
  if bit w 0 then s5.setGo else s5

/-- Every byte of a register enabled. -/
def allBytes : Word := BitVec.allOnes 64

/-- A write to TB_CFG (Table 12.1, R587): clearing PPS_EN frees the loop. -/
def State.tbCfgWrite (s : State) (v m : Word) : State :=
  let was := s.isOn F.TB_CFG_PPS_EN
  let s1 := s.wr .TB_CFG 0 (writeFields .TB_CFG (s.rd .TB_CFG) v m)
  if was && !s1.isOn F.TB_CFG_PPS_EN then s1.freeRun else s1

/-- TB_SET (R558, R559). -/
def execTbSet (v : Word) (s : State) : Result := .next (s.tbCtrlWrite (v ||| 1) allBytes)

/-- TB_ADJUST_GO (R560). -/
def execTbAdjustGo (v : Word) (s : State) : Result := .next (s.tbCtrlWrite (v ||| 4) allBytes)

/-- MARK_UNSYNC (R557). -/
def execMarkUnsync (s : State) : Result := .next s.markUnsync

/-- TB_CNT_CLEAR (R588). -/
def execTbCntClear (s : State) : Result := .next s.tbCntClear

/-- SLEW_COMPLETE (R555, R560): the slew has removed its offset at SLEW_MAX ppm, and the count has run on meanwhile. -/
def execSlewComplete (s : State) : Result :=
  .next <|
    let t := s.tb
    if t.slew = 0 then s
    else
      let run := t.slew.natAbs * 1000000 / atLeast1 (s.get F.TB_CFG_SLEW_MAX)
      { s with tb := { t with count := ((t.count + run : Int) + t.slew).toNat, slew := 0, slewAcc := 0 } }

/-! ### Compare and seconds (R562, R563) -/

/-- TB_COMPARE_FIRE (R562). -/
def execTbCompareFire (s : State) : Result :=
  .next <|
    if s.isOn F.TB_CTRL_COMPARE_EN && !s.tb.cmpFired then
      let c := s.tb.cmpNext
      let s1 := if s.tb.cmpLate then s else s.reach c
      let s2 := s1.raiseYard 435 (if s.tb.cmpLate then s1.now else c)
      let p := (s2.rd .TB_COMPARE_PERIOD).toNat
      if p = 0 then { s2 with tb := { s2.tb with cmpFired := true } }
      else
        let q := max p 4000
        { s2 with tb := { s2.tb with cmpNext := c + max 1 ((s2.now - c) / q + 1) * q, cmpLate := false } }
    else s

/-- SECOND_BOUNDARY (R563): the count passes the next multiple of 4,000,000,000. -/
def execSecondBoundary (s : State) : Result :=
  .next <|
    let b := (s.tb.seconds + 1) * ticksPerSecond
    let s1 := s.reach b
    { s1 with tb := { s1.tb with seconds := s.tb.seconds + 1 } }.raiseYard 433 b

/-- The count wraps after 2^64 ticks (R551). -/
def State.tbNow (s : State) : Word := word s.now

/-- TB_STATUS as it reads (R586). -/
def State.tbStatus (s : State) : Word :=
  let t := s.tb
  let pps := match t.lastAccept with
    | none => false
    | some u => decide (s.now ≤ u + msTicks 1500)
  field 0 2 t.disc.code ||| field 2 1 (b2n t.unsync) ||| field 3 1 (b2n t.refPresent) ||| field 4 1 (b2n pps) |||
    field 5 1 (b2n (t.slew != 0)) ||| field 6 1 (b2n t.setPending) ||| (s.rd .TB_STATUS &&& fieldMask 7 3)

/-! ### Capture latches (R564, R565, R590) -/

/-- Whether axis `n` is disabled or in fault as the core sees it (R632, R651). -/
def State.axisDead (s : State) (n : Nat) : Bool :=
  !s.isOn F.ENC_CFG_ENABLE n || s.get F.ENC_STATUS_STATE n == 3 || s.get F.ENC_STATUS_STATE n == 0

/-- The last position sample of an axis whose tick is at or before `t`. -/
def State.sampleAt (s : State) (axis t : Nat) : Option Sample :=
  (Tab.get [] s.samples axis).find? fun x => decide (x.tick ≤ t)

/-- The position an axis had at tick `t`: none while it is disabled or in fault. -/
def State.posAt (s : State) (axis t : Nat) : Option Word :=
  if s.axisDead axis then none else (s.sampleAt axis t).map (·.pos)

/-- Latch `n` captures an event with tick `t` (R564, R565). -/
def State.capture (s : State) (n t : Nat) : State :=
  let s1 := s.wr .LATCH_TICK n (word t)
  let pos := if s.isOn F.LATCH_CFG_POS_EN n then s.posAt (s.get F.LATCH_CFG_AXIS n) t else some 0
  let p := pos.getD 0
  let s2 := if s.isOn F.LATCH_CFG_POS_EN n then
      (s1.wr .LATCH_POS n p).put F.LATCH_STATUS_POS_INVALID n (b2n pos.isNone) else s1
  let s3 := (s2.put F.LATCH_STATUS_VALID n 1).incWrap F.LATCH_STATUS_CAPTURES n
  let q := s.get F.LATCH_CFG_TROUGH n
  if 400 ≤ q then
    s3.pushItem q [field 0 8 0x09 ||| field 8 6 n ||| field 32 32 (s3.get F.LATCH_STATUS_CAPTURES n), word t, p]
  else s3

/-- LATCH_EVENT (R564): an event delivered to latch `n` is captured, or counted MISSED. -/
def execLatchEvent (n : Fin 64) (s : State) : Result :=
  .next <| match s.takeEvent (312 + n.val) with
    | none => s
    | some (t, s1) =>
        if !s1.isOn F.LATCH_CFG_ENABLE n.val then s1
        else if s1.isOn F.LATCH_STATUS_VALID n.val && !s1.isOn F.LATCH_CFG_KEEP_LAST n.val then
          s1.inc F.LATCH_STATUS_MISSED n.val
        else s1.capture n.val t

/-! ### Trigger inputs (R566, R591) -/

/-- TRIG_IN_EDGE (R566): a qualified edge of TRIG_IN `i`, stamped at the pin. -/
def execTrigInEdge (i : Fin 8) (rising : Bool) (stamp : Nat) (s : State) : Result :=
  .next <|
    let k := i.val
    let last := Tab.get 0 s.tb.trigLast k
    let s0 := s.reach stamp
    let s1 := { s0 with tb := { s0.tb with trigLast := Tab.set 0 s0.tb.trigLast k (stamp + 1) } }
    let s2 := s1.put F.TRIGIN_STATUS_LEVEL k (b2n rising)
    let chosen := match s.get F.TRIGIN_CFG_EDGE k with
      | 0 => rising
      | 1 => !rising
      | _ => true
    if !(s.isOn F.TRIGIN_CFG_ENABLE k && chosen) then s2
    else if last ≠ 0 ∧ stamp + 1 < last + 16 then s2.inc F.TRIGIN_STATUS_FAST k
    else (s2.incWrap F.TRIGIN_STATUS_EDGES k).raiseYard (16 + k) stamp

end Sys2Proof.Machine
end

