-- ==== Sys2Proof/Machine/Waypoints.lean ====
section
/-! DEFINITION. The waypoint table and its 32 lists (R523 to R525, R574 to R584). -/

namespace Sys2Proof.Machine

def State.wpl (s : State) (l : Nat) : WpList := Tab.get WpList.zero s.wpLists l

def State.setWpl (s : State) (l : Nat) (x : WpList) : State :=
  ({ s with wpLists := Tab.set WpList.zero s.wpLists l x }).put F.WP_LIST_STATUS_GATES l x.gates.length

/-- STATE of a list: 0 IDLE, 1 ACTIVE, 2 DONE (Table 12.13). -/
def State.wpState (s : State) (l : Nat) : Nat := s.get F.WP_LIST_STATUS_STATE l

def State.wpNext (s : State) (l : Nat) : Nat := s.get F.WP_LIST_STATUS_NEXT l

def State.wpFirst (s : State) (l : Nat) : Nat := s.get F.WP_LIST_DESC_FIRST l

def State.wpCount (s : State) (l : Nat) : Nat := s.get F.WP_LIST_DESC_COUNT l

/-- Word `w` of entry `i`. -/
def State.wpWord (s : State) (i w : Nat) : Word := Tab.get 0 s.wpMem (2 * i + w)

/-! ### Gates (R578) -/

/-- The pending pulse of list `l`'s open gate on output `o`, if its scheduler still holds it. -/
def State.gatePulse (s : State) (l o : Nat) : Option Pulse :=
  (s.sched o).pulses.find? fun p => p.src == .gate l && p.stop.isNone

/-- The scheduler of output `o` with the open pulse of list `l` replaced, or removed. -/
def State.setGatePulse (s : State) (l o : Nat) (p : Option Pulse) : State :=
  let x := s.sched o
  let rest := x.pulses.filter fun q => !(q.src == .gate l && q.stop.isNone)
  s.setSched o { x with pulses := match p with | none => rest | some q => rest ++ [q] }

/-- An open gate ends at tick `t`, for its list has left ACTIVE: a pulse not begun is removed, and one begun keeps at least the
minimum width (R578). -/
def State.endGate (s0 : State) (l : Nat) (g : Gate) (t : Nat) : State :=
  let s := s0.settleOut g.out
  let s1 := match s.gatePulse l g.out with
    | none => s
    | some p =>
        let e := gridTick g.out t
        if max e s.now ≤ p.start then s.setGatePulse l g.out none
        else s.setGatePulse l g.out (some { p with stop := some (max e (p.start + minWidth g.out)) })
  (s1.redrive g.out).inc F.WP_LIST_COUNT_ACTION_ERR l

/-- A list leaves ACTIVE for state `st`: its open gates end now (R578). -/
def State.leaveActive (s : State) (l st : Nat) : State :=
  let x := s.wpl l
  let s1 := x.gates.foldl (fun a g => a.endGate l g a.now) s
  (s1.setWpl l { x with gates := [], refused := [], skip := false }).put F.WP_LIST_STATUS_STATE l st

/-- GATE_START of list `l` on output `o` at hit tick plus DELAY `t` (R577, R578). -/
def State.gateStart (s0 : State) (l o t d take : Nat) : State :=
  let s := s0.settleOut o
  let x := s.wpl l
  if x.gates.any (fun g => g.out == o) then s.inc F.WP_LIST_COUNT_ACTION_ERR l
  else
    let deny (a : State) : State := a.setWpl l { a.wpl l with refused := o :: (a.wpl l).refused.filter (· != o) }
    match s.barred o with
    | some r => deny r.2
    | none =>
        let (first, _, s1) := s.place o (some t) (decide (d ≠ 0)) take
        let (r, s2) := s1.addPulse o ⟨.gate l, gridTick o first, none⟩ false
        if r.refused then deny s2
        else
          let y := s2.wpl l
          s2.setWpl l { y with gates := y.gates ++ [⟨o, t⟩], refused := y.refused.filter (· != o) }

/-- GATE_STOP of list `l` on output `o` at hit tick plus DELAY `t` (R578). -/
def State.gateStop (s0 : State) (l o t d take : Nat) : State :=
  let s := s0.settleOut o
  let x := s.wpl l
  match x.gates.find? (fun g => g.out == o) with
  | none =>
      if x.refused.contains o then s.setWpl l { x with refused := x.refused.filter (· != o) }
      else (s.windowOrder (.gate l) o).inc F.WP_LIST_COUNT_ACTION_ERR l
  | some g =>
      let s1 := s.setWpl l { x with gates := x.gates.filter (fun h => h.out != o) }
      let a := gridTick o g.start
      let b := gridTick o t
      let lead := leadLimit o take
      if b ≤ a then
        let s2 := if b = a then s1.inc F.OUT_COUNT_WINDOW_EMPTY o else s1.windowOrder (.gate l) o
        match s2.gatePulse l o with
        | none => s2
        | some p =>
            if s2.now < p.start then (s2.setGatePulse l o none).redrive o
            else s2.setGatePulse l o (some { p with stop := some (max lead (p.start + minWidth o)) })
      else match s1.gatePulse l o with
        | none => s1
        | some p =>
            let late := decide (b < lead)
            let s2 := if late && d ≠ 0 then s1.inc F.OUT_COUNT_LATE o else s1
            let e := if late then gridTick o lead else b
            if e < p.start + minWidth o then
              (s2.inc F.OUT_COUNT_WINDOW_STRETCHED o).setGatePulse l o (some { p with stop := some (p.start + minWidth o) })
            else s2.setGatePulse l o (some { p with stop := some e })

/-! ### Hits (R575 to R577) -/

/-- The action of an entry's word 1 at hit tick `t`, taken at tick `take` (Table 12.4, R577). -/
def State.wpAction (s : State) (l : Nat) (w : Word) (t take : Nat) : State :=
  let o := bits w 0 5
  let act := bits w 5 3
  let d := bits w 32 16
  let late := decide (d ≠ 0)
  let bad := s.inc F.WP_LIST_COUNT_ACTION_ERR l
  if act = 0 then s
  else if act = 7 then bad
  else if o = 31 then bad
  else match act with
    | 1 => (s.takePulse o (some (t + d)) (bits w 12 20) late .waypoint take).2
    | 2 => (s.takeLevel o .set (some (t + d)) late .waypoint take).2
    | 3 => (s.takeLevel o .clear (some (t + d)) late .waypoint take).2
    | 4 => (s.takeLevel o .toggle (some (t + d)) late .waypoint take).2
    | 5 => s.gateStart l o (t + d) d take
    | _ => s.gateStop l o (t + d) d take

/-- NEXT moves past an entry; after the last one the list is DONE. -/
def State.wpAdvance (s : State) (l : Nat) : State :=
  let s1 := s.put F.WP_LIST_STATUS_NEXT l (s.wpNext l + 1)
  if s.wpCount l ≤ s.wpNext l + 1 then s1.leaveActive l 2 else s1

/-- The NEXT entry of list `l` is hit by a sample (R575, R576). -/
def State.wpHit (s : State) (l : Nat) (x : Sample) (take : Nat) : State :=
  let i := s.wpFirst l + s.wpNext l
  let w := s.wpWord i 1
  let n := s.wpNext l
  let s1 := s.incWrap F.WP_LIST_COUNT_HITS l
  let s2 := if bit w 8 then s1 else s1.raiseYard (32 + l) x.tick
  let q := bits (s2.wpl l).cfg 16 16
  let s3 := if 400 ≤ q then
      s2.pushItem q [field 0 8 0x0A ||| field 8 5 l ||| field 16 16 (bits w 48 16) ||| field 32 18 n, word x.tick, x.pos]
    else s2
  (s3.wpAction l w x.tick take).wpAdvance l

/-- Whether a sample satisfies the NEXT entry of list `l` (R575). -/
def State.wpMet (s : State) (l : Nat) (x : Sample) : Bool :=
  let p := (s.wpWord (s.wpFirst l + s.wpNext l) 0).toInt
  if s.isOn F.WP_LIST_DESC_DIR l then x.pos.toInt ≤ p else p ≤ x.pos.toInt

/-- Whether list `l` compares against axis `axis` in the present mode (R581, R582). -/
def State.wpLive (s : State) (l axis : Nat) : Bool :=
  s.wpState l == 1 && s.get F.WP_LIST_DESC_AXIS l == axis && decide (s.wpNext l < s.wpCount l)

/-- At the first sample after activation with SKIP_PASSED, NEXT moves past every entry the sample satisfies (R580). -/
def State.wpSkip (s : State) (l : Nat) (x : Sample) : Nat → State
  | 0 => s
  | fuel + 1 =>
      if s.wpState l == 1 && decide (s.wpNext l < s.wpCount l) && s.wpMet l x then
        State.wpSkip ((s.inc F.WP_LIST_COUNT_SKIPPED l).wpAdvance l) l x fuel
      else s

/-- An uncorrectable error in the entry that list `l` examines (R583). -/
def State.wpUe (s : State) (l : Nat) : State :=
  let i := s.wpFirst l + s.wpNext l
  let s1 := ((s.leaveActive l 0).put F.WP_LIST_STATUS_UE l 1).inc F.WP_GLOBAL_UE
  s1.alarm 0x1A (field 0 8 l ||| field 32 18 i)

/-- One cycle of the comparator over lists `ls` against a sample: every list whose NEXT entry the sample satisfies hits it. Answers
whether any did. -/
def State.wpCycle (s : State) (x : Sample) (take : Nat) : List Nat → Bool × State
  | [] => (false, s)
  | l :: ls =>
      if s.wpLive l x.axis && s.wpMet l x then
        let (_, s1) := State.wpCycle (s.wpHit l x take) x take ls
        (true, s1)
      else State.wpCycle s x take ls

/-- Cycles of the comparator until no list hits: one entry of each list per cycle (R575). -/
def State.wpCycles (s : State) (x : Sample) (take : Nat) : Nat → State
  | 0 => s
  | fuel + 1 =>
      match s.wpCycle x take (List.range 32) with
      | (true, s1) => State.wpCycles s1 x (take + 4) fuel
      | (false, s1) => s1

/-- The modes in which lists compare (R582). -/
def Mode.compares : Mode → Bool
  | .ready | .armed | .stream | .burst | .drain | .shadow => true
  | _ => false

/-- What the check of the entry that list `l` examines first finds (R583). -/
def State.wpExamine (s : State) (axis : Nat) (e : Fin 32 × Ecc) : State :=
  if !s.wpLive e.1.val axis then s
  else match e.2 with
    | .clean => s
    | .single => s.inc F.WP_GLOBAL_ECC_CORR
    | .double => s.wpUe e.1.val

/-- POSITION_SAMPLE_RECEIVED (R575 to R583, R652): the oldest sample of the axis that has crossed the levee enters ISL_YARD.
`ecc` is what the checks of the entries examined first find. -/
def execPositionSampleReceived (axis : Fin 8) (ecc : List (Fin 32 × Ecc)) (s : State) : Result :=
  .next <| match s.fld.arrived.find? (fun x => x.axis == axis.val) with
    | none => s
    | some x =>
        let s1 := { s with
          fld := { s.fld with arrived := s.fld.arrived.erase x }
          samples := Tab.modify [] s.samples axis.val (fun h => x :: h) }
        let s2 := (s1.wr .ENC_POS axis.val x.pos).wr .ENC_POS_TICK axis.val (word x.tick)
        if !s2.ctl.mode.compares then s2
        else
          let s3 := ecc.foldl (fun a e => a.wpExamine axis.val e) s2
          let s4 := (List.range 32).foldl (fun a l =>
            if (a.wpl l).skip && a.wpLive l axis.val then
              (a.setWpl l { a.wpl l with skip := false }).wpSkip l x (a.wpCount l + 1) else a) s3
          s4.wpCycles x s4.now 262145

/-! ### Lists (R523 to R525, R580, R582, R594) -/

/-- Whether a descriptor is refused (R524). -/
def State.wpDescBad (s : State) (l : Nat) (v : Word) : Bool :=
  s.wpState l == 1 || bits v 18 19 == 0 || 262144 < bits v 0 18 + bits v 18 19 || bits v 41 23 != 0

/-- A descriptor is written (R524, R580): answers whether it was refused. -/
def State.wpSet (s : State) (l : Nat) (v : Word) : Bool × State :=
  if s.wpDescBad l v then (true, s)
  else
    let s1 := s.wr .WP_LIST_DESC l (v &&& fieldMask 0 41)
    (false, (s1.put F.WP_LIST_STATUS_STATE l 0).put F.WP_LIST_STATUS_NEXT l 0)

/-- A list is activated (R524, R580): answers whether it was refused. -/
def State.wpActivate (s : State) (l : Nat) : Bool × State :=
  if s.wpState l ≠ 0 then (false, s)
  else if s.wpCount l = 0 then (true, s)
  else
    let c := s.rd .WP_LIST_CFG l
    let s1 := s.setWpl l { s.wpl l with cfg := c, skip := bit c 0 }
    (false, s1.put F.WP_LIST_STATUS_STATE l 1)

/-- A list is deactivated and keeps its position (R524). -/
def State.wpDeactivate (s : State) (l : Nat) : State := if s.wpState l = 1 then s.leaveActive l 0 else s

/-- A refused host operation sets REFUSED (R580). -/
def wpHost (l : Nat) (r : Bool × State) : State :=
  if r.1 then r.2.put F.WP_LIST_STATUS_REFUSED l 1 else r.2

/-- A host write of WP_LIST_DESC. -/
def State.wpDescWrite (s : State) (l : Nat) (v : Word) : State := wpHost l (s.wpSet l v)

/-- A host write of WP_LIST_CTRL (R594). -/
def State.wpCtrlWrite (s : State) (l : Nat) (v : Word) : State :=
  match bits v 0 2 with
  | 1 => wpHost l (s.wpActivate l)
  | 2 => s.wpDeactivate l
  | _ => s

/-- WP_LIST_DESC_WRITE (R580). -/
def execWpListDescWrite (l : Fin 32) (v : Word) (s : State) : Result := .next (s.wpDescWrite l.val v)

/-- WP_LIST_ACTIVATE (R580, R594). -/
def execWpListActivate (l : Fin 32) (s : State) : Result := .next (s.wpCtrlWrite l.val 1)

/-- WP_LIST_DEACTIVATE (R580, R594). -/
def execWpListDeactivate (l : Fin 32) (s : State) : Result := .next (s.wpCtrlWrite l.val 2)

/-- Entry to HOLD or QUIET deactivates every ACTIVE list (R582). -/
def State.wpAllOff (s : State) : State := (List.range 32).foldl (fun a l => a.wpDeactivate l) s

/-- Whether entry `i` lies within an ACTIVE list (R584). -/
def State.wpBusy (s : State) (i : Nat) : Bool :=
  (List.range 32).any fun l =>
    s.wpState l == 1 && decide (s.wpFirst l ≤ i) && decide (i < s.wpFirst l + s.wpCount l)

/-- A host write of word `w` of entry `i` with enabled bytes `m` (R574, R584). -/
def State.wpEntryWrite (s : State) (i w : Nat) (v m : Word) : State :=
  if s.wpBusy i then s.inc F.WP_GLOBAL_WRITE_DISCARD
  else { s with wpMem := Tab.set 0 s.wpMem (2 * i + w) ((s.wpWord i w &&& ~~~m) ||| (v &&& m)) }

/-- WAYPOINT_ENTRY_WRITE (R584). -/
def execWaypointEntryWrite (i : Fin 262144) (word1 : Bool) (v : Word) (s : State) : Result :=
  .next (s.wpEntryWrite i.val (b2n word1) v allBytes)

/-- The answer of WPT in GD (R525). -/
def State.wpAnswer (s : State) (l : Nat) (refused : Bool) : Word :=
  field 0 2 (s.wpState l) ||| field 2 1 (b2n refused) ||| field 32 19 (s.wpNext l)

end Sys2Proof.Machine
end

