-- ==== Sys2Proof/Machine/Field.lean ====
section
/-! DEFINITION. The field domain and the levee (chapter 14): heartbeats, encoder axes, field inputs and field outputs. -/

namespace Sys2Proof.Machine

def State.axis (s : State) (n : Nat) : FieldAxis := Tab.get FieldAxis.zero s.fld.axes n

def State.setAxis (s : State) (n : Nat) (x : FieldAxis) : State :=
  { s with fld := { s.fld with axes := Tab.set FieldAxis.zero s.fld.axes n x } }

def State.fin (s : State) (i : Nat) : FieldIn := Tab.get FieldIn.zero s.fld.ins i

def State.setFin (s : State) (i : Nat) (x : FieldIn) : State :=
  { s with fld := { s.fld with ins := Tab.set FieldIn.zero s.fld.ins i x } }

def State.fo (s : State) (k : Nat) : FieldOut := Tab.get FieldOut.zero s.fld.outs k

def State.setFo (s : State) (k : Nat) (x : FieldOut) : State :=
  { s with fld := { s.fld with outs := Tab.set FieldOut.zero s.fld.outs k x } }

def State.fldUp (s : State) : Bool := s.isOn F.FLD_STATUS_LINK_UP

/-! ### What the core shows of the field side (R648 to R654) -/

def FieldAxis.on (x : FieldAxis) : Bool := F.ENC_CFG_ENABLE.of x.cfg == 1

/-- MODE of an axis: 0 RS422, 1 HTL, 2 SSI. -/
def FieldAxis.mode (x : FieldAxis) : Nat := F.ENC_CFG_MODE.of x.cfg

/-- Whether an axis counts edges (RS422 or HTL). -/
def FieldAxis.incremental (x : FieldAxis) : Bool := x.mode != 2

/-- STATE of an axis (Table 14.11): it is UNDETERMINED while a receiver that its position needs is. -/
def FieldAxis.state (x : FieldAxis) : Nat :=
  if !x.on then 0
  else if x.fault ≠ 0 then 3
  else if x.b.isNone || (x.incremental && x.a.isNone) then 1
  else 2

/-- A qualified level as a bit; an UNDETERMINED receiver shows 0. -/
def levelBit (l : Option Bool) : Nat := b2n (l == some true)

/-- The status word of an axis, RW1C bits apart (Table 14.11). -/
def FieldAxis.status (x : FieldAxis) : Word :=
  field 0 2 x.state ||| field 2 1 (levelBit x.a) ||| field 3 1 (levelBit x.b) ||| field 4 1 (levelBit x.z) |||
    field 5 1 (b2n x.a.isNone) ||| field 6 1 (b2n x.b.isNone) ||| field 7 1 (b2n x.z.isNone) |||
    field 8 4 x.fault ||| field 12 1 (b2n x.armed)

/-- Axis `n` as the field side reports it reaches the core's registers. -/
def State.showAxis (s : State) (n : Nat) : State :=
  if !s.fldUp then s
  else
    let x := s.axis n
    let keep := s.rd .ENC_STATUS n &&& fieldMask 13 2
    let s1 := s.wr .ENC_STATUS n (x.status ||| keep ||| field 14 1 (b2n x.suspect))
    let s2 := ((s1.wr .ENC_Z_POS n x.zpos).wr .ENC_COUNT n x.counters).put F.ENC_CTRL_Z_ARM n (b2n x.armed)
    s2.setAxis n { x with suspect := false }

/-- Input `i` reaches the core's registers. -/
def State.showIn (s : State) (i : Nat) : State :=
  if !s.fldUp then s
  else
    let x := s.fin i
    s.wr .FI_STATUS i (x.counters ||| field 0 1 (levelBit x.level) ||| field 1 1 (b2n x.level.isNone))

/-- Whether an output's switch is on (R634 to R640). -/
def State.foOn (s : State) (k : Nat) : Bool :=
  let x := s.fo k
  s.fld.up && !x.overload && (if s.fld.hold then x.safeOn else x.level)

/-- Output `k` reaches the core's registers; an overload that it reports first sets OVERLOAD and raises the alarm (R635). -/
def State.showOut (s : State) (k : Nat) : State :=
  if !s.fldUp then s
  else if k = 15 then
    (s.put F.FO_STATUS_SWITCH_ON 15 (b2n s.fld.fo15)).put F.FO_STATUS_IN_HOLD 15 (b2n s.fld.hold)
  else
    let s1 := (s.put F.FO_STATUS_SWITCH_ON k (b2n (s.foOn k))).put F.FO_STATUS_IN_HOLD k (b2n s.fld.hold)
    if (s.fo k).overload && !s.isOn F.FO_STATUS_OVERLOAD k then
      (s1.put F.FO_STATUS_OVERLOAD k 1).alarm 0x20 (field 0 8 k)
    else s1

/-- Status and counters are refreshed from the field side. -/
def State.showField (s : State) : State :=
  let s1 := (List.range 8).foldl State.showAxis s
  let s2 := (List.range 16).foldl State.showIn s1
  let s3 := (List.range 16).foldl State.showOut s2
  let s4 := (s3.put F.FLD_STATUS_FIELD_HOLD 0 (b2n s3.fld.hold)).put F.FLD_STATUS_HB_OUT 0
    (b2n (s3.fld.last.hbEnable && !s3.fld.hold))
  let s5 := if s4.fld.holdEntered then s4.put F.FLD_STATUS_HOLD_SEEN 0 1 else s4
  { s5 with fld := { s5.fld with holdEntered := false } }

/-! ### The levee (R619 to R621) -/

/-- The modes in which the core sends RUN, and HB_ENABLE (R637). -/
def Mode.runs : Mode → Bool
  | .quiet | .ready | .armed | .stream | .burst | .drain | .shadow => true
  | _ => false

def Mode.hbOn : Mode → Bool
  | .ready | .armed | .stream | .burst | .drain | .shadow => true
  | _ => false

/-- Whether ISL_YARD runs: from BOOT onward (R553). -/
def Mode.yardOn (m : Mode) : Bool := m.runs || m == .hold || m == .boot

/-- A frame toward the field side: its item crosses, or is lost. -/
def State.frameOut (s : State) (ok : Bool) : State :=
  match s.fld.toField with
  | [] => s
  | it :: rest =>
      let f := { s.fld with toField := rest }
      match it, ok with
      | .heartbeat h, true => { s with fld := { f with beats := f.beats ++ [h] } }
      | .sync _, true => { s with fld := { f with synced := true } }
      | .cmd c _, true => { s with fld := { f with armed := f.armed ++ [c] } }
      | .cmd c n, false =>
          if 1 < n then { s with fld := { f with toField := .cmd c (n - 1) :: rest } }
          else { s with fld := { f with lost := f.lost ++ [c] } }
      | .heartbeat _, false => { s with fld := f }
      | .sync _, false => { s with fld := f }

/-- A frame toward the core: what arrives while ISL_YARD is stopped is lost. -/
def State.frameIn (s : State) (ok : Bool) : State :=
  match s.fld.toCore with
  | [] => s
  | x :: rest =>
      let f := { s.fld with toCore := rest }
      { s with fld := if ok && s.ctl.mode.yardOn then { f with arrived := f.arrived ++ [x] } else f }

/-- LEVEE_FRAME (R619, R620): the oldest item of a direction crosses, or its frame fails its CRC and is discarded. -/
def execLeveeFrame (toField ok : Bool) (s : State) : Result :=
  .next <|
    let s1 := if ok || !s.ctl.mode.yardOn then s else s.inc F.FLD_LEVEE_COUNT_LEVEE_CRC
    if toField then s1.frameOut ok else s1.frameIn ok

/-- LEVEE_CMD_RESEND (R620): a command both of whose frames failed is sent again. -/
def execLeveeCmdResend (s : State) : Result :=
  .next <| match s.fld.lost with
    | [] => s
    | c :: r =>
        { s with fld := { s.fld with lost := r, toField := s.fld.toField ++ [LeveeItem.cmd c 2] } }.inc
          F.FLD_LEVEE_COUNT_CMD_RESENDS

/-- CORE_HEARTBEAT_SEND (R637, R641): none in RESET or BOOT; RUN only once the link is up and the configuration agreed. -/
def execCoreHeartbeatSend (s : State) : Result :=
  .next <|
    let m := s.ctl.mode
    if m.runs || m == .hold then
      let h : HbFlags := ⟨m.runs && s.fldUp && s.isOn F.FLD_STATUS_CFG_SYNCED, m == .hold, m.hbOn⟩
      { s with fld := { s.fld with toField := s.fld.toField ++ [.heartbeat h] } }
    else s

/-- TIME_SYNC_SEND (R621): ISL_YARD runs from BOOT onward (R553). -/
def execTimeSyncSend (s : State) : Result :=
  .next <|
    if s.ctl.mode.yardOn then { s with fld := { s.fld with toField := s.fld.toField ++ [.sync s.now] } }
    else s

/-! ### Field hold (R638 to R640) -/

/-- Field hold is entered: outputs go to their safe states and commands are discarded (R639). -/
def Field.enterHold (f : Field) : Field :=
  { f with hold := true, holdEntered := f.holdEntered || !f.hold, fo15 := false, armed := [] }

/-- Field hold ends: each output keeps its safe state as its level (R640). -/
def Field.endHold (f : Field) : Field :=
  if f.hold then
    { f with
      hold := false
      outs := (List.range 15).foldl (fun t k => Tab.modify FieldOut.zero t k fun x => { x with level := x.safeOn }) f.outs }
  else f

/-- CORE_HEARTBEAT_RECEIVED (R638 to R640): the oldest core heartbeat that crossed is taken. -/
def execCoreHeartbeatReceived (s : State) : Result :=
  .next <| match s.fld.beats with
    | [] => s
    | h :: r =>
        let f := { s.fld with beats := r }
        if !f.up then { s with fld := f }
        else
          let f1 := { f with last := h }
          let f2 := if h.hold then f1.enterHold else if h.run then f1.endHold else f1
          { s with fld := if h.hbEnable then f2 else { f2 with fo15 := false } }

/-- FIELD_HOLD_TIMEOUT (R621, R639): 990 µs without a good core heartbeat. -/
def execFieldHoldTimeout (s : State) : Result :=
  .next <|
    if s.fld.up then { s with fld := { s.fld.enterHold with last := HbFlags.zero, synced := false } } else s

/-- HEARTBEAT_TOGGLE (R638): FO15 toggles every 500 µs while the last good core heartbeat carried HB_ENABLE; otherwise it is off. -/
def execHeartbeatToggle (s : State) : Result :=
  .next <|
    let f := s.fld
    let on := f.up && !f.hold && f.last.hbEnable
    { s with fld := { f with fo15 := on && !f.fo15 } }.emit (.edge 31 (on && !f.fo15) s.now)

/-! ### Link-up, loss and restart (R641 to R643) -/

/-- The core's configuration of axis `n` as it crosses to the field side: the receivers are UNDETERMINED when the channel is
enabled or its mode changes (R622). -/
def FieldAxis.config (x : FieldAxis) (v : Word) : FieldAxis :=
  let fresh := (!x.on && F.ENC_CFG_ENABLE.of v == 1) || F.ENC_CFG_MODE.of v != x.mode || F.ENC_CFG_ENABLE.of v == 0
  if fresh then
    { x with cfg := v, a := none, b := none, z := none, fault := 0, ssiPrev := none, ssiBad := 0, ssiGood := 0 }
  else { x with cfg := v }

/-- One register of the core is written across the levee. -/
def State.sendReg (s : State) (w : HeldWrite) : State :=
  match w.reg with
  | .ENC_CFG => s.setAxis w.i ((s.axis w.i).config (s.rd .ENC_CFG w.i))
  | .ENC_LOAD => s.setAxis w.i { s.axis w.i with load := s.rd .ENC_LOAD w.i }
  | .FI_CFG =>
      let x := s.fin w.i
      let v := s.rd .FI_CFG w.i
      let on := F.FI_CFG_ENABLE.of v == 1
      let was := F.FI_CFG_ENABLE.of x.cfg == 1
      s.setFin w.i { x with cfg := v, level := if on && was then x.level else none }
  | .FO_CFG => if w.i = 15 then s else s.setFo w.i { s.fo w.i with safeOn := s.isOn F.FO_CFG_SAFE_ON w.i }
  | _ => s

/-- Every configuration register of the chapter. -/
def fieldRegs : List HeldWrite :=
  ((List.range 8).map fun n => ⟨.ENC_CFG, n⟩) ++ ((List.range 8).map fun n => ⟨.ENC_LOAD, n⟩) ++
    ((List.range 16).map fun n => ⟨.FI_CFG, n⟩) ++ ((List.range 15).map fun n => ⟨.FO_CFG, n⟩)

/-- One register of the core takes the field side's value. -/
def State.copyReg (s : State) (w : HeldWrite) : State :=
  match w.reg with
  | .ENC_CFG => s.wr .ENC_CFG w.i (s.axis w.i).cfg
  | .ENC_LOAD => s.wr .ENC_LOAD w.i (s.axis w.i).load
  | .FI_CFG => s.wr .FI_CFG w.i (s.fin w.i).cfg
  | .FO_CFG => s.put F.FO_CFG_SAFE_ON w.i (b2n (s.fo w.i).safeOn)
  | _ => s

/-- The levee link comes up (R641): the field side's configuration is copied, the marked registers apart, or the core's own is
written; then the marked writes are sent in order. -/
def State.leveeUp (s : State) : State :=
  let held := s.fld.held
  let s1 := s.put F.FLD_STATUS_LINK_UP 0 1
  let s2 := if s.fld.cfgValid then (fieldRegs.filter fun w => !held.contains w).foldl State.copyReg s1
            else fieldRegs.foldl State.sendReg s1
  let s3 := held.foldl State.sendReg s2
  { s3 with fld := { s3.fld with cfgValid := true, held := [] } }.put F.FLD_STATUS_CFG_SYNCED 0 1

/-- The field side is lost (R632, R642): every axis reads LEVEE_LOST, or NO_VFIELD where that was reported. -/
def State.fieldLost (s : State) (vfieldOk : Bool) : State :=
  if !s.fldUp then s
  else
    let s1 := ((s.put F.FLD_STATUS_LINK_UP 0 0).put F.FLD_STATUS_FIELD_LOST_SEEN 0 1).inc F.FLD_LEVEE_COUNT_LINK_LOSSES
    let s2 := s1.alarm 0x21 (field 0 1 (b2n vfieldOk))
    (List.range 8).foldl (fun a n =>
      let x := a.axis n
      let c := satAdd 16 (F.ENC_COUNT_FAULTS.of x.counters) 1
      ((((a.setAxis n { x with counters := setBits x.counters 32 16 c }).put F.ENC_STATUS_STATE n 3).put
        F.ENC_STATUS_FAULT_CAUSE n (if vfieldOk then 4 else 3)).put F.ENC_STATUS_POS_SUSPECT n 1).inc F.ENC_COUNT_FAULTS n) s2

/-- FIELD_HEARTBEAT_RECEIVED (R641 to R643): VFIELD_OK is reported 0 below 17.0 V, 1 from 17.1 V, and as before between. -/
def execFieldHeartbeatReceived (vfield : Nat) (s : State) : Result :=
  .next <|
    if !s.fld.up || !s.ctl.mode.yardOn then s
    else
      let ok := if vfield < 1700 then false else if 1710 ≤ vfield then true else s.fld.report
      let s1 := { s with fld := { s.fld with report := ok } }
      let s2 := (s1.put F.FLD_STATUS_VFIELD_OK 0 (b2n ok)).put F.FLD_VFIELD_VFIELD 0 vfield
      if !ok then s2.fieldLost false
      else (if s2.fldUp then s2 else s2.leveeUp).showField

/-- FIELD_LOST (R642): 100 µs without a good field heartbeat. -/
def execFieldLost (s : State) : Result := .next (s.fieldLost (s.isOn F.FLD_STATUS_VFIELD_OK))

/-- VFIELD_LOW (R643): the field side holds itself in reset below 16 V. -/
def execVfieldLow (s : State) : Result :=
  .next { s with fld := { Field.zero with
    up := false, toField := s.fld.toField, held := s.fld.held, lost := s.fld.lost, arrived := s.fld.arrived } }

/-- VFIELD_RESTART (R643): every count, configuration and CONFIG_VALID are cleared, and field hold starts. -/
def execVfieldRestart (s : State) : Result :=
  .next <| if s.fld.up then s else { s with fld := { s.fld with up := true, report := true, hold := true } }

/-! ### Receivers (R622 to R624) -/

/-- The level of a pin: 0 A, 1 B, 2 Z. -/
def FieldAxis.pin (x : FieldAxis) : Nat → Option Bool
  | 0 => x.a
  | 1 => x.b
  | _ => x.z

def FieldAxis.setPin (x : FieldAxis) (p : Nat) (l : Option Bool) : FieldAxis :=
  match p with
  | 0 => { x with a := l }
  | 1 => { x with b := l }
  | _ => { x with z := l }

/-- Whether every receiver of the axis's mode is qualified: A, B and Z, or the data receiver B in SSI. -/
def FieldAxis.qualified (x : FieldAxis) : Bool :=
  x.b.isSome && (!x.incremental || (x.a.isSome && x.z.isSome))

/-- RECEIVER_QUALIFY (R623, R624): an UNDETERMINED receiver adopts its level silently; a broken wire's fault ends once every
receiver of the axis is qualified. -/
def execReceiverQualify (input : Bool) (n : Fin 16) (pin : Fin 3) (high : Bool) (s : State) : Result :=
  .next <|
    if !s.fld.up then s
    else if input then
      let x := s.fin n.val
      if F.FI_CFG_ENABLE.of x.cfg = 1 ∧ x.level.isNone = true then s.setFin n.val { x with level := some high } else s
    else if n.val < 8 then
      let x := s.axis n.val
      if x.on && (x.pin pin.val).isNone then
        let y := x.setPin pin.val (some high)
        let z := if y.fault = 1 ∧ y.qualified = true then { y with fault := 0 } else y
        (s.setAxis n.val z).showAxis n.val
      else s
    else s

/-- An axis enters a fault (R632): it is counted and POS_SUSPECT is set. -/
def FieldAxis.enterFault (x : FieldAxis) (c : Nat) : FieldAxis :=
  if x.fault = c then x
  else
    let n := satAdd 16 (F.ENC_COUNT_FAULTS.of x.counters) 1
    { x with fault := c, suspect := true, counters := setBits x.counters 32 16 n }

/-- BROKEN_WIRE (R624): a qualified RS-422 receiver inside its band for 10 µs. -/
def execBrokenWire (n : Fin 8) (pin : Fin 3) (s : State) : Result :=
  .next <|
    let x := s.axis n.val
    if s.fld.up && x.on && x.mode != 1 && (x.pin pin.val).isSome && (x.incremental || pin.val == 1) then
      (s.setAxis n.val ((x.setPin pin.val none).enterFault 1)).showAxis n.val
    else s

/-! ### Counting and samples (R626 to R631) -/

/-- The step that new levels of A and B make (R627): 1 up, -1 down, 0 none. -/
def FieldAxis.step (x : FieldAxis) (a b : Bool) : Int :=
  let da := x.a != some a
  let db := x.b != some b
  let dir (up : Bool) : Int := if xor up (F.ENC_CFG_INVERT_DIR.of x.cfg == 1) then 1 else -1
  match F.ENC_CFG_DECODE.of x.cfg with
  | 0 => if da then dir (a != b) else if db then dir (a == b) else 0
  | 1 => if da then dir (a != b) else 0
  | 2 => if da && a then dir (a != b) else 0
  | _ => if da && a then dir b else 0

/-- ENCODER_EDGE (R623, R627): a receiver sample with new levels. -/
def execEncoderEdge (n : Fin 8) (a b z : Bool) (s : State) : Result :=
  .next <|
    let x := s.axis n.val
    if !(s.fld.up && x.on && x.incremental) then s
    else
      let a' := if x.a.isSome then some a else none
      let b' := if x.b.isSome then some b else none
      let y := { x with a := a', b := b', z := x.z.map (· && z) }
      if x.a.isNone || x.b.isNone || x.fault ≠ 0 then s.setAxis n.val y
      else if x.a != some a && x.b != some b then
        let q := satAdd 16 (F.ENC_COUNT_QUAD_ERR.of x.counters) 1
        s.setAxis n.val { y with counters := setBits x.counters 0 16 q, suspect := true }
      else s.setAxis n.val { y with count := x.count + BitVec.ofInt 64 (x.step a b) }

/-- A host LOAD due at this sample is made (R631). -/
def FieldAxis.hostLoad (x : FieldAxis) : FieldAxis := if x.loadDue then { x with count := x.load, loadDue := false } else x

/-- The field side has a sample of axis `n` to send (R621, R626): it delivers no stamps while no sync word arrives. -/
def State.sendSample (s : State) (n t : Nat) : State :=
  if s.fld.synced then
    { s with fld := { s.fld with toCore := s.fld.toCore ++ [⟨n, (s.axis n).count, t⟩] } }
  else s

/-- POSITION_SAMPLE_SEND (R626, R631, R632): an incremental axis samples its count. -/
def execPositionSampleSend (n : Fin 8) (s : State) : Result :=
  .next <|
    let x := s.axis n.val
    if s.fld.up && x.on && x.incremental && x.fault == 0 then
      (s.setAxis n.val x.hostLoad).sendSample n.val s.now
    else s

/-- A Gray code converted to binary, `w` bits. -/
def fromGray : Nat → Nat → Nat
  | 0, _ => 0
  | w + 1, g => g ^^^ fromGray w (g / 2)

/-- SSI_BITS of an axis: 8 to 48; other values act as 25 (Table 14.10). -/
def FieldAxis.ssiBits (x : FieldAxis) : Nat :=
  let n := F.ENC_CFG_SSI_BITS.of x.cfg
  if 8 ≤ n ∧ n ≤ 48 then n else 25

/-- The change from one read to the next modulo 2^w, in −2^(w−1) to 2^(w−1) − 1 (R628). -/
def ssiDelta (w prev v : Nat) : Int := signed w (v + 2 ^ w - prev % 2 ^ w)

/-- A good read of value `v` moves the count (R628). The first read with SSI_EXTEND 1 has no read before it: what the count
becomes is not stated, and is a free value. -/
def State.ssiMove (s : State) (n v : Nat) : State :=
  let x := s.axis n
  if F.ENC_CFG_SSI_EXTEND.of x.cfg = 0 then s.setAxis n { x with count := word v, ssiPrev := some v }
  else match x.ssiPrev with
    | some p => s.setAxis n { x with count := x.count + BitVec.ofInt 64 (ssiDelta x.ssiBits p v), ssiPrev := some v }
    | none =>
        let (c, s1) := s.fresh
        s1.setAxis n { x with count := c, ssiPrev := some v }

/-- SSI_READ (R628, R629, R631): a read delivers a sample, or counts a frame error. -/
def execSsiRead (n : Fin 8) (raw : Nat) (ok : Bool) (tick : Nat) (s : State) : Result :=
  .next <|
    let k := n.val
    let x := s.axis k
    if !(s.fld.up && x.on && !x.incremental) || x.b.isNone then s
    else if ok then
      let w := x.ssiBits
      let v := if F.ENC_CFG_SSI_GRAY.of x.cfg = 1 then fromGray w (raw % 2 ^ w) else raw % 2 ^ w
      let y := { x with ssiBad := 0, ssiGood := x.ssiGood + 1, fault := if x.fault = 2 ∧ 2 ≤ x.ssiGood then 0 else x.fault }
      let s1 := (s.setAxis k y).ssiMove k v
      let s2 := s1.setAxis k (s1.axis k).hostLoad
      (if y.fault = 0 then s2.sendSample k tick else s2).showAxis k
    else
      let e := satAdd 16 (F.ENC_COUNT_SSI_ERR.of x.counters) 1
      let y := { x with counters := setBits x.counters 16 16 e, ssiBad := x.ssiBad + 1, ssiGood := 0 }
      (s.setAxis k (if 2 ≤ x.ssiBad ∧ x.fault = 0 then y.enterFault 2 else y)).showAxis k

/-- A field-side event raises its producer while the link is up and its stamps are delivered (R621, R642). -/
def State.fieldRaise (s : State) (p t : Nat) : State := if s.fldUp && s.fld.synced then s.raiseYard p t else s

/-- ENCODER_INDEX (R630, R631): a qualified rising edge of Z. -/
def execEncoderIndex (n : Fin 8) (stamp : Nat) (s : State) : Result :=
  .next <|
    let k := n.val
    let x := s.axis k
    let gated := F.ENC_CFG_Z_GATE.of x.cfg = 1 ∧ !(x.a == some true && x.b == some true)
    if !(s.fld.up && x.on && x.incremental) || x.z.isNone then s
    else if x.fault ≠ 0 ∨ gated then s.setAxis k { x with z := some true }
    else
      let c := F.ENC_COUNT_INDEX.of x.counters + 1
      let y := { x.hostLoad with z := some true, counters := setBits x.counters 48 16 c }
      let act := F.ENC_CFG_Z_ACTION.of x.cfg
      let y1 := if act = 0 then y else { y with zpos := y.count }
      let y2 := if act = 2 ∧ y1.armed = true then { y1 with count := y1.load, armed := false }
        else if act = 3 then { y1 with count := y1.load } else y1
      let s1 := (s.setAxis k y2).showAxis k
      if F.ENC_CFG_Z_EVENT_EN.of x.cfg = 1 then s1.fieldRaise (24 + k) stamp else s1

/-! ### Register writes (R641, R650 to R654) -/

/-- A configuration register has taken a new value: it crosses at once, or is marked as made while the link was down (R641). -/
def State.fieldSent (s : State) (w : HeldWrite) : State :=
  if s.fldUp then (s.sendReg w).showField
  else { s with fld := { s.fld with held := s.fld.held.filter (· != w) ++ [w] } }

/-- An action bit written while the link is down (R641). -/
def State.fieldAct (s : State) (f : State → State) : State :=
  if s.fldUp then f s else s.inc F.FLD_LEVEE_COUNT_CMD_DISCARDED

/-- ENC_CFG's fields apart from ENABLE. -/
def encCfgMask : Word := fieldMask 1 9 ||| fieldMask 16 32

/-- A write to ENC_CFG (R650). -/
def State.encCfgWrite (s : State) (n : Nat) (v : Word) : State :=
  let w := v &&& (encCfgMask ||| 1)
  let old := s.rd .ENC_CFG n
  if F.ENC_CFG_MODE.of v = 3 then s.put F.ENC_STATUS_CFG_REJECTED n 1
  else if bit old 0 && bit v 0 then
    if (old ^^^ w) &&& encCfgMask = 0 then s else s.put F.ENC_STATUS_CFG_REJECTED n 1
  else (s.wr .ENC_CFG n w).fieldSent ⟨.ENC_CFG, n⟩

/-- ENC_CFG_WRITE (R650). -/
def execEncCfgWrite (n : Fin 8) (v : Word) (s : State) : Result := .next (s.encCfgWrite n.val v)

/-- ENC_CTRL.LOAD (R631). -/
def State.encLoad (s : State) (n : Nat) : State := s.fieldAct fun t => t.setAxis n { t.axis n with loadDue := true }

/-- ENC_LOAD. -/
def execEncLoad (n : Fin 8) (s : State) : Result := .next (s.encLoad n.val)

/-- ENC_CTRL.Z_ARM (R630, R652). -/
def State.encArm (s : State) (n : Nat) : State :=
  s.fieldAct fun t => (t.setAxis n { t.axis n with armed := true }).showAxis n

/-- ENC_Z_ARM. -/
def execEncZArm (n : Fin 8) (s : State) : Result := .next (s.encArm n.val)

/-- A write to ENC_CTRL (R652). -/
def State.encCtrlWrite (s : State) (n : Nat) (v : Word) : State :=
  let s1 := if bit v 0 then s.encLoad n else s
  if bit v 1 then s1.encArm n else s1

/-- A write to ENC_LOAD, FI_CFG or FO_CFG (R653, R654): FO_CFG 15 ignores writes. -/
def State.fieldRegWrite (s : State) (r : Reg) (i : Nat) (v m : Word) : State :=
  if r = .FO_CFG ∧ i = 15 then s
  else (s.wr r i (writeFields r (s.rd r i) v m)).fieldSent ⟨r, i⟩

/-- FIELD_WRITE (R641, R650 to R654). -/
def execFieldWrite (r : Reg) (i : Fin 16) (v : Word) (s : State) : Result :=
  .next <| match r with
    | .ENC_CFG => if i.val < 8 then s.encCfgWrite i.val v else s
    | .ENC_LOAD => if i.val < 8 then s.fieldRegWrite .ENC_LOAD i.val v allBytes else s
    | .FI_CFG => s.fieldRegWrite .FI_CFG i.val v allBytes
    | .FO_CFG => s.fieldRegWrite .FO_CFG i.val v allBytes
    | _ => s

/-! ### Inputs and outputs (R633 to R636) -/

/-- FIELD_INPUT_EDGE (R633): a valid edge, or a level that returned before DEBOUNCE passed. -/
def execFieldInputEdge (i : Fin 16) (rising glitch : Bool) (stamp : Nat) (s : State) : Result :=
  .next <|
    let x := s.fin i.val
    if !s.fld.up || F.FI_CFG_ENABLE.of x.cfg = 0 || x.level.isNone then s
    else if glitch then
      let g := satAdd 16 (F.FI_STATUS_GLITCHES.of x.counters) 1
      s.setFin i.val { x with counters := setBits x.counters 16 16 g }
    else
      let chosen := match F.FI_CFG_EDGE.of x.cfg with
        | 0 => rising
        | 1 => !rising
        | _ => true
      let y := { x with level := some rising }
      if chosen then
        let e := F.FI_STATUS_EDGES.of x.counters + 1
        (s.setFin i.val { y with counters := setBits x.counters 32 32 e }).fieldRaise i.val stamp
      else s.setFin i.val y

/-- FIELD_OUTPUT_SWITCH (R634, R635, R639): the oldest armed command of output `k` reaches its tick. -/
def execFieldOutputSwitch (k : Fin 15) (s : State) : Result :=
  .next <| match s.fld.armed.find? (fun c => c.out == k.val) with
    | none => s
    | some c =>
        let s0 := s.reach c.tick
        let s1 := { s0 with fld := { s0.fld with armed := s0.fld.armed.erase c } }
        if s1.fld.hold || !s1.fld.up then s1 else s1.setFo k.val { s1.fo k.val with level := c.on }

/-- FO_OVERLOAD_TRIP (R635). -/
def execFoOverloadTrip (k : Fin 15) (s : State) : Result :=
  .next <| if s.foOn k.val then (s.setFo k.val { s.fo k.val with overload := true }).showOut k.val else s

/-- A clear of FO_STATUS.OVERLOAD (R635, R641). -/
def State.foClear (s : State) (k : Nat) : State :=
  if !s.isOn F.FO_STATUS_OVERLOAD k then s
  else s.fieldAct fun t =>
    let t1 := t.put F.FO_STATUS_OVERLOAD k 0
    (t1.setFo k { t1.fo k with overload := false }).showOut k

/-- FO_OVERLOAD_CLEAR. -/
def execFoOverloadClear (k : Fin 15) (s : State) : Result := .next (s.foClear k.val)

/-- FLD_CTRL.CNT_CLEAR (R649). -/
def State.fldCntClear (s : State) : State :=
  let s1 := s.rst .FLD_LEVEE_COUNT
  let s2 := (List.range 8).foldl (fun a n => (a.setAxis n { a.axis n with counters := 0 }).wr .ENC_COUNT n 0) s1
  (List.range 16).foldl (fun a i =>
    ((a.setFin i { a.fin i with counters := 0 }).put F.FI_STATUS_GLITCHES i 0).put F.FI_STATUS_EDGES i 0) s2

/-- FLD_CNT_CLEAR. -/
def execFldCntClear (s : State) : Result := .next s.fldCntClear

end Sys2Proof.Machine
end

