-- ==== Sys2Proof/Machine/Flags.lean ====
section
/-! DEFINITION. The flag computations of Bertor (R480 to R484, Table 10.3 to Table 10.7). -/

namespace Sys2Proof.Machine

/-- Z and N from the 64-bit value written (R480). -/
def Flags.logic (f : Flags) (r : Word) : Flags := { f with z := r == 0, n := r.msb }

/-- ADD and ADDI: C is the carry out of bit 63, V signed overflow (R481). -/
def Flags.add (f : Flags) (a b : Word) : Flags :=
  { (f.logic (a + b)) with
    c := decide (2 ^ 64 ≤ a.toNat + b.toNat)
    v := decide ((a + b).toInt ≠ a.toInt + b.toInt) }

/-- SUB and CMP: C is the borrow, V signed overflow (R481). -/
def Flags.sub (f : Flags) (a b : Word) : Flags :=
  { (f.logic (a - b)) with
    c := decide (a.toNat < b.toNat)
    v := decide ((a - b).toInt ≠ a.toInt - b.toInt) }

/-- A shift by `n` with `last` the last bit shifted out: a shift by 0 clears C (R482). -/
def Flags.shift (f : Flags) (r : Word) (n : Nat) (last : Bool) : Flags := { (f.logic r) with c := n != 0 && last }

/-- MUL: Z and N from the result, C and V cleared (Table 10.5). -/
def Flags.mul (f : Flags) (r : Word) : Flags := { (f.logic r) with c := false, v := false }

/-- GSTAT as a word (Table 10.3). -/
def Flags.word (f : Flags) : Word :=
  field 0 1 (b2n f.z) ||| field 1 1 (b2n f.n) ||| field 2 1 (b2n f.c) ||| field 3 1 (b2n f.v) ||| field 4 1 (b2n f.t)

/-- GSTAT from a word; unnamed bits are ignored (Table 10.3, Table 10.12). -/
def Flags.ofWord (w : Word) : Flags := ⟨bit w 0, bit w 1, bit w 2, bit w 3, bit w 4⟩

/-- The condition codes of BC (Table 10.4). -/
def Flags.cond (f : Flags) (c : BitVec 4) : Bool :=
  match c.toNat with
  | 0x0 => f.z
  | 0x1 => !f.z
  | 0x2 => f.c
  | 0x3 => !f.c
  | 0x4 => f.n
  | 0x5 => !f.n
  | 0x6 => f.v
  | 0x7 => !f.v
  | 0x8 => f.c || f.z
  | 0x9 => !f.c && !f.z
  | 0xA => f.n != f.v
  | 0xB => f.n == f.v
  | 0xC => f.z || f.n != f.v
  | 0xD => !f.z && f.n == f.v
  | 0xE => f.t
  | _ => !f.t

end Sys2Proof.Machine
end

