-- ==== Sys2Proof/Machine/Groom.lean ====
section
/-! DEFINITION. The grooms (chapter 10): fetch and faults, the arithmetic, branch, memory, atomic, wait and control-register
instructions, event inputs, the watchdog, and the host's registers of a groom (R542 to R549). -/

namespace Sys2Proof.Machine

/-! ### Faults, release and halt (R469 to R471, R501, R510) -/

/-- Fault codes (Table 10.14, Table 11.9). -/
def fIllegal : Nat := 0x01
def fPcRange : Nat := 0x02
def fDmemRange : Nat := 0x03
def fScratchRange : Nat := 0x04
def fAlign : Nat := 0x05
def fStackOver : Nat := 0x06
def fStackUnder : Nat := 0x07
def fCsr : Nat := 0x08
def fWaitNever : Nat := 0x09
def fImemUe : Nat := 0x0A
def fDmemUe : Nat := 0x0B
def fScratchUe : Nat := 0x0C
def fWatchdog : Nat := 0x0D
def fOutputReserved : Nat := 0x10
def fTroughRefused : Nat := 0x11

/-- The watchdog event's producer of groom `g` (R501). -/
def wdogProducer (g : Nat) : Nat := 144 + 16 * g + 15

/-- A groom stops in FAULTED with a code and index recorded (R501). -/
def State.groomStop (s : State) (g code : Nat) : State :=
  let x := s.groom g
  s.setGroom g { x with
    st := .faulted, fault := field 0 8 code ||| field 8 14 x.pc, haltSource := 3, wait := none, haltReq := none }

/-- A fault of groom `g` (R501): it stops, its watchdog event is raised and its alarm asked for. -/
def State.groomFault (s : State) (g code : Nat) : State :=
  let pc := (s.groom g).pc
  let s1 := (s.groomStop g code).raiseYard (wdogProducer g) s.now
  s1.alarm (if code = fIllegal then 0x10 else 0x11) (field 0 8 g ||| field 8 8 code ||| field 16 14 pc)

/-- A groom is released at `addr` (R470). -/
def State.groomRelease (s : State) (g addr : Nat) : State :=
  let x := s.groom g
  s.setGroom g { x with
    st := .running, pc := addr, stack := [], flags := Flags.zero, cycleBase := s.tb.cycles, wdogBase := s.tb.cycles
    evpend := 0, evover := 0, armEn := 0, wait := none, haltReq := none }

/-- Whether a groom is RUNNING or WAITING. -/
def Groom.active (x : Groom) : Bool := x.st == .running || x.st == .waiting

/-- A push of groom `g` that waits under R381 is withdrawn. -/
def State.withdrawPush (s : State) (g t : Nat) : State :=
  let x := s.trg t
  s.setTrg t { x with waiting := x.waiting.filter fun w => w.groom != some g }

/-- A halt takes effect (R471, R510, R546): a WAIT is abandoned, a request under way runs to its end and its reply is discarded,
the waits of TACK.W and MODE.W end, and a push that waits under R381 is withdrawn. -/
def State.groomHaltNow (s : State) (g source : Nat) : State :=
  let x := s.groom g
  if !x.active then s
  else
    let stop (y : Groom) : Groom := { y with st := .halted, haltSource := source, wait := none, haltReq := none }
    match x.wait with
    | none => s.setGroom g (stop x)
    | some w =>
        match w.kind with
        | .tackCheck _ _ => s.setGroom g (stop { x with pc := x.pc + w.len })
        | .tackDone _ | .tackEnded _ | .mode | .modeEnded _ => (s.setGroom g (stop { x with pc := x.pc + w.len })).inc F.GROOM_DEV_COUNT2_HALT_ABANDONED g
        | .push t => ((s.withdrawPush g t).setGroom g (stop x)).inc F.GROOM_DEV_COUNT2_HALT_ABANDONED g
        | .event _ _ | .time _ _ | .reltime _ | .position _ _ _ _ | .depth _ _ _ | .armed _ _ _ _ _ _ _ =>
            s.setGroom g (stop x)

/-- A halt is asked for (R471). -/
def State.groomHaltAsk (s : State) (g source : Nat) : State :=
  let x := s.groom g
  if x.active then s.setGroom g { x with haltReq := some source } else s

/-! ### Fetch and execution (R466, R472 to R475, R493) -/

/-- What executing an instruction comes to: a fault, or a state in which the groom goes on at an index, or a state in which the
instruction is in progress or the groom has stopped. -/
inductive Exec where
  | fault (code : Nat)
  | next (s : State) (pc : Int)
  | stay (s : State)

/-- Whether a groom begins an instruction. -/
def Groom.ready (x : Groom) : Bool := x.st == .running && x.wait.isNone && x.haltReq.isNone

/-- An instruction word; one past the end reads 0. -/
def Groom.iword (x : Groom) (i : Nat) : BitVec 32 := Tab.get 0 x.imem i

/-- The instruction at the groom's program counter. -/
def Groom.fetched (x : Groom) : Option BInstr := decodeBertor (x.iword x.pc) (x.iword (x.pc + 1))

/-- A corrected error in a memory of groom `g` (R493). -/
def State.groomCorr (s : State) (g : Nat) : State :=
  let x := s.groom g
  s.setGroom g { x with eccCorr := word (satAdd 16 x.eccCorr.toNat 1) }

/-- Whether an index lies in instruction memory (R475). -/
def pcOk (i : Int) : Bool := 0 ≤ i && i < 16384

/-- The groom goes on at an index, or faults with PC_RANGE and the instruction has no effect (R475). -/
def Exec.finish (s : State) (g : Nat) : Exec → State
  | .fault c => s.groomFault g c
  | .stay s1 => s1
  | .next s1 pc => if pcOk pc then s1.setGroom g { s1.groom g with pc := pc.toNat } else s.groomFault g fPcRange

/-- Groom `g` executes the instruction at its program counter if it is ready and `sel` takes the instruction. A fall-through
outside the memory is PC_RANGE before any later fault (R474, R475, R501), but for an instruction that does not fall through. -/
def State.groomExec (s : State) (g : Nat) (e : Ecc) (falls : Bool) (sel : BInstr → Option (State → Exec)) : State :=
  let x := s.groom g
  if !x.ready then s
  else if e = .double then s.groomFault g fImemUe
  else match x.fetched with
    | none => s
    | some i => match sel i with
      | none => s
      | some f =>
          let s1 := if e = .single then s.groomCorr g else s
          if i.len = 2 ∧ x.pc = 16383 then s1.groomFault g fPcRange
          else if falls && !pcOk (x.pc + i.len) then s1.groomFault g fPcRange
          else (f s1).finish s1 g

/-- The index after the instruction in progress. -/
def Groom.after (x : Groom) (len : Nat) : Int := x.pc + len

/-- An instruction that writes one register and the flags. -/
def State.groomWrite (s : State) (g : Nat) (d : BitVec 4) (v : Word) (fl : Flags) (len : Nat) : Exec :=
  let x := s.groom g
  .next (s.setGroom g { (x.setG d v) with flags := fl }) (x.after len)

/-- ILLEGAL_INSTRUCTION (R473, R501). -/
def execIllegalInstruction (g : Fin 16) (ecc : Ecc) (s : State) : Result :=
  .next <|
    let x := s.groom g.val
    if !x.ready then s
    else if ecc = .double then s.groomFault g.val fImemUe
    else match x.fetched with
      | some _ => s
      | none => (if ecc = .single then s.groomCorr g.val else s).groomFault g.val fIllegal

/-! ### Arithmetic and logic (R480 to R485) -/

/-- The result and flags of a three-register operation (Table 10.5). -/
def AluOp.run (op : AluOp) (a b : Word) (f : Flags) : Word × Flags :=
  match op with
  | .add => (a + b, f.add a b)
  | .sub => (a - b, f.sub a b)
  | .and => (a &&& b, f.logic (a &&& b))
  | .or => (a ||| b, f.logic (a ||| b))
  | .xor => (a ^^^ b, f.logic (a ^^^ b))

/-- The result of a shift by `n` and the last bit shifted out (R482). -/
def ShiftOp.run (op : ShiftOp) (a : Word) (n : Nat) : Word × Bool :=
  match op with
  | .shl => (a <<< n, a.getLsbD (64 - n))
  | .shr => (a >>> n, a.getLsbD (n - 1))
  | .sar => (a.sshiftRight n, a.getLsbD (n - 1))

/-- The result of MUL (Table 10.6). -/
def MulMode.run (m : MulMode) (a b : Word) : Word :=
  match m with
  | .low => a * b
  | .highU => word (a.toNat * b.toNat / 2 ^ 64)
  | .highS => BitVec.ofInt 64 (a.toInt * b.toInt / 2 ^ 64)

/-- The result of MIN and MAX (R483). -/
def minmaxRun (mx uns : Bool) (a b : Word) : Word :=
  let lt := if uns then decide (a.toNat < b.toNat) else decide (a.toInt < b.toInt)
  if xor mx lt then a else b

/-- Groom `g` executes a three-register operation. -/
def State.runAlu (s : State) (g : Nat) (e : Ecc) (op : AluOp) : State :=
  s.groomExec g e true fun i => match i with
    | .alu o d a b => if o = op then some fun t =>
        let x := t.groom g
        let r := op.run (x.reg a) (x.reg b) x.flags
        t.groomWrite g d r.1 r.2 1 else none
    | _ => none

/-- Groom `g` executes a shift. -/
def State.runShift (s : State) (g : Nat) (e : Ecc) (op : ShiftOp) : State :=
  s.groomExec g e true fun i =>
    let go (d a : BitVec 4) (n : Groom → Nat) : Option (State → Exec) := some fun t =>
      let x := t.groom g
      let k := n x
      let r := op.run (x.reg a) k
      t.groomWrite g d r.1 (x.flags.shift r.1 k r.2) 1
    match i with
    | .shift o d a b => if o = op then go d a (fun x => bits (x.reg b) 0 6) else none
    | .shiftI o d a n => if o = op then go d a (fun _ => n.toNat) else none
    | _ => none

/-- Groom `g` executes MIN or MAX. -/
def State.runMinmax (s : State) (g : Nat) (e : Ecc) (mx : Bool) : State :=
  s.groomExec g e true fun i => match i with
    | .minmax m u d a b => if m = mx then some fun t =>
        let x := t.groom g
        let r := minmaxRun mx u (x.reg a) (x.reg b)
        t.groomWrite g d r (x.flags.logic r) 1 else none
    | _ => none

def execAdd (g : Fin 16) (ecc : Ecc) (s : State) : Result := .next (s.runAlu g.val ecc .add)
def execSub (g : Fin 16) (ecc : Ecc) (s : State) : Result := .next (s.runAlu g.val ecc .sub)
def execAnd (g : Fin 16) (ecc : Ecc) (s : State) : Result := .next (s.runAlu g.val ecc .and)
def execOr (g : Fin 16) (ecc : Ecc) (s : State) : Result := .next (s.runAlu g.val ecc .or)
def execXor (g : Fin 16) (ecc : Ecc) (s : State) : Result := .next (s.runAlu g.val ecc .xor)
def execShl (g : Fin 16) (ecc : Ecc) (s : State) : Result := .next (s.runShift g.val ecc .shl)
def execShr (g : Fin 16) (ecc : Ecc) (s : State) : Result := .next (s.runShift g.val ecc .shr)
def execSar (g : Fin 16) (ecc : Ecc) (s : State) : Result := .next (s.runShift g.val ecc .sar)
def execMin (g : Fin 16) (ecc : Ecc) (s : State) : Result := .next (s.runMinmax g.val ecc false)
def execMax (g : Fin 16) (ecc : Ecc) (s : State) : Result := .next (s.runMinmax g.val ecc true)

/-- MUL (R483). -/
def execMul (g : Fin 16) (ecc : Ecc) (s : State) : Result :=
  .next <| s.groomExec g.val ecc true fun i => match i with
    | .mul m d a b => some fun t =>
        let x := t.groom g.val
        let r := m.run (x.reg a) (x.reg b)
        t.groomWrite g.val d r (x.flags.mul r) 1
    | _ => none

/-- CMP (R481). -/
def execCmp (g : Fin 16) (ecc : Ecc) (s : State) : Result :=
  .next <| s.groomExec g.val ecc true fun i => match i with
    | .cmp a b => some fun t =>
        let x := t.groom g.val
        t.groomWrite g.val 0 0 (x.flags.sub (x.reg a) (x.reg b)) 1
    | _ => none

/-- ADDI (R480, R481). -/
def execAddi (g : Fin 16) (ecc : Ecc) (s : State) : Result :=
  .next <| s.groomExec g.val ecc true fun i => match i with
    | .addi d a imm => some fun t =>
        let x := t.groom g.val
        t.groomWrite g.val d (x.reg a + sext imm) (x.flags.add (x.reg a) (sext imm)) 1
    | _ => none

/-- MOVI (R480). -/
def execMovi (g : Fin 16) (ecc : Ecc) (s : State) : Result :=
  .next <| s.groomExec g.val ecc true fun i => match i with
    | .movi d imm => some fun t => t.groomWrite g.val d (sext imm) (t.groom g.val).flags 1
    | _ => none

/-- ADDI32 (R480, R481). -/
def execAddi32 (g : Fin 16) (ecc : Ecc) (s : State) : Result :=
  .next <| s.groomExec g.val ecc true fun i => match i with
    | .addi32 d a e => some fun t =>
        let x := t.groom g.val
        t.groomWrite g.val d (x.reg a + sext e) (x.flags.add (x.reg a) (sext e)) 2
    | _ => none

/-- LI32 (R483, Table 10.6). -/
def execLi32 (g : Fin 16) (ecc : Ecc) (s : State) : Result :=
  .next <| s.groomExec g.val ecc true fun i => match i with
    | .li32 m d e => some fun t =>
        let x := t.groom g.val
        let v : Word := match m with
          | .sign => sext e
          | .zero => e.zeroExtend 64
          | .high => e ++ (x.reg d).extractLsb' 0 32
        t.groomWrite g.val d v x.flags 2
    | _ => none

/-- BIT.SET (R484). -/
def execBitSet (g : Fin 16) (ecc : Ecc) (s : State) : Result :=
  .next <| s.groomExec g.val ecc true fun i => match i with
    | .bitSet d a p => some fun t =>
        let x := t.groom g.val
        let r := x.reg a ||| (1#64 <<< p.toNat)
        t.groomWrite g.val d r (x.flags.logic r) 1
    | _ => none

/-- BIT.CLR (R484). -/
def execBitClr (g : Fin 16) (ecc : Ecc) (s : State) : Result :=
  .next <| s.groomExec g.val ecc true fun i => match i with
    | .bitClr d a p => some fun t =>
        let x := t.groom g.val
        let r := x.reg a &&& ~~~(1#64 <<< p.toNat)
        t.groomWrite g.val d r (x.flags.logic r) 1
    | _ => none

/-- BIT.TST (R484). -/
def execBitTst (g : Fin 16) (ecc : Ecc) (s : State) : Result :=
  .next <| s.groomExec g.val ecc true fun i => match i with
    | .bitTst a p => some fun t =>
        let x := t.groom g.val
        t.groomWrite g.val 0 0 { x.flags with z := !bit (x.reg a) p.toNat } 1
    | _ => none

/-- BIT.EXT (R484). -/
def execBitExt (g : Fin 16) (ecc : Ecc) (s : State) : Result :=
  .next <| s.groomExec g.val ecc true fun i => match i with
    | .bitExt d a p w => some fun t =>
        let x := t.groom g.val
        let r := word (bits (x.reg a) p.toNat (w.toNat + 1))
        t.groomWrite g.val d r (x.flags.logic r) 1
    | _ => none

/-! ### Branches and control (R478, R479, R486, R487) -/

/-- A return index pushed and a branch made: PC_RANGE comes before STACK_OVER (R478, R501). A return index of 16,384 is pushed like
any other, and faults at the RET that would reach it (R475). -/
def State.callTo (s : State) (g : Nat) (ret : Nat) (target : Int) : Exec :=
  let x := s.groom g
  if !pcOk target then .fault fPcRange
  else if 16 ≤ x.stack.length then .fault fStackOver
  else .next (s.setGroom g { x with stack := ret :: x.stack }) target

/-- B. -/
def execB (g : Fin 16) (ecc : Ecc) (s : State) : Result :=
  .next <| s.groomExec g.val ecc false fun i => match i with
    | .br imm => some fun t => .next t (branchTarget (t.groom g.val).pc imm)
    | _ => none

/-- BC. -/
def execBc (g : Fin 16) (ecc : Ecc) (s : State) : Result :=
  .next <| s.groomExec g.val ecc false fun i => match i with
    | .bc c imm => some fun t =>
        let x := t.groom g.val
        .next t (if x.flags.cond c then branchTarget x.pc imm else x.after 1)
    | _ => none

/-- CALL. -/
def execCall (g : Fin 16) (ecc : Ecc) (s : State) : Result :=
  .next <| s.groomExec g.val ecc false fun i => match i with
    | .call imm => some fun t =>
        let x := t.groom g.val
        t.callTo g.val (x.pc + 1) (branchTarget x.pc imm)
    | _ => none

/-- RET. -/
def execRet (g : Fin 16) (ecc : Ecc) (s : State) : Result :=
  .next <| s.groomExec g.val ecc false fun i => match i with
    | .ret => some fun t =>
        let x := t.groom g.val
        match x.stack with
        | [] => .fault fStackUnder
        | r :: rest => .next (t.setGroom g.val { x with stack := rest }) r
    | _ => none

/-- LOOP. -/
def execLoop (g : Fin 16) (ecc : Ecc) (s : State) : Result :=
  .next <| s.groomExec g.val ecc false fun i => match i with
    | .loop a imm => some fun t =>
        let x := t.groom g.val
        let v := x.reg a - 1
        .next (t.setGroom g.val (x.setG a v)) (if v ≠ 0 then branchTarget x.pc imm else x.after 1)
    | _ => none

/-- BL32. -/
def execBl32 (g : Fin 16) (ecc : Ecc) (s : State) : Result :=
  .next <| s.groomExec g.val ecc false fun i => match i with
    | .bl32 link a e => some fun t =>
        let x := t.groom g.val
        let target := (x.reg a + e.zeroExtend 64).toNat
        if link then t.callTo g.val (x.pc + 2) target else .next t target
    | _ => none

/-- HALT (R469, R546). -/
def execHalt (g : Fin 16) (ecc : Ecc) (s : State) : Result :=
  .next <| s.groomExec g.val ecc false fun i => match i with
    | .halt c => some fun t =>
        let x := t.groom g.val
        .stay (t.setGroom g.val { x with st := .halted, haltCode := c.toNat, haltSource := 0, pc := x.pc + 1 })
    | _ => none

/-- NOP. -/
def execNop (g : Fin 16) (ecc : Ecc) (s : State) : Result :=
  .next <| s.groomExec g.val ecc true fun i => match i with
    | .nop => some fun t => .next t ((t.groom g.val).after 1)
    | _ => none

/-- FENCE (R487): every earlier device instruction has completed, for each one here is taken by its target when it issues. -/
def execFence (g : Fin 16) (ecc : Ecc) (s : State) : Result :=
  .next <| s.groomExec g.val ecc true fun i => match i with
    | .fence => some fun t => .next t ((t.groom g.val).after 1)
    | _ => none

/-! ### Data memory and shared scratch (R488 to R493) -/

/-- A word of a groom's data memory, or of the shared scratch. -/
def State.memWord (s : State) (g : Nat) (scratch : Bool) (i : Nat) : Word :=
  if scratch then Tab.get 0 s.scratch i else Tab.get 0 (s.groom g).dmem i

def State.setMemWord (s : State) (g : Nat) (scratch : Bool) (i : Nat) (v : Word) : State :=
  if scratch then { s with scratch := Tab.set 0 s.scratch i v }
  else s.setGroom g { s.groom g with dmem := Tab.set 0 (s.groom g).dmem i v }

/-- The fault of an access of `n` bytes at `addr`: a range fault before ALIGN (R489, R501). -/
def memFault (scratch : Bool) (addr n : Nat) : Option Nat :=
  if (if scratch then 0x10000 else 0x8000) ≤ addr then some (if scratch then fScratchRange else fDmemRange)
  else if addr % n ≠ 0 then some fAlign
  else none

/-- What an uncorrectable word causes (R493). -/
def ueFault (scratch : Bool) : Nat := if scratch then fScratchUe else fDmemUe

/-- A load (R488, R489, R493). -/
def State.runLoad (s : State) (g : Nat) (e mem : Ecc) (sc : Bool) : State :=
  s.groomExec g e true fun i => match i with
    | .load k d a sz sg off => if k = sc then some fun t =>
        let x := t.groom g
        let addr := effAddr (x.reg a) off
        let n := sizeBytes sz
        match memFault sc addr n with
        | some c => .fault c
        | none =>
            if mem = .double then .fault (ueFault sc)
            else
              let t1 := if mem = .single then t.groomCorr g else t
              t1.groomWrite g d (loadSized (t1.memWord g sc (addr / 8)) addr n sg) x.flags 1
        else none
    | _ => none

/-- A store (R488, R489, R493): one of less than 64 bits reads and merges. -/
def State.runStore (s : State) (g : Nat) (e mem : Ecc) (sc : Bool) : State :=
  s.groomExec g e true fun i => match i with
    | .store k a b sz off => if k = sc then some fun t =>
        let x := t.groom g
        let addr := effAddr (x.reg a) off
        let n := sizeBytes sz
        match memFault sc addr n with
        | some c => .fault c
        | none =>
            if mem = .double ∧ n ≠ 8 then .fault (ueFault sc)
            else
              let t1 := if mem = .single ∧ n ≠ 8 then t.groomCorr g else t
              .next (t1.setMemWord g sc (addr / 8) (storeSized (t1.memWord g sc (addr / 8)) addr n (x.reg b))) (x.after 1)
        else none
    | _ => none

/-- LD. -/
def execLd (g : Fin 16) (ecc mem : Ecc) (s : State) : Result := .next (s.runLoad g.val ecc mem false)
/-- ST. -/
def execSt (g : Fin 16) (ecc mem : Ecc) (s : State) : Result := .next (s.runStore g.val ecc mem false)
/-- LDS. -/
def execLds (g : Fin 16) (ecc mem : Ecc) (s : State) : Result := .next (s.runLoad g.val ecc mem true)
/-- STS. -/
def execSts (g : Fin 16) (ecc mem : Ecc) (s : State) : Result := .next (s.runStore g.val ecc mem true)

/-- The new value of an AMO's word, none where it stays, and the flags (R490). CAS compares at the word's size. -/
def AmoOp.run (op : AmoOp) (n old : Nat) (b d : Word) (f : Flags) : Option Nat × Flags :=
  match op with
  | .add => (some ((old + b.toNat) % 2 ^ (8 * n)), f)
  | .swap => (some (b.toNat % 2 ^ (8 * n)), f)
  | .cas =>
      let hit := old == d.toNat % 2 ^ (8 * n)
      (if hit then some (b.toNat % 2 ^ (8 * n)) else none, { f with z := hit })

/-- An AMO (R490, R493). -/
def State.runAmo (s : State) (g : Nat) (e mem : Ecc) (op : AmoOp) : State :=
  s.groomExec g e true fun i => match i with
    | .amo o wide d a b => if o = op then some fun t =>
        let x := t.groom g
        let addr := (x.reg a).toNat
        let n := if wide then 8 else 4
        match memFault true addr n with
        | some c => .fault c
        | none =>
            if mem = .double then .fault fScratchUe
            else
              let t1 := if mem = .single then t.groomCorr g else t
              let w := t1.memWord g true (addr / 8)
              let old := bits w (8 * (addr % 8)) (8 * n)
              let r := op.run n old (x.reg b) (x.reg d) x.flags
              let t2 := match r.1 with
                | none => t1
                | some v => t1.setMemWord g true (addr / 8) (storeSized w addr n (word v))
              t2.groomWrite g d (word old) r.2 1
        else none
    | _ => none

/-- AMO.ADD. -/
def execAmoAdd (g : Fin 16) (ecc mem : Ecc) (s : State) : Result := .next (s.runAmo g.val ecc mem .add)
/-- AMO.SWAP. -/
def execAmoSwap (g : Fin 16) (ecc mem : Ecc) (s : State) : Result := .next (s.runAmo g.val ecc mem .swap)
/-- AMO.CAS. -/
def execAmoCas (g : Fin 16) (ecc mem : Ecc) (s : State) : Result := .next (s.runAmo g.val ecc mem .cas)

/-! ### Waiting (R494 to R498) -/

/-- Samples of an axis delivered so far. -/
def State.sampleCount (s : State) (axis : Nat) : Nat := (Tab.get [] s.samples axis).length

/-- Whether a position meets a WAITP (R495). -/
def posMeets (below : Bool) (value pos : Word) : Bool :=
  if below then pos.toInt ≤ value.toInt else value.toInt ≤ pos.toInt

/-- Whether a sample delivered since `seen` meets a position condition. -/
def State.posSince (s : State) (axis : Nat) (below : Bool) (value : Word) (seen : Nat) : Bool :=
  let h := Tab.get [] s.samples axis
  (h.take (h.length - seen)).any fun x => posMeets below value x.pos

/-- Whether the last sample of a live axis meets a position condition at issue. -/
def State.posNow (s : State) (axis : Nat) (below : Bool) (value : Word) : Bool :=
  !s.axisDead axis && ((Tab.get [] s.samples axis).head?.map fun x => posMeets below value x.pos).getD false

/-- The present position of an axis: that of its last sample. -/
def State.posOf (s : State) (axis : Nat) : Word := ((Tab.get [] s.samples axis).head?.map (·.pos)).getD 0

/-- The visible depth of a trough; a disabled one has depth 0 (R495). -/
def State.depthOf (s : State) (t : Nat) : Nat := if s.trgOn t then (s.trg t).vis else 0

/-- Whether a depth condition holds. -/
def State.depthMeets (s : State) (t : Nat) (below : Bool) (level : Nat) : Bool :=
  if below then s.depthOf t ≤ level else level < s.depthOf t

/-- The armed conditions of WAITX that hold: [0] event, [1] time, [2] position, [3] depth (Table 10.11, Table 10.12). -/
def State.armedNow (s : State) (g : Nat) (atIssue : Bool) (en : Word) (ev : BitVec 16) (t : Nat) (p pv q : Word)
    (seen : Nat) : Nat :=
  let axis := bits p 0 3
  let below := bit p 3
  let pos := if atIssue then s.posNow axis below pv else s.posSince axis below pv seen
  b2n (bit en 0 && (s.groom g).evpend &&& ev != 0) + 2 * b2n (bit en 1 && decide (t ≤ s.now)) +
    4 * b2n (bit en 2 && pos) + 8 * b2n (bit en 3 && s.depthMeets (bits q 0 16) (bit q 16) (bits q 32 29))

/-- What GD receives if the condition of a WAIT holds (Table 10.11). -/
def State.waitMet (s : State) (g : Nat) (atIssue : Bool) : WaitKind → Option Word
  | .event m _ => let r := (s.groom g).evpend &&& m; if r = 0 then none else some (r.zeroExtend 64)
  | .time t _ => if t ≤ s.now then some (word s.now) else none
  | .reltime t => if t ≤ s.now then some (word t) else none
  | .position ax bl v n =>
      if (if atIssue then s.posNow ax bl v else s.posSince ax bl v n) then some (s.posOf ax) else none
  | .depth t bl l => if s.depthMeets t bl l then some (word (s.depthOf t)) else none
  | .armed en ev t p pv q n =>
      match s.armedNow g atIssue en ev t p pv q n with
      | 0 => none
      | m => some (word m)
  | .tackCheck _ _ | .tackDone _ | .tackEnded _ | .mode | .modeEnded _ | .push _ => none

/-- A WAIT ends: GD, T and C are written, and the groom goes on (R495). -/
def State.endWait (s : State) (g : Nat) (w : Wait) (gd : Word) (timeout held : Bool) : State :=
  let x := s.groom g
  let ev := match w.kind with
    | .event _ true => if timeout then x.evpend else x.evpend &&& ~~~(gd.truncate 16)
    | _ => x.evpend
  let y := x.setG w.d gd
  s.setGroom g { y with
    st := .running, flags := { x.flags with c := held, t := timeout }, evpend := ev, wait := none, pc := x.pc + w.len }

/-- Whether a deadline has been reached. -/
def State.pastDeadline (s : State) : Option Nat → Bool
  | none => false
  | some t => t ≤ s.now

/-- A WAIT is issued (R495 to R498): one whose condition holds, or whose deadline has passed, ends with its issue. -/
def State.issueWait (s : State) (g : Nat) (w : Wait) : State :=
  match s.waitMet g true w.kind with
  | some gd => s.endWait g w gd false true
  | none =>
      if s.pastDeadline w.deadline then s.endWait g w 0 true false
      else s.setGroom g { s.groom g with st := .waiting, wait := some w }

/-- The deadline a WAIT carries: GB of G0 means none. -/
def Groom.deadline (x : Groom) (b : BitVec 4) : Option Nat := if b = 0 then none else some (x.reg b).toNat

/-- WAITE. -/
def execWaite (g : Fin 16) (ecc : Ecc) (s : State) : Result :=
  .next <| s.groomExec g.val ecc true fun i => match i with
    | .waite con d a b => some fun t =>
        let x := t.groom g.val
        let m : BitVec 16 := (x.reg a).truncate 16
        if m = 0 ∧ b = 0 then .fault fWaitNever
        else .stay (t.issueWait g.val ⟨.event m con, d, x.deadline b, 1⟩)
    | _ => none

/-- WAITT. -/
def execWaitt (g : Fin 16) (ecc : Ecc) (s : State) : Result :=
  .next <| s.groomExec g.val ecc true fun i => match i with
    | .waitt d a => some fun t => .stay (t.issueWait g.val ⟨.time ((t.groom g.val).reg a).toNat 0, d, none, 1⟩)
    | _ => none

/-- WAITP. -/
def execWaitp (g : Fin 16) (ecc : Ecc) (s : State) : Result :=
  .next <| s.groomExec g.val ecc true fun i => match i with
    | .waitp bl ax d a b => some fun t =>
        let x := t.groom g.val
        .stay (t.issueWait g.val ⟨.position ax.toNat bl (x.reg a) (t.sampleCount ax.toNat), d, x.deadline b, 1⟩)
    | _ => none

/-- WAITQ. -/
def execWaitq (g : Fin 16) (ecc : Ecc) (s : State) : Result :=
  .next <| s.groomExec g.val ecc true fun i => match i with
    | .waitq bl d a b => some fun t =>
        let x := t.groom g.val
        .stay (t.issueWait g.val ⟨.depth (bits (x.reg a) 0 16) bl (bits (x.reg a) 32 29), d, x.deadline b, 1⟩)
    | _ => none

/-- WAITX. -/
def execWaitx (g : Fin 16) (ecc : Ecc) (s : State) : Result :=
  .next <| s.groomExec g.val ecc true fun i => match i with
    | .waitx d b => some fun t =>
        let x := t.groom g.val
        if x.armEn = 0 ∧ b = 0 then .fault fWaitNever
        else
          let k := WaitKind.armed x.armEn (x.armEv.truncate 16) x.armT.toNat x.armP x.armPv x.armQ
            (t.sampleCount (bits x.armP 0 3))
          .stay (t.issueWait g.val ⟨k, d, x.deadline b, 1⟩)
    | _ => none

/-- WAITR. -/
def execWaitr (g : Fin 16) (ecc : Ecc) (s : State) : Result :=
  .next <| s.groomExec g.val ecc true fun i => match i with
    | .waitr d e => some fun t => .stay (t.issueWait g.val ⟨.reltime (t.now + e.toNat), d, none, 2⟩)
    | _ => none

/-- The tick a WAIT's own time condition waits for, if it has one. -/
def WaitKind.due : WaitKind → Option Nat
  | .time t _ | .reltime t => some t
  | .armed en _ t _ _ _ _ => if bit en 1 then some t else none
  | _ => none

/-- The earlier of two ticks that may be absent. -/
def sooner : Option Nat → Option Nat → Option Nat
  | none, b => b
  | a, none => a
  | some a, some b => some (min a b)

/-- A WAIT whose condition holds, or else whose deadline has passed, ends (R495, R496). -/
def State.tryEnd (s : State) (g : Nat) (w : Wait) : Option State :=
  match s.waitMet g false w.kind with
  | some gd => some (s.endWait g w gd false false)
  | none => if s.pastDeadline w.deadline then some (s.endWait g w 0 true false) else none

/-- WAIT_END (R495, R496): the condition has become true, or the deadline has come; time runs on to it if it lies ahead. -/
def execWaitEnd (g : Fin 16) (s : State) : Result :=
  .next <|
    let x := s.groom g.val
    match x.wait with
    | none => s
    | some w =>
        if x.st ≠ .waiting then s
        else match s.tryEnd g.val w with
          | some t => t
          | none => match sooner w.kind.due w.deadline with
            | none => s
            | some d => ((s.reach d).tryEnd g.val w).getD s

/-! ### Control and status registers (R499, R500) -/

/-- How a register of Table 10.12 may be reached. -/
inductive CsrTy where
  | ro | rw | rw1c | wo
deriving DecidableEq, Repr

/-- The type of a register number, if it is in Table 10.12. -/
def csrType (n : Nat) : Option CsrTy :=
  if n = 0x000 ∨ n = 0x002 ∨ n = 0x003 ∨ n = 0x008 ∨ n = 0x009 ∨ n = 0x00C ∨ n = 0x00D then some .ro
  else if n = 0x001 ∨ n = 0x00B ∨ (0x018 ≤ n ∧ n ≤ 0x01D) then some .rw
  else if n = 0x010 ∨ n = 0x011 then some .rw1c
  else if n = 0x00A then some .wo
  else if 0x020 ≤ n ∧ n ≤ 0x02F then some .ro
  else none

/-- A register of Table 10.12 as it reads. -/
def State.csrRead (s : State) (g n : Nat) : Word :=
  let x := s.groom g
  if 0x020 ≤ n then Tab.get 0 x.evtick (n - 0x020)
  else match n with
    | 0x000 => word g
    | 0x001 => x.flags.word
    | 0x002 => word x.pc
    | 0x003 => word x.stack.length
    | 0x008 => word (s.tb.cycles - x.cycleBase)
    | 0x009 => s.tbNow
    | 0x00B => x.wdogCfg
    | 0x00C => x.fault
    | 0x00D => x.eccCorr
    | 0x010 => x.evpend.zeroExtend 64
    | 0x011 => x.evover.zeroExtend 64
    | 0x018 => x.armEn
    | 0x019 => x.armEv
    | 0x01A => x.armT
    | 0x01B => x.armP
    | 0x01C => x.armPv
    | 0x01D => x.armQ
    | _ => 0

/-- The watchdog's count restarts (R502). -/
def State.wdogRestart (s : State) (g : Nat) : State := s.setGroom g { s.groom g with wdogBase := s.tb.cycles }

/-- The bits of WDOG_CFG (Table 10.13). -/
def wdogMask : Word := fieldMask 0 17

/-- An RW register of Table 10.12 takes a value; unnamed bits are ignored. -/
def State.csrPut (s : State) (g n : Nat) (v : Word) : State :=
  let x := s.groom g
  match n with
  | 0x001 => s.setGroom g { x with flags := Flags.ofWord v }
  | 0x00B => (s.setGroom g { x with wdogCfg := v &&& wdogMask }).wdogRestart g
  | 0x018 => s.setGroom g { x with armEn := v &&& fieldMask 0 4 }
  | 0x019 => s.setGroom g { x with armEv := v &&& fieldMask 0 16 }
  | 0x01A => s.setGroom g { x with armT := v }
  | 0x01B => s.setGroom g { x with armP := v &&& fieldMask 0 4 }
  | 0x01C => s.setGroom g { x with armPv := v }
  | 0x01D => s.setGroom g { x with armQ := v &&& (fieldMask 0 17 ||| fieldMask 32 29) }
  | _ => s

/-- A CSR instruction (R499). -/
def State.runCsr (s : State) (g : Nat) (e : Ecc) (op : CsrOp) : State :=
  s.groomExec g e true fun i => match i with
    | .csr o d a num => if o = op then some fun t =>
        let x := t.groom g
        let n := num.toNat
        let old := t.csrRead g n
        let v := x.reg a
        let go (u : State) : Exec := .next (u.setGroom g ((u.groom g).setG d old)) (x.after 1)
        match csrType n, op with
        | none, _ => .fault fCsr
        | some .wo, .write => .next (t.wdogRestart g) (x.after 1)
        | some .wo, _ => .fault fCsr
        | some _, .read => go t
        | some .ro, _ => .fault fCsr
        | some .rw, .write => .next (t.csrPut g n v) (x.after 1)
        | some .rw, .set => go (t.csrPut g n (old ||| v))
        | some .rw, .clear => go (t.csrPut g n (old &&& ~~~v))
        | some .rw1c, .write =>
            let m : BitVec 16 := ~~~(v.truncate 16)
            let y := if n = 0x010 then { x with evpend := x.evpend &&& m } else { x with evover := x.evover &&& m }
            .next (t.setGroom g y) (x.after 1)
        | some .rw1c, _ => .fault fCsr
        else none
    | _ => none

/-- CSR.R. -/
def execCsrR (g : Fin 16) (ecc : Ecc) (s : State) : Result := .next (s.runCsr g.val ecc .read)
/-- CSR.W. -/
def execCsrW (g : Fin 16) (ecc : Ecc) (s : State) : Result := .next (s.runCsr g.val ecc .write)
/-- CSR.S. -/
def execCsrS (g : Fin 16) (ecc : Ecc) (s : State) : Result := .next (s.runCsr g.val ecc .set)
/-- CSR.C. -/
def execCsrC (g : Fin 16) (ecc : Ecc) (s : State) : Result := .next (s.runCsr g.val ecc .clear)

/-! ### Events and the watchdog (R494, R502) -/

/-- GROOM_EVENT_INPUT (R494): an event delivered to consumer 32 + 16g + n reaches input n. -/
def execGroomEventInput (g n : Fin 16) (s : State) : Result :=
  .next <| match s.takeEvent (32 + 16 * g.val + n.val) with
    | none => s
    | some (t, s1) =>
        let x := s1.groom g.val
        let b : BitVec 16 := 1#16 <<< n.val
        let met := if x.evpend.getLsbD n.val then x.evover ||| b else x.evover
        s1.setGroom g.val { x with evpend := x.evpend ||| b, evover := met, evtick := Tab.set 0 x.evtick n.val (word t) }

/-- GROOM_WATCHDOG_EXPIRY (R502): the count reaches PERIOD µs; time runs on to it if it lies ahead. -/
def execGroomWatchdogExpiry (g : Fin 16) (s : State) : Result :=
  .next <|
    let x := s.groom g.val
    let period := bits x.wdogCfg 0 16
    if !x.active || period == 0 then s
    else
      let ahead := x.wdogBase + period * 1000 - s.tb.cycles
      let s0 := s.reach (s.now + 4 * ahead)
      let s1 := ((s0.raiseYard (wdogProducer g.val) s0.now).alarm 0x12 (field 0 8 g.val)).wdogRestart g.val
      if bit x.wdogCfg 16 then s1.groomStop g.val fWatchdog else s1

/-! ### The host's view of a groom (R542 to R549) -/

/-- The modes in which the host may release a groom (R544). -/
def Mode.releases : Mode → Bool
  | .armed | .stream | .burst | .drain | .shadow => true
  | _ => false

/-- The host releases a groom, or is refused (R544, R545). -/
def State.hostRelease (s : State) (g : Nat) : State :=
  let x := s.groom g
  if (x.st == .halted || x.st == .faulted) && s.ctl.mode.releases then s.groomRelease g (s.get F.GROOM_CTRL_START_ADDR g)
  else s.put F.GROOM_CTRL_REJECTED g 1

/-- GROOM_CTRL.CNT_CLEAR (R544). -/
def State.groomCntClear (s : State) (g : Nat) : State := (s.rst .GROOM_DEV_COUNT g).rst .GROOM_DEV_COUNT2 g

/-- A write to GROOM_CTRL with the enabled bytes of `m` (R544). -/
def State.groomCtrlWrite (s : State) (g : Nat) (v m : Word) : State :=
  let w := v &&& m
  let s1 := s.wr .GROOM_CTRL g (writeFields .GROOM_CTRL (s.rd .GROOM_CTRL g) v m)
  let s2 := if bit w 3 then s1.groomCntClear g else s1
  if bit w 1 && bit w 2 then s2.put F.GROOM_CTRL_REJECTED g 1
  else if bit w 1 then s2.hostRelease g
  else if bit w 2 then s2.groomHaltAsk g 1
  else s2

/-- A write to GROOM_GROUP (R545): every named groom is released or halted in one cycle. -/
def State.groupWrite (s : State) (v : Word) : State :=
  (List.range 16).foldl (fun a g =>
    if bit v g && bit v (16 + g) then a.put F.GROOM_CTRL_REJECTED g 1
    else if bit v g then a.hostRelease g
    else if bit v (16 + g) then a.groomHaltAsk g 1
    else a) s

/-- GROOM_RELEASE. -/
def execGroomRelease (g : Fin 16) (v : Word) (s : State) : Result := .next (s.groomCtrlWrite g.val (v ||| 2) allBytes)

/-- GROOM_HALT. -/
def execGroomHalt (g : Fin 16) (v : Word) (s : State) : Result := .next (s.groomCtrlWrite g.val (v ||| 4) allBytes)

/-- GROOM_HALT_EFFECT (R471, R510). -/
def execGroomHaltEffect (g : Fin 16) (s : State) : Result :=
  .next <| match (s.groom g.val).haltReq with
    | none => s
    | some src => s.groomHaltNow g.val src

/-- GROOM_CNT_CLEAR. -/
def execGroomCntClear (g : Fin 16) (s : State) : Result := .next (s.groomCntClear g.val)

/-- GROUP_RELEASE (R545). -/
def execGroupRelease (v : Word) (s : State) : Result := .next (s.groupWrite v)

/-- GROUP_HALT (R545). -/
def execGroupHalt (v : Word) (s : State) : Result := .next (s.groupWrite v)

/-- A host write of an instruction word (R467, R543). -/
def State.imemWrite (s : State) (g i : Nat) (v : BitVec 32) : State :=
  let x := s.groom g
  if x.active then s.inc F.GROOM_DEV_COUNT2_IMEM_WRITE_DISCARD g
  else s.setGroom g { x with imem := Tab.set 0 x.imem i v }

/-- IMEM_HOST_WRITE. -/
def execImemHostWrite (g : Fin 16) (i : Fin 16384) (v : BitVec 32) (s : State) : Result := .next (s.imemWrite g.val i.val v)

/-- A host write of a general register (R543): register 0 ignores it. -/
def State.groomGWrite (s : State) (g n : Nat) (v : Word) : State :=
  let x := s.groom g
  if x.active then s.inc F.GROOM_DEV_COUNT2_REG_WRITE_DISCARD g
  else s.setGroom g (x.setG (BitVec.ofNat 4 n) v)

/-- GROOM_G_WRITE. -/
def execGroomGWrite (g n : Fin 16) (v : Word) (s : State) : Result := .next (s.groomGWrite g.val n.val v)

/-- A host write of GROOM_WDOG_CFG with the enabled bytes of `m` (R547). -/
def State.groomWdogWrite (s : State) (g : Nat) (v m : Word) : State :=
  let x := s.groom g
  (s.setGroom g { x with wdogCfg := ((x.wdogCfg &&& ~~~m) ||| (v &&& m)) &&& wdogMask }).wdogRestart g

/-- GROOM_WDOG_CFG_WRITE. -/
def execGroomWdogCfgWrite (g : Fin 16) (v : Word) (s : State) : Result := .next (s.groomWdogWrite g.val v allBytes)

/-- A host write of data memory or scratch with the enabled bytes of `m` (R467, R492). -/
def State.hostMemWrite (s : State) (g : Nat) (scratch : Bool) (i : Nat) (v m : Word) : State :=
  s.setMemWord g scratch i ((s.memWord g scratch i &&& ~~~m) ||| (v &&& m))

/-- SCRATCH_HOST_ACCESS (R491, R492): one access in the service slot. -/
def execScratchHostAccess (write : Bool) (i : Fin 8192) (v : Word) (be : BitVec 8) (s : State) : Result :=
  .next <|
    if write then s.hostMemWrite 0 true i.val v (byteMask be) else s.answer 0 (s.memWord 0 true i.val)

/-- The code of a groom's state (Table 11.13). -/
def GroomSt.code : GroomSt → Nat
  | .halted => 0 | .running => 1 | .waiting => 2 | .faulted => 3

/-- GROOM_STATUS as it reads (Table 11.13). -/
def State.groomStatus (s : State) (g : Nat) : Word :=
  let x := s.groom g
  field 0 2 x.st.code ||| field 4 14 x.pc ||| field 32 14 x.haltCode ||| field 46 2 x.haltSource

/-- GROOM_EV as it reads (R547). -/
def State.groomEv (s : State) (g : Nat) : Word :=
  let x := s.groom g
  field 0 16 x.evpend.toNat ||| field 16 16 x.evover.toNat

end Sys2Proof.Machine
end

