-- ==== Sys2Proof/Machine/Tacks.lean ====
section
/-! DEFINITION. Contexts and tack sets (chapter 5): the copies, the checks of a commit, commits from every source, enabling, the chute
configuration, the crib and the paddock. -/

namespace Sys2Proof.Machine

/-! ### Contexts and their copies -/

def State.ctx (s : State) (c : Nat) : Ctx := Tab.get Ctx.zero s.ctxs c

def State.setCtx (s : State) (c : Nat) (x : Ctx) : State := { s with ctxs := Tab.set Ctx.zero s.ctxs c x }

def State.modCtx (s : State) (c : Nat) (f : Ctx → Ctx) : State := s.setCtx c (f (s.ctx c))

/-- A word of a tack-set copy at a byte offset (R216). -/
def cword (t : Tab Word) (off : Nat) : Word := Tab.get 0 t (off / 8)

/-- A field of a tack-set copy. -/
def cfield (t : Tab Word) (off lo w : Nat) : Nat := bits (cword t off) lo w

/-- A signed field of a tack-set copy. -/
def csigned (t : Tab Word) (off lo w : Nat) : Int := signed w (cfield t off lo w)

/-- A one-bit field. -/
def cbit (t : Tab Word) (off i : Nat) : Bool := bit (cword t off) i

def Ctx.copy (x : Ctx) (b : Bool) : Tab Word := if b then x.b else x.a

def Ctx.setCopy (x : Ctx) (b : Bool) (t : Tab Word) : Ctx := if b then { x with b := t } else { x with a := t }

/-- The code of a copy in CTX_STATUS: 1 A, 2 B. -/
def copyCode (b : Bool) : Nat := if b then 2 else 1

/-- The active copy of a context, if it has one. -/
def State.active (s : State) (c : Nat) : Option (Tab Word) :=
  match s.get F.CTX_STATUS_ACTIVE_COPY c with
  | 1 => some (s.ctx c).a
  | 2 => some (s.ctx c).b
  | _ => none

/-- The pending copy of a context. -/
def State.pendingCopy (s : State) (c : Nat) : Option (Tab Word) :=
  match s.get F.CTX_STATUS_PENDING_COPY c with
  | 1 => some (s.ctx c).a
  | 2 => some (s.ctx c).b
  | _ => none

def State.ctxOn (s : State) (c : Nat) : Bool := s.isOn F.CTX_CTRL_ENABLE c

/-- The binding of a copy (R206). -/
def cStall (t : Tab Word) : Nat := cfield t 0x008 0 5
def cChute (t : Tab Word) : Nat := cfield t 0x008 6 2
def cBay (t : Tab Word) : Nat := cfield t 0x008 8 2
def cBypass (t : Tab Word) : Bool := cfield t 0x008 10 2 == 1
def cWidth (t : Tab Word) : Nat := cfield t 0x010 0 16
def cHeight (t : Tab Word) : Nat := cfield t 0x010 16 16
def cEngine (t : Tab Word) : Nat := cfield t 0x100 0 3
def cKeep (t : Tab Word) : Bool := cEngine t == 0 || cbit t 0x100 4
def cPack (t : Tab Word) : Bool := cbit t 0x100 3
def cPool (t : Tab Word) : Nat := cfield t 0x100 16 8
def cStackN (t : Tab Word) : Nat := cfield t 0x118 0 16

/-- The number of bays of a chute (R203). -/
def State.bays (s : State) (k : Nat) : Nat := 2 ^ s.get F.CHUTE_CFG_BAYS k

/-- The enabled context that names stall `n`, the one with the lowest number. -/
def State.ctxOfStall (s : State) (n : Nat) : Option Nat :=
  (List.range 64).find? fun c => s.ctxOn c && ((s.active c).map fun t => cStall t == n).getD false

/-- The enabled contexts whose active or pending copy satisfies `p`. -/
def State.anyCopy (s : State) (p : Tab Word → Bool) : Bool :=
  (List.range 64).any fun c => s.ctxOn c && (((s.active c).map p).getD false || ((s.pendingCopy c).map p).getD false)

/-! ### Regions (R265) -/

/-- A region: origin and size in frame pixels, binning factors, and whether binned pixels are means. -/
structure Region where
  x0 : Nat
  y0 : Nat
  w : Nat
  h : Nat
  bx : Nat
  by' : Nat
  mean : Bool
deriving DecidableEq, Repr

def Region.ow (r : Region) : Nat := r.w / r.bx
def Region.oh (r : Region) : Nat := r.h / r.by'

/-- The regions of a copy; REGION_COUNT 0 is the whole frame, unbinned (R265). -/
def cRegions (t : Tab Word) : List Region :=
  let n := cfield t 0x100 5 5
  if n = 0 then [⟨0, 0, cWidth t, cHeight t, 1, 1, false⟩]
  else (List.range n).map fun r =>
    let a := 0x200 + 16 * r
    let b := 0x208 + 16 * r
    ⟨cfield t a 0 16, cfield t a 16 16, cfield t a 32 16, cfield t a 48 16, cfield t b 0 3 + 1, cfield t b 3 3 + 1, cbit t b 6⟩

/-- The smallest multiple of 64 that holds `n` bytes (R228). -/
def up64 (n : Nat) : Nat := (n + 63) / 64 * 64

/-- Bytes of a region's accumulator (R285). -/
def Region.accBytes (r : Region) : Nat := r.oh * up64 (4 * r.ow)

def Region.overlaps (a b : Region) : Bool :=
  decide (a.x0 < b.x0 + b.w) && decide (b.x0 < a.x0 + a.w) && decide (a.y0 < b.y0 + b.h) && decide (b.y0 < a.y0 + a.h)

/-- Bytes of a pixel in an output format (R227). -/
def formatBytes (f : Nat) : Nat := match f with | 0 => 2 | 1 => 4 | _ => 1

/-- The largest product a copy can make, in bytes (R424, R297, R422). -/
def cLargest (t : Tab Word) : Nat :=
  let rs := cRegions t
  let frame := fun (r : Region) =>
    let raw := r.ow * r.oh * formatBytes (cfield t 0x010 50 2)
    if cPack t then raw + (raw + 63) / 64 + 15 else raw
  let stack := fun (r : Region) => 64 + 4 * r.ow * r.oh
  let a := if cBypass t then 2 * cWidth t * cHeight t else if cKeep t then (rs.map frame).foldl max 0 else 0
  let b := if cEngine t = 3 ∨ cEngine t = 4 then (rs.map stack).foldl max 0 else if cEngine t = 1 then 65536 else 0
  max a b

/-! ### The field checks of a commit (R217, R264, R424) -/

/-- The bits of the word at `off` that Tables 5.1, 6.1 and 9.5 name. -/
def copyMask (off : Nat) : Word :=
  let m := fun (l : List (Nat × Nat)) => l.foldl (fun a (p : Nat × Nat) => a ||| fieldMask p.1 p.2) 0
  match off with
  | 0x000 => m [(0, 40)]
  | 0x008 => m [(0, 5), (6, 6), (16, 5)]
  | 0x010 => m [(0, 35), (40, 16)]
  | 0x018 => m [(0, 10)]
  | 0x020 => m [(0, 26), (32, 7)]
  | 0x028 | 0x030 | 0x048 | 0x050 | 0x060 | 0x120 | 0x128 => m [(0, 37)]
  | 0x038 => m [(0, 22), (32, 23)]
  | 0x040 | 0x140 => m [(0, 24)]
  | 0x058 => m [(0, 7), (8, 4)]
  | 0x068 | 0x070 => m [(0, 60)]
  | 0x078 => m [(0, 4), (12, 14)]
  | 0x080 => m [(0, 64)]
  | 0x100 => m [(0, 10), (16, 8)]
  | 0x108 => m [(0, 52)]
  | 0x110 => m [(0, 6), (8, 28), (48, 16)]
  | 0x118 => m [(0, 16)]
  | 0x130 => m [(0, 10), (16, 16), (32, 24)]
  | 0x138 => m [(0, 48)]
  | 0x148 => m [(0, 22), (32, 22)]
  | 0x300 => m [(0, 7), (8, 3), (12, 3), (16, 3)]
  | 0x3F8 => m [(0, 32)]
  | _ => if 0x200 ≤ off ∧ off < 0x300 then (if off % 16 = 0 then m [(0, 64)] else m [(0, 7)]) else 0

/-- Whether a map at `a` of `n` bytes is misplaced (R217). -/
def badMap (a n : Nat) : Bool := a % 64 != 0 || decide (fenEnd < a + n)

/-- The state of crib slot `k` (R234). -/
def State.cribState (s : State) (k : Nat) : Nat := (Tab.get CribSlot.zero s.crib k).st

/-- Whether the word of a copy at `off` fails a check (R217, R264, R424). -/
def State.copyFails (s : State) (t : Tab Word) (off : Nat) : Bool :=
  let w := cWidth t
  let h := cHeight t
  let eng := cEngine t
  let nreg := cfield t 0x100 5 5
  let rs := cRegions t
  let acc := (rs.map Region.accBytes).foldl (· + ·) 0
  (cword t off &&& ~~~copyMask off != 0) ||
  match off with
  | 0x000 => cfield t 0 32 8 != 1
  | 0x008 =>
      decide (19 < cStall t) || decide (2 ≤ cfield t 8 10 2) || (cfield t 8 10 2 == 0 && decide (s.bays (cChute t) ≤ cBay t))
  | 0x010 => w == 0 || h == 0 || decide (4 < cfield t 0x010 32 3) || cfield t 0x010 50 2 == 3
  | 0x020 => cbit t 0x020 25 && s.cribState (cfield t 0x020 32 7) != 2
  | 0x028 => cbit t 0x020 24 && badMap (cfield t 0x028 0 37) (2 * h)
  | 0x030 => cbit t 0x018 2 && badMap (cfield t 0x030 0 37) (h * up64 (2 * w))
  | 0x038 =>
      decide (1048576 < cfield t 0x038 32 21) || decide (4194304 < cfield t 0x038 0 22 + cfield t 0x038 32 21) ||
        cfield t 0x038 53 2 == 3
  | 0x048 => cbit t 0x018 4 && badMap (cfield t 0x048 0 37) ((cfield t 0x010 48 2 + 1) * 33344)
  | 0x050 => cbit t 0x018 5 && badMap (cfield t 0x050 0 37) (h * up64 (2 * w))
  | 0x058 => cbit t 0x018 6 && s.cribState (cfield t 0x058 0 7) != 1
  | 0x060 => cbit t 0x018 7 && badMap (cfield t 0x060 0 37) (h * up64 (4 * w))
  | 0x078 =>
      cfield t 0x078 12 7 == 0 || decide (64 < cfield t 0x078 12 7) || cfield t 0x078 19 7 == 0 || decide (64 < cfield t 0x078 19 7)
  | 0x100 =>
      decide (4 < eng) || decide (16 < nreg) || ((eng == 2 || eng == 4) && decide (1 < nreg)) ||
        (eng == 4 && decide (2 ≤ cChute t)) || (cPack t && cfield t 0x010 50 2 == 1) || !s.poolOn (cPool t)
  | 0x110 =>
      eng == 2 && (decide (cfield t 0x110 48 16 < 400) || s.get F.PADDOCK_SET_STATE (cfield t 0x110 0 6) != 1)
  | 0x118 => (eng == 3 || eng == 4) && cStackN t == 0
  | 0x120 => (eng == 3 || eng == 4) && badMap (cfield t 0x120 0 37) acc
  | 0x128 => eng == 4 && badMap (cfield t 0x128 0 37) (2 * acc)
  | 0x130 => cfield t 0x130 0 2 == 3 || (cfield t 0x130 0 2 == 2 && decide (cfield t 0x130 16 16 < 400))
  | 0x138 =>
      eng == 4 && (match rs with
        | [] => false
        | r :: _ => decide (r.ow < cfield t 0x138 0 16 + cfield t 0x138 32 8 + 1) ||
            decide (r.oh < cfield t 0x138 16 16 + cfield t 0x138 40 8 + 1))
  | 0x300 =>
      (cbit t 0x300 0 && (decide (1 < nreg) || cPack t || !cKeep t)) || decide (0xFFFFFFFF < cLargest t)
  | _ =>
      if 0x200 ≤ off ∧ off < 0x300 ∧ (off - 0x200) / 16 < nreg then
        let k := (off - 0x200) / 16
        match rs[k]? with
        | none => false
        | some r =>
            if off % 16 = 0 then
              r.w == 0 || r.h == 0 || decide (w < r.x0 + r.w) || decide (h < r.y0 + r.h) || r.w % r.bx != 0 ||
                r.h % r.by' != 0 || (rs.take k).any r.overlaps
            else eng == 1 && (r.bx != 1 || r.by' != 1)
      else false

/-- The first failing word of a copy, as a byte offset. -/
def State.badOffset (s : State) (t : Tab Word) : Option Nat := (List.range 128).map (8 * ·) |>.find? (s.copyFails t)

/-- The bytes of a copy that its CRC covers. -/
def copyBytes (t : Tab Word) : List Byte := (List.range 127).flatMap fun k => bytesOfNat 8 (Tab.get 0 t k).toNat

/-- Whether a sequence is newer than the active one (R242). -/
def newer (seq act : Nat) : Bool := let d := (seq + 2 ^ 32 - act) % 2 ^ 32; 1 ≤ d && d ≤ 2 ^ 31 - 1

/-! ### Commits (R241 to R247) -/

/-- Results of a commit (Table 5.10, R529). -/
def cmChecking : Nat := 1
def cmPending : Nat := 2
def cmApplied : Nat := 3
def cmCrc : Nat := 4
def cmStale : Nat := 5
def cmBadField : Nat := 6
def cmRebind : Nat := 7
def cmCancelled : Nat := 8
def cmRefused : Nat := 9
def cmLocked : Nat := 10

/-- A groom's TACK ends: GD, Z and T (R529). -/
def State.tackReply (s : State) (g : Nat) (result badOff : Nat) (timeout : Bool) : State :=
  let x := s.groom g
  match x.wait with
  | none => s
  | some w =>
      let y := x.setG w.d (field 0 4 result ||| field 4 10 badOff)
      s.setGroom g { y with
        st := .running, wait := none, pc := x.pc + w.len
        flags := { x.flags with z := result == cmPending || result == cmApplied, t := timeout } }

/-- The commit of a groom's TACK leaves CHECKING (R529). -/
def State.tackChecked (s : State) (g c result badOff : Nat) : State :=
  let x := s.groom g
  match x.wait with
  | some w => match w.kind with
    | .tackCheck k wt =>
        if k ≠ c then s
        else if wt && result == cmPending then s.setGroom g { x with wait := some { w with kind := .tackDone c } }
        else s.tackReply g result badOff false
    | _ => s
  | none => s

/-- The pending commit of a context has ended, for the grooms that wait for it. -/
def State.tackOver (s : State) (c result : Nat) : State :=
  (List.range 16).foldl (fun a g =>
    let x := a.groom g
    match x.wait with
    | some w => if w.kind = .tackDone c then a.setGroom g { x with wait := some { w with kind := .tackEnded result } } else a
    | none => a) s

/-- CTX_COMMIT shows a result. -/
def State.showResult (s : State) (c result badOff : Nat) : State :=
  ((s.put F.CTX_COMMIT_RESULT c result).put F.CTX_COMMIT_BAD_OFFSET c badOff).put F.CTX_COMMIT_GO c (b2n (result == cmChecking))

/-- A copy becomes active (R243, R245, R253); `frame` and `seq` are the FRAME_ID and frame sequence it first applies to, or 0. -/
def State.activate (s : State) (c : Nat) (b : Bool) (frame seq : Nat) : State :=
  let s1 := (s.put F.CTX_STATUS_ACTIVE_COPY c (copyCode b)).put F.CTX_STATUS_PENDING_COPY c 0
  let s2 := (s1.put F.CTX_APPLIED_APPLIED_FRAME_ID c frame).put F.CTX_APPLIED_ACTIVE_SEQUENCE c
    (cfield ((s.ctx c).copy b) 0 0 32)
  let s3 := (s2.modCtx c fun x => { x with seqDue := some (x.tags.length, seq) }).showResult c cmApplied 0
  (s3.countEvent 4).tackOver c cmApplied

/-- A GO for a copy: taken, or refused while a commit is under check or pending (R242, R247). -/
def State.commitGo (s : State) (c : Nat) (b : Bool) (g : Option Nat) : Bool × State :=
  if (s.ctx c).check.isSome ∨ s.get F.CTX_STATUS_PENDING_COPY c ≠ 0 then (false, s.put F.CTX_COMMIT_GO_REFUSED c 1)
  else (true, (s.modCtx c fun x => { x with check := some ⟨b, g⟩ }).showResult c cmChecking 0)

/-- What the checks of a copy come to: a result and a failing offset (R242). -/
def State.checkCopy (s : State) (c : Nat) (t : Tab Word) : Nat × Nat :=
  let act := s.active c
  let seq := cfield t 0 0 32
  if cfield t 0x3F8 0 32 ≠ crc32c (copyBytes t) then (cmCrc, 0)
  else if !(match act with | none => seq != 0 | some a => newer seq (cfield a 0 0 32)) then (cmStale, 0)
  else match s.badOffset t with
    | some o => (cmBadField, o)
    | none =>
        let moved := match act with
          | none => false
          | some a => cStall a != cStall t || cChute a != cChute t || cBay a != cBay t || cBypass a != cBypass t
        if s.ctxOn c && moved then (cmRebind, 0) else (cmPending, 0)

/-- TACK_CHECK_COMPLETE (R242, R245). -/
def execTackCheckComplete (c : Fin 64) (s : State) : Result :=
  .next <| match (s.ctx c.val).check with
    | none => s
    | some k =>
        let r := s.checkCopy c.val ((s.ctx c.val).copy k.b)
        let s1 := s.modCtx c.val fun x => { x with check := none }
        let s2 :=
          if r.1 = cmCrc then
            (((s1.showResult c.val cmCrc 0).inc F.CTX_COUNT2_TACK_CRC c.val).fault 1 (field 0 6 c.val ||| field 8 1 (b2n k.b)))
          else if r.1 = cmPending then
            if s1.ctxOn c.val then (s1.showResult c.val cmPending 0).put F.CTX_STATUS_PENDING_COPY c.val (copyCode k.b)
            else s1.activate c.val k.b 0 0
          else s1.showResult c.val r.1 r.2
        match k.groom with
        | none => s2
        | some g => s2.tackChecked g c.val (s2.get F.CTX_COMMIT_RESULT c.val) r.2

/-- A pending commit is cancelled (R246). -/
def State.commitCancel (s : State) (c : Nat) : State :=
  if s.get F.CTX_STATUS_PENDING_COPY c = 0 then s
  else ((s.put F.CTX_STATUS_PENDING_COPY c 0).showResult c cmCancelled 0).tackOver c cmCancelled

/-- A write of CTX_COMMIT (Table 5.10): COPY, then CANCEL, then GO. -/
def State.ctxCommitWrite (s : State) (c : Nat) (v m : Word) : State :=
  let old := s.rd .CTX_COMMIT c
  let e := v &&& m
  let s1 := s.wr .CTX_COMMIT c (writeFields .CTX_COMMIT old (e &&& ~~~0x30) m)
  let s2 := if bit e 5 then s1.commitCancel c else s1
  if bit e 4 then (s2.commitGo c (s2.isOn F.CTX_COMMIT_COPY c) none).2 else s2

/-- TACK_COMMIT_GO: a write of `v` with GO 1 (R242, R247). -/
def execTackCommitGo (c : Fin 64) (v : Word) (s : State) : Result := .next (s.ctxCommitWrite c.val (v ||| 0x10) allBytes)

/-- TACK_COMMIT_CANCEL (R246). -/
def execTackCommitCancel (c : Fin 64) (s : State) : Result := .next (s.commitCancel c.val)

/-- Whether a copy is locked (R241). -/
def State.copyLocked (s : State) (c : Nat) (b : Bool) : Bool :=
  s.get F.CTX_STATUS_ACTIVE_COPY c == copyCode b || s.get F.CTX_STATUS_PENDING_COPY c == copyCode b ||
    ((s.ctx c).check.map fun k => k.b == b).getD false

/-- A write to word `i` of a copy (R215, R241). -/
def State.copyWrite (s : State) (c : Nat) (b : Bool) (i : Nat) (v m : Word) : State :=
  if s.copyLocked c b then s.put F.CTX_STATUS_LOCKED_WRITE c 1
  else s.modCtx c fun x =>
    let t := x.copy b
    let old := Tab.get 0 t i
    x.setCopy b (Tab.set 0 t i ((old &&& ~~~m) ||| (v &&& m)))

/-- TACK_COPY_WRITE (R241). -/
def execTackCopyWrite (c : Fin 64) (b : Bool) (w : Fin 128) (v : Word) (be : BitVec 8) (s : State) : Result :=
  .next (s.copyWrite c.val b w.val v (byteMask be))

/-! ### Herd membership (R425) -/

/-- The contexts that qualify for herd `h`, in ascending stall order. -/
def State.herdQualified (s : State) (h : Nat) : List (Nat × Nat) :=
  let l := (List.range 64).filterMap fun c =>
    if s.ctxOn c then
      match s.active c with
      | some t => if cbit t 0x008 20 && cfield t 0x008 16 4 == h then some (cStall t, c) else none
      | none => none
    else none
  l.mergeSort fun a b => decide (a.1 ≤ b.1)

/-- A herd's members: the 16 with the lowest stall numbers. -/
def State.herdMembers (s : State) (h : Nat) : List (Nat × Nat) := (s.herdQualified h).take 16

/-- HERD_STATUS follows the membership (R425, R460). -/
def State.herdRefresh (s : State) : State :=
  (List.range 16).foldl (fun a h =>
    if a.isOn F.HERD_CFG_ENABLE h then
      let q := a.herdQualified h
      let m := (q.take 16).foldl (fun n p => n ||| 2 ^ p.1) 0
      let a1 := a.put F.HERD_STATUS_MEMBERS h m
      if 16 < q.length then a1.put F.HERD_STATUS_OVERSUBSCRIBED h 1 else a1
    else a) s

/-! ### Enabling a context (R211, R250) -/

/-- Whether ENABLE of context `c` is refused (R211). -/
def State.enableRefused (s : State) (c : Nat) : Bool :=
  match s.active c with
  | none => true
  | some t =>
      decide (s.bays (cChute t) ≤ cBay t) ||
        (List.range 64).any fun d => d != c && s.ctxOn d && ((s.active d).map fun u => cStall u == cStall t).getD false

/-- A context becomes enabled: its first frame takes CTX_SEQ_HI as its epoch (R414). -/
def State.ctxEnable (s : State) (c : Nat) : State :=
  if s.ctxOn c then s
  else if s.enableRefused c then s.put F.CTX_CTRL_ENABLE_REJECTED c 1
  else ((s.put F.CTX_CTRL_ENABLE c 1).modCtx c fun x => { x with epoch := none, lastId := 0 }).herdRefresh

/-- CNT_CLEAR of a context (R250, R256, R464). -/
def State.ctxCntClear (s : State) (c : Nat) : State :=
  let s1 := ((s.rst .CTX_COUNT c).rst .CTX_COUNT2 c).rst .CTX_DEST_COUNT c
  match s.active c with
  | some t => s1.rst .CHUTE_COUNT (cChute t)
  | none => s1

/-- CTX_CNT_CLEAR (R250). -/
def execCtxCntClear (c : Fin 64) (s : State) : Result := .next (s.ctxCntClear c.val)

/-! ### The chute complex's registers (R255 to R259) -/

/-- A write of CHUTE_CFG (Table 5.11). -/
def State.chuteCfgWrite (s : State) (k : Nat) (v m : Word) : State :=
  let s1 := if bit (v &&& m) 2 then s.put F.CHUTE_CFG_CFG_REJECTED k 0 else s
  if m &&& 3 = 0 then s1
  else
    let used := (List.range 64).any fun c => s.ctxOn c && ((s.active c).map fun t => cChute t == k).getD false
    if bits v 0 2 = 3 ∨ used = true then s1.put F.CHUTE_CFG_CFG_REJECTED k 1 else s1.put F.CHUTE_CFG_BAYS k (bits v 0 2)

/-- CHUTE_BAYS_WRITE (R255). -/
def execChuteBaysWrite (k : Fin 4) (v : Word) (s : State) : Result := .next (s.chuteCfgWrite k.val v allBytes)

/-- A write of CHUTE_DEFECT_BASE (Table 5.12). -/
def State.defectBaseWrite (s : State) (v m : Word) : State :=
  let s1 := if bit (v &&& m) 0 then s.put F.CHUTE_DEFECT_BASE_REJECTED 0 0 else s
  if m &&& fieldMask 16 21 = 0 then s1
  else
    let b := bits ((s.rd .CHUTE_DEFECT_BASE &&& ~~~m) ||| (v &&& m)) 16 21
    if ((List.range 64).any s.ctxOn) = true ∨ fenEnd < b * 0x10000 + 0x1000000 then s1.put F.CHUTE_DEFECT_BASE_REJECTED 0 1
    else s1.put F.CHUTE_DEFECT_BASE_BASE 0 b

/-- DEFECT_BASE_WRITE (R257). -/
def execDefectBaseWrite (v : Word) (s : State) : Result := .next (s.defectBaseWrite v allBytes)

/-! ### The crib (R234 to R236) -/

/-- Whether a crib slot is pinned (R236). -/
def State.cribPinned (s : State) (k : Nat) : Bool :=
  s.anyCopy fun t => (cbit t 0x018 6 && cfield t 0x058 0 7 == k) || (cbit t 0x020 25 && cfield t 0x020 32 7 == k)

/-- CRIB_STATE `m` as read (R259). -/
def State.cribStates (s : State) (m : Nat) : Word :=
  (List.range 16).foldl (fun a k =>
    a ||| field (4 * k) 2 (s.cribState (16 * m + k)) ||| field (4 * k + 2) 1 (b2n (s.cribPinned (16 * m + k)))) 0

def State.setCrib (s : State) (k : Nat) (x : CribSlot) : State := { s with crib := Tab.set CribSlot.zero s.crib k x }

/-- Crib load results (Table 5.13). -/
def State.cribResult (s : State) (r : Nat) : State := (s.put F.CRIB_LOAD_RESULT 0 r).put F.CRIB_LOAD_GO 0 (b2n (r == 1))

/-- A GO of CRIB_LOAD (R235, R236). -/
def State.cribGo (s : State) : State :=
  if s.cribLoad.isSome then s
  else
    let k := s.get F.CRIB_LOAD_SLOT
    let kind := s.get F.CRIB_LOAD_KIND
    let a := s.get F.CRIB_LOAD_ADDR_ADDR * 64
    if kind = 0 ∨ kind = 3 then s.cribResult 7
    else if s.cribPinned k then s.cribResult 3
    else if fenEnd < a + 262144 then s.cribResult 6
    else
      let r := s.engineReadWords 32768 a
      (r.2.2.setCrib k ⟨3, []⟩).cribResult 1 |> fun t => { t with cribLoad := some ⟨k, kind, r.1, r.2.1⟩ }

/-- A write of CRIB_LOAD (Table 5.13): its fields are held while a load runs. -/
def State.cribLoadWrite (s : State) (v m : Word) : State :=
  let s1 := s.wr .CRIB_LOAD 0 (writeFields .CRIB_LOAD (s.rd .CRIB_LOAD) (v &&& ~~~0x10000) m)
  if bit (v &&& m) 16 then s1.cribGo else s1

/-- CRIB_LOAD_GO (R235). -/
def execCribLoadGo (v : Word) (s : State) : Result := .next (s.cribLoadWrite (v ||| 0x10000) allBytes)

/-- The entries of an image of little-endian 32-bit words. -/
def imageEntries (ws : List Word) (w : Nat) : List Nat := ws.flatMap fun x => [bits x 0 w, bits x 32 w]

/-- A list as sparse data by index. -/
def tabOf : Nat → List Nat → Tab Nat
  | _, [] => []
  | k, v :: l => if v = 0 then tabOf (k + 1) l else (k, v) :: tabOf (k + 1) l

/-- CRIB_LOAD_COMPLETE (R235, Table 5.13). -/
def execCribLoadComplete (s : State) : Result :=
  .next <| match s.cribLoad with
    | none => s
    | some l =>
        let s1 := { s with cribLoad := none }
        let good := crc32c (l.image.flatMap fun w => bytesOfNat 8 w.toNat) == s.get F.CRIB_LOAD_CRC_CRC
        if l.poison then (s1.setCrib l.slot CribSlot.zero).cribResult 5
        else if !good then (s1.setCrib l.slot CribSlot.zero).cribResult 4
        else (s1.setCrib l.slot ⟨l.kind, tabOf 0 (imageEntries l.image (if l.kind = 1 then 20 else 16))⟩).cribResult 2

/-! ### The paddock (R275 to R277) -/

/-- A window: origin and size (R275). -/
structure Window where
  x0 : Nat
  y0 : Nat
  w : Nat
  h : Nat
deriving DecidableEq, Repr

def windowOf (e : Word) : Window := ⟨bits e 0 16, bits e 16 16, bits e 32 8 + 1, bits e 40 8 + 1⟩

def Window.overlaps (a b : Window) : Bool :=
  decide (a.x0 < b.x0 + b.w) && decide (b.x0 < a.x0 + a.w) && decide (a.y0 < b.y0 + b.h) && decide (b.y0 < a.y0 + a.h)

/-- Whether the entries of an image break R276. -/
def badEntries : List Word → Bool
  | [] => false
  | e :: l =>
      bits e 48 16 != 0 ||
      (match l with
        | [] => false
        | f :: _ => !(decide (bits e 16 16 < bits f 16 16) ||
            (bits e 16 16 == bits f 16 16 && decide (bits e 0 16 < bits f 0 16)))) ||
      l.any (fun f => (windowOf e).overlaps (windowOf f)) || badEntries l

/-- Whether a window set is pinned (R277). -/
def State.padPinned (s : State) (k : Nat) : Bool := s.anyCopy fun t => cEngine t == 2 && cfield t 0x110 0 6 == k

def State.padResult (s : State) (r : Nat) : State := (s.put F.PADDOCK_LOAD_RESULT 0 r).put F.PADDOCK_LOAD_GO 0 (b2n (r == 1))

/-- A window set's registers. -/
def State.setPad (s : State) (k first count st : Nat) : State :=
  ((s.put F.PADDOCK_SET_FIRST k first).put F.PADDOCK_SET_COUNT k count).put F.PADDOCK_SET_STATE k st

/-- Whether a range overlaps another set that is VALID or LOADING. -/
def State.padOverlap (s : State) (k first count : Nat) : Bool :=
  (List.range 64).any fun j => j != k && s.get F.PADDOCK_SET_STATE j != 0 &&
    decide (s.get F.PADDOCK_SET_FIRST j < first + count) && decide (first < s.get F.PADDOCK_SET_FIRST j + s.get F.PADDOCK_SET_COUNT j)

/-- A failed load leaves its set EMPTY (R276). -/
def State.padFail (s : State) (k r : Nat) : State := (s.setPad k 0 0 0).padResult r

/-- A GO of PADDOCK_LOAD (R276, R277). -/
def State.padGo (s : State) : State :=
  if s.padLoad.isSome then s
  else
    let k := s.get F.PADDOCK_LOAD_SET
    let first := s.get F.PADDOCK_LOAD_RANGE_FIRST
    let count := s.get F.PADDOCK_LOAD_RANGE_COUNT
    let a := s.get F.PADDOCK_LOAD_ADDR_ADDR * 64
    if s.padPinned k then s.padResult 3
    else if 65536 < first + count ∨ count = 0 ∨ 16384 < count ∨ s.padOverlap k first count = true then s.padFail k 7
    else if fenEnd < a + 8 * count then s.padFail k 6
    else
      let r := s.engineReadWords count a
      { (r.2.2.setPad k first count 2).padResult 1 with padLoad := some ⟨k, 0, r.1, r.2.1⟩ }

/-- A write of PADDOCK_LOAD (Table 6.11). -/
def State.padLoadWrite (s : State) (v m : Word) : State :=
  let s1 := s.wr .PADDOCK_LOAD 0 (writeFields .PADDOCK_LOAD (s.rd .PADDOCK_LOAD) (v &&& ~~~0x10000) m)
  if bit (v &&& m) 16 then s1.padGo else s1

/-- PADDOCK_LOAD_GO (R276). -/
def execPaddockLoadGo (v : Word) (s : State) : Result := .next (s.padLoadWrite (v ||| 0x10000) allBytes)

/-- Entries stored from `i`. -/
def storeEntries (t : Tab Word) (i : Nat) : List Word → Tab Word
  | [] => t
  | e :: l => storeEntries (Tab.set 0 t i e) (i + 1) l

/-- PADDOCK_LOAD_COMPLETE (R276, Table 6.11). -/
def execPaddockLoadComplete (s : State) : Result :=
  .next <| match s.padLoad with
    | none => s
    | some l =>
        let s1 := { s with padLoad := none }
        let good := crc32c (l.image.flatMap fun w => bytesOfNat 8 w.toNat) == s.get F.PADDOCK_LOAD_CRC_CRC
        let first := s.get F.PADDOCK_SET_FIRST l.slot
        let count := s.get F.PADDOCK_SET_COUNT l.slot
        if l.poison then s1.padFail l.slot 5
        else if !good then s1.padFail l.slot 4
        else if badEntries l.image then s1.padFail l.slot 8
        else
          let s2 := { s1 with paddock := storeEntries s1.paddock first l.image }
          (s2.setPad l.slot first count 1).padResult 2

/-- PADDOCK_SET as read: with PINNED (R304). -/
def State.padSet (s : State) (k : Nat) : Word := s.rd .PADDOCK_SET k ||| field 34 1 (b2n (s.padPinned k))

/-- RED_CNT_CLEAR (R305). -/
def execRedCntClear (c : Fin 64) (s : State) : Result := .next (s.rst .RED_CTX_COUNT c.val)

end Sys2Proof.Machine
end

