-- ==== Sys2Proof/Machine/Chute.lean ====
section
/-! DEFINITION. The corrections of a bay (chapter 5, R218 to R240): arithmetic, shading interpolation, map reads, and one row's passage
through the stages that ORDER selects. -/

namespace Sys2Proof.Machine

/-! ### Arithmetic (R218) -/

/-- Bits per pixel of a DEPTH code (Table 4.4). -/
def depthBits (d : Nat) : Nat := 8 + 2 * d

/-- Saturation to `w` bits, two's complement. -/
def satInt (w : Nat) (v : Int) : Int := max (-(2 ^ (w - 1) : Int)) (min v (2 ^ (w - 1) - 1))

/-- Saturation of a pixel (R218). -/
def sat24 (v : Int) : Int := satInt 24 v

/-- A quotient rounded half up (R218); `d` positive. -/
def roundDiv (n d : Int) : Int := (2 * n + d) / (2 * d)

/-- A value held between two bounds. -/
def clampInt (lo hi v : Int) : Int := max lo (min v hi)

/-- An arithmetic right shift. -/
def sar (v : Int) (k : Nat) : Int := v / 2 ^ k

/-! ### Shading (R222, R223) -/

/-- The node left of a coordinate and its fraction in 2^-16 (R223). -/
def gridPos (x dim : Nat) : Nat × Nat :=
  if dim ≤ 1 then (0, 0)
  else
    let q := 128 * x
    (q / (dim - 1), (roundDiv ((q % (dim - 1) : Nat) * 65536 : Int) ((dim - 1 : Nat) : Int)).toNat)

/-- Twice the four Catmull–Rom weights, in 2^-48 (R223). -/
def cubicWeights (f : Int) : List Int :=
  let o : Int := 65536
  [-f ^ 3 + 2 * f ^ 2 * o - f * o ^ 2, 3 * f ^ 3 - 5 * f ^ 2 * o + 2 * o ^ 3, -3 * f ^ 3 + 4 * f ^ 2 * o + f * o ^ 2, f ^ 3 - f ^ 2 * o]

/-- A sum of products. -/
def dot : List Int → List Int → Int
  | a :: l, b :: m => a * b + dot l m
  | _, _ => 0

/-- Node indices i - 1 to i + 2, clamped (R223). -/
def nodeIdx (i : Nat) : List Nat := [i - 1, min i 128, min (i + 1) 128, min (i + 2) 128]

/-- The interpolated factor at (x, y), in Q2.14, from four rows of nodes (R223). -/
def shadeAt (node : Nat → Nat → Nat) (x y w h : Nat) : Nat :=
  let px := gridPos x w
  let py := gridPos y h
  let row := fun j => roundDiv (dot (cubicWeights px.2) ((nodeIdx px.1).map fun i => (node i j : Int))) (2 ^ 43)
  let v := roundDiv (dot (cubicWeights py.2) ((nodeIdx py.1).map row)) (2 ^ 49)
  (clampInt 0 65535 (roundDiv v 64)).toNat

/-- The shading factor of a pixel and its product (R222). -/
def shadePx (s g : Nat) (v : Int) : Int :=
  let k : Int := min (roundDiv ((s * g : Nat) : Int) 4096) 0x3FFFF
  sat24 (roundDiv (v * k) 65536)

/-! ### A tack set's stage parameters -/

def cOrderL (t : Tab Word) : Bool := cbit t 0x018 0
def cBlack (t : Tab Word) : Bool := cbit t 0x018 1
def cDark (t : Tab Word) : Bool := cBlack t && cbit t 0x018 2
def cDefect (t : Tab Word) : Bool := cbit t 0x018 3
def cShade (t : Tab Word) : Bool := cbit t 0x018 4
def cGain (t : Tab Word) : Bool := cbit t 0x018 5
def cLin (t : Tab Word) : Bool := cbit t 0x018 6
def cMergeEn (t : Tab Word) : Bool := cbit t 0x018 7
def cHist (t : Tab Word) : Bool := cbit t 0x018 8
def cZone (t : Tab Word) : Bool := cbit t 0x018 9
def cRow (t : Tab Word) : Bool := cBlack t && cbit t 0x020 24
def cCol (t : Tab Word) : Bool := cBlack t && cbit t 0x020 25

/-- The colour plane of a position (R219). -/
def cPlane (t : Tab Word) (x y : Nat) : Nat := cfield t 0x010 (40 + 4 * (y % 2) + 2 * (x % 2)) 2

/-- The plane pitch (R219). -/
def cPitch (t : Tab Word) : Nat := if cfield t 0x010 48 2 = 0 then 1 else 2

/-- The ratio of exposure `k`, in 2^-12 (R225). -/
def cRatio (t : Tab Word) (k : Nat) : Nat := if k = 0 then 4096 else cfield t 0x068 (20 * (k - 1)) 20

/-- The knee of exposure `k` (R225). -/
def cKnee (t : Tab Word) (k : Nat) : Nat := cfield t 0x070 (20 * k) 20

/-- Whether a frame is a member of a merge group. -/
def Frame.merging (f : Frame) : Bool := cMergeEn f.copy && f.hdr.expCount != 0

/-- Whether a frame is the last member of its group, or unmerged: what leaves the chute (R225). -/
def Frame.leaves (f : Frame) : Bool := !f.merging || f.hdr.expIndex == f.hdr.expCount

/-! ### Map reads (R228 to R231) -/

/-- Words read from the fen, each with its poison. -/
def State.mapWords : Nat → Nat → State → List (Word × Bool) × State
  | 0, _, s => ([], s)
  | n + 1, a, s =>
      let r := s.engineRead a
      let q := State.mapWords n (a + 8) r.2.2
      ((r.1, r.2.1) :: q.1, q.2)

/-- The distinct 64-byte units of poisoned words read from word address `w`. -/
def poisonUnits (w : Nat) (l : List (Word × Bool)) : List Nat :=
  ((List.range l.length).filterMap fun k =>
    if (l[k]?.map (·.2)).getD false then some ((w + k) / 8) else none).eraseDups

/-- `n` map entries of `size` bytes from `a`, none where poisoned; and the units poisoned. -/
def State.mapVals (s : State) (a n size : Nat) : List (Option Nat) × List Nat × State :=
  if n = 0 then ([], [], s)
  else
    let w0 := a / 8
    let nw := (a + n * size - 1) / 8 + 1 - w0
    let r := State.mapWords nw (w0 * 8) s
    let vals := (List.range n).map fun k =>
      let b := a + k * size
      match r.1[b / 8 - w0]? with
      | some (w, false) => some (bits w (8 * (b % 8)) (8 * size))
      | _ => none
    (vals, poisonUnits w0 r.1, r.2)

/-- Whether a frame needs map data for row `y` (R230). -/
def Frame.needsMap (f : Frame) (y : Nat) : Bool :=
  let t := f.copy
  cRow t || cDark t || cShade t || cGain t || (f.merging && f.hdr.expIndex != 0) || (cDefect t && y == 0)

/-- The entries of a defect list that a bay keeps, and how many it ignores (R229). -/
def keepDefects (w h : Nat) : Option (Nat × Nat) → List (Nat × Nat) → List (Nat × Nat) × Nat
  | _, [] => ([], 0)
  | prev, (x, y) :: l =>
      let r := keepDefects w h (some (x, y)) l
      let after := match prev with | none => true | some (px, py) => decide (py < y) || (py == y && decide (px < x))
      if after && decide (x < w) && decide (y < h) then ((x, y) :: r.1, r.2) else (r.1, r.2 + 1)

/-- The grid rows that row `y` needs and row `y - 1` did not. -/
def newGridRows (y h : Nat) : List Nat :=
  let now := (nodeIdx (gridPos y h).1).eraseDups
  if y = 0 then now else now.filter fun j => !(nodeIdx (gridPos (y - 1) h).1).contains j

/-- A grid node as stored, 1.0 where poisoned (R231). -/
def State.gridNode (s : State) (t : Tab Word) (q i j : Nat) : Nat :=
  let a := cfield t 0x048 0 37 + q * 33344 + (j * 129 + i) * 2
  if s.fenUsable a && s.fenCheck a == 0 then bits (s.fenWord (a / 8 * 8)) (8 * (a % 8)) 16 else 0x4000

/-- The map data of row `y` returns (R230, R231): the row, the defect list if it is the first, the number of poisoned units, and the
number of entries ignored. -/
def State.fetchRow (s : State) (f : Frame) (y : Nat) : MapRow × List (Nat × Nat) × Nat × Nat × State :=
  let t := f.copy
  let w := f.hdr.width
  let h := f.hdr.height
  let stride2 := up64 (2 * w)
  let r1 := if cRow t then s.mapVals (cfield t 0x028 0 37 + 2 * y) 1 2 else ([], [], s)
  let r2 := if cDark t then r1.2.2.mapVals (cfield t 0x030 0 37 + y * stride2) w 2 else ([], [], r1.2.2)
  let r3 := if cGain t then r2.2.2.mapVals (cfield t 0x050 0 37 + y * stride2) w 2 else ([], [], r2.2.2)
  let grids := if cShade t then
      (List.range (cfield t 0x010 48 2 + 1)).flatMap fun q => (newGridRows y h).map fun j => cfield t 0x048 0 37 + q * 33344 + j * 258
    else []
  let r4 := grids.foldl (fun (a : List Nat × State) adr =>
      let r := a.2.mapVals adr 129 2
      ((a.1 ++ r.2.1).eraseDups, r.2.2)) ([], r3.2.2)
  let r5 := if f.merging && f.hdr.expIndex != 0 then r4.2.mapVals (cfield t 0x060 0 37 + y * up64 (4 * w)) w 4 else ([], [], r4.2)
  let r6 := if cDefect t && y == 0 then
      r5.2.2.mapVals (r5.2.2.get F.CHUTE_DEFECT_BASE_BASE * 0x10000 + 4 * cfield t 0x038 0 22) (cfield t 0x038 32 21) 4
    else ([], [], r5.2.2)
  let defBase := s.get F.CHUTE_DEFECT_BASE_BASE * 0x10000 + 4 * cfield t 0x038 0 22
  let good := (List.range r6.1.length).filterMap fun k =>
    if r6.2.1.contains ((defBase + 4 * k) / 64) then none
    else (r6.1[k]?.getD none).map fun v => (v % 65536, v / 65536)
  let kept := keepDefects w h none good
  let shade := if cShade t then (List.range w).map fun x => shadeAt (fun i j => r6.2.2.gridNode t (cPlane t x y) i j) x y w h else []
  let row : MapRow :=
    { row := match r1.1 with | some v :: _ => signed 16 v | _ => 0
      dark := r2.1.map (·.getD 0)
      gain := r3.1.map (·.getD 0x4000)
      shade := shade
      merge := r5.1.map (·.getD 0) }
  (row, kept.1, r1.2.1.length + r2.2.1.length + r3.2.1.length + r4.1.length + r5.2.1.length + r6.2.1.length, kept.2, r6.2.2)

/-! ### The stages (R219 to R226) -/

/-- Values mapped with their column. -/
def mapIdx' (f : Nat → Int → Int) (l : List Int) : List Int := (List.range l.length).zipWith f l

/-- A value of a list of columns, 0 beyond it. -/
def colAt (l : List Int) (x : Nat) : Int := l[x]?.getD 0

/-- Black level (R220). -/
def State.blackRow (s : State) (t : Tab Word) (m : MapRow) (l : List Int) : List Int :=
  if !cBlack t then l
  else
    let slot := (Tab.get CribSlot.zero s.crib (cfield t 0x020 32 7)).entries
    mapIdx' (fun x v =>
      let col := if cCol t then signed 16 (Tab.get 0 slot x) else 0
      let row := if cRow t then m.row else 0
      let dark : Int := if cDark t then (m.dark[x]?.getD 0 : Nat) else 0
      sat24 (v - csigned t 0x020 0 24 - row - col - dark)) l

/-- The middle, lower or only value of up to three (R221). -/
def medianOf (l : List Int) : Int :=
  let q := l.mergeSort fun a b => decide (a ≤ b)
  match q with
  | [] => 0
  | [a] => a
  | [a, _] => a
  | _ :: b :: _ => b

/-- Defect repair (R221). `above` holds the rows before, at the input of this stage, newest first. -/
def defectRow (t : Tab Word) (defects : List (Nat × Nat)) (y : Nat) (above : List (List Int)) (l : List Int) : List Int :=
  if !cDefect t then l
  else
    let p := cPitch t
    let listed := fun (x y : Nat) => defects.contains (x, y)
    mapIdx' (fun x v =>
      if !listed x y then v
      else
        let left := if p ≤ x ∧ listed (x - p) y = false then [colAt l (x - p)] else []
        let right := if x + p < l.length ∧ listed (x + p) y = false then [colAt l (x + p)] else []
        let up := if p ≤ y ∧ listed x (y - p) = false then (above[p - 1]?.map fun r => colAt r x).toList else []
        let ns := left ++ right ++ up
        let mark := csigned t 0x040 0 24
        if ns = [] then mark
        else match cfield t 0x038 53 2 with
          | 0 => roundDiv (ns.foldl (· + ·) 0) ns.length
          | 1 => medianOf ns
          | _ => mark) l

/-- Shading (R222). -/
def shadeRow (t : Tab Word) (m : MapRow) (l : List Int) : List Int :=
  if !(cShade t || cGain t) then l
  else mapIdx' (fun x v =>
    shadePx (if cShade t then m.shade[x]?.getD 0x4000 else 0x4000) (if cGain t then m.gain[x]?.getD 0x4000 else 0x4000) v) l

/-- Linearisation (R224). -/
def State.linRow (s : State) (t : Tab Word) (l : List Int) : List Int :=
  if !cLin t then l
  else
    let e := (Tab.get CribSlot.zero s.crib (cfield t 0x058 0 7)).entries
    l.map fun v => (Tab.get 0 e (clampInt 0 65535 (sar v (cfield t 0x058 8 4))).toNat : Nat)

/-- Exposure merge of one pixel (R225): the value passed on, and the entry. -/
def mergePx (t : Tab Word) (k count : Nat) (entry : Nat) (v : Int) : Int × Nat :=
  if entry / 2 ^ 24 % 2 = 1 then (signed 24 entry, entry)
  else
    let u := sat24 (roundDiv (v * cRatio t k) 4096)
    let done := decide (k < count) && decide (v ≤ cKnee t k)
    (u, unsigned 24 u + if done then 2 ^ 24 else 0)

/-- Exposure merge of a row: the values that go on, and the entries to write. -/
def mergeRow (f : Frame) (m : MapRow) (l : List Int) : List Int × List Nat :=
  if !f.merging then (l, [])
  else
    let r := (List.range l.length).zipWith (fun x v =>
      mergePx f.copy f.hdr.expIndex f.hdr.expCount (if f.hdr.expIndex = 0 then 0 else m.merge[x]?.getD 0) v) l
    (r.map (·.1), if f.leaves then [] else r.map (·.2))

/-- One row through the stages of ORDER (R219): the values that leave, the row at the input of defect repair, and the merge entries. -/
def State.bayRow (s : State) (f : Frame) (y : Nat) (m : MapRow) (raw : List Int) : List Int × List Int × List Nat :=
  let t := f.copy
  if cOrderL t then
    let a := mergeRow f m (s.linRow t raw)
    let b := s.blackRow t m a.1
    (shadeRow t m (defectRow t f.defects y f.above b), b, a.2)
  else
    let b := s.blackRow t m raw
    let d := s.linRow t (shadeRow t m (defectRow t f.defects y f.above b))
    let a := mergeRow f m d
    (a.1, b, a.2)

/-! ### Statistics (R237 to R239) -/

/-- The statistics window cut at the frame's edge: x0, y0, width and height. -/
def statWin (t : Tab Word) (w h : Nat) : Nat × Nat × Nat × Nat :=
  let x := cfield t 0x080 0 16
  let y := cfield t 0x080 16 16
  let ww := cfield t 0x080 32 16
  let hh := cfield t 0x080 48 16
  if ww = 0 ∨ hh = 0 then (0, 0, w, h) else (x, y, min ww (w - x), min hh (h - y))

/-- The pixels of a rectangle with their frame coordinates. -/
def pixelsIn (rows : List (List Px)) (x0 y0 w h : Nat) : List (Nat × Nat × Int) :=
  (List.range h).flatMap fun j =>
    let row := rows[y0 + j]?.getD []
    (List.range w).map fun i => (x0 + i, y0 + j, (row[x0 + i]?.map (·.v)).getD 0)

/-- Two 32-bit values to a word, lower first; an unused upper half is 0. -/
def packPairs : List Nat → List Word
  | [] => []
  | [a] => [field 0 32 a]
  | a :: b :: l => (field 0 32 a ||| field 32 32 b) :: packPairs l

/-- Header words of a statistics packet (Table 5.5). -/
def statHead (kind c plane len zx zy seq : Nat) : List Word :=
  [field 0 8 kind ||| field 8 6 c ||| field 14 2 plane ||| field 16 16 len ||| field 32 8 1 ||| field 40 7 zx ||| field 47 7 zy, word seq]

/-- The statistics set of a frame (R239). -/
def statSet (t : Tab Word) (c seq : Nat) (rows : List (List Px)) (w h : Nat) : List (List Word) :=
  let win := statWin t w h
  let zx := cfield t 0x078 12 7
  let zy := cfield t 0x078 19 7
  let px := pixelsIn rows win.1 win.2.1 win.2.2.1 win.2.2.2
  let hist := if cHist t then
      let counts := px.foldl (fun (a : Tab Nat) p =>
        Tab.modify 0 a (clampInt 0 4095 (sar p.2.2 (cfield t 0x078 0 4))).toNat (fun n => satAdd 32 n 1)) []
      [statHead 1 c 0 2050 zx zy seq ++ packPairs ((List.range 4096).map fun b => Tab.get 0 counts b)]
    else []
  let zones := if cZone t then
      (List.range (cfield t 0x010 48 2 + 1)).map fun q =>
        let vals := (List.range (zx * zy)).map fun z =>
          let i := z % zx
          let j := z / zx
          let xa := win.1 + i * win.2.2.1 / zx
          let xb := win.1 + (i + 1) * win.2.2.1 / zx
          let ya := win.2.1 + j * win.2.2.2 / zy
          let yb := win.2.1 + (j + 1) * win.2.2.2 / zy
          let l := (pixelsIn rows xa ya (xb - xa) (yb - ya)).filter fun p => cPlane t p.1 p.2.1 == q
          if l.length = 0 then 0x80000000
          else unsigned 32 (roundDiv ((l.map (·.2.2)).foldl (· + ·) 0 * 256) l.length)
        statHead 2 c q (2 + (zx * zy + 1) / 2) zx zy seq ++ packPairs vals
    else []
  hist ++ zones

end Sys2Proof.Machine
end

