-- ==== Sys2Proof/Machine/Reduce.lean ====
section
/-! DEFINITION. The reduction engines (chapter 6): products in pools and in host buffers, regions, event counting, window centroids,
stacks, lossless packing; and the tag records a frame completes (R267). -/

namespace Sys2Proof.Machine

/-! ### Writes to host memory (R436, R448) -/

/-- Offsets of PF0's Command, Device Control and Device Control 2 dwords (R655, R656). -/
def cfgCommand : Nat := 0x04
def cfgDevCtl : Nat := 0x78
def cfgDevCtl2 : Nat := 0x98

/-- Bus Master Enable of a function. -/
def Func.master (f : Func) : Bool := (f.cfg cfgCommand / 4) % 2 == 1

/-- Whether PF0 may issue requests (R672, R451). -/
def State.hostLive (s : State) : Bool := s.host.linkUp && s.host.pf0.master && !s.host.pf0.d3hot

/-- The value Device Control holds until it is written (PCI Express default). -/
def devCtlReset : Nat := 0x2810

/-- Enable Relaxed Ordering of PF0 (R448). -/
def State.relaxedOn (s : State) : Bool :=
  (s.host.pf0.cfg cfgDevCtl devCtlReset / 16) % 2 == 1 && s.isOn F.SLUICE_CFG_RELAXED_EN

/-- Bytes of the largest payload of a write. -/
def State.maxPayload (s : State) : Nat := 128 * 2 ^ min 2 (s.host.pf0.cfg cfgDevCtl devCtlReset / 32 % 8)

/-- A request of PF0 takes the link out of L1 (R673). -/
def State.fromL1 (s : State) : State := { s with host := { s.host with inL1 := false } }

/-- Posted writes of at most the maximum payload size. -/
def State.sendWrites : Nat → State → Nat → List Byte → Bool → State
  | 0, s, _, _, _ => s
  | _, s, _, [], _ => s
  | fuel + 1, s, a, bs, rel =>
      let k := s.maxPayload
      State.sendWrites fuel (s.fromL1.emit (.hostWrite a (bs.take k) rel)) (a + k) (bs.drop k) rel

/-- A payload written to host memory; `relaxed` is what its descriptor or copy permits (R448). -/
def State.hostPayload (s : State) (a : Nat) (bs : List Byte) (relaxed : Bool) : State :=
  s.sendWrites (bs.length + 1) a bs (relaxed && s.relaxedOn)

/-- A tag copy, completion record or pointer word, Relaxed Ordering clear (R448). -/
def State.hostRecord (s : State) (a : Nat) (ws : List Word) : State :=
  s.fromL1.emit (.hostWrite a (ws.flatMap fun w => bytesOfNat 8 w.toNat) false)

/-! ### Products (R299, R421, R431) -/

def Prod.zero (r : Nat) (host : Option Nat) : Prod := ⟨r, host, [], 0, [], false, false⟩

/-- A product finds no free block: it is abandoned (R299). -/
def State.abandon (s : State) (c : Nat) (p : Prod) : Prod × State :=
  let s1 := p.blocks.foldl State.releaseBlock s
  ({ p with dead := true, blocks := [], tail := [] }, s1.inc F.RED_CTX_COUNT_POOL_EMPTY c)

/-- Bytes go to a product's blocks: each but the last holds 65,528 and a link word (R421). -/
def State.fillBlocks (c pool : Nat) : Nat → Prod → List Byte → State → Prod × State
  | 0, p, _, s => (p, s)
  | fuel + 1, p, q, s =>
      match p.blocks.getLast? with
      | none =>
          if q = [] then (p, s)
          else match s.allocBlock pool with
            | (none, s1) => s1.abandon c p
            | (some a, s1) => State.fillBlocks c pool fuel { p with blocks := [a] } q s1
      | some b =>
          let off := p.bytes - 65528 * (p.blocks.length - 1)
          let room := 65528 - off
          let s1 := s.engineWriteBytes (q.length + 1) (b + off) (q.take room)
          let rest := q.drop room
          let p1 := { p with bytes := p.bytes + min room q.length }
          if rest.length ≤ 8 then ({ p1 with tail := rest }, s1)
          else match s1.allocBlock pool with
            | (none, s2) => s2.abandon c p1
            | (some a, s2) =>
                State.fillBlocks c pool fuel { p1 with blocks := p1.blocks ++ [a] } rest (s2.engineWrite (b + 65528) (word a) false)

/-- A product grows by bytes (R299, R431, R436). -/
def State.prodAppend (s : State) (c pool : Nat) (relaxed : Bool) (p : Prod) (bs : List Byte) : Prod × State :=
  if p.dead || p.cut then (p, s)
  else match p.host with
    | some a =>
        if s.hostLive then ({ p with bytes := p.bytes + bs.length }, s.hostPayload (a + p.bytes) bs relaxed)
        else ({ p with cut := true }, s)
    | none => State.fillBlocks c pool (p.blocks.length + bs.length + 3) { p with tail := [] } (p.tail ++ bs) s

/-- A product ends: the bytes held back end its last block. -/
def State.prodEnd (s : State) (p : Prod) : Prod × State :=
  match p.blocks.getLast? with
  | some b => if p.tail = [] then (p, s)
      else ({ p with bytes := p.bytes + p.tail.length, tail := [] }, s.engineWriteBytes (p.tail.length + 1) (b + 65528) p.tail)
  | none => (p, s)

/-! ### Regions and formats (R227, R265 to R268) -/

/-- The value of pixel (x, y), if the rows hold it. -/
def pxAt (rows : List (List Px)) (x y : Nat) : Option Px := rows[y]?.bind (·[x]?)

/-- A binned pixel: the block's sum saturated, or its mean (R266). -/
def binPx (r : Region) (rows : List (List Px)) (ox oy : Nat) : Px :=
  let l := (List.range r.by').flatMap fun j => (List.range r.bx).filterMap fun i =>
    pxAt rows (r.x0 + ox * r.bx + i) (r.y0 + oy * r.by' + j)
  let sum := (l.map (·.v)).foldl (· + ·) 0
  ⟨if r.mean then sat24 (roundDiv sum ((r.bx * r.by' : Nat) : Int)) else sat24 sum, l.any (·.miss)⟩

/-- A row of binned pixels. -/
def binRow (r : Region) (rows : List (List Px)) (oy : Nat) : List Px := (List.range r.ow).map fun ox => binPx r rows ox oy

/-- A value in an output format, as a number (R227). -/
def formatPx (t : Tab Word) (v : Int) : Nat :=
  let q := sar v (cfield t 0x010 52 4)
  match cfield t 0x010 50 2 with
  | 0 => (clampInt 0 65535 q).toNat
  | 1 => unsigned 32 q
  | _ => (clampInt 0 255 q).toNat

/-- A row in its output format (R227, R268). -/
def formatRow (t : Tab Word) (l : List Px) : List Byte :=
  l.flatMap fun p => bytesOfNat (formatBytes (cfield t 0x010 50 2)) (formatPx t p.v)

/-! ### Lossless packing (R293 to R297) -/

/-- The prediction of a pixel (R294). -/
def predict (rows : List (List Nat)) (x y : Nat) : Int :=
  let g := fun (x y : Nat) => (((rows[y]?.bind (·[x]?)).getD 0 : Nat) : Int)
  if y = 0 then (if x = 0 then 0 else g (x - 1) 0)
  else if x = 0 then g 0 (y - 1)
  else
    let a := g (x - 1) y
    let b := g x (y - 1)
    let c := g (x - 1) (y - 1)
    if max a b ≤ c then min a b else if c ≤ min a b then max a b else a + b - c

/-- The mapped residual of a value (R295). -/
def residual (d v : Nat) (p : Int) : Nat :=
  let r := signed d (unsigned d ((v : Int) - p))
  if 0 ≤ r then (2 * r).toNat else (-2 * r - 1).toNat

/-- The low `w` bits of a number, most significant first (R293). -/
def bitsMsb (w n : Nat) : List Bool := (List.range w).map fun i => n.testBit (w - 1 - i)

/-- Bits a block takes with parameter `k`, its header left out (R295). -/
def riceLen (k : Nat) (zs : List Nat) : Nat := (zs.map fun z => z / 2 ^ k + 1 + k).foldl (· + ·) 0

/-- The smallest parameter that makes a block shortest, and its length (R296). -/
def bestK (kmax : Nat) (zs : List Nat) : Nat × Nat :=
  (List.range (kmax + 1)).foldl (fun (b : Nat × Nat) k => if riceLen k zs < b.2 then (k, riceLen k zs) else b) (0, riceLen 0 zs)

/-- A block of at most 32 pixels, values with their mapped residuals (R295, R296). -/
def packBlock (d : Nat) (l : List (Nat × Nat)) : List Bool :=
  let hw := if d = 16 then 8 else 4
  let zs := l.map (·.2)
  let b := bestK (if d = 16 then 15 else 7) zs
  if d * l.length < b.2 then bitsMsb hw (2 ^ hw - 1) ++ l.flatMap fun p => bitsMsb d p.1
  else bitsMsb hw b.1 ++ zs.flatMap fun z => List.replicate (z / 2 ^ b.1) true ++ (false :: bitsMsb b.1 z)

/-- Blocks of a list. -/
def blocksOf {α : Type} : Nat → Nat → List α → List (List α)
  | 0, _, _ => []
  | _, _, [] => []
  | fuel + 1, n, l => l.take n :: blocksOf fuel n (l.drop n)

/-- Words of a bit stream, bit i of the stream being bit i mod 64 of its word, padded with 0 (R293). -/
def wordsOfBits (l : List Bool) : List Word :=
  (blocksOf (l.length + 1) 64 l).map fun b => BitVec.ofNat 64 (b.reverse.foldl (fun a x => 2 * a + b2n x) 0)

/-- A region's pack stream (R293): its rows hold values already in the output format. -/
def packStream (d w h : Nat) (rows : List (List Nat)) : List Word :=
  let px := (List.range h).flatMap fun y => (List.range w).map fun x =>
    let v := (rows[y]?.bind (·[x]?)).getD 0
    (v, residual d v (predict rows x y))
  (field 0 16 w ||| field 16 16 h ||| field 32 1 (b2n (d == 8)) ||| field 40 8 1) ::
    wordsOfBits ((blocksOf (px.length + 1) 32 px).flatMap (packBlock d))

/-! ### Event counting (R269 to R274) -/

/-- Whether a region holds a coordinate. -/
def Region.holds (r : Region) (x y : Int) : Bool :=
  decide ((r.x0 : Int) ≤ x) && decide (x < ((r.x0 + r.w : Nat) : Int)) && decide ((r.y0 : Int) ≤ y) && decide (y < ((r.y0 + r.h : Nat) : Int))

/-- The value of a neighbour that lies in the region. -/
def Region.val (r : Region) (rows : List (List Px)) (x y : Int) : Option Int :=
  if r.holds x y then (pxAt rows x.toNat y.toNat).map (·.v) else none

/-- Whether a pixel is an event maximum (R269). -/
def isMaximum (r : Region) (rows : List (List Px)) (thresh : Int) (x y : Int) : Bool :=
  match r.val rows x y with
  | none => false
  | some v =>
      let above := fun (dx dy : Int) => match r.val rows (x + dx) (y + dy) with | none => true | some u => decide (u < v)
      let level := fun (dx dy : Int) => match r.val rows (x + dx) (y + dy) with | none => true | some u => decide (u ≤ v)
      decide (thresh ≤ v) && above (-1) (-1) && above 0 (-1) && above 1 (-1) && above (-1) 0 && level 1 0 && level (-1) 1 &&
        level 0 1 && level 1 1

/-- Offsets -2 to 2. -/
def span5 : List Int := [-2, -1, 0, 1, 2]

/-- The event record of a maximum (R270, R271). -/
def eventRecord (t : Tab Word) (r : Region) (rows : List (List Px)) (x y : Int) : Word :=
  let bkg := csigned t 0x108 24 24
  let win := span5.flatMap fun dy => span5.map fun dx => (dx, dy)
  let ws := win.filterMap fun p => (r.val rows (x + p.1) (y + p.2)).map fun v => (p.1, p.2, max (v - bkg) 0)
  let s := (ws.map (·.2.2)).foldl (· + ·) 0
  let sx := (ws.map fun p => p.1 * p.2.2).foldl (· + ·) 0
  let sy := (ws.map fun p => p.2.1 * p.2.2).foldl (· + ·) 0
  let cx := if s = 0 then 16 * x else roundDiv (16 * (x * s + sx)) s
  let cy := if s = 0 then 16 * y else roundDiv (16 * (y * s + sy)) s
  let sum := (sar s (cfield t 0x108 48 4)).toNat
  let multi := win.any fun p => (p.1 != 0 || p.2 != 0) && isMaximum r rows (csigned t 0x108 0 24) (x + p.1) (y + p.2)
  field 0 20 (unsigned 20 cx) ||| field 20 20 (unsigned 20 cy) ||| field 40 16 (min sum 65535) |||
    field 56 1 (b2n (ws.length != 25)) ||| field 57 1 (b2n (decide (65535 < sum))) ||| field 58 1 (b2n multi)

/-- The events of a row, in ascending order of x across the regions (R272). -/
def eventsOfRow (t : Tab Word) (rows : List (List Px)) (w y : Nat) : List Word :=
  (List.range w).flatMap fun (x : Nat) =>
    ((cRegions t).filter fun r => isMaximum r rows (csigned t 0x108 0 24) x y).map fun r => eventRecord t r rows x y

/-- An event chunk is completed: its header is written (R272, Table 6.4). -/
def State.endChunk (s : State) (c seq : Nat) (k : Chunks) (last : Bool) : Chunks × State :=
  let reset := { k with block := none, events := 0, index := k.index + 1, dead := false }
  match k.block with
  | none => ({ reset with dropped := satAdd 16 k.dropped 1 }, s)
  | some b =>
      let hdr : List Word :=
        [field 0 8 4 ||| field 8 6 c ||| field 14 1 (b2n last) ||| field 32 8 1, word seq, field 0 14 k.events, field 0 32 k.index,
          if last then field 0 32 k.total ||| field 32 16 k.dropped else 0, 0, 0, 0]
      ({ reset with done := k.done ++ [(b, k.events, k.index)] }, s.engineWriteWords b hdr)

/-- A chunk takes its block; without one it is abandoned (R299). -/
def State.openChunk (s : State) (c pool : Nat) (k : Chunks) : Chunks × State :=
  if k.block.isSome || k.dead then (k, s)
  else match s.allocBlock pool with
    | (some a, s1) => ({ k with block := some a }, s1)
    | (none, s1) =>
        ({ k with dead := true }, s1.inc F.RED_CTX_COUNT_POOL_EMPTY c)

/-- An event is recorded (R272). -/
def addEvent (c pool seq : Nat) (a : Chunks × State) (e : Word) : Chunks × State :=
  let o : Chunks × State := a.2.openChunk c pool a.1
  let s1 : State := match o.1.block with
    | some b => o.2.engineWrite (b + 64 + 8 * o.1.events) e false
    | none => o.2
  let k : Chunks := { o.1 with events := o.1.events + 1, total := o.1.total + 1 }
  if k.events = 8184 then s1.endChunk c seq k false else (k, s1)

/-! ### Window centroids (R278 to R283) -/

/-- The windows of a context's set. -/
def State.windows (s : State) (t : Tab Word) : List Window :=
  let k := cfield t 0x110 0 6
  (List.range (s.get F.PADDOCK_SET_COUNT k)).map fun i => windowOf (Tab.get 0 s.paddock (s.get F.PADDOCK_SET_FIRST k + i))

/-- Sums of a window: S, SX, SY, whether a pixel is outside or missing, and the largest pixel (R278, R291). -/
def windowSums (rows : List (List Px)) (thresh : Int) (w : Window) : Int × Int × Int × Bool × Int :=
  (List.range w.h).foldl (fun a j => (List.range w.w).foldl (fun (a : Int × Int × Int × Bool × Int) i =>
    match pxAt rows (w.x0 + i) (w.y0 + j) with
    | some p => if p.miss then (a.1, a.2.1, a.2.2.1, true, a.2.2.2.2)
        else
          let k := max (p.v - thresh) 0
          (a.1 + k, a.2.1 + k * i, a.2.2.1 + k * j, a.2.2.2.1, max a.2.2.2.2 p.v)
    | none => (a.1, a.2.1, a.2.2.1, true, a.2.2.2.2)) a) (0, 0, 0, false, -8388608)

/-- A window result (R279). -/
def windowResult (t : Tab Word) (rows : List (List Px)) (w : Window) : Word :=
  let q := windowSums rows (csigned t 0x110 8 24) w
  let empty := q.1 = 0
  let c := fun (m : Int) => if empty then 0x3FFFFF else (roundDiv (m * 16384) q.1).toNat
  field 0 22 (c q.2.1) ||| field 22 22 (c q.2.2.1) ||| field 44 18 (min (sar q.1 (cfield t 0x110 32 4)).toNat 262143) |||
    field 62 1 (b2n (decide empty)) ||| field 63 1 (b2n q.2.2.2.1)

/-- A result packet: the windows from index `first` (R280). -/
def resultPacket (t : Tab Word) (c seq first : Nat) (rows : List (List Px)) (ws : List Window) : List Word :=
  [field 0 8 3 ||| field 8 6 c ||| field 16 16 (ws.length + 2) ||| field 32 8 1 ||| field 40 14 first, word seq] ++
    ws.map (windowResult t rows)

/-- The result packets whose windows are complete, or all of them at the close, are formed (R280). -/
def State.formResults (s : State) (f : Frame) (atClose : Bool) : Frame × State :=
  if cEngine f.copy ≠ 2 then (f, s)
  else
    let rows := Tab.get [] f.bins 0
    let ws := s.windows f.copy
    (List.range ((ws.length + 1023) / 1024)).foldl (fun (a : Frame × State) k =>
      let l := (ws.drop (1024 * k)).take 1024
      if a.1.results.contains k || !(atClose || l.all fun w => decide (w.y0 + w.h ≤ rows.length)) then a
      else
        let p := resultPacket f.copy f.ctx f.seq (1024 * k) rows l
        ({ a.1 with results := a.1.results ++ [k] }, a.2.modCtx f.ctx fun x => { x with results := x.results ++ [(cfield f.copy 0x110 48 16, p)] })) (f, s)

/-! ### Stacks (R284 to R288) -/

/-- The accumulator address of row `oy` of region `r` (R285). -/
def accRow (t : Tab Word) (r oy : Nat) : Nat :=
  let rs := cRegions t
  let w := (rs[r]?.map Region.ow).getD 0
  cfield t 0x120 0 37 + ((rs.take r).map Region.accBytes).foldl (· + ·) 0 + oy * up64 (4 * w)

/-- 32-bit values of a row of an accumulator or staging half, 0 where poisoned; whether any was (R300). -/
def State.read32 (s : State) (a n : Nat) : List Int × Bool × State :=
  let r := s.mapVals a n 4
  (r.1.map fun o => match o with | some v => signed 32 v | none => 0, r.1.any (·.isNone), r.2.2)

/-- 32-bit values written from an address. -/
def State.write32 (s : State) (a : Nat) (l : List Int) : State :=
  s.engineWriteBytes (4 * l.length + 1) a (l.flatMap fun v => bytesOfNat 4 (unsigned 32 v))

/-- Two rows added, saturated at 32 bits (R284). -/
def addRows (a b : List Int) : List Int := a.zipWith (fun x y => satInt 32 (x + y)) b

/-- The product header of a stack (Table 6.7). -/
def stackHead (kind c region : Nat) (short : Bool) (w h : Nat) (k : Stack) : List Word :=
  let ref := k.ref.getD (0, 0)
  [field 0 8 kind ||| field 8 6 c ||| field 14 4 region ||| field 18 1 (b2n short) ||| field 32 8 1,
    field 0 16 w ||| field 16 16 h ||| field 32 16 k.members ||| field 48 16 k.rejected, word k.first.seq, word k.last.seq,
    if kind = 6 then field 0 22 (unsigned 22 ref.1) ||| field 32 22 (unsigned 22 ref.2) else 0, 0, 0, 0]

def bytesOfWords (l : List Word) : List Byte := l.flatMap fun w => bytesOfNat 8 w.toNat

/-- RED_CTX_STATE follows the stack and the staging halves (R306). -/
def State.showStack (s : State) (c : Nat) : State :=
  let x := s.ctx c
  ((s.put F.RED_CTX_STATE_STACK_OPEN c (b2n x.stack.isSome)).put F.RED_CTX_STATE_STAGE_BUSY c (b2n (!x.staged.isEmpty))).put
    F.RED_CTX_STATE_STACK_FRAMES c ((x.stack.map (·.frames)).getD 0)

/-- A region's row joins the stack (R284): the frame's place in it decides what is read and written. -/
def State.sumRow (s : State) (f : Frame) (r oy : Nat) (row : List Px) : Frame × State :=
  let t := f.copy
  let a := accRow t r oy
  let u := row.map (·.v)
  let first := f.slot = 0
  let last := f.slot + 1 = cStackN t
  let rd : List Int × Bool × State := if first then (u, false, s) else
    let q := s.read32 a u.length
    (addRows q.1 u, q.2.1, q.2.2)
  let f1 := if rd.2.1 then { f with poisoned := true } else f
  if !last then (f1, rd.2.2.write32 a rd.1)
  else
    let reg := ((cRegions t)[r]?).getD ⟨0, 0, 0, 0, 1, 1, false⟩
    let head := match (rd.2.2.ctx f.ctx).stack with
      | some k =>
          let tag : FrameTag := { FrameTag.zero with seq := f.seq }
          stackHead 5 f.ctx r false reg.ow reg.oh
            { k with members := f.slot + 1, first := if f.slot = 0 then tag else k.first, last := tag }
      | none => []
    let p := (f1.sums[r]?).getD (Prod.zero r none)
    let bs := (if oy = 0 then bytesOfWords head else []) ++ rd.1.flatMap fun v => bytesOfNat 4 (unsigned 32 v)
    let q := rd.2.2.prodAppend f.ctx (cPool t) false p bs
    ({ f1 with sums := f1.sums.set r q.1 }, q.2)

/-- The staging address of row `oy` of a half (R289). -/
def stageRow (t : Tab Word) (half oy : Nat) : Nat :=
  let r := ((cRegions t)[0]?).getD ⟨0, 0, 0, 0, 1, 1, false⟩
  cfield t 0x128 0 37 + half * r.accBytes + oy * up64 (4 * r.ow)

/-! ### A row through the route unit (R260 to R268) -/

/-- A region's binned row is complete: it grows the region's product, joins its stack or is staged. -/
def State.regionRow (s : State) (f : Frame) (r : Nat) (reg : Region) (oy : Nat) : Frame × State :=
  let t := f.copy
  let row := binRow reg f.rows oy
  let all := Tab.get [] f.bins r ++ [row]
  let f1 := { f with bins := Tab.set [] f.bins r all }
  let relaxed := cbit t 0x300 1
  let k1 : Frame × State :=
    if !cKeep t then (f1, s)
    else
      let p := (f1.prods[r]?).getD (Prod.zero r none)
      let bs := if cPack t then
          (if oy + 1 = reg.oh then
            bytesOfWords (packStream (8 * formatBytes (cfield t 0x010 50 2)) reg.ow reg.oh (all.map fun l => l.map fun q => formatPx t q.v))
          else [])
        else formatRow t row
      let q := s.prodAppend f.ctx (cPool t) relaxed p bs
      ({ f1 with prods := f1.prods.set r q.1 }, q.2)
  match cEngine t with
  | 3 => k1.2.sumRow k1.1 r oy row
  | 4 => if r = 0 then (k1.1, k1.2.write32 (stageRow t f.stage oy) (row.map (·.v))) else k1
  | _ => k1

/-- A corrected row passes the route unit of its bay (R260). `y` is its number; the frame's rows already hold it. -/
def State.routeRow (s : State) (f : Frame) (y : Nat) : Frame × State :=
  let t := f.copy
  let rs := cRegions t
  let a := (List.range rs.length).foldl (fun (a : Frame × State) r =>
    match rs[r]? with
    | none => a
    | some reg =>
        if reg.y0 ≤ y ∧ y < reg.y0 + reg.h ∧ (y - reg.y0 + 1) % reg.by' = 0 then a.2.regionRow a.1 r reg ((y - reg.y0) / reg.by') else a)
    (f, s)
  let b := a.2.formResults a.1 false
  if cEngine t ≠ 1 then b
  else
    let h := f.hdr.height
    let ys := (if 2 ≤ y then [y - 2] else []) ++ (if y + 1 = h then (if 1 ≤ y then [y - 1] else []) ++ [y] else [])
    let evs := ys.flatMap fun k => eventsOfRow t b.1.rows f.hdr.width k
    let r := evs.foldl (addEvent f.ctx (cPool t) f.seq) (b.1.chunks, b.2)
    ({ b.1 with chunks := r.1 }, r.2)

/-! ### Tag records of a frame (R267, R288, R411 to R417) -/

/-- FLAGS bits of a tag record, counted from bit 32 (Table 9.3). -/
def tfIncomplete : Nat := 0x0001
def tfGap : Nat := 0x0002
def tfDuplicate : Nat := 0x0004
def tfBounds : Nat := 0x0008
def tfUnsync : Nat := 0x0010
def tfPoisoned : Nat := 0x0020
def tfPlaced : Nat := 0x0040
def tfTriggered : Nat := 0x0080
def tfEncLate : Nat := 0x0100
def tfEncInvalid : Nat := 0x0200
def tfPacked : Nat := 0x0400
def tfLast : Nat := 0x0800
def tfShort : Nat := 0x1000

/-- A flag when a condition holds. -/
def flagIf (b : Bool) (f : Nat) : Nat := if b then f else 0

/-- BOUNDS_SUSPENDED and UNSYNC of an interval from `start` to now (R27, Table 9.3). -/
def State.intervalFlags (s : State) (start : Nat) : Nat :=
  flagIf (s.isOn F.DEV_STATUS_BOUNDS_SUSPENDED || decide (start < s.mgmt.suspendedUntil)) tfBounds |||
    flagIf (s.tb.unsync || decide (start < s.tb.unsyncEnd)) tfUnsync

/-- What a frame gives its own tag records. -/
def Frame.tag (f : Frame) : FrameTag :=
  ⟨f.seq, f.hdr.start, f.closed.getD 0, f.enc0, f.enc1,
    flagIf f.hdr.triggered tfTriggered ||| flagIf (f.hdr.encLate && cbit f.copy 0x300 3) tfEncLate |||
      flagIf (f.suspect && cbit f.copy 0x300 3) tfEncInvalid⟩

/-- What a frame's records carry: member 0's start, encoder words and their flags for a merged product (R415). -/
def State.frameTag (s : State) (f : Frame) : FrameTag :=
  match f.merging, (s.ctx f.ctx).merge with
  | true, some m => { f.tag with start := m.first.start, enc0 := m.first.enc0, enc1 := m.first.enc1, trig := m.first.trig }
  | _, _ => f.tag

/-- INCOMPLETE and POISONED of what a frame yields, its merge group's included. -/
def State.frameFlags (s : State) (f : Frame) : Nat :=
  let m := if f.merging then (s.ctx f.ctx).merge else none
  flagIf (f.incomplete || (m.map (·.incomplete)).getD false) tfIncomplete |||
    flagIf (f.poisoned || (m.map (·.poisoned)).getD false) tfPoisoned

/-- A tag record due, from the parts its frame or stack gives. -/
def tagDue (stall : Nat) (herd : Option Nat) (t : FrameTag) (kind region aux flags addr bytes : Nat) (blocks : List Nat) : TagDue :=
  ⟨stall, herd, kind, region, aux, flags ||| t.trig, t.seq, t.start, t.endTick, t.enc0, t.enc1, addr, bytes, blocks⟩

/-- The record of a FRAME product; none if it was abandoned (R268, R417). -/
def State.prodRecord (s : State) (f : Frame) (kind flags : Nat) (p : Prod) : Option TagDue :=
  if p.dead then none
  else
    let h := if f.herd then some (cfield f.copy 0x008 16 4) else none
    match p.host with
    | some a => some (tagDue (cStall f.copy) h (s.frameTag f) kind p.region 0
        (flags ||| tfPlaced ||| flagIf p.cut tfIncomplete) a p.bytes [])
    | none => some (tagDue (cStall f.copy) h (s.frameTag f) kind p.region 0 flags (p.blocks.head?.getD 0) p.bytes p.blocks)

/-- LAST is set on the last record (R413). -/
def markLast : List TagDue → List TagDue
  | [] => []
  | [d] => [{ d with flags := d.flags ||| tfLast }]
  | d :: l => d :: markLast l

/-- GAP_BEFORE is set on the first record after one that is missing (R413, R299): the records, and whether one is still missing. -/
def markGaps : Bool → List (Option TagDue) → List TagDue × Bool
  | g, [] => ([], g)
  | _, none :: l => markGaps true l
  | g, some d :: l =>
      let r := markGaps false l
      ({ d with flags := d.flags ||| flagIf g tfGap } :: r.1, r.2)

/-- What a frame or stack completes joins the records due for push; `none` stands for a product that was abandoned. -/
def State.queueTags (s : State) (c : Nat) (l : List (Option TagDue)) : State :=
  s.modCtx c fun x =>
    let r := markGaps x.gap l
    { x with tags := x.tags ++ markLast r.1, gap := r.2 }

/-- Products end. -/
def State.endProds (s : State) (l : List Prod) : List Prod × State :=
  l.foldl (fun (a : List Prod × State) p => let r := a.2.prodEnd p; (a.1 ++ [r.1], r.2)) ([], s)

/-- A stack's record flags: the union of its members', the first frame's three apart (R288). -/
def Stack.flags' (k : Stack) (short : Bool) : Nat := k.flags ||| flagIf short (tfShort ||| tfIncomplete)

/-- The tag parts of a stack's record (R288). -/
def Stack.tag (k : Stack) : FrameTag := { k.first with seq := k.last.seq, endTick := k.last.endTick }

/-- The stack after a frame of it has been examined. -/
def Stack.examine (k : Stack) (tag : FrameTag) (flags stall : Nat) (added : Bool) : Stack :=
  { k with
    frames := k.frames + 1
    members := if added then k.members + 1 else k.members
    rejected := if added then k.rejected else k.rejected + 1
    flags := k.flags ||| flags
    first := if k.frames = 0 then tag else k.first
    last := tag
    stall := stall }

/-- The members' rows of a stack that closes short are written as products (R287). Zeros where it has no member. -/
def State.shortProduct (s : State) (c kind : Nat) (k : Stack) (r : Nat) (reg : Region) : Prod × Bool × State :=
  let t := k.copy
  let s0 := s.prodAppend c (cPool t) false (Prod.zero r none) (bytesOfWords (stackHead kind c r true reg.ow reg.oh k))
  let a := (List.range reg.oh).foldl (fun (a : Prod × Bool × State) oy =>
    let rd : List Int × Bool × State := if k.members = 0 then (List.replicate reg.ow 0, false, a.2.2) else a.2.2.read32 (accRow t r oy) reg.ow
    let q := rd.2.2.prodAppend c (cPool t) false a.1 (rd.1.flatMap fun v => bytesOfNat 4 (unsigned 32 v))
    (q.1, a.2.1 || rd.2.1, q.2)) (s0.1, false, s0.2)
  let e := a.2.2.prodEnd a.1
  (e.1, a.2.1, e.2)

/-- An open stack closes early: its partial product is written with SHORT, or it has examined nothing (R287). -/
def State.closeStack (s : State) (c : Nat) : State :=
  match (s.ctx c).stack with
  | none => s
  | some k =>
      let s1 := s.modCtx c fun x => { x with stack := none }
      let eng := cEngine k.copy
      let s2 :=
        if k.frames = 0 then s1
        else
          let kind := if eng = 4 then 6 else 5
          let rs := cRegions k.copy
          let a := (List.range rs.length).foldl (fun (a : List (Option TagDue) × State) r =>
            match rs[r]? with
            | none => a
            | some reg =>
                let p := a.2.shortProduct c kind k r reg
                (a.1 ++ [if p.1.dead then none
                  else some (tagDue k.stall none k.tag (if eng = 4 then 4 else 3) r 0 (k.flags' true ||| flagIf p.2.1 tfPoisoned)
                    (p.1.blocks.head?.getD 0) p.1.bytes p.1.blocks)], p.2.2)) ([], s1)
          a.2.queueTags c a.1
      s2.showStack c

/-- The reference centroid in region coordinates, in 1/64 pixel, none when S is 0, with the largest pixel (R278, R290, R291). -/
def refCentroid (t : Tab Word) (rows : List (List Px)) : Option (Int × Int) × Int :=
  let w : Window := ⟨cfield t 0x138 0 16, cfield t 0x138 16 16, cfield t 0x138 32 8 + 1, cfield t 0x138 40 8 + 1⟩
  let q := windowSums rows (csigned t 0x140 0 24) w
  if q.1 = 0 then (none, q.2.2.2.2)
  else (some (roundDiv (64 * ((w.x0 : Int) * q.1 + q.2.1)) q.1, roundDiv (64 * ((w.y0 : Int) * q.1 + q.2.2.1)) q.1), q.2.2.2.2)

/-- The records and engine state that a frame's close completes, once its last row has passed (R267). -/
def State.routeFinish (s : State) (f : Frame) : State :=
  let t := f.copy
  let c := f.ctx
  let flags := s.frameFlags f
  let herd := if f.herd then some (cfield t 0x008 16 4) else none
  let tag := s.frameTag f
  if cBypass t then
    let e := s.endProds f.prods
    e.2.queueTags c (e.1.map (e.2.prodRecord f 0 flags))
  else
    let w := s.formResults f true
    let pr := w.2.endProds w.1.prods
    let frames := pr.1.map (pr.2.prodRecord f 0 (flags ||| flagIf (cPack t) tfPacked))
    let chunkTag := fun (l : List (Nat × Nat × Nat)) (i : Nat) =>
      (l.find? fun b => b.2.2 == i).map fun b => tagDue (cStall t) herd tag 1 0 (i % 65536) flags b.1 (64 + 8 * b.2.1) [b.1]
    match cEngine t with
    | 1 =>
        let o := pr.2.openChunk c (cPool t) w.1.chunks
        let e := o.2.endChunk c f.seq o.1 true
        let early := (List.range w.1.chunks.index).map (chunkTag e.1.done)
        (e.2.put F.RED_CTX_STATE_LAST_EVENTS c e.1.total).queueTags c (early ++ frames ++ [chunkTag e.1.done w.1.chunks.index])
    | 2 => pr.2.queueTags c (if cKeep t then frames else [some (tagDue (cStall t) herd tag 2 0 0 flags 0 0 [])])
    | 3 =>
        let sm := pr.2.endProds w.1.sums
        match (sm.2.ctx c).stack with
        | none => (sm.1.foldl (fun a p => p.blocks.foldl State.releaseBlock a) sm.2).queueTags c frames
        | some k =>
            let k1 := k.examine tag (flags ||| sm.2.intervalFlags tag.start) (cStall t) true
            let full := f.slot + 1 = cStackN t
            let recs := if full then
                sm.1.map fun p => if p.dead then none else
                  some (tagDue (cStall t) herd k1.tag 3 p.region 0 (k1.flags' false) (p.blocks.head?.getD 0) p.bytes p.blocks)
              else []
            let s1 := (sm.2.queueTags c (frames ++ recs)).modCtx c fun x => { x with stack := if full then none else some k1 }
            (if k1.closeDue && !full then s1.closeStack c else s1).showStack c
    | 4 =>
        let q := refCentroid t (Tab.get [] w.1.bins 0)
        let st : Staged := ⟨f.stage, f.offset, q.1, q.2, tag, flags ||| pr.2.intervalFlags tag.start⟩
        ((pr.2.queueTags c frames).modCtx c fun x => { x with staged := if x.stack.isSome then x.staged ++ [st] else x.staged }).showStack c
    | _ => pr.2.queueTags c frames

/-! ### Shift-and-add (R289 to R292) -/

/-- The staged image of a half. -/
def State.stagedImage (s : State) (t : Tab Word) (half : Nat) (reg : Region) : List (List Int) × Bool × State :=
  (List.range reg.oh).foldl (fun (a : List (List Int) × Bool × State) oy =>
    let r := a.2.2.read32 (stageRow t half oy) reg.ow
    (a.1 ++ [r.1], a.2.1 || r.2.1, r.2.2)) ([], false, s)

/-- A sample of the staged image; one outside counts as 0 (R292). -/
def imgAt (m : List (List Int)) (x y : Int) : Int :=
  if x < 0 ∨ y < 0 then 0 else ((m[y.toNat]?).bind (·[x.toNat]?)).getD 0

/-- The resampled value at (x, y) for an offset in 1/64 pixel (R292). -/
def resample (m : List (List Int)) (dx dy : Int) (x y : Nat) : Int :=
  let px := 64 * (x : Int) - dx
  let py := 64 * (y : Int) - dy
  let i := px / 64
  let j := py / 64
  let a := px - 64 * i
  let b := py - 64 * j
  ((64 - a) * (64 - b) * imgAt m i j + a * (64 - b) * imgAt m (i + 1) j + (64 - a) * b * imgAt m i (j + 1) +
    a * b * imgAt m (i + 1) (j + 1) + 2048) / 4096

/-- The offset of a staged frame, none when it is rejected; and the stack's reference position (R290, R291). -/
def stagedOffset (t : Tab Word) (k : Stack) (st : Staged) : Option (Int × Int) × Option (Int × Int) :=
  let big := fun (d : Int × Int) => decide (64 * (cfield t 0x130 2 8 : Int) < |d.1|) || decide (64 * (cfield t 0x130 2 8 : Int) < |d.2|)
  match cfield t 0x130 0 2 with
  | 2 => (match st.offset with
      | some d => if big d then none else some d
      | none => none, k.ref)
  | mode =>
      match st.centroid with
      | none => (none, k.ref)
      | some p =>
          if st.peak < csigned t 0x130 32 24 then (none, k.ref)
          else
            let ref := if mode = 0 then ((cfield t 0x148 0 22 : Int), (cfield t 0x148 32 22 : Int)) else k.ref.getD p
            let d := (ref.1 - p.1, ref.2 - p.2)
            if big d then (none, k.ref) else (some d, some ref)

/-- A stack's product from its accumulator, or zeros with no member; `u` is what the last frame adds (R284, R286, R288). -/
def State.saaProduct (s : State) (c : Nat) (k : Stack) (short : Bool) (reg : Region) (prior : Nat) (u : Option (List (List Int))) :
    Prod × Bool × State :=
  let t := k.copy
  let s0 := s.prodAppend c (cPool t) false (Prod.zero 0 none) (bytesOfWords (stackHead 6 c 0 short reg.ow reg.oh k))
  let a := (List.range reg.oh).foldl (fun (a : Prod × Bool × State) oy =>
    let rd : List Int × Bool × State :=
      if prior = 0 then (List.replicate reg.ow 0, false, a.2.2) else a.2.2.read32 (accRow t 0 oy) reg.ow
    let row := match u with
      | none => rd.1
      | some m => addRows rd.1 ((m[oy]?).getD (List.replicate reg.ow 0))
    let q := rd.2.2.prodAppend c (cPool t) false a.1 (row.flatMap fun v => bytesOfNat 4 (unsigned 32 v))
    (q.1, a.2.1 || rd.2.1, q.2)) (s0.1, false, s0.2)
  let e := a.2.2.prodEnd a.1
  (e.1, a.2.1, e.2)

/-- A new stack (R284). -/
def Stack.fresh (copy : Tab Word) (taken : Nat) : Stack := ⟨copy, taken, 0, 0, 0, 0, FrameTag.zero, FrameTag.zero, 0, none, false⟩

/-- The stack that frames accepted after the last member of `k` have opened. -/
def Stack.reopen (k : Stack) : Option Stack :=
  if cStackN k.copy < k.taken then some (Stack.fresh k.copy (k.taken - cStackN k.copy)) else none

/-- Resampling of the oldest staged frame ends (R289 to R292). -/
def State.resampleEnd (s : State) (c : Nat) : State :=
  match (s.ctx c).staged, (s.ctx c).stack with
    | st :: rest, some k =>
        let t := k.copy
        let reg := ((cRegions t)[0]?).getD ⟨0, 0, 0, 0, 1, 1, false⟩
        let im := s.stagedImage t st.half reg
        let d := stagedOffset t k st
        let s1 := im.2.2.modCtx c fun x => { x with staged := rest }
        let flags := st.flags ||| flagIf im.2.1 tfPoisoned
        let k1 := { (k.examine st.tag flags (cStall t) d.1.isSome) with ref := d.2 }
        let u := d.1.map fun p => (List.range reg.oh).map fun y => (List.range reg.ow).map fun x => resample im.1 p.1 p.2 x y
        let s2 := match d.1 with
          | some p =>
              ((s1.put F.RED_CTX_OFFSET_DX c (unsigned 22 p.1)).put F.RED_CTX_OFFSET_DY c (unsigned 22 p.2)).put
                F.RED_CTX_OFFSET_VALID c 1
          | none => s1.inc F.RED_CTX_COUNT_SAA_REJECT c
        if k1.frames < cStackN t then
          let s3 := match u with
            | none => (s2, false)
            | some m => (List.range reg.oh).foldl (fun (a : State × Bool) oy =>
                let row := (m[oy]?).getD []
                if k.members = 0 then (a.1.write32 (accRow t 0 oy) row, a.2)
                else
                  let r := a.1.read32 (accRow t 0 oy) reg.ow
                  (r.2.2.write32 (accRow t 0 oy) (addRows r.1 row), a.2 || r.2.1)) (s2, false)
          let k2 := { k1 with flags := k1.flags ||| flagIf s3.2 tfPoisoned }
          let s4 := s3.1.modCtx c fun x => { x with stack := some k2 }
          (if k2.closeDue && rest.isEmpty then s4.closeStack c else s4).showStack c
        else
          let p := s2.saaProduct c k1 false reg k.members u
          let s3 := p.2.2.modCtx c fun x => { x with stack := k.reopen }
          (s3.queueTags c [if p.1.dead then none
            else some (tagDue (cStall t) none k1.tag 4 0 0 (k1.flags' false ||| flagIf p.2.1 tfPoisoned)
              (p.1.blocks.head?.getD 0) p.1.bytes p.1.blocks)]).showStack c
    | _, _ => s

/-- SHIFTADD_RESAMPLE_END (R289 to R292). -/
def execShiftaddResampleEnd (c : Fin 64) (s : State) : Result := .next (s.resampleEnd c.val)

/-! ### Pushes of results and statistics (R239, R240, R280) -/

/-- WINDOW_RESULT_PUSH (R280). -/
def execWindowResultPush (c : Fin 64) (s : State) : Result :=
  .next <| match (s.ctx c.val).results with
    | p :: rest => (s.modCtx c.val fun x => { x with results := rest }).pushItem p.1 p.2
    | [] => s

/-- STATISTICS_PUSH (R239, R240). -/
def execStatisticsPush (c : Fin 64) (s : State) : Result :=
  .next <| match (s.ctx c.val).stats with
    | [] => s
    | set :: rest =>
        let s1 := s.modCtx c.val fun x => { x with stats := rest }
        let s2 := set.foldl (fun a p => a.pushItem (80 + c.val) p) s1
        match s.active c.val with
        | some t => s2.raiseYard (437 + 3 * cChute t) s2.now
        | none => s2

end Sys2Proof.Machine
end

