-- ==== Sys2Proof/Machine/Herds.lean ====
section
/-! DEFINITION. Tag records and their pushes, herds, and the buffers of direct placement (chapter 9, R411 to R436, R459 to R464). -/

namespace Sys2Proof.Machine

/-! ### Tag records (R411, R412, R417 to R420) -/

/-- Word 7 of a tag record: its byte count, and the CRC-32C over words 0 to 6 (R417). -/
def tagCheck (ws : List Word) (bytes : Nat) : Word := field 0 32 bytes ||| field 32 32 (crc32c (bytesOfWords ws))

/-- A tag record of context `c` (Tables 9.1 and 9.2). -/
def tagRecord (c : Nat) (d : TagDue) (flags : Nat) : List Word :=
  let ws : List Word :=
    [field 0 8 1 ||| field 8 5 d.stall ||| field 13 6 c ||| field 19 4 (d.herd.getD 0) ||| field 23 1 (b2n d.herd.isSome) |||
        field 24 4 d.kind ||| field 28 4 d.region ||| field 32 16 flags ||| field 48 16 d.aux,
      word d.seq, word d.start, word d.endTick, d.enc0, d.enc1, word d.addr]
  ws ++ [tagCheck ws d.bytes]

/-- Whether trough `t` takes an item of `n` words now (R376, R377, R391, R392). -/
def State.takesItem (s : State) (t n : Nat) : Bool := s.trgOn t && !s.trgAsleep t && ((s.trg t).openBy.isSome || s.burstFits t n)

/-- GAP_BEFORE goes to the context's next record. -/
def Ctx.markGap (x : Ctx) : Ctx :=
  match x.tags with
  | [] => { x with gap := true }
  | d :: l => { x with tags := { d with flags := d.flags ||| tfGap } :: l }

/-- TAG_RECORD_PUSH (R411, R413, R418, R420): the oldest record due is pushed to trough 16 + c; if the push is dropped, its product is
released and the next record carries GAP_BEFORE. BOUNDS_SUSPENDED and UNSYNC cover the interval up to the push (R27). -/
def execTagRecordPush (c : Fin 64) (s : State) : Result :=
  .next <| match (s.ctx c.val).tags with
    | [] => s
    | d :: rest =>
        let ok := s.takesItem (16 + c.val) 8
        let s1 := s.pushItem (16 + c.val) (tagRecord c.val d (d.flags ||| s.intervalFlags d.start))
        let s2 := s1.modCtx c.val fun x => { x with tags := rest }
        let s3 := match (s2.ctx c.val).seqDue with
          | some (k, least) =>
              if 0 < k then s2.modCtx c.val fun x => { x with seqDue := some (k - 1, least) }
              else if least ≤ d.seq then
                (s2.wr .CTX_APPLIED_SEQ c.val (word d.seq)).modCtx c.val fun x => { x with seqDue := none }
              else s2
          | none => s2
        if ok then s3 else (d.blocks.foldl State.releaseBlock s3).modCtx c.val Ctx.markGap

/-! ### Herds (R425 to R430) -/

def State.herd (s : State) (h : Nat) : Herd := Tab.get Herd.zero s.herds h

def State.setHerd (s : State) (h : Nat) (x : Herd) : State := { s with herds := Tab.set Herd.zero s.herds h x }

def State.herdOn (s : State) (h : Nat) : Bool := s.isOn F.HERD_CFG_ENABLE h

/-- The herd a copy names, if it makes its context a member (Table 5.1). -/
def cHerd (t : Tab Word) : Option Nat := if cbit t 0x008 20 then some (cfield t 0x008 16 4) else none

/-- Whether context `c` is a member of herd `h`. -/
def State.inHerd (s : State) (h c : Nat) : Bool := s.herdOn h && (s.herdMembers h).any fun m => m.2 == c

/-- The slot of an exposure-start tick (R426). -/
def State.herdSlot (s : State) (h t : Nat) : Int :=
  let p := s.get F.HERD_PERIOD_PERIOD h
  if p = 0 then 0 else ((t : Int) - s.get F.HERD_ORIGIN_ORIGIN h + (p / 2 : Nat)) / p

/-- The tick of a slot. -/
def State.slotTick (s : State) (h k : Nat) : Nat := s.get F.HERD_ORIGIN_ORIGIN h + k * s.get F.HERD_PERIOD_PERIOD h

/-- Whether an exposure-start tick is aligned (R426). -/
def State.herdAligned (s : State) (h t : Nat) : Bool :=
  let tol : Int := s.get F.HERD_PERIOD_TOLERANCE h
  let k := s.herdSlot h t
  decide ((s.get F.HERD_ORIGIN_ORIGIN h : Int) - tol ≤ t) && decide (0 ≤ k) && decide (|(t : Int) - s.slotTick h k.toNat| ≤ tol)

/-- Members that still wait on a slot (R427). -/
def State.herdWaits (s : State) (h : Nat) (x : HerdSlot) : Bool :=
  (s.herdMembers h).any fun m => !(x.present.any fun e => e.ctx == m.2) && !x.passed.contains m.2

/-- A tick difference saturated at ±(2^31 - 1) (R430). -/
def satDelta (v : Int) : Nat := unsigned 32 (max (-2147483647) (min v 2147483647))

/-- The two words of a member entry (R430). -/
def memberEntry (m : Nat × Nat) (slotAt : Nat) (e : Option HerdEntry) : List Word :=
  match e with
  | none => [field 0 5 m.1 ||| field 5 6 m.2, 0]
  | some e => [field 0 5 m.1 ||| field 5 6 m.2 ||| field 11 1 1 ||| field 12 1 (b2n (e.flags % 2 == 1)) ||| field 13 1 (b2n e.late) |||
      field 32 32 (satDelta ((e.start : Int) - slotAt)), word e.seq]

/-- The members' entries of a slot, in member order. -/
def herdEntries (ms : List (Nat × Nat)) (x : HerdSlot) : List (Option HerdEntry) := ms.map fun m => x.present.find? fun e => e.ctx == m.2

/-- Whether a slot's record is INCOMPLETE: a member absent or truncated (R430). -/
def herdInc (es : List (Option HerdEntry)) : Bool := es.any fun e => match e with | none => true | some e => e.flags % 2 == 1

/-- The words of a herd record (R430). -/
def State.herdRecord (s : State) (h : Nat) (d : HerdDue) : List Word :=
  let es := herdEntries d.members d.slot
  let t := s.slotTick h d.slot.slot
  let union := es.foldl (fun a e => match e with | none => a | some e => a ||| (e.flags &&& (tfBounds ||| tfUnsync ||| tfPoisoned))) 0
  let aux := (List.range es.length).foldl (fun a i => if ((es[i]?).getD none).isSome then a + 2 ^ i else a) 0
  let ws : List Word :=
    [field 0 8 1 ||| field 19 4 h ||| field 23 1 1 ||| field 24 4 5 |||
        field 32 16 (flagIf (herdInc es) tfIncomplete ||| flagIf d.gap tfGap ||| union ||| tfLast) ||| field 48 16 aux,
      word d.slot.slot, word t, word d.tick, 0, 0, 0]
  ws ++ [tagCheck ws (16 * d.members.length)] ++ (d.members.zip es).flatMap fun p => memberEntry p.1 t p.2

/-- A slot's record is released (R428); the record waits for its push. -/
def State.herdRelease (s : State) (h : Nat) (x : HerdSlot) : State :=
  let y := s.herd h
  let ms := s.herdMembers h
  let gap := match y.released with | none => false | some r => x.slot != r + 1
  let s1 := s.setHerd h
    { y with slots := y.slots.filter fun z => z.slot != x.slot, due := y.due ++ [⟨x, ms, s.now, gap⟩], released := some x.slot }
  let s2 := (s1.incWrap F.HERD_COUNT_RECORDS h).put F.HERD_STATUS_LAST_SLOT h x.slot
  if herdInc (herdEntries ms x) then (s2.inc F.HERD_COUNT_INCOMPLETE h).countEvent 7 else s2

/-- Records that are ready are released in ascending slot order (R428). -/
def State.herdSettle (s : State) (h : Nat) : Nat → State
  | 0 => s
  | n + 1 =>
      match (s.herd h).slots with
      | [] => s
      | x :: _ => if s.herdWaits h x then s else State.herdSettle (s.herdRelease h x) h n

/-- Settling of all open slots. -/
def State.herdGo (s : State) (h : Nat) : State := s.herdSettle h (s.herd h).slots.length

/-- The open slots of a herd changed by `f`. -/
def State.modSlots (s : State) (h : Nat) (f : HerdSlot → HerdSlot) : State :=
  let y := s.herd h
  s.setHerd h { y with slots := y.slots.map f }

/-- A context is passed on a slot, unless it is present. -/
def HerdSlot.pass (x : HerdSlot) (c : Nat) : HerdSlot :=
  if (x.present.any fun e => e.ctx == c) || x.passed.contains c then x else { x with passed := c :: x.passed }

/-- A member is passed on every open slot (R427: disarmed, disabled, or its stall left UP). -/
def State.herdPassAll (s : State) (c : Nat) : State :=
  (List.range 16).foldl (fun a h => if a.herdOn h then (a.modSlots h fun x => x.pass c).herdGo h else a) s

/-- A member accepts a Frame Start whose exposure began at `t`: it is passed on earlier slots (R427). -/
def State.herdAccept (s : State) (c t : Nat) (copy : Tab Word) : State :=
  match cHerd copy with
  | none => s
  | some h =>
      if !s.inHerd h c then s
      else
        let k := s.herdSlot h t
        let y := s.herd h
        let s1 := s.setHerd h { y with seen := Tab.set 0 y.seen c (max (Tab.get 0 y.seen c) (k + 1).toNat) }
        (s1.modSlots h fun x => if (x.slot : Int) < k then x.pass c else x).herdGo h

/-- A slot just opened by a frame of context `c`: members passed before it opened are passed on it. -/
def State.newSlot (s : State) (h k c : Nat) : HerdSlot :=
  let y := s.herd h
  let gone := (s.herdMembers h).filter fun m =>
    m.2 != c && (decide (k + 1 < Tab.get 0 y.seen m.2) || !s.isOn F.CTX_STATUS_ARMED m.2)
  ⟨k, [], gone.map (·.2), none⟩

/-- Slots kept in ascending order. -/
def insertSlot (x : HerdSlot) : List HerdSlot → List HerdSlot
  | [] => [x]
  | y :: l => if x.slot < y.slot then x :: y :: l else y :: insertSlot x l

/-- A member's frame closes: it is counted into its slot (R426 to R429). Whether it is in the record, and the state. -/
def State.herdCount (s : State) (c stall start seq flags : Nat) (copy : Tab Word) : Bool × State :=
  match cHerd copy with
  | none => (false, s)
  | some h =>
      if !s.inHerd h c then (false, s)
      else if !s.herdAligned h start then (false, s.inc F.HERD_COUNT_MISALIGNED h)
      else
        let k := (s.herdSlot h start).toNat
        let y := s.herd h
        if (match y.released with | none => false | some r => decide (k ≤ r)) then (false, s.inc F.HERD_COUNT2_LATE_DROPPED h)
        else
          let s1 := if y.slots.any fun x => x.slot == k then s
            else s.setHerd h { y with slots := insertSlot (s.newSlot h k c) y.slots }
          match (s1.herd h).slots.find? fun x => x.slot == k with
          | none => (false, s1)
          | some x =>
              if x.present.any fun e => e.ctx == c then (false, s1.inc F.HERD_COUNT2_DOUBLE h)
              else if x.passed.contains c then (false, s1)
              else
                let late := x.later.isSome
                let e : HerdEntry := ⟨c, stall, start, seq, flags, late⟩
                let s2 := s1.modSlots h fun z =>
                  if z.slot = k then { z with present := z.present ++ [e] } else z
                let s3 := if late then s2.inc F.HERD_COUNT2_LATE_INCLUDED h else s2
                let s4 := s3.modSlots h fun z =>
                  if z.slot < k then
                    (if s3.isOn F.HERD_CFG_STRICT h then { z with later := some (z.later.getD s3.now) }
                    else { z with passed := z.passed ++ (s3.herdMembers h).map (·.2) })
                  else z
                (true, s4.herdGo h)

/-- A slot with flags added to a member's frame. -/
def HerdSlot.addFlags (x : HerdSlot) (c seq flags : Nat) : HerdSlot :=
  { x with present := x.present.map fun e => if e.ctx = c ∧ e.seq = seq then { e with flags := e.flags ||| flags } else e }

/-- Flags of a counted frame that became known after its close: they reach the record until its push. -/
def State.herdFlags (s : State) (c seq flags : Nat) (copy : Tab Word) : State :=
  match cHerd copy with
  | none => s
  | some h =>
      let y := s.herd h
      s.setHerd h { y with slots := y.slots.map fun x => x.addFlags c seq flags
                           due := y.due.map fun d => { d with slot := d.slot.addFlags c seq flags } }

/-- HERD_STRICT_WINDOW_EXPIRY (R428): WINDOW µs have passed since a member first closed a frame of a later slot. -/
def execHerdStrictWindowExpiry (h : Fin 16) (s : State) : Result :=
  .next <| match (s.herd h.val).slots.find? fun x => x.later.isSome with
    | none => s
    | some x =>
        let s1 := s.reach (x.later.getD 0 + 4000 * s.get F.HERD_CFG_WINDOW h.val)
        (s1.modSlots h.val fun z =>
          match z.later with
          | some t => if t + 4000 * s.get F.HERD_CFG_WINDOW h.val ≤ s1.now then
              { z with passed := z.passed ++ (s1.herdMembers h.val).map (·.2) } else z
          | none => z).herdGo h.val

/-- HERD_RECORD_RELEASE (R428, R430): a released record is pushed to the herd's trough. -/
def execHerdRecordRelease (h : Fin 16) (s : State) : Result :=
  .next <| match (s.herd h.val).due with
    | [] => s
    | d :: rest => (s.setHerd h.val { s.herd h.val with due := rest }).pushItem (s.get F.HERD_CFG_TROUGH h.val) (s.herdRecord h.val d)

/-- The device enters HOLD: every waiting member is absent (R428). -/
def State.herdHold (s : State) : State :=
  (List.range 16).foldl (fun a h => if a.herdOn h then
    (a.modSlots h fun x => { x with passed := x.passed ++ (a.herdMembers h).map (·.2) }).herdGo h else a) s

/-- Whether enabling a herd as its registers stand is refused (Table 9.15). -/
def State.herdBad (s : State) (h : Nat) : Bool :=
  let p := s.get F.HERD_PERIOD_PERIOD h
  let w := s.get F.HERD_CFG_WINDOW h
  let t := s.get F.HERD_CFG_TROUGH h
  decide (p < 4000) || decide (p / 2 ≤ s.get F.HERD_PERIOD_TOLERANCE h) || (s.isOn F.HERD_CFG_STRICT h && (w == 0 || decide (1000 < w))) ||
    decide (t < 16) || (decide (80 ≤ t) && decide (t < 400))

/-- A herd is disabled: its counters clear and its open slots go (R460). -/
def State.herdOff (s : State) (h : Nat) : State :=
  let s1 := (s.put F.HERD_CFG_ENABLE h 0).setHerd h { Herd.zero with due := (s.herd h).due }
  ((s1.rst .HERD_COUNT h).rst .HERD_COUNT2 h).put F.HERD_STATUS_MEMBERS h 0

/-- A write of HERD_CFG (R459). -/
def State.herdCfgWrite (s : State) (h : Nat) (v m : Word) : State :=
  if s.herdOn h then (if bit m 0 && !bit v 0 then s.herdOff h else s)
  else
    let s1 := s.wr .HERD_CFG h (writeFields .HERD_CFG (s.rd .HERD_CFG h) (v &&& ~~~1#64) m)
    if !bit (v &&& m) 0 then s1
    else if s1.herdBad h then s1.put F.HERD_STATUS_CFG_REJECTED h 1
    else (s1.put F.HERD_CFG_ENABLE h 1).herdRefresh

/-- A write of HERD_ORIGIN or HERD_PERIOD (R459). -/
def State.herdRegWrite (s : State) (r : Reg) (h : Nat) (v m : Word) : State :=
  if s.herdOn h then s else s.wr r h (writeFields r (s.rd r h) v m)

/-- HERD_ENABLE (R459): a write of `v` with ENABLE 1. -/
def execHerdEnable (h : Fin 16) (v : Word) (s : State) : Result := .next (s.herdCfgWrite h.val (v ||| 1) allBytes)

/-- HERD_DISABLE (R460): a write of `v` with ENABLE 0. -/
def execHerdDisable (h : Fin 16) (v : Word) (s : State) : Result := .next (s.herdCfgWrite h.val (v &&& ~~~1#64) allBytes)

/-! ### Host buffers (R431 to R435, R463, R464) -/

/-- Results of a buffer commit (Table 9.17). -/
def dsPending : Nat := 1
def dsLatched : Nat := 2
def dsSmall : Nat := 3
def dsCancelled : Nat := 4

/-- The pending buffer goes, with a result. -/
def State.destGone (s : State) (c result : Nat) : State :=
  (((s.modCtx c fun x => { x with dest := none }).put F.CTX_DEST_CTRL_RESULT c result).put F.CTX_DEST_CTRL_COMMIT c 0).put
    F.CTX_DEST_STATUS_PENDING c 0

/-- A pending buffer is discarded (R432, R451, R452). -/
def State.destCancel (s : State) (c : Nat) : State := if (s.ctx c).dest.isSome then s.destGone c dsCancelled else s

/-- A commit completes (R432). -/
def State.destCommit (s : State) (c : Nat) : State :=
  let d : Dest := ⟨s.get F.CTX_DEST_NEXT_ADDR c * 64, s.get F.CTX_DEST_CTRL_LEN c, s.now⟩
  (((s.modCtx c fun x => { x with dest := some d }).put F.CTX_DEST_CTRL_RESULT c dsPending).put F.CTX_DEST_CTRL_COMMIT c 1).put
    F.CTX_DEST_STATUS_PENDING c 1

/-- A write of CTX_DEST_CTRL (Table 9.17): LEN, then CANCEL, then COMMIT. -/
def State.destWrite (s : State) (c : Nat) (v m : Word) : State :=
  let e := v &&& m
  let s1 := s.wr .CTX_DEST_CTRL c (writeFields .CTX_DEST_CTRL (s.rd .CTX_DEST_CTRL c) (e &&& ~~~(fieldMask 32 2)) m)
  let s2 := if bit e 33 then s1.destCancel c else s1
  if bit e 32 then s2.destCommit c else s2

/-- DEST_COMMIT (R432): a write of `v` with COMMIT 1. -/
def execDestCommit (c : Fin 64) (v : Word) (s : State) : Result := .next (s.destWrite c.val (v ||| fieldMask 32 1) allBytes)

/-- DEST_CANCEL (R432). -/
def execDestCancel (c : Fin 64) (s : State) : Result := .next (s.destWrite c.val (fieldMask 33 1) (fieldMask 32 8))

/-- Bytes of the FRAME product of a direct-placed context (R268). -/
def cPlaced (t : Tab Word) : Nat := ((cRegions t).map fun r => r.ow * r.oh * formatBytes (cfield t 0x010 50 2)).foldl max 0

/-- A frame meets its context's pending buffer (R433 to R435): its host address, whether it is discarded, and the state. -/
def State.destLatch (s : State) (c frameId : Nat) (t : Tab Word) (stream : Bool) : Option Nat × Bool × State :=
  if !(cbit t 0x300 0 && stream && s.hostLive) then (none, false, s)
  else
    let miss := fun (s : State) => (none, cbit t 0x300 2, s.inc F.CTX_DEST_COUNT_MISS c)
    match (s.ctx c).dest with
    | none => miss s
    | some d =>
        if s.now < d.tick + 64 then miss s
        else
          let s1 := s.put F.CTX_DEST_STATUS_LATCH_FRAME_ID c frameId
          if d.len < cPlaced t then miss (s1.destGone c dsSmall)
          else (some d.addr, false,
            ((s1.destGone c dsLatched).put F.CTX_DEST_STATUS_CUR_VALID c 1).incWrap F.CTX_DEST_COUNT_PLACED c)

/-- A write of CTX_SEQ_HI (R464). -/
def State.seqHiWrite (s : State) (c : Nat) (v m : Word) : State :=
  if s.ctxOn c then s else s.wr .CTX_SEQ_HI c (writeFields .CTX_SEQ_HI (s.rd .CTX_SEQ_HI c) v m)

end Sys2Proof.Machine
end

