-- ==== Sys2Proof/Machine/Frames.lean ====
section
/-! DEFINITION. Frames from a stall through a bay (R158 to R166, R203 to R214, R225, R226, R243, R244): acceptance, lines, closing,
intake by the bay, and arming. Stalls 0 to 15 and virtual stalls 16 to 19 share it. -/

namespace Sys2Proof.Machine

/-! ### Stalls -/

def State.stall (s : State) (n : Nat) : Stall := Tab.get Stall.zero s.stalls n

def State.setStall (s : State) (n : Nat) (x : Stall) : State := { s with stalls := Tab.set Stall.zero s.stalls n x }

def State.modStall (s : State) (n : Nat) (f : Stall → Stall) : State := s.setStall n (f (s.stall n))

/-- The states of a stall (Table 3.17). -/
def lsDisabled : Nat := 0
def lsDown : Nat := 1
def lsUp : Nat := 2
def lsIdle : Nat := 3
def lsDeep : Nat := 4
def lsBorrowed : Nat := 5
def lsFault : Nat := 6

def State.stState (s : State) (n : Nat) : Nat := s.get F.STALL_LINK_STATUS_STATE n

def State.stUp (s : State) (n : Nat) : Bool := s.stState n == lsUp

/-- The mode whose rules stalls and chutes follow: the target of a transition (Table 2.4). -/
def State.modeAhead (s : State) : Mode := match s.ctl.trans with | some t => t.target | none => s.ctl.mode

/-- Whether stalls follow HOLD (R122, R165). -/
def State.inHold (s : State) : Bool := s.ctl.mode == .hold || s.modeAhead == .hold

/-- Whether frames are captured (Table 2.1). -/
def State.capturing (s : State) : Bool :=
  match s.modeAhead with
  | .stream | .burst | .shadow => true
  | _ => false

/-- A field of a stall's registers is set; virtual stalls have registers of their own. -/
def State.stPut (s : State) (f : Fld) (n v : Nat) : State := if n < 16 then s.put f n v else s

/-- A counter of a stall grows. -/
def State.stAdd (s : State) (f : Fld) (n v : Nat) : State := if n < 16 then s.addSat f n v else s

/-- A stall counts a discarded Frame Start and remembers its FSEQ (R165, R208). -/
def State.fsDiscard (s : State) (n fseq : Nat) : State :=
  (s.modStall n fun x => { x with skip := some (fseq, false) }).stAdd F.STALL_FRAME_ERR_FS_DISCARDED n 1

/-! ### Merge groups (R225, R226) -/

/-- A group that has not seen its last member ends early: one record without payload (R226). -/
def State.endGroup (s : State) (c : Nat) : State :=
  match (s.ctx c).merge with
  | none => s
  | some m =>
      if m.count < m.next then s
      else
        let d : TagDue := tagDue m.stall none { m.first with seq := m.last.seq, endTick := m.last.endTick } 0 0 0
          (tfIncomplete ||| flagIf m.poisoned tfPoisoned) 0 0 []
        ((s.modCtx c fun x => { x with merge := none }).put F.CTX_STATUS_MERGE_OPEN c 0).queueTags c [some d]

/-! ### Stacks at acceptance, disarm and activation (R284, R287) -/

/-- Staged frames are resampled, at most two. -/
def State.drainStaged (s : State) (c : Nat) : State :=
  (List.range 2).foldl (fun a _ => if (a.ctx c).staged.isEmpty then a else a.resampleEnd c) s

/-- The open stack ends before anything later: its staged frames are resampled and it closes short (R287). -/
def State.endStack (s : State) (c : Nat) : State := (s.drainStaged c).closeStack c

/-- The stall whose frame in progress is of context `c`. -/
def State.frameOf (s : State) (c : Nat) : Option Nat :=
  (List.range 20).find? fun n => match (s.stall n).frame with | some f => f.ctx == c | none => false

/-- The context is disarmed (R212, R287, R427): a stack with a frame in progress closes when that frame has passed. -/
def State.disarm (s : State) (c : Nat) : State :=
  if !s.isOn F.CTX_STATUS_ARMED c then s
  else
    let s1 := s.put F.CTX_STATUS_ARMED c 0
    let s2 := match (s1.ctx c).stack with
      | none => s1
      | some k => if (s1.frameOf c).isSome then s1.modCtx c fun x => { x with stack := some { k with closeDue := true } } else s1.endStack c
    s2.herdPassAll c

/-- The context is armed (R212). -/
def State.arm (s : State) (c : Nat) : State := s.put F.CTX_STATUS_ARMED c 1

/-- Every enabled context is armed (R212). -/
def State.armAll (s : State) : State := (List.range 64).foldl (fun a c => if a.ctxOn c then a.arm c else a) s

/-- Every context is disarmed. -/
def State.disarmAll (s : State) : State := (List.range 64).foldl (fun a c => a.disarm c) s

/-- An open stack is abandoned (R287: the device enters HOLD). -/
def State.abandonStack (s : State) (c : Nat) : State :=
  if (s.ctx c).stack.isSome then
    (((s.modCtx c fun x => { x with stack := none, staged := [] }).inc F.RED_CTX_COUNT_ACC_ABANDONED c)).showStack c
  else s

/-- The words of the route, bytes 0x100 to 0x2FF. -/
def routeWords (t : Tab Word) : List Word := (List.range 64).map fun k => Tab.get 0 t (32 + k)

/-- The copy under which a Frame Start with index `idx` would run, and which copy it would make active (R243, R244). -/
def State.copyFor (s : State) (c idx : Nat) : Tab Word × Option Bool :=
  let act := (s.active c).getD []
  match s.get F.CTX_STATUS_PENDING_COPY c with
  | 0 => (act, none)
  | p => if (s.ctx c).merge.isSome && idx != 0 then (act, none) else ((s.pendingCopy c).getD [], some (p == 2))

/-- A pending copy becomes active at a Frame Start: a stack whose route changes closes first (R243, R287). -/
def State.takeCopy (s : State) (c : Nat) (b : Option Bool) (frame seq : Nat) : State :=
  match b with
  | none => s
  | some b =>
      let old := (s.active c).getD []
      let s1 := if routeWords old = routeWords ((s.ctx c).copy b) then s else s.endStack c
      s1.activate c b frame seq

/-! ### Acceptance (R207, R208, R210, R214, R226, R243, R414, R433) -/

/-- Whether a bay is busy (R207). -/
def State.bayBusy (s : State) (k b : Nat) : Bool :=
  (List.range 20).any fun n => match (s.stall n).frame with
    | some f => !cBypass f.copy && cChute f.copy == k && cBay f.copy == b
    | none => false

/-- A frame is refused (R208, R210): `counter` is OVERRUN or GEOM_MISMATCH. -/
def State.refuseFrame (s : State) (n c k fseq : Nat) (geom : Bool) : State :=
  let s1 := s.modStall n fun x => { x with skip := some (fseq, false) }
  let s2 := s1.modCtx c Ctx.markGap
  if geom then s2.inc F.CTX_COUNT_GEOM_MISMATCH c
  else ((s2.inc F.CTX_COUNT_OVERRUN c).inc F.CHUTE_COUNT_OVERRUNS k).raiseYard (438 + 3 * k) s.now

/-- The sequence epoch that a FRAME_ID takes (R414). -/
def State.epochFor (s : State) (c id : Nat) : Nat :=
  let x := s.ctx c
  match x.epoch with
  | none => s.get F.CTX_SEQ_HI_EPOCH c
  | some e => if id ≤ x.lastId then (e + 1) % 2 ^ 32 else e

/-- Words 4 and 5 of a tag record, and whether a selected axis was dead (R416). -/
def State.encWords (s : State) (t : Tab Word) (tick : Nat) : Word × Word × Bool :=
  if !cbit t 0x300 3 then (0, 0, false)
  else
    let q := [cfield t 0x300 4 3, cfield t 0x300 8 3, cfield t 0x300 12 3, cfield t 0x300 16 3].map fun a => s.posAt a tick
    let v := fun (i : Nat) => (((q[i]?).getD none).getD 0).toNat
    (field 0 32 (v 0) ||| field 32 32 (v 1), field 0 32 (v 2) ||| field 32 32 (v 3), q.any (·.isNone))

/-- A frame's place in its stack (R284), opening one if none is open. -/
def State.joinStack (s : State) (c : Nat) (t : Tab Word) : Nat × State :=
  let k := ((s.ctx c).stack).getD (Stack.fresh t 0)
  (k.taken, (s.modCtx c fun x => { x with stack := some { k with taken := k.taken + 1 } }).showStack c)

/-- The free staging half (R289), if there is one. -/
def State.freeHalf (s : State) (c : Nat) : Option Nat :=
  [0, 1].find? fun h => !((s.ctx c).staged.any fun q => q.half == h)

/-- The programmed offset of a frame (R290). -/
def State.popOffset (s : State) (c : Nat) (t : Tab Word) : Option (Int × Int) × State :=
  let r := s.popWord .engine (cfield t 0x130 16 16) .clean
  if r.1.valid && !r.1.poison then (some (signed 22 (bits r.1.word.data 0 22), signed 22 (bits r.1.word.data 32 22)), r.2)
  else (none, r.2.inc F.RED_CTX_COUNT_NO_OFFSET c)

/-- A context's merge group meets an accepted member (R225, R226). -/
def State.joinGroup (s : State) (c n : Nat) (h : FrameHdr) (tag : FrameTag) : State :=
  let m := if h.expIndex = 0 then some (⟨h.expCount, 1, false, false, tag, n, tag⟩ : Merge)
    else (s.ctx c).merge.map fun m =>
      { m with next := h.expIndex + 1, incomplete := m.incomplete || h.expIndex != m.next, last := tag }
  (s.modCtx c fun x => { x with merge := m }).put F.CTX_STATUS_MERGE_OPEN c 1

/-- The bay's registers show the frame it takes (R214, R256). -/
def State.bayTakes (s : State) (c k b : Nat) : State :=
  let s1 := s.wr .CHUTE_STATUS k (setBits (s.rd .CHUTE_STATUS k ||| (1#64 <<< b)) (8 + 8 * b) 6 c)
  let s2 := s1.incWrap F.CHUTE_COUNT_FRAMES k
  if Tab.get 0 s.baysServed (4 * k + b) = c + 1 then s2
  else
    let s3 := (s2.inc F.CHUTE_COUNT_SWITCHES k).raiseYard (436 + 3 * k) s.now
    { s3 with baysServed := Tab.set 0 s3.baysServed (4 * k + b) (c + 1) }

/-- A Frame Start of context `c` is accepted (R162, R163, R207, R213, R243, R414, R416, R433). -/
def State.acceptFrame (s : State) (n c : Nat) (h : FrameHdr) : State :=
  let cp := s.copyFor c h.expIndex
  let t := cp.1
  let epoch := s.epochFor c h.id
  let seq := epoch * 2 ^ 32 + h.id
  let s1 := s.takeCopy c cp.2 h.id seq
  let x := s1.stall n
  let skipped := match x.ref with | none => 0 | some r => (h.id + 2 ^ 32 - (r + 1) % 2 ^ 32) % 2 ^ 32
  let s2 := if skipped ≠ 0 || x.gapPend then s1.modCtx c Ctx.markGap else s1
  let s3 := (s2.stAdd F.STALL_FRAME_ID_GAP_TOTAL n skipped).stPut F.STALL_FRAME_ID_LAST_FRAME_ID n h.id
  let s4 := (s3.modCtx c fun y => { y with epoch := some epoch, lastId := h.id }).incWrap F.CTX_COUNT_FRAMES c
  let enc := s4.encWords t (h.posTick.getD s.now)
  let f0 : Frame :=
    { hdr := { h with encLate := h.encLate || h.posTick.isNone }, ctx := c, copy := t, seq := seq, suspect := enc.2.2
      enc0 := enc.1, enc1 := enc.2.1, host := none, line := 0, col := 0, pkts := 0, incomplete := false, overran := false
      lastPkt := s.now, closed := none, queue := [], entered := 0, maps := [], mapped := 0, defects := [], above := [], rows := []
      poisoned := false, slot := 0, discard := false, prods := [], sums := [], bins := [], chunks := Chunks.zero, results := []
      offset := none, stage := 0, herd := false }
  let byp := cBypass t
  let s5 := if byp then s4 else ((s4.bayTakes c (cChute t) (cBay t)).put F.CTX_STATUS_IN_FRAME c 1)
  let s6 := if !byp && f0.merging then s5.joinGroup c n h f0.tag else s5
  let leaves := byp || f0.leaves
  let dest := if leaves && !byp then s6.destLatch c h.id t (s.modeAhead == .stream) else (none, false, s6)
  let joins := !byp && leaves && !dest.2.1 && (cEngine t == 3 || cEngine t == 4)
  let s7 := if joins && (match (dest.2.2.ctx c).stack with | some k => k.closeDue | none => false) then dest.2.2.endStack c else dest.2.2
  let j := if joins then s7.joinStack c t else (0, s7)
  let o := if joins && cEngine t == 4 && cfield t 0x130 0 2 == 2 then j.2.popOffset c t else (none, j.2)
  let regs := if byp then 1 else (cRegions t).length
  let f : Frame :=
    { f0 with
      host := dest.1, discard := dest.2.1, slot := j.1, offset := o.1, stage := (o.2.freeHalf c).getD 0
      prods := (List.range (if byp || cKeep t then regs else 0)).map fun r => Prod.zero r (if r = 0 then dest.1 else none)
      sums := (List.range regs).map fun r => Prod.zero r none }
  let s8 := if dest.2.1 then o.2.modCtx c Ctx.markGap else o.2
  let s9 := s8.modStall n fun y => { y with frame := some f, skip := none, ref := some h.id, gapPend := false }
  let start := (s9.frameTag f).start
  ((s9.stPut F.STALL_PROTO_STATUS_FRAME_OPEN n 1).herdAccept c start t).raiseYard (64 + 4 * n) s.now

/-- A Frame Start reaches the bay, or its stall on the bypass, and is judged (R165, R207, R208, R210, R212, R226, R289). -/
def State.judgeFrame (s : State) (n : Nat) (h : FrameHdr) : State :=
  let fseq := h.id % 256
  match s.ctxOfStall n with
  | none => s.fsDiscard n fseq
  | some c =>
      if !(s.isOn F.CTX_STATUS_ARMED c && s.capturing) then s.fsDiscard n fseq
      else
        let t := (s.copyFor c h.expIndex).1
        if cBypass t then s.acceptFrame n c h
        else
          let merges := cMergeEn t && h.expCount != 0
          let s1 := match (s.ctx c).merge with
            | some m => if !merges || h.expIndex == 0 || h.expCount != m.count then s.endGroup c else s
            | none => s
          let t1 := (s1.copyFor c h.expIndex).1
          if s1.bayBusy (cChute t1) (cBay t1) then s1.refuseFrame n c (cChute t1) fseq false
          else if h.width ≠ cWidth t1 ∨ h.height ≠ cHeight t1 ∨ h.depth ≠ cfield t1 0x010 32 3 then
            s1.refuseFrame n c (cChute t1) fseq true
          else if merges && h.expIndex != 0 && ((s1.ctx c).merge.isNone || decide (h.expCount < h.expIndex)) then
            s1.refuseFrame n c (cChute t1) fseq false
          else if cEngine t1 = 4 ∧ (!merges || h.expIndex == h.expCount) = true ∧ (s1.freeHalf c).isNone = true then s1.refuseFrame n c (cChute t1) fseq false
          else s1.acceptFrame n c h

/-! ### Rows through a bay (R205, R219 to R231) -/

/-- Whether row `y` can be corrected: its map data has returned. -/
def Frame.rowReady (f : Frame) (y : Nat) : Bool := cBypass f.copy || !f.needsMap y || decide (y < f.mapped)

/-- A row of the bypass in the stall's container format (R422). -/
def bypassBytes (h : FrameHdr) (row : List Px) : List Byte :=
  if h.packing = 0 then row.flatMap fun p => bytesOfNat 2 p.v.toNat
  else
    let d := depthBits h.depth
    bytesOfNat ((row.length * d + 7) / 8) (row.reverse.foldl (fun a p => a * 2 ^ d + p.v.toNat % 2 ^ d) 0)

/-- One whole row passes the bay and its route unit, or the bypass. -/
def State.passRow (s : State) (f : Frame) : Frame × State :=
  let w := f.hdr.width
  let y := f.rows.length
  let raw := f.queue.take w
  let f1 := { f with queue := f.queue.drop w }
  if cBypass f.copy then
    let p := (f1.prods[0]?).getD (Prod.zero 0 none)
    let r := s.prodAppend f.ctx (cPool f.copy) false p (bypassBytes f.hdr raw)
    ({ f1 with rows := f.rows ++ [raw], prods := [r.1] }, r.2)
  else
    let need := f.needsMap y
    let m := if need then (f.maps.head?).getD ⟨0, [], [], [], []⟩ else ⟨0, [], [], [], []⟩
    let d := depthBits f.hdr.depth
    let o := s.bayRow f1 y m (raw.map fun p => ((p.v.toNat % 2 ^ d : Nat) : Int))
    let row := (raw.zip o.1).map fun p => (⟨p.2, p.1.miss⟩ : Px)
    let s1 := if o.2.2 = [] then s
      else s.engineWriteBytes (4 * w + 1) (cfield f.copy 0x060 0 37 + y * up64 (4 * w)) (o.2.2.flatMap fun e => bytesOfNat 4 e)
    let f2 := { f1 with
      rows := f.rows ++ [row], above := o.2.1 :: f.above.take 1, maps := if need then f.maps.drop 1 else f.maps }
    if f2.leaves && !f2.discard then s1.routeRow f2 y else (f2, s1)

/-- Whole rows that are ready pass. -/
def State.passRows : Nat → State → Frame → Frame × State
  | 0, s, f => (f, s)
  | n + 1, s, f =>
      if f.hdr.width ≤ f.queue.length ∧ f.rows.length < f.hdr.height ∧ f.rowReady f.rows.length = true then
        let r := s.passRow f
        State.passRows n r.2 r.1
      else (f, s)

/-- Missing pixels fill the stream up to position `pos` (R160). -/
def Frame.fillTo (f : Frame) (pos : Nat) : Frame :=
  { f with queue := f.queue ++ List.replicate (pos - f.entered) ⟨0, true⟩, entered := max f.entered pos }

/-- A segment enters the stream. -/
def Frame.take (f : Frame) (g : Seg) : Frame :=
  let f1 := f.fillTo (g.line * f.hdr.width + g.x)
  { f1 with queue := f1.queue ++ g.px.map fun v => ⟨(v : Int), false⟩, entered := f1.entered + g.px.length }

/-- The frame has passed: its records, statistics and herd flags (R239, R267, R426). -/
def State.finishFrame (s : State) (n : Nat) (f : Frame) : State :=
  let c := f.ctx
  let t := f.copy
  let leaves := cBypass t || f.leaves
  let s1 := if leaves && !f.discard then s.routeFinish f else s
  let set := if !cBypass t && leaves && !f.discard then statSet t c f.seq f.rows f.hdr.width f.hdr.height else []
  let s2 := if set = [] then s1 else s1.modCtx c fun x => { x with stats := x.stats ++ [set] }
  let s3 := if f.herd then s2.herdFlags c f.seq (s.frameFlags f) t else s2
  let s4 := if f.merging then
      (if f.leaves then (s3.modCtx c fun x => { x with merge := none }).put F.CTX_STATUS_MERGE_OPEN c 0
      else s3.modCtx c fun x => { x with merge := x.merge.map fun m => { m with poisoned := m.poisoned || f.poisoned } })
    else s3
  let s5 := if f.host.isSome then s4.put F.CTX_DEST_STATUS_CUR_VALID c 0 else s4
  let s6 := if cBypass t then s5
    else (s5.put F.CTX_STATUS_IN_FRAME c 0).wr .CHUTE_STATUS (cChute t) (s5.rd .CHUTE_STATUS (cChute t) &&& ~~~(1#64 <<< cBay t))
  s6.modStall n fun x => { x with frame := none }

/-- The frame's stream advances: once it has closed and its buffer is empty, missing pixels fill it; it finishes with its last row. -/
def State.advanceFrame (s : State) (n : Nat) : State :=
  match (s.stall n).frame with
  | none => s
  | some f =>
      let total := f.hdr.width * f.hdr.height
      let f1 := if f.closed.isSome && (s.stall n).buf.isEmpty then f.fillTo total else f
      let r := s.passRows (f.hdr.height + 1) f1
      let s1 := r.2.modStall n fun x => { x with frame := some r.1 }
      if r.1.closed.isSome && (s.stall n).buf.isEmpty && r.1.rows.length == f.hdr.height then s1.finishFrame n r.1 else s1

/-! ### Closing (R160 to R163, R226, R426) -/

/-- A frame closes (R162, R163): it is INCOMPLETE if so named, or if any pixel is missing (R160). -/
def State.closeFrame (s : State) (n : Nat) (inc : Bool) : State :=
  match (s.stall n).frame with
  | none => s
  | some f =>
      if f.closed.isSome then s
      else
        let bad := f.incomplete || inc || f.line != f.hdr.height
        let f1 := { f with closed := some s.now, incomplete := bad }
        let c := f.ctx
        let s1 := s.stPut F.STALL_PROTO_STATUS_FRAME_OPEN n 0
        let s2 := if bad then (if n < 16 then s1.inc F.STALL_FRAME_ERR_INCOMPLETE n else s1.inc F.VST_COUNT_INCOMPLETE (n - 16)) else s1
        let s3 := (s2.raiseYard (64 + 4 * n + 1) s.now).modCtx c fun x =>
          if f1.merging then { x with merge := x.merge.map fun m => { m with last := f1.tag } } else x
        let leaves := cBypass f.copy || f1.leaves
        let k := if leaves && !f1.discard then
            let tag := s3.frameTag f1
            s3.herdCount c n tag.start f1.seq (s3.frameFlags f1 ||| s3.intervalFlags tag.start) f1.copy
          else (false, s3)
        let s4 := k.2.modStall n fun x => { x with frame := some { f1 with herd := k.1 } }
        let s5 := s4.advanceFrame n
        if f1.merging && bad && !f1.leaves then s5.endGroup c else s5

/-! ### Lines (R159, R160, R209) -/

/-- The pixels of a Line body (R159). -/
def linePixels (h : FrameHdr) (body : List Byte) : List Nat :=
  if h.packing = 0 then (List.range (body.length / 2)).map fun k => natOfBytes ((body.drop (2 * k)).take 2)
  else
    let d := depthBits h.depth
    let v := natOfBytes body
    (List.range (8 * body.length / d)).map fun k => v / 2 ^ (k * d) % 2 ^ d

/-- Bytes held in a stall's buffer. -/
def Stall.heldBytes (x : Stall) : Nat := (x.buf.map (·.bytes)).foldl (· + ·) 0

/-- A segment of the open frame is taken (R160, R209): `err` counts LINE_ERR for what lies beyond the frame. -/
def State.takeSegment (s : State) (n : Nat) (f : Frame) (line x : Nat) (px : List Nat) (bytes : Nat) : State :=
  let w := f.hdr.width
  let lineErr := fun (s : State) => s.stAdd F.STALL_FRAME_ERR_LINE_ERR n 1
  if line < f.line ∨ (line = f.line ∧ x < f.col) ∨ f.hdr.height ≤ line ∨ w ≤ x then lineErr s
  else
    let px1 := px.take (w - x)
    let s0 := if px1.length < px.length then lineErr s else s
    if !cBypass f.copy ∧ 65536 < (s.stall n).heldBytes + bytes then
      let s1 := s0.inc F.CTX_COUNT2_PIXEL_OVERRUN f.ctx
      let s2 := if f.overran then s1 else s1.raiseYard (438 + 3 * cChute f.copy) s.now
      s2.modStall n fun y => { y with frame := some { f with overran := true, incomplete := true } }
    else
      let gap := line != f.line || x != f.col
      let e := x + px1.length
      let f1 := { f with
        line := if e = w then line + 1 else line, col := if e = w then 0 else e
        pkts := f.pkts + 1, incomplete := f.incomplete || gap, lastPkt := s.now }
      let g : Seg := ⟨line, x, px1, bytes⟩
      if cBypass f.copy then
        let r := s0.passRows (f.hdr.height + 1) (f1.take g)
        r.2.modStall n fun y => { y with frame := some r.1 }
      else s0.modStall n fun y => { y with frame := some f1, buf := y.buf ++ [g] }

/-! ### The bay's rows of the table (R205, R230, R436) -/

/-- Rows up to `y` whose map data a frame still lacks. -/
def Frame.mapsUpTo (f : Frame) (y : Nat) : Bool := (List.range (y + 1)).all fun k => decide (k < f.rows.length) || f.rowReady k

/-- PLACEMENT_OVERRUN (R436): the rest of the frame is discarded. -/
def State.placementOverrun (s : State) (n : Nat) : State :=
  match (s.stall n).frame with
  | none => s
  | some f =>
      match f.host, f.prods with
      | some _, p :: ps =>
          if p.cut then s
          else (s.modStall n fun x => { x with frame := some { f with prods := { p with cut := true } :: ps } }).inc F.CTX_DEST_COUNT_OVERRUN f.ctx
      | _, _ => s

/-- BAY_LINE_INTAKE (R205, R219, R260): the bay takes the oldest released segment of stall `n`; `backed`: placement writes have backed
up beyond the placement buffer (R436). -/
def execBayLineIntake (n : Fin 20) (backed : Bool) (s : State) : Result :=
  .next <|
    let s0 := if backed then s.placementOverrun n.val else s
    match (s0.stall n.val).frame, (s0.stall n.val).buf with
    | some f, g :: rest =>
        if f.mapsUpTo g.line then
          (s0.modStall n.val fun x => { x with buf := rest, frame := some (f.take g) }).advanceFrame n.val
        else s0
    | some _, [] => s0.advanceFrame n.val
    | none, _ => s0

/-- MAP_READ_RETURN (R229 to R231): the map data of the next row of stall `n`'s frame that needs any returns. -/
def execMapReadReturn (n : Fin 20) (s : State) : Result :=
  .next <| match (s.stall n.val).frame with
    | none => s
    | some f =>
        if cBypass f.copy || !f.needsMap f.mapped || decide (f.hdr.height ≤ f.mapped) then s
        else
          let r := s.fetchRow f f.mapped
          let s1 := (r.2.2.2.2.addSat F.CTX_COUNT2_MAP_POISON f.ctx r.2.2.1).addSat F.CTX_COUNT2_DEFECT_SKIP f.ctx r.2.2.2.1
          let f1 := { f with
            maps := f.maps ++ [r.1], mapped := f.mapped + 1, poisoned := f.poisoned || r.2.2.1 != 0
            defects := if f.mapped = 0 then r.2.1 else f.defects }
          (s1.modStall n.val fun x => { x with frame := some f1 }).advanceFrame n.val

/-! ### Enabling and disabling contexts (R211, R250) -/

/-- A context is disabled. -/
def State.ctxDisable (s : State) (c : Nat) : State :=
  if !s.ctxOn c then s else (((s.disarm c).herdPassAll c).put F.CTX_CTRL_ENABLE c 0).herdRefresh

/-- A write of CTX_CTRL (Table 5.8). -/
def State.ctxCtrlWrite (s : State) (c : Nat) (v m : Word) : State :=
  let e := v &&& m
  let s1 := if bit e 1 then s.put F.CTX_CTRL_ENABLE_REJECTED c 0 else s
  let s2 := if bit e 8 then s1.ctxCntClear c else s1
  if !bit m 0 then s2 else if bit v 0 then s2.ctxEnable c else s2.ctxDisable c

/-- CONTEXT_ENABLE (R211): a write of `v` with ENABLE 1. -/
def execContextEnable (c : Fin 64) (v : Word) (s : State) : Result := .next (s.ctxCtrlWrite c.val (v ||| 1) allBytes)

/-- CONTEXT_DISABLE (R250): a write of `v` with ENABLE 0. -/
def execContextDisable (c : Fin 64) (v : Word) (s : State) : Result := .next (s.ctxCtrlWrite c.val (v &&& ~~~1#64) allBytes)

end Sys2Proof.Machine
end

