-- ==== Sys2Proof/Machine/Packets.lean ====
section
/-! DEFINITION. The protocol engine of a stall (chapter 4): packet checks, frame packets, events, control requests, heartbeats and
triggers. What makes a stall leave UP stands with the lanes. -/

namespace Sys2Proof.Machine

/-- A stall fed from the causeway (R707); a member whose ENABLE is 0 has no pair (R708). -/
def State.fwdIn (s : State) (n : Nat) : Bool := s.isOn F.PAIR_CFG_ENABLE && bit (s.rd .PAIR_CFG) (48 + n)

/-! ### Checks of a forward packet (R151 to R158) -/

/-- LEN range of a forward type (Table 4.2). -/
def lenRange : Nat → Option (Nat × Nat)
  | 0x01 => some (12, 12)
  | 0x02 => some (1, 65268)
  | 0x03 => some (8, 8)
  | 0x11 => some (4, 260)
  | 0x21 => some (4, 4)
  | 0x30 => some (16, 16)
  | 0x31 => some (8, 8)
  | _ => none

/-- Header and body of a packet (Table 4.1). -/
def packetBytes (type fseq param : Nat) (body : List Byte) : List Byte :=
  bytesOfNat 1 type ++ bytesOfNat 1 fseq ++ bytesOfNat 2 body.length ++ bytesOfNat 4 param ++ body

/-- A whole packet with its CRC (R152). -/
def packetWhole (type fseq param : Nat) (body : List Byte) : List Byte :=
  let b := packetBytes type fseq param body
  b ++ bytesOfNat 4 (crc32c b)

def Rx.good (p : Rx) : Bool := p.crc == crc32c (packetBytes p.type p.fseq p.param p.body)

/-- A number in a packet's body, little-endian. -/
def Rx.num (p : Rx) (off n : Nat) : Nat := natOfBytes ((p.body.drop off).take n)

/-- Whether a field of a Frame Start is refused (R158). -/
def Rx.refusedField (p : Rx) : Bool :=
  p.type == 0x01 &&
    (decide (4 < p.num 4 1 % 8) || decide (1 < p.num 4 1 / 16 % 4) || p.num 0 2 == 0 || p.num 2 2 == 0)

/-- What losing a Frame Start does (Table 4.3). -/
def State.lostStart (s : State) (n : Nat) (p : Rx) : State :=
  if p.type = 0x01 then s.modStall n fun x => { x with gapPend := true, skip := some (p.fseq, true) } else s

/-- Packet alignment is lost (R155). -/
def State.loseAlign (s : State) (n : Nat) : State :=
  (s.modStall n fun x => { x with lost := true, need := 0, rxBytes := [], rxErr := false }).inc F.STALL_PKT_ERR_RESYNC n

/-- Whether stall `n` takes packets of a type now (Table 3.9, R122, R154, R165). -/
def State.pathOpen (s : State) (n type : Nat) : Bool :=
  (s.stUp n || (type == 0x31 && s.stState n == lsIdle)) && (!s.inHold || type == 0x30 || type == 0x31)

/-- A packet meets the checks of R154 and R155: whether it is passed on, and the state. -/
def State.rxCheck (s : State) (n : Nat) (p : Rx) : Bool × State :=
  if !s.pathOpen n p.type || (s.stall n).lost then (false, s)
  else
    let bad := match lenRange p.type with
      | none => false
      | some (lo, hi) => decide (p.body.length < lo) || decide (hi < p.body.length)
    if bad then (false, (s.loseAlign n).lostStart n p)
    else if p.errored then (false, (s.inc F.STALL_PKT_ERR_ERRORED n).lostStart n p)
    else if !p.good then (false, (s.inc F.STALL_PKT_ERR_CRC_ERR n).lostStart n p)
    else if p.refusedField then (false, (s.inc F.STALL_PKT_ERR_BAD_FIELD n).lostStart n p)
    else (true, s)

/-! ### Forwarding to the other member (R706) -/

/-- A packet accepted is forwarded, or dropped when the forwarding buffer has no room. -/
def State.forward (s : State) (n : Nat) (p : Rx) (room : Bool) : State :=
  if bit (s.rd .PAIR_CFG) (32 + n) && s.isOn F.PAIR_CFG_ENABLE && s.isOn F.PAIR_STATUS_CAUSEWAY_UP then
    if room then
      s.emit (.causeway 0x48 (field 0 5 n :: wordsOfBytes (packetWhole p.type p.fseq p.param p.body)))
    else s.inc F.PAIR_COUNT_FWD_DROPS
  else s
where
  /-- Bytes as 64-bit words, the last padded with zeros. -/
  wordsOfBytes (l : List Byte) : List Word := (blocksOf (l.length + 1) 8 l).map fun b => BitVec.ofNat 64 (natOfBytes b)

/-! ### Frame packets (R158 to R166, R207) -/

/-- The header that a Frame Start gives its frame, and its exposure-start tick (R166, R416). -/
def State.headerOf (s : State) (n : Nat) (p : Rx) : FrameHdr :=
  let b4 := p.num 4 1
  let b5 := p.num 5 1
  let trig := if b5 / 16 % 2 = 1 then ((s.stall n).fired.find? fun f => f.1 % 65536 == p.num 6 2).map (·.2) else none
  let back := (p.tick + 2 ^ 64 - (s.get F.STALL_LATENCY_ONE_WAY n + 40 * p.num 8 4)) % 2 ^ 64
  { id := p.param, width := p.num 0 2, height := p.num 2 2, depth := b4 % 8, packing := b4 / 16 % 4, expIndex := b5 % 4
    expCount := b5 / 4 % 4, start := trig.getD back, triggered := trig.isSome, posTick := trig, encLate := false }

/-- A Frame Start that has passed its checks (R162, R207). -/
def State.frameStart (s : State) (n : Nat) (p : Rx) : State :=
  let h := s.headerOf n p
  let s1 := s.closeFrame n true
  if (s1.stall n).frame.isSome then s1.modStall n fun x => { x with held := some h } else s1.judgeFrame n h

/-- A packet of a frame that is not open (R160, Table 4.3, R165). -/
def State.orphan (s : State) (n fseq : Nat) : State :=
  match (s.stall n).skip with
  | some (q, counted) => if q = fseq ∧ counted = false then s else s.stAdd F.STALL_FRAME_ERR_ORPHAN_LINE n 1
  | none => s.stAdd F.STALL_FRAME_ERR_ORPHAN_LINE n 1

/-- The open frame of a stall. -/
def State.openFrame (s : State) (n : Nat) : Option Frame := (s.stall n).frame.filter fun f => f.closed.isNone

/-- A Line packet that has passed its checks (R159, R160). -/
def State.linePacket (s : State) (n : Nat) (p : Rx) : State :=
  match s.openFrame n with
  | some f =>
      if f.hdr.id % 256 = p.fseq then
        s.takeSegment n f (p.param % 65536) (p.param / 65536) (linePixels f.hdr p.body) p.body.length
      else s.orphan n p.fseq
  | none => s.orphan n p.fseq

/-- A Frame End that has passed its checks (R161, R162). -/
def State.frameEnd (s : State) (n : Nat) (p : Rx) : State :=
  let other := match (s.stall n).skip with
    | some (q, _) => if q = p.fseq then s.orphan n p.fseq else s.stAdd F.STALL_PKT_ERR_BAD_FIELD n 1
    | none => s.stAdd F.STALL_PKT_ERR_BAD_FIELD n 1
  match s.openFrame n with
  | some f =>
      if f.hdr.id = p.param then s.closeFrame n (p.num 0 4 != f.pkts || p.num 4 4 % 4 != 0)
      else if f.hdr.id % 256 = p.fseq then s.stAdd F.STALL_PKT_ERR_BAD_FIELD n 1
      else other
  | none => other

/-- A frame packet acts, or waits behind a held Frame Start (R207). -/
def State.framePacket (s : State) (n : Nat) (p : Rx) : State :=
  if (s.stall n).held.isSome then s.modStall n fun x => { x with heldPkts := x.heldPkts ++ [p] }
  else if p.type = 0x01 then s.frameStart n p
  else if p.type = 0x02 then s.linePacket n p
  else s.frameEnd n p

/-- A frame packet is received. -/
def State.rxFrame (s : State) (n : Nat) (p : Rx) (room : Bool) : State :=
  let r := s.rxCheck n p
  if r.1 then (r.2.forward n p room).framePacket n p else r.2

/-- FRAME_START_RECEIVED (R158, R162, R164 to R166, R207). `room`: the forwarding buffer has room for it (R706). -/
def execFrameStartReceived (n : Fin 16) (fseq : Fin 256) (param : BitVec 32) (body : List Byte) (crc : BitVec 32) (errored : Bool) (tick : Nat)
    (room : Bool) (s : State) : Result :=
  .next ((s.reach tick).rxFrame n.val ⟨0x01, fseq.val, param.toNat, body, crc.toNat, errored, tick⟩ room)

/-- LINE_RECEIVED (R156, R159, R160, R209). -/
def execLineReceived (n : Fin 16) (fseq : Fin 256) (param : BitVec 32) (body : List Byte) (crc : BitVec 32) (errored : Bool) (tick : Nat)
    (room : Bool) (s : State) : Result :=
  .next ((s.reach tick).rxFrame n.val ⟨0x02, fseq.val, param.toNat, body, crc.toNat, errored, tick⟩ room)

/-- FRAME_END_RECEIVED (R161, R162). -/
def execFrameEndReceived (n : Fin 16) (fseq : Fin 256) (param : BitVec 32) (body : List Byte) (crc : BitVec 32) (errored : Bool) (tick : Nat)
    (room : Bool) (s : State) : Result :=
  .next ((s.reach tick).rxFrame n.val ⟨0x03, fseq.val, param.toNat, body, crc.toNat, errored, tick⟩ room)

/-- Packets that waited behind a held Frame Start act in order. -/
def State.replay (s : State) (n : Nat) : List Rx → State
  | [] => s
  | p :: l => State.replay (s.framePacket n p) n l

/-- HELD_FRAME_START_RELEASE (R207): the earlier frame's last pixel has entered the bay. -/
def execHeldFrameStartRelease (n : Fin 20) (s : State) : Result :=
  .next <| match (s.stall n.val).held, (s.stall n.val).frame with
    | some h, none =>
        let q := (s.stall n.val).heldPkts
        let s1 := s.modStall n.val fun x => { x with held := none, heldPkts := [] }
        (s1.judgeFrame n.val h).replay n.val q
    | _, _ => s

/-- FRAME_TIMEOUT (R162): FRAME_TIMEOUT has passed with no accepted packet of the open frame. -/
def execFrameTimeout (n : Fin 20) (s : State) : Result :=
  .next <| match s.openFrame n.val with
    | none => s
    | some f =>
        let t := s.get F.STALL_PROTO_CFG_FRAME_TIMEOUT n.val
        if t = 0 ∨ 16 ≤ n.val then s else (s.reach (f.lastPkt + 4000 * t)).closeFrame n.val true

/-! ### Events (R172) -/

/-- An Event packet is received. -/
def State.rxEvent (s : State) (n : Nat) (p : Rx) (room : Bool) : State :=
  let r := s.rxCheck n p
  if !r.1 then r.2
  else
    let s1 := r.2.forward n p room
    let t := s1.get F.STALL_CTRL_CFG_EVT_TROUGH n
    if !s1.isOn F.STALL_PROTO_CFG_EVT_EN n then s1
    else if t < 400 then s1.inc F.STALL_PATH_ERR_EVT_DISCARDS n
    else s1.pushItem t [word p.tick, field 0 16 (p.param % 65536) ||| field 16 5 n ||| field 32 32 (p.num 0 4)]

/-- EVENT_PACKET_RECEIVED (R172, R193, R199). -/
def execEventPacketReceived (n : Fin 16) (param : BitVec 32) (body : List Byte) (crc : BitVec 32) (errored : Bool) (tick : Nat)
    (room : Bool) (s : State) : Result :=
  .next ((s.reach tick).rxEvent n.val ⟨0x21, 0, param.toNat, body, crc.toNat, errored, tick⟩ room)

/-! ### Control requests (R173 to R179) -/

/-- Result codes that the stall sets (R175). -/
def crTimeout : Nat := 0x80
def crLinkLost : Nat := 0x81
def crHold : Nat := 0x82
def crBadRequest : Nat := 0x83
def crBadResponse : Nat := 0x84

/-- STALL_CTRL_STATUS follows the IDs (R194). -/
def State.showIds (s : State) (n : Nat) : State :=
  let x := s.stall n
  ((s.put F.STALL_CTRL_STATUS_OUTSTANDING n x.reqs.length).put F.STALL_CTRL_STATUS_QUARANTINED n
    (if x.quarAll.isSome then 256 else x.quar.length)).put F.STALL_CTRL_STATUS_QUARANTINE_ALL n (b2n x.quarAll.isSome)

/-- A completion packet (R175, R193, R199). -/
def State.ctlComplete (s : State) (n : Nat) (head : Word) (result id : Nat) (data : List Word) : State :=
  let t := s.get F.STALL_CTRL_CFG_CRESP_TROUGH n
  if t < 400 then s.inc F.STALL_PATH_ERR_CRESP_DISCARDS n
  else s.pushItem t (head :: (field 0 8 result ||| field 8 8 id ||| field 32 32 (s.now % 2 ^ 32)) :: data)

/-- Whether a request item keeps the layout of R173. -/
def requestOk (ws : List Word) : Bool :=
  match ws with
  | [] => false
  | h :: rest =>
      let op := bits h 32 8
      let n := bits h 40 7
      !bit h 47 && decide (1 ≤ n) && decide (n ≤ 64) &&
        (if op = 1 then rest.length == 0
        else if op = 2 then rest.length == (n + 1) / 2
        else op == 3 && n == 1 && rest.length == 1)

/-- Whether an ID is neither outstanding nor quarantined (R176). -/
def Stall.idFree (x : Stall) (id : Nat) : Bool :=
  x.quarAll.isNone && !(x.reqs.any fun r => r.id == id) && !(x.quar.any fun q => q.1 == id)

/-- The next free ID upward from the last one issued (R176). -/
def Stall.nextId (x : Stall) : Option Nat := ((List.range 256).map fun k => (x.lastCid + 1 + k) % 256).find? x.idFree

/-- 32-bit words packed two to a word, the first lower. -/
def unpackPairs (n : Nat) (ws : List Word) : List Nat := (ws.flatMap fun w => [bits w 0 32, bits w 32 32]).take n

/-- CONTROL_REQUEST_POP (R173, R174, R176, R193). -/
def execControlRequestPop (n : Fin 16) (s : State) : Result :=
  .next <|
    let t := s.get F.STALL_CTRL_CFG_CREQ_TROUGH n.val
    let x := s.stall n.val
    if !s.stUp n.val || s.fwdIn n.val || s.inHold || s.ctl.mode == .reset || decide (t < 400) then s
    else match x.nextId, s.headItem t with
      | some id, some it =>
          let s1 := s.dropHead t
          let h := it.words.head?.getD 0
          if it.gap then s1
          else if it.poison || !requestOk it.words then
            let f := s1.fresh
            f.2.ctlComplete n.val h crBadRequest (bits f.1 0 8) []
          else
            let op := bits h 32 8
            let k := bits h 40 7
            let body := bytesOfNat 4 (op + 256 * k) ++
              if op = 1 then [] else (unpackPairs k (it.words.drop 1)).flatMap fun v => bytesOfNat 4 v
            let s2 := s1.modStall n.val fun y => { y with reqs := y.reqs ++ [⟨id, h, s.now⟩], lastCid := id }
            (s2.showIds n.val).emit (.camPacket n.val (packetWhole 0x10 id (bits h 0 32) body))
      | _, _ => s

/-- The control timeout in ticks; 0 acts as 1 µs (Table 4.12). -/
def State.ctlTimeout (s : State) (n : Nat) : Nat := 4000 * max 1 (s.get F.STALL_CTRL_CFG_TIMEOUT n)

/-- Whether a response fits its request (R175). -/
def fitsRequest (head : Word) (p : Rx) : Bool :=
  let op := bits head 32 8
  let n := bits head 40 7
  let count := p.num 1 1 % 128
  p.param == bits head 0 32 &&
    (if op = 1 ∧ p.num 0 1 = 0 then count == n && p.body.length == 4 + 4 * n
    else p.body.length == 4 && (count == n || count == 0))

/-- The data words of a response, two to a word. -/
def Rx.data (p : Rx) (n : Nat) : List Word := packPairs ((List.range n).map fun k => p.num (4 + 4 * k) 4)

/-- CONTROL_RESPONSE_RECEIVED (R174, R175, R177, R179). -/
def execControlResponseReceived (n : Fin 16) (id : Fin 256) (param : BitVec 32) (body : List Byte) (crc : BitVec 32) (errored : Bool)
    (tick : Nat) (s : State) : Result :=
  .next <|
    let p : Rx := ⟨0x11, id.val, param.toNat, body, crc.toNat, errored, tick⟩
    let r := (s.reach tick).rxCheck n.val p
    if !r.1 then r.2
    else
      let x := r.2.stall n.val
      match x.reqs.find? fun q => q.id == id.val with
      | some q =>
          let s1 := (r.2.modStall n.val fun y => { y with reqs := y.reqs.filter fun z => z.id != id.val }).showIds n.val
          if fitsRequest q.head p then
            let ok := bits q.head 32 8 == 1 && p.num 0 1 == 0
            s1.ctlComplete n.val q.head (p.num 0 1) id.val (if ok then p.data (bits q.head 40 7) else [])
          else s1.ctlComplete n.val q.head crBadResponse id.val []
      | none =>
          if x.quarAll.isSome || x.quar.any (fun q => q.1 == id.val) then r.2.inc F.STALL_CTRL_ERR_LATE_RESP n.val
          else r.2.inc F.STALL_CTRL_ERR_UNEXPECTED_RESP n.val

/-- CONTROL_TIMEOUT (R177): the oldest outstanding request gets no response. -/
def execControlTimeout (n : Fin 16) (s : State) : Result :=
  .next <| match (s.stall n.val).reqs with
    | [] => s
    | q :: rest =>
        let d := s.ctlTimeout n.val
        let s1 := s.reach (q.since + d)
        let s2 := s1.modStall n.val fun x => { x with reqs := rest, quar := x.quar ++ [(q.id, s1.now + d)] }
        ((s2.showIds n.val).inc F.STALL_CTRL_ERR_TIMEOUTS n.val).ctlComplete n.val q.head crTimeout q.id []

/-- Every outstanding request completes and every ID is quarantined (R178). -/
def State.ctlAbort (s : State) (n result : Nat) : State :=
  let q := (s.stall n).reqs
  let s1 := s.modStall n fun x => { x with reqs := [], quarAll := some none }
  let s2 := q.foldl (fun a r =>
    (if result = crLinkLost then a.inc F.STALL_CTRL_ERR_LINK_LOST n else a).ctlComplete n r.head result r.id []) s1
  s2.showIds n

/-- The stall is UP outside HOLD: a quarantine of all IDs ends 2 ms later (R178). -/
def State.quarRun (s : State) (n : Nat) : State :=
  s.modStall n fun x => match x.quarAll with
    | some none => { x with quarAll := some (some (s.now + 8000000)) }
    | _ => x

/-- CONTROL_ID_QUARANTINE_END (R177, R178). -/
def execControlIdQuarantineEnd (n : Fin 16) (s : State) : Result :=
  .next <|
    let x := s.stall n.val
    match x.quarAll with
    | some (some t) => ((s.reach t).modStall n.val fun y => { y with quarAll := none, quar := y.quar.filter fun q => t < q.2 }).showIds n.val
    | some none => s
    | none =>
        match x.quar with
        | [] => s
        | (_, t) :: rest => ((s.reach t).modStall n.val fun y => { y with quar := rest }).showIds n.val

/-! ### Heartbeats (R171, R180 to R182) -/

/-- A latency sample (R171). -/
def State.rttSample (s : State) (n : Nat) (d : Int) : State :=
  if d < 0 ∨ 40000 < d then s
  else
    let x := s.stall n
    let l := d.toNat :: x.rtt.take 15
    let s1 := s.modStall n fun y => { y with rtt := l, rttCount := min 16 (y.rttCount + 1) }
    (s1.put F.STALL_LATENCY_ONE_WAY n (l.foldl (· + ·) 0 / (2 * l.length))).put F.STALL_LATENCY_VALID n (b2n (decide (16 ≤ x.rttCount + 1)))

/-- HEARTBEAT_RECEIVED (R171, R180, R182, R192, R198). -/
def execHeartbeatReceived (n : Fin 16) (param : BitVec 32) (body : List Byte) (crc : BitVec 32) (errored : Bool) (tick : Nat)
    (s : State) : Result :=
  .next <|
    let p : Rx := ⟨0x30, 0, param.toNat, body, crc.toNat, errored, tick⟩
    let r := (s.reach tick).rxCheck n.val p
    if !r.1 then r.2
    else
      let st := p.num 12 2
      let s1 := (r.2.put F.STALL_HB_HB_RX_SEQ n.val p.param).put F.STALL_HB_CAM_STATUS n.val st
      let s2 := ((s1.put F.STALL_PROTO_STATUS_CAM_ORPHAN n.val (st / 2)).put F.STALL_PROTO_STATUS_CAM_FOLLOWS n.val st).put
        F.STALL_PROTO_STATUS_CAM_DUAL_PORT n.val (st / 8)
      let s3 := if (s2.stall n.val).quietPeer then s2
        else (s2.put F.STALL_PROTO_STATUS_CAM_STATE n.val 1).modStall n.val fun x => { x with hbRx := some s2.now }
      if p.num 0 8 = 0 then s3 else s3.rttSample n.val ((tick : Int) - p.num 0 8 - p.num 8 4)

/-- HEARTBEAT_SEND (R180, R181). -/
def execHeartbeatSend (n : Fin 16) (s : State) : Result :=
  .next <|
    if !s.stUp n.val || s.fwdIn n.val || s.isOn F.STALL_LINK_CFG_PPORT_SEL n.val then s
    else
      let x := s.stall n.val
      let s1 := s.reach (x.hbTx + 4000)
      let keep := s1.rights
      let hold := s1.ctl.mode == .hold
      let body := bytesOfNat 8 s1.now ++ bytesOfNat 4 0 ++
        bytesOfNat 2 (b2n keep + 2 * b2n hold + 4 * b2n (s1.isOn F.PAIR_CFG_ENABLE)) ++ bytesOfNat 2 0
      let s2 := s1.modStall n.val fun y => { y with hbTx := s1.now, hbSeq := (y.hbSeq + 1) % 2 ^ 32 }
      ((s2.put F.STALL_PROTO_STATUS_KEEPER_SENT n.val (b2n keep)).put F.STALL_PROTO_STATUS_HOLD_SENT n.val (b2n hold)).emit
        (.camPacket n.val (packetWhole 0x30 0 x.hbSeq body))

/-! ### Triggers (R168 to R170, R521, R604) -/

/-- Whether a Trigger may be sent by stall `n` (R170, R707, R708). -/
def State.trigOk (s : State) (n : Nat) : Bool :=
  s.stUp n && !s.fwdIn n && !s.isOn F.STALL_LINK_CFG_PPORT_SEL n && s.ctl.mode != .shadow && s.rights

/-- A Trigger is requested (R170): queued, or counted TRIG_UNSENT. -/
def State.trigRequest (s : State) (n : Nat) (g : Trig) : State :=
  if s.trigOk n then s.modStall n fun x => { x with trigs := x.trigs ++ [g] } else s.inc F.STALL_TRIG_COUNT_TRIG_UNSENT n

/-- YARD_CAMERA_TRIGGER (R169, R604). Its ARG is not stated. -/
def execYardCameraTrigger (n : Fin 16) (s : State) : Result :=
  .next <| match s.takeEvent (288 + n.val) with
    | none => s
    | some (t, s1) =>
        if 4 ≤ ((s1.stall n.val).trigs.filter (·.yard)).length then s1
        else
          let f := s1.fresh
          f.2.trigRequest n.val ⟨t + s1.get F.STALL_TRIG_CFG_YARD_DELAY n.val, s1.get F.STALL_PROTO_CFG_YARD_TRIG_ACTION n.val,
            bits f.1 0 8, true, none⟩

/-- The tick at which a Trigger is committed (R169); target 0 has no lead to wait for (R521). -/
def State.trigLead (s : State) (n : Nat) (g : Trig) : Int :=
  if g.target = 0 ∧ g.yard = false then s.now
  else (g.target : Int) - signed 16 (s.get F.STALL_TRIG_CFG_COMP n) - s.get F.STALL_LATENCY_ONE_WAY n - 4000

/-- The Trigger whose commit comes first: the head of the CTRIG queue or of the yard's (R521, R604). -/
def State.trigNext (s : State) (n : Nat) : Option Trig :=
  let q := (s.stall n).trigs
  match q.find? (·.yard), q.find? (fun g => !g.yard) with
  | some a, some b => if s.trigLead n a < s.trigLead n b then some a else some b
  | some a, none => some a
  | none, b => b

/-- TRIGGER_COMMIT (R168 to R170, R521): `tx` is the tick at which the first UI of its block leaves; `gone`: the stall left UP before
it was sent. -/
def execTriggerCommit (n : Fin 16) (tx : Nat) (gone : Bool) (s : State) : Result :=
  .next <| match s.trigNext n.val with
    | none => s
    | some g =>
        let s1 := (s.reach (s.trigLead n.val g).toNat).modStall n.val fun x => { x with trigs := x.trigs.erase g }
        if !s1.trigOk n.val then s1.inc F.STALL_TRIG_COUNT_TRIG_UNSENT n.val
        else
          let x := s1.stall n.val
          let s2 := s1.modStall n.val fun y => { y with trigId := (y.trigId + 1) % 2 ^ 32 }
          if gone then s2.inc F.STALL_TRIG_COUNT_TRIG_UNSENT n.val
          else
            let comp := signed 16 (s1.get F.STALL_TRIG_CFG_COMP n.val)
            let ow : Int := s1.get F.STALL_LATENCY_ONE_WAY n.val
            let t : Int := (max tx s1.now : Nat)
            let now0 := g.target = 0 ∧ g.yard = false
            let target : Int := if now0 then t + ow + comp else g.target
            let delay := target - comp - (t + ow)
            let s3 := s2.incWrap F.STALL_TRIG_COUNT_TRIG_SENT n.val
            let s4 := if delay < 0 then s3.inc F.STALL_TRIG_COUNT_TRIG_LATE n.val else s3
            let s5 := if g.action = 1 then
                s4.modStall n.val fun y => { y with fired := (x.trigId, target.toNat) :: y.fired.take 15 } else s4
            s5.emit (.camPacket n.val (packetWhole 0x20 0 x.trigId
              (bytesOfNat 2 (delay.toNat % 65536) ++ bytesOfNat 1 g.action ++ bytesOfNat 1 g.arg)))

/-! ### Counters (R191) -/

/-- CNT_CLEAR of STALL_PROTO_CFG. -/
def State.protoCntClear (s : State) (n : Nat) : State :=
  let s1 := (((s.rst .STALL_PKT_ERR n).rst .STALL_FRAME_ERR n).rst .STALL_CTRL_ERR n).rst .STALL_TRIG_COUNT n
  let s2 := s1.rst .STALL_PATH_ERR n
  if 14 ≤ n ∧ n < 16 then s2.rst .PPORT_COUNT (n - 14) else s2

/-- PROTO_CNT_CLEAR (R191). -/
def execProtoCntClear (n : Fin 16) (s : State) : Result := .next (s.protoCntClear n.val)

/-- A write of STALL_PROTO_CFG (Table 4.10). -/
def State.protoCfgWrite (s : State) (n : Nat) (v m : Word) : State :=
  let s1 := s.wr .STALL_PROTO_CFG n (writeFields .STALL_PROTO_CFG (s.rd .STALL_PROTO_CFG n) v m)
  if bit (v &&& m) 1 then s1.protoCntClear n else s1

end Sys2Proof.Machine
end

