-- ==== Sys2Proof/Machine/Keeper.lean ====
section
/-! DEFINITION. Roles of a pair member (R708, R709, R714): keeper rights, taking keeper, taking shadow and standing down. -/

namespace Sys2Proof.Machine

/-- Pair states (Table 16.8). -/
def psOff : Nat := 0
def psSeeking : Nat := 1
def psKeeper : Nat := 2
def psShadow : Nat := 3
def psHanding : Nat := 4
def psStanddown : Nat := 5

/-- The Device Serial Number (Table 15.3): the unit number comes from the fuses. -/
def State.serial (s : State) : Nat := 0x1F3E0F1600000000 + s.fuses.serial % 2 ^ 32

def State.pairSt (s : State) : Nat := s.get F.PAIR_STATUS_STATE

def State.cwUp (s : State) : Bool := s.isOn F.PAIR_STATUS_CAUSEWAY_UP

def State.epoch (s : State) : Nat := (s.rd .PAIR_EPOCH).toNat

def State.peerEpoch (s : State) : Nat := (s.rd .PAIR_PEER_EPOCH).toNat

/-- The filtered PEER_KEEP_N and own KEEP_OUT_N, asserted (R700). -/
def State.peerKeep (s : State) : Bool := s.isOn F.PAIR_STATUS_PEER_KEEP

def State.keepOut (s : State) : Bool := s.isOn F.PAIR_STATUS_KEEP_OUT

/-- RIGHTS and SPLIT follow the pair state, the keeper lines, the epochs and the causeway (R708, R719). -/
def State.pairView (s : State) : State :=
  let on := s.isOn F.PAIR_CFG_ENABLE
  let keeper := s.pairSt == psKeeper
  let split := on && !keeper && s.peerKeep && !s.cwUp
  let s1 := s.put F.PAIR_STATUS_RIGHTS 0 (b2n (on && keeper && s.keepOut && decide (s.peerEpoch ≤ s.epoch)))
  let s2 := s1.put F.PAIR_STATUS_SPLIT 0 (b2n split)
  if split && !s.isOn F.PAIR_STATUS_SPLIT then s2.alarm 0x32 0 else s2

/-- A mode in which only a keeper may stay (R709). -/
def Mode.needsKeeper : Mode → Bool
  | .armed | .stream | .burst | .drain => true
  | _ => false

/-- A member that is not keeper asks for SHADOW while its mode is ARMED, STREAM, BURST or DRAIN (R709). -/
def State.askShadow (s : State) (why : ReqReason) : State :=
  if s.isOn F.PAIR_CFG_ENABLE && s.pairSt != psKeeper && s.modeAhead.needsKeeper then
    s.placeRequest ⟨.yardmaster, Mode.code .shadow, why, 0⟩
  else s

/-- The pair state becomes `st`; HANDOVER reads 1 in HANDING_OVER (R720). -/
def State.setPair (s : State) (st : Nat) (why : ReqReason) : State :=
  (((s.put F.PAIR_STATUS_STATE 0 st).put F.PAIR_CTRL_HANDOVER 0 (b2n (st == psHanding))).askShadow why).pairView

/-- The member takes shadow (R709). -/
def State.takesShadow (s : State) : State := (s.raiseYard 449 s.now).setPair psShadow .election

/-- A table of registers, by instance. -/
def State.regTab (s : State) (r : Reg) (n : Nat) : Tab Word := (List.range n).foldl (fun t i => Tab.set 0 t i (s.rd r i)) []

/-- The member takes keeper (R709). -/
def State.takesKeeper (s : State) : State :=
  let s1 := s.wr .PAIR_EPOCH 0 (word (max s.epoch s.peerEpoch + 1))
  let s2 := ({ s1 with pair := { s1.pair with peerFinal := false } }.raiseYard 448 s.now).setPair psKeeper .takeover
  if s2.modeAhead = Mode.shadow then s2.placeRequest ⟨.yardmaster, Mode.code .stream, .takeover, 0⟩ else s2

/-- A takeover: by FINAL (1), by release (2) or by reclaim (3) (R709, R715, Table 16.8). -/
def State.takeover (s : State) (how : Nat) (cut : Word) : State :=
  let s1 := { s with pair := { s.pair with cutWm := s.regTab .PAIR_WM 64, cutHerd := s.regTab .PAIR_HERD_WM 16 } }
  let s2 := ((s1.wr .PAIR_CUTOVER 0 cut).put F.PAIR_STATUS_LAST_TAKEOVER 0 how).inc F.PAIR_COUNT_TAKEOVERS
  let s3 := s2.takesKeeper
  if cut = 0 then s3 else s3.raiseYard 451 s3.now

/-- Stand-down (R714). -/
def State.standDown (s : State) : State :=
  let s1 := ((s.raiseYard 450 s.now).alarm 0x31 (field 0 32 s.epoch)).inc F.PAIR_COUNT_STANDDOWNS
  { s1 with pair := { s1.pair with standAt := s1.now } }.setPair psStanddown .standDown

/-- Both lines asserted while the member is KEEPER (R714, Table 16.3); a peer epoch above its own makes it yield (R709). -/
def State.pairLines (s : State) : State :=
  if s.pairSt ≠ psKeeper then s
  else if s.epoch < s.peerEpoch then s.takesShadow
  else if s.keepOut && s.peerKeep && (!s.cwUp || s.epoch == s.peerEpoch) then s.standDown
  else s

end Sys2Proof.Machine
end

