-- ==== Sys2Proof/Machine/Lanes.lean ====
section
/-! DEFINITION. The lane layer (chapter 3): lanes and stalls, training, lane states, markers, link management, patterns; and what a
stall does when it becomes UP or leaves UP (R123, R178, R182). The causeway's eight lanes are lanes 32 to 39 of link 20 (R701). -/

namespace Sys2Proof.Machine

/-! ### Lanes and their links (R84 to R90) -/

def State.lane (s : State) (l : Nat) : Lane := Tab.get Lane.zero s.lanes l

def State.modLane (s : State) (l : Nat) (f : Lane → Lane) : State := { s with lanes := Tab.set Lane.zero s.lanes l (f (s.lane l)) }

/-- The number of the causeway's link. -/
def cwLink : Nat := 20

/-- The states of a lane (Table 3.9). -/
def lnDisabled : Nat := 0
def lnDeep : Nat := 1
def lnWake : Nat := 2
def lnTrain : Nat := 3
def lnHandoff : Nat := 4
def lnActive : Nat := 5
def lnIdle : Nat := 6
def lnWait : Nat := 7
def lnTest : Nat := 8
def lnFault : Nat := 9

def State.laneSt (s : State) (l : Nat) : Nat := s.get F.LANE_STATUS_STATE l

/-- Stall `n` holds the lanes of stall n + 1 (R85). -/
def State.borrows (s : State) (n : Nat) : Bool := s.isOn F.STALL_LINK_CFG_ENABLE n && s.get F.STALL_LINK_CFG_MAX_WIDTH n == 2

/-- The link that lane `l` belongs to (R84, R85). -/
def State.ownerOf (s : State) (l : Nat) : Nat :=
  if 32 ≤ l then cwLink else if l / 2 % 2 = 1 ∧ s.borrows (l / 2 - 1) = true then l / 2 - 1 else l / 2

/-- The lane's index within its link. -/
def State.laneIdx (s : State) (l : Nat) : Nat := if 32 ≤ l then l - 32 else l - 2 * s.ownerOf l

/-- A link that is enabled and runs on lanes (R86, R707). -/
def State.linkOn (s : State) (n : Nat) : Bool :=
  if n = cwLink then s.isOn F.PAIR_CFG_ENABLE
  else decide (n < 16) && s.isOn F.STALL_LINK_CFG_ENABLE n && !s.isOn F.STALL_LINK_CFG_PPORT_SEL n && !s.fwdIn n

/-- Codes of the width in use and of the largest width (Table 3.16, R701). -/
def State.widthCode (s : State) (n : Nat) : Nat := if n = cwLink then 3 else s.get F.STALL_LINK_STATUS_WIDTH n

def State.maxCode (s : State) (n : Nat) : Nat := if n = cwLink then 3 else s.get F.STALL_LINK_CFG_MAX_WIDTH n

/-- The lanes of a link, spare lanes included. -/
def State.linkLanes (s : State) (n : Nat) : List Nat :=
  if n = cwLink then (List.range 8).map (32 + ·) else (List.range (if s.maxCode n = 2 then 4 else 2)).map (2 * n + ·)

/-- The lanes of the width in use. -/
def State.widthLanes (s : State) (n : Nat) : List Nat := (s.linkLanes n).take (2 ^ s.widthCode n)

/-- The rate of a link (R89), and whether its FEC runs (R90). -/
def State.linkRate (s : State) (n : Nat) : Nat := if n = cwLink then 0 else s.get F.STALL_LINK_CFG_RATE n

def State.fecOn (s : State) (n : Nat) : Bool := s.linkRate n == 0 || s.isOn F.STALL_LINK_CFG_FEC_EN n

/-- Mode READY or later, except HOLD with BOOT_NO_IMAGE (Table 3.10). -/
def State.lanesOpen (s : State) : Bool :=
  match s.modeAhead with
  | .ready | .armed | .stream | .burst | .drain | .shadow => true
  | .hold => s.get F.DEV_HOLD_CAUSE_HOLD_CODE != 1
  | _ => false

/-! ### Entering a lane state (Tables 3.9, 3.10) -/

/-- A lane enters state `st`, clearing the flags in `clear` of LANE_STATUS. -/
def State.laneEnter (s : State) (l st clear : Nat) : State :=
  ((s.wr .LANE_STATUS l (s.rd .LANE_STATUS l &&& ~~~ BitVec.ofNat 64 clear)).put F.LANE_STATUS_STATE l st).modLane l fun x =>
    { x with since := s.now }

/-- A lane's training starts afresh. -/
def Lane.restart (x : Lane) (retrain : Bool) : Lane :=
  { x with retrain := retrain, reqs := 0, ask := 0, stats := 0, goodReady := 0, hand := 0, uncorr := 0, missed := 0, markers := 0
           badBlocks := 0 }

def State.toDisabled (s : State) (l : Nat) : State := (s.laneEnter l lnDisabled 0x1FF0).modLane l fun x => { Lane.zero with since := x.since }

def State.toDeep (s : State) (l : Nat) : State := (s.laneEnter l lnDeep 0x1FF0).modLane l fun x => x.restart false

def State.toWake (s : State) (l : Nat) : State := (s.laneEnter l lnWake 0x18F0).modLane l fun x => x.restart false

def State.toTrain (s : State) (l : Nat) (retrain : Bool) : State :=
  (s.laneEnter l lnTrain (if retrain then 0x18C0 else 0x1880)).modLane l fun x => x.restart retrain

/-- A training attempt failed, with its LAST_FAIL. -/
def State.toWait (s : State) (l fail : Nat) : State := (s.laneEnter l lnWait 0x1800).put F.LANE_STATUS_LAST_FAIL l fail

/-- The countdown starts; the descrambler starts with all ones (R96, R117). -/
def State.toHandoff (s : State) (l : Nat) : State :=
  (s.laneEnter l lnHandoff 0).modLane l fun x => { x with hand := 9, scramble := BitVec.allOnes 58, badBlocks := 0 }

def State.toActive (s : State) (l : Nat) : State :=
  ((s.laneEnter l lnActive 0).put F.LANE_STATUS_BLOCK_LOCK l 1).modLane l fun x => { x with uncorr := 0, missed := 0, markers := 0 }

def State.toIdle (s : State) (l : Nat) : State := s.laneEnter l lnIdle 0

def State.toFault (s : State) (l fail : Nat) : State := (s.laneEnter l lnFault 0x1880).put F.LANE_STATUS_LAST_FAIL l fail

/-- Lanes whose state is among `from'` change by `f`. -/
def State.eachLane (s : State) (ls : List Nat) (from' : List Nat) (f : State → Nat → State) : State :=
  ls.foldl (fun a l => if from'.contains (a.laneSt l) then f a l else a) s

/-! ### Results of link-management requests (R127, R140) -/

/-- A software request ends with a result of Table 3.18. -/
def State.lmResult (s : State) (n : Nat) (src : LmSource) (r : Nat) : State :=
  if src = .software ∧ n < 16 then (s.put F.STALL_LM_CTRL_RESULT n r).put F.STALL_LM_CTRL_GO n 0 else s

def lrPending : Nat := 1
def lrDone : Nat := 2
def lrNak : Nat := 3
def lrTimeout : Nat := 4
def lrRetrained : Nat := 5
def lrIllegal : Nat := 6

/-! ### A stall's state, and what follows from it (R123, R162, R178) -/

/-- A stall becomes UP. -/
def State.linkUp (s : State) (n : Nat) : State :=
  let s1 := ((s.raiseYard (64 + 4 * n + 2) s.now).countEvent 2).put F.STALL_LINK_STATUS_FAULT_CAUSE n 0
  let s2 := (s1.put F.STALL_LATENCY_ONE_WAY n 0).put F.STALL_LATENCY_VALID n 0
  let s3 := if (s2.stall n).retrainDue then s2.lmResult n .software lrDone else s2
  let s4 := s3.modStall n fun x =>
    { x with rtt := [], rttCount := 0, hbTx := s.now, hbRx := some s.now, quietPeer := false, camRetrain := false, retrainDue := false }
  if s4.inHold then s4 else s4.quarRun n

/-- A stall leaves UP and IDLE: the packet in progress is discarded uncounted and its open frame closes INCOMPLETE. -/
def State.linkDown (s : State) (n : Nat) : State :=
  let s1 := ((s.raiseYard (64 + 4 * n + 3) s.now).countEvent 3).closeFrame n true
  (s1.ctlAbort n crLinkLost).modStall n fun x =>
    { x with held := none, gapPend := x.gapPend || x.held.isSome, heldPkts := [], lost := false, need := 0, rxBytes := [], rxErr := false }

/-- STALL_LINK_STATUS.STATE of a stall becomes `new`. -/
def State.setLink (s : State) (n new : Nat) : State :=
  let old := s.stState n
  if old = new then s
  else
    let live := fun (x : Nat) => x == lsUp || x == lsIdle
    let s1 := s.put F.STALL_LINK_STATUS_STATE n new
    let s2 := if live old && !live new then s1.linkDown n else if old = lsUp ∧ new = lsIdle then s1.ctlAbort n crLinkLost else s1
    let s3 := match s2.ctxOfStall n with
      | some c => if old = lsUp then s2.herdPassAll c else s2
      | none => s2
    if new = lsUp then s3.linkUp n else s3

/-- Stalls fed from the causeway follow it (R707). -/
def State.fwdStalls (s : State) (up : Bool) : State :=
  (List.range 16).foldl (fun a n =>
    if a.fwdIn n && a.isOn F.STALL_LINK_CFG_ENABLE n then a.setLink n (if up then lsUp else lsDown) else a) s

/-- The causeway goes down (R703); `loss`: not agreed, so CAUSEWAY_LOST is raised and the loss counted. -/
def State.causewayDown (s : State) (loss : Bool) : State :=
  if !s.isOn F.PAIR_STATUS_CAUSEWAY_UP then s
  else
    let s1 := (s.put F.PAIR_STATUS_CAUSEWAY_UP 0 0).raiseYard 453 s.now
    let s2 := if loss then (s1.inc F.PAIR_COUNT_CW_LOSSES).alarm 0x30 0 else s1
    (s2.fwdStalls false).pairView.pairLines

/-- A link's state follows its lanes (R103, R104, R123, R703). -/
def State.evalLink (s : State) (n : Nat) : State :=
  let all := fun (st : Nat) => (s.widthLanes n).all fun l => s.laneSt l == st
  if n = cwLink then
    if all lnActive then s
    else { s with pair := { s.pair with lastStatus := none } }.causewayDown (s.modeAhead != Mode.quiet)
  else if !s.linkOn n then s
  else s.setLink n
    (if all lnActive then lsUp else if all lnIdle then lsIdle else if all lnDeep then lsDeep
     else if s.get F.STALL_LINK_STATUS_FAULT_CAUSE n ≠ 0 then lsFault else lsDown)

/-- A stall counts lanes starting to retrain (R143). -/
def State.countRetrain (s : State) (n : Nat) : State := if n < 16 then s.inc F.STALL_LINK_COUNT_RETRAINS n else s

/-! ### Lanes starting and stopping (R120, R122) -/

/-- A lane runs: within the width in use or the width sought, or kept as a spare (R85, R131, Table 3.19). -/
def State.laneWanted (s : State) (l : Nat) : Bool :=
  let n := s.ownerOf l
  let w := match (s.stall n).goal with | some g => max g.1 (s.widthCode n) | none => s.widthCode n
  decide (s.laneIdx l < 2 ^ w) || s.isOn F.LANE_CTRL_KEEP_SPARE l

/-- LANE_WAKE: a DISABLED or DEEP lane of an enabled link starts, or rests in QUIET. -/
def State.laneStart (s : State) (l : Nat) : State :=
  if !s.linkOn (s.ownerOf l) || !s.laneWanted l then s
  else if s.lanesOpen then s.toWake l
  else if s.modeAhead = Mode.quiet then s.toDeep l
  else s

/-- Every resting lane of a link starts; the 2 ms of R122 run from here. -/
def State.linkStart (s : State) (n : Nat) : State :=
  ((s.eachLane (s.linkLanes n) [lnDisabled, lnDeep] State.laneStart).modStall n fun x => { x with wakeAt := s.now, waited := false }).evalLink n

/-- Every lane of a link goes to electrical idle. -/
def State.linkStop (s : State) (n : Nat) : State := (s.linkLanes n).foldl State.toDisabled s

/-- ENTER_DEEP carried out; R124. -/
def State.linkDeep (s : State) (n : Nat) (from' : List Nat) : State :=
  ((s.eachLane (s.linkLanes n) from' State.toDeep).modStall n fun x => { x with quietPeer := true }).evalLink n

def liveLanes : List Nat := [lnActive, lnIdle]
def drivenLanes : List Nat := [lnDisabled, lnWake, lnTrain, lnHandoff, lnActive, lnIdle, lnWait]

/-- A lane outside the width follows KEEP_SPARE (R131, Table 3.19). -/
def State.followSpare (s : State) (l : Nat) : State :=
  if s.laneWanted l then
    (if s.laneSt l = lnDisabled ∨ s.laneSt l = lnDeep then s.laneStart l else s)
  else if (drivenLanes.drop 1).contains (s.laneSt l) then s.toDeep l
  else s

/-! ### Link management (R125 to R133) -/

def opRetrain : Nat := 0x01
def opWidthReq : Nat := 0x02
def opWidthChange : Nat := 0x03
def opIdle : Nat := 0x04
def opDeep : Nat := 0x05
def opExit : Nat := 0x06
def opAck : Nat := 0x80
def opNak : Nat := 0x81
def opSuperseded : Nat := 0x82

/-- A link-management message (Table 3.12). -/
def lmMsg (op id seq width reason : Nat) : Word :=
  field 0 8 op ||| field 8 8 id ||| field 16 16 seq ||| field 32 2 width ||| field 40 8 reason

/-- A request is committed (R127). -/
def State.lmSend (s : State) (n op width seq : Nat) (src : LmSource) : State :=
  let id := (s.stall n).nextMsg
  let s1 := s.modStall n fun x => { x with nextMsg := (id + 1) % 256, lm := some ⟨op, id, width, seq, src, 1, s.now⟩ }
  s1.emit (.linkMsg n (lmMsg op id seq width 0))

/-- An answer to the far end. -/
def State.lmReply (s : State) (n op id reason : Nat) : State := s.emit (.linkMsg n (lmMsg op id 0 0 reason))

/-- A request is under way, or a width change is. -/
def Stall.lmBusy (x : Stall) : Bool := x.lm.isSome || x.goal.isSome || x.switch.isSome || x.retrainDue

/-- An outstanding request is cancelled because a lane lost lock, or its stall is disabled (R133). -/
def State.lmCancel (s : State) (n : Nat) : State :=
  match (s.stall n).lm with
  | none => s
  | some r =>
      let s1 := (s.modStall n fun x => { x with lm := none, goal := none }).lmResult n r.src lrRetrained
      if r.src = .modes then s1.linkDeep n drivenLanes else s1

/-- A lane loses lock (R120, R133). -/
def State.lockLost (s : State) (l : Nat) : State :=
  let n := s.ownerOf l
  ((((s.toTrain l true).put F.LANE_STATUS_LAST_FAIL l 5).countRetrain n).lmCancel n).evalLink n

/-- ACTIVE lanes selected by a mask retrain from the taps in use; all zeros selects every lane (Table 3.12). -/
def State.retrain (s : State) (n mask : Nat) : State :=
  let sel := (s.linkLanes n).filter fun l => mask == 0 || (mask >>> s.laneIdx l) % 2 == 1
  ((s.eachLane sel [lnActive] fun a l => a.toTrain l true).countRetrain n).evalLink n

/-- Once every lane of the width sought is ACTIVE, WIDTH_CHANGE is sent (R131). -/
def State.tryWidth (s : State) (n : Nat) : State :=
  match (s.stall n).goal with
  | none => s
  | some g =>
      let x := s.stall n
      if x.lm.isNone && x.switch.isNone && s.stUp n && ((s.linkLanes n).take (2 ^ g.1)).all (fun l => s.laneSt l == lnActive) then
        s.lmSend n opWidthChange g.1 ((x.rxSeq + 2) % 65536) g.2
      else s

/-- A width is sought: its resting lanes start. -/
def State.seekWidth (s : State) (n w : Nat) (src : LmSource) : State :=
  let s1 := s.modStall n fun x => { x with goal := some (w, src) }
  (s1.eachLane ((s1.linkLanes n).take (2 ^ w)) [lnDisabled, lnDeep] State.laneStart).tryWidth n

/-- GO of STALL_LM_CTRL with OP RETRAIN (R140). -/
def State.goRetrain (s : State) (n : Nat) : State :=
  let s1 := s.put F.STALL_LM_CTRL_RESULT n lrPending
  if (s.stall n).camRetrain then s1.modStall n fun x => { x with retrainDue := true }
  else s1.lmSend n opRetrain 0 0 .software

/-- GO with OP WIDTH_CHANGE (R131); a width above MAX_WIDTH is ILLEGAL. -/
def State.goWidth (s : State) (n : Nat) : State :=
  let w := s.get F.STALL_LM_CTRL_WIDTH n
  if s.maxCode n < w then s.lmResult n .software lrIllegal
  else (s.put F.STALL_LM_CTRL_RESULT n lrPending).seekWidth n w .software

/-- GO with OP ENTER_IDLE or ENTER_DEEP. -/
def State.goRest (s : State) (n op : Nat) : State :=
  (s.put F.STALL_LM_CTRL_RESULT n lrPending).lmSend n op 0 0 .software

/-- An IDLE stall opens its packet path (R132). -/
def State.openPath (s : State) (n : Nat) : State := (s.eachLane (s.linkLanes n) [lnIdle] State.toActive).evalLink n

/-- GO with OP EXIT (R132): a notice from IDLE; from DEEP the lanes wake. -/
def State.goExit (s : State) (n : Nat) : State :=
  let s1 := if s.stState n = lsDeep then s.linkStart n
    else
      let id := (s.stall n).nextMsg
      ((s.modStall n fun x => { x with nextMsg := (id + 1) % 256 }).emit (.linkMsg n (lmMsg opExit id 0 0 0))).openPath n
  s1.lmResult n .software lrDone

/-- A write of STALL_LM_CTRL (Table 3.18). -/
def State.lmCtrlWrite (s : State) (n : Nat) (v m : Word) : State :=
  let s1 := s.wr .STALL_LM_CTRL n (writeFields .STALL_LM_CTRL (s.rd .STALL_LM_CTRL n) v m)
  if !bit (v &&& m) 8 then s1
  else if (s.stall n).lmBusy then s1.lmResult n .software lrIllegal
  else match s1.get F.STALL_LM_CTRL_OP n with
    | 1 => s1.goRetrain n
    | 3 => s1.goWidth n
    | 4 => s1.goRest n opIdle
    | 5 => s1.goRest n opDeep
    | 6 => s1.goExit n
    | _ => s1.lmResult n .software lrIllegal

/-- A write of `v` with OP `op` and GO. -/
def lmGo (v : Word) (op : Nat) : Word := setBits (setBits v 0 4 op) 8 1 1

/-- LM_RETRAIN (R140). -/
def execLmRetrain (n : Fin 16) (v : Word) (s : State) : Result := .next (s.lmCtrlWrite n.val (lmGo v 1) allBytes)

/-- LM_WIDTH_CHANGE (R131, R140). -/
def execLmWidthChange (n : Fin 16) (v : Word) (s : State) : Result := .next (s.lmCtrlWrite n.val (lmGo v 3) allBytes)

/-- LM_ENTER_IDLE (R140). -/
def execLmEnterIdle (n : Fin 16) (v : Word) (s : State) : Result := .next (s.lmCtrlWrite n.val (lmGo v 4) allBytes)

/-- LM_ENTER_DEEP (R140). -/
def execLmEnterDeep (n : Fin 16) (v : Word) (s : State) : Result := .next (s.lmCtrlWrite n.val (lmGo v 5) allBytes)

/-- LM_EXIT (R132). -/
def execLmExit (n : Fin 16) (v : Word) (s : State) : Result := .next (s.lmCtrlWrite n.val (lmGo v 6) allBytes)

/-- LM_ILLEGAL_OP (R140): GO of `v`, whose OP has no meaning, or while another request is in progress. -/
def execLmIllegalOp (n : Fin 16) (v : Word) (s : State) : Result := .next (s.lmCtrlWrite n.val (setBits v 8 1 1) allBytes)

/-! ### Link-management messages received -/

/-- A Training packet's checks: those of its stall (R154), or those of the causeway (R704). -/
def State.lmCheck (s : State) (n : Nat) (msg : Word) (crc : Nat) (errored : Bool) : Bool × State :=
  let p : Rx := ⟨0x31, 0, 0, bytesOfNat 8 msg.toNat, crc, errored, s.now⟩
  if !s.linkOn n then (false, s)
  else if n = cwLink then
    if !(s.widthLanes n).all (fun l => liveLanes.contains (s.laneSt l)) then (false, s)
    else if errored || !p.good then (false, s.inc F.PAIR_COUNT2_CW_DISCARDS)
    else (true, s)
  else s.rxCheck n p

/-- What a message that passes its checks does. -/
def State.lmTake (s : State) (n : Nat) (msg : Word) (crc : BitVec 32) (errored : Bool) (f : State → State) : Result :=
  let r := s.lmCheck n msg crc.toNat errored
  .next (if r.1 then f r.2 else r.2)

/-- STALL_LM_CAMREQ takes a request that was not ACKed (R141). -/
def State.camReq (s : State) (n : Nat) (msg : Word) (reason : Nat) : State :=
  if n < 16 then s.wr .STALL_LM_CAMREQ n (field 0 8 (bits msg 0 8) ||| field 8 2 (bits msg 32 2) ||| field 16 8 reason ||| field 31 1 1) else s

/-- A collision (R128). -/
def State.collide (s : State) (n : Nat) (msg : Word) : State :=
  let s1 := if n < 16 then s.inc F.STALL_LINK_COUNT_SUPERSEDED n else s
  (s1.lmReply n opSuperseded (bits msg 8 8) 0).camReq n msg 0

/-- On the causeway the member with the lower serial number keeps its request (R702); a stall always does. -/
def State.keepsRole (s : State) (n : Nat) : Bool :=
  n != cwLink || decide (s.serial < (s.rd .PAIR_PEER_SERIAL).toNat)

/-- A far end's RETRAIN is ACKed and carried out. -/
def State.farRetrain (s : State) (n : Nat) (msg : Word) : State :=
  let s1 := (s.lmReply n opAck (bits msg 8 8) 0).retrain n (bits msg 34 4)
  if n < 16 ∧ s1.stUp n = false ∧ s1.stState n ≠ lsIdle then s1.modStall n fun x => { x with camRetrain := true } else s1

/-- LM_RETRAIN_RECEIVED (R126, R128, R130, R702). -/
def execLmRetrainReceived (n : Fin 21) (msg : Word) (crc : BitVec 32) (errored : Bool) (s : State) : Result :=
  s.lmTake n.val msg crc errored fun s =>
    match (s.stall n.val).lm with
    | some _ => if s.keepsRole n.val then s.collide n.val msg else (s.modStall n.val fun x => { x with lm := none }).farRetrain n.val msg
    | none => s.farRetrain n.val msg

/-- LM_WIDTH_REQ_RECEIVED (R128, R130, R131). The causeway has no width change (R701). -/
def execLmWidthReqReceived (n : Fin 21) (msg : Word) (crc : BitVec 32) (errored : Bool) (s : State) : Result :=
  s.lmTake n.val msg crc errored fun s =>
    let w := bits msg 32 2
    let nak := fun (reason : Nat) => (s.lmReply n.val opNak (bits msg 8 8) reason).camReq n.val msg reason
    if 16 ≤ n.val then nak 1
    else if (s.stall n.val).lm.isSome then s.collide n.val msg
    else if !s.isOn F.STALL_LM_CTRL_AUTO_GRANT_WIDTH n.val then nak 1
    else if s.maxCode n.val < w then nak 2
    else if (s.stall n.val).lmBusy then nak 4
    else (s.lmReply n.val opAck (bits msg 8 8) 0).seekWidth n.val w .engine

/-- LM_EXIT_RECEIVED (R132). -/
def execLmExitReceived (n : Fin 21) (msg : Word) (crc : BitVec 32) (errored : Bool) (s : State) : Result :=
  s.lmTake n.val msg crc errored fun s => s.openPath n.val

/-- LM_DISALLOWED_RECEIVED (R126): on the causeway ENTER_IDLE and ENTER_DEEP come from an FG-16 and are followed. -/
def execLmDisallowedReceived (n : Fin 21) (msg : Word) (crc : BitVec 32) (errored : Bool) (s : State) : Result :=
  s.lmTake n.val msg crc errored fun s =>
    let op := bits msg 0 8
    if [opRetrain, opWidthReq, opExit, opAck, opNak].contains op then s
    else if n.val = cwLink ∧ op = opIdle then
      ((s.lmReply n.val opAck (bits msg 8 8) 0).eachLane (s.linkLanes n.val) [lnActive] State.toIdle).evalLink n.val
    else if n.val = cwLink ∧ op = opDeep then (s.lmReply n.val opAck (bits msg 8 8) 0).linkDeep n.val liveLanes
    else if n.val = cwLink ∧ op = opSuperseded then
      (if (s.stall n.val).lm.any (fun r => r.id == bits msg 8 8) then s.modStall n.val fun x => { x with lm := none } else s)
    else s.lmReply n.val opNak (bits msg 8 8) 1

/-- The action of an acknowledged request (R120, R127, R131). -/
def State.lmAcked (s : State) (n : Nat) (r : LmReq) : State :=
  let s1 := s.modStall n fun x => { x with lm := none }
  if r.op = opRetrain then
    let s2 := s1.retrain n 0
    if r.src ≠ .software then s2
    else if s2.stUp n || s2.stState n == lsIdle then s2.lmResult n .software lrDone
    else s2.modStall n fun x => { x with retrainDue := true }
  else if r.op = opWidthChange then s1.modStall n fun x => { x with switch := some (r.seq, r.width, r.src) }
  else if r.op = opIdle then
    (((s1.eachLane (s1.linkLanes n) [lnActive] State.toIdle).modStall n fun x => { x with quietPeer := true }).evalLink n).lmResult n r.src lrDone
  else (s1.linkDeep n (if r.src = .modes then drivenLanes else liveLanes)).lmResult n r.src lrDone

/-- LM_ACK_RECEIVED (R127). -/
def execLmAckReceived (n : Fin 21) (msg : Word) (crc : BitVec 32) (errored : Bool) (s : State) : Result :=
  s.lmTake n.val msg crc errored fun s =>
    match (s.stall n.val).lm with
    | some r => if r.id = bits msg 8 8 then s.lmAcked n.val r else s
    | none => s

/-- LM_NAK_RECEIVED (R127, R131). -/
def execLmNakReceived (n : Fin 21) (msg : Word) (crc : BitVec 32) (errored : Bool) (s : State) : Result :=
  s.lmTake n.val msg crc errored fun s =>
    match (s.stall n.val).lm with
    | some r =>
        if r.id = bits msg 8 8 then
          let s1 := (s.modStall n.val fun x => { x with lm := none, goal := none }).lmResult n.val r.src lrNak
          let s2 := (s1.linkLanes n.val).foldl State.followSpare s1
          if r.src = .modes then s2.linkDeep n.val drivenLanes else s2
        else s
    | none => s

/-- LM_RESPONSE_TIMEOUT (R127): 4 µs without a response. -/
def execLmResponseTimeout (n : Fin 21) (s : State) : Result :=
  .next <| match (s.stall n.val).lm with
    | none => s
    | some r =>
        let s1 := s.reach (r.since + 16000)
        if r.sent < 3 then
          (s1.modStall n.val fun x => { x with lm := some { r with sent := r.sent + 1, since := s1.now } }).emit
            (.linkMsg n.val (lmMsg r.op r.id r.seq r.width 0))
        else
          let s2 := (s1.modStall n.val fun x => { x with lm := none, goal := none }).lmResult n.val r.src lrTimeout
          if r.op = opRetrain then s2.retrain n.val 0
          else if r.src = .modes then s2.linkDeep n.val drivenLanes
          else (s2.linkLanes n.val).foldl State.followSpare s2

/-! ### Enabling a stall (R85 to R87, R138) -/

/-- Whether an enable is refused (R87): `r`, `w`, `pp` are the RATE, MAX_WIDTH and PPORT_SEL it would have. -/
def State.linkRefused (s : State) (n r w : Nat) (pp : Bool) : Bool :=
  r == 3 || w == 3 || (w == 2 && (n % 2 == 1 || pp || s.isOn F.STALL_LINK_CFG_ENABLE (n + 1))) || (n % 2 == 1 && s.borrows (n - 1))

/-- Stall n + 1 while stall `n` holds its lanes (R85, Table 3.17). -/
def State.showBorrow (s : State) (n : Nat) (on : Bool) : State :=
  if s.get F.STALL_LINK_CFG_MAX_WIDTH n = 2 ∧ n % 2 = 0 then
    (s.put F.STALL_LINK_STATUS_STATE (n + 1) (if on then lsBorrowed else lsDisabled)).put F.STALL_LINK_STATUS_BORROWED (n + 1) (b2n on)
  else s

/-- A stall is enabled. -/
def State.stallEnable (s : State) (n : Nat) : State :=
  let s1 := ((s.put F.STALL_LINK_CFG_ENABLE n 1).put F.STALL_LINK_STATUS_WIDTH n (s.get F.STALL_LINK_CFG_MAX_WIDTH n)).showBorrow n true
  let s2 := ((s1.put F.STALL_LINK_STATUS_FAULT_CAUSE n 0).put F.STALL_PROTO_STATUS_CAM_STATE n 0).modStall n fun x =>
    { x with ref := none, skip := none, gapPend := false, ppOpen := none, ppLines := 0, ppBad := false, ppId := 0 }
  let s3 := s2.put F.STALL_LINK_STATUS_STATE n lsDown
  if s3.fwdIn n then s3.setLink n (if s3.isOn F.PAIR_STATUS_CAUSEWAY_UP then lsUp else lsDown)
  else if s3.linkOn n then s3.linkStart n
  else if 14 ≤ n ∧ s3.isOn F.PPORT_STATUS_CLK_PRESENT (n - 14) = true then s3.setLink n lsUp
  else s3

/-- A stall is disabled: its lanes go to electrical idle. -/
def State.stallDisable (s : State) (n : Nat) : State :=
  let s1 := s.lmCancel n
  let s2 := (if s.linkOn n then s1.linkStop n else s1).setLink n lsDisabled
  let s3 := s2.modStall n fun x => { x with goal := none, switch := none, camRetrain := false, retrainDue := false, wakeAt := 0, waited := false }
  (((if (s.stall n).retrainDue || (s.stall n).goal.any (fun g => g.2 == .software) then s3.lmResult n .software lrRetrained else s3).put
    F.STALL_LINK_STATUS_FAULT_CAUSE n 0).showBorrow n false).put F.STALL_LINK_CFG_ENABLE n 0

/-- CNT_CLEAR of STALL_LINK_CFG (R143). -/
def State.linkCntClear (s : State) (n : Nat) : State := s.rst .STALL_LINK_COUNT n

/-- A write of STALL_LINK_CFG (R87, R138). -/
def State.linkCfgWrite (s : State) (n : Nat) (v m : Word) : State :=
  let old := s.rd .STALL_LINK_CFG n
  let w := writeFields .STALL_LINK_CFG old v m
  let new := if 14 ≤ n then w else setBits w 8 1 0
  let s0 := if bit (v &&& m) 15 then s.linkCntClear n else s
  let lock : Word := 0x137
  if bit old 9 then
    if !bit new 9 then (s0.stallDisable n).wr .STALL_LINK_CFG n new
    else if old &&& lock = new &&& lock then s0
    else s0.put F.STALL_LINK_STATUS_CFG_REJECTED n 1
  else
    let s1 := s0.wr .STALL_LINK_CFG n (setBits new 9 1 0)
    if !bit new 9 then s1
    else if s1.linkRefused n (bits new 0 2) (bits new 4 2) (bit new 8) then s1.put F.STALL_LINK_STATUS_CFG_REJECTED n 1
    else s1.stallEnable n

/-- STALL_ENABLE (R87): a write of `v` with ENABLE 1. -/
def execStallEnable (n : Fin 16) (v : Word) (s : State) : Result := .next (s.linkCfgWrite n.val (setBits v 9 1 1) allBytes)

/-- STALL_DISABLE (R138): a write of `v` with ENABLE 0. -/
def execStallDisable (n : Fin 16) (v : Word) (s : State) : Result := .next (s.linkCfgWrite n.val (setBits v 9 1 0) allBytes)

/-- STALL_LINK_CNT_CLEAR (R143). -/
def execStallLinkCntClear (n : Fin 16) (s : State) : Result := .next (s.linkCntClear n.val)

/-! ### Waking and training (R107 to R117, R120) -/

/-- CAMERA_WAKE_DETECT (R120). -/
def execCameraWakeDetect (l : Fin 40) (s : State) : Result :=
  .next <|
    let n := s.ownerOf l.val
    if !s.linkOn n || s.laneSt l.val != lnDeep then s
    else if s.lanesOpen then
      (if n = cwLink ∨ s.isOn F.STALL_LM_CTRL_CAM_WAKE_EN n = true then (s.toWake l.val).evalLink n else s)
    else if s.modeAhead = Mode.quiet ∧ n < 16 then s.put F.STALL_LINK_STATUS_CAM_WAKE_SEEN n 1
    else s

/-- FRAME_LOCK (R116, R120): `inverted` is the order found of the frame marker's halves. -/
def execFrameLock (l : Fin 40) (inverted : Bool) (s : State) : Result :=
  .next <|
    if s.laneSt l.val ≠ lnWake then s
    else
      let s1 := s.toTrain l.val false
      (s1.wr .LANE_STATUS l.val (s1.rd .LANE_STATUS l.val ||| 0x70)).put F.LANE_STATUS_RX_INVERTED l.val (b2n inverted)

/-- WAKE_TIMEOUT (R120): `signal`: a signal was present, though no frame lock. -/
def execWakeTimeout (l : Fin 40) (signal : Bool) (s : State) : Result :=
  .next <|
    if s.laneSt l.val ≠ lnWake then s
    else
      let s1 := (s.reach ((s.lane l.val).since + 1000000)).toWait l.val (if signal then 2 else 1)
      s1.put F.LANE_STATUS_SIGNAL_DETECT l.val (b2n signal)

/-- TRAIN_TIMEOUT (R120). -/
def execTrainTimeout (l : Fin 40) (s : State) : Result :=
  .next <|
    if s.laneSt l.val ≠ lnTrain then s
    else
      let n := s.ownerOf l.val
      let s1 := (s.reach ((s.lane l.val).since + 6200000)).toWait l.val 3
      if n < 16 then s1.inc F.STALL_LINK_COUNT_TRAIN_FAILS n else s1

/-- TRAIN_WAIT_EXPIRY (R120). -/
def execTrainWaitExpiry (l : Fin 40) (s : State) : Result :=
  .next <| if s.laneSt l.val ≠ lnWait then s else (s.reach ((s.lane l.val).since + 400000)).toWake l.val

/-- CRC8 of a training field (R111). -/
def trainCrc (f : Nat) : Nat := crcMsb 8 0x07 0 (bytesOfNat 3 f)

/-- A training field with its CRC8. -/
def trainField (f : Nat) : Nat := f % 2 ^ 24 + trainCrc f * 2 ^ 24

def trainGood (f : Nat) : Bool := f / 2 ^ 24 == trainCrc f

/-- One tap's step (R113): its value, and the STAT code. -/
def tapStep (req v lo hi rest : Nat) : Nat × Nat :=
  match req with
  | 1 => if v + 1 ≤ hi ∧ v + 1 + rest ≤ 64 then (v + 1, 1) else (v, 3)
  | 2 => if lo + 1 ≤ v then (v - 1, 1) else (v, 2)
  | _ => (v, 0)

/-- Taps of a preset (R113). -/
def presetTaps : Nat → Option (Nat × Nat × Nat)
  | 1 => some (0, 64, 0)
  | 2 => some (4, 52, 8)
  | 3 => some (8, 44, 12)
  | _ => none

/-- Taps in a register of R146. -/
def firWord (pre main post : Nat) : Word := field 0 5 pre ||| field 8 7 main ||| field 16 5 post

/-- A control request is acted upon (R112 to R114): the taps in use, and the nine STAT bits. -/
def applyRequest (taps : Word) (held : Bool) (c stats : Nat) : Word × Nat :=
  if held then (taps, stats / 64 * 64)
  else match presetTaps (c / 64 % 8) with
    | some (a, b, d) => (firWord a b d, 0x15 + 64 * (c / 64 % 8))
    | none =>
        let pre := bits taps 0 5
        let main := bits taps 8 7
        let post := bits taps 16 5
        let a := tapStep (c % 4) pre 0 16 (main + post)
        let b := tapStep (c / 4 % 4) main 32 64 (a.1 + post)
        let d := tapStep (c / 16 % 4) post 0 24 (a.1 + b.1)
        (firWord a.1 b.1 d.1, a.2 + 4 * b.2 + 16 * d.2 + stats / 64 * 64)

/-- A good control field (R112, R114). -/
def State.takeControl (s : State) (l c : Nat) : State :=
  let n := s.ownerOf l
  let s1 := s.put F.LANE_STATUS_TX_PRECODE_ON l (if s.linkRate n = 2 then 0 else c / 512 % 2)
  let t := c / 16384 % 2 == 1
  if (s1.lane l).acted = t then s1
  else
    let r := applyRequest (s1.rd .LANE_TX_FIR l) (s1.isOn F.LANE_CTRL_TX_FIR_OVERRIDE l) c (s1.lane l).stats
    (s1.wr .LANE_TX_FIR l r.1).modLane l fun x => { x with acted := t, stats := r.2 }

/-- Both receivers are ready: the countdown starts (R117). -/
def State.tryHandoff (s : State) (l : Nat) : State :=
  if s.laneSt l = lnTrain ∧ s.isOn F.LANE_STATUS_LOCAL_RX_READY l = true ∧ 3 ≤ (s.lane l).goodReady then s.toHandoff l else s

/-- A good status field (R110, R117, R120). -/
def State.takeStatus (s : State) (l f : Nat) : State :=
  let n := s.ownerOf l
  let ready := f / 1024 % 2 == 1
  let s1 := (s.put F.LANE_STATUS_RX_PRECODE_ON l (f / 512)).put F.LANE_STATUS_FAR_RX_READY l (b2n ready)
  let s2 := s1.modLane l fun x => { x with goodReady := if ready then x.goodReady + 1 else 0 }
  if s2.laneSt l = lnTrain ∧ ((f / 2048 % 2 == 1) != s2.fecOn n || f / 4096 % 4 != s2.linkRate n) = true then s2.toWait l 4
  else s2.tryHandoff l

/-- The eye as LANE_EYE shows it (R147). -/
def State.setEye (s : State) (l : Nat) (eye : Word) : State :=
  s.wr .LANE_EYE l (eye &&& (if s.linkRate (s.ownerOf l) = 2 then 0x0000FFFFFF00FF00 else 0x0000FFFFFFFFFFFF))

/-- TRAINING_FRAME_RECEIVED (R107 to R117, R147): its control and status fields, the order of its marker's halves and the eye its
receiver measured. In ACTIVE only its marker counts (R120). -/
def execTrainingFrameReceived (l : Fin 40) (control status : BitVec 32) (inverted : Bool) (eye : Word) (s : State) : Result :=
  .next <|
    let st := s.laneSt l.val
    if st = lnActive then
      let s1 := s.modLane l.val fun x => { x with markers := x.markers + 1 }
      if 3 ≤ (s1.lane l.val).markers then s1.lockLost l.val else s1
    else if st = lnTrain ∨ st = lnHandoff then
      let s1 := ((s.wr .LANE_STATUS l.val (s.rd .LANE_STATUS l.val ||| 0x70)).put F.LANE_STATUS_RX_INVERTED l.val (b2n inverted)).setEye l.val eye
      let s2 := if trainGood control.toNat then s1.takeControl l.val control.toNat else s1
      if trainGood status.toNat then s2.takeStatus l.val status.toNat else s2
    else s

/-- The receiver's next request, if it makes one (R115): the first is the preset asked for, unless the lane retrains. -/
def State.nextRequest (s : State) (l : Nat) (req : Option (Fin 64)) : State :=
  let x := s.lane l
  let pre := s.get F.LANE_CTRL_START_PRESET l
  let want : Option Nat := if x.reqs = 0 ∧ x.retrain = false ∧ pre ≠ 0 then some (64 * pre) else req.map Fin.val
  match want with
  | some c => if x.reqs < 128 then s.modLane l fun y => { y with ask := c, reqs := y.reqs + 1, reqToggle := !y.reqToggle } else s
  | none => s

/-- TRAINING_FRAME_SEND (R109, R110, R115, R117): `req`, a new request of the lane's receiver for tap steps; `ready`: it has finished
training. -/
def execTrainingFrameSend (l : Fin 40) (req : Option (Fin 64)) (ready : Bool) (s : State) : Result :=
  .next <|
    let st := s.laneSt l.val
    let n := s.ownerOf l.val
    if !([lnWake, lnTrain, lnHandoff, lnWait, lnFault].contains st) || (st == lnHandoff && (s.lane l.val).hand == 0) then s
    else
      let s1 := if st = lnTrain then (s.nextRequest l.val req).put F.LANE_STATUS_LOCAL_RX_READY l.val (b2n ready) else s
      let x := s1.lane l.val
      let hand := if st = lnHandoff then x.hand - 1 else 0
      let control := x.ask % 512 + 512 * s1.get F.LANE_CTRL_RX_PRECODE_REQ l.val + 16384 * b2n x.reqToggle
      let status := x.stats % 512 + 512 * s1.get F.LANE_STATUS_TX_PRECODE_ON l.val + 1024 * s1.get F.LANE_STATUS_LOCAL_RX_READY l.val +
        2048 * b2n (s1.fecOn n) + 4096 * s1.linkRate n + 16384 * b2n x.acted + 65536 * hand + 1048576 * s1.laneIdx l.val
      let s2 := s1.emit (.trainFrame l.val (trainField control) (trainField status))
      if st = lnHandoff then s2.modLane l.val fun y => { y with hand := if hand ≤ 1 then 0 else hand } else s2.tryHandoff l.val

/-! ### MARK and FILL rows (R101 to R105, R117, R123, R131) -/

/-- A lane in mission: its countdown is over. -/
def State.mission (s : State) (l : Nat) : Bool :=
  liveLanes.contains (s.laneSt l) || (s.laneSt l == lnHandoff && (s.lane l).hand == 0)

/-- MARK_ROW_TRANSMIT (R101, R102). -/
def execMarkRowTransmit (n : Fin 21) (s : State) : Result :=
  .next <|
    if s.linkOn n.val && (s.widthLanes n.val).any s.mission then
      let seq := (s.stall n.val).txSeq
      (s.modStall n.val fun x => { x with txSeq := (seq + 1) % 65536 }).emit (.laneRow n.val 0 seq)
    else s

/-- FILL_ROW_TRANSMIT (R88, R105). -/
def execFillRowTransmit (n : Fin 21) (s : State) : Result :=
  .next <| if s.linkOn n.val && (s.widthLanes n.val).any s.mission then s.emit (.laneRow n.val 1 0) else s

/-- A stall fault of the lane layer (R103, R104). -/
def State.linkFault (s : State) (n cause : Nat) : State :=
  let s1 := s.fault 3 (field 0 8 n ||| field 8 8 cause)
  let s2 := if n < 16 then s1.put F.STALL_LINK_STATUS_FAULT_CAUSE n cause else s1
  let f := fun (a : State) (l : Nat) => if cause = 7 then (a.toTrain l true).put F.LANE_STATUS_LAST_FAIL l 7 else a.toFault l cause
  (s2.eachLane (s2.linkLanes n) (drivenLanes.drop 1) f).evalLink n

/-- A MARK row that is in order: skew is shown, lanes out of handoff become ACTIVE, a pending width applies (R117, R131). -/
def State.markGood (s : State) (n seq : Nat) (skew : List Nat) : State :=
  let s1 := if n < 16 then
      s.wr .STALL_SKEW n ((List.range skew.length).foldl (fun a k => setBits a (8 * k) 8 (min 255 ((skew[k]?).getD 0))) 0) else s
  let s2 := (s1.eachLane ((s1.linkLanes n).filter s1.mission) [lnHandoff] State.toActive)
  let s3 := (s2.linkLanes n).foldl (fun a l => a.modLane l fun x => { x with missed := 0, markers := 0 }) s2
  let s4 := s3.modStall n fun x => { x with rxSeq := seq }
  let s5 := match (s4.stall n).switch with
    | some (q, w, src) =>
        if (seq + 65536 - q) % 65536 < 32768 then
          let a := ((s4.put F.STALL_LINK_STATUS_WIDTH n w).inc F.STALL_LINK_COUNT_WIDTH_CHANGES n).modStall n fun x =>
            { x with switch := none, goal := none }
          (((a.linkLanes n).foldl State.followSpare a)).lmResult n src lrDone
        else s4
    | none => s4
  (s5.evalLink n).tryWidth n

/-- MARK_ROW_RECEIVED (R101 to R104, R117, R123, R131): the MARKER_SEQ of a row, and for each lane of the width, spare lanes after
them, the LANE field it carries and its arrival in ns. -/
def execMarkRowReceived (n : Fin 21) (seq : Fin 65536) (ids : List (Fin 8)) (arrive : List Nat) (s : State) : Result :=
  .next <|
    let w := s.widthLanes n.val
    if !s.linkOn n.val || !w.all s.mission || decide (ids.length < w.length) || decide (arrive.length < w.length) then s
    else if (ids.zip (List.range ids.length)).any (fun p => p.1.val != p.2) then s.linkFault n.val 6
    else
      let a := arrive.take w.length
      let lo := a.foldl min ((a.head?).getD 0)
      let skew := a.map (· - lo)
      if skew.any (fun d => decide (200 < d)) then s.linkFault n.val 7 else s.markGood n.val seq.val skew

/-- MARK_ROW_MISSING (R120, R148): a MARK block expected on lane `l` is missing or malformed. -/
def execMarkRowMissing (l : Fin 40) (s : State) : Result :=
  .next <|
    if !s.mission l.val then s
    else
      let s1 := (s.inc F.LANE_BLOCK_ERR_MARK_ERR l.val).modLane l.val fun x => { x with missed := x.missed + 1 }
      if s1.laneSt l.val = lnActive ∧ 2 ≤ (s1.lane l.val).missed then s1.lockLost l.val else s1

/-! ### Codewords and blocks (R92 to R98, R150, R155) -/

/-- CODEWORD_DECODE (R97, R98, R148): how many symbols of a codeword of lane `l` were in error; above 15 it is uncorrectable. -/
def execCodewordDecode (l : Fin 40) (errors : Nat) (s : State) : Result :=
  .next <|
    if !s.fecOn (s.ownerOf l.val) || !s.mission l.val then s
    else if errors = 0 then s.modLane l.val fun x => { x with uncorr := 0 }
    else if errors ≤ 15 then
      ((s.inc F.LANE_FEC_CW_CORR_COUNT l.val).addSat F.LANE_FEC_SYM_CORR_COUNT l.val errors).modLane l.val fun x => { x with uncorr := 0 }
    else
      let s1 := (s.inc F.LANE_FEC_CW_UNCORR_COUNT l.val).modLane l.val fun x => { x with uncorr := x.uncorr + 1, badBlocks := 20 }
      if s1.laneSt l.val = lnActive ∧ 8 ≤ (s1.lane l.val).uncorr then s1.lockLost l.val else s1

/-- Bits of bytes in transmission order (R95), and back. -/
def bitsOfBytes (l : List Byte) : List Bool := l.flatMap fun b => (List.range 8).map b.getLsbD

def natOfBits (l : List Bool) : Nat := l.foldr (fun b a => b2n b + 2 * a) 0

/-- The self-synchronising descrambler x^58 + x^39 + 1 (R96): bit k of its state is the bit received k + 1 bits ago. -/
def descramble : List Bool → BitVec 58 → List Bool × BitVec 58
  | [], st => ([], st)
  | b :: bs, st =>
      let o := (b != st.getLsbD 38) != st.getLsbD 57
      let r := descramble bs ((st <<< 1) ||| (if b then 1 else 0))
      (o :: r.1, r.2)

/-- A packet in progress ends: one of an unknown type is counted here, the others where they act (R154). -/
def State.packetEnds (s : State) (n : Nat) : State :=
  let x := s.stall n
  let s1 := s.modStall n fun y => { y with need := 0, rxBytes := [], rxErr := false }
  let b := x.rxBytes
  let len := natOfBytes ((b.drop 2).take 2)
  if b = [] then s1
  else if x.rxErr then s1.inc F.STALL_PKT_ERR_ERRORED n
  else if natOfBytes ((b.drop (8 + len)).take 4) ≠ crc32c (b.take (8 + len)) then s1.inc F.STALL_PKT_ERR_CRC_ERR n
  else s1.inc F.STALL_PKT_ERR_BAD_FIELD n

/-- A DATA block of a stall's stream (R150, R155). -/
def State.dataBlock (s : State) (n : Nat) (body : List Byte) (bad : Bool) : State :=
  let x := s.stall n
  if x.lost then s
  else if x.need = 0 then
    let type := natOfBytes (body.take 1)
    let len := natOfBytes ((body.drop 2).take 2)
    let lr := (lenRange type).getD (0, 65268)
    if bad ∨ len < lr.1 ∨ lr.2 < len then s.loseAlign n
    else
      let known := (lenRange type).isSome
      let s1 := s.modStall n fun y => { y with need := (len + 12 + 31) / 32 - 1, rxBytes := if known then [] else body, rxErr := false }
      if (s1.stall n).need = 0 then s1.packetEnds n else s1
  else
    let s1 := s.modStall n fun y =>
      { y with need := y.need - 1, rxBytes := if y.rxBytes = [] then [] else y.rxBytes ++ body, rxErr := y.rxErr || bad }
    if x.need = 1 then s1.packetEnds n else s1

/-- A FILL block of a stall's stream (R155). -/
def State.fillBlock (s : State) (n : Nat) : State :=
  let x := s.stall n
  if x.lost then s.modStall n fun y => { y with lost := false }
  else if x.need = 0 then s
  else (s.loseAlign n).modStall n fun y => { y with lost := false }

/-- BLOCK_RECEIVE (R92 to R96, R98, R101, R106, R150, R155): a block's header bit and body as they came. -/
def execBlockReceive (l : Fin 40) (header : Bool) (body : List Byte) (s : State) : Result :=
  .next <|
    let n := s.ownerOf l.val
    let x := s.lane l.val
    if !(s.linkOn n) || !(liveLanes.contains (s.laneSt l.val) || s.laneSt l.val == lnHandoff) then s
    else
      let d := descramble (bitsOfBytes body) x.scramble
      let plain := bytesOfNat body.length (natOfBits d.1)
      let s1 := s.modLane l.val fun y => { y with scramble := d.2, badBlocks := y.badBlocks - 1 }
      let errored := x.badBlocks != 0
      let type := natOfBytes (plain.take 1)
      let odd := !header && !errored && type != 0x1E && type != 0x2D
      let s2 := if odd then s1.inc F.LANE_BLOCK_ERR_CTRL_TYPE_ERR l.val else s1
      if 16 ≤ n ∨ s2.stUp n = false ∧ s2.stState n ≠ lsIdle ∨ 2 ^ s2.widthCode n ≤ s2.laneIdx l.val then s2
      else if errored || odd then s2.dataBlock n plain true
      else if header then s2.dataBlock n plain false
      else if type = 0x1E then s2.fillBlock n
      else s2

/-- QUIET_READY_TIMEOUT (R122): 2 ms have passed since the stall's lanes entered WAKE. -/
def execQuietReadyTimeout (n : Fin 16) (s : State) : Result :=
  .next <|
    if !s.linkOn n.val || (s.stall n.val).waited then s
    else (s.reach ((s.stall n.val).wakeAt + 8000000)).modStall n.val fun x => { x with waited := true }

/-! ### Test patterns and lane registers (R134 to R136, R144 to R149) -/

/-- A lane's tests may run: its stall, or the pair, is not enabled (R120, R717). -/
def State.testAllowed (s : State) (l : Nat) : Bool :=
  if 32 ≤ l then !s.isOn F.PAIR_CFG_ENABLE else !s.isOn F.STALL_LINK_CFG_ENABLE (s.ownerOf l)

/-- CNT_CLEAR of LANE_CTRL (R148). -/
def State.laneCntClear (s : State) (l : Nat) : State :=
  (((s.rst .LANE_FEC_CW_CORR l).rst .LANE_FEC_CW_UNCORR l).rst .LANE_FEC_SYM_CORR l).rst .LANE_BLOCK_ERR l

/-- TX_FIR_OVERRIDE and TEST use the taps of LANE_TX_FIR_SET (R134, Table 3.19). -/
def State.heldTaps (s : State) (l : Nat) : State :=
  if s.isOn F.LANE_CTRL_TX_FIR_OVERRIDE l || s.laneSt l == lnTest then s.wr .LANE_TX_FIR l (s.rd .LANE_TX_FIR_SET l) else s

/-- A write of LANE_CTRL (Table 3.19). -/
def State.laneCtrlWrite (s : State) (l : Nat) (v m : Word) : State :=
  let s1 := s.wr .LANE_CTRL l (writeFields .LANE_CTRL (s.rd .LANE_CTRL l) v m)
  let s2 := if bit (v &&& m) 15 then s1.laneCntClear l else s1
  let test := s2.isOn F.LANE_CTRL_TEST_EN l
  let s3 := if test && s2.laneSt l == lnDisabled && s2.testAllowed l && !(s2.ctl.mode == .reset || s2.ctl.mode == .boot) then
      s2.laneEnter l lnTest 0
    else if !test && s2.laneSt l == lnTest then
      ((s2.toDisabled l).put F.LANE_PAT_CTRL_CHK_LOCK l 0).laneStart l
    else s2
  let s4 := if s3.linkOn (s3.ownerOf l) && l < 32 then s3.followSpare l else s3
  s4.heldTaps l

/-- A write of LANE_TX_FIR_SET. -/
def State.firSetWrite (s : State) (l : Nat) (v m : Word) : State :=
  (s.wr .LANE_TX_FIR_SET l (writeFields .LANE_TX_FIR_SET (s.rd .LANE_TX_FIR_SET l) v m)).heldTaps l

/-- The pattern generator and checker of a lane run a pattern it has (R134). -/
def State.patternOn (s : State) (l : Nat) : Bool :=
  s.laneSt l == lnTest && decide (s.get F.LANE_PAT_CTRL_PATTERN l ≤ 5) &&
    !(s.get F.LANE_PAT_CTRL_PATTERN l == 5 && s.linkRate (s.ownerOf l) == 2)

/-- A write of LANE_PAT_CTRL (R136, Table 3.21). -/
def State.patCtrlWrite (s : State) (l : Nat) (v m : Word) : State :=
  let s1 := s.wr .LANE_PAT_CTRL l (writeFields .LANE_PAT_CTRL (s.rd .LANE_PAT_CTRL l) v m)
  let s2 := if s1.patternOn l && s1.isOn F.LANE_PAT_CTRL_CHK_EN l then s1 else s1.put F.LANE_PAT_CTRL_CHK_LOCK l 0
  let mode := s2.get F.LANE_PAT_CTRL_INJ_MODE l
  let acts := (s2.patternOn l && s2.isOn F.LANE_PAT_CTRL_GEN_EN l) || s2.laneSt l == lnActive
  let arg := if mode = 1 then 1 else if mode = 2 then s2.get F.LANE_PAT_CTRL_INJ_BURST_LEN l + 1
    else max 3 (min 12 (s2.get F.LANE_PAT_CTRL_INJ_RATE_EXP l))
  let s3 := if bit (v &&& m) 8 && mode != 0 && acts then s2.emit (.inject l mode arg) else s2
  if mode = 3 then s3 else s3.put F.LANE_PAT_CTRL_INJ_GO l 0

/-- LANE_TEST_ENTER (R120, R134): a write of `v` with TEST_EN 1. -/
def execLaneTestEnter (l : Fin 40) (v : Word) (s : State) : Result := .next (s.laneCtrlWrite l.val (setBits v 6 1 1) allBytes)

/-- LANE_TEST_EXIT (R120): a write of `v` with TEST_EN 0. -/
def execLaneTestExit (l : Fin 40) (v : Word) (s : State) : Result := .next (s.laneCtrlWrite l.val (setBits v 6 1 0) allBytes)

/-- LANE_CNT_CLEAR (R148). -/
def execLaneCntClear (l : Fin 40) (s : State) : Result := .next (s.laneCntClear l.val)

/-- LANE_INJECT_GO (R136): a write of `v` with INJ_GO 1. -/
def execLaneInjectGo (l : Fin 40) (v : Word) (s : State) : Result := .next (s.patCtrlWrite l.val (setBits v 8 1 1) allBytes)

/-- CHECKER_LOCK (R135): the checker compares `ui` UI, at most 1,024, of which `bad` are in error with `errs` errored bits. -/
def execCheckerLock (l : Fin 40) (ui bad : Fin 1025) (errs : Nat) (s : State) : Result :=
  .next <|
    if !s.patternOn l.val || !s.isOn F.LANE_PAT_CTRL_CHK_EN l.val then s
    else
      let per := if s.linkRate (s.ownerOf l.val) = 2 then 1 else 2
      if s.isOn F.LANE_PAT_CTRL_CHK_LOCK l.val then
        let s1 := (s.addSat F.LANE_PAT_BITS_COUNT l.val (per * ui.val)).addSat F.LANE_PAT_ERR_COUNT l.val errs
        if 256 < bad.val then s1.put F.LANE_PAT_CTRL_CHK_LOCK l.val 0 else s1
      else if bad.val = 0 ∧ 64 ≤ ui.val then
        (s.put F.LANE_PAT_CTRL_CHK_LOCK l.val 1).addSat F.LANE_PAT_BITS_COUNT l.val (per * (ui.val - 64))
      else s

/-- A read of LANE_PAT_BITS or LANE_PAT_ERR clears it (R149). -/
def State.patRead (s : State) (l : Nat) (err : Bool) : Word × State :=
  let r : Reg := if err then .LANE_PAT_ERR else .LANE_PAT_BITS
  (s.rd r l, s.rst r l)

/-- PAT_COUNTER_READ (R149). -/
def execPatCounterRead (l : Fin 40) (err : Bool) (s : State) : Result :=
  .next <|
    let r := s.patRead l.val err
    r.2.answer (if 32 ≤ l.val then 1 else 0) r.1

/-- LANE_EYE_UPDATE (R147). -/
def execLaneEyeUpdate (l : Fin 40) (eye : Word) (s : State) : Result :=
  .next (if liveLanes.contains (s.laneSt l.val) then s.setEye l.val eye else s)

/-! ### Camera lost (R182) -/

/-- CAMERA_LOST (R182): 10 µs without a good Heartbeat on an UP stall. -/
def execCameraLost (n : Fin 16) (s : State) : Result :=
  .next <| match (s.stall n.val).hbRx with
    | none => s
    | some t =>
        if !s.linkOn n.val || !s.stUp n.val || (s.stall n.val).quietPeer then s
        else
          let s1 := s.reach (t + 40000)
          let s2 := ((s1.put F.STALL_PROTO_STATUS_CAM_STATE n.val 2).put F.STALL_PROTO_STATUS_CAM_LOST_SEEN n.val 1).fault 4 (field 0 8 n.val)
          let s3 := ((s2.closeFrame n.val true).ctlAbort n.val crLinkLost).lmCancel n.val
          let id := (s3.stall n.val).nextMsg
          let s4 := (s3.modStall n.val fun x => { x with nextMsg := (id + 1) % 256, hbRx := none }).emit
            (.linkMsg n.val (lmMsg opRetrain id 0 0 0))
          ((s4.eachLane (s4.widthLanes n.val) [lnActive] fun a l => a.toTrain l true).countRetrain n.val).evalLink n.val

/-! ### The mode controller and the lanes (R122) -/

/-- Links that run on lanes. -/
def State.links (s : State) : List Nat := ((List.range 16) ++ [cwLink]).filter s.linkOn

/-- Entry to QUIET: ENTER_DEEP on every UP stall, every other lane straight to DEEP. -/
def State.lanesQuiet (s : State) : State :=
  s.links.foldl (fun a n =>
    if n < 16 ∧ a.stUp n = true then (a.lmCancel n).lmSend n opDeep 0 0 .modes else a.linkDeep n drivenLanes) s

/-- Entry to READY from QUIET or HOLD: resting lanes wake. -/
def State.lanesReady (s : State) : State := s.links.foldl State.linkStart s

/-- Whether no stall holds back the end of QUIET to READY (R122). -/
def State.lanesSettled (s : State) : Bool := (List.range 16).all fun n => !s.linkOn n || s.stUp n || (s.stall n).waited

end Sys2Proof.Machine
end

