-- ==== Sys2Proof/Machine/Pport.lean ====
section
/-! DEFINITION. The parallel ports of stalls 14 and 15 (R185 to R187, R200 to R202). A port's lines and frame ends act as the packets
of a camera would (R162, R163, R165). -/

namespace Sys2Proof.Machine

/-- The port's stall runs the port and is UP, with frames taken (R86, R122). -/
def State.ppOn (s : State) (p : Nat) : Bool := s.isOn F.STALL_LINK_CFG_PPORT_SEL (14 + p) && s.stUp (14 + p) && !s.inHold

/-- WIDTH and HEIGHT of a port; 0 acts as 1 (R202). -/
def State.ppWidth (s : State) (p : Nat) : Nat := max 1 (s.get F.PPORT_GEOM_WIDTH p)

def State.ppHeight (s : State) (p : Nat) : Nat := max 1 (s.get F.PPORT_GEOM_HEIGHT p)

/-- PPORT_FRAME_V_ASSERT (R162, R165, R186): FRAME_V is seen asserted at `tick`. -/
def execPportFrameVAssert (p : Fin 2) (tick : Nat) (s : State) : Result :=
  .next <|
    let s0 := (s.reach tick).put F.PPORT_STATUS_IN_FRAME p.val 1
    let n := 14 + p.val
    if !s.ppOn p.val then s0
    else
      let x := s0.stall n
      let h : FrameHdr :=
        { id := x.ppId, width := s.ppWidth p.val, height := s.ppHeight p.val, depth := min 4 (s.get F.PPORT_CFG_DEPTH p.val), packing := 0
          expIndex := 0, expCount := 0
          start := (tick + 2 ^ 64 - ticksPerUs * s.get F.PPORT_CFG_EXP_OFFSET p.val) % 2 ^ 64
          triggered := false, posTick := none, encLate := false }
      let s1 := (s0.closeFrame n true).modStall n fun y =>
        { y with ppId := (y.ppId + 1) % 2 ^ 32, ppOpen := some x.ppId, ppLines := 0, ppBad := false }
      if (s1.stall n).frame.isSome then s1.modStall n fun y => { y with held := some h, heldPkts := [] } else s1.judgeFrame n h

/-- Words of the two clock edges in order, earlier first (R185). -/
def interleave {α : Type} : List α → List α → List α
  | [], b => b
  | a :: as, b => a :: (match b with | [] => as | c :: cs => c :: interleave as cs)

/-- Pixels of captured words (R185, R200). -/
def State.ppPixels (s : State) (p : Nat) (rise fall : List (BitVec 16)) : List Nat :=
  let ws := if s.isOn F.PPORT_CFG_FIRST_EDGE p then interleave fall rise else interleave rise fall
  let d := depthBits (min 4 (s.get F.PPORT_CFG_DEPTH p))
  if s.isOn F.PPORT_CFG_PACK p && d == 8 then ws.flatMap fun w => [w.toNat % 256, w.toNat / 256]
  else ws.map fun w => w.toNat % 2 ^ d

/-- A geometry error of the frame in progress (R186, R201). -/
def State.ppErr (s : State) (p : Nat) : State :=
  (s.put F.PPORT_STATUS_GEOM_ERR p 1).modStall (14 + p) fun y => { y with ppBad := true }

/-- PPORT_LINE_END (R185, R186): the words captured on rising and on falling edges while LINE_V was asserted. -/
def execPportLineEnd (p : Fin 2) (rise fall : List (BitVec 16)) (s : State) : Result :=
  .next <|
    let n := 14 + p.val
    match (s.stall n).ppOpen with
    | none => s
    | some id =>
        if !s.ppOn p.val then s
        else
          let line := (s.stall n).ppLines
          let w := s.ppWidth p.val
          let px := s.ppPixels p.val rise fall
          let s1 := s.modStall n fun y => { y with ppLines := line + 1 }
          if s.ppHeight p.val ≤ line then s1.ppErr p.val
          else
            let s2 := if px.length < w then (s1.ppErr p.val).inc F.PPORT_COUNT_SHORT_LINES p.val
              else if w < px.length then (s1.ppErr p.val).inc F.PPORT_COUNT_LONG_LINES p.val else s1
            s2.framePacket n ⟨0x02, id % 256, line, (px.take w).flatMap (bytesOfNat 2), 0, false, s.now⟩

/-- PPORT_FRAME_V_RELEASE (R186). -/
def execPportFrameVRelease (p : Fin 2) (s : State) : Result :=
  .next <|
    let n := 14 + p.val
    let s0 := s.put F.PPORT_STATUS_IN_FRAME p.val 0
    match (s.stall n).ppOpen with
    | none => s0
    | some id =>
        let x := s.stall n
        let h := s.ppHeight p.val
        let s1 := if x.ppLines < h then s0.ppErr p.val else s0
        let bad := x.ppBad || decide (x.ppLines < h)
        let s2 := (s1.incWrap F.PPORT_COUNT_FRAMES p.val).modStall n fun y => { y with ppOpen := none }
        if s.ppOn p.val then
          s2.framePacket n ⟨0x03, id % 256, id, bytesOfNat 4 (min x.ppLines h) ++ bytesOfNat 4 (b2n bad), 0, false, s.now⟩
        else s2

/-- PPORT_CLOCK_UP (R187). -/
def execPportClockUp (p : Fin 2) (s : State) : Result :=
  .next <|
    let n := 14 + p.val
    let s1 := s.put F.PPORT_STATUS_CLK_PRESENT p.val 1
    if s.isOn F.STALL_LINK_CFG_ENABLE n && s.isOn F.STALL_LINK_CFG_PPORT_SEL n then s1.setLink n lsUp else s1

/-- PPORT_CLOCK_LOST (R162, R187, R201). -/
def execPportClockLost (p : Fin 2) (s : State) : Result :=
  .next <|
    let n := 14 + p.val
    let s1 := ((s.put F.PPORT_STATUS_CLK_PRESENT p.val 0).put F.PPORT_STATUS_CLK_LOST p.val 1).modStall n fun y => { y with ppOpen := none }
    if s.isOn F.STALL_LINK_CFG_ENABLE n && s.isOn F.STALL_LINK_CFG_PPORT_SEL n then s1.setLink n lsDown else s1

end Sys2Proof.Machine
end

