-- ==== Sys2Proof/Machine/Analogue.lean ====
section
/-! DEFINITION. Analogue capture (chapter 7): converters, runs, urgent conversions, calibration, and the virtual stalls 16 to 19. -/

namespace Sys2Proof.Machine

def State.adc (s : State) (n : Nat) : Adc := Tab.get Adc.zero s.adcs n

def State.modAdc (s : State) (n : Nat) (f : Adc → Adc) : State := { s with adcs := Tab.set Adc.zero s.adcs n (f (s.adc n)) }

def State.vst (s : State) (v : Nat) : Vst := Tab.get Vst.zero s.vsts v

def State.modVst (s : State) (v : Nat) (f : Vst → Vst) : State := { s with vsts := Tab.set Vst.zero s.vsts v (f (s.vst v)) }

/-- The states of a converter (Table 7.8). -/
def asOff : Nat := 0
def asIdle : Nat := 1
def asRunning : Nat := 2
def asUrgent : Nat := 3
def asCal : Nat := 4
def asWaking : Nat := 5

def State.adcSt (s : State) (n : Nat) : Nat := s.get F.ADC_STATUS_STATE n

def State.adcTo (s : State) (n st : Nat) : State := s.put F.ADC_STATUS_STATE n st

/-! ### The sample lattice and the correction (R310, R312, R315) -/

/-- The first lattice instant at or after start tick `t` plus 1,600 ticks. -/
def firstSample (low : Bool) (t : Nat) : Nat :=
  let q := if low then 40 else 5
  (t + 1600 + q - 1) / q * q

/-- How many samples of a run lie before instant `e`. -/
def samplesBefore (low : Bool) (t0 e : Nat) : Nat := if low then (e - t0 + 39) / 40 else (2 * (e - t0) + 4) / 5

/-- The instant of sample `k`, rounded up to a tick. -/
def sampleAt (low : Bool) (t0 k : Nat) : Nat := if low then t0 + 40 * k else t0 + (5 * k + 1) / 2

def State.adcLow (s : State) (n : Nat) : Bool := s.isOn F.ADC_STATUS_LOWPWR_ACTIVE n

/-- A corrected sample and whether it saturated (R315). -/
def correct (offset : Int) (gain : Nat) (x : BitVec 14) : Int × Bool :=
  let y := ((x.toInt + offset) * gain + 2 ^ 15) / 2 ^ 16
  if y < -8192 then (-8192, true) else if 8191 < y then (8191, true) else (y, false)

/-- The coefficient pair of an input (R315, R343). -/
def State.coef (s : State) (n input : Nat) : Int × Nat :=
  (signed 16 (s.get F.ADC_COEF_OFFSET (7 * n + input)), s.get F.ADC_COEF_GAIN (7 * n + input))

/-- A run's samples, corrected; saturated ones are counted and flag the run. -/
def State.correctRun (s : State) (n : Nat) (xs : List (BitVec 14)) : List Int × State :=
  let a := s.adc n
  let ys := xs.map (correct a.offset a.gain)
  let c := (ys.filter (·.2)).length
  (ys.map (·.1), (s.addSat F.ADC_COUNT_CLIP n c).modAdc n fun b => { b with clipped := b.clipped || c != 0 })

/-! ### Virtual stalls and their members (R329, R330) -/

def State.vstOn (s : State) (v : Nat) : Bool := s.isOn F.VST_CFG_ENABLE v

def State.vstMembers (s : State) (v : Nat) : List Nat := (List.range 8).filter fun k => bit (s.rd .VST_CFG v) k

/-- The enabled virtual stall that converter `n` is a member of. -/
def State.vstOf (s : State) (n : Nat) : Option Nat := (List.range 4).find? fun v => s.vstOn v && (s.vstMembers v).contains n

/-- The lead of a virtual stall. -/
def State.vstLead (s : State) (v : Nat) : Option Nat := (s.vstMembers v).head?

/-- Pixels per frame, and the width of a frame (R333). -/
def State.vstWidth (s : State) (v : Nat) : Nat :=
  (if s.isOn F.VST_CFG_COMBINE v then 1 else (s.vstMembers v).length) * s.get F.VST_GEOM_SCAN_W v

def State.vstArea (s : State) (v : Nat) : Nat := s.get F.VST_GEOM_SCAN_W v * s.get F.VST_GEOM_SCAN_H v

/-- The first instant of pixel `p` of a run with TIMING INTERNAL (R331). -/
def State.pixelAt (s : State) (v p : Nat) : Nat :=
  let w := s.get F.VST_GEOM_SCAN_W v
  let d := s.get F.VST_TIMING_DWELL v
  let l := w * d + s.get F.VST_TIMING_LINE_GAP v
  let f := s.get F.VST_GEOM_SCAN_H v * l + ticksPerUs * s.get F.VST_GEOM_FRAME_GAP v
  (s.vst v).t0 + p / s.vstArea v * f + p % s.vstArea v / w * l + p % w * d

/-- A stall's packet of its own making meets its frame as a camera's would (R334). -/
def State.vstPacket (s : State) (v type param : Nat) (body : List Byte) : State :=
  s.framePacket (16 + v) ⟨type, ((s.vst v).nextId + 2 ^ 32 - 1) % 256, param, body, 0, false, s.now⟩

/-- A virtual stall's frame closes (R334, R335): `bad`, before its last pixel. -/
def State.vstClose (s : State) (v : Nat) (bad : Bool) : State :=
  if (s.vst v).frameOpen then
    let id := ((s.vst v).nextId + 2 ^ 32 - 1) % 2 ^ 32
    (s.vstPacket v 0x03 id (bytesOfNat 4 ((s.vst v).px / s.get F.VST_GEOM_SCAN_W v % s.get F.VST_GEOM_SCAN_H v +
      (if bad then 0 else s.get F.VST_GEOM_SCAN_H v)) ++ bytesOfNat 4 (b2n bad))).modVst v fun x => { x with frameOpen := false, line := [] }
  else s

/-! ### Starting a run (R312, R313, R316, R319, R322, R330) -/

/-- A start that is ignored. -/
def State.startIgnored (s : State) (n : Nat) : State := s.inc F.ADC_COUNT_START_IGNORED n

/-- An urgent request is dropped (R319). -/
def State.urgentDrop (s : State) (n : Nat) : State := (s.inc F.ADC_COUNT_URGENT_DROP n).raiseYard (401 + 2 * n) s.now

/-- A run begins, latching INPUT and its coefficients. -/
def State.runStart (s : State) (n tick : Nat) (v : Option Nat) : State :=
  let input := s.get F.ADC_CFG_INPUT n
  let c := s.coef n input
  let t0 := firstSample (s.adcLow n) tick
  let s1 := ((s.adcTo n asRunning).put F.ADC_STATUS_RUN_INPUT n input).wr .ADC_RUN_INFO n (BitVec.ofNat 64 t0)
  (s1.incWrap F.ADC_COUNT_RUNS n).modAdc n fun a =>
    { a with start := tick, t0 := t0, stopAt := none, modeEnd := false, offset := c.1, gain := c.2, len := s.get F.ADC_RUN_LEN_LEN n
             dest := s.get F.ADC_CFG_DEST n, taken := 0, startOff := s.get F.ADC_BUF_POS_WR_OFFSET n % 2 ^ s.get F.ADC_BUF_SIZE_LOG2 n
             startWraps := s.get F.ADC_BUF_POS_WRAPS n, clipped := false, vst := v, arrived := s.now }

/-- DEST asks for a record buffer that ADC_BUF does not give (R322). -/
def State.badBuffer (s : State) (n : Nat) : Bool :=
  let z := s.get F.ADC_BUF_SIZE_LOG2 n
  s.get F.ADC_CFG_DEST n != 1 && (decide (z < 16) || decide (34 < z))

/-- A start meets one converter (Table 7.2); whether a run began. -/
def State.startOne (s : State) (n tick : Nat) (v : Option Nat) : Bool × State :=
  let st := s.adcSt n
  if st = asOff then (false, s)
  else if s.inHold then (false, s.startIgnored n)
  else if st = asRunning ∧ (s.adc n).taken = 0 ∧ (s.adc n).arrived / 10 = s.now / 10 then
    if tick < (s.adc n).start then
      (true, (s.modAdc n fun a => { a with start := tick, t0 := firstSample (s.adcLow n) tick }).wr .ADC_RUN_INFO n
        (BitVec.ofNat 64 (firstSample (s.adcLow n) tick)))
    else (false, s)
  else if st ≠ asIdle ∧ st ≠ asUrgent then (false, s.startIgnored n)
  else if s.badBuffer n then (false, (s.startIgnored n).put F.ADC_STATUS_CFG_REJECTED n 1)
  else (true, (if st = asUrgent then s.urgentDrop n else s).runStart n tick v)

/-- A start (R330): the lead of a virtual stall starts every member. -/
def State.adcStart (s : State) (n tick : Nat) : State :=
  match s.vstOf n with
  | none => (s.startOne n tick none).2
  | some v =>
      if s.vstLead v ≠ some n then (if s.adcSt n = asOff then s else s.startIgnored n)
      else
        let r := s.startOne n tick (some v)
        if !r.1 then r.2
        else
          let s1 := ((s.vstMembers v).drop 1).foldl (fun a m => (a.startOne m tick (some v)).2) r.2
          (s1.put F.VST_STATUS_STATE v 2).modVst v fun x =>
            { x with t0 := (s1.adc n).t0, px := 0, began := tick + 1600, line := [], frameOpen := false, ending := none }

/-- A stop at tick `t` (R317). -/
def State.stopOne (s : State) (n t : Nat) : State :=
  if s.adcSt n = asRunning then
    s.modAdc n fun a => { a with stopAt := some (match a.stopAt with | some u => min u (t + 1600) | none => t + 1600) }
  else s

/-- A stop; one of a lead stops every member (R330). -/
def State.adcStop (s : State) (n t : Nat) : State :=
  match s.vstOf n with
  | some v =>
      if s.vstLead v = some n ∧ s.adcSt n = asRunning then
        ((s.vstMembers v).foldl (fun a m => a.stopOne m t) s).modVst v fun x =>
          { x with ending := some (match x.ending with | some u => min u (t + 1600) | none => t + 1600) }
      else s.stopOne n t
  | none => s.stopOne n t

/-- ADC_YARD_START (R312, R313, R319, R605). -/
def execAdcYardStart (n : Fin 8) (s : State) : Result :=
  .next <|
    if s.isOn F.ADC_CFG_CONS_URGENT n.val then s
    else
      let pixel := match s.vstOf n.val with
        | some v => s.vstLead v == some n.val && s.isOn F.VST_CFG_TIMING v && s.adcSt n.val == asRunning && !(s.adc n.val).modeEnd
        | none => false
      if pixel then s
      else match s.takeEvent (304 + n.val) with
        | none => s
        | some (t, s1) => s1.adcStart n.val t

/-- A write of ADC_CTRL (R337). -/
def State.adcCtrlWrite (s : State) (n : Nat) (e : Word) : State :=
  let s1 := if bit e 2 then s.rst .ADC_COUNT n else s
  let s2 := if bit e 1 then s1.adcStop n s1.now else s1
  if bit e 0 then s2.adcStart n s2.now else s2

/-- A write of ADC_GLOBAL_START (R337): all bits share one tick. -/
def State.adcGlobalWrite (s : State) (e : Word) : State :=
  let s1 := (List.range 8).foldl (fun a k => if bit e (8 + k) then a.adcStop k s.now else a) s
  (List.range 8).foldl (fun a k => if bit e k then a.adcStart k s.now else a) s1

/-- ADC_CTRL_START (R312, R316, R337). -/
def execAdcCtrlStart (n : Fin 8) (s : State) : Result := .next (s.adcCtrlWrite n.val 1)

/-- ADC_CTRL_STOP (R317, R337). -/
def execAdcCtrlStop (n : Fin 8) (s : State) : Result := .next (s.adcCtrlWrite n.val 2)

/-- ADC_CNT_CLEAR (R337). -/
def execAdcCntClear (n : Fin 8) (s : State) : Result := .next (s.adcCtrlWrite n.val 4)

/-- ADC_GLOBAL_START (R313, R337). -/
def execAdcGlobalStart (mask : BitVec 8) (s : State) : Result := .next (s.adcGlobalWrite (mask.zeroExtend 64))

/-- ADC_GLOBAL_STOP (R317, R337). -/
def execAdcGlobalStop (mask : BitVec 8) (s : State) : Result := .next (s.adcGlobalWrite (mask.zeroExtend 64 <<< 8))

/-! ### Recording and the end of a run (R320 to R324) -/

/-- A 64-byte unit is written and WR_OFFSET passes it (R320, R321). -/
def State.writeUnit (s : State) (n : Nat) (ys : List Int) : State :=
  let size := 2 ^ s.get F.ADC_BUF_SIZE_LOG2 n
  let base := s.get F.ADC_BUF_BASE n * 2 ^ 16
  let off := s.get F.ADC_BUF_POS_WR_OFFSET n
  let pad := List.replicate (32 - ys.length) (0x8000 : Nat)
  let bytes := (ys.map (unsigned 16) ++ pad).flatMap (bytesOfNat 2)
  let s1 := s.engineWriteBytes 9 (base + off % size) bytes
  let next := (off + 64) % size
  let s2 := s1.put F.ADC_BUF_POS_WR_OFFSET n next
  if next = 0 then s2.incWrap F.ADC_BUF_POS_WRAPS n else s2

/-- The instant from which a run takes no sample, if its end is known: a stop, or the end of the scan it runs for. -/
def State.runStop (s : State) (n : Nat) : Option Nat :=
  let a := s.adc n
  match a.vst, a.stopAt with
  | none, t => t
  | some v, none => (s.vst v).ending
  | some v, some t => match (s.vst v).ending with | some u => some (min t u) | none => some t

/-- The samples of a run, if its end is known (R317, R331). -/
def State.runLimit (s : State) (n : Nat) : Option Nat :=
  let a := s.adc n
  let k := (s.runStop n).map (samplesBefore (s.adcLow n) a.t0)
  if a.vst.isNone && a.len != 0 then some (min a.len (k.getD a.len)) else k

/-- ADC_UNIT_COMMIT (R315, R320, R321): the next 32 mismatch-corrected samples of a recording run. -/
def execAdcUnitCommit (n : Fin 8) (xs : List (BitVec 14)) (s : State) : Result :=
  .next <|
    let a := s.adc n.val
    let ended := match s.runLimit n.val with | some k => decide (k < a.taken + 32) | none => false
    if s.adcSt n.val ≠ asRunning ∨ a.dest = 1 ∨ xs.length ≠ 32 ∨ ended = true then s
    else
      let r := (s.reach (sampleAt (s.adcLow n.val) a.t0 (a.taken + 31))).correctRun n.val xs
      (r.2.writeUnit n.val r.1).modAdc n.val fun b => { b with taken := b.taken + 32 }

/-- Whether a run that takes `k` samples ends by a stop (R317, Table 7.3). -/
def State.runStopped (s : State) (n k : Nat) : Bool :=
  let a := s.adc n
  match a.stopAt with
  | none => false
  | some t => match a.vst with
    | some v => (match (s.vst v).ending with | some u => decide (t ≤ u) | none => true)
    | none => a.len == 0 || decide (k < a.len)

/-- The last step of a run (R323, R324): its record, its producer; the converter is IDLE. -/
def State.runRecord (s : State) (n samples : Nat) (stopped : Bool) : State :=
  let a := s.adc n
  let scan := a.dest == 1
  let ws : List Word :=
    [field 0 8 0x07 ||| field 8 3 n ||| field 12 3 (s.get F.ADC_STATUS_RUN_INPUT n) ||| field 16 2 a.dest |||
      field 18 1 (b2n (s.adcLow n)) ||| field 19 1 (b2n stopped) ||| field 20 1 (b2n a.clipped) ||| field 32 8 0x01,
     BitVec.ofNat 64 a.t0,
     if scan then 0 else field 0 34 a.startOff ||| field 34 30 a.startWraps,
     field 0 48 samples]
  let s1 := ((s.put F.ADC_STATUS_LAST_STOPPED n (b2n stopped)).put F.ADC_STATUS_LAST_CLIPPED n (b2n a.clipped)).wr .ADC_RUN_INFO n
    (BitVec.ofNat 64 a.t0)
  let t := s1.get F.ADC_CFG_RUN_TROUGH n
  let s2 := if 400 ≤ t then s1.pushItem t ws else s1
  ((s2.raiseYard (400 + 2 * n) s2.now).adcTo n asIdle).modAdc n fun b => { b with vst := none, stopAt := none, modeEnd := false }

/-- A virtual stall's scan is over when its lead's run ends (R335). -/
def State.vstRunEnd (s : State) (v : Nat) : State := (s.vstClose v true).put F.VST_STATUS_STATE v (if s.vstOn v then 1 else 0)

/-- A run of `samples` ends: its last unit, if it has one, is padded, then the steps of R323. -/
def State.runEnd (s : State) (n : Nat) (xs : List (BitVec 14)) (samples stray : Nat) (stopped : Bool) : State :=
  let a := s.adc n
  let r := s.correctRun n (if a.dest = 1 then [] else xs)
  let s1 := (r.2.addSat F.ADC_COUNT_CLIP n stray).modAdc n fun b => { b with clipped := b.clipped || stray != 0 }
  let s2 := if r.1 = [] then s1 else s1.writeUnit n r.1
  let s3 := match a.vst with
    | some v => if s.vstLead v = some n then s2.vstRunEnd v else s2
    | none => s2
  s3.runRecord n samples stopped

/-- Samples that a run ended by the mode has taken: `m` if it is recorded. -/
def State.modeSamples (s : State) (n m : Nat) : Nat :=
  let a := s.adc n
  let k := if a.dest = 1 then samplesBefore (s.adcLow n) a.t0 s.now else m
  match s.runLimit n with | some l => min k l | none => k

/-- ADC_RUN_END (R317, R321, R323, R324): the samples of the last, unfinished unit of a recorded run; `stray`: saturated samples of a
scan that lie in no pixel. -/
def execAdcRunEnd (n : Fin 8) (xs : List (BitVec 14)) (stray : Nat) (s : State) : Result :=
  .next <|
    let a := s.adc n.val
    if s.adcSt n.val ≠ asRunning ∨ 32 ≤ xs.length then s
    else if a.modeEnd then s.runEnd n.val xs (s.modeSamples n.val (a.taken + xs.length)) stray true
    else match s.runLimit n.val with
      | none => s
      | some k =>
          if a.dest ≠ 1 ∧ a.taken + xs.length ≠ k then s
          else (if k = 0 then s else s.reach (sampleAt (s.adcLow n.val) a.t0 (k - 1))).runEnd n.val xs k stray (s.runStopped n.val k)

/-! ### Urgent conversions (R317 to R319, R341) -/

/-- ADC_URGENT_REQUEST (R317, R319, R326): `yard`, through consumer 304 + n; otherwise by the yardmaster. -/
def execAdcUrgentRequest (n : Fin 8) (yard : Bool) (s : State) : Result :=
  .next <|
    let go := fun (s : State) (t : Nat) =>
      if s.adcSt n.val = asOff then s
      else if (s.inHold && yard) || s.adcSt n.val != asIdle then s.urgentDrop n.val
      else (s.adcTo n.val asUrgent).modAdc n.val fun a => { a with urgent := t }
    if yard then
      (if !s.isOn F.ADC_CFG_CONS_URGENT n.val then s
      else match s.takeEvent (304 + n.val) with
        | none => s
        | some (t, s1) => go s1 t)
    else go s s.now

/-- ADC_URGENT_RESULT (R315, R317, R318, R341): the mismatch-corrected sample. -/
def execAdcUrgentResult (n : Fin 8) (x : BitVec 14) (s : State) : Result :=
  .next <|
    if s.adcSt n.val ≠ asUrgent then s
    else
      let t := firstSample (s.adcLow n.val) (s.adc n.val).urgent
      let s1 := s.reach t
      let input := s1.get F.ADC_CFG_URGENT_INPUT n.val
      let c := s1.coef n.val input
      let y := correct c.1 c.2 x
      let s2 := s1.wr .ADC_URGENT_RESULT n.val
        (field 0 16 (unsigned 16 y.1) ||| field 16 3 input ||| field 19 1 1 ||| field 32 32 (t % 2 ^ 32))
      let s3 := if y.2 then s2.inc F.ADC_COUNT_CLIP n.val else s2
      (s3.raiseYard (400 + 2 * n.val) s3.now).adcTo n.val asIdle

/-- A read of ADC_URGENT_RESULT returns VALID and clears it (R341). -/
def State.urgentRead (s : State) (n : Nat) : Word × State := (s.rd .ADC_URGENT_RESULT n, s.put F.ADC_URGENT_RESULT_VALID n 0)

/-- URGENT_RESULT_READ (R341). -/
def execUrgentResultRead (n : Fin 8) (s : State) : Result := .next (let r := s.urgentRead n.val; r.2.answer 0 r.1)

/-! ### Configuration and power (R325, R338, R340) -/

/-- A write of ADC_CFG, judged field by field (R338, Table 7.2). -/
def State.adcCfgWrite (s : State) (n : Nat) (v m : Word) : State :=
  let old := s.rd .ADC_CFG n
  let new := writeFields .ADC_CFG old v m
  let busy := s.adcSt n != asIdle
  let keep := fun (a : Word × Bool) (lo w : Nat) (no : Bool) =>
    if no && bits old lo w != bits a.1 lo w then (setBits a.1 lo w (bits old lo w), true) else a
  let r := keep (keep (keep (keep (keep (new, false) 0 3 (bits new 0 3 == 7)) 8 3 (bits new 8 3 == 7)) 3 2 (busy || bits new 3 2 == 3))
    5 1 busy) 16 16 busy
  let s1 := s.wr .ADC_CFG n r.1
  let s2 := if r.2 then s1.put F.ADC_STATUS_CFG_REJECTED n 1 else s1
  match bit old 5, bit r.1 5 with
  | false, true => s2.put F.ADC_STATUS_LOWPWR_ACTIVE n 1
  | true, false => ((s2.put F.ADC_STATUS_LOWPWR_ACTIVE n 0).put F.ADC_STATUS_MMC_CONVERGED n 0).adcTo n asWaking
  | _, _ => s2

/-- ADC_CFG_WRITE (R309, R325, R338). -/
def execAdcCfgWrite (n : Fin 8) (v : Word) (s : State) : Result := .next (s.adcCfgWrite n.val v allBytes)

/-- ADC_WAKE_COMPLETE (R325). -/
def execAdcWakeComplete (n : Fin 8) (s : State) : Result := .next (if s.adcSt n.val = asWaking then s.adcTo n.val asIdle else s)

/-- A write of ADC_BUF (R320, R340). -/
def State.adcBufWrite (s : State) (n : Nat) (v m : Word) : State :=
  let new := writeFields .ADC_BUF (s.rd .ADC_BUF n) v m
  let size := 2 ^ bits new 0 6
  let base := bits new 16 21 * 2 ^ 16
  if s.adcSt n != asIdle || base % size != 0 || decide (fenEnd < base + size) then s.put F.ADC_STATUS_CFG_REJECTED n 1
  else s.wr .ADC_BUF n new

/-- ADC_BUF_WRITE (R340). -/
def execAdcBufWrite (n : Fin 8) (v : Word) (s : State) : Result := .next (s.adcBufWrite n.val v allBytes)

/-- MMC_CONVERGED (R314). -/
def execMmcConverged (n : Fin 8) (s : State) : Result :=
  .next <|
    if s.adcSt n.val = asOff ∨ s.adcLow n.val = true ∨ s.isOn F.ADC_CFG_MMC_FREEZE n.val = true then s
    else s.put F.ADC_STATUS_MMC_CONVERGED n.val 1

/-! ### Calibration (R327, R328, R342) -/

/-- A write of ADC_CAL (Table 7.9). -/
def State.adcCalWrite (s : State) (n : Nat) (v m : Word) : State :=
  let s1 := s.wr .ADC_CAL n (writeFields .ADC_CAL (s.rd .ADC_CAL n) v m)
  if !bit (v &&& m) 8 then s1
  else
    let input := s1.get F.ADC_CAL_INPUT n
    let full := s1.isOn F.ADC_CAL_PHASE n
    let done := fun (s : State) (r : Nat) => (s.put F.ADC_CAL_RESULT n r).put F.ADC_CAL_GO n 0
    let s2 := s1.modAdc n fun a => { a with zeroFor := none }
    if s1.adcSt n ≠ asIdle ∨ input = 7 ∨ s1.inHold = true then done s2 4
    else if full ∧ (s1.adc n).zeroFor ≠ some input then done s2 6
    else
      let s3 := (s2.adcTo n asCal).modAdc n fun a =>
        { a with cal := some (input, full), start := s.now, t0 := firstSample (s.adcLow n) s.now }
      (s3.put F.ADC_CAL_RESULT n 1).put F.ADC_CAL_GO n 1

/-- ADC_CAL_ZERO (R327): a write of `v` with PHASE ZERO and GO. -/
def execAdcCalZero (n : Fin 8) (v : Word) (s : State) : Result := .next (s.adcCalWrite n.val (setBits (setBits v 4 1 0) 8 1 1) allBytes)

/-- ADC_CAL_FULL (R327, R328): a write of `v` with PHASE FULL and GO. -/
def execAdcCalFull (n : Fin 8) (v : Word) (s : State) : Result := .next (s.adcCalWrite n.val (setBits (setBits v 4 1 1) 8 1 1) allBytes)

/-- OFFSET and GAIN from two means in units of 2^-16, and a target (R328). -/
def calCoef (z f : Int) (target : Nat) : Option (Int × Nat) :=
  if f - z ≤ 0 then none
  else
    let g := (roundDiv ((min target 8191 : Nat) * 2 ^ 32) (f - z)).toNat
    if 0x3FFFF < g then none else some (-(roundDiv z (2 ^ 16)), g)

/-- A calibration phase is over. -/
def State.calDone (s : State) (n r : Nat) : State :=
  (((s.put F.ADC_CAL_RESULT n r).put F.ADC_CAL_GO n 0).adcTo n asIdle).modAdc n fun a => { a with cal := none }

/-- ADC_CAL_PHASE_END (R327, R328): the sum of the 65,536 mismatch-corrected samples. -/
def execAdcCalPhaseEnd (n : Fin 8) (sum : Int) (s : State) : Result :=
  .next <| match (s.adc n.val).cal with
    | none => s
    | some (input, full) =>
        if s.adcSt n.val ≠ asCal then s
        else
          let s1 := s.reach (sampleAt (s.adcLow n.val) (s.adc n.val).t0 65535)
          if !full then
            ((s1.put F.ADC_CAL_MEAN_ZERO n.val (unsigned 32 sum)).calDone n.val 2).modAdc n.val fun a => { a with zeroFor := some input }
          else
            let s2 := s1.put F.ADC_CAL_MEAN_FULL n.val (unsigned 32 sum)
            match calCoef (signed 32 (s1.get F.ADC_CAL_MEAN_ZERO n.val)) (signed 32 (unsigned 32 sum)) (s1.get F.ADC_CAL_CAL_TARGET n.val) with
            | none => s2.calDone n.val 5
            | some (o, g) =>
                ((s2.put F.ADC_COEF_OFFSET (7 * n.val + input) (unsigned 16 o)).put F.ADC_COEF_GAIN (7 * n.val + input) g).calDone n.val 3

/-! ### Virtual stalls (R329 to R335) -/

/-- Whether enabling virtual stall `v` is refused (R329). -/
def State.vstRefused (s : State) (v : Nat) : Bool :=
  let ms := s.vstMembers v
  ms.isEmpty || (ms.any fun k => (s.vstOf k).any (· != v) || s.get F.ADC_CFG_DEST k == 0) ||
    s.get F.VST_GEOM_SCAN_W v == 0 || s.get F.VST_GEOM_SCAN_H v == 0 || decide (65535 < s.vstWidth v) ||
    decide (4 < s.get F.VST_CFG_DEPTH v) || decide (s.get F.VST_TIMING_DWELL v < 4)

/-- A virtual stall is disabled (R162, R335). -/
def State.vstDisable (s : State) (v : Nat) : State :=
  let s1 := match s.vstLead v with
    | some n => (if s.vstOf n = some v then s.adcStop n (s.now - 1600) else s)
    | none => s
  let s2 := (s1.vstClose v true).put F.VST_CFG_ENABLE v 0
  ((s2.put F.VST_STATUS_STATE v 0).raiseYard (64 + 4 * (16 + v) + 3) s2.now).modStall (16 + v) fun x =>
    { x with held := none, heldPkts := [] }

/-- A write of VST_CFG (R329, Table 7.10). -/
def State.vstCfgWrite (s : State) (v : Nat) (w m : Word) : State :=
  let old := s.rd .VST_CFG v
  let new := writeFields .VST_CFG old w m
  if bit old 14 then
    let s1 := if setBits new 14 1 1 = old then s else s.put F.VST_STATUS_CFG_REJECTED v 1
    if bit new 14 then s1 else s1.vstDisable v
  else
    let s1 := s.wr .VST_CFG v (setBits new 14 1 0)
    if !bit new 14 then s1
    else if s1.vstRefused v then s1.put F.VST_STATUS_CFG_REJECTED v 1
    else
      let s2 := ((s1.put F.VST_CFG_ENABLE v 1).put F.VST_STATUS_STATE v 1).modVst v fun _ => Vst.zero
      (s2.raiseYard (64 + 4 * (16 + v) + 2) s2.now).modStall (16 + v) fun x => { x with ref := none, skip := none, gapPend := false }

/-- A write of VST_TIMING or VST_GEOM, refused while enabled (R329). -/
def State.vstRegWrite (s : State) (r : Reg) (v : Nat) (w m : Word) : State :=
  let new := writeFields r (s.rd r v) w m
  if s.vstOn v then (if new = s.rd r v then s else s.put F.VST_STATUS_CFG_REJECTED v 1) else s.wr r v new

/-- VST_ENABLE (R329, R335): a write of `w` with ENABLE 1. -/
def execVstEnable (v : Fin 4) (w : Word) (s : State) : Result := .next (s.vstCfgWrite v.val (setBits w 14 1 1) allBytes)

/-- VST_DISABLE (R335): a write of `w` with ENABLE 0. -/
def execVstDisable (v : Fin 4) (w : Word) (s : State) : Result := .next (s.vstCfgWrite v.val (setBits w 14 1 0) allBytes)

/-- Whether the scan of virtual stall `v` goes on up to instant `e`. -/
def State.scanning (s : State) (v e : Nat) : Bool :=
  s.get F.VST_STATUS_STATE v == 2 && (match (s.vst v).ending with | some u => decide (e ≤ u) | none => true) &&
    !((s.vstMembers v).any fun n => (s.adc n).modeEnd)

/-- VST_FRAME_START (R334, R335): the first instant of a frame's first pixel. -/
def execVstFrameStart (v : Fin 4) (s : State) : Result :=
  .next <|
    let x := s.vst v.val
    let event := s.isOn F.VST_CFG_TIMING v.val
    let p := if event then x.began else s.pixelAt v.val x.px
    let frames := s.get F.VST_GEOM_FRAMES v.val
    if !s.scanning v.val (p + 1) || x.frameOpen || x.px % s.vstArea v.val != 0 ||
        (frames != 0 && decide (frames ≤ x.px / s.vstArea v.val)) then s
    else
      let h : FrameHdr :=
        { id := x.nextId, width := s.vstWidth v.val, height := s.get F.VST_GEOM_SCAN_H v.val, depth := s.get F.VST_CFG_DEPTH v.val
          packing := 0, expIndex := 0, expCount := 0, start := p, triggered := false, posTick := some p, encLate := false }
      let s1 := ((s.reach p).closeFrame (16 + v.val) true).modVst v.val fun y =>
        { y with nextId := (y.nextId + 1) % 2 ^ 32, frameOpen := true, line := [] }
      let s2 := (s1.incWrap F.VST_COUNT_FRAMES v.val).put F.VST_STATUS_LAST_FRAME_ID v.val x.nextId
      if (s2.stall (16 + v.val)).frame.isSome then s2.modStall (16 + v.val) fun y => { y with held := some h, heldPkts := [] }
      else s2.judgeFrame (16 + v.val) h

/-- A member's value of a pixel (R333): its corrected samples, and whether it had none. -/
def State.pixelValue (s : State) (v : Nat) (ys : List Int) : Int :=
  let sum := ys.foldl (· + ·) 0
  if ys = [] then 0
  else if s.isOn F.VST_CFG_MEAN v then roundDiv sum ys.length
  else sum / 2 ^ s.get F.VST_CFG_SUM_SHIFT v

/-- The samples of one pixel, member by member, become output pixels (R333). -/
def State.pixelOut (s : State) (v : Nat) (xs : List (List (BitVec 14))) : List Nat × State :=
  let ms := s.vstMembers v
  let step := fun (a : List Int × State) (p : Nat × List (BitVec 14)) =>
    let r := a.2.correctRun p.1 p.2
    let s1 := if (a.2.adc p.1).dest = 2 then a.2 else r.2
    (a.1 ++ [s.pixelValue v r.1], if p.2 = [] then s1.inc F.VST_COUNT_SHORT_PIXEL v else s1)
  let r := (ms.zip (xs ++ List.replicate (ms.length - xs.length) [])).foldl step ([], s)
  let vs := if s.isOn F.VST_CFG_COMBINE v then [r.1.foldl (· + ·) 0] else r.1
  let off := signed 24 (s.get F.VST_CFG_OUT_OFFSET v)
  let top : Int := 2 ^ depthBits (s.get F.VST_CFG_DEPTH v) - 1
  (vs.map fun x => (clampInt 0 top (x + off)).toNat, r.2)

/-- A pixel ends (R333, R334): a whole line is passed, a whole frame closes; the last frame ends the run. -/
def State.pixelEnd (s : State) (v : Nat) (xs : List (List (BitVec 14))) : State :=
  let x := s.vst v
  let w := s.get F.VST_GEOM_SCAN_W v
  let area := s.vstArea v
  let o := s.pixelOut v xs
  let line := x.line ++ o.1
  let k := x.px % area
  let s1 := o.2.modVst v fun y => { y with px := y.px + 1, line := line }
  if (k + 1) % w ≠ 0 then s1
  else
    let s2 := ((s1.vstPacket v 0x02 (k / w) (line.flatMap (bytesOfNat 2))).modVst v fun y => { y with line := [] }).put F.VST_STATUS_LINE v (k / w)
    if k + 1 ≠ area then s2
    else
      let s3 := s2.vstClose v false
      let frames := s.get F.VST_GEOM_FRAMES v
      if frames ≠ 0 ∧ frames ≤ (x.px + 1) / area then s3.modVst v fun y => { y with ending := some s3.now } else s3

/-- VST_PIXEL_END (R331, R333, R334): the mismatch-corrected samples of the pixel's dwell, one list for each member in ascending
order. -/
def execVstPixelEnd (v : Fin 4) (xs : List (List (BitVec 14))) (s : State) : Result :=
  .next <|
    let x := s.vst v.val
    let e := s.pixelAt v.val x.px + s.get F.VST_TIMING_DWELL v.val
    if s.isOn F.VST_CFG_TIMING v.val || !x.frameOpen || !s.scanning v.val e then s else (s.reach e).pixelEnd v.val xs

/-- VST_PIXEL_EVENT (R332): an event on the lead's consumer ends one pixel and begins the next. -/
def execVstPixelEvent (v : Fin 4) (xs : List (List (BitVec 14))) (s : State) : Result :=
  .next <| match s.vstLead v.val with
    | none => s
    | some n =>
        if !s.isOn F.VST_CFG_TIMING v.val || !(s.vst v.val).frameOpen || !s.scanning v.val 0 || s.isOn F.ADC_CFG_CONS_URGENT n then s
        else match s.takeEvent (304 + n) with
          | none => s
          | some (t, s1) =>
              if !s1.scanning v.val (t + 1600) then s1
              else ((s1.reach (t + 1600)).pixelEnd v.val xs).modVst v.val fun y => { y with began := t + 1600 }

/-- VST_DWELL_TIMEOUT (R332). -/
def execVstDwellTimeout (v : Fin 4) (s : State) : Result :=
  .next <|
    let e := (s.vst v.val).began + s.get F.VST_TIMING_DWELL v.val
    if !s.isOn F.VST_CFG_TIMING v.val || !s.scanning v.val e then s
    else
      let s1 := s.reach e
      ((s1.vstMembers v.val).foldl (fun a m => a.stopOne m (e - 1600)) s1).modVst v.val fun y => { y with ending := some e }

/-! ### The engine and the modes (R326, Table 7.4) -/

/-- Calibration in progress is ended. -/
def State.calAbort (s : State) (n : Nat) : State :=
  if s.adcSt n = asCal then (s.calDone n 0).modAdc n fun a => { a with zeroFor := none } else s

/-- HOLD entry, or an FLR of PF0: runs end STOPPED and calibration ends. -/
def State.adcsEnd (s : State) : State :=
  (List.range 8).foldl (fun a n =>
    (if a.adcSt n = asRunning then a.modAdc n fun b => { b with modeEnd := true } else a).calAbort n) s

/-- The virtual stalls at HOLD entry (R335). -/
def State.vstsHold (s : State) : State :=
  (List.range 4).foldl (fun a v => if a.vstOn v then a.raiseYard (64 + 4 * (16 + v) + 3) a.now else a) s

/-- The converters are powered down. -/
def State.adcsOff (s : State) : State :=
  (List.range 8).foldl (fun a n =>
    let b := if a.adcSt n = asRunning then a.runEnd n [] (a.modeSamples n (a.adc n).taken) 0 true else a.calAbort n
    ((b.adcTo n asOff).put F.ADC_STATUS_LOWPWR_ACTIVE n 0).put F.ADC_STATUS_MMC_CONVERGED n 0) s

/-- The converters are powered up. -/
def State.adcsOn (s : State) : State :=
  (List.range 8).foldl (fun a n =>
    if a.adcSt n = asOff then
      ((a.adcTo n asIdle).put F.ADC_STATUS_LOWPWR_ACTIVE n (a.get F.ADC_CFG_LOWPWR n)).put F.ADC_STATUS_MMC_CONVERGED n 0
    else a) s

end Sys2Proof.Machine
end

