-- ==== Sys2Proof/Machine/Sluice.lean ====
section
/-! DEFINITION. The sluice (chapter 9, R437 to R462): rings, descriptors, completion records, mirrors; its part in modes, link loss and
FLR. -/

namespace Sys2Proof.Machine

def State.ring (s : State) (r : Nat) : Ring := Tab.get Ring.zero s.rings r

def State.setRing (s : State) (r : Nat) (x : Ring) : State := { s with rings := Tab.set Ring.zero s.rings r x }

def State.modRing (s : State) (r : Nat) (f : Ring → Ring) : State := s.setRing r (f (s.ring r))

/-- A descriptor of ring `r` changed by `f`. -/
def State.modDesc (s : State) (r slot : Nat) (f : Desc → Desc) : State :=
  s.modRing r fun x => { x with descs := x.descs.map fun d => if d.slot = slot then f d else d }

def State.desc (s : State) (r slot : Nat) : Option Desc := (s.ring r).descs.find? fun d => d.slot == slot

/-- Ring states (Table 9.16). -/
def rsDisabled : Nat := 0
def rsRunning : Nat := 1
def rsStopping : Nat := 2
def rsStoppedLink : Nat := 3

def State.ringSize (s : State) (r : Nat) : Nat := 2 ^ s.get F.RING_BASE_SIZE_LOG2 r

def State.ringHostFed (s : State) (r : Nat) : Bool := !s.isOn F.RING_BASE_FEED r

/-- Operations and completion statuses (Tables 9.7, 9.10). -/
def opNop : Nat := 0
def opCopy : Nat := 1
def opDeliver : Nat := 2
def opFetch : Nat := 3
def opPush : Nat := 4
def opPop : Nat := 5

def csOk : Nat := 0x00
def csEmpty : Nat := 0x01
def csGap : Nat := 0x02
def csTooSmall : Nat := 0x03
def csPoisoned : Nat := 0x04
def csTagCrc : Nat := 0x05
def csBadDesc : Nat := 0x06
def csBadAddr : Nat := 0x07
def csLinkLost : Nat := 0x08
def csHostError : Nat := 0x09
def csTimeout : Nat := 0x0A
def csCancelled : Nat := 0x0B
def csHold : Nat := 0x0C
def csRefused : Nat := 0x0D

def Desc.w (d : Desc) (i : Nat) : Word := (d.words[i]?).getD 0
def Desc.op (d : Desc) : Nat := bits (d.w 0) 0 4
def Desc.len (d : Desc) : Nat := bits (d.w 3) 0 32

/-- A descriptor as its fetch or pop puts it on the scoreboard. -/
def Desc.new (slot : Nat) (ws : List Word) : Desc := ⟨slot, ws, false, false, none, [], [], 0, 0, [], none, none⟩

/-- A descriptor ends with a status, bytes and detail. -/
def Desc.close (d : Desc) (status bytes detail : Nat) : Desc := { d with waiting := false, ended := some (status, bytes, detail) }

/-! ### Modes and the host (R450, R451) -/

/-- Whether PF0 may send for the sluice. -/
def State.sluiceLive (s : State) : Bool := s.hostLive && !s.host.pf0.inFlr

/-- Whether the mode serves rings at all (Table 9.12). -/
def State.sluiceServes (s : State) : Bool :=
  match s.modeAhead with
  | .ready | .armed | .stream | .burst | .drain | .shadow => true
  | _ => false

/-- Whether a descriptor may start (Table 9.12, R709: a member handing over starts none). -/
def State.mayStart (s : State) (op : Nat) : Bool :=
  s.sluiceServes && s.sluiceLive && s.modeAhead != Mode.shadow && s.get F.PAIR_STATUS_STATE != 4 &&
    !(s.modeAhead == Mode.burst && !s.isOn F.SLUICE_CFG_BURST_POLICY && [opCopy, opDeliver, opPop].contains op)

/-- Entries of the scoreboard in use (R445). -/
def State.inflight (s : State) : Nat := (s.rings.map fun e => e.2.descs.length).foldl (· + ·) 0

/-- Entries reserved by the enabled rings. -/
def State.reserved (s : State) : Nat :=
  ((List.range 1024).map fun r => if s.isOn F.RING_CTRL_ENABLE r then 16 * s.get F.RING_CTRL_INFLIGHT_RES r else 0).foldl (· + ·) 0

/-- Whether ring `r` may take `n` more entries: of its reservation, or of the shared rest (R30, R445). -/
def State.scoreRoom (s : State) (r n : Nat) : Bool :=
  let res := fun (q : Nat) => if s.isOn F.RING_CTRL_ENABLE q then 16 * s.get F.RING_CTRL_INFLIGHT_RES q else 0
  let have' := (s.ring r).descs.length
  let shared := (s.rings.map fun e => e.2.descs.length - res e.1).foldl (· + ·) 0
  let need := (have' + n - res r) - (have' - res r)
  decide (shared + need + s.reserved ≤ 65536)

/-! ### Read tags (R33, R34, R678) -/

/-- The classes of Table 15.11 by tag width: descriptor fetch, groom DMA, shared. -/
def tagClass (width tag : Nat) : Option Nat :=
  match width with
  | 2 => if tag < 4096 then some 0 else if tag < 6144 then some 1 else if tag < 16384 then some 2 else none
  | 1 => if 256 ≤ tag ∧ tag < 448 then some 0 else if 448 ≤ tag ∧ tag < 544 then some 1
         else if 544 ≤ tag ∧ tag < 1024 then some 2 else none
  | _ => if tag < 64 then some 0 else if tag < 96 then some 1 else if tag < 256 then some 2 else none

/-- Whether `tag` is free for a request of class `c`. -/
def State.tagFree (s : State) (c tag : Nat) : Bool :=
  !(s.host.tags.any fun t => t.tag == tag) &&
    (match tagClass s.host.tagWidth tag with | some k => k == 2 || k == c | none => false)

/-- HOST_CPL_TIMEOUT in ticks (R679, R692). -/
def State.cplTimeout (s : State) : Nat := ticksPerUs * max 50 (min 64000 (s.get F.HOST_CPL_TIMEOUT_TIMEOUT_US))

/-- A non-posted read of PF0 is issued. -/
def State.issueRead (s : State) (tag addr len : Nat) (u : TagUse) : State :=
  let t : RTag := ⟨tag, u, false, false, [], some (s.now + s.cplTimeout)⟩
  State.emit { s with host := { s.host with inL1 := false, tags := s.host.tags ++ [t] } } (.hostRead tag addr len)

/-- Max_Read_Request_Size of PF0. -/
def State.maxRead (s : State) : Nat := 128 * 2 ^ min 5 (s.host.pf0.cfg cfgDevCtl devCtlReset / 4096 % 8)

/-! ### Checks (R439, R440) -/

/-- What a descriptor's layout, range or access rights make of it, if they break a rule. -/
def State.descFault (s : State) (d : Desc) : Option Nat :=
  let op := d.op
  let src := (d.w 1).toNat
  let dst := (d.w 2).toNat
  let len := d.len
  let t := if op = opPush then dst % 65536 else src % 65536
  let refused := if op = opPush then t < 400 else if op = opDeliver ∨ op = opPop then t < 16 ∨ (144 ≤ t ∧ t < 400) else False
  let bad :=
    if op = opNop then False
    else if op = opCopy ∨ op = opFetch then src % 4 ≠ 0 ∨ dst % 4 ≠ 0 ∨ len % 4 ≠ 0
    else if op = opDeliver then dst % 64 ≠ 0 ∨ t < 16 ∨ (80 ≤ t ∧ t < 400)
    else if op = opPush then len < 8 ∨ 32768 < len ∨ len % 8 ≠ 0 ∨ t < 400
    else op ≠ opPop ∨ t < 16 ∨ (144 ≤ t ∧ t < 400)
  let a := if op = opCopy then src else dst
  if (d.w 0).toNat / 2 ^ 9 ≠ 0 ∨ bad then some csBadDesc
  else if refused then some csRefused
  else if (op = opCopy ∨ op = opFetch) ∧ (a < poolRecordEnd ∨ fenEnd < a + len ∨ s.segsAll a (a + len) (· != 1) = false) then some csBadAddr
  else none

/-- A descriptor comes onto the scoreboard checked. -/
def State.checked (s : State) (d : Desc) : Desc := match s.descFault d with | some f => d.close f 0 0 | none => d

/-! ### Fetching descriptors (R437, R438, R445) -/

/-- Posted slots not yet fetched. -/
def State.unfetched (s : State) (r : Nat) : Nat :=
  (s.get F.RING_PTR_TAIL r + s.ringSize r - (s.ring r).next) % s.ringSize r

/-- DESCRIPTOR_FETCH (R437, R438, R445, R678): a read of `n` posted slots, as many as fit one request, with read tag `tag`. -/
def execDescriptorFetch (r : Fin 1024) (n : Fin 17) (tag : Fin 16384) (s : State) : Result :=
  .next <|
    let x := s.ring r.val
    if s.get F.RING_CTRL_STATE r.val ≠ rsRunning ∨ !s.ringHostFed r.val ∨ !s.sluiceServes ∨ !s.sluiceLive ∨ n.val = 0 ∨
        s.unfetched r.val < n.val ∨ s.ringSize r.val < x.next + n.val ∨ s.maxRead < 32 * n.val ∨ !s.tagFree 0 tag.val ∨ !s.scoreRoom r.val n.val then s
    else
      let ds := (List.range n.val).map fun k => Desc.new (x.next + k) []
      let s1 := s.setRing r.val { x with next := (x.next + n.val) % s.ringSize r.val, descs := x.descs ++ ds }
      s1.issueRead tag.val (s.get F.RING_BASE_BASE r.val * 64 + 32 * x.next) (32 * n.val) (.fetch r.val x.next n.val)

/-- Fetched descriptors take their words: each is checked, or cancelled if its ring is stopping. -/
def State.fetchDone (s : State) (r slot n : Nat) (data : List Byte) (err : Option Nat) : State :=
  let stop := s.get F.RING_CTRL_STATE r = rsStopping
  s.modRing r fun x => { x with descs := x.descs.map fun d =>
    if d.words = [] ∧ d.ended = none ∧ slot ≤ d.slot ∧ d.slot < slot + n then
      match err with
      | some e => { d with words := [0, 0, 0, 0] }.close e 0 0
      | none =>
          let k := d.slot - slot
          let d1 := { d with words := (List.range 4).map fun i => wordOfBytes ((data.drop (32 * k + 8 * i)).take 8) }
          if stop then d1.close csCancelled 0 0 else s.checked d1
    else d }

/-- The tag in use, and the state once it is back in its class. -/
def State.freeTag (s : State) (tag : Nat) : State :=
  { s with host := { s.host with tags := s.host.tags.filter fun t => t.tag != tag } }

/-- DESCRIPTOR_FETCH_COMPLETE (R438 to R440): the whole data of the fetch with tag `tag`. -/
def execDescriptorFetchComplete (tag : Fin 16384) (data : List Byte) (s : State) : Result :=
  .next <| match s.host.tags.find? (fun t => t.tag == tag.val && !t.quar) with
    | some t => match t.use with
        | .fetch r slot n => (s.freeTag tag.val).fetchDone r slot n data none
        | .data _ _ _ _ => s
    | none => s

/-- DESCRIPTOR_POP (R437): a trough-fed ring pops the packet at the head of its source trough. -/
def execDescriptorPop (r : Fin 1024) (s : State) : Result :=
  .next <|
    let x := s.ring r.val
    let t := s.get F.RING_CTRL_SRC_TROUGH r.val
    if s.get F.RING_CTRL_STATE r.val ≠ rsRunning ∨ s.ringHostFed r.val ∨ !s.sluiceServes ∨ !s.sluiceLive ∨ s.ringSize r.val ≤ x.descs.length ∨
        !s.scoreRoom r.val 1 ∨ t < 400 then s
    else match s.headItem t with
      | none => s
      | some it =>
          let s1 := s.dropHead t
          let d := Desc.new x.next (if it.words.length = 4 then it.words else [0, 0, 0, 0])
          let d1 := if it.gap then d.close csGap 0 (bits ((it.words.head?).getD 0) 0 32)
            else if it.poison then d.close csPoisoned 0 0
            else if it.words.length ≠ 4 then d.close csBadDesc 0 0
            else s1.checked d
          s1.setRing r.val { x with next := (x.next + 1) % s.ringSize r.val, descs := x.descs ++ [d1] }

/-! ### Starting and carrying out descriptors (R440 to R442, R444) -/

/-- A descriptor that may start: it has been fetched, has not started, and with FENCE is the oldest. -/
def State.startable (s : State) (r slot op : Nat) : Option Desc :=
  match s.desc r slot with
  | none => none
  | some d =>
      let first := ((s.ring r).descs.head?).any fun e => e.slot == slot
      if d.words ≠ [] ∧ d.started = false ∧ d.ended = none ∧ d.op = op ∧ s.mayStart op = true ∧ (bit (d.w 0) 7 = false ∨ first = true) then some d else none

/-- A descriptor has just run. -/
def State.ran (s : State) : State := { s with host := { s.host with lastRun := s.now } }

/-- A descriptor starts (R674): PF0 reports 10 µs after none has run for L1_IDLE µs. -/
def State.running (s : State) : State :=
  let busy := s.rings.any fun e => e.2.descs.any fun d => d.started && d.ended.isNone
  if !busy && decide (s.host.lastRun + 4000 * max 1 (s.get F.HOST_PM_CFG_L1_IDLE) ≤ s.now) then
    s.ran.fromL1.emit (.pcieMessage 4 10)
  else s.ran

/-- The descriptor ends. -/
def State.descEnd (s : State) (r slot status bytes detail : Nat) : State :=
  s.ran.modDesc r slot fun d => { d with started := true }.close status bytes detail

/-- Bytes of the fen, and the offset of the first 64-byte unit of them that read poisoned (R346, R441). -/
def State.readBytes (s : State) (a n : Nat) : List Byte × Option Nat × State :=
  let first := a / 8
  let count := if n = 0 then 0 else (a + n + 7) / 8 - first
  let r := (List.range count).foldl (fun (acc : List Byte × Option Nat × State) k =>
    let w := acc.2.2.engineRead ((first + k) * 8)
    (acc.1 ++ bytesOfNat 8 w.1.toNat, if acc.2.1.isNone && w.2.1 then some ((first + k) / 8 * 64 - a) else acc.2.1, w.2.2)) ([], none, s)
  ((r.1.drop (a % 8)).take n, r.2.1, r.2.2)

/-- A product of `n` bytes from block `a`, following links; its blocks, and the offset of the first poisoned unit (R421, R441). -/
def State.readProduct : Nat → State → Nat → Nat → Nat → List Byte × Option Nat × List Nat × State
  | 0, s, _, _, _ => ([], none, [], s)
  | fuel + 1, s, a, n, off =>
      if n ≤ 65536 then
        let r := s.readBytes a n
        (r.1, r.2.1.map (· + off), [a], r.2.2)
      else
        let r := s.readBytes a 65528
        let l := r.2.2.engineRead (a + 65528)
        let q := State.readProduct fuel l.2.2 (bits l.1 16 21 * 65536) (n - 65528) (off + 65528)
        (r.1 ++ q.1, (r.2.1.map (· + off)).or (if l.2.1 then some (off + 65528) else q.2.1), a :: q.2.2.1, q.2.2.2)

/-- Whether a descriptor permits Relaxed Ordering. -/
def Desc.relaxed (d : Desc) : Bool := bit (d.w 0) 4

/-- SLUICE_NOP (R440). -/
def execSluiceNop (r : Fin 1024) (slot : Fin 65536) (s : State) : Result :=
  .next <| match s.startable r.val slot.val opNop with | none => s | some _ => s.running.descEnd r.val slot.val csOk 0 0

/-- SLUICE_COPY (R440, R448). -/
def execSluiceCopy (r : Fin 1024) (slot : Fin 65536) (s : State) : Result :=
  .next <| match s.startable r.val slot.val opCopy with
    | none => s
    | some d =>
        let b := s.running.readBytes (d.w 1).toNat d.len
        (b.2.2.hostPayload (d.w 2).toNat b.1 d.relaxed).descEnd r.val slot.val (if b.2.1.isSome then csPoisoned else csOk) d.len (b.2.1.getD 0)

/-- Whether a record is marked DUPLICATE_POSSIBLE (R715). -/
def State.duplicate (s : State) (ws : List Word) : Bool :=
  let w0 := (ws[0]?).getD 0
  let cut := (s.rd .PAIR_CUTOVER).toNat
  let wm := if bits w0 24 4 = 5 then Tab.get 0 s.pair.cutHerd (bits w0 19 4) else Tab.get 0 s.pair.cutWm (bits w0 13 6)
  s.isOn F.PAIR_CFG_ENABLE && cut != 0 && decide (wm.toNat < ((ws[1]?).getD 0).toNat) && decide (((ws[3]?).getD 0).toNat ≤ cut + 40000)

/-- The tag copy (R441): word 6 and HOST_PLACED for a product copied, the POISONED and DUPLICATE_POSSIBLE flags, the CRC recomputed. -/
def tagCopy (ws : List Word) (dst : Option Nat) (poisoned dup : Bool) : List Word :=
  let w0 := (ws[0]?).getD 0 ||| (if dst.isSome then field 32 16 tfPlaced else 0) |||
    (if poisoned then field 32 16 tfPoisoned else 0) ||| (if dup then field 32 16 tfDuplicate else 0)
  let body := w0 :: ((ws.drop 1).take 5) ++ [match dst with | some a => BitVec.ofNat 64 a | none => (ws[6]?).getD 0]
  body ++ [tagCheck body (bits ((ws[7]?).getD 0) 0 32)]

/-- The tag area's slot (R437). -/
def State.tagSlot (s : State) (r slot : Nat) : Nat := s.get F.RING_TAG_BASE r * 64 + 64 * slot

/-- A tag record is delivered (R441). A herd record's payload is its member entries. -/
def State.deliverRecord (s : State) (r : Nat) (d : Desc) (ws : List Word) : State :=
  let n := bits ((ws[7]?).getD 0) 0 32
  let w0 := (ws[0]?).getD 0
  let herd := bits w0 24 4 == 5
  let s0 := s.modDesc r d.slot fun e => { e with started := true, waiting := false, popped := some ws }
  if d.len < n then (s0.hostRecord (s.tagSlot r d.slot) (ws.take 8)).descEnd r d.slot csTooSmall 0 n
  else
    let dup := s0.duplicate ws
    let s1 := if dup then s0.inc F.PAIR_COUNT2_DUP_FLAGGED else s0
    if bit w0 38 ∨ n = 0 then
      (s1.hostRecord (s.tagSlot r d.slot) (tagCopy ws none false dup)).descEnd r d.slot csOk 0 ((ws[6]?).getD 0).toNat
    else if herd then
      ((s1.hostPayload (d.w 2).toNat (bytesOfWords (ws.drop 8)) d.relaxed).hostRecord (s.tagSlot r d.slot) (tagCopy ws none false dup)).descEnd
        r d.slot csOk n 0
    else
      let a := bits ((ws[6]?).getD 0) 0 37
      let b := s1.readProduct (n / 65528 + 2) a n 0
      let s2 := b.2.2.2.hostPayload (d.w 2).toNat b.1 d.relaxed
      let s3 := s2.hostRecord (s.tagSlot r d.slot) (tagCopy ws (some (d.w 2).toNat) b.2.1.isSome dup)
      let s4 := if bit (d.w 0) 6 then s3.modDesc r d.slot fun e => { e with blocks := b.2.2.1 } else s3
      s4.descEnd r d.slot (if b.2.1.isSome then csPoisoned else csOk) n (b.2.1.getD a)

/-- The item a DELIVER or POP took is noted for its watermark (R711). -/
def State.takeNote (s : State) (r slot t : Nat) (ws : List Word) : State :=
  s.modDesc r slot fun d => { d with taken := d.taken ++ [(t, (ws[0]?).getD 0, (ws[1]?).getD 0)] }

/-- No item is there: EMPTY, or the descriptor waits (R441, R442). -/
def State.noItem (s : State) (r : Nat) (d : Desc) : State :=
  if bit (d.w 0) 8 then s.modDesc r d.slot fun e => { e with started := true, waiting := true } else s.descEnd r d.slot csEmpty 0 0

/-- A DELIVER meets its trough (R441). -/
def State.deliver (s : State) (r : Nat) (d : Desc) : State :=
  let t := (d.w 1).toNat % 65536
  match s.headItem t with
  | none => s.noItem r d
  | some it =>
      let s1 := s.dropQuiet t
      if it.gap then s1.descEnd r d.slot csGap 0 (bits ((it.words.head?).getD 0) 0 32)
      else
        let s2 := s1.takeNote r d.slot t it.words
        let n := bits ((it.words[7]?).getD 0) 0 32
        let long := if bits ((it.words.head?).getD 0) 24 4 = 5 then it.words.length = 8 + n / 8 else it.words.length = 8
        if it.poison then s2.descEnd r d.slot csPoisoned 0 0
        else if ¬ long ∨ (it.words[7]?).getD 0 ≠ tagCheck (it.words.take 7) n then s2.descEnd r d.slot csTagCrc 0 0
        else s2.deliverRecord r d it.words

/-- SLUICE_DELIVER (R441, R448, R449). -/
def execSluiceDeliver (r : Fin 1024) (slot : Fin 65536) (s : State) : Result :=
  .next <| match s.startable r.val slot.val opDeliver with | none => s | some d => s.running.deliver r.val d

/-- Items a POP takes while each fits in what remains of LEN (R442): header and words of each. -/
def State.popItems : Nat → State → Nat → Nat → Nat → Nat → List Word × State
  | 0, s, _, _, _, _ => ([], s)
  | fuel + 1, s, r, slot, t, room =>
      match s.headItem t with
      | none => ([], s)
      | some it =>
          if room < 8 * (it.words.length + 1) then ([], s)
          else
            let s1 := s.dropQuiet t
            let s2 := if it.gap then s1 else s1.takeNote r slot t it.words
            let head := field 0 13 it.words.length ||| field 16 1 (b2n it.gap) ||| field 17 1 (b2n it.poison)
            let q := State.popItems fuel s2 r slot t (room - 8 * (it.words.length + 1))
            (head :: it.words ++ q.1, q.2)

/-- A POP meets its trough (R442). -/
def State.popDesc (s : State) (r : Nat) (d : Desc) : State :=
  let q := s.popItems (d.len / 16 + 1) r d.slot ((d.w 1).toNat % 65536) d.len
  if q.1 = [] then s.noItem r d
  else (q.2.hostPayload (d.w 2).toNat (bytesOfWords q.1) d.relaxed).descEnd r d.slot csOk (8 * q.1.length) 0

/-- SLUICE_POP (R440, R442). -/
def execSluicePop (r : Fin 1024) (slot : Fin 65536) (s : State) : Result :=
  .next <| match s.startable r.val slot.val opPop with | none => s | some d => s.running.popDesc r.val d

/-- DELIVER_WAIT_RESUME (R441, R442): a waiting descriptor finds an item. -/
def execDeliverWaitResume (r : Fin 1024) (slot : Fin 65536) (s : State) : Result :=
  .next <| match s.desc r.val slot.val with
    | none => s
    | some d =>
        if !d.waiting || !s.sluiceLive || !s.sluiceServes || (s.headItem ((d.w 1).toNat % 65536)).isNone then s
        else if d.op = opDeliver then s.deliver r.val d else s.popDesc r.val d

/-! ### FETCH and PUSH (R440, R443, R678) -/

/-- Bytes written to the fen from `a`, stored poisoned (R354, Table 9.10). -/
def State.writeBytesAs : Nat → State → Nat → List Byte → Bool → State
  | 0, s, _, _, _ => s
  | _, s, _, [], _ => s
  | fuel + 1, s, a, bs, poison =>
      let o := a % 8
      let n := min (8 - o) bs.length
      let w : Word := BitVec.ofNat 64 (natOfBytes (bs.take n) * 2 ^ (8 * o))
      let be : BitVec 8 := BitVec.ofNat 8 ((2 ^ n - 1) * 2 ^ o)
      let s1 := if s.fenUsable a then s.fenMerge (a / 8 * 8) w be poison else s.inc F.FEN_SCRUB_COUNT_BAD_ADDR
      State.writeBytesAs fuel s1 (a + n) (bs.drop n) poison

/-- Reads outstanding for a descriptor. -/
def State.readsOut (s : State) (r slot : Nat) : Bool :=
  s.host.tags.any fun t => !t.quar && (match t.use with | .data q k _ _ => q == r && k == slot | _ => false)

/-- A FETCH or PUSH whose reads are all answered ends. -/
def State.readSettle (s : State) (r slot : Nat) : State :=
  match s.desc r slot with
  | none => s
  | some d =>
      if !d.started || d.ended.isSome || s.readsOut r slot then s
      else match d.err with
        | some e =>
            let s1 := if d.op = opPush ∧ e = csHostError ∧ d.back = d.asked then s.pushPoisoned ((d.w 2).toNat % 65536) (d.len / 8) else s
            s1.descEnd r slot e (if d.op = opFetch then d.back else 0) 0
        | none =>
            if d.asked < d.len then s
            else if d.op = opFetch then s.descEnd r slot csOk d.back 0
            else
              let b := (List.range (d.data.length + 1)).foldl (fun (a : List Byte) _ =>
                match d.data.find? (fun p => p.1 == a.length) with | some p => a ++ p.2 | none => a) []
              let ws := (List.range (d.len / 8)).map fun k => wordOfBytes ((b.drop (8 * k)).take 8)
              (s.pushItem ((d.w 2).toNat % 65536) ws).descEnd r slot csOk d.len 0

/-- Data of a FETCH or PUSH read comes back (R354, R440, Table 9.10). -/
def State.readBack (s : State) (r slot off : Nat) (data : List Byte) (ok ep : Bool) : State :=
  match s.desc r slot with
  | none => s
  | some d =>
      if !d.started || d.ended.isSome then s
      else
        let good := ok && !ep
        let s1 := if ok ∧ d.op = opFetch then s.writeBytesAs (data.length + 1) ((d.w 2).toNat + off) data ep else s
        (s1.modDesc r slot fun e => { e with
          back := if ok then e.back + data.length else e.back
          data := if ok && d.op == opPush then e.data ++ [(off, data)] else e.data
          err := if good then e.err else e.err.or (some csHostError) }).readSettle r slot

/-- A FETCH or PUSH issues its next read, no longer than Max_Read_Request_Size, with read tag `tag`. -/
def State.readNext (s : State) (r : Nat) (d : Desc) (tag : Nat) : State :=
  if d.len ≤ d.asked ∨ d.err.isSome = true then s.readSettle r d.slot
  else if !s.tagFree (if s.ringHostFed r then 2 else 1) tag || !s.sluiceLive then s
  else
    let k := min s.maxRead (d.len - d.asked)
    (s.issueRead tag ((d.w 1).toNat + d.asked) k (.data r d.slot d.asked k)).modDesc r d.slot fun e => { e with asked := e.asked + k }

/-- A FETCH or PUSH starts, or goes on. -/
def State.readStep (s : State) (r slot op tag : Nat) : State :=
  match s.startable r slot op with
  | some d =>
      let s1 := s.running.modDesc r slot fun e => { e with started := true }
      s1.readNext r { d with started := true } tag
  | none => match s.desc r slot with
      | some d => if d.started && d.ended.isNone && d.op == op then s.readNext r d tag else s
      | none => s

/-- SLUICE_FETCH (R440, R678): the next read of a FETCH; its data comes back through HOST_COMPLETION_RECEIVED. -/
def execSluiceFetch (r : Fin 1024) (slot : Fin 65536) (tag : Fin 16384) (s : State) : Result :=
  .next (s.readStep r.val slot.val opFetch tag.val)

/-- SLUICE_PUSH (R440, R678): as SLUICE_FETCH, for a PUSH. -/
def execSluicePush (r : Fin 1024) (slot : Fin 65536) (tag : Fin 16384) (s : State) : Result :=
  .next (s.readStep r.val slot.val opPush tag.val)

/-! ### Retirement (R443, R444, R446, R449) -/

/-- A completion record (Table 9.9). -/
def State.complRecord (s : State) (r : Nat) (d : Desc) (e : Nat × Nat × Nat) : List Word :=
  let pass := (s.ring r).retired / s.ringSize r
  [field 0 8 e.1 ||| field 8 4 d.op ||| field 16 16 d.slot ||| field 32 10 r ||| field 63 1 (b2n (pass % 2 == 0)),
   field 0 32 e.2.1 ||| field 32 32 (bits (d.w 3) 32 32), BitVec.ofNat 64 e.2.2, BitVec.ofNat 64 s.now]

/-- A ring with nothing left on the scoreboard stops. -/
def State.ringStopped (s : State) (r : Nat) : State :=
  if (s.ring r).descs.isEmpty && s.get F.RING_CTRL_STATE r == rsStopping then s.put F.RING_CTRL_STATE r rsDisabled else s

/-- The oldest descriptor of a ring, if it has ended, retires: its record is issued, its watermarks rise, its blocks are released and its
vector is sent. -/
def State.retire (s : State) (r : Nat) : State :=
  match (s.ring r).descs with
  | [] => s
  | d :: rest => match d.ended with
      | none => s
      | some e =>
          let s1 := s.hostRecord (s.get F.RING_COMPL_BASE r * 64 + 32 * d.slot) (s.complRecord r d e)
          let s2 := s1.modRing r fun x => { x with descs := rest, retired := x.retired + 1 }
          let s3 := s2.put F.RING_PTR_HEAD r ((d.slot + 1) % s.ringSize r)
          let s4 := d.taken.foldl (fun a t => a.noteTaken t.1 t.2.1 t.2.2) s3
          let s5 := d.blocks.foldl State.releaseBlock s4
          let s6 := s5.incWrap F.SLUICE_COUNT_DESCRIPTORS
          let s7 := if e.1 = csLinkLost then s6.inc F.SLUICE_COUNT_LINK_LOST
            else if e.1 = csBadDesc then s6.inc F.SLUICE_COUNT2_BAD_DESC
            else if e.1 = csPoisoned then s6.inc F.SLUICE_COUNT2_POISONED
            else if e.1 = csTagCrc then s6.inc F.SLUICE_COUNT2_TAG_CRC
            else if e.1 = csHostError then s6.inc F.SLUICE_COUNT2_HOST_ERROR
            else s6
          let s8 := if bit (d.w 0) 5 && s7.isOn F.RING_CTRL_IRQ_EN r then s7.sendVector 0 (s7.get F.RING_CTRL_VECTOR r) .ring else s7
          s8.ringStopped r

/-- COMPLETION_RECORD_ISSUE (R443, R444, R446, R449): the oldest descriptor of ring `r` retires. -/
def execCompletionRecordIssue (r : Fin 1024) (s : State) : Result :=
  .next <| if !s.sluiceLive || (s.ring r.val).lost then s else s.retire r.val

/-! ### Ring registers (R445, R451, R461, R462) -/

/-- A write of RING_PTR. -/
def State.ringPtrWrite (s : State) (r : Nat) (v m : Word) : State :=
  let new := writeFields .RING_PTR (s.rd .RING_PTR r) v m
  if s.ringSize r ≤ bits new 0 16 then s.put F.RING_CTRL_CFG_REJECTED r 1 else s.wr .RING_PTR r new

/-- A write of RING_BASE, RING_COMPL or RING_TAG. -/
def State.ringFixedWrite (s : State) (reg : Reg) (r : Nat) (v m : Word) : State :=
  if s.isOn F.RING_CTRL_ENABLE r then s.put F.RING_CTRL_CFG_REJECTED r 1 else s.wr reg r (writeFields reg (s.rd reg r) v m)

/-- Whether an enable is refused; the ring's registers hold what was written. -/
def State.ringRefused (s : State) (r : Nat) : Bool :=
  let z := s.get F.RING_BASE_SIZE_LOG2 r
  let c := s.get F.RING_CTRL_RECOVER r
  decide (z < 4) || decide (16 < z) || decide (65536 < s.reserved + 16 * s.get F.RING_CTRL_INFLIGHT_RES r) ||
    (!s.ringHostFed r && decide (s.get F.RING_CTRL_SRC_TROUGH r < 400)) || (decide (1 ≤ c) && decide (c ≤ 399))

/-- Descriptors that have not started, or wait for an item, complete CANCELLED. -/
def Desc.cancel (d : Desc) : Desc :=
  if d.ended.isSome || (d.words == [] && !d.started) then d else if !d.started || d.waiting then d.close csCancelled 0 0 else d

/-- A write of RING_CTRL. -/
def State.ringCtrlWrite (s : State) (r : Nat) (v m : Word) : State :=
  let old := s.rd .RING_CTRL r
  let new := writeFields .RING_CTRL old v m
  let s1 := s.wr .RING_CTRL r (setBits new 0 1 (bits old 0 1))
  if !bit m 0 then s1
  else if bit new 0 && !bit old 0 then
    if s1.ringRefused r then s1.put F.RING_CTRL_CFG_REJECTED r 1
    else
      let drop := fun (t : RTag) => match t.use with | .fetch q _ _ => q == r | .data q _ _ _ => q == r
      let s2 := { s1 with host := { s1.host with tags := s1.host.tags.map fun (t : RTag) => { t with quar := t.quar || drop t } } }
      (((s2.setRing r Ring.zero).wr .RING_PTR r 0).put F.RING_CTRL_ENABLE r 1).put F.RING_CTRL_STATE r rsRunning
  else if bit new 0 then
    (if s1.get F.RING_CTRL_STATE r = rsStoppedLink then s1.put F.RING_CTRL_STATE r rsRunning else s1)
  else if bit old 0 then
    ((s1.modRing r fun x => { x with descs := x.descs.map Desc.cancel }).put F.RING_CTRL_ENABLE r 0).put F.RING_CTRL_STATE r rsStopping |>.ringStopped r
  else s1

/-- RING_TAIL_WRITE (R461): a write of `v` to RING_PTR. -/
def execRingTailWrite (r : Fin 1024) (v : Word) (s : State) : Result := .next (s.ringPtrWrite r.val v allBytes)

/-- RING_ENABLE (R451, R461, R462): a write of `v` with ENABLE 1. -/
def execRingEnable (r : Fin 1024) (v : Word) (s : State) : Result := .next (s.ringCtrlWrite r.val (v ||| 1) allBytes)

/-- RING_DISABLE (R462): a write of `v` with ENABLE 0. -/
def execRingDisable (r : Fin 1024) (v : Word) (s : State) : Result := .next (s.ringCtrlWrite r.val (v &&& ~~~1#64) allBytes)

/-- CNT_CLEAR of SLUICE_CFG (R456). -/
def State.sluiceCntClear (s : State) : State := (s.rst .SLUICE_COUNT).rst .SLUICE_COUNT2

/-- SLUICE_CNT_CLEAR (R456). -/
def execSluiceCntClear (s : State) : Result := .next s.sluiceCntClear

/-- A write of SLUICE_CFG (Table 9.14). -/
def State.sluiceCfgWrite (s : State) (v m : Word) : State :=
  let s1 := s.wr .SLUICE_CFG 0 (writeFields .SLUICE_CFG (s.rd .SLUICE_CFG) v m)
  if bit (v &&& m) 2 then s1.sluiceCntClear else s1

/-- SLUICE_STATUS as it reads (R457). -/
def State.sluiceStatus (s : State) : Word :=
  field 0 17 s.inflight ||| field 17 11 ((List.range 1024).filter fun r => s.isOn F.RING_CTRL_ENABLE r).length |||
    field 28 1 (b2n !s.host.linkUp)

/-! ### Mirrors (R442, R454, R458) -/

def State.mirror (s : State) (k : Nat) : Mirror := Tab.get Mirror.zero s.mirrors k

/-- Buffer size of a mirror; SIZE_LOG2 outside 12 to 30 acts as 12. -/
def State.mirrorSize (s : State) (k : Nat) : Nat :=
  let z := s.get F.MIRROR_CFG_SIZE_LOG2 k
  2 ^ (if z < 12 ∨ 30 < z then 12 else z)

/-- A write of a mirror's registers (R458). -/
def State.mirrorWrite (s : State) (reg : Reg) (k : Nat) (v m : Word) : State :=
  let on := s.isOn F.MIRROR_CFG_ENABLE k
  if reg = .MIRROR_CFG then
    let new := writeFields .MIRROR_CFG (s.rd .MIRROR_CFG k) v m
    if on then
      let s1 := s.put F.MIRROR_CFG_ENABLE k (bits new 0 1)
      if bit new 0 then s1 else { s1 with mirrorQ := Tab.set [] s1.mirrorQ k [] }
    else
      let s1 := s.wr .MIRROR_CFG k new
      if bit new 0 then { s1 with mirrors := Tab.set Mirror.zero s1.mirrors k Mirror.zero } else s1
  else if on then s else s.wr reg k (writeFields reg (s.rd reg k) v m)

/-- Bytes written round a mirror's buffer. -/
def State.mirrorBytes (s : State) (k off : Nat) (bs : List Byte) : State :=
  let base := s.get F.MIRROR_BASE_BASE k * 4096
  let room := s.mirrorSize k - off
  let s1 := s.hostPayload (base + off) (bs.take room) false
  if bs.length ≤ room then s1 else s1.hostPayload base (bs.drop room) false

/-- MIRROR_COPY (R442, R454): the oldest item committed to trough `k` is copied; `share`: the mirror has a share of the paths for it. -/
def execMirrorCopy (k : Fin 4) (share : Bool) (s : State) : Result :=
  .next <| match Tab.get [] s.mirrorQ k.val with
    | [] => s
    | ws :: rest =>
        let s1 := { s with mirrorQ := Tab.set [] s.mirrorQ k.val rest }
        if !s.isOn F.MIRROR_CFG_ENABLE k.val then s1
        else if !share || !s.sluiceServes || !s.sluiceLive then s1.inc F.MIRROR_CFG_DROPPED k.val
        else
          let m := s1.mirror k.val
          let item := field 0 13 ws.length :: ws
          let s2 := s1.mirrorBytes k.val m.off (bytesOfWords item)
          let e := m.off + 8 * item.length
          let off := e % s1.mirrorSize k.val
          let wraps := if s1.mirrorSize k.val ≤ e then (m.wraps + 1) % 2 ^ 28 else m.wraps
          ({ s2 with mirrors := Tab.set Mirror.zero s2.mirrors k.val ⟨off, wraps⟩ }).hostRecord (s1.get F.MIRROR_PTR_PTR k.val * 8)
            [field 0 36 off ||| field 36 28 wraps]

/-! ### HOLD, link loss and FLR (R450 to R453) -/

/-- A popped record goes to the ring's RECOVER trough (R453). -/
def State.recover (s : State) (r : Nat) (ws : List Word) : State :=
  let t := s.get F.RING_CTRL_RECOVER r
  if t = 0 then s.inc F.SLUICE_COUNT_RECOVER_LOST
  else
    let s1 := s.pushItem t ws
    if s.takesItem t ws.length then s1 else s1.inc F.SLUICE_COUNT_RECOVER_LOST

/-- Every descriptor of a ring that has not retired ends with status `st` (R450, R451). -/
def State.ringAbort (s : State) (r st : Nat) : State :=
  let ds := (s.ring r).descs
  let s1 := ds.foldl (fun a d => match d.popped with | some ws => a.recover r ws | none => a) s
  s1.modRing r fun x => { x with descs := x.descs.map fun d =>
    { d with
      words := if d.words = [] then [0, 0, 0, 0] else d.words
      started := true, popped := none, blocks := [] }.close st 0 (match d.popped with | some ws => ((ws[6]?).getD 0).toNat | none => 0) }

/-- Rings with descriptors or running. -/
def State.liveRings (s : State) : List Nat :=
  (List.range 1024).filter fun r => s.get F.RING_CTRL_STATE r == rsRunning || s.get F.RING_CTRL_STATE r == rsStopping

/-- HOLD entry: every descriptor not retired completes HOLD. -/
def State.sluiceHold (s : State) : State := s.liveRings.foldl (fun a r => if (a.ring r).lost then a else a.ringAbort r csHold) s

/-- PF0 may no longer send (R451, R672): descriptors complete LINK_LOST. What is still out for them answers to no descriptor: a
range of length 0 at slot 65536, which no ring has. -/
def State.sluiceLost (s : State) : State :=
  let s1 := s.liveRings.foldl (fun a r => (a.ringAbort r csLinkLost).modRing r fun x => { x with lost := true }) s
  { s1 with host := { s1.host with tags := s1.host.tags.map fun t => { t with use := .data 0 65536 0 0 } } }

/-- A ring's LINK_LOST records are written and it stops. -/
def State.ringFlush (s : State) (r : Nat) : State :=
  let s1 := (List.range (s.ring r).descs.length).foldl (fun a _ => a.retire r) (s.modRing r fun x => { x with lost := false })
  if s1.isOn F.RING_CTRL_ENABLE r then s1.put F.RING_CTRL_STATE r rsStoppedLink else s1.put F.RING_CTRL_STATE r rsDisabled

/-- The link is up again with Bus Master Enable 1 (R451). -/
def State.sluiceLinkUp (s : State) : State :=
  if s.sluiceLive then ((List.range 1024).filter fun r => (s.ring r).lost).foldl State.ringFlush s else s

/-- An FLR of PF0 (R452, R453): descriptors are abandoned without records; the ring and context delivery registers are reset. -/
def State.sluiceFlr (s : State) : State :=
  let s1 := (List.range 1024).foldl (fun a r => (a.ring r).descs.foldl (fun b d => match d.popped with | some ws => b.recover r ws | none => b) a) s
  ({ s1 with rings := [] }).rstWhere fun r =>
    [Reg.RING_PTR, .RING_BASE, .RING_COMPL, .RING_TAG, .RING_CTRL, .MIRROR_CFG, .CTX_DEST_NEXT, .CTX_DEST_CTRL, .CTX_DEST_STATUS,
      .CTX_DEST_COUNT, .CTX_SEQ_HI].contains r

/-- Whether any descriptor is in flight (Table 2.4). -/
def State.sluiceBusy (s : State) : Bool := s.rings.any fun e => !e.2.descs.isEmpty

/-- Whether any started descriptor has yet to retire, or to complete HOLD (R709). -/
def State.sluiceDraining (s : State) : Bool :=
  s.rings.any fun e => e.2.descs.any fun d => match d.ended with | some (st, _, _) => st != csHold | none => d.started

end Sys2Proof.Machine
end

