-- ==== Sys2Proof/Machine/Pair.lean ====
section
/-! DEFINITION. The pair controller and the causeway's packets (chapter 16). -/

namespace Sys2Proof.Machine

/-! ### Registers (R709, R718, R720, R721) -/

/-- Whether ENABLE may be set (R721). -/
def State.pairSerialOk (s : State) : Bool :=
  let p := (s.rd .PAIR_PEER_SERIAL).toNat
  p != 0 && p != s.serial

def State.cfgRejected (s : State) : State := s.put F.PAIR_STATUS_CFG_REJECTED 0 1

/-- Enabled stalls whose forward packets come from the causeway (R707). -/
def State.fedStalls (s : State) : List Nat :=
  (List.range 16).filter fun n => bit (s.rd .PAIR_CFG) (48 + n) && s.isOn F.STALL_LINK_CFG_ENABLE n && !s.isOn F.STALL_LINK_CFG_PPORT_SEL n

/-- OFF to SEEKING (Table 16.3). -/
def State.pairOn (s : State) : State :=
  let s1 := s.fedStalls.foldl (fun a n => (a.linkStop n).setLink n lsDown) s
  ({ s1 with pair := Pair.zero }.setPair psSeeking .election).linkStart cwLink

/-- Any state to OFF (Table 16.3): the line is released; watermarks and trimming stop. -/
def State.pairLeave (s : State) : State :=
  { s.setPair psOff .pairLeave with pair := Pair.zero }

/-- ENABLE is cleared. -/
def State.pairOff (s : State) : State :=
  let s1 := (s.pairLeave.causewayDown false).linkStop cwLink
  let s2 := s1.fedStalls.foldl (fun a n => (a.setLink n lsDown).linkStart n) s1
  if s.modeAhead = .shadow then s2.placeRequest ⟨.yardmaster, 5, .pairLeave, 0⟩ else s2

/-- A write of PAIR_CFG. -/
def State.pairCfgWrite (s : State) (v m : Word) : State :=
  let old := s.rd .PAIR_CFG
  let new := writeFields .PAIR_CFG old v m
  let was := bit old 0
  let frozen := was && (bits new 8 8 != bits old 8 8 || bits new 48 16 != bits old 48 16)
  let new1 := if frozen then setBits (setBits new 8 8 (bits old 8 8)) 48 16 (bits old 48 16) else new
  let bad := bit new 0 && !s.pairSerialOk
  let s1 := if frozen || bad then s.cfgRejected else s
  let s2 := s1.wr .PAIR_CFG 0 (if bad then setBits new1 0 1 (b2n was) else new1)
  if bad then s2
  else if bit new 0 then (if s2.pairSt = psOff then s2.pairOn else s2)
  else if was then s2.pairOff
  else s2

/-- A write of PAIR_PEER_SERIAL (R721). -/
def State.peerSerialWrite (s : State) (v m : Word) : State :=
  let new := writeFields .PAIR_PEER_SERIAL (s.rd .PAIR_PEER_SERIAL) v m
  if s.isOn F.PAIR_CFG_ENABLE && new != s.rd .PAIR_PEER_SERIAL then s.cfgRejected else s.wr .PAIR_PEER_SERIAL 0 new

/-- PAIR_CTRL.CNT_CLEAR (R720). -/
def State.pairCntClear (s : State) : State := (s.rst .PAIR_COUNT).rst .PAIR_COUNT2

/-- PAIR_CTRL.HANDOVER (R720). -/
def State.handover (s : State) : State :=
  if s.pairSt = psKeeper ∧ s.cwUp = true ∧ s.get F.PAIR_STATUS_PEER_STATE = psShadow then s.setPair psHanding .election else s.cfgRejected

/-- A write of PAIR_CTRL. -/
def State.pairCtrlWrite (s : State) (v m : Word) : State :=
  let s1 := if bit (v &&& m) 0 then s.handover else s
  if bit (v &&& m) 1 then s1.pairCntClear else s1

/-- PAIR_ENABLE (R721, Table 16.3). -/
def execPairEnable (v : Word) (s : State) : Result := .next (s.pairCfgWrite (setBits v 0 1 1) allBytes)

/-- PAIR_DISABLE (R709). -/
def execPairDisable (v : Word) (s : State) : Result := .next (s.pairCfgWrite (setBits v 0 1 0) allBytes)

/-- PAIR_HANDOVER (R720). -/
def execPairHandover (v : BitVec 32) (s : State) : Result := .next (s.pairCtrlWrite (setBits (v.zeroExtend 64) 0 1 1) allBytes)

/-- PAIR_CNT_CLEAR (R720). -/
def execPairCntClear (s : State) : Result := .next s.pairCntClear

/-- Entry to HOLD of a keeper (Table 16.3). -/
def State.pairHold (s : State) : State :=
  if s.isOn F.PAIR_CFG_ENABLE && s.pairSt == psKeeper then (if s.cwUp then s.setPair psHanding .election else s.takesShadow) else s

/-! ### STATUS (R703 to R705, R722) -/

/-- The body of a STATUS packet (Table 16.2). -/
def State.statusBody (s : State) (final : Bool) : List Word :=
  [field 0 3 s.pairSt ||| field 3 1 (b2n final) ||| field 4 1 (b2n (s.pairSt == psKeeper)) ||| field 8 8 (s.get F.PAIR_CFG_PRIORITY),
    s.rd .PAIR_EPOCH, word s.serial, s.rd .PAIR_PEER_SERIAL] ++
  (List.range 64).map (s.rd .PAIR_WM ·) ++ (List.range 16).map (s.rd .PAIR_HERD_WM ·)

/-- Whether every lane of the causeway is ACTIVE. -/
def State.cwActive (s : State) : Bool := s.isOn F.PAIR_CFG_ENABLE && (s.widthLanes cwLink).all fun l => s.laneSt l == lnActive

/-- PAIR_STATUS_SEND (R704, R705). -/
def execPairStatusSend (s : State) : Result := .next (if s.cwActive then s.emit (.causeway 0x40 (s.statusBody false)) else s)

/-- A member that keeps its own watermarks (R711, R720). -/
def State.ownMarks (s : State) : Bool := s.pairSt == psKeeper || s.pairSt == psHanding

/-- What a good STATUS leaves in the registers: the peer's state, epoch and, on a member that is not keeper, its watermarks (R720). -/
def State.copyStatus (s : State) (w : Nat → Word) : State :=
  let s1 := (s.wr .PAIR_PEER_EPOCH 0 (w 1)).put F.PAIR_STATUS_PEER_STATE 0 (bits (w 0) 0 3)
  let s2 := if s1.ownMarks then s1 else
    (List.range 16).foldl (fun a h => a.wr .PAIR_HERD_WM h (w (68 + h)))
      ((List.range 64).foldl (fun a c => a.wr .PAIR_WM c (w (4 + c))) s1)
  if bit (w 0) 3 then { s2 with pair := { s2.pair with peerFinal := true } }.raiseYard 456 s2.now else s2

/-- The causeway comes up (R703). -/
def State.causewayUp (s : State) : State :=
  if s.cwUp then s else ((s.put F.PAIR_STATUS_CAUSEWAY_UP 0 1).raiseYard 452 s.now).fwdStalls true

/-- A shadow whose peer has sent FINAL takes keeper once PEER_KEEP_N is released (Table 16.3). -/
def State.finalTakeover (s : State) : State :=
  if s.pairSt = psShadow ∧ s.pair.peerFinal = true ∧ s.peerKeep = false then s.takeover 1 0 else s

/-- What a good STATUS does to the pair state (Table 16.3). -/
def State.judgeStatus (s : State) (w : Nat → Word) : State :=
  let ps := bits (w 0) 0 3
  let prio := bits (w 0) 8 8
  let own := s.get F.PAIR_CFG_PRIORITY
  if s.pairSt = psSeeking then
    if ps = psKeeper ∨ ps = psHanding then (s.wr .PAIR_EPOCH 0 (w 1)).takesShadow
    else if ps = psSeeking then
      if prio < own ∨ (own = prio ∧ s.serial < (w 2).toNat) then s.takesKeeper else (s.wr .PAIR_EPOCH 0 (w 1)).takesShadow
    else s
  else s.finalTakeover

/-- A STATUS that passes its checks (R703, R709, R722). -/
def State.goodStatus (s : State) (w : Nat → Word) : State :=
  if w 2 ≠ s.rd .PAIR_PEER_SERIAL ∨ w 3 ≠ word s.serial then
    let s1 := if s.isOn F.PAIR_STATUS_MISCONFIG then s else (s.put F.PAIR_STATUS_MISCONFIG 0 1).alarm 0x33 (field 0 32 (w 2).toNat)
    s1.causewayDown true
  else if s.isOn F.PAIR_STATUS_MISCONFIG then s
  else
    let s1 := { s with pair := { s.pair with lastStatus := some s.now } }.causewayUp
    if s1.pairSt = psOff then s1.pairView else ((s1.copyStatus w).judgeStatus w).pairView.pairLines

/-- PAIR_STATUS_RECEIVED (R703, R704, R709, R722). -/
def execPairStatusReceived (body : List Word) (crc : BitVec 32) (errored : Bool) (tick : Nat) (s : State) : Result :=
  .next <|
    let p : Rx := ⟨0x40, 0, 0, bytesOfWords body, crc.toNat, errored, tick⟩
    let s1 := s.reach tick
    if !s1.cwActive then s1
    else if errored || !p.good || body.length != 84 then s1.inc F.PAIR_COUNT2_CW_DISCARDS
    else s1.goodStatus fun k => (body[k]?).getD 0

/-- CAUSEWAY_STATUS_TIMEOUT (R703): 10 µs with no good STATUS. -/
def execCausewayStatusTimeout (s : State) : Result :=
  .next <| match s.pair.lastStatus with
    | none => s
    | some t => if s.cwUp then { (s.reach (t + 40000)) with pair := { s.pair with lastStatus := none } }.causewayDown true else s

/-! ### The keeper lines (R700, R711, R714) -/

/-- PEER_KEEP_CHANGE (R700, R714, R716): the filtered levels of both keeper lines. -/
def execPeerKeepChange (own peer : Bool) (s : State) : Result :=
  .next <|
    let was := s.peerKeep
    let s1 := (s.put F.PAIR_STATUS_KEEP_OUT 0 (b2n own)).put F.PAIR_STATUS_PEER_KEEP 0 (b2n peer)
    let s2 :=
      if was && !peer then { s1 with pair := { s1.pair with release := some (s1.now - 4000) } }.raiseYard 454 s1.now
      else if !was && peer then { s1 with pair := { s1.pair with peerFinal := false } }.raiseYard 455 s1.now
      else s1
    if !s2.isOn F.PAIR_CFG_ENABLE then s2
    else if s2.pairSt = psStanddown ∧ peer = true then s2.setPair psShadow .standDown
    else s2.pairView.finalTakeover.pairLines

/-- PEER_RELEASE_TAKEOVER (R711, Table 16.3): PEER_KEEP_N has been released for 100 µs. -/
def execPeerReleaseTakeover (s : State) : Result :=
  .next <|
    let cut := s.pair.release.getD 0
    if (s.pairSt = psSeeking ∨ s.pairSt = psShadow) ∧ s.peerKeep = false ∧ (s.cwUp = false ∨ s.pair.peerFinal = false) then
      (s.reach (cut + 400000)).takeover 2 (word cut)
    else s

/-- STANDDOWN_RECLAIM (R714): 1 ms after the stand-down for the lower serial, 2 ms for the higher. -/
def execStanddownReclaim (s : State) : Result :=
  .next <|
    if s.pairSt = psStanddown ∧ s.peerKeep = false then
      let d := if s.serial < (s.rd .PAIR_PEER_SERIAL).toNat then 4000000 else 8000000
      (s.reach (s.pair.standAt + d)).takeover 3 (s.rd .PAIR_CUTOVER)
    else s

/-- HANDOVER_COMPLETE (R709, R710): FINAL is sent, and the member takes shadow. -/
def execHandoverComplete (s : State) : Result :=
  .next <|
    if s.pairSt = psHanding ∧ s.sluiceDraining = false then
      let s1 := if s.cwActive then (s.emit (.causeway 0x40 (s.statusBody true))).raiseYard 456 s.now else s
      s1.takesShadow
    else s

/-! ### Forwarded packets (R706, R707) -/

/-- FORWARD_PACKET_RECEIVED (R704, R707): word 0 names the stall, and the packet follows whole. -/
def execForwardPacketReceived (body : List Byte) (crc : BitVec 32) (errored : Bool) (tick : Nat) (room : Bool) (s : State) : Result :=
  .next <|
    let p : Rx := ⟨0x48, 0, 0, body, crc.toNat, errored, tick⟩
    let s1 := s.reach tick
    if !s1.cwActive then s1
    else if errored || !p.good then s1.inc F.PAIR_COUNT2_CW_DISCARDS
    else
      let n := p.num 0 1 % 32
      let len := p.num 10 2
      let q : Rx := ⟨p.num 8 1, p.num 9 1, p.num 12 4, (body.drop 16).take len, p.num (16 + len) 4, false, tick⟩
      if !s1.cwUp || 16 ≤ n || !s1.fwdIn n || !s1.isOn F.STALL_LINK_CFG_ENABLE n then s1
      else if q.type = 0x01 ∨ q.type = 0x02 ∨ q.type = 0x03 then s1.rxFrame n q room
      else if q.type = 0x21 then s1.rxEvent n q room
      else s1

/-! ### Trimming (R712) -/

/-- The blocks of a product of `n` bytes whose first block is at `a`, by its links (R421). -/
def State.productBlocks : Nat → State → Nat → Nat → List Nat × State
  | 0, s, _, _ => ([], s)
  | fuel + 1, s, a, n =>
      if n ≤ 65536 then ([a], s)
      else
        let l := s.engineRead (a + 65528)
        let q := State.productBlocks fuel l.2.2 (bits l.1 16 21 * 65536) (n - 65528)
        (a :: q.1, q.2)

/-- Whether record `ws` at the head of trough `t` is at or below the watermark last received. -/
def State.trimmable (s : State) (t : Nat) (ws : List Word) : Bool :=
  let w0 := (ws[0]?).getD 0
  let w1 := ((ws[1]?).getD 0).toNat
  let h := bits w0 19 4
  let c := bits w0 13 6
  decide (8 ≤ ws.length) &&
    (if bits w0 24 4 = 5 then s.herdOn h && s.get F.HERD_CFG_TROUGH h == t && decide (w1 ≤ (s.rd .PAIR_HERD_WM h).toNat)
     else t == 16 + c && s.ctxOn c && decide (w1 ≤ (s.rd .PAIR_WM c).toNat))

/-- The item behind the marker at the head. -/
def State.secondItem (s : State) (t : Nat) : Option (List TWord) :=
  let x := s.trg t
  if x.vis ≤ 1 then none else some ((List.range (s.headLen t x.vis 1 - 1)).map fun k => s.visWord t (1 + k))

/-- A record is popped and its product's blocks are released. -/
def State.trimRecord (s : State) (t : Nat) (ws : List Word) : State :=
  let w0 := (ws[0]?).getD 0
  let n := bits ((ws[7]?).getD 0) 0 32
  let s1 := (s.dropQuiet t).incWrap F.PAIR_COUNT2_TRIMMED
  if bits w0 24 4 = 5 ∨ bit w0 38 = true ∨ n = 0 then s1
  else
    let q := State.productBlocks (n / 65528 + 2) s1 (bits ((ws[6]?).getD 0) 0 37) n
    q.1.foldl State.releaseBlock q.2

/-- Trimming acts on the head until something must stay. -/
def State.trim : Nat → State → Nat → State
  | 0, s, _ => s
  | fuel + 1, s, t =>
      match s.headItem t with
      | none => s
      | some it =>
          if it.gap then
            match s.secondItem t with
            | some ts =>
                if !ts.any (fun w => w.gap || w.bad) && s.trimmable t (ts.map (·.data)) then
                  State.trim fuel (((s.dropQuiet t).inc F.PAIR_COUNT2_TRIM_GAPS).trimRecord t (ts.map (·.data))) t
                else s
            | none => s
          else if !it.poison && s.trimmable t it.words then State.trim fuel (s.trimRecord t it.words) t
          else s

/-- TAG_TROUGH_TRIM (R712). -/
def execTagTroughTrim (t : Fin 65536) (s : State) : Result :=
  .next <| if s.isOn F.PAIR_CFG_ENABLE && s.pairSt == psShadow && s.cwUp then State.trim (s.trg t.val).vis s t.val else s

end Sys2Proof.Machine
end

