-- ==== Sys2Proof/Machine/Device.lean ====
section
/-! DEFINITION. The device instructions of the grooms (chapter 11): outputs and events, camera triggers, waypoint lists, contexts,
troughs, analogue capture and modes. -/

namespace Sys2Proof.Machine

/-! ### Outputs and events (R512 to R519) -/

/-- What a request at an output scheduler comes to for the groom that made it: GD, C and V, and the groom's counters. -/
def State.emitReply (g : Nat) (d : BitVec 4) (r : Taken × State) : Exec :=
  let k := r.1
  let s1 := if k.suppressed then r.2.inc F.GROOM_DEV_COUNT_EMIT_SUPPRESSED g else r.2
  let s2 := if k.refused then s1.inc F.GROOM_DEV_COUNT_EMIT_REFUSED g else s1
  let s3 := if k.late then s2.inc F.GROOM_DEV_COUNT_EMIT_LATE g else s2
  s3.groomWrite g d (word k.tick) { (s3.groom g).flags with c := k.late, v := k.noPulse } 1

/-- Groom `g` executes EMIT with action `act` (R513, R514). -/
def State.runEmit (s : State) (g : Nat) (e : Ecc) (act : EmitAct) : State :=
  s.groomExec g e true fun i => match i with
    | .emit k timed out d a b => if k = act then some fun t =>
        if out.toNat = 31 then .fault fOutputReserved
        else
          let x := t.groom g
          let target := if timed then some (x.reg a).toNat else none
          State.emitReply g d (match act with
            | .pulse => t.takePulse out.toNat target (x.reg b).toNat true (.groom g) t.now
            | .set => t.takeLevel out.toNat .set target true (.groom g) t.now
            | .clear => t.takeLevel out.toNat .clear target true (.groom g) t.now)
        else none
    | _ => none

/-- EMIT PULSE. -/
def execEmitPulse (g : Fin 16) (ecc : Ecc) (s : State) : Result := .next (s.runEmit g.val ecc .pulse)
/-- EMIT SET. -/
def execEmitSet (g : Fin 16) (ecc : Ecc) (s : State) : Result := .next (s.runEmit g.val ecc .set)
/-- EMIT CLEAR. -/
def execEmitClear (g : Fin 16) (ecc : Ecc) (s : State) : Result := .next (s.runEmit g.val ecc .clear)

/-- EMITW (R515): from A to B. -/
def execEmitw (g : Fin 16) (ecc : Ecc) (s : State) : Result :=
  .next <| s.groomExec g.val ecc true fun i => match i with
    | .emitw out d a b => some fun t =>
        if out.toNat = 31 then .fault fOutputReserved
        else
          let x := t.groom g.val
          let lo := (x.reg a).toNat
          State.emitReply g.val d (t.takePulse out.toNat (some lo) ((x.reg b).toNat - lo : Int) true (.groom g.val) t.now)
    | _ => none

/-- SIG (R519). -/
def execSig (g : Fin 16) (ecc : Ecc) (s : State) : Result :=
  .next <| s.groomExec g.val ecc true fun i => match i with
    | .sig n => some fun t => .next (t.raiseYard (144 + 16 * g.val + n.toNat) t.now) ((t.groom g.val).after 1)
    | _ => none

/-- SIG.M (R519). -/
def execSigM (g : Fin 16) (ecc : Ecc) (s : State) : Result :=
  .next <| s.groomExec g.val ecc true fun i => match i with
    | .sigM a => some fun t =>
        let m := (t.groom g.val).reg a
        .next ((List.range 15).foldl (fun u n => if bit m n then u.raiseYard (144 + 16 * g.val + n) u.now else u) t)
          ((t.groom g.val).after 1)
    | _ => none

/-! ### Camera triggers and waypoint lists (R520 to R525) -/

/-- CTRIG (R170, R521). -/
def execCtrig (g : Fin 16) (ecc : Ecc) (s : State) : Result :=
  .next <| s.groomExec g.val ecc true fun i => match i with
    | .ctrig st act a b => some fun t =>
        let x := t.groom g.val
        let n := st.toNat
        let full := decide (32 ≤ ((t.stall n).trigs.filter fun q => !q.yard).length)
        let t1 := if t.trigOk n && full then t.inc F.GROOM_DEV_COUNT_CTRIG_FULL g.val
          else t.trigRequest n ⟨(x.reg a).toNat, act.toNat, bits (x.reg b) 0 8, false, some g.val⟩
        .next t1 (x.after 1)
    | _ => none

/-- Groom `g` executes WPT (R523 to R525). -/
def State.runWpt (s : State) (g : Nat) (e : Ecc) (op : WptOp) : State :=
  s.groomExec g e true fun i => match i with
    | .wpt o l d a => if o = op then some fun t =>
        let n := l.toNat
        let r := match op with
          | .set => t.wpSet n ((t.groom g).reg a)
          | .act => t.wpActivate n
          | .deact => (false, t.wpDeactivate n)
        r.2.groomWrite g d (r.2.wpAnswer n r.1) { (r.2.groom g).flags with z := !r.1 } 1
        else none
    | _ => none

/-- WPT.SET. -/
def execWptSet (g : Fin 16) (ecc : Ecc) (s : State) : Result := .next (s.runWpt g.val ecc .set)
/-- WPT.ACT. -/
def execWptAct (g : Fin 16) (ecc : Ecc) (s : State) : Result := .next (s.runWpt g.val ecc .act)
/-- WPT.DEACT. -/
def execWptDeact (g : Fin 16) (ecc : Ecc) (s : State) : Result := .next (s.runWpt g.val ecc .deact)

/-! ### Contexts (R526 to R529) -/

/-- Groom `g` executes ARM, or ARM.OFF (R527): 0 DONE, 1 NOT_ENABLED, 2 NO_CHANGE. -/
def State.runArm (s : State) (g : Nat) (e : Ecc) (off : Bool) : State :=
  s.groomExec g e true fun i => match i with
    | .arm o c d => if o = off then some fun t =>
        let n := c.toNat
        let armed := t.isOn F.CTX_STATUS_ARMED n
        let code := if !t.ctxOn n then 1 else if armed != off || (!off && (t.active n).isNone) then 2 else 0
        let t1 := if code ≠ 0 then t else if off then t.disarm n else t.arm n
        t1.groomWrite g d (word code) { (t1.groom g).flags with z := code == 0 } 1
        else none
    | _ => none

/-- ARM. -/
def execArm (g : Fin 16) (ecc : Ecc) (s : State) : Result := .next (s.runArm g.val ecc false)
/-- ARM.OFF. -/
def execArmOff (g : Fin 16) (ecc : Ecc) (s : State) : Result := .next (s.runArm g.val ecc true)

/-- The fault of a range of `n` words of data memory from `addr` (R489, R509), and the words. -/
def dmemRange (addr n : Nat) : Option Nat :=
  if 0x8000 < addr + 8 * n then some fDmemRange else if addr % 8 ≠ 0 then some fAlign else none

/-- `n` words of data memory from byte address `addr`. -/
def Groom.words (x : Groom) (addr n : Nat) : List Word := (List.range n).map fun k => Tab.get 0 x.dmem (addr / 8 + k)

/-- A device instruction reads `n` words of data memory before it leaves the groom (R493, R509). -/
def State.dmemRead (s : State) (g addr n : Nat) (mem : Ecc) (k : List Word → State → Exec) : Exec :=
  if n = 0 then k [] s
  else match dmemRange addr n with
    | some c => .fault c
    | none =>
        if mem = .double then .fault fDmemUe
        else k ((s.groom g).words addr n) (if mem = .single then s.groomCorr g else s)

/-- A TACK asks for the check of a copy (R528, R529): it waits until its commit leaves CHECKING, or ends LOCKED or REFUSED. -/
def State.tackAsk (s : State) (g c : Nat) (b wait : Bool) (d gb : BitVec 4) (locked : Bool) : State :=
  let s1 := s.setGroom g { s.groom g with wait := some ⟨.tackCheck c wait, d, (s.groom g).deadline gb, 1⟩ }
  if locked then s1.tackReply g cmLocked 0 false
  else
    let r := (s1.put F.CTX_COMMIT_COPY c (b2n b)).commitGo c b (some g)
    if r.1 then r.2 else r.2.tackReply g cmRefused 0 false

/-- TACK without LOAD. -/
def execTack (g : Fin 16) (ecc : Ecc) (s : State) : Result :=
  .next <| s.groomExec g.val ecc true fun i => match i with
    | .tack b w false c d _ gb => some fun t => .stay (t.tackAsk g.val c.toNat b w d gb false)
    | _ => none

/-- TACK with LOAD (R528): the image is read, written into the copy and committed. -/
def execTackLoad (g : Fin 16) (ecc mem : Ecc) (s : State) : Result :=
  .next <| s.groomExec g.val ecc true fun i => match i with
    | .tack b w true c d a gb => some fun t =>
        t.dmemRead g.val ((t.groom g.val).reg a).toNat 128 mem fun ws u =>
          let n := c.toNat
          if u.copyLocked n b then .stay (u.tackAsk g.val n b w d gb true)
          else
            let u1 := (List.range 128).foldl (fun v k => v.copyWrite n b k ((ws[k]?).getD 0) allBytes) u
            .stay (u1.tackAsk g.val n b w d gb false)
    | _ => none

/-- TACK.CANCEL (R246, R528). -/
def execTackCancel (g : Fin 16) (ecc : Ecc) (s : State) : Result :=
  .next <| s.groomExec g.val ecc true fun i => match i with
    | .tackCancel c d => some fun t =>
        let t1 := t.commitCancel c.toNat
        let r := t1.get F.CTX_COMMIT_RESULT c.toNat
        t1.groomWrite g.val d (field 0 4 r ||| field 4 10 (t1.get F.CTX_COMMIT_BAD_OFFSET c.toNat))
          { (t1.groom g.val).flags with z := r == cmPending || r == cmApplied, t := false } 1
    | _ => none

/-- TACK_WAIT_END (R529). -/
def execTackWaitEnd (g : Fin 16) (s : State) : Result :=
  .next <| match (s.groom g.val).wait with
    | some ⟨.tackEnded r, _, _, _⟩ => s.tackReply g.val r 0 false
    | some ⟨.tackDone _, _, some t, _⟩ => (s.reach t).tackReply g.val cmPending 0 true
    | _ => s

/-! ### Troughs (R530 to R535) -/

/-- A groom's trough access that Table 8.6 refuses (R395, R530). -/
def State.troughRefused (s : State) (g t : Nat) : Exec := .stay ((s.put F.TRG_STATUS_REFUSED_ACCESS t 1).groomFault g fTroughRefused)

/-- A groom pushes an item (R380, R381, R531). -/
def State.groomPush (s : State) (g t : Nat) (d : BitVec 4) (ws : List Word) : Exec :=
  let reply (u : State) (code : Nat) : Exec := u.groomWrite g d (word code) { (u.groom g).flags with z := code == 0 } 1
  if !pushAllowed t then s.troughRefused g t
  else if !s.trgOn t then reply (s.pushItem t ws) 2
  else if (s.trg t).openBy.isSome && !s.trgAsleep t then
    let s1 := s.setTrg t { s.trg t with waiting := (s.trg t).waiting ++ [⟨some g, ws⟩] }
    .stay (s1.setGroom g { s1.groom g with wait := some ⟨.push t, d, none, 1⟩ })
  else if !s.trgAsleep t && s.burstFits t ws.length then reply (s.pushItem t ws) 0
  else reply ((s.pushItem t ws).inc F.GROOM_DEV_COUNT2_PUSH_DROPS g) 1

/-- QPUSH of one word. -/
def execQpush (g : Fin 16) (ecc : Ecc) (s : State) : Result :=
  .next <| s.groomExec g.val ecc true fun i => match i with
    | .qpush d a b => some fun t =>
        let x := t.groom g.val
        t.groomPush g.val (bits (x.reg a) 0 16) d [x.reg b]
    | _ => none

/-- QPUSH.P. -/
def execQpushP (g : Fin 16) (ecc mem : Ecc) (s : State) : Result :=
  .next <| s.groomExec g.val ecc true fun i => match i with
    | .qpushP n d a b => some fun t =>
        let x := t.groom g.val
        t.dmemRead g.val (x.reg b).toNat (n.toNat + 1) mem fun ws u => u.groomPush g.val (bits (x.reg a) 0 16) d ws
    | _ => none

/-- Whether groom `g` finds a trough held by another (R384). -/
def State.heldFrom (s : State) (g t : Nat) : Bool := (s.trg t).holder.isSome && (s.trg t).holder != some (.groom g)

/-- QPOP of one word (R532). -/
def execQpop (g : Fin 16) (ecc mem : Ecc) (s : State) : Result :=
  .next <| s.groomExec g.val ecc true fun i => match i with
    | .qpop d a => some fun u =>
        let t := bits ((u.groom g.val).reg a) 0 16
        let fl := (u.groom g.val).flags
        if !u.popAllowed (.groom g.val) t then u.troughRefused g.val t
        else
          let w := u.visWord t 0
          let there := u.trgOn t && !u.trgAsleep t && !u.heldFrom g.val t && decide (0 < (u.trg t).vis)
          if there && w.eop then
            let r := u.popWord (.groom g.val) t mem
            r.2.groomWrite g.val d r.1.word.data { fl with z := false, n := false, c := w.gap, v := r.1.poison } 1
          else u.groomWrite g.val d 0 { fl with z := true, n := there, c := false, v := false } 1
    | _ => none

/-- The status of QPOP.P (R533). -/
def popStatus (words : Nat) (gap poison empty held long : Bool) : Word :=
  field 0 13 words ||| field 16 1 (b2n gap) ||| field 17 1 (b2n poison) ||| field 18 1 (b2n empty) ||| field 19 1 (b2n held) |||
    field 20 1 (b2n long)

/-- The words of an item written to data memory from word index `k`. -/
def storeWords (m : Tab Word) (k : Nat) : List Word → Tab Word
  | [] => m
  | w :: ws => storeWords (Tab.set 0 m k w) (k + 1) ws

/-- QPOP.P (R509, R533): one item of at most `n` words, to data memory from `addr`. -/
def State.groomPopItem (u : State) (g t addr n : Nat) (d : BitVec 4) (mem : Ecc) : Exec :=
  let fl := (u.groom g).flags
  match dmemRange addr n with
  | some c => .fault c
  | none =>
      if !u.popAllowed (.groom g) t then u.troughRefused g t
      else match u.headItem t with
        | none =>
            let held := u.trgOn t && (u.trg t).holder.isSome
            u.groomWrite g d (popStatus 0 false false (!held) held false) { fl with z := true } 1
        | some it =>
            if n < it.words.length then u.groomWrite g d (popStatus it.words.length false false false false true) { fl with z := true } 1
            else
              let u1 := u.dropHead t
              let u2 := if mem = .double ∧ it.poison = false then (u1.inc F.TRG_COUNT_POISON_POPS t).inc F.TRG_ECC_POISON_POPS
                else if mem = .single then (u1.inc F.TRG_COUNT_ECC_CORR t).inc F.TRG_ECC_CORR else u1
              let x := u2.groom g
              let u3 := u2.setGroom g { x with dmem := storeWords x.dmem (addr / 8) it.words }
              u3.groomWrite g d (popStatus it.words.length it.gap (it.poison || mem == .double) false false false) { fl with z := false } 1

/-- QPOP.P. -/
def execQpopP (g : Fin 16) (ecc mem : Ecc) (s : State) : Result :=
  .next <| s.groomExec g.val ecc true fun i => match i with
    | .qpopP n d a b => some fun u =>
        let x := u.groom g.val
        u.groomPopItem g.val (bits (x.reg a) 0 16) (x.reg b).toNat (n.toNat + 1) d mem
    | _ => none

/-- A program tag (Table 11.7). -/
def programTag (g : Nat) (a b : Word) (tick : Nat) (extra : List Word) : List Word :=
  let w0 := field 0 8 8 ||| field 8 4 g ||| field 12 3 extra.length ||| field 16 6 (bits a 32 6) ||| field 32 8 1 |||
    field 48 16 (bits a 16 16)
  let crc := crc32c (bytesOfWords ([w0, b, word tick] ++ extra))
  [w0, b, word tick, field 0 32 crc] ++ extra

/-- TAG (R534). -/
def execTag (g : Fin 16) (ecc mem : Ecc) (s : State) : Result :=
  .next <| s.groomExec g.val ecc true fun i => match i with
    | .tag n idx d a b => some fun t =>
        let x := t.groom g.val
        t.dmemRead g.val (8 * idx.toNat) n.toNat mem fun ws u =>
          u.groomPush g.val (bits (x.reg a) 0 16) d (programTag g.val (x.reg a) (x.reg b) u.now ws)
    | _ => none

/-- DRAIN (R535): 3 is NOT_FEEDABLE. -/
def execDrain (g : Fin 16) (ecc mem : Ecc) (s : State) : Result :=
  .next <| s.groomExec g.val ecc true fun i => match i with
    | .drain d a b => some fun t =>
        let x := t.groom g.val
        let r := bits (x.reg a) 0 10
        t.dmemRead g.val (x.reg b).toNat 4 mem fun ws u =>
          if !u.isOn F.RING_CTRL_ENABLE r || u.ringHostFed r then
            u.groomWrite g.val d 3 { (u.groom g.val).flags with z := false } 1
          else u.groomPush g.val (u.get F.RING_CTRL_SRC_TROUGH r) d ws
    | _ => none

/-! ### Analogue capture and modes (R537 to R539) -/

/-- Groom `g` executes ACAP (R538): every converter in the mask receives one start or stop with one tick. -/
def State.runAcap (s : State) (g : Nat) (e : Ecc) (stop : Bool) : State :=
  s.groomExec g e true fun i => match i with
    | .acap st m d => if st = stop then some fun t =>
        let t1 := (List.range 8).foldl (fun u n =>
          if m.getLsbD n then (if stop then u.adcStop n t.now else u.adcStart n t.now) else u) t
        t1.groomWrite g d (word t.now) (t1.groom g).flags 1
        else none
    | _ => none

/-- ACAP START. -/
def execAcapStart (g : Fin 16) (ecc : Ecc) (s : State) : Result := .next (s.runAcap g.val ecc false)
/-- ACAP STOP. -/
def execAcapStop (g : Fin 16) (ecc : Ecc) (s : State) : Result := .next (s.runAcap g.val ecc true)

/-- Targets a groom may request (Table 2.3). -/
def groomMay (target : Nat) : Bool := 6 ≤ target && target ≤ 9 || target == 11

/-- A MODE ends: GD, Z and T (R539). -/
def State.modeReply (s : State) (g result : Nat) (timeout : Bool) : State :=
  let x := s.groom g
  match x.wait with
  | none => s
  | some w =>
      let y := x.setG w.d (word result)
      s.setGroom g { y with
        st := .running, wait := none, pc := x.pc + w.len, flags := { x.flags with z := result == resDone, t := timeout } }

/-- MODE (R539). -/
def execMode (g : Fin 16) (ecc : Ecc) (s : State) : Result :=
  .next <| s.groomExec g.val ecc true fun i => match i with
    | .mode w target d b => some fun t =>
        let x := t.groom g.val
        let t1 := t.setGroom g.val { x with wait := some ⟨.mode, d, x.deadline b, 1⟩ }
        if !groomMay target.toNat then .stay (t1.modeReply g.val resDenied false)
        else
          let t2 := t1.placeRequest ⟨.groom g.val, target.toNat, .request, 0⟩
          .stay (if w then t2 else t2.modeReply g.val resPending false)
    | _ => none

/-- MODE_WAIT_END (R539): the request has completed, or the deadline comes. -/
def execModeWaitEnd (g : Fin 16) (s : State) : Result :=
  .next <| match (s.groom g.val).wait with
    | some ⟨.modeEnded r, _, _, _⟩ => s.modeReply g.val r false
    | some ⟨.mode, _, some t, _⟩ => (s.reach t).modeReply g.val resPending true
    | _ => s

end Sys2Proof.Machine
end

