-- ==== Sys2Proof/Machine/Modes.lean ====
section
/-! DEFINITION. The mode controller (R44 to R54), boot (R61 to R68), the retention island's supplies (R69 to R79), the device-level
resets (R80 to R83), and the handshake channels (R17 to R20). -/

namespace Sys2Proof.Machine

/-! ### Handshake channels (R17 to R20) -/

def State.chan (s : State) (c : Nat) : Chan := Tab.get Chan.zero s.chans c

def State.setChan (s : State) (c : Nat) (x : Chan) : State := { s with chans := Tab.set Chan.zero s.chans c x }

/-- The sender of a channel writes an entry: the receiver sees it, unless all eight entries are occupied and the sender holds it. -/
def Chan.write (x : Chan) (w : Word) : Chan :=
  if x.slots.length < 8 ∧ x.held = [] then { x with slots := x.slots ++ [w], taken := x.taken ++ [w] } else { x with held := x.held ++ [w] }

/-- The oldest entry is freed; an entry its sender held back takes the place. -/
def Chan.free (x : Chan) : Chan :=
  match x.held with
  | [] => { x with slots := x.slots.tail }
  | w :: h => if x.slots = [] then x else { slots := x.slots.tail ++ [w], held := h, taken := x.taken ++ [w] }

/-- HANDSHAKE_ENTRY_VISIBLE (R17 to R19). -/
def execHandshakeEntryVisible (c : Fin 64) (w : Word) (s : State) : Result := .next (s.setChan c.val ((s.chan c.val).write w))

/-- HANDSHAKE_ENTRY_FREED (R19). -/
def execHandshakeEntryFreed (c : Fin 64) (s : State) : Result := .next (s.setChan c.val (s.chan c.val).free)

/-! ### Requests (R46 to R50) -/

/-- The order of service (R49). -/
def ReqSource.rank : ReqSource → Nat
  | .yardmaster => 0
  | .pf1 => 1
  | .pf0 => 2
  | .groom g => 3 + g

/-- Whether Table 2.3 lets a source ask for a target from the present mode. -/
def State.mayAsk (s : State) (r : ModeReq) : Bool :=
  let t := r.target
  let own := match r.src with
    | .pf0 => (4 ≤ t && t ≤ 9) || t == 11
    | .pf1 => 4 ≤ t && t ≤ 11
    | .groom _ => groomMay t
    | .yardmaster => t == 5 || t == 7 || t == 10 || t == 11
  own && (s.ctl.mode != .hold || t == 11 || r.src == .pf1)

/-- A groom that the READY to ARMED and READY to DRAIN rows release (Table 2.4). -/
def State.groomStartable (s : State) (g : Nat) : Bool :=
  let x := s.groom g
  (x.st == .halted || x.st == .faulted) && s.isOn F.GROOM_CTRL_START_EN g

/-- The guard of leaving HOLD (Table 2.4, R60): not BOOT_NO_IMAGE, and the causing alarm, if any, acknowledged. -/
def State.mayLeaveHold (s : State) : Bool := s.get F.DEV_HOLD_CAUSE_HOLD_CODE != 1 && s.isOn F.ALARM_HOLD_SEQ_ACKED

/-- Whether Table 2.4 has a row from the present mode to `target` for this request whose guard is true. -/
def State.rowOpen (s : State) (r : ModeReq) (target : Mode) : Bool :=
  let flr := r.reason == .flr
  match s.ctl.mode, target with
  | .quiet, .ready => true
  | .ready, .quiet => !s.sluiceBusy
  | .ready, .armed => (List.range 16).any s.groomStartable
  | .ready, .drain => true
  | .armed, .stream | .armed, .burst | .armed, .ready => true
  | .drain, .ready | .drain, .armed | .drain, .stream | .drain, .burst => true
  | .stream, .burst | .burst, .stream => true
  | .stream, .armed | .stream, .drain | .stream, .ready => true
  | .burst, .armed | .burst, .drain | .burst, .ready => true
  | .armed, .shadow | .stream, .shadow | .burst, .shadow | .drain, .shadow => s.isOn F.PAIR_CFG_ENABLE
  | .shadow, .stream => s.isOn F.PAIR_CFG_ENABLE && s.isOn F.PAIR_STATUS_RIGHTS
  | .shadow, .ready => r.src == .pf1 || r.reason == .pairLeave || flr
  | .hold, .ready | .hold, .quiet | .hold, .drain => s.mayLeaveHold
  | .boot, .hold | .quiet, .hold | .ready, .hold | .armed, .hold | .stream, .hold | .burst, .hold | .drain, .hold | .shadow, .hold => true
  | _, _ => false

/-- What the mode controller answers a request as it serves it (R47): 0 where a transition starts, otherwise its result. An FLR of
PF0 moves the mode from ARMED, STREAM, BURST, DRAIN or SHADOW alone (Table 2.14). -/
def State.judge (s : State) (r : ModeReq) : Nat :=
  if r.reason = .flr ∧ !(s.ctl.mode.needsKeeper || s.ctl.mode == .shadow) = true then resDone
  else if !s.mayAsk r then resDenied
  else match Mode.ofCode r.target with
    | none => resDenied
    | some t => if s.rowOpen r t then 0 else resIllegal

/-- A request completes (R48, R58, R539, R669, Table 17.9): the register or the groom shows its newest request alone. -/
def State.complete (s : State) (r : ModeReq) (result : Nat) : State :=
  if s.ctl.pend.any (fun q => q.src == r.src) then s
  else match r.src with
    | .yardmaster => s
    | .pf0 => ((s.put F.DEV_MODE_REQ_RESULT 0 result).put F.DEV_MODE_REQ_GO 0 0).devIrq 0
    | .pf1 => ((s.put F.DEV_MODE_REQ_RESULT 1 result).put F.DEV_MODE_REQ_GO 1 0).sendPf1 4
    | .groom g =>
        let x := s.groom g
        match x.wait with
        | some w => if w.kind = .mode then s.setGroom g { x with wait := some { w with kind := .modeEnded result } } else s
        | none => s

/-- A function's source. -/
def fnSource (fn : Nat) : ReqSource := if fn = 0 then .pf0 else .pf1

/-- A write to a function's DEV_MODE_REQ (R48, R58): GO submits TARGET, and a request it replaces completes SUPERSEDED. -/
def State.modeReqWrite (s : State) (fn : Nat) (v m : Word) : State :=
  let s1 := s.wr .DEV_MODE_REQ fn (writeFields .DEV_MODE_REQ (s.rd .DEV_MODE_REQ fn) v m)
  if !bit (v &&& m) 4 then s1
  else
    let src := fnSource fn
    let old := s1.ctl.pend.find? fun q => q.src == src && q.target != 11
    let s2 := match old with
      | some r => { s1 with ctl := { s1.ctl with pend := s1.ctl.pend.erase r } }.complete r resSuperseded
      | none => s1
    ((s2.placeRequest ⟨src, s2.get F.DEV_MODE_REQ_TARGET fn, .request, 0⟩).put F.DEV_MODE_REQ_RESULT fn resPending).put F.DEV_MODE_REQ_GO fn 1

/-- MODE_REQUEST_GO (R58). -/
def execModeRequestGo (fn : Fin 2) (v : Word) (s : State) : Result := .next (s.modeReqWrite fn.val (v ||| 0x10) allBytes)

/-! ### What a transition does (Table 2.1, Table 2.4, R54) -/

/-- Every groom that may start is released at its start address (Table 2.4, R470). -/
def State.releaseGrooms (s : State) : State :=
  (List.range 16).foldl (fun a g => if s.groomStartable g then a.groomRelease g (s.get F.GROOM_CTRL_START_ADDR g) else a) s

/-- The mode controller halts every groom (R471, R511): pulses, level changes and Triggers of grooms that have not begun go. -/
def State.haltGrooms (s : State) : State :=
  let s1 := ((List.range 16).foldl (fun a g => a.groomHaltNow g 2) s).discardGroomOutputs
  (List.range 16).foldl (fun a n => a.modStall n fun x => { x with trigs := x.trigs.filter (·.groom.isNone) }) s1

/-- Every frame in progress closes INCOMPLETE, and a Frame Start held behind one goes with it (Table 2.4, R51). -/
def State.closeFrames (s : State) : State :=
  (List.range 20).foldl (fun a n => (a.closeFrame n true).modStall n fun x => { x with held := none, heldPkts := [] }) s

/-- Grooms halted and contexts disarmed (Table 2.4, R212). -/
def State.standEasy (s : State) : State := s.disarmAll.haltGrooms

/-- Entry to HOLD from wherever the device is (Table 2.4, R51): sources first, sinks last. -/
def State.enterHold (s : State) : State :=
  let s1 := s.closeFrames
  let s2 := (List.range 64).foldl (fun a c => a.abandonStack c) s1
  let s3 := (List.range 16).foldl (fun a n => a.ctlAbort n crHold) s2.disarmAll.herdHold
  let s4 := s3.adcsOn.adcsEnd.vstsHold.haltGrooms.wpAllOff
  let s5 := (s4.cutOutputs true).sluiceHold.pairHold
  if s5.ctl.mode = .quiet then s5.lanesReady else s5

/-- What begins with a transition from the present mode. -/
def State.startMove (s : State) (r : ModeReq) (target : Mode) : State :=
  match s.ctl.mode, target with
  | .quiet, .ready => s.lanesReady.adcsOn
  | .ready, .quiet | .hold, .quiet => s.lanesQuiet.adcsOff
  | .ready, .armed => s.releaseGrooms.armAll
  | .ready, .drain => s.releaseGrooms
  | .drain, .armed | .drain, .stream | .drain, .burst => s.armAll
  | .armed, .ready | .drain, .ready => s.standEasy
  | .shadow, .ready => (if r.src == .pf1 then s.pairLeave else s).closeFrames.standEasy
  | .hold, .ready => s.lanesReady
  | _, .hold => s.enterHold
  | _, _ => s

/-- The fen is out of self-refresh, or in it (R397); the far troughs' pending markers are committed as it leaves (R392). -/
def State.fenAwake (s : State) (on : Bool) : State :=
  let s1 := (s.put F.FEN_STATUS_READY 0 (b2n on)).put F.FEN_STATUS_SELF_REFRESH 0 (b2n (!on))
  if on && s.ctl.mode == .quiet then
    (s.troughs.map (·.1)).foldl (fun a t =>
      if a.trgFar t && decide (0 < (a.trg t).gaps) && (a.trg t).openBy.isNone then a.commitPending t else a) s1
  else s1

/-- DEV_HOLD_CAUSE and ALARM_HOLD_SEQ at an entry to HOLD (R59, R60). -/
def State.holdCause (s : State) (r : ModeReq) : State :=
  let cause (code byReq src g seq acked : Nat) : State :=
    (s.wr .DEV_HOLD_CAUSE 0 (field 0 8 code ||| field 8 1 byReq ||| field 9 4 src ||| field 13 4 g)).wr .ALARM_HOLD_SEQ 0
      (field 0 32 seq ||| field 32 1 acked)
  match r.reason, r.src with
  | .fault code, _ =>
      let waits := s.mgmt.unacked.contains r.seq || s.mgmt.raised.any (fun a => a.seq == r.seq) || decide (0 < s.mgmt.missed)
      cause code 0 0 0 r.seq (b2n (!waits))
  | _, .yardmaster => cause 0 1 0 0 0 1
  | _, .pf0 => cause 0 1 1 0 0 1
  | _, .pf1 => cause 0 1 2 0 0 1
  | _, .groom g => cause 0 1 3 g 0 1

/-- What ends with a transition from mode `old`, the new mode standing. -/
def State.endMove (s : State) (old : Mode) (r : Option ModeReq) : State :=
  let s1 := s.tbMode
  match s1.ctl.mode with
  | .quiet => ((s1.wpAllOff).cutOutputs false).fenAwake false
  | .shadow => s1.cutOutputs false
  | .hold => match r with | some q => (s1.cutOutputs true).holdCause q | none => s1
  | .ready | .drain =>
      if old = .hold then (List.range 16).foldl (fun a n => if a.stUp n then a.quarRun n else a) (s1.askShadow .election)
      else s1.askShadow .election
  | _ => s1.askShadow .election

/-! ### Service (R49 to R52) -/

/-- The first of two requests in the order of service. -/
def firstReq : List ModeReq → Option ModeReq
  | [] => none
  | r :: rs => match firstReq rs with
    | none => some r
    | some q => if r.src.rank ≤ q.src.rank then some r else some q

/-- A transition starts: every request still pending is served with it (R49). -/
def State.startTransition (s : State) (r : ModeReq) (target : Mode) (served : List ModeReq) : State :=
  ({ s with ctl := { s.ctl with trans := some ⟨target, some r, served⟩, pend := [] } }).startMove r target

/-- Pending requests are served in order until one starts a transition (R49). -/
def State.serve : Nat → State → State
  | 0, s => s
  | n + 1, s =>
      match firstReq s.ctl.pend with
      | none => s
      | some r =>
          let s1 := { s with ctl := { s.ctl with pend := s.ctl.pend.erase r } }
          match s1.judge r, Mode.ofCode r.target with
          | 0, some t => s1.startTransition r t s1.ctl.pend
          | res, _ => State.serve n (s1.complete r res)

/-- Whether a request is for HOLD. -/
def ModeReq.forHold (r : ModeReq) : Bool := r.target == 11

/-- A request for HOLD never waits (R51): it joins an entry under way, or abandons any other transition. -/
def State.holdNow (s : State) : State :=
  match s.ctl.trans with
  | none => s
  | some t =>
      let holds := t.served.filter (·.forHold) ++ s.ctl.pend.filter (·.forHold)
      if t.target = .hold then
        let joins := s.ctl.pend.filter fun q => q.forHold && (match t.winner with | some w => q.src != w.src | none => true)
        { s with ctl := { s.ctl with
            trans := some { t with served := t.served ++ joins }, pend := s.ctl.pend.filter fun q => !joins.contains q } }
      else match firstReq holds with
        | none => s
        | some h =>
            let rest := s.ctl.pend.filter fun q => !q.forHold
            let served := (t.served ++ s.ctl.pend.filter (·.forHold)).erase h
            let s1 := { s with ctl := { s.ctl with trans := some ⟨.hold, some h, served⟩, pend := rest } }
            (match t.winner with | some w => s1.complete w resAborted | none => s1).enterHold

/-- Whether the mode controller serves requests. -/
def Mode.serves : Mode → Bool
  | .off | .keep | .reset => false
  | _ => true

/-- The mode controller serves what is pending. -/
def State.modeEval (s : State) : State :=
  if !s.ctl.mode.serves then s
  else (if s.ctl.trans.isNone then s.serve s.ctl.pend.length else s).holdNow

/-- MODE_REQUEST_EVAL (R46 to R51). -/
def execModeRequestEval (s : State) : Result := .next s.modeEval

/-- A transition ends (R52): frames still in progress have met their bound, DEV_MODE takes the new mode, and the requests served with
it complete. -/
def State.endTransition (s : State) (t : Transition) : State :=
  let old := s.ctl.mode
  let draining := (old == .stream || old == .burst) && (t.target == .armed || t.target == .drain || t.target == .ready)
  let s1 := if draining then s.closeFrames else s
  let s2 := if draining && t.target == .ready then s1.standEasy else s1
  let s3 := if old == .quiet || t.target == .quiet then s2.fenAwake (t.target != .quiet) else s2.fenAwake true
  let s4 := { s3 with ctl := { s3.ctl with mode := t.target, prev := old, trans := none } }
  let s5 := s4.endMove old t.winner
  let s6 := match t.winner with | some r => s5.complete r resDone | none => s5
  t.served.foldl (fun a r => a.complete r (if Mode.ofCode r.target = some t.target then resDone else resSuperseded)) s6

/-- MODE_TRANSITION_END (R52, R122): QUIET to READY waits for its stalls. -/
def execModeTransitionEnd (s : State) : Result :=
  .next <| match s.ctl.trans with
    | none => s
    | some t => if s.ctl.mode = .quiet ∧ t.target = .ready ∧ !s.lanesSettled = true then s else s.endTransition t

/-- DEV_MODE as it reads (Table 2.6): BOOT reads as a transition in progress until the image has started. -/
def State.devMode (s : State) : Word :=
  let target := match s.ctl.trans with | some t => t.target | none => s.ctl.mode
  field 0 4 s.ctl.mode.code ||| field 4 4 s.ctl.prev.code ||| field 8 4 target.code |||
    field 12 1 (b2n (s.ctl.trans.isSome || s.ctl.mode == .boot))

/-- DEV_STATUS as it reads (Table 2.7). -/
def State.devStatus (s : State) : Word :=
  setBits (setBits (s.rd .DEV_STATUS) 0 1 (b2n s.ctl.mode.hbOn)) 1 1 (b2n s.tb.unsync)

/-- BOOT_STATUS as it reads (Table 2.11): the fuses show in it. -/
def State.bootStatus (s : State) : Word :=
  let f := s.fuses.revoked
  let k := (List.range 4).foldl (fun n i => n + (if (f[i]?).getD false then 2 ^ i else 0)) 0
  setBits (setBits (s.rd .BOOT_STATUS) 16 7 s.fuses.rollback) 23 4 k

/-! ### Resets (R80 to R83, Table 2.14) -/

/-- Which reset (Table 2.14). -/
inductive ResetKind where
  | power | perst | hot | soft | watchdog
deriving DecidableEq, Repr

/-- A power-on or fundamental reset: the fen and the logs are lost. -/
def ResetKind.deep : ResetKind → Bool
  | .power | .perst => true
  | _ => false

/-- Troughs that a reset of the other kinds keeps: 0 to 3, and the free-block lists (R393). -/
def keptTrough (t : Nat) : Bool := t < 4 || (144 ≤ t && t < 400)

/-- Registers that a hot, soft or watchdog reset leaves as they are (R82, R367, R393, R754). -/
def keptReg (r : Reg) (i : Nat) : Bool :=
  match r with
  | .DEV_RESET_CAUSE | .ALARM_STATUS | .FEN_SEG_MAP | .FEN_SEG_ACTIVE => true
  | .FEN_POOL_CFG | .FEN_POOL_LIST | .FEN_POOL_STATUS | .FEN_POOL_COUNT => true
  | .TRG_CFG | .TRG_BASE | .TRG_THRESH | .TRG_STATUS | .TRG_COUNT | .TRG_DROPS => keptTrough i
  | _ => false

/-- The register file after a reset. -/
def State.resetRegs (s : State) (k : ResetKind) : State :=
  { s with regs := Tab.drop (fun key => match regOfKey (key) with
      | some r => !(if k.deep then k == .perst && r == .DEV_RESET_CAUSE else keptReg r (key % 2 ^ 20))
      | none => true) s.regs }

/-- A function's configuration space after a reset: the sticky AER fields stay through all but a power-on or fundamental one. -/
def Func.reset (f : Func) (sticky : Bool) : Func :=
  { Func.zero with regs := if sticky then Tab.drop (fun off => !(0x104 ≤ off && off < 0x148)) f.regs else [] }

/-- The endpoint after a reset. -/
def HostEp.reset (h : HostEp) (k : ResetKind) : HostEp :=
  let fs := { HostEp.zero with pf0 := h.pf0.reset (!k.deep), pf1 := h.pf1.reset (!k.deep) }
  match k with
  | .power | .perst | .hot => fs
  | .soft | .watchdog => { fs with linkUp := h.linkUp, speed := h.speed, width := h.width, flit := h.flit }

/-- The time base after a reset (Table 12.2): the count stands until it restarts, or runs on. -/
def TimeBase.reset (t : TimeBase) : TimeBase :=
  { TimeBase.zero with count := t.count, unsync := t.unsync, refPresent := t.refPresent, cycles := t.cycles, trigLast := t.trigLast }

/-- The core's side of the field domain after a reset (R641): the field side runs on. -/
def Field.coreReset (f : Field) : Field := { f with toField := [], arrived := [], lost := [], held := [] }

/-- The management plane after a reset (R754): what describes trough 0 stays with it. -/
def Mgmt.reset (m : Mgmt) (deep : Bool) : Mgmt :=
  if deep then { Mgmt.zero with jtag := m.jtag }
  else { Mgmt.zero with
    jtag := m.jtag, raised := m.raised, unacked := m.unacked, missed := m.missed, missedFirst := m.missedFirst }

/-- Everything a reset of Table 2.14 does beside its cause and what it does to the time base and the supplies. -/
def State.coreReset (s : State) (k : ResetKind) : State :=
  let d := k.deep
  let s1 := s.resetRegs k
  let s2 := { s1 with
    chans := [], ctl := ModeCtl.zero
    boot := { s1.boot with running := none, runLevel := 0, runKey := 0, autoReady := false }
    fen := if d then [] else s1.fen
    fenChk := if d then [] else s1.fenChk
    fenFix := []
    near := if d then [] else s1.near
    troughs := if d then [] else
      (Tab.drop (fun t => !keptTrough t) s1.troughs).map fun (e : Nat × Trough) => (e.1, { e.2 with waiting := [] })
    mirrorQ := []
    outBits := if d then [] else s1.outBits
    yard := Yard.zero, grooms := [], scratch := [], stalls := [], lanes := [], ctxs := [], baysServed := [], crib := []
    cribLoad := none, paddock := [], padLoad := none, herds := [], adcs := [], vsts := [], rings := [], mirrors := []
    pair := Pair.zero, tb := s1.tb.reset, outs := [], wpLists := []
    wpMem := if d then [] else s1.wpMem
    samples := [], fld := s1.fld.coreReset, mgmt := s1.mgmt.reset d, host := s1.host.reset k }
  let s3 := if d then s2 else ([1, 2, 3].foldl (fun (a : State) t => a.loseHold t) s2).put F.FEN_STATUS_RECORD_RESTORED 0 1
  (s3.put F.DEV_STATUS_RETENTION_VALID 0 (b2n s3.ret.valid)).put F.DEV_STATUS_VBAT_LOW 0 (b2n (s3.power.vbatMv < 2000))

/-- A soft, hot or watchdog reset, naming its bit of DEV_RESET_CAUSE (R82). -/
def State.warmReset (s : State) (k : ResetKind) (cause : Fld) : State :=
  if s.ctl.mode = .off ∨ s.ctl.mode = .keep ∨ s.power.perst = true then s else (s.coreReset k).put cause 0 1

/-- A write to DEV_RESET (R81). -/
def State.devResetWrite (s : State) (v m : Word) : State :=
  let w := v &&& m
  if bit w 0 && bits w 16 16 == 0x5253 then s.warmReset .soft F.DEV_RESET_CAUSE_SOFT_RESET else s

/-- SOFT_RESET. -/
def execSoftReset (v : Word) (s : State) : Result := .next (if s.ctl.mode = .reset then s else s.devResetWrite v allBytes)

/-- HOT_RESET (R80). -/
def execHotReset (s : State) : Result := .next (s.warmReset .hot F.DEV_RESET_CAUSE_HOT_RESET)

/-- YARDMASTER_WATCHDOG_EXPIRY (R724): the watchdog runs while the firmware does. -/
def execYardmasterWatchdogExpiry (s : State) : Result :=
  .next (if s.firmware then s.warmReset .watchdog F.DEV_RESET_CAUSE_YM_WATCHDOG else s)

/-- A fundamental reset (R75, R80, R83, R561): the backup counter takes the count and carries it; before the seal has been sampled the
count has not restarted, and the counter stands. -/
def State.fundamental (s : State) : State :=
  let s1 := if s.power.sampled && !s.ret.carrying then s.loadBackup else s
  let s2 := { s1 with ret := { s1.ret with carrying := s1.ret.carrying || s1.power.sampled } }
  (s2.coreReset .perst).put F.DEV_RESET_CAUSE_PERST 0 1

/-- PERST_ASSERT (R80, R83). -/
def execPerstAssert (s : State) : Result :=
  .next <| if !s.power.vddAon || s.power.perst then s
    else { s with power := { s.power with perst := true } }.fundamental

/-- RAIL_DROP_RESET (R768): a main rail, 0 to 7, falls below 90 % after PERST_N has been released. -/
def execRailDropReset (rail : Fin 10) (s : State) : Result :=
  .next <| if !s.power.vddAon || s.power.perst || decide (8 ≤ rail.val) then s
    else { s with power := { s.power with railsGood := false } }.fundamental

/-- RESET ends once PERST_N is released and every rail is good: the boot ROM starts in BOOT (R53), and a count that the backup counter
carried restarts (R561). -/
def State.toBoot (s : State) : State :=
  if s.ctl.mode ≠ .reset ∨ s.power.perst = true ∨ s.power.railsGood = false ∨ s.power.vddAon = false then s
  else
    let s1 := if s.ret.carrying then
        { s with tb := { s.tb with count := s.ret.backup * 4000 }, ret := { s.ret with carrying := false } } else s
    { s1 with ctl := { s1.ctl with mode := .boot, prev := .reset } }

/-- PERST_RELEASE (R53): every rail is good. -/
def execPerstRelease (s : State) : Result :=
  .next <| if !s.power.vddAon then s
    else { s with power := { s.power with perst := false, railsGood := true } }.toBoot

/-! ### Supplies and seal (R69 to R77) -/

/-- VBAT below 2.0 V while the island runs from main power (R70, R677). -/
def State.vbatLow (s : State) : State :=
  if s.isOn F.DEV_STATUS_VBAT_LOW then s
  else
    let s1 := (s.put F.DEV_STATUS_VBAT_LOW 0 1).alarm 0x04 (field 0 16 s.power.vbatMv)
    if s1.ctl.mode = .reset ∧ s1.power.perst = true ∧ s1.ret.pmeEn = true then { s1 with ret := { s1.ret with wakeN := true } } else s1

/-- The level of VBAT. -/
def State.setVbat (s : State) (mv : Nat) : State := { s with power := { s.power with vbatMv := mv } }

/-- VBAT_RISE (R53): the island starts from the cell with the seal clear. -/
def execVbatRise (mv : Nat) (s : State) : Result :=
  .next <|
    if s.ctl.mode = .off ∧ s.power.vddAon = false ∧ 2000 ≤ mv then
      { (s.setVbat mv) with ret := { s.ret with sealWord := 0 }, ctl := { s.ctl with mode := .keep } }
    else s

/-- VDD_AON_RISE (R53, R69, R80, R82): a power-on reset; PERST_N is asserted until it is released. -/
def execVddAonRise (s : State) : Result :=
  .next <|
    if s.power.vddAon then s
    else
      let keep := s.ctl.mode == .keep
      let r := { s.ret with
        sealWord := if keep then s.ret.sealWord else 0, valid := false, carrying := false
        pmeEn := false, pmeStatus := false, wakeN := false }
      let s1 := State.coreReset { s with
        power := { s.power with vddAon := true, perst := true, railsGood := true, sampled := false }, ret := r } .power
      let s2 := (s1.put F.DEV_RESET_CAUSE_FROM_KEEP 0 (b2n keep)).put F.DEV_STATUS_VBAT_LOW 0 0
      if s2.power.vbatMv < 2000 then s2.vbatLow else s2

/-- VDD_AON_FALL (R53, R69, R70, R73, R75): to KEEP on a cell of 1.9 V or above, otherwise to OFF with the seal cleared. -/
def execVddAonFall (s : State) : Result :=
  .next <|
    if !s.power.vddAon then s
    else
      let code := s.ctl.mode.code
      let s1 := if s.power.sampled && !s.ret.carrying then s.loadBackup else s
      let s2 := { s1 with power := { s1.power with vddAon := false, perst := true }, ret := { s1.ret with carrying := false } }
      if s.power.vbatMv < 1900 then
        let s3 := s2.coreReset .power
        { s3 with ret := { s3.ret with sealWord := 0, queue := [] }, ctl := { s3.ctl with mode := .off } }
      else
        let s3 := (s2.retain [(0x021, [BitVec.ofNat 8 code])]).coreReset .power
        { s3 with ctl := { s3.ctl with mode := .keep } }

/-- VBAT_BROWNOUT (R53, R70): the comparator clears the seal, and stops a step under way; the island holds its contents down to
1.7 V. -/
def execVbatBrownout (mv : Nat) (s : State) : Result :=
  .next <|
    if s.ctl.mode = .keep ∧ mv < 1900 then
      let s1 := { (s.setVbat mv) with ret := { s.ret with sealWord := 0, queue := [] } }
      if mv < 1700 then { s1 with ctl := { s1.ctl with mode := .off } } else s1
    else s

/-- VBAT_LOW (R70). -/
def execVbatLow (mv : Nat) (s : State) : Result :=
  .next <| if s.power.vddAon = true ∧ mv < 2000 then (s.setVbat mv).vbatLow else s

/-- VBAT_RECOVER (R70). -/
def execVbatRecover (mv : Nat) (s : State) : Result :=
  .next <| if s.power.vddAon = true ∧ 2000 ≤ mv then (s.setVbat mv).put F.DEV_STATUS_VBAT_LOW 0 0 else s

/-- SEAL_SAMPLE (R75, R76, Table 12.2): once for each rise of VDD_AON. -/
def execSealSample (s : State) : Result :=
  .next <|
    if !s.power.vddAon || s.power.sampled then s
    else
      let s1 := { s with power := { s.power with sampled := true } }
      if s1.ret.sealValid then
        { s1 with ret := { s1.ret with valid := true }, tb := { s1.tb with count := s1.ret.backup * 4000, unsync := false } }.put
          F.DEV_STATUS_RETENTION_VALID 0 1
      else
        ({ s1 with
          ret := { ({ s1.ret with mem := [], queue := [] }.step ⟨[]⟩) with valid := false }
          tb := { s1.tb with count := 0, unsync := true } }.put F.DEV_STATUS_RETENTION_VALID 0 0).alarm 0x03 0

/-! ### Boot (R61 to R68, R734) -/

/-- The yardmaster configures its log troughs (Table 17.2), unless the reset kept them. -/
def State.configureLogs (s : State) : State :=
  [(0, 10, 11264), (1, 10, 10240), (2, 11, 8192), (3, 13, 0)].foldl (fun a (t, lg, base) =>
    if a.trgOn t then a
    else ((a.wr .TRG_BASE t (word base)).put F.TRG_CFG_SIZE_LOG2 t lg).put F.TRG_CFG_ENABLE t 1) s

/-- An image starts (R65, R73): slot `k`, with the results of both checks recorded. -/
def State.startImage (s : State) (k ra rb : Nat) : State :=
  let b := s.boot
  let a := slotBase k
  let seq := b.sequence k
  let last := s.ret.ahead.nat 0x018 8
  let auto := b.nat (a + 0x012) 2 % 2 == 1
  let s1 := { s with boot := { b with
    running := some k, runLevel := b.nat (a + 0x010) 1, runKey := b.nat (a + 0x011) 1, autoReady := auto } }
  let s2 := ((s1.wr .BOOT_SEQ 0 (word seq)).put F.BOOT_STATUS_SELECTED 0 k).put F.DEV_STATUS_BOOT_IMAGE 0 k
  let s3 := s2.configureLogs.retain
    ((if s.ret.ahead.nat 0 8 = 0 then [(0x000, bytesOfNat 8 1)] else []) ++
      (if ra = 0 then [(0x008, bytesOfNat 8 (b.sequence 0))] else []) ++ (if rb = 0 then [(0x010, bytesOfNat 8 (b.sequence 1))] else []) ++
      [(0x018, bytesOfNat 8 seq), (0x020, [BitVec.ofNat 8 k])])
  let s4 := if s.ret.valid && decide (seq < last) then (s3.put F.DEV_STATUS_BOOT_DOWNGRADE 0 1).alarm 0x02 (word seq) else s3
  let s5 := s4.fenAwake auto
  let s6 := { s5 with ctl := { s5.ctl with mode := if auto then .ready else .quiet, prev := .boot } }
  if auto then s6.adcsOn.lanesReady else s6

/-- BOOT_IMAGE_SELECT (R64, R65): the valid image of the higher SEQUENCE starts, image A where they are equal; with none, alarm
BOOT_NO_IMAGE. -/
def execBootImageSelect (readErrA readErrB : Bool) (s : State) : Result :=
  .next <|
    let s0 := s.toBoot
    if s0.ctl.mode ≠ .boot ∨ s0.boot.running.isSome = true ∨ s0.ctl.trans.isSome = true ∨ s0.isOn F.BOOT_STATUS_NONE_VALID = true then s0
    else
      let ra := s0.checkImage 0 readErrA
      let rb := s0.checkImage 1 readErrB
      let s1 := (s0.put F.BOOT_STATUS_A_RESULT 0 ra).put F.BOOT_STATUS_B_RESULT 0 rb
      if ra = 0 ∧ (rb ≠ 0 ∨ s0.boot.sequence 1 ≤ s0.boot.sequence 0) then s1.startImage 0 ra rb
      else if rb = 0 then s1.startImage 1 ra rb
      else
        let s2 := s1.put F.BOOT_STATUS_NONE_VALID 0 1
        s2.alarm 0x01 s2.bootStatus

/-! ### Time passing -/

/-- One cycle of ISL_YARD with no command: the count advances by 4, by 3 or 5 where a slew takes or adds a tick (R551, R560), and
RESET ends. -/
def State.idle (s : State) : State :=
  if !s.power.vddAon then s
  else
    let s1 := s.toBoot
    let t := s1.tb
    let acc := t.slewAcc + 4 * max 1 (s1.get F.TB_CFG_SLEW_MAX)
    let (d, left, acc') : Nat × Int × Nat :=
      if t.slew = 0 then (4, 0, 0)
      else if 1000000 ≤ acc then (if 0 < t.slew then (5, t.slew - 1, acc - 1000000) else (3, t.slew + 1, acc - 1000000))
      else (4, t.slew, acc)
    { s1 with tb := { t with
        count := if s1.ret.carrying || !s1.power.sampled then t.count else t.count + d
        cycles := t.cycles + 1, slew := left, slewAcc := acc' } }

end Sys2Proof.Machine
end

