-- ==== Sys2Proof/Machine/Endpoint.lean ====
section
/-! DEFINITION. The host endpoint (chapter 15): configuration space, error reporting, MSI-X, read tags, link loss, power management and
function-level resets. -/

namespace Sys2Proof.Machine

/-! ### Configuration space (R655 to R658) -/

/-- The value a writable configuration dword holds after reset. -/
def cfgReset (fn off : Nat) : Nat :=
  match off with
  | 0x78 => devCtlReset
  | 0x0A0 => if fn = 0 then 6 else 0
  | 0x108 => 0x00400000
  | 0x10C => 0x00462010
  | 0x114 => 0x00006000
  | _ => 0

/-- The bits of a configuration dword that software writes. -/
def cfgRw (fn off : Nat) : Nat :=
  match off with
  | 0x04 => 0x00000546
  | 0x0C | 0x3C => 0x000000FF
  | 0x10 => if fn = 0 then 0xFC000000 else 0xFFF00000
  | 0x14 => 0xFFFFFFFF
  | 0x18 => if fn = 0 then 0 else 0xFFFFE000
  | 0x1C => if fn = 0 then 0xFFFFFFE0 else 0xFFFFFFFF
  | 0x20 => if fn = 0 then 0xFFFF0000 else 0
  | 0x24 => if fn = 0 then 0xFFFFFFFF else 0
  | 0x50 => 0xC0000000
  | 0x78 => 0x000079FF
  | 0x80 => 0x000001CB
  | 0x98 => if fn = 0 then 0x0000340F else 0
  | 0x0A0 => if fn = 0 then 0x0000000F else 0
  | 0x108 | 0x10C => 0x00577010
  | 0x114 => 0x000071C1
  | 0x348 => if fn = 0 then 0xE3FFFF0F else 0
  | 0x34C => if fn = 0 then 0x000000FB else 0
  | 0x364 => if fn = 0 then 0x1FFF1FFF else 0
  | _ => 0

/-- The bits of a configuration dword that a write of 1 clears. -/
def cfgW1c (off : Nat) : Nat :=
  match off with
  | 0x04 => 0xC0000000
  | 0x78 => 0x000F0000
  | 0x104 => 0x00577010
  | 0x110 => 0x000071C1
  | _ => 0

/-- Configuration dwords both functions fix alike (Tables 15.1 to 15.3). -/
def cfgBoth (off : Nat) : Nat :=
  match off with
  | 0x04 => 0x00100000
  | 0x0C => 0x00800000
  | 0x34 => 0x00000040
  | 0x70 => 0x80020010
  | 0x74 => 0x10008022
  | 0x7C => 0x00460906
  | 0x9C => 0x0000007E
  | 0x100 => 0x14820001
  | _ => 0

/-- Configuration dwords of PF0 alone. -/
def cfgPf0 (off : Nat) : Nat :=
  match off with
  | 0x00 => 0x0F161F3E
  | 0x08 => 0x118000C0
  | 0x10 | 0x20 => 0x4
  | 0x18 => 0xC
  | 0x2C => 0x00011F3E
  | 0x3C => 0x100
  | 0x40 => 0x00035001
  | 0x44 => 0x8
  | 0x50 => 0x07FF7011
  | 0x54 => 0x00000004
  | 0x58 => 0x00008004
  | 0x94 => 0x30030803
  | 0x148 => 0x16010003
  | 0x160 => 0x1A010019
  | 0x1A0 => 0x1B010025
  | 0x1A4 => 0x80000001
  | 0x1B0 => 0x20010026
  | 0x200 => 0x2401002A
  | 0x240 => 0x28010031
  | 0x280 => 0x30010027
  | 0x300 => 0x34010032
  | 0x340 => 0x3601001E
  | 0x344 => 0x00310A1F
  | 0x360 => 0x00010018
  | _ => 0

/-- Configuration dwords of PF1 alone. -/
def cfgPf1 (off : Nat) : Nat :=
  match off with
  | 0x00 => 0x0F171F3E
  | 0x08 => 0x088000C0
  | 0x10 | 0x18 => 0x4
  | 0x2C => 0x00021F3E
  | 0x3C => 0x200
  | 0x40 => 0xC0035001
  | 0x44 => 0x8
  | 0x50 => 0x003F7011
  | 0x54 => 0x00000002
  | 0x58 => 0x00001002
  | 0x94 => 0x10010000
  | 0x148 => 0x00010003
  | _ => 0

def cfgFixed (fn off : Nat) : Nat := cfgBoth off + (if fn = 0 then cfgPf0 off else cfgPf1 off)

/-- A configuration dword as stored. -/
def Func.dword (f : Func) (fn off : Nat) : Nat := f.cfg off (cfgReset fn off)

def Func.setDword (f : Func) (fn off v : Nat) : Func := { f with regs := Tab.set (cfgReset fn off) f.regs off v }

def Func.msixOn (f : Func) : Bool := f.cfg cfgMsix / 2 ^ 31 % 2 == 1

def Func.msixMasked (f : Func) : Bool := f.cfg cfgMsix / 2 ^ 30 % 2 == 1

/-- Whether the function may assert its INTx pin (R665). -/
def Func.intx (f : Func) : Bool := !f.msixOn && f.cfg cfgCommand / 1024 % 2 == 0

def Func.memOn (f : Func) : Bool := f.cfg cfgCommand / 2 % 2 == 1

/-- Whether a function asserts its INTx pin (R665, R670). -/
def State.intPin (s : State) (fn : Nat) : Bool :=
  (s.func fn).intx && (if fn = 0 then s.rd .HIRQ_INTX_CAUSE != 0 else s.host.intb)

/-- The bits of a configuration dword that show something else of the machine. -/
def State.cfgLive (s : State) (fn off : Nat) : Nat :=
  match off with
  | 0x04 => b2n (s.intPin fn) * 2 ^ 19
  | 0x44 => (if (s.func fn).d3hot then 3 else 0) + (if fn = 1 then b2n s.ret.pmeEn * 2 ^ 8 + b2n s.ret.pmeStatus * 2 ^ 15 else 0)
  | 0x78 => if fn = 0 then b2n (s.host.tags.any fun t => !t.quar) * 2 ^ 21 else 0
  | 0x80 => s.host.speed % 16 * 2 ^ 16 + s.host.width % 64 * 2 ^ 20
  | 0x14C => s.serial % 2 ^ 32
  | 0x150 => s.serial / 2 ^ 32
  | _ => 0

/-- A configuration dword as it reads. -/
def State.cfgRead (s : State) (fn off : Nat) : Nat := (s.func fn).dword fn off + cfgFixed fn off + s.cfgLive fn off

/-! ### Error reporting (R687 to R689) -/

/-- Bits of the Uncorrectable Error Status register. -/
def uePoison : Nat := 12
def ueTimeout : Nat := 14
def ueUnexpected : Nat := 16
def ueUr : Nat := 20

/-- The state with bits of a configuration dword set. -/
def State.cfgOr (s : State) (fn off v : Nat) : State :=
  s.setFunc fn ((s.func fn).setDword fn off ((s.func fn).dword fn off ||| v))

/-- The Header Log takes a header this model does not carry: free values (R689). -/
def State.logHeader (s : State) (fn : Nat) : State :=
  (List.range 4).foldl (fun a k =>
    let w := a.fresh
    w.2.setFunc fn ((w.2.func fn).setDword fn (0x11C + 4 * k) (w.1.toNat % 2 ^ 32))) s

/-- An uncorrectable error of function `fn` (R687 to R689); `adv`: it is advisory while its severity is Non-Fatal (R688). -/
def State.ueLog (s : State) (fn b : Nat) (adv : Bool) : State :=
  let f := s.func fn
  let on := fun off i => f.dword fn off / 2 ^ i % 2 == 1
  let fatal := on 0x10C b
  let masked := on 0x108 b
  let serr := on 0x04 8
  let advisory := adv && !fatal
  let ur := b != ueUr || on 0x78 3
  let s1 := if masked || f.dword fn 0x104 / 2 ^ (f.dword fn 0x118 % 32) % 2 == 1 then s
    else (s.setFunc fn (f.setDword fn 0x118 b)).logHeader fn
  let s2 := (s1.cfgOr fn 0x104 (2 ^ b)).cfgOr fn 0x78
    ((if advisory then 2 ^ 16 else if fatal then 2 ^ 18 else 2 ^ 17) + (if b = ueUr then 2 ^ 19 else 0))
  let s3 := if b = uePoison then s2.cfgOr fn 0x04 (2 ^ 31) else s2
  let s4 :=
    if advisory then
      let t := s3.cfgOr fn 0x110 (2 ^ 13)
      if masked || on 0x114 13 || !on 0x78 0 || !ur then t else t.emit (.pcieMessage 1 fn)
    else if masked || !ur then s3
    else if fatal then (if on 0x78 2 || serr then s3.emit (.pcieMessage 3 fn) else s3)
    else if on 0x78 1 || serr then s3.emit (.pcieMessage 2 fn)
    else s3
  s4.alarm 0x28 (field 0 1 fn ||| field 8 5 b)

/-- A request is an Unsupported Request (Table 15.6): a posted one is discarded, any other completed so; UR_SENT is PF0's. -/
def State.unsupported (s : State) (fn : Nat) (posted : Bool) : State :=
  let s1 := s.ueLog fn ueUr (!posted)
  if posted then s1
  else
    let s2 := s1.emit (.completion fn 1 [] false)
    if fn = 0 then s2.inc F.HOST_COUNT2_UR_SENT else s2

/-! ### Interrupts (R35 to R38, R665 to R671) -/

/-- Slots a class has in a window (Table 1.10). -/
def MsgClass.slots : MsgClass → Nat
  | .ring => 160 | .yard => 16 | .trough => 48 | .device => 8 | .shared => 18

/-- Slots used of a class. -/
def State.slotsOf (s : State) (c : MsgClass) : Nat := (s.host.slots.filter (· == c)).length

/-- The slot a PF0 message of class `c` takes in the window, if any is left: its class's, or a shared one. -/
def State.slotFor (s : State) (c : MsgClass) : Option MsgClass :=
  if s.slotsOf c < c.slots then some c
  else if s.slotsOf .shared < MsgClass.shared.slots then some .shared
  else none

/-- Whether function `fn` may send a message at all. -/
def State.maySend (s : State) (fn : Nat) : Bool :=
  let f := s.func fn
  s.host.linkUp && f.master && !f.d3hot && !f.inFlr

/-- The coalescing interval of a PF0 vector, in ticks (R698). -/
def State.coalesce (s : State) (v : Nat) : Nat :=
  let n := bits (s.rd .HIRQ_COALESCE (v / 8)) (8 * (v % 8)) 6
  if n = 63 then 4000 else 64 * n

def State.dropMsg (s : State) (m : Msg) : State := { s with host := { s.host with msgs := s.host.msgs.erase m } }

/-- A message a function using INTx does not send (R665, R670). -/
def State.withhold (s : State) (m : Msg) : State :=
  if !(s.func m.fn).intx then s
  else if m.fn = 1 then { s with host := { s.host with intb := true } }
  else match m.cls with
    | .ring => s.put F.HIRQ_INTX_CAUSE_RING 0 1
    | .yard => s.put F.HIRQ_INTX_CAUSE_YARD 0 1
    | .trough => s.put F.HIRQ_INTX_CAUSE_TROUGH 0 1
    | .device => s.put F.HIRQ_INTX_CAUSE_DEVICE 0 1
    | .shared => s

def State.vec (s : State) (fn v : Nat) : Vec := Tab.get Vec.zero (s.func fn).vecs v

/-- A message leaves (R35 to R37). -/
def State.issueMsg (s : State) (m : Msg) : State :=
  let e := s.vec m.fn m.vector
  let out := Out.msix m.fn m.vector e.addr e.data
  if m.fn = 1 then
    if s.host.slots1.contains m.vector then s
    else
      let t := s.dropMsg m
      State.emit { t with host := { t.host with slots1 := t.host.slots1 ++ [m.vector], inL1 := false } } out
  else match s.slotFor m.cls with
    | none => s
    | some c =>
        let last := Tab.get 0 s.host.lastMsg m.vector
        let t := (if last = 0 then s else s.reach (last - 1 + s.coalesce m.vector)).dropMsg m
        State.emit { t with host := { t.host with
          slots := t.host.slots ++ [c], inL1 := false, lastMsg := Tab.set 0 t.host.lastMsg m.vector (t.now + 1) } } out

/-- A function's PBA bit is set or cleared. -/
def State.setPba (s : State) (fn v : Nat) (b : Bool) : State :=
  s.setFunc fn { s.func fn with pba := Tab.set false (s.func fn).pba v b }

/-- A message meets its function's enables and masks (R665, R666). In the HOLD of BOOT_NO_IMAGE PF1's message waits for them (R727). -/
def State.judgeMsg (s : State) (m : Msg) : State :=
  let f := s.func m.fn
  if !f.msixOn then (if m.fn = 1 ∧ s.noImage = true then s else (s.dropMsg m).withhold m)
  else if f.msixMasked || (s.vec m.fn m.vector).masked then (s.dropMsg m).setPba m.fn m.vector true
  else if s.maySend m.fn then s.issueMsg m
  else s

/-- MSIX_MESSAGE_ISSUE (R35 to R38, R665, R666): a waiting message of a vector. -/
def execMsixMessageIssue (fn : Fin 2) (vector : Fin 2048) (window : Bool) (s : State) : Result :=
  .next <|
    let s1 := if !window then s
      else if fn.val = 0 then { s with host := { s.host with slots := [] } } else { s with host := { s.host with slots1 := [] } }
    match s1.host.msgs.find? fun m => m.fn == fn.val && m.vector == vector.val with
    | none => s1
    | some m => s1.judgeMsg m

/-- A vector whose PBA bit is set and which nothing masks any more sends one message from the shared pool (R666). -/
def State.flushVec (s : State) (fn v : Nat) : State :=
  let f := s.func fn
  if Tab.get false f.pba v && f.msixOn && !f.msixMasked && !(s.vec fn v).masked then (s.setPba fn v false).sendVector fn v .shared
  else s

def State.flushPba (s : State) (fn : Nat) : State := (s.func fn).pba.foldl (fun a e => a.flushVec fn e.1) s

/-- A vector's table entry is written. -/
def State.setVec (s : State) (fn v : Nat) (e : Vec) : State :=
  (s.setFunc fn { s.func fn with vecs := Tab.set Vec.zero (s.func fn).vecs v e }).flushVec fn v

/-- MSIX_UNMASK (R666): software clears a vector's mask bit. PF1 has 64 vectors. -/
def execMsixUnmask (fn : Fin 2) (vector : Fin 2048) (s : State) : Result :=
  .next (if fn.val = 1 ∧ 64 ≤ vector.val then s else s.setVec fn.val vector.val { s.vec fn.val vector.val with masked := false })

/-- HIRQ_SOURCE_EVENT (R668): an event of yard consumer 376 + k. -/
def execHirqSourceEvent (k : Fin 16) (s : State) : Result :=
  .next <| match s.takeEvent (376 + k.val) with
    | none => s
    | some (t, s1) =>
        if !s1.isOn F.HIRQ_SRC_CFG_ENABLE k.val || bit (s1.rd .HIRQ_SRC_PENDING) k.val then s1
        else
          let s2 := (s1.wr .HIRQ_SRC_PENDING 0 (s1.rd .HIRQ_SRC_PENDING ||| 1#64 <<< k.val)).put F.HIRQ_SRC_TICK_TICK k.val t
          s2.sendVector 0 (s2.get F.HIRQ_SRC_CFG_VECTOR k.val) .yard

/-! ### Losing the host (R431, R436, R451, R672, R681) -/

/-- Placements in progress are cut. -/
def State.cutPlacements (s : State) : State :=
  (List.range 20).foldl (fun a n => a.modStall n fun x =>
    { x with frame := x.frame.map fun f => { f with prods := f.prods.map fun p => if p.host.isSome then { p with cut := true } else p } }) s

/-- PF0 may send no more: the sluice, placements in progress and pending buffers. -/
def State.hostLost (s : State) : State := (List.range 64).foldl (fun a c => a.destCancel c) s.sluiceLost.cutPlacements

/-- A change that may stop or restart PF0's requests (R451, R672). -/
def State.hostChange (s : State) (f : State → State) : State :=
  let t := f s
  if s.sluiceLive && !t.sluiceLive then t.hostLost
  else if !s.sluiceLive && t.sluiceLive then t.sluiceLinkUp
  else t

/-! ### Function-level resets (R684 to R686, Table 15.13) -/

/-- An agent's open packets are rewound and its holds released (R393). -/
def State.dropAgent (s : State) (who : Agent) : State :=
  s.troughs.foldl (fun a e =>
    let t := e.1
    let before := (a.trg t).vis
    let b := if (a.trg t).openBy == some who then ((a.rewind t true).afterOpen t).trgThresh t before else a
    if (b.trg t).holder == some who then b.loseHold t else b) s

/-- A function's configuration space, MSI-X table and PBA at their reset values, sticky fields apart. -/
def State.resetFunc (s : State) (fn : Nat) (flr : Bool) : State :=
  let f := s.func fn
  (s.setFunc fn { f.reset true with inFlr := flr, holdLo := f.holdLo, latchHi := f.latchHi, popData := f.popData })

/-- The function's mode request is withdrawn, and its DEV_MODE_REQ back at its Reset value (R686). -/
def State.withdraw (s : State) (fn : Nat) : State :=
  State.rst { s with ctl := { s.ctl with pend := s.ctl.pend.filter fun q => q.src != fnSource fn } } .DEV_MODE_REQ fn

/-- Registers of chapter 15. -/
def isHostReg (r : Reg) : Bool :=
  [Reg.HOST_STATUS, .HOST_CTRL, .HOST_CPL_TIMEOUT, .HOST_TAG_STATUS, .HOST_COUNT, .HOST_COUNT2, .HOST_PM_CFG, .HIRQ_SRC_CFG,
    .HIRQ_SRC_TICK, .HIRQ_SRC_PENDING, .HIRQ_DEV_CFG, .HIRQ_DEV_STATUS, .HIRQ_INTX_CAUSE, .HIRQ_COALESCE].contains r

/-- An FLR of PF0 begins (R452, R684 to R686, Table 15.13). -/
def State.flrPf0 (s : State) : State :=
  if s.host.pf0.inFlr then s
  else
    let period := s.cplTimeout
    let dests := (List.range 64).foldl (fun a c => a.destCancel c) s.cutPlacements
    let s1 := dests.sluiceFlr
    let s2 : State := (s1.resetFunc 0 true).rstWhere isHostReg
    let s3 : State := { s2 with host := { s2.host with
      flrTicks := period
      tags := s2.host.tags.map fun (t : RTag) => { t with use := .data 0 65536 0 0, quar := true, flr := true, due := none }
      msgs := s2.host.msgs.filter fun m => m.fn != 0
      slots := [], lastMsg := [] } }
    let s4 := (s3.withdraw 0).haltGrooms.disarmAll
    let s5 := ((List.range 64).foldl (fun a c => a.commitCancel c) s4).adcsEnd
    let s6 := s5.dropAgent .pf0
    match s.modeAhead with
    | .armed | .stream | .burst | .drain | .shadow => s6.placeRequest ⟨.yardmaster, 5, .flr, 0⟩
    | _ => s6

/-- FLR_PF0. -/
def execFlrPf0 (s : State) : Result := .next s.flrPf0

/-- FLR_PF0_COMPLETE (R684, R685): quarantine of the tags runs one period from here. -/
def execFlrPf0Complete (s : State) : Result :=
  .next <| if !s.host.pf0.inFlr then s
    else { s with host := { s.host with
      pf0 := { s.host.pf0 with inFlr := false }
      tags := s.host.tags.map fun t => if t.flr && t.due.isNone then { t with due := some (s.now + s.host.flrTicks) } else t } }

/-- An FLR of PF1 (R686, R754, Table 15.13). -/
def State.flrPf1 (s : State) : State :=
  let s1 := (s.resetFunc 1 false).withdraw 1
  State.dropAgent { s1 with host := { s1.host with
    msgs := s1.host.msgs.filter fun m => m.fn != 1 || s1.noImage, slots1 := [], intb := false } } .pf1

/-- FLR_PF1. -/
def execFlrPf1 (s : State) : Result := .next s.flrPf1

/-! ### Configuration requests (R658, R660, R672, R676, R678) -/

/-- HOST_CPL_TIMEOUT that a Completion Timeout Value loads (Table 15.5). -/
def cplTimeoutOf (v : Nat) : Nat :=
  match v with
  | 0b0001 => 100
  | 0b0010 => 10000
  | 0b0101 => 55000
  | _ => 50000

/-- A stored dword after a write of `data` with the byte mask `m`. -/
def cfgMerge (fn off : Nat) (old data m : BitVec 32) : BitVec 32 :=
  let rw := BitVec.ofNat 32 (cfgRw fn off) &&& m
  let w1c := BitVec.ofNat 32 (cfgW1c off) &&& m
  ((old &&& ~~~rw) ||| (data &&& rw)) &&& ~~~(data &&& w1c)

/-- Ones in the enabled bytes of a dword. -/
def byteMask32 (be : BitVec 4) : BitVec 32 :=
  (List.range 4).foldl (fun a k => if be.getLsbD k then a ||| (0xFF#32 <<< (8 * k)) else a) 0

/-- PMCSR is written: PowerState takes D0 or D3hot, and PF1 holds PME_En and PME_Status in the retention island (R672, R676, R677). -/
def State.pmWrite (s : State) (fn : Nat) (data m : BitVec 32) : State :=
  let f := s.func fn
  let ps := data.toNat % 4
  let s1 := if m.getLsbD 0 && (ps == 0 || ps == 3) then s.setFunc fn { f with d3hot := ps == 3 } else s
  if fn = 1 ∧ m.getLsbD 8 = true then
    let clear := data.getLsbD 15
    { s1 with ret := { s1.ret with
      pmeEn := data.getLsbD 8, pmeStatus := s1.ret.pmeStatus && !clear, wakeN := s1.ret.wakeN && !clear } }
  else s1

/-- The tag width PF0 uses from now on (R678). -/
def State.tagWidthNow (s : State) : Nat :=
  let c := s.host.pf0.cfg cfgDevCtl2
  if s.host.flit && c / 2 ^ 13 % 2 == 1 then 2 else if c / 2 ^ 12 % 2 == 1 then 1 else 0

/-- A configuration write takes effect. -/
def State.cfgWrite (s : State) (fn off : Nat) (data m : BitVec 32) : State :=
  let f := s.func fn
  let new := (cfgMerge fn off (BitVec.ofNat 32 (f.dword fn off)) data m).toNat
  let s1 := s.setFunc fn (f.setDword fn off new)
  if off = 0x04 then
    let s2 := if fn = 0 ∧ f.master = false ∧ (s1.func 0).master = true then
        { s1 with host := { s1.host with tagWidth := s1.tagWidthNow } } else s1
    if fn = 1 ∧ !(s2.func 1).intx = true then { s2 with host := { s2.host with intb := false } } else s2
  else if off = 0x44 then s1.pmWrite fn data m
  else if off = 0x50 then
    let s2 := if fn = 1 ∧ !(s1.func 1).intx = true then { s1 with host := { s1.host with intb := false } } else s1
    s2.flushPba fn
  else if off = 0x78 ∧ m.getLsbD 8 = true ∧ data.getLsbD 15 = true then (if fn = 0 then s1.flrPf0 else s1.flrPf1)
  else if off = 0x98 ∧ fn = 0 ∧ m.getLsbD 0 = true then s1.put F.HOST_CPL_TIMEOUT_TIMEOUT_US 0 (cplTimeoutOf (new % 16))
  else s1

/-- Whether a configuration request is answered Request Retry Status (Table 15.6). -/
def State.retryStatus (s : State) (fn : Nat) : Bool := (s.func fn).inFlr || !(s.firmware || s.noImage)

/-- CONFIG_REQUEST (R655 to R660). -/
def execConfigRequest (fn : Fin 2) (write : Bool) (off : Nat) (data : BitVec 32) (be : BitVec 4) (s : State) : Result :=
  .next <|
    let a := off / 4 * 4
    if !s.host.linkUp then s
    else if s.retryStatus fn.val then s.fromL1.emit (.completion fn.val 2 [] false)
    else if write then
      (s.fromL1.hostChange fun t => t.cfgWrite fn.val a data (byteMask32 be)).emit (.completion fn.val 0 [] false)
    else s.fromL1.emit (.completion fn.val 0 (bytesOfNat 4 (s.cfgRead fn.val a)) false)

/-! ### The link (R681, R682) -/

/-- The host link goes down (R451, R681, R682). -/
def State.linkGone (s : State) (hot : Bool) : State :=
  let s1 := { s with host := { s.host with
    linkUp := false, speed := 0, width := 0, flit := false, inL1 := false
    msgs := s.host.msgs.filter fun m => m.fn == 1 && s.noImage } }
  let s2 := State.hostLost s1
  let s3 := { s2 with host := { s2.host with tags := s2.host.tags.filter (·.flr) } }
  let s4 := (s3.put F.HOST_STATUS_LINK_LOST_SEEN 0 1).inc F.HOST_COUNT_LINK_LOSSES
  if hot then s4
  else
    let s5 := (s4.resetFunc 0 s4.host.pf0.inFlr).resetFunc 1 s4.host.pf1.inFlr
    { s5 with host := { s5.host with intb := false } }

/-- HOST_LINK_DOWN. -/
def execHostLinkDown (hot : Bool) (s : State) : Result := .next (if s.host.linkUp then s.linkGone hot else s)

/-- HOST_LINK_UP: the link reaches L0, and WAKE_N is released (R677). -/
def execHostLinkUp (speed : Nat) (width : Nat) (flit : Bool) (s : State) : Result :=
  .next <|
    if s.host.linkUp || s.power.perst || !s.power.vddAon then s
    else
      let t := { s with
        host := { s.host with linkUp := true, speed := speed, width := width, flit := flit, inL1 := false, lastRun := s.now }
        ret := { s.ret with wakeN := false } }
      t.sluiceLinkUp

/-- Whether nothing of PF0's keeps the link in L0 (R673). -/
def State.linkIdle (s : State) : Bool :=
  (s.rings.all fun e => e.2.descs.isEmpty) &&
    ((List.range 1024).all fun r => !s.isOn F.RING_CTRL_ENABLE r || !s.ringHostFed r || s.unfetched r == 0) &&
    ((List.range 20).all fun n => match (s.stall n).frame with
      | some f => f.prods.all fun p => p.host.isNone || p.cut
      | none => true) &&
    (s.mirrorQ.all fun e => e.2.isEmpty) && (s.host.tags.all fun t => t.quar)

/-- L1_ENTRY_REQUEST (R673, R674): the link has been idle for L1_IDLE µs. -/
def execL1EntryRequest (s : State) : Result :=
  .next <|
    if !s.hostLive || s.host.inL1 || s.host.pf0.dword 0 0x80 / 2 % 2 == 0 || !s.linkIdle then s
    else
      let s1 := (s.reach (s.host.lastRun + 4000 * max 1 (s.get F.HOST_PM_CFG_L1_IDLE))).emit (.pcieMessage 4 (s.get F.HOST_PM_CFG_LTR_IDLE))
      (State.emit { s1 with host := { s1.host with inL1 := true } } (.pcieMessage 5 0)).inc F.HOST_COUNT2_L1_ENTRIES

/-! ### Read tags (R678 to R680, R685) -/

/-- An outstanding or quarantined tag. -/
def State.tagOf (s : State) (tag : Nat) : Option RTag := s.host.tags.find? fun t => t.tag == tag

/-- A tag changed by `f`. -/
def State.modTag (s : State) (tag : Nat) (f : RTag → RTag) : State :=
  { s with host := { s.host with tags := s.host.tags.map fun t => if t.tag = tag then f t else t } }

/-- Data of an outstanding request comes back: `last` ends it. -/
def State.tagData (s : State) (t : RTag) (data : List Byte) (ok ep last : Bool) : State :=
  match t.use with
  | .fetch r slot n =>
      let all := t.got ++ data
      if !ok || ep then
        let s1 := s.fetchDone r slot n [] (some csHostError)
        if last || !ok then s1.freeTag t.tag else s1.modTag t.tag fun x => { x with use := .data 0 65536 0 0 }
      else if last then (s.freeTag t.tag).fetchDone r slot n all (if all.length = 32 * n then none else some csHostError)
      else s.modTag t.tag fun x => { x with got := all }
  | .data r slot off len =>
      let good := data.take (len - t.got.length)
      if last || !ok then (s.freeTag t.tag).readBack r slot (off + t.got.length) good ok ep
      else (s.readBack r slot (off + t.got.length) good ok ep).modTag t.tag fun x => { x with got := x.got ++ good }

/-- HOST_COMPLETION_RECEIVED (R679, R680, R685). -/
def execHostCompletionReceived (tag : Nat) (data : List Byte) (ok : Bool) (ep : Bool) (last : Bool) (s : State) : Result :=
  .next <| match s.tagOf tag with
    | none => (s.inc F.HOST_COUNT2_UNEXPECTED_CPL).ueLog 0 ueUnexpected true
    | some t =>
        if t.quar then
          if t.flr then s.inc F.HOST_COUNT_FLR_DISCARDS
          else (s.inc F.HOST_COUNT_LATE_CPL).ueLog 0 ueUnexpected true
        else (if ep then s.ueLog 0 uePoison true else s).tagData t data ok ep last

/-- COMPLETION_TIMEOUT (R679): the request with tag `tag` times out. -/
def execCompletionTimeout (tag : Nat) (s : State) : Result :=
  .next <| match s.tagOf tag with
    | none => s
    | some t =>
        if t.quar then s
        else
          let s1 := ((match t.due with | some d => s.reach d | none => s).inc F.HOST_COUNT_CPL_TIMEOUTS).ueLog 0 ueTimeout true
          let s2 := s1.modTag tag fun x => { x with use := .data 0 65536 0 0, quar := true, due := some (s1.now + s1.cplTimeout) }
          match t.use with
          | .fetch r slot n => s2.fetchDone r slot n [] (some csTimeout)
          | .data r slot _ _ => (s2.modDesc r slot fun d => { d with err := d.err.or (some csTimeout) }).readSettle r slot

/-- TAG_QUARANTINE_END (R34, R679, R685): a quarantined tag returns to its class. -/
def execTagQuarantineEnd (tag : Nat) (s : State) : Result :=
  .next <| match s.tagOf tag with
    | some t => match t.due with
        | some d => if t.quar then (s.reach d).freeTag tag else s
        | none => s
    | none => s

/-- HOST_CTRL.CNT_CLEAR (R692). -/
def State.hostCntClear (s : State) : State := (s.rst .HOST_COUNT).rst .HOST_COUNT2

/-- HOST_CNT_CLEAR. -/
def execHostCntClear (s : State) : Result := .next s.hostCntClear

/-- Tags of a width (R693, Table 15.11). -/
def tagLimit (width : Nat) : Nat := if width = 2 then 16384 else if width = 1 then 768 else 256

/-- HOST_STATUS as it reads (Table 15.17). -/
def State.hostStatus (s : State) : Word :=
  let h := s.host
  field 0 1 (b2n h.linkUp) ||| field 1 3 h.speed ||| field 4 5 h.width ||| field 9 1 (b2n h.flit) ||| field 10 1 (b2n h.inL1) |||
    (s.rd .HOST_STATUS &&& fieldMask 11 1) ||| field 12 1 (b2n h.pf0.d3hot) ||| field 13 1 (b2n h.pf0.master) |||
    field 14 1 (b2n h.pf0.msixOn) ||| field 15 1 (b2n h.pf0.intx) ||| field 16 2 h.tagWidth

/-- HOST_TAG_STATUS as it reads (R693): no width is in use until Bus Master Enable is 1. -/
def State.hostTagStatus (s : State) : Word :=
  field 0 15 (s.host.tags.filter fun t => !t.quar).length ||| field 16 15 (s.host.tags.filter fun t => t.quar).length |||
    field 32 15 (if s.host.pf0.master then tagLimit s.host.tagWidth else 0)

end Sys2Proof.Machine
end

