-- ==== Sys2Proof/Machine/Bars.lean ====
section
/-! DEFINITION. What the BARs reach (R6 to R13, R659 to R664, R755 to R764): registers, memory windows, doorbells, the stud book, the
fen window, the MSI-X tables; memory requests and register writes. -/

namespace Sys2Proof.Machine

/-- The state a meaning answers. -/
def State.after (s : State) (r : Result) : State := match r with | .next t => t | _ => s

/-! ### Registers as they read -/

/-- A register as it reads, without the side effects of the read. -/
def State.regPeek (s : State) (r : Reg) (i : Nat) : Word :=
  match r with
  | .DEV_MODE => s.devMode
  | .DEV_STATUS => s.devStatus
  | .BOOT_STATUS => s.bootStatus
  | .RET_SEAL => word s.ret.sealWord
  | .FEN_POOL_STATUS => setBits (s.rd .FEN_POOL_STATUS i) 0 21 (s.poolFree i)
  | .TRG_DEPTH => s.trgDepth i
  | .MGMT_STATUS => field 0 1 (b2n s.firmware) ||| field 1 1 (b2n s.fuses.debugLock)
  | .IST_CFG => setBits (s.rd .IST_CFG) 0 1 (s.get F.FEN_SCRUB_ENABLE)
  | .SEC_STATUS =>
      let blank := (List.range 4).foldl (fun n k => n + if (s.fuses.keys[k]?).getD [] = [] then 2 ^ k else 0) 0
      setBits (s.rd .SEC_STATUS) 4 4 blank
  | .TB_NOW => s.tbNow
  | .TB_STATUS => s.tbStatus
  | .OUT_STATUS => s.outStatus i
  | .HOST_STATUS => s.hostStatus
  | .HOST_TAG_STATUS => s.hostTagStatus
  | .CRIB_STATE => s.cribStates i
  | .PADDOCK_SET => s.padSet i
  | .SLUICE_STATUS => s.sluiceStatus
  | .GROOM_STATUS => s.groomStatus i
  | .GROOM_FAULT => (s.groom i).fault
  | .GROOM_EV => s.groomEv i
  | .GROOM_WDOG_CFG => (s.groom i).wdogCfg
  | .GROOM_G => (s.groom (i / 16)).reg (BitVec.ofNat 4 (i % 16))
  | _ => s.rd r i

/-- A register read with its side effects: the latches of R149 and R332 clear. -/
def State.regRead (s : State) (r : Reg) (i : Nat) : Word × State :=
  match r with
  | .LANE_PAT_BITS => s.patRead i false
  | .LANE_PAT_ERR => s.patRead i true
  | .ADC_URGENT_RESULT => s.urgentRead i
  | _ => (s.regPeek r i, s)

/-! ### Register writes -/

/-- Old bits outside the mask, written bits inside it (R13). -/
def merged (old v m : Word) : Word := (old &&& ~~~m) ||| (v &&& m)

/-- A write of FLASH_CTRL (R746, R753). -/
def State.flashCtrlWrite (s : State) (v m : Word) : State :=
  let e := v &&& m
  if !bit e 4 then s.wr .FLASH_CTRL 0 (writeFields .FLASH_CTRL (s.rd .FLASH_CTRL) v m)
  else match F.FLASH_CTRL_OP.of e with
    | 1 => s.after (execFlashRead e s)
    | 2 => s.after (execFlashErase e s)
    | 3 => s.after (execFlashProgram e s)
    | 4 => s.after (execFlashVerify e false s)
    | op => s.flashGo e op flRefused id

/-- A write of SEC_CMD (R746, R753). -/
def State.secCmdWrite (s : State) (v m : Word) : State :=
  let e := v &&& m
  if !bit e 4 then s.wr .SEC_CMD 0 (writeFields .SEC_CMD (s.rd .SEC_CMD) v m)
  else match F.SEC_CMD_OP.of e with
    | 1 => s.after (execSecConfirm e s)
    | 2 => s.after (execSecProgramKey e s)
    | 3 => s.after (execSecRevoke e s)
    | op => s.secGo e op true id

/-- A write of FEN_SCRUB (R400). -/
def State.scrubWrite (s : State) (v m : Word) : State :=
  let s1 := s.wr .FEN_SCRUB 0 (writeFields .FEN_SCRUB (s.rd .FEN_SCRUB) v m)
  if bit (v &&& m) 1 then (s1.rst .FEN_ECC).rst .FEN_SCRUB_COUNT else s1

/-- A write of IST_CFG: bit 0 is FEN_SCRUB.ENABLE itself (R749). -/
def State.istCfgWrite (s : State) (v m : Word) : State :=
  let s1 := s.wr .IST_CFG 0 (writeFields .IST_CFG (s.rd .IST_CFG) v m)
  if bit m 0 then s1.put F.FEN_SCRUB_ENABLE 0 (b2n (bit v 0)) else s1

/-- A write of ALARM_CFG: HOLD of a Fixed code reads 1 (R750). -/
def State.alarmCfgWrite (s : State) (c : Nat) (v m : Word) : State :=
  let w := writeFields .ALARM_CFG (s.rd .ALARM_CFG c) v m
  s.wr .ALARM_CFG c (if c = 0x01 ∨ c = 0x06 ∨ c = 0x08 then w ||| 1 else w)

/-- A write of LOG_CTRL (R751). -/
def State.logCtrlWrite (s : State) (e : Word) : State :=
  let s1 := if bit e 0 then s.after (execTraceThaw s) else s
  let s2 := if bit e 1 then s1.after (execSummaryClear s1) else s1
  if bit e 2 then s2.after (execLogCntClear s2) else s2

/-- A write of TRG_CTRL (R385, R407). -/
def State.trgCtrlWrite (s : State) (t : Nat) (e : Word) : State :=
  let s1 := if bit e 0 then s.trgFlush t else s
  if bit e 1 then (s1.rst .TRG_COUNT t).rst .TRG_DROPS t else s1

/-- A write of FEN_SEG_MAP: segment 0 stays INTERLEAVED, and a map under application stands (R347, R398). -/
def State.segMapWrite (s : State) (k : Nat) (v m : Word) : State :=
  if s.isOn F.FEN_SEG_CTRL_APPLY then s
  else
    let w := merged (s.rd .FEN_SEG_MAP k) v m
    s.wr .FEN_SEG_MAP k (if k = 0 then w &&& ~~~0xF#64 else w)

/-- A software write of the general, time, field, yard and output registers whose writes do more than store. -/
def State.regWriteA (s : State) (fn : Nat) (r : Reg) (i : Nat) (v m : Word) : Option State :=
  let e := v &&& m
  let w := merged (s.rd r i) v m
  match r with
  | .DEV_MODE_REQ => some (s.modeReqWrite fn v m)
  | .DEV_RESET => some (s.devResetWrite v m)
  | .TB_CFG => some (s.tbCfgWrite v m)
  | .TB_CTRL => some (s.tbCtrlWrite v m)
  | .OUT_CFG => some (s.outCfgWrite i v m)
  | .WP_LIST_DESC => some (s.wpDescWrite i w)
  | .WP_LIST_CTRL => some (s.wpCtrlWrite i e)
  | .FLD_CTRL => some (if bit e 0 then s.fldCntClear else s)
  | .ENC_CFG => some (s.encCfgWrite i w)
  | .ENC_LOAD | .FI_CFG | .FO_CFG => some (s.fieldRegWrite r i v m)
  | .ENC_CTRL => some (s.encCtrlWrite i e)
  | .FO_STATUS => some (if bit e 1 && decide (i < 15) then s.foClear i else s)
  | .YARD_CTRL => some (if bit e 0 then s.yardCntClear else s)
  | .YARD_CH_CFG => some (s.chCfgWrite (writerOf fn) i ((w &&& ~~~0x40#64) ||| (e &&& 0x40)))
  | .YARD_PROD_EN => some (s.rowWrite (writerOf fn) false (i / 4) (i % 4) w)
  | .YARD_CONS_EN => some (s.rowWrite (writerOf fn) true (i / 4) (i % 4) w)
  | .HOST_CTRL => some (if bit e 0 then s.hostCntClear else s)
  | .TELEM_CTRL => some (if bit e 0 then s.telemClear else s)
  | .LOG_CTRL => some (s.logCtrlWrite e)
  | .ALARM_ACK => some (s.after (execAlarmAck (BitVec.ofNat 32 e.toNat) s))
  | .ALARM_CFG => some (s.alarmCfgWrite i v m)
  | .IST_CFG => some (s.istCfgWrite v m)
  | .FLASH_CTRL => some (s.flashCtrlWrite v m)
  | .SEC_CMD => some (s.secCmdWrite v m)
  | .PAIR_CFG => some (s.pairCfgWrite v m)
  | .PAIR_PEER_SERIAL => some (s.peerSerialWrite v m)
  | .PAIR_CTRL => some (s.pairCtrlWrite v m)
  | _ => none

/-- The same for the fen, troughs, sluice, herds, contexts and their delivery. -/
def State.regWriteB (s : State) (r : Reg) (i : Nat) (v m : Word) : Option State :=
  let e := v &&& m
  let w := merged (s.rd r i) v m
  match r with
  | .FEN_SEG_CTRL => some (if bit e 0 then s.segApply else s)
  | .FEN_SEG_MAP => some (s.segMapWrite i v m)
  | .FEN_SCRUB => some (s.scrubWrite v m)
  | .FEN_POOL_RELEASE => some (s.releaseBlock (F.FEN_POOL_RELEASE_BLOCK.of e * 0x10000))
  | .FEN_POOL_CFG => some (s.poolCfgWrite i w)
  | .TRG_CFG => some (s.trgCfgWrite i w)
  | .TRG_BASE => some (s.trgBaseWrite i w)
  | .TRG_THRESH => some (s.trgThreshWrite i w)
  | .TRG_CTRL => some (s.trgCtrlWrite i e)
  | .SLUICE_CFG => some (s.sluiceCfgWrite v m)
  | .MIRROR_CFG | .MIRROR_BASE | .MIRROR_PTR => some (s.mirrorWrite r i v m)
  | .HERD_CFG => some (s.herdCfgWrite i v m)
  | .HERD_ORIGIN | .HERD_PERIOD => some (s.herdRegWrite r i v m)
  | .RING_PTR => some (s.ringPtrWrite i v m)
  | .RING_BASE | .RING_COMPL | .RING_TAG => some (s.ringFixedWrite r i v m)
  | .RING_CTRL => some (s.ringCtrlWrite i v m)
  | .CTX_CTRL => some (s.ctxCtrlWrite i v m)
  | .CTX_COMMIT => some (s.ctxCommitWrite i v m)
  | .CTX_DEST_CTRL => some (s.destWrite i v m)
  | .CTX_SEQ_HI => some (s.seqHiWrite i v m)
  | .CHUTE_CFG => some (s.chuteCfgWrite i v m)
  | .CHUTE_DEFECT_BASE => some (s.defectBaseWrite v m)
  | .CRIB_LOAD => some (s.cribLoadWrite v m)
  | .PADDOCK_LOAD => some (s.padLoadWrite v m)
  | .RED_CTX_CTRL => some (if bit e 0 then s.rst .RED_CTX_COUNT i else s)
  | _ => none

/-- The same for stalls, lanes, converters, virtual stalls and grooms. -/
def State.regWriteC (s : State) (r : Reg) (i : Nat) (v m : Word) : Option State :=
  let e := v &&& m
  match r with
  | .ADC_GLOBAL_START => some (s.adcGlobalWrite e)
  | .ADC_CFG => some (s.adcCfgWrite i v m)
  | .ADC_CTRL => some (s.adcCtrlWrite i e)
  | .ADC_BUF => some (s.adcBufWrite i v m)
  | .ADC_CAL => some (s.adcCalWrite i v m)
  | .VST_CFG => some (s.vstCfgWrite i v m)
  | .VST_TIMING | .VST_GEOM => some (s.vstRegWrite r i v m)
  | .STALL_LINK_CFG => some (s.linkCfgWrite i v m)
  | .STALL_LM_CTRL => some (s.lmCtrlWrite i v m)
  | .LANE_CTRL => some (s.laneCtrlWrite i v m)
  | .LANE_TX_FIR_SET => some (s.firSetWrite i v m)
  | .LANE_PAT_CTRL => some (s.patCtrlWrite i v m)
  | .STALL_PROTO_CFG => some (s.protoCfgWrite i v m)
  | .GROOM_CTRL => some (s.groomCtrlWrite i v m)
  | .GROOM_WDOG_CFG => some (s.groomWdogWrite i v m)
  | .GROOM_G => some (s.groomGWrite (i / 16) (i % 16) (merged ((s.groom (i / 16)).reg (BitVec.ofNat 4 (i % 16))) v m))
  | .GROOM_GROUP => some (s.groupWrite e)
  | _ => none

/-- A software write of a register, by function `fn`, with the bytes that `m` enables (R6, R13). -/
def State.regWrite (s : State) (fn : Nat) (r : Reg) (i : Nat) (v m : Word) : State :=
  match s.regWriteA fn r i v m with
  | some t => t
  | none => match s.regWriteB r i v m with
    | some t => t
    | none => match s.regWriteC r i v m with
      | some t => t
      | none => s.wr r i (writeFields r (s.rd r i) v m)

/-! ### Where the registers lie -/

/-- The instance of a span's register at a byte offset, if one begins there. -/
def spanAt (p : Span) (a : Nat) : Option Nat :=
  if a < p.base then none
  else
    let q := (a - p.base) / p.stride
    let o := (a - p.base) % p.stride
    if p.n ≤ q then none
    else if p.m = 1 then (if o = 0 then some (p.first + q) else none)
    else if o % p.stride2 = 0 ∧ o / p.stride2 < p.m then some (p.first + q * p.m + o / p.stride2)
    else none

/-- The register at a byte offset: its name, instance and bytes. -/
def findReg : List Span → Nat → Option (Reg × Nat × Nat)
  | [], _ => none
  | p :: ps, a => match spanAt p a with
    | some i => some (p.reg, i, p.bytes)
    | none => findReg ps a

/-- The register at an offset of BAR0 of function `fn`; each function has its own DEV_MODE_REQ (R747). -/
def regAt (fn a : Nat) : Option (Reg × Nat × Nat) :=
  (findReg (if fn = 0 then pf0Map else pf1Map) a).map fun x => if x.1 = .DEV_MODE_REQ then (x.1, fn, x.2.2) else x

/-- The bytes of register `r`, instance `i`, where function `fn` reaches it. -/
def regBytes (fn : Nat) (r : Reg) (i : Nat) : Option Nat :=
  if r = .DEV_MODE_REQ then (if i = fn then some 4 else none)
  else ((if fn = 0 then pf0Map else pf1Map).find? fun p => p.reg == r && decide (p.first ≤ i) && decide (i < p.first + p.n * p.m)).map (·.bytes)

/-- REGISTER_WRITE (R6, R7, R13): one whole write of register `r`, instance `i`. A register the function does not reach takes none. -/
def execRegisterWrite (fn : Fin 2) (r : Reg) (i : Nat) (v : Word) (be : BitVec 8) (s : State) : Result :=
  .next <| match regBytes fn.val r i with
    | none => s
    | some n => s.regWrite fn.val r i v (byteMask (if n = 4 then be &&& 0x0F else be))

/-! ### The stud book (R661 to R664) -/

/-- A block of Table 15.9: identifier, function and BAR, base, stride, instances, size in units of 64 bytes. -/
def studBlocks : List (Nat × Nat × Nat × Nat × Nat) := [
  (0, 0x00000000, 0, 1, 0x400), (0, 0x00010000, 0, 1, 0x400), (0, 0x00020000, 0, 1, 0x200), (0, 0x00028000, 0, 1, 0x100),
  (0, 0x00030000, 0, 1, 0x400), (0, 0x00040000, 0, 1, 0x400), (0, 0x00042000, 0, 1, 0x80), (0, 0x00050000, 0, 1, 0x400),
  (0, 0x00060000, 0, 1, 0x400), (0, 0x00070000, 0, 1, 0x400), (0, 0x00100000, 0x10000, 16, 0x400), (0, 0x00200000, 0x4000, 64, 0x100),
  (0, 0x00203000, 0, 1, 0x40), (0, 0x00400000, 0x40000, 16, 0x1000), (0, 0x00800000, 0, 1, 0x10000), (0, 0x01000000, 0x40, 65536, 1),
  (0, 0x02000000, 0x40, 65536, 1), (2, 0x00000000, 0, 1, 0x60000000), (4, 0x00000000, 0, 1, 0x400), (16, 0x00000000, 0, 1, 0x4000)]

/-- An entry's four words (Table 15.8), all blocks at version 1.0. -/
def studEntry (id : Nat) (b : Nat × Nat × Nat × Nat × Nat) : List Word :=
  [field 0 16 id ||| field 24 8 1 ||| field 32 5 b.1, word b.2.1, word b.2.2.1, field 0 32 b.2.2.2.1 ||| field 32 32 b.2.2.2.2]

/-- Bytes 0x000 to 0x03B of the header (Table 15.7). -/
def State.studHead (s : State) : List Byte :=
  bytesOfNat 4 0x53545544 ++ bytesOfNat 4 0x00010000 ++ bytesOfNat 4 0x2C0 ++ bytesOfNat 4 20 ++ bytesOfNat 4 0x40 ++ bytesOfNat 4 0x20 ++
    bytesOfNat 4 0x0F1601C0 ++ bytesOfNat 4 0 ++ bytesOfNat 8 s.serial ++ bytesOfNat 8 0x1800000000 ++ bytesOfNat 12 0

/-- The entries. -/
def studEntries : List Byte :=
  (((List.range 20).zip studBlocks).flatMap fun e => studEntry e.1 e.2).flatMap fun w => bytesOfNat 8 w.toNat

/-- The word of the stud book at offset `a`: 0 past its end. -/
def State.studWord (s : State) (a : Nat) : Word :=
  if 0x2C0 ≤ a then 0
  else if 0x40 ≤ a then wordOfBytes ((studEntries.drop (a - 0x40)).take 8)
  else if a = 0x38 then field 32 32 (crc32c (s.studHead ++ studEntries))
  else wordOfBytes ((s.studHead.drop a).take 8)

/-! ### Memory windows (R758, Table 18.3) -/

/-- What lies in a window at a word-aligned offset of BAR0. -/
inductive Win where
  | copy (c : Nat) (b : Bool) (i : Nat)
  | imem (g i : Nat)
  | mem (g : Nat) (scratch : Bool) (i : Nat)
  | way (i w : Nat)
  | retain (off : Nat)
  | flash (off : Nat)
  | hash (k off : Nat)
  | stud (off : Nat)
deriving DecidableEq, Repr

def winAt (fn a : Nat) : Option Win :=
  if fn = 0 then
    let o := a % 0x40000
    let g := (a - 0x400000) / 0x40000
    if a < 0x10000 then some (.stud a)
    else if 0x11000 ≤ a ∧ a < 0x12000 then some (.retain (a - 0x11000))
    else if 0x200000 ≤ a ∧ a < 0x300000 ∧ a % 0x4000 < 0x800 then
      some (.copy ((a - 0x200000) / 0x4000) (decide (0x400 ≤ a % 0x4000)) (a % 0x400 / 8))
    else if 0x400000 ≤ a ∧ a < 0x800000 then
      if o < 0x10000 then some (.imem g (o / 4))
      else if o < 0x20000 then some (.mem g false ((o - 0x10000) / 8))
      else if g = 0 ∧ 0x30000 ≤ o then some (.mem 0 true ((o - 0x30000) / 8))
      else none
    else if 0x800000 ≤ a ∧ a < 0xC00000 then some (.way ((a - 0x800000) / 16) (a % 16 / 8))
    else none
  else if 0x1000 ≤ a ∧ a < 0x2000 then some (.retain (a - 0x1000))
  else if 0x61000 ≤ a ∧ a < 0x62000 then some (.flash (a - 0x61000))
  else if 0x60100 ≤ a ∧ a < 0x60200 then some (.hash ((a - 0x60100) / 0x40) (a % 0x40))
  else none

/-- A window's word as it reads. -/
def State.winRead (s : State) : Win → Word
  | .copy c b i => Tab.get 0 ((s.ctx c).copy b) i
  | .imem g i => field 0 32 ((s.groom g).iword i).toNat ||| field 32 32 ((s.groom g).iword (i + 1)).toNat
  | .mem g sc i => s.memWord g sc i
  | .way i w => s.wpWord i w
  | .retain o => wordOfBytes (s.ret.bytes o 8)
  | .flash o => wordOfBytes ((List.range 8).map fun k => Tab.get (0 : Byte) s.mgmt.flashBuf (o + k))
  | .hash k o => wordOfBytes ((((s.fuses.keys[k]?).getD []).drop o).take 8)
  | .stud a => s.studWord a

/-- The enabled bytes of a word, each with its offset from `o`. -/
def enabledBytes (o : Nat) (v m : Word) : List (Nat × Byte) :=
  (List.range 8).filterMap fun k => if bit m (8 * k) then some (o + k, BitVec.ofNat 8 (bits v (8 * k) 8)) else none

/-- A write into a window by function `fn`. -/
def State.winWrite (s : State) (fn : Nat) (w : Win) (v m : Word) : State :=
  match w with
  | .copy c b i => s.copyWrite c b i v m
  | .imem g i =>
      let lo := merged ((s.winRead (.imem g i))) v m
      let s1 := if bits m 0 32 = 0 then s else s.imemWrite g i (BitVec.ofNat 32 (bits lo 0 32))
      if bits m 32 32 = 0 then s1 else s1.imemWrite g (i + 1) (BitVec.ofNat 32 (bits lo 32 32))
  | .mem g sc i => s.hostMemWrite g sc i v m
  | .way i k => s.wpEntryWrite i k v m
  | .retain o => if fn = 1 ∧ 0x800 ≤ o ∧ m ≠ 0 then s.retain ((enabledBytes o v m).map fun p => (p.1, [p.2])) else s
  | .flash o =>
      { s with mgmt := { s.mgmt with flashBuf := (enabledBytes o v m).foldl (fun t p => Tab.set 0 t p.1 p.2) s.mgmt.flashBuf } }
  | .hash _ _ | .stud _ => s

/-! ### Halves of 64-bit registers (R10 to R12, R759) -/

/-- What a 64-bit register's write unit is to write: value and mask, or nothing yet. `action`: its write acts on all 64 bits. -/
def State.holdHalf (s : State) (fn a : Nat) (v m : Word) (lo hi action : Bool) : Option (Word × Word) × State :=
  let f := s.func fn
  if lo && hi then (some (v, m), s)
  else if lo then (none, s.setFunc fn { f with holdLo := some (a, bits v 0 32, bits m 0 32) })
  else match f.holdLo with
    | some (b, lv, lm) =>
        if b = a then (some (v ||| word lv, m ||| word lm), s.setFunc fn { f with holdLo := none })
        else (if action then none else some (v, m), s)
    | none => (if action then none else some (v, m), s)

/-- A read of a 64-bit register: `full` and `t` are its value with side effects and the state after them, `peek` its value now. -/
def State.latchHalf (s : State) (fn a : Nat) (full peek : Word) (t : State) (lo hi : Bool) : Word × State :=
  if lo && hi then (full, t)
  else if lo then (full, t.setFunc fn { t.func fn with latchHi := some (a, bits full 32 32) })
  else match (s.func fn).latchHi with
    | some (b, h) => if b = a then (field 32 32 h, s.setFunc fn { s.func fn with latchHi := none }) else (peek, s)
    | none => (peek, s)

/-! ### Doorbells (R409, R764) -/

/-- The trough and doorbell at a word-aligned offset of BAR0. -/
def State.doorbellAt (s : State) (fn a : Nat) : Option (Nat × Nat) :=
  if fn = 0 then (if 0x2000000 ≤ a ∧ a < 0x2400000 then some ((a - 0x2000000) / 0x40, a % 0x40) else none)
  else if 0xF0000 ≤ a ∧ a < 0x100000 then some (s.get F.MGMT_DB_WINDOW_WINDOW * 1024 + (a - 0xF0000) / 0x40, a % 0x40)
  else none

/-- A read of a doorbell. -/
def State.bellRead (s : State) (fn a t o : Nat) (lo hi : Bool) : Word × State :=
  match o with
  | 0x28 =>
      if lo then
        let p := s.popDoorbell fn t .clean
        s.latchHalf fn a p.1 0 p.2 lo hi
      else s.latchHalf fn a 0 0 s lo hi
  | 0x30 => s.latchHalf fn a (s.func fn).popData (s.func fn).popData s lo hi
  | 0x38 => s.latchHalf fn a (s.trgDepth t) (s.trgDepth t) s lo hi
  | _ => (0, s)

/-- A write of a doorbell. -/
def State.bellWrite (s : State) (fn a t o : Nat) (v m : Word) (ep lo hi : Bool) : State :=
  let push := fun (p : Part) =>
    match s.holdHalf fn a v m lo hi true with
    | (some (w, e), s1) => if e = BitVec.allOnes 64 then s1.pushWord (fnAgent fn) t p w ep else s1
    | (none, s1) => s1
  match o with
  | 0x00 => push .single
  | 0x08 => push .sop
  | 0x10 => push .mid
  | 0x18 => push .eop
  | 0x20 => if m = 0 then s else s.pushAbort (fnAgent fn) t
  | _ => s

/-! ### One aligned 8-byte unit of BAR0 -/

/-- A read of the unit at `a`; `lo` and `hi`: whether the access covers bytes of its halves. -/
def State.unitRead (s : State) (fn a : Nat) (lo hi : Bool) : Word × State :=
  match winAt fn a with
  | some w => (s.winRead w, s)
  | none => match s.doorbellAt fn a with
    | some (t, o) => s.bellRead fn a t o lo hi
    | none => match regAt fn a with
      | some (r, i, 8) =>
          let p := s.regRead r i
          s.latchHalf fn a p.1 (s.regPeek r i) p.2 lo hi
      | x =>
          let p := match x with | some (r, i, _) => if lo then s.regRead r i else (0, s) | none => (0, s)
          let q := match regAt fn (a + 4) with | some (r, i, _) => if hi then p.2.regRead r i else (0, p.2) | none => (0, p.2)
          (field 0 32 p.1.toNat ||| field 32 32 q.1.toNat, q.2)

/-- A write of the unit at `a`. -/
def State.unitWrite (s : State) (fn a : Nat) (v m : Word) (ep lo hi : Bool) : State :=
  match winAt fn a with
  | some w => if ep then s else s.winWrite fn w v m
  | none => match s.doorbellAt fn a with
    | some (t, o) => s.bellWrite fn a t o v m ep lo hi
    | none =>
        if ep then s
        else match regAt fn a with
        | some (r, i, 8) =>
            match s.holdHalf fn a v m lo hi (r == .FEN_POOL_RELEASE) with
            | (some (w, e), s1) => s1.regWrite fn r i w e
            | (none, s1) => s1
        | x =>
            let s1 := match x with
              | some (r, i, _) => if lo then s.regWrite fn r i (v &&& fieldMask 0 32) (m &&& fieldMask 0 32) else s
              | none => s
            match regAt fn (a + 4) with
            | some (r, i, _) => if hi then s1.regWrite fn r i (v >>> 32) (m >>> 32) else s1
            | none => s1

/-! ### MSI-X tables and PBAs (Table 18.1) -/

/-- Vectors of a function. -/
def vectors (fn : Nat) : Nat := if fn = 0 then 2048 else 64

/-- The offset of a function's PBA. -/
def pbaBase (fn : Nat) : Nat := if fn = 0 then 0x8000 else 0x1000

def State.msixRead (s : State) (fn a : Nat) : Word :=
  let e := s.vec fn (a / 16)
  if a / 16 < vectors fn then
    (if a % 16 = 0 then word e.addr else field 0 32 e.data ||| field 32 1 (b2n e.masked))
  else if pbaBase fn ≤ a ∧ a < pbaBase fn + vectors fn / 8 then
    (List.range 64).foldl (fun w k => if Tab.get false (s.func fn).pba (8 * (a - pbaBase fn) + k) then w ||| 1#64 <<< k else w) 0
  else 0

def State.msixWrite (s : State) (fn a : Nat) (v m : Word) : State :=
  if vectors fn ≤ a / 16 then s
  else
    let e := s.vec fn (a / 16)
    let w := merged (s.msixRead fn a) v m
    s.setVec fn (a / 16)
      (if a % 16 = 0 then { e with addr := (w &&& ~~~3#64).toNat } else { e with data := bits w 0 32, masked := bit w 32 })

/-! ### The fen window (R351 to R354, R358, R761 to R763) -/

/-- Whether a range of BAR2 is not served: past 96 GiB, in an UNUSED segment, or in one an APPLY in progress changes. -/
def State.fenBarred (s : State) (a n : Nat) : Bool :=
  decide (fenEnd < a + n) ||
    (let k0 := a / 0x40000000
     let k1 := (a + n - 1) / 0x40000000
     (List.range (k1 + 1 - k0)).any fun j =>
       segOf (fun m => s.rd .FEN_SEG_ACTIVE m) (k0 + j) == 1 || (s.isOn F.FEN_SEG_CTRL_APPLY && s.segChanges.contains (k0 + j)))

/-- Words of the fen as a BAR2 read finds them, from the word-aligned address `a`: each with whether it is poisoned. -/
def State.fenRead : Nat → Nat → State → List (Word × Bool) × State
  | 0, _, s => ([], s)
  | n + 1, a, s =>
      let r : Word × Bool × State := if a < poolRecordEnd then (0, false, s) else s.engineRead a
      let q := State.fenRead n (a + 8) r.2.2
      ((r.1, r.2.1) :: q.1, q.2)

/-- Completions of a BAR2 read, each within one 64-byte unit. `ws` are the words from the word at or below `a`. -/
def fenCompletions : Nat → Nat → Nat → List (Word × Bool) → List (List Byte × Bool)
  | 0, _, _, _ => []
  | fuel + 1, a, n, ws =>
      if n = 0 then []
      else
        let k := min n (64 - a % 64)
        let used := (a % 8 + k + 7) / 8
        let part := ws.take used
        let bs := ((part.flatMap fun w => bytesOfNat 8 w.1.toNat).drop (a % 8)).take k
        (bs, part.any (·.2)) :: fenCompletions fuel (a + k) (n - k) (ws.drop ((a % 8 + k) / 8))

/-- BAR2_READ. -/
def State.bar2Read (s : State) (a n : Nat) : State :=
  let r := State.fenRead ((a % 8 + n + 7) / 8) (a / 8 * 8) s
  let cs := fenCompletions (n + 1) a n r.1
  let s1 := if cs.any (·.2) then r.2.inc F.HOST_COUNT2_POISON_READS else r.2
  if cs = [] then s1.emit (.completion 0 0 [] false)
  else cs.foldl (fun t c => t.emit (.completion 0 0 c.1 c.2)) s1

/-- BAR2_WRITE: the enabled bytes, one word of the fen at a time; the pool record takes none. -/
def State.bar2Write : Nat → State → Nat → List (Byte × Bool) → Bool → State
  | 0, s, _, _, _ => s
  | _, s, _, [], _ => s
  | fuel + 1, s, a, bs, ep =>
      let o := a % 8
      let k := min (8 - o) bs.length
      let part := bs.take k
      let w : Word := BitVec.ofNat 64 (natOfBytes (part.map (·.1)) * 2 ^ (8 * o))
      let be : BitVec 8 := BitVec.ofNat 8 ((part.foldr (fun p n => 2 * n + b2n p.2) 0) * 2 ^ o)
      let s1 := if be = 0 ∨ a < poolRecordEnd then s else s.fenMerge (a / 8 * 8) w be ep
      State.bar2Write fuel s1 (a + k) (bs.drop k) ep

/-! ### Memory requests (R660, Table 15.6) -/

/-- Bytes of a BAR, if the function has it (Table 15.4). -/
def barSize (fn bar : Nat) : Option Nat :=
  match fn, bar with
  | 0, 0 => some 0x4000000
  | 0, 2 => some 0x2000000000
  | 0, 4 => some 0x10000
  | 1, 0 => some 0x100000
  | 1, 2 => some 0x2000
  | _, _ => none

/-- What the boot ROM serves of PF1 BAR0 with no image (R726). -/
def romServes (a : Nat) : Bool := a < 0x2000 || (0x60000 ≤ a && a < 0x62000)

/-- Whether a memory request is an Unsupported Request (Table 15.6, R726, R761). -/
def State.notServed (s : State) (fn bar : Nat) (write : Bool) (off len : Nat) (posted : Bool) : Bool :=
  let f := s.func fn
  f.d3hot || !f.memOn || (s.noImage && fn == 0) || (write && !posted) ||
    (match barSize fn bar with | none => true | some n => decide (n < off + max len 1)) ||
    (if fn = 0 ∧ bar = 2 then s.ctl.mode == .quiet || s.fenBarred off len
     else decide (8 < off % 8 + len) || (s.noImage && bar == 0 && !romServes off))

/-- A request of at most 8 bytes within one unit: the written value and mask. -/
def unitOf (off len : Nat) (data : List Byte) (be : List Bool) : Word × Word :=
  (BitVec.ofNat 64 (natOfBytes (data.take len) * 2 ^ (8 * (off % 8))),
    byteMask (BitVec.ofNat 8 ((List.range len).foldl (fun n k => n + if (be[k]?).getD true then 2 ^ (off % 8 + k) else 0) 0)))

/-- A memory write is served. -/
def State.memWrite (s : State) (fn bar off len : Nat) (data : List Byte) (be : List Bool) (ep : Bool) : State :=
  let fenBar := decide (fn = 0) && decide (bar = 2)
  let s1 := if ep then s.ueLog fn uePoison fenBar else s
  if fenBar then
    s1.bar2Write (len + 1) off ((List.range len).map fun k => ((data[k]?).getD 0, (be[k]?).getD true)) ep
  else
    let u := unitOf off len data be
    let a := off / 8 * 8
    if bar = 0 then
      s1.unitWrite fn a u.1 u.2 ep (decide (off % 8 < 4) && decide (0 < len)) (decide (4 < off % 8 + len))
    else if ep then s1
    else s1.msixWrite fn a u.1 u.2

/-- A memory read is served. -/
def State.memRead (s : State) (fn bar off len : Nat) : State :=
  if fn = 0 ∧ bar = 2 then s.bar2Read off len
  else
    let a := off / 8 * 8
    let r := if bar = 0 then s.unitRead fn a (decide (off % 8 < 4) && decide (0 < len)) (decide (4 < off % 8 + len)) else (s.msixRead fn a, s)
    r.2.emit (.completion fn 0 (((bytesOfNat 8 r.1.toNat).drop (off % 8)).take len) false)

/-- HOST_MEMORY_REQUEST (R660, Table 15.6). -/
def execHostMemoryRequest (fn : Fin 2) (bar : Nat) (write : Bool) (off : Nat) (len : Nat) (data : List Byte) (be : List Bool) (ep : Bool)
    (posted : Bool) (s : State) : Result :=
  .next <|
    if !s.host.linkUp then s
    else
      let s1 := s.fromL1
      if (s1.func fn.val).inFlr then s1
      else if s1.notServed fn.val bar write off len posted then s1.unsupported fn.val (write && posted)
      else if write then s1.memWrite fn.val bar off len data be ep
      else s1.memRead fn.val bar off len

/-! ### SMBus (Table 17.6) -/

/-- MCTP_REG_READ (R743): the 64-bit register at an offset of PF1 BAR0; REFUSED for the flash and security block and the doorbells. -/
def execMctpRegRead (off : Nat) (s : State) : Result :=
  .next <|
    let a := off / 8 * 8
    if !s.firmware then s
    else if (0x60000 ≤ a ∧ a < 0x62000) ∨ 0xF0000 ≤ a then s.smb 0x04 [mctpRefused]
    else
      let r := s.unitRead 1 a true true
      r.2.smb 0x04 [0, r.1]

end Sys2Proof.Machine
end

