-- ==== Sys2Proof/Machine/Coding.lean ====
section
/-! DEFINITION. What a lane carries on the wire (R92 to R97, R99 to R102, R105, R107, R108, R134): blocks, the scrambler, the
RS(544,514) code, the Gray mapping and the precoder, marker rows, training frames and test patterns. Commands report blocks, rows and
frames, so no command reads these functions; they say which bits and levels the FG-16 sends for them. -/

namespace Sys2Proof.Machine

/-- Bits of bytes in transmission order: byte 0 first, bit 0 first (R95). -/
def wireBits (l : List Byte) : List Bool := l.flatMap fun b => (List.range 8).map b.getLsbD

/-- The self-synchronising scrambler x^58 + x^39 + 1 (R96): bit k of its state is the bit sent k + 1 bits ago. -/
def scramble : List Bool → BitVec 58 → List Bool × BitVec 58
  | [], st => ([], st)
  | b :: bs, st =>
      let o := (b != st.getLsbD 38) != st.getLsbD 57
      let r := scramble bs ((st <<< 1) ||| (if o then 1 else 0))
      (o :: r.1, r.2)

/-- A block on the wire: its header, then its scrambled body (R92, R95, R96). -/
def wireBlock (header : Bool) (body : List Byte) (st : BitVec 58) : List Bool × BitVec 58 :=
  let r := scramble (wireBits body) st
  (header :: r.1, r.2)

/-- The body of a FILL block (R93, Table 3.2). -/
def fillBody : List Byte := 0x1E :: List.replicate 31 0

/-- The body of a MARK block (R102, Table 3.4): the lane's index, the width code, the source, MARKER_SEQ, the rate and the FEC. -/
def markBody (lane width : Nat) (camera : Bool) (seq rate : Nat) (fec : Bool) : List Byte :=
  [0x2D, BitVec.ofNat 8 (lane % 4 + 4 * (width % 4) + 16 * b2n camera), BitVec.ofNat 8 seq, BitVec.ofNat 8 (seq / 256),
    BitVec.ofNat 8 (rate % 4 + 4 * b2n fec)] ++ List.replicate 27 0

/-- The lane of block `j` of a stream of width `w` (R101), and the block slots of a lane between MARK blocks. -/
def blockLane (w j : Nat) : Nat := j % w
def markPeriod : Nat := 16384

/-! ### RS(544,514) over GF(2^10) (R97) -/

/-- An element times α, in the field of x^10 + x^3 + 1. -/
def gfTimesAlpha (a : Nat) : Nat := if 512 ≤ a then ((2 * a) ^^^ 0x409) % 1024 else 2 * a

/-- A product in the field: `n` bits of `b`, lowest first. -/
def gfMulAux : Nat → Nat → Nat → Nat
  | 0, _, _ => 0
  | n + 1, a, b => (if b % 2 = 1 then a else 0) ^^^ gfMulAux n (gfTimesAlpha a) (b / 2)

def gfMul (a b : Nat) : Nat := gfMulAux 10 a b

/-- α to the power `n`. -/
def gfAlpha : Nat → Nat
  | 0 => 1
  | n + 1 => gfTimesAlpha (gfAlpha n)

/-- A polynomial, highest degree first, times (x − r). -/
def polyTimesRoot (p : List Nat) (r : Nat) : List Nat :=
  List.zipWith (fun a b => a ^^^ b) (p ++ [0]) (0 :: p.map (gfMul r))

/-- The generator (x − α^0)(x − α^1) … (x − α^29), highest degree first. -/
def rsGenerator : List Nat := (List.range 30).foldl (fun p k => polyTimesRoot p (gfAlpha k)) [1]

/-- One symbol of the message enters the division by the generator. -/
def rsStep (g : List Nat) (reg : List Nat) (m : Nat) : List Nat :=
  let f := m ^^^ reg.headD 0
  List.zipWith (fun a b => a ^^^ gfMul f b) (reg.tail ++ [0]) (g.drop 1)

/-- The 30 parity symbols m(x)·x^30 mod g(x), highest degree first. -/
def rsParity (msg : List Nat) : List Nat := msg.foldl (rsStep rsGenerator) (List.replicate 30 0)

/-- Bits in transmission order as 10-bit symbols, the first bit of each the coefficient of α^0. -/
def symbolsOf : Nat → List Bool → List Nat
  | 0, _ => []
  | n + 1, l => ((l.take 10).foldr (fun b a => b2n b + 2 * a) 0) :: symbolsOf n (l.drop 10)

def bitsOfSymbols (l : List Nat) : List Bool := l.flatMap fun v => (List.range 10).map v.testBit

/-- The codeword of 20 blocks: 5,140 message bits, then 300 parity bits. -/
def rsCodeword (blocks : List Bool) : List Bool :=
  let m := symbolsOf 514 blocks
  bitsOfSymbols (m ++ rsParity m)

/-! ### Symbols (R99, R100) -/

/-- The Gray mapping of Table 3.3. -/
def gray (msb lsb : Bool) : Nat :=
  match msb, lsb with
  | false, false => 0
  | false, true => 1
  | true, true => 2
  | true, false => 3

/-- The level a symbol value is sent at. -/
def level (v : Nat) : Int := 2 * (v : Int) - 3

/-- The Gray values of a coded bit stream, the earlier bit of each pair the MSB. -/
def grayStream : List Bool → List Nat
  | m :: l :: bs => gray m l :: grayStream bs
  | _ => []

/-- The precoder y(n) = (g(n) − y(n−1)) mod 4, from y(−1) = `y`. -/
def precode : Nat → List Nat → List Nat
  | _, [] => []
  | y, g :: gs => ((g + 4 - y) % 4) :: precode ((g + 4 - y) % 4) gs

/-- What the receiver recovers: g(n) = (y(n) + y(n−1)) mod 4. -/
def unprecode : Nat → List Nat → List Nat
  | _, [] => []
  | y, v :: vs => ((v + y) % 4) :: unprecode v vs

/-- The levels a lane sends at rates H and L for a coded bit stream. -/
def wireLevels (precoded : Bool) (coded : List Bool) : List Int :=
  ((if precoded then precode 0 (grayStream coded) else grayStream coded)).map level

/-! ### Training frames and test patterns (R107, R108, R134) -/

/-- One bit of a control or status field: 4 UI at the outer levels. -/
def fieldBitLevels (b : Bool) : List Int := if b then [3, 3, -3, -3] else [-3, -3, 3, 3]

/-- A 32-bit field, bit 0 first. -/
def fieldLevels (f : BitVec 32) : List Int := (List.range 32).flatMap fun k => fieldBitLevels (f.getLsbD k)

/-- A pseudo-random sequence x^n + x^a + … + 1 with the taps `taps`, `m` bits from a state whose bit k was sent k + 1 bits ago. -/
def prbs {n : Nat} (taps : List Nat) : Nat → BitVec n → List Bool
  | 0, _ => []
  | m + 1, st =>
      let o := taps.foldl (fun a t => a != st.getLsbD (t - 1)) false
      o :: prbs taps m ((st <<< 1) ||| (if o then 1 else 0))

/-- The exponents of the patterns of R134, by LANE_PAT_CTRL.PATTERN: PRBS7, PRBS9, PRBS13, PRBS15, PRBS31; SSPRQ is IEEE 802.3's. -/
def patternTaps : Nat → List Nat
  | 0 => [7, 6]
  | 1 => [9, 5]
  | 2 => [13, 12, 2, 1]
  | 3 => [15, 14]
  | 4 => [31, 28]
  | _ => []

/-- A training frame of 4,096 UI at rates H and L (Table 3.5), its pattern from a state of PRBS13. -/
def trainingLevels (control status : BitVec 32) (st : BitVec 13) : List Int :=
  List.replicate 32 3 ++ List.replicate 32 (-3) ++ fieldLevels control ++ fieldLevels status ++
    (grayStream (prbs (patternTaps 2) 7552 st)).map level

end Sys2Proof.Machine
end

