-- ==== Sys2Proof/Machine/Package.lean ====
section
/-! DEFINITION. The ball map of the package (R782, R784 to R792): what lies at each position of the 51 × 51 grid. Row index `i` and column
index `j` count from 1, as the chapter gives them. No command reads it. -/

namespace Sys2Proof.Machine

/-- The supplies that balls carry (Table 19.2's rails and the field side's). -/
inductive Supply where
  | core | sram | srd | srdh | hbmp | hbmq | adc | io | aon | vbat | vfield | fgnd
deriving DecidableEq, Repr

/-- The single-ended and clock balls of MISC and PCIE_AUX (Table 19.16, R787). -/
inductive MiscBall where
  | srdRefclk (dn : Bool) | ppsIn | ref10mIn | xtalIn | xtalOut | flashClk | flashCsN | flashDqs | flashResetN | flashD (k : Nat)
  | smbScl | smbSda | smbAlertN | uartTx | uartRx | tck | tms | tdi | tdo | trstN | keepOutN | peerKeepN | testEn
  | pcieRefclk (dn : Bool) | perstN | wakeN | clkreqN
deriving DecidableEq, Repr

/-- The pairs of a parallel port (R788). -/
inductive PportPair where
  | d (k : Nat) | clk | frameV | lineV | dataV
deriving DecidableEq, Repr

/-- What a position of the grid carries; `dn` is the _DN leg of a pair, `tx` a lane that transmits from the FG-16. -/
inductive Ball where
  | none | vss | supply (x : Supply)
  | cl (k : Nat) (tx dn : Bool) | cwl (k : Nat) (tx dn : Bool) | pcie (k : Nat) (tx dn : Bool)
  | trigOut (k : Nat) (dn : Bool) | trigIn (k : Nat) (dn : Bool)
  | pport (p : Nat) (x : PportPair) (dn : Bool) | ain (n k : Nat) (dn : Bool)
  | enc (axis signal : Nat) (dn : Bool) | fi (k : Nat) | fo (k : Nat) | misc (x : MiscBall)
deriving DecidableEq, Repr

/-- The regions of Table 19.14. -/
inductive BallRegion where
  | moat | field | cam | camCorner | cause | trig | misc | pcie | pcieAux | pport | ana | core | outside
deriving DecidableEq, Repr

def inSpan (x lo hi : Nat) : Bool := lo ≤ x && x ≤ hi

/-- The region of a position (Table 19.14). -/
def ballRegion (i j : Nat) : BallRegion :=
  if inSpan i 40 42 && inSpan j 37 51 || inSpan i 43 51 && inSpan j 36 39 then .moat
  else if inSpan i 43 51 && inSpan j 40 51 then .field
  else if inSpan i 1 48 && inSpan j 1 8 then .cam
  else if inSpan i 49 51 && inSpan j 1 8 then .camCorner
  else if inSpan i 1 3 && inSpan j 9 32 then .cause
  else if inSpan i 4 6 && inSpan j 9 32 then .trig
  else if inSpan i 1 6 && inSpan j 33 43 then .misc
  else if inSpan i 1 24 && inSpan j 44 51 then .pcie
  else if i == 25 && inSpan j 44 51 then .pcieAux
  else if inSpan i 26 39 && inSpan j 44 51 then .pport
  else if inSpan i 43 51 && inSpan j 9 35 then .ana
  else if inSpan i 7 39 && inSpan j 9 43 || inSpan i 40 42 && inSpan j 9 36 then .core
  else .outside

/-- CAM (R785). -/
def camBall (i j : Nat) : Ball :=
  let n := (i - 1) / 3
  let r := (i - 1) % 3
  if r = 1 ∨ j = 1 ∨ j = 4 ∨ j = 5 ∨ j = 8 then .vss
  else .cl (if j ≤ 3 then 2 * n else 2 * n + 1) (!((r == 0 && n % 2 == 0) || (r == 2 && n % 2 == 1))) (j == 3 || j == 7)

/-- CAUSE and TRIG (R786). -/
def causeBall (i j : Nat) : Ball :=
  let m := (j - 9) / 3
  let c := (j - 9) % 3
  if c = 2 then .vss
  else match i with
    | 1 => .cwl m false (c == 1)
    | 3 => .cwl m true (c == 1)
    | 4 => .trigOut m (c == 1)
    | 5 => .trigOut (m + 8) (c == 1)
    | 6 => .trigIn m (c == 1)
    | _ => .vss

/-- PCIE (R787). -/
def pcieBall (i j : Nat) : Ball :=
  let b := (i - 1) / 3
  let r := (i - 1) % 3
  if r = 1 ∨ j = 44 ∨ j = 47 ∨ j = 48 ∨ j = 51 then .vss
  else .pcie (if 48 < j then 2 * b else 2 * b + 1) (!((r == 0 && b % 2 == 0) || (r == 2 && b % 2 == 1))) (j == 46 || j == 50)

/-- PCIE_AUX, row AF (R787). -/
def pcieAuxBall (j : Nat) : Ball :=
  match j with
  | 45 => .misc (.pcieRefclk false)
  | 46 => .misc (.pcieRefclk true)
  | 48 => .misc .perstN
  | 49 => .misc .wakeN
  | 50 => .misc .clkreqN
  | _ => .vss

/-- PPORT (R788). -/
def pportBall (i j : Nat) : Ball :=
  if j = 46 ∨ j = 49 then .vss
  else
    let p := (j - 44) / 3
    let q := 3 * (i - 26) + p
    let s := q % 20
    let x : PportPair := if s < 16 then .d s else if s = 16 then .clk else if s = 17 then .frameV else if s = 18 then .lineV else .dataV
    if q < 40 then .pport (q / 20) x (j == 45 || j == 48 || j == 51) else .vss

/-- ANA (R789). -/
def anaBall (i j : Nat) : Ball :=
  let n := (j - 9) / 3
  let c := (j - 9) % 3
  if i = 50 ∧ c < 2 then .supply .adc
  else if n < 8 ∧ c < 2 ∧ i % 2 = 1 ∧ i < 50 then .ain n ((i - 43) / 2) (c == 1)
  else .vss

/-- FIELD (R790). -/
def fieldBall (i j : Nat) : Ball :=
  let m := i - 43
  if m < 4 then .enc (if j ≤ 45 then 2 * m else 2 * m + 1) ((j - 40) % 6 / 2) ((j - 40) % 2 == 1)
  else if i = 51 then (if j ≤ 43 then .supply .vfield else .supply .fgnd)
  else if 48 ≤ j then (if m ≤ 5 then .supply .fgnd else .supply .vfield)
  else if m ≤ 5 then .fi (8 * (m - 4) + (j - 40)) else .fo (8 * (m - 6) + (j - 40))

/-- CORE (R791, Table 19.15). -/
def coreBall (i j : Nat) : Ball :=
  if (i + j) % 2 = 0 then .vss
  else if inSpan j 9 11 || inSpan i 7 8 && inSpan j 12 43 || inSpan j 41 43 && inSpan i 9 39 then
    (if (i + j) % 4 = 1 then .supply .srd else .supply .srdh)
  else if (inSpan i 10 19 || inSpan i 30 39) && (inSpan j 13 22 || inSpan j 30 39) then
    (if j % 4 = 0 then .supply .hbmp else .supply .hbmq)
  else if i % 6 = 0 then .supply .sram else .supply .core

/-- MISC (R792, Table 19.16). -/
def miscBall (i j : Nat) : Ball :=
  match i, j with
  | 1, 33 => .misc (.srdRefclk false) | 1, 34 => .misc (.srdRefclk true) | 1, 36 => .misc .ppsIn | 1, 38 => .misc .ref10mIn
  | 1, 40 => .misc .xtalIn | 1, 41 => .misc .xtalOut | 1, 43 => .supply .vbat
  | 2, 42 => .supply .aon | 2, 43 => .supply .aon
  | 3, 33 => .misc .flashClk | 3, 34 => .misc .flashCsN | 3, 35 => .misc .flashDqs | 3, 36 => .misc .flashResetN
  | 3, 38 => .misc .smbScl | 3, 39 => .misc .smbSda | 3, 40 => .misc .smbAlertN | 3, 42 => .misc .uartTx | 3, 43 => .misc .uartRx
  | 4, 38 => .misc .tck | 4, 39 => .misc .tms | 4, 40 => .misc .tdi | 4, 41 => .misc .tdo | 4, 42 => .misc .trstN
  | 5, 38 => .misc .keepOutN | 5, 39 => .misc .peerKeepN | 5, 41 => .misc .testEn
  | 4, j => if j ≤ 36 then .misc (.flashD (j - 33)) else .vss
  | 5, j => if j ≤ 36 then .misc (.flashD (j - 29)) else .vss
  | 6, j => if j ≤ 40 then .supply .io else .vss
  | _, _ => .vss

/-- What the position in row `i` and column `j` carries (R784). -/
def ballAt (i j : Nat) : Ball :=
  match ballRegion i j with
  | .moat | .outside => .none
  | .camCorner => .vss
  | .field => fieldBall i j
  | .cam => camBall i j
  | .cause | .trig => causeBall i j
  | .misc => miscBall i j
  | .pcie => pcieBall i j
  | .pcieAux => pcieAuxBall j
  | .pport => pportBall i j
  | .ana => anaBall i j
  | .core => coreBall i j

/-- Balls outside the boundary-scan chain: those of the field domain and the analogue inputs (R745), and those that carry no signal. -/
def Ball.scanned : Ball → Bool
  | .none | .vss | .supply _ | .enc .. | .fi _ | .fo _ | .ain .. => false
  | _ => true

end Sys2Proof.Machine
end

