-- ==== Sys2Proof/Machine/Dispatch.lean ====
section
/-! DEFINITION. One arm for each command. -/

namespace Sys2Proof.Machine

def exec (i : Instr) (s : State) : Host.Outcome State Fault Refusal :=
  match i with
  | .handshakeEntryVisible c w => Sys2Proof.Machine.execHandshakeEntryVisible c w s
  | .handshakeEntryFreed c => Sys2Proof.Machine.execHandshakeEntryFreed c s
  | .thermalSample temps => Sys2Proof.Machine.execThermalSample temps s
  | .throttleRelease => Sys2Proof.Machine.execThrottleRelease s
  | .railSample mv current => Sys2Proof.Machine.execRailSample mv current s
  | .boundsRelease => Sys2Proof.Machine.execBoundsRelease s
  | .vbatRise mv => Sys2Proof.Machine.execVbatRise mv s
  | .vddAonRise => Sys2Proof.Machine.execVddAonRise s
  | .vddAonFall => Sys2Proof.Machine.execVddAonFall s
  | .backupCounterStep => Sys2Proof.Machine.execBackupCounterStep s
  | .vbatBrownout mv => Sys2Proof.Machine.execVbatBrownout mv s
  | .vbatLow mv => Sys2Proof.Machine.execVbatLow mv s
  | .vbatRecover mv => Sys2Proof.Machine.execVbatRecover mv s
  | .sealSample => Sys2Proof.Machine.execSealSample s
  | .retentionSoftwareWrite off bytes => Sys2Proof.Machine.execRetentionSoftwareWrite off bytes s
  | .retentionSequencerStep => Sys2Proof.Machine.execRetentionSequencerStep s
  | .perstAssert => Sys2Proof.Machine.execPerstAssert s
  | .railDropReset rail => Sys2Proof.Machine.execRailDropReset rail s
  | .perstRelease => Sys2Proof.Machine.execPerstRelease s
  | .bootImageSelect readErrA readErrB => Sys2Proof.Machine.execBootImageSelect readErrA readErrB s
  | .modeRequestGo fn v => Sys2Proof.Machine.execModeRequestGo fn v s
  | .modeRequestEval => Sys2Proof.Machine.execModeRequestEval s
  | .modeTransitionEnd => Sys2Proof.Machine.execModeTransitionEnd s
  | .softReset v => Sys2Proof.Machine.execSoftReset v s
  | .hotReset => Sys2Proof.Machine.execHotReset s
  | .yardmasterWatchdogExpiry => Sys2Proof.Machine.execYardmasterWatchdogExpiry s
  | .stallEnable n v => Sys2Proof.Machine.execStallEnable n v s
  | .stallDisable n v => Sys2Proof.Machine.execStallDisable n v s
  | .stallLinkCntClear n => Sys2Proof.Machine.execStallLinkCntClear n s
  | .cameraWakeDetect l => Sys2Proof.Machine.execCameraWakeDetect l s
  | .trainingFrameReceived l control status inverted eye => Sys2Proof.Machine.execTrainingFrameReceived l control status inverted eye s
  | .frameLock l inverted => Sys2Proof.Machine.execFrameLock l inverted s
  | .wakeTimeout l signal => Sys2Proof.Machine.execWakeTimeout l signal s
  | .trainTimeout l => Sys2Proof.Machine.execTrainTimeout l s
  | .trainWaitExpiry l => Sys2Proof.Machine.execTrainWaitExpiry l s
  | .markRowTransmit n => Sys2Proof.Machine.execMarkRowTransmit n s
  | .fillRowTransmit n => Sys2Proof.Machine.execFillRowTransmit n s
  | .markRowReceived n seq ids arrive => Sys2Proof.Machine.execMarkRowReceived n seq ids arrive s
  | .markRowMissing l => Sys2Proof.Machine.execMarkRowMissing l s
  | .codewordDecode l errors => Sys2Proof.Machine.execCodewordDecode l errors s
  | .blockReceive l header body => Sys2Proof.Machine.execBlockReceive l header body s
  | .quietReadyTimeout n => Sys2Proof.Machine.execQuietReadyTimeout n s
  | .laneTestEnter l v => Sys2Proof.Machine.execLaneTestEnter l v s
  | .laneTestExit l v => Sys2Proof.Machine.execLaneTestExit l v s
  | .laneCntClear l => Sys2Proof.Machine.execLaneCntClear l s
  | .checkerLock l ui bad errs => Sys2Proof.Machine.execCheckerLock l ui bad errs s
  | .laneInjectGo l v => Sys2Proof.Machine.execLaneInjectGo l v s
  | .patCounterRead l err => Sys2Proof.Machine.execPatCounterRead l err s
  | .lmRetrain n v => Sys2Proof.Machine.execLmRetrain n v s
  | .lmWidthChange n v => Sys2Proof.Machine.execLmWidthChange n v s
  | .lmEnterIdle n v => Sys2Proof.Machine.execLmEnterIdle n v s
  | .lmEnterDeep n v => Sys2Proof.Machine.execLmEnterDeep n v s
  | .lmExit n v => Sys2Proof.Machine.execLmExit n v s
  | .lmIllegalOp n v => Sys2Proof.Machine.execLmIllegalOp n v s
  | .lmRetrainReceived n msg crc errored => Sys2Proof.Machine.execLmRetrainReceived n msg crc errored s
  | .lmWidthReqReceived n msg crc errored => Sys2Proof.Machine.execLmWidthReqReceived n msg crc errored s
  | .lmExitReceived n msg crc errored => Sys2Proof.Machine.execLmExitReceived n msg crc errored s
  | .lmDisallowedReceived n msg crc errored => Sys2Proof.Machine.execLmDisallowedReceived n msg crc errored s
  | .lmAckReceived n msg crc errored => Sys2Proof.Machine.execLmAckReceived n msg crc errored s
  | .lmNakReceived n msg crc errored => Sys2Proof.Machine.execLmNakReceived n msg crc errored s
  | .lmResponseTimeout n => Sys2Proof.Machine.execLmResponseTimeout n s
  | .frameStartReceived n fseq param body crc errored tick room => Sys2Proof.Machine.execFrameStartReceived n fseq param body crc errored tick room s
  | .heldFrameStartRelease n => Sys2Proof.Machine.execHeldFrameStartRelease n s
  | .lineReceived n fseq param body crc errored tick room => Sys2Proof.Machine.execLineReceived n fseq param body crc errored tick room s
  | .frameEndReceived n fseq param body crc errored tick room => Sys2Proof.Machine.execFrameEndReceived n fseq param body crc errored tick room s
  | .frameTimeout n => Sys2Proof.Machine.execFrameTimeout n s
  | .controlResponseReceived n id param body crc errored tick => Sys2Proof.Machine.execControlResponseReceived n id param body crc errored tick s
  | .eventPacketReceived n param body crc errored tick room => Sys2Proof.Machine.execEventPacketReceived n param body crc errored tick room s
  | .heartbeatReceived n param body crc errored tick => Sys2Proof.Machine.execHeartbeatReceived n param body crc errored tick s
  | .heartbeatSend n => Sys2Proof.Machine.execHeartbeatSend n s
  | .cameraLost n => Sys2Proof.Machine.execCameraLost n s
  | .yardCameraTrigger n => Sys2Proof.Machine.execYardCameraTrigger n s
  | .triggerCommit n tx gone => Sys2Proof.Machine.execTriggerCommit n tx gone s
  | .controlRequestPop n => Sys2Proof.Machine.execControlRequestPop n s
  | .controlTimeout n => Sys2Proof.Machine.execControlTimeout n s
  | .controlIdQuarantineEnd n => Sys2Proof.Machine.execControlIdQuarantineEnd n s
  | .protoCntClear n => Sys2Proof.Machine.execProtoCntClear n s
  | .pportFrameVAssert p tick => Sys2Proof.Machine.execPportFrameVAssert p tick s
  | .pportLineEnd p rise fall => Sys2Proof.Machine.execPportLineEnd p rise fall s
  | .pportFrameVRelease p => Sys2Proof.Machine.execPportFrameVRelease p s
  | .pportClockUp p => Sys2Proof.Machine.execPportClockUp p s
  | .pportClockLost p => Sys2Proof.Machine.execPportClockLost p s
  | .bayLineIntake n backed => Sys2Proof.Machine.execBayLineIntake n backed s
  | .mapReadReturn n => Sys2Proof.Machine.execMapReadReturn n s
  | .statisticsPush c => Sys2Proof.Machine.execStatisticsPush c s
  | .contextEnable c v => Sys2Proof.Machine.execContextEnable c v s
  | .contextDisable c v => Sys2Proof.Machine.execContextDisable c v s
  | .ctxCntClear c => Sys2Proof.Machine.execCtxCntClear c s
  | .tackCopyWrite c b w v be => Sys2Proof.Machine.execTackCopyWrite c b w v be s
  | .tackCommitGo c v => Sys2Proof.Machine.execTackCommitGo c v s
  | .tackCheckComplete c => Sys2Proof.Machine.execTackCheckComplete c s
  | .tackCommitCancel c => Sys2Proof.Machine.execTackCommitCancel c s
  | .chuteBaysWrite k v => Sys2Proof.Machine.execChuteBaysWrite k v s
  | .defectBaseWrite v => Sys2Proof.Machine.execDefectBaseWrite v s
  | .cribLoadGo v => Sys2Proof.Machine.execCribLoadGo v s
  | .cribLoadComplete => Sys2Proof.Machine.execCribLoadComplete s
  | .tagRecordPush c => Sys2Proof.Machine.execTagRecordPush c s
  | .windowResultPush c => Sys2Proof.Machine.execWindowResultPush c s
  | .shiftaddResampleEnd c => Sys2Proof.Machine.execShiftaddResampleEnd c s
  | .paddockLoadGo v => Sys2Proof.Machine.execPaddockLoadGo v s
  | .paddockLoadComplete => Sys2Proof.Machine.execPaddockLoadComplete s
  | .redCntClear c => Sys2Proof.Machine.execRedCntClear c s
  | .adcYardStart n => Sys2Proof.Machine.execAdcYardStart n s
  | .adcUrgentRequest n yard => Sys2Proof.Machine.execAdcUrgentRequest n yard s
  | .adcCtrlStart n => Sys2Proof.Machine.execAdcCtrlStart n s
  | .adcCtrlStop n => Sys2Proof.Machine.execAdcCtrlStop n s
  | .adcCntClear n => Sys2Proof.Machine.execAdcCntClear n s
  | .adcGlobalStart mask => Sys2Proof.Machine.execAdcGlobalStart mask s
  | .adcGlobalStop mask => Sys2Proof.Machine.execAdcGlobalStop mask s
  | .adcUnitCommit n xs => Sys2Proof.Machine.execAdcUnitCommit n xs s
  | .adcRunEnd n xs stray => Sys2Proof.Machine.execAdcRunEnd n xs stray s
  | .adcUrgentResult n x => Sys2Proof.Machine.execAdcUrgentResult n x s
  | .urgentResultRead n => Sys2Proof.Machine.execUrgentResultRead n s
  | .adcCfgWrite n v => Sys2Proof.Machine.execAdcCfgWrite n v s
  | .adcWakeComplete n => Sys2Proof.Machine.execAdcWakeComplete n s
  | .adcBufWrite n v => Sys2Proof.Machine.execAdcBufWrite n v s
  | .mmcConverged n => Sys2Proof.Machine.execMmcConverged n s
  | .adcCalZero n v => Sys2Proof.Machine.execAdcCalZero n v s
  | .adcCalFull n v => Sys2Proof.Machine.execAdcCalFull n v s
  | .adcCalPhaseEnd n sum => Sys2Proof.Machine.execAdcCalPhaseEnd n sum s
  | .vstEnable v w => Sys2Proof.Machine.execVstEnable v w s
  | .vstDisable v w => Sys2Proof.Machine.execVstDisable v w s
  | .vstFrameStart v => Sys2Proof.Machine.execVstFrameStart v s
  | .vstPixelEnd v xs => Sys2Proof.Machine.execVstPixelEnd v xs s
  | .vstPixelEvent v xs => Sys2Proof.Machine.execVstPixelEvent v xs s
  | .vstDwellTimeout v => Sys2Proof.Machine.execVstDwellTimeout v s
  | .fenSegApply => Sys2Proof.Machine.execFenSegApply s
  | .fenSegApplyComplete => Sys2Proof.Machine.execFenSegApplyComplete s
  | .fenWordRead addr ecc => Sys2Proof.Machine.execFenWordRead addr ecc s
  | .fenCorrectionWriteback addr written => Sys2Proof.Machine.execFenCorrectionWriteback addr written s
  | .fenPartialWrite addr data be ecc => Sys2Proof.Machine.execFenPartialWrite addr data be ecc s
  | .fenScrubCntClear => Sys2Proof.Machine.execFenScrubCntClear s
  | .poolEnable p v => Sys2Proof.Machine.execPoolEnable p v s
  | .poolFillComplete p => Sys2Proof.Machine.execPoolFillComplete p s
  | .poolDisable p v => Sys2Proof.Machine.execPoolDisable p v s
  | .poolForce p v => Sys2Proof.Machine.execPoolForce p v s
  | .poolRelease v => Sys2Proof.Machine.execPoolRelease v s
  | .troughEnable t v => Sys2Proof.Machine.execTroughEnable t v s
  | .troughDisable t v => Sys2Proof.Machine.execTroughDisable t v s
  | .trgFlush t => Sys2Proof.Machine.execTrgFlush t s
  | .trgCntClear t => Sys2Proof.Machine.execTrgCntClear t s
  | .push fn t w poisoned => Sys2Proof.Machine.execPush fn t w poisoned s
  | .pushSop fn t w poisoned => Sys2Proof.Machine.execPushSop fn t w poisoned s
  | .pushMid fn t w poisoned => Sys2Proof.Machine.execPushMid fn t w poisoned s
  | .pushEop fn t w poisoned => Sys2Proof.Machine.execPushEop fn t w poisoned s
  | .pushAbort fn t => Sys2Proof.Machine.execPushAbort fn t s
  | .pop fn t ecc => Sys2Proof.Machine.execPop fn t ecc s
  | .popData fn => Sys2Proof.Machine.execPopData fn s
  | .depth fn t => Sys2Proof.Machine.execDepth fn t s
  | .packetTimeout t => Sys2Proof.Machine.execPacketTimeout t s
  | .popHoldTimeout t => Sys2Proof.Machine.execPopHoldTimeout t s
  | .descriptorFetch r n tag => Sys2Proof.Machine.execDescriptorFetch r n tag s
  | .descriptorFetchComplete tag data => Sys2Proof.Machine.execDescriptorFetchComplete tag data s
  | .descriptorPop r => Sys2Proof.Machine.execDescriptorPop r s
  | .sluiceNop r slot => Sys2Proof.Machine.execSluiceNop r slot s
  | .sluiceCopy r slot => Sys2Proof.Machine.execSluiceCopy r slot s
  | .sluiceDeliver r slot => Sys2Proof.Machine.execSluiceDeliver r slot s
  | .sluiceFetch r slot tag => Sys2Proof.Machine.execSluiceFetch r slot tag s
  | .sluicePush r slot tag => Sys2Proof.Machine.execSluicePush r slot tag s
  | .sluicePop r slot => Sys2Proof.Machine.execSluicePop r slot s
  | .deliverWaitResume r slot => Sys2Proof.Machine.execDeliverWaitResume r slot s
  | .completionRecordIssue r => Sys2Proof.Machine.execCompletionRecordIssue r s
  | .msixMessageIssue fn vector window => Sys2Proof.Machine.execMsixMessageIssue fn vector window s
  | .ringTailWrite r v => Sys2Proof.Machine.execRingTailWrite r v s
  | .ringEnable r v => Sys2Proof.Machine.execRingEnable r v s
  | .ringDisable r v => Sys2Proof.Machine.execRingDisable r v s
  | .sluiceCntClear => Sys2Proof.Machine.execSluiceCntClear s
  | .mirrorCopy k share => Sys2Proof.Machine.execMirrorCopy k share s
  | .destCommit c v => Sys2Proof.Machine.execDestCommit c v s
  | .destCancel c => Sys2Proof.Machine.execDestCancel c s
  | .herdEnable h v => Sys2Proof.Machine.execHerdEnable h v s
  | .herdDisable h v => Sys2Proof.Machine.execHerdDisable h v s
  | .herdStrictWindowExpiry h => Sys2Proof.Machine.execHerdStrictWindowExpiry h s
  | .herdRecordRelease h => Sys2Proof.Machine.execHerdRecordRelease h s
  | .add g ecc => Sys2Proof.Machine.execAdd g ecc s
  | .sub g ecc => Sys2Proof.Machine.execSub g ecc s
  | .and g ecc => Sys2Proof.Machine.execAnd g ecc s
  | .or g ecc => Sys2Proof.Machine.execOr g ecc s
  | .xor g ecc => Sys2Proof.Machine.execXor g ecc s
  | .shl g ecc => Sys2Proof.Machine.execShl g ecc s
  | .shr g ecc => Sys2Proof.Machine.execShr g ecc s
  | .sar g ecc => Sys2Proof.Machine.execSar g ecc s
  | .mul g ecc => Sys2Proof.Machine.execMul g ecc s
  | .min g ecc => Sys2Proof.Machine.execMin g ecc s
  | .max g ecc => Sys2Proof.Machine.execMax g ecc s
  | .cmp g ecc => Sys2Proof.Machine.execCmp g ecc s
  | .addi g ecc => Sys2Proof.Machine.execAddi g ecc s
  | .movi g ecc => Sys2Proof.Machine.execMovi g ecc s
  | .addi32 g ecc => Sys2Proof.Machine.execAddi32 g ecc s
  | .li32 g ecc => Sys2Proof.Machine.execLi32 g ecc s
  | .bitSet g ecc => Sys2Proof.Machine.execBitSet g ecc s
  | .bitClr g ecc => Sys2Proof.Machine.execBitClr g ecc s
  | .bitTst g ecc => Sys2Proof.Machine.execBitTst g ecc s
  | .bitExt g ecc => Sys2Proof.Machine.execBitExt g ecc s
  | .b g ecc => Sys2Proof.Machine.execB g ecc s
  | .bc g ecc => Sys2Proof.Machine.execBc g ecc s
  | .call g ecc => Sys2Proof.Machine.execCall g ecc s
  | .ret g ecc => Sys2Proof.Machine.execRet g ecc s
  | .loop g ecc => Sys2Proof.Machine.execLoop g ecc s
  | .bl32 g ecc => Sys2Proof.Machine.execBl32 g ecc s
  | .halt g ecc => Sys2Proof.Machine.execHalt g ecc s
  | .nop g ecc => Sys2Proof.Machine.execNop g ecc s
  | .fence g ecc => Sys2Proof.Machine.execFence g ecc s
  | .ld g ecc mem => Sys2Proof.Machine.execLd g ecc mem s
  | .st g ecc mem => Sys2Proof.Machine.execSt g ecc mem s
  | .lds g ecc mem => Sys2Proof.Machine.execLds g ecc mem s
  | .sts g ecc mem => Sys2Proof.Machine.execSts g ecc mem s
  | .amoAdd g ecc mem => Sys2Proof.Machine.execAmoAdd g ecc mem s
  | .amoSwap g ecc mem => Sys2Proof.Machine.execAmoSwap g ecc mem s
  | .amoCas g ecc mem => Sys2Proof.Machine.execAmoCas g ecc mem s
  | .waite g ecc => Sys2Proof.Machine.execWaite g ecc s
  | .waitt g ecc => Sys2Proof.Machine.execWaitt g ecc s
  | .waitp g ecc => Sys2Proof.Machine.execWaitp g ecc s
  | .waitq g ecc => Sys2Proof.Machine.execWaitq g ecc s
  | .waitx g ecc => Sys2Proof.Machine.execWaitx g ecc s
  | .waitr g ecc => Sys2Proof.Machine.execWaitr g ecc s
  | .waitEnd g => Sys2Proof.Machine.execWaitEnd g s
  | .csrR g ecc => Sys2Proof.Machine.execCsrR g ecc s
  | .csrW g ecc => Sys2Proof.Machine.execCsrW g ecc s
  | .csrS g ecc => Sys2Proof.Machine.execCsrS g ecc s
  | .csrC g ecc => Sys2Proof.Machine.execCsrC g ecc s
  | .illegalInstruction g ecc => Sys2Proof.Machine.execIllegalInstruction g ecc s
  | .groomEventInput g n => Sys2Proof.Machine.execGroomEventInput g n s
  | .groomWatchdogExpiry g => Sys2Proof.Machine.execGroomWatchdogExpiry g s
  | .emitPulse g ecc => Sys2Proof.Machine.execEmitPulse g ecc s
  | .emitSet g ecc => Sys2Proof.Machine.execEmitSet g ecc s
  | .emitClear g ecc => Sys2Proof.Machine.execEmitClear g ecc s
  | .emitw g ecc => Sys2Proof.Machine.execEmitw g ecc s
  | .sig g ecc => Sys2Proof.Machine.execSig g ecc s
  | .sigM g ecc => Sys2Proof.Machine.execSigM g ecc s
  | .ctrig g ecc => Sys2Proof.Machine.execCtrig g ecc s
  | .wptSet g ecc => Sys2Proof.Machine.execWptSet g ecc s
  | .wptAct g ecc => Sys2Proof.Machine.execWptAct g ecc s
  | .wptDeact g ecc => Sys2Proof.Machine.execWptDeact g ecc s
  | .arm g ecc => Sys2Proof.Machine.execArm g ecc s
  | .armOff g ecc => Sys2Proof.Machine.execArmOff g ecc s
  | .tack g ecc => Sys2Proof.Machine.execTack g ecc s
  | .tackLoad g ecc mem => Sys2Proof.Machine.execTackLoad g ecc mem s
  | .tackCancel g ecc => Sys2Proof.Machine.execTackCancel g ecc s
  | .tackWaitEnd g => Sys2Proof.Machine.execTackWaitEnd g s
  | .qpush g ecc => Sys2Proof.Machine.execQpush g ecc s
  | .qpushP g ecc mem => Sys2Proof.Machine.execQpushP g ecc mem s
  | .qpop g ecc mem => Sys2Proof.Machine.execQpop g ecc mem s
  | .qpopP g ecc mem => Sys2Proof.Machine.execQpopP g ecc mem s
  | .tag g ecc mem => Sys2Proof.Machine.execTag g ecc mem s
  | .drain g ecc mem => Sys2Proof.Machine.execDrain g ecc mem s
  | .acapStart g ecc => Sys2Proof.Machine.execAcapStart g ecc s
  | .acapStop g ecc => Sys2Proof.Machine.execAcapStop g ecc s
  | .mode g ecc => Sys2Proof.Machine.execMode g ecc s
  | .modeWaitEnd g => Sys2Proof.Machine.execModeWaitEnd g s
  | .groomRelease g v => Sys2Proof.Machine.execGroomRelease g v s
  | .groomHalt g v => Sys2Proof.Machine.execGroomHalt g v s
  | .groomHaltEffect g => Sys2Proof.Machine.execGroomHaltEffect g s
  | .groomCntClear g => Sys2Proof.Machine.execGroomCntClear g s
  | .groupRelease v => Sys2Proof.Machine.execGroupRelease v s
  | .groupHalt v => Sys2Proof.Machine.execGroupHalt v s
  | .imemHostWrite g ix v => Sys2Proof.Machine.execImemHostWrite g ix v s
  | .groomGWrite g n v => Sys2Proof.Machine.execGroomGWrite g n v s
  | .groomWdogCfgWrite g v => Sys2Proof.Machine.execGroomWdogCfgWrite g v s
  | .scratchHostAccess write ix v be => Sys2Proof.Machine.execScratchHostAccess write ix v be s
  | .outputEdgeDue o => Sys2Proof.Machine.execOutputEdgeDue o s
  | .outputConsumerEvent o => Sys2Proof.Machine.execOutputConsumerEvent o s
  | .ppsEdge stamp falling => Sys2Proof.Machine.execPpsEdge stamp falling s
  | .ppsTimeout => Sys2Proof.Machine.execPpsTimeout s
  | .ref10mLost => Sys2Proof.Machine.execRef10mLost s
  | .ref10mPresent => Sys2Proof.Machine.execRef10mPresent s
  | .tbSet v => Sys2Proof.Machine.execTbSet v s
  | .tbAdjustGo v => Sys2Proof.Machine.execTbAdjustGo v s
  | .markUnsync => Sys2Proof.Machine.execMarkUnsync s
  | .tbCntClear => Sys2Proof.Machine.execTbCntClear s
  | .tbCompareFire => Sys2Proof.Machine.execTbCompareFire s
  | .secondBoundary => Sys2Proof.Machine.execSecondBoundary s
  | .latchEvent n => Sys2Proof.Machine.execLatchEvent n s
  | .trigInEdge ix rising stamp => Sys2Proof.Machine.execTrigInEdge ix rising stamp s
  | .positionSampleReceived axis ecc => Sys2Proof.Machine.execPositionSampleReceived axis ecc s
  | .wpListDescWrite l v => Sys2Proof.Machine.execWpListDescWrite l v s
  | .wpListActivate l => Sys2Proof.Machine.execWpListActivate l s
  | .wpListDeactivate l => Sys2Proof.Machine.execWpListDeactivate l s
  | .waypointEntryWrite ix word1 v => Sys2Proof.Machine.execWaypointEntryWrite ix word1 v s
  | .yardProducerEvent ps => Sys2Proof.Machine.execYardProducerEvent ps s
  | .yardEnableWrite fn cons row m v => Sys2Proof.Machine.execYardEnableWrite fn cons row m v s
  | .yardChCfgWrite fn c v => Sys2Proof.Machine.execYardChCfgWrite fn c v s
  | .yardCntClear => Sys2Proof.Machine.execYardCntClear s
  | .leveeFrame toField ok => Sys2Proof.Machine.execLeveeFrame toField ok s
  | .leveeCmdResend => Sys2Proof.Machine.execLeveeCmdResend s
  | .coreHeartbeatSend => Sys2Proof.Machine.execCoreHeartbeatSend s
  | .timeSyncSend => Sys2Proof.Machine.execTimeSyncSend s
  | .coreHeartbeatReceived => Sys2Proof.Machine.execCoreHeartbeatReceived s
  | .fieldHoldTimeout => Sys2Proof.Machine.execFieldHoldTimeout s
  | .fieldHeartbeatReceived vfield => Sys2Proof.Machine.execFieldHeartbeatReceived vfield s
  | .fieldLost => Sys2Proof.Machine.execFieldLost s
  | .heartbeatToggle => Sys2Proof.Machine.execHeartbeatToggle s
  | .vfieldLow => Sys2Proof.Machine.execVfieldLow s
  | .vfieldRestart => Sys2Proof.Machine.execVfieldRestart s
  | .receiverQualify input n pin high => Sys2Proof.Machine.execReceiverQualify input n pin high s
  | .brokenWire n pin => Sys2Proof.Machine.execBrokenWire n pin s
  | .encoderEdge n a b z => Sys2Proof.Machine.execEncoderEdge n a b z s
  | .positionSampleSend n => Sys2Proof.Machine.execPositionSampleSend n s
  | .ssiRead n raw ok tick => Sys2Proof.Machine.execSsiRead n raw ok tick s
  | .encoderIndex n stamp => Sys2Proof.Machine.execEncoderIndex n stamp s
  | .encLoad n => Sys2Proof.Machine.execEncLoad n s
  | .encZArm n => Sys2Proof.Machine.execEncZArm n s
  | .encCfgWrite n v => Sys2Proof.Machine.execEncCfgWrite n v s
  | .fieldInputEdge ix rising glitch stamp => Sys2Proof.Machine.execFieldInputEdge ix rising glitch stamp s
  | .foOverloadTrip k => Sys2Proof.Machine.execFoOverloadTrip k s
  | .foOverloadClear k => Sys2Proof.Machine.execFoOverloadClear k s
  | .fieldWrite r ix v => Sys2Proof.Machine.execFieldWrite r ix v s
  | .fldCntClear => Sys2Proof.Machine.execFldCntClear s
  | .configRequest fn write off data be => Sys2Proof.Machine.execConfigRequest fn write off data be s
  | .msixUnmask fn vector => Sys2Proof.Machine.execMsixUnmask fn vector s
  | .hostMemoryRequest fn bar write off len data be ep posted => Sys2Proof.Machine.execHostMemoryRequest fn bar write off len data be ep posted s
  | .registerWrite fn r ix v be => Sys2Proof.Machine.execRegisterWrite fn r ix v be s
  | .hostCompletionReceived tag data ok ep last => Sys2Proof.Machine.execHostCompletionReceived tag data ok ep last s
  | .completionTimeout tag => Sys2Proof.Machine.execCompletionTimeout tag s
  | .tagQuarantineEnd tag => Sys2Proof.Machine.execTagQuarantineEnd tag s
  | .hirqSourceEvent k => Sys2Proof.Machine.execHirqSourceEvent k s
  | .l1EntryRequest => Sys2Proof.Machine.execL1EntryRequest s
  | .hostLinkDown hot => Sys2Proof.Machine.execHostLinkDown hot s
  | .hostLinkUp speed width flit => Sys2Proof.Machine.execHostLinkUp speed width flit s
  | .flrPf0 => Sys2Proof.Machine.execFlrPf0 s
  | .flrPf0Complete => Sys2Proof.Machine.execFlrPf0Complete s
  | .flrPf1 => Sys2Proof.Machine.execFlrPf1 s
  | .hostCntClear => Sys2Proof.Machine.execHostCntClear s
  | .pairEnable v => Sys2Proof.Machine.execPairEnable v s
  | .pairDisable v => Sys2Proof.Machine.execPairDisable v s
  | .pairStatusSend => Sys2Proof.Machine.execPairStatusSend s
  | .pairStatusReceived body crc errored tick => Sys2Proof.Machine.execPairStatusReceived body crc errored tick s
  | .causewayStatusTimeout => Sys2Proof.Machine.execCausewayStatusTimeout s
  | .peerKeepChange own peer => Sys2Proof.Machine.execPeerKeepChange own peer s
  | .peerReleaseTakeover => Sys2Proof.Machine.execPeerReleaseTakeover s
  | .standdownReclaim => Sys2Proof.Machine.execStanddownReclaim s
  | .pairHandover v => Sys2Proof.Machine.execPairHandover v s
  | .handoverComplete => Sys2Proof.Machine.execHandoverComplete s
  | .forwardPacketReceived body crc errored tick room => Sys2Proof.Machine.execForwardPacketReceived body crc errored tick room s
  | .tagTroughTrim t => Sys2Proof.Machine.execTagTroughTrim t s
  | .pairCntClear => Sys2Proof.Machine.execPairCntClear s
  | .alarmEntry => Sys2Proof.Machine.execAlarmEntry s
  | .alarmAck seq => Sys2Proof.Machine.execAlarmAck seq s
  | .faultRecordPush => Sys2Proof.Machine.execFaultRecordPush s
  | .eventWindowClose => Sys2Proof.Machine.execEventWindowClose s
  | .traceThaw => Sys2Proof.Machine.execTraceThaw s
  | .summaryClear => Sys2Proof.Machine.execSummaryClear s
  | .logCntClear => Sys2Proof.Machine.execLogCntClear s
  | .fenCaseSample temps => Sys2Proof.Machine.execFenCaseSample temps s
  | .activitySample busy => Sys2Proof.Machine.execActivitySample busy s
  | .telemClear => Sys2Proof.Machine.execTelemClear s
  | .istSlice task detail preempted passEnd failed => Sys2Proof.Machine.execIstSlice task detail preempted passEnd failed s
  | .fenScrubPass => Sys2Proof.Machine.execFenScrubPass s
  | .mctpSetEndpointId eid => Sys2Proof.Machine.execMctpSetEndpointId eid s
  | .mctpGetEndpointId => Sys2Proof.Machine.execMctpGetEndpointId s
  | .mctpGetVersionSupport => Sys2Proof.Machine.execMctpGetVersionSupport s
  | .mctpGetMessageTypeSupport => Sys2Proof.Machine.execMctpGetMessageTypeSupport s
  | .mctpGetVendorSupport => Sys2Proof.Machine.execMctpGetVendorSupport s
  | .pldmSensorRead id => Sys2Proof.Machine.execPldmSensorRead id s
  | .mctpAlarmRead seq => Sys2Proof.Machine.execMctpAlarmRead seq s
  | .mctpAlarmAck seq => Sys2Proof.Machine.execMctpAlarmAck seq s
  | .mctpLogPop trough maxEntries => Sys2Proof.Machine.execMctpLogPop trough maxEntries s
  | .mctpRegRead off => Sys2Proof.Machine.execMctpRegRead off s
  | .mctpUnsupported cmd => Sys2Proof.Machine.execMctpUnsupported cmd s
  | .uartConsoleInput c => Sys2Proof.Machine.execUartConsoleInput c s
  | .jtagBypass => Sys2Proof.Machine.execJtagBypass s
  | .jtagIdcode => Sys2Proof.Machine.execJtagIdcode s
  | .jtagSamplePreload sampled preload => Sys2Proof.Machine.execJtagSamplePreload sampled preload s
  | .jtagExtest sampled => Sys2Proof.Machine.execJtagExtest sampled s
  | .jtagClamp => Sys2Proof.Machine.execJtagClamp s
  | .jtagHighz => Sys2Proof.Machine.execJtagHighz s
  | .jtagExtestPulse sampled => Sys2Proof.Machine.execJtagExtestPulse sampled s
  | .jtagExtestTrain sampled => Sys2Proof.Machine.execJtagExtestTrain sampled s
  | .flashRead v => Sys2Proof.Machine.execFlashRead v s
  | .flashErase v => Sys2Proof.Machine.execFlashErase v s
  | .flashProgram v => Sys2Proof.Machine.execFlashProgram v s
  | .flashVerify v readErr => Sys2Proof.Machine.execFlashVerify v readErr s
  | .flashOpComplete ok => Sys2Proof.Machine.execFlashOpComplete ok s
  | .secConfirm v => Sys2Proof.Machine.execSecConfirm v s
  | .secProgramKey v => Sys2Proof.Machine.execSecProgramKey v s
  | .secRevoke v => Sys2Proof.Machine.execSecRevoke v s
  | .secOpComplete ok => Sys2Proof.Machine.execSecOpComplete ok s
  | .mgmtDbWindowWrite v => Sys2Proof.Machine.execMgmtDbWindowWrite v s
  | .trainingFrameSend l req ready => Sys2Proof.Machine.execTrainingFrameSend l req ready s
  | .laneEyeUpdate l eye => Sys2Proof.Machine.execLaneEyeUpdate l eye s
  | .slewComplete => Sys2Proof.Machine.execSlewComplete s
  | .fieldOutputSwitch k => Sys2Proof.Machine.execFieldOutputSwitch k s

end Sys2Proof.Machine
end

