-- ==== Sys2Proof/Safety.lean ====
section
/-! DEFINITION. What claims are stated in: the canonical form of the fen and of the register file, and what a run keeps. -/

namespace Sys2Proof.Machine

/-- The fen's bytes in canonical form: addresses strictly rising, no entry equal to the 0 that an unlisted byte reads as. -/
abbrev Memory.wf (m : List Host.Cell) : Prop := Tab.wf (0 : Byte) m

/-- The state's sparse stores are canonical: the fen's bytes and check states list rising keys and no value an unlisted one reads as,
and the register file lists rising keys. Equal contents are then equal data. -/
def State.Canonical (s : State) : Prop :=
  Memory.wf s.fen ∧ Tab.wf 0 s.fenChk ∧ s.regs.Pairwise (fun a b => a.1 < b.1)

/-- Every register but the listed ones reads in `t` as it did in `s`. -/
def RegsBut (l : List (Reg × Nat)) (s t : State) : Prop :=
  ∀ q j, (∀ p ∈ l, regKey q j ≠ regKey p.1 p.2) → t.rd q j = s.rd q j

/-- Nothing but registers, and of these only the listed ones, differs between `s` and `t`. -/
def OnlyRegs (l : List (Reg × Nat)) (s t : State) : Prop := { t with regs := s.regs } = s ∧ RegsBut l s t

/-- Groom `g` begins instruction `i`: it is RUNNING, nothing holds it, and the word at its program counter decodes to `i`. -/
def GroomAt (g : Nat) (i : BInstr) (s : State) : Prop := (s.groom g).ready = true ∧ (s.groom g).fetched = some i

/-- Only groom `g` differs between `s` and `t`, and it is `x` in `t`. -/
def GroomTo (g : Nat) (x : Groom) (s t : State) : Prop :=
  { t with grooms := s.grooms } = s ∧ t.groom g = x ∧ ∀ k, k ≠ g → t.groom k = s.groom k

/-- A groom after a word of its memories was found clean, or corrected and counted (R493). -/
def Groom.corrected (x : Groom) : Ecc → Groom
  | .single => { x with eccCorr := BitVec.ofNat 64 (min (x.eccCorr.toNat + 1) 0xFFFF) }
  | .clean => x
  | .double => x

/-- Groom `g`, being `x`, stops in `t` with fault `code` at its instruction, which has no effect: the code and index are recorded,
the alarm asked for with them, and the watchdog event raised where its crossing has room (R501). -/
def GroomFaults (g code : Nat) (x : Groom) (s t : State) : Prop :=
  t.groom g = { x with st := .faulted, fault := (t.groom g).fault, haltSource := 3, wait := none, haltReq := none } ∧
  bits (t.groom g).fault 0 8 = code ∧ bits (t.groom g).fault 8 14 = x.pc % 2 ^ 14 ∧
  (∀ k, k ≠ g → t.groom k = s.groom k) ∧ t.scratch = s.scratch ∧ t.troughs = s.troughs ∧ t.outs = s.outs ∧
  (∃ a, t.mgmt.raised = s.mgmt.raised ++ [a] ∧ a.code = (if code = 1 then 0x10 else 0x11) ∧ bits a.data 0 8 = g ∧
    bits a.data 8 8 = code ∧ bits a.data 16 14 = x.pc % 2 ^ 14) ∧
  ((s.yard.raised.filter (fun e => e.id == 144 + 16 * g + 15)).length < 2 →
    t.yard.raised = s.yard.raised ++ [⟨144 + 16 * g + 15, s.tb.count⟩])

/-- A forward packet as a command delivers it (Table 4.1). -/
def rxOf (type : Nat) (fseq : Fin 256) (param : BitVec 32) (body : List Byte) (crc : BitVec 32) (errored : Bool) (tick : Nat) : Rx :=
  ⟨type, fseq.val, param.toNat, body, crc.toNat, errored, tick⟩

/-- Trough `k` takes an item of `m` words at once: it is enabled and awake, no packet is open, and there is room (R376). -/
def State.hasRoom (s : State) (k m : Nat) : Prop :=
  s.trgOn k = true ∧ s.trgAsleep k = false ∧ (s.trg k).openBy = none ∧ (s.trg k).vis + m < s.trgSize k

end Sys2Proof.Machine
end

