-- ==== Sys2Proof/Certificates/Slice0/Obligations.lean ====
section
/-! DEFINITION. The statements for the provers: what each command of the FG-16 does, by family, what every step keeps, and the
encodings of Bertor. -/

open Sys2Proof Sys2Proof.Machine

/-- A handshake channel loses, duplicates and reorders no entry, and a sender that finds eight occupied holds its entry.
Formalises R18. -/
def Obligations.HandshakeChannelKeepsEveryEntryInOrder : Prop :=
  ∀ (c : Fin 64) (w : Word) (s : State),
    (∃ t, exec (.handshakeEntryVisible c w) s = .next t ∧ { t with chans := s.chans } = s ∧
      (∀ d, d ≠ c.val → t.chan d = s.chan d) ∧
      (t.chan c).taken ++ (t.chan c).held = (s.chan c).taken ++ (s.chan c).held ++ [w] ∧
      (if (s.chan c).slots.length < 8 ∧ (s.chan c).held = [] then
        (t.chan c).slots = (s.chan c).slots ++ [w] ∧ (t.chan c).held = []
       else (t.chan c).slots = (s.chan c).slots ∧ (t.chan c).held = (s.chan c).held ++ [w])) ∧
    (∃ t, exec (.handshakeEntryFreed c) s = .next t ∧ { t with chans := s.chans } = s ∧
      (∀ d, d ≠ c.val → t.chan d = s.chan d) ∧
      (t.chan c).taken ++ (t.chan c).held = (s.chan c).taken ++ (s.chan c).held ∧
      ((s.chan c).held = [] → (t.chan c).slots = (s.chan c).slots.tail) ∧
      (∀ v h, (s.chan c).held = v :: h → (s.chan c).slots ≠ [] →
        (t.chan c).slots = (s.chan c).slots.tail ++ [v] ∧ (t.chan c).held = h))

/-- What the supplies do: OFF to KEEP, main power back to RESET with every register at its Reset column, main power lost to KEEP
or OFF, brownout. Rests on 02_modes_and_startup.md, Table 2.4, 02_modes_and_startup.md, Retention, 02_modes_and_startup.md,
Table 2.14. -/
def Obligations.SupplyChangesOfTheRetentionIsland : Prop :=
  (∀ (mv : Nat) (s : State), s.ctl.mode = .off → s.power.vddAon = false → 2000 ≤ mv →
    ∃ t, exec (.vbatRise mv) s = .next t ∧ t.ctl.mode = .keep ∧ t.ret.sealWord = 0 ∧ t.power.vbatMv = mv ∧
      t.ret.mem = s.ret.mem ∧ { t with ctl := s.ctl, ret := s.ret, power := s.power } = s) ∧
  (∀ s : State, s.power.vddAon = false → 2000 ≤ s.power.vbatMv →
    ∃ t, exec .vddAonRise s = .next t ∧ t.ctl.mode = .reset ∧ t.power.vddAon = true ∧ t.power.perst = true ∧
      t.power.sampled = false ∧ (∀ r i, i < 2 ^ 20 → r ≠ .DEV_RESET_CAUSE → t.rd r i = r.rst i) ∧
      t.get F.DEV_RESET_CAUSE_POWER_ON = 1 ∧ t.get F.DEV_RESET_CAUSE_FROM_KEEP = b2n (s.ctl.mode == .keep) ∧
      t.get F.DEV_RESET_CAUSE_PERST = 0 ∧ t.fen = [] ∧ t.troughs = [] ∧ t.ret.mem = s.ret.mem ∧
      t.ret.sealWord = (if s.ctl.mode = .keep then s.ret.sealWord else 0) ∧ t.fuses = s.fuses ∧ t.pending = s.pending) ∧
  (∀ s : State, s.power.vddAon = true → 1900 ≤ s.power.vbatMv → s.power.sampled = true → s.ret.carrying = false →
    ∃ t, exec .vddAonFall s = .next t ∧ t.ctl.mode = .keep ∧ t.power.vddAon = false ∧ t.ret.backup = s.tb.count / 4000 ∧
      t.ret.acc = 0 ∧ t.ret.sealWord = s.ret.sealWord ∧ t.ret.mem = s.ret.mem ∧
      t.ret.queue = s.ret.queue ++ [⟨[(0x021, [BitVec.ofNat 8 s.ctl.mode.code])]⟩] ∧ t.fuses = s.fuses ∧ t.pending = s.pending) ∧
  (∀ s : State, s.power.vddAon = true → s.power.vbatMv < 1900 →
    ∃ t, exec .vddAonFall s = .next t ∧ t.ctl.mode = .off ∧ t.ret.sealWord = 0 ∧ t.ret.queue = [] ∧ t.fuses = s.fuses ∧
      t.pending = s.pending) ∧
  (∀ (mv : Nat) (s : State), s.ctl.mode = .keep → mv < 1900 →
    ∃ t, exec (.vbatBrownout mv) s = .next t ∧ t.ret.sealWord = 0 ∧ t.ret.queue = [] ∧ t.ret.mem = s.ret.mem ∧
      t.ret.backup = s.ret.backup ∧ t.ctl.mode = (if mv < 1700 then .off else .keep) ∧
      { t with ctl := s.ctl, ret := s.ret, power := s.power } = s)

/-- The backup counter's steps of 30 and 31 us, the sequencer's one-step write that leaves a valid seal, the seal's one sample,
and VBAT_LOW. Rests on 02_modes_and_startup.md, Retention (R70 to R79), 12_timebase_and_waypoints.md, Table 12.2. -/
def Obligations.RetentionIslandKeepsTimeAndSeal : Prop :=
  (∀ s : State, s.power.vddAon = false → s.ctl.mode = .keep →
    ∃ t, exec .backupCounterStep s = .next t ∧ { t with ret := s.ret } = s ∧
      t.ret.backup = s.ret.backup + (if 32768 ≤ s.ret.acc + 16960 then 31 else 30) ∧
      t.ret.acc = (if 32768 ≤ s.ret.acc + 16960 then s.ret.acc + 16960 - 32768 else s.ret.acc + 16960) ∧
      t.ret.mem = s.ret.mem ∧ t.ret.sealWord = s.ret.sealWord) ∧
  (∀ (off : Nat) (bytes : List Byte) (s : State), 0x800 ≤ off → off + bytes.length ≤ 0x1000 → bytes ≠ [] →
    ∃ t, exec (.retentionSoftwareWrite off bytes) s = .next t ∧ { t with ret := s.ret } = s ∧
      t.ret = { s.ret with queue := s.ret.queue ++ [⟨[(off, bytes)]⟩] }) ∧
  (∀ (s : State) (w : RetWrite) (ws : List RetWrite), s.ret.queue = w :: ws →
    ∃ t, exec .retentionSequencerStep s = .next t ∧ { t with ret := s.ret } = s ∧ t.ret.queue = ws ∧
      t.ret.sealWord / 65536 = (if 65535 ≤ s.ret.sealWord / 65536 then 1 else s.ret.sealWord / 65536 + 1) ∧
      t.ret.sealValid = true ∧ t.ret.backup = s.ret.backup) ∧
  (∀ s : State, s.power.vddAon = true → s.power.sampled = false → s.ret.sealValid = true →
    ∃ t, exec .sealSample s = .next t ∧ t.tb.count = s.ret.backup * 4000 ∧ t.tb.unsync = false ∧
      t.get F.DEV_STATUS_RETENTION_VALID = 1 ∧ t.power.sampled = true ∧ t.ret.mem = s.ret.mem ∧
      t.mgmt.raised = s.mgmt.raised ∧ RegsBut [(.DEV_STATUS, 0)] s t) ∧
  (∀ s : State, s.power.vddAon = true → s.power.sampled = false → s.ret.sealValid = false →
    ∃ t, exec .sealSample s = .next t ∧ t.tb.count = 0 ∧ t.tb.unsync = true ∧ t.get F.DEV_STATUS_RETENTION_VALID = 0 ∧
      t.power.sampled = true ∧ t.ret.mem = [] ∧ t.ret.sealValid = true ∧
      (∃ a, t.mgmt.raised = s.mgmt.raised ++ [a] ∧ a.code = 0x03)) ∧
  (∀ (mv : Nat) (s : State), s.power.vddAon = true → mv < 2000 →
    ∃ t, exec (.vbatLow mv) s = .next t ∧ t.get F.DEV_STATUS_VBAT_LOW = 1 ∧ t.power.vbatMv = mv ∧
      t.ret.sealWord = s.ret.sealWord ∧
      (if s.get F.DEV_STATUS_VBAT_LOW = 1 then t.mgmt.raised = s.mgmt.raised
       else ∃ a, t.mgmt.raised = s.mgmt.raised ++ [a] ∧ a.code = 0x04)) ∧
  (∀ (mv : Nat) (s : State), s.power.vddAon = true → 2000 ≤ mv →
    ∃ t, exec (.vbatRecover mv) s = .next t ∧ t.get F.DEV_STATUS_VBAT_LOW = 0 ∧ t.power.vbatMv = mv ∧
      { t with regs := s.regs, power := s.power } = s ∧ RegsBut [(.DEV_STATUS, 0)] s t)

/-- The device-level resets: what returns to the Reset column, what the fen and the logs keep, the cause bit, and RESET's end.
Rests on 02_modes_and_startup.md, Table 2.14, 02_modes_and_startup.md, Resets (R80 to R83). -/
def Obligations.ResetsRestoreRegistersAndKeepWhatTheyKeep : Prop :=
  (∀ (c : Instr) (s : State), (c = .perstAssert ∨ ∃ r : Fin 10, r.val < 8 ∧ c = .railDropReset r) →
    s.power.vddAon = true → s.power.perst = false →
    ∃ t, exec c s = .next t ∧ t.ctl.mode = .reset ∧ t.ctl.trans = none ∧
      (∀ r i, i < 2 ^ 20 → r ≠ .DEV_RESET_CAUSE → r ≠ .DEV_STATUS → t.rd r i = r.rst i) ∧
      t.rd .DEV_RESET_CAUSE 0 = setBits (s.rd .DEV_RESET_CAUSE 0) 1 1 1 ∧
      t.get F.DEV_STATUS_RETENTION_VALID = b2n s.ret.valid ∧ t.fen = [] ∧ t.troughs = [] ∧
      t.ret.mem = s.ret.mem ∧ t.ret.sealWord = s.ret.sealWord ∧ t.fuses = s.fuses ∧ t.fld.axes = s.fld.axes ∧
      t.pending = s.pending) ∧
  (∀ (c : Instr) (bit : Nat) (s : State),
    (c = .softReset 0x52530001#64 ∧ bit = 3 ∧ s.ctl.mode ≠ .reset ∨ c = .hotReset ∧ bit = 2 ∨
      c = .yardmasterWatchdogExpiry ∧ bit = 4 ∧ s.firmware = true) →
    s.ctl.mode ≠ .off → s.ctl.mode ≠ .keep → s.power.perst = false →
    ∃ t, exec c s = .next t ∧ t.ctl.mode = .reset ∧ t.ctl.trans = none ∧ t.fen = s.fen ∧ t.fenChk = s.fenChk ∧
      t.rd .DEV_RESET_CAUSE 0 = setBits (s.rd .DEV_RESET_CAUSE 0) bit 1 1 ∧
      t.rd .TB_CFG = Reg.rst .TB_CFG 0 ∧ t.rd .HOST_CTRL = Reg.rst .HOST_CTRL 0 ∧
      (∀ n, n < 2 ^ 20 → t.rd .YARD_CH_CFG n = Reg.rst .YARD_CH_CFG n) ∧
      t.get F.FEN_STATUS_RECORD_RESTORED = 1 ∧ t.ret.mem = s.ret.mem ∧ t.fuses = s.fuses ∧ t.fld.axes = s.fld.axes ∧
      t.pending = s.pending) ∧
  (∀ s : State, s.power.vddAon = true → s.ctl.mode = .reset →
    ∃ t, exec .perstRelease s = .next t ∧ t.ctl.mode = .boot ∧ t.power.perst = false ∧ t.regs = s.regs ∧
      (if s.ret.carrying then t.tb.count = s.ret.backup * 4000 else t.tb = s.tb) ∧ t.pending = s.pending)

/-- Boot starts the valid image of the higher SEQUENCE, image A at equality, and with neither valid raises BOOT_NO_IMAGE and asks
for HOLD. Rests on 02_modes_and_startup.md, Boot (R64, R65, R68), 02_modes_and_startup.md, Table 2.4. -/
def Obligations.BootStartsTheValidImageOfHigherSequence : Prop :=
  ∀ (ea eb : Bool) (s : State), s.ctl.mode = .boot → s.boot.running = none → s.ctl.trans = none →
    s.isOn F.BOOT_STATUS_NONE_VALID = false → bit (s.rd .ALARM_CFG 1) 0 = true →
    ∃ t, exec (.bootImageSelect ea eb) s = .next t ∧
      t.get F.BOOT_STATUS_A_RESULT = s.checkImage 0 ea ∧ t.get F.BOOT_STATUS_B_RESULT = s.checkImage 1 eb ∧
      (if s.checkImage 0 ea = 0 ∧ (s.checkImage 1 eb ≠ 0 ∨ s.boot.sequence 1 ≤ s.boot.sequence 0) then
        t.boot.running = some 0 ∧ t.ctl.prev = .boot ∧
          t.ctl.mode = (if s.boot.nat (slotBase 0 + 0x012) 2 % 2 = 1 then .ready else .quiet)
       else if s.checkImage 1 eb = 0 then
        t.boot.running = some 1 ∧ t.ctl.prev = .boot ∧
          t.ctl.mode = (if s.boot.nat (slotBase 1 + 0x012) 2 % 2 = 1 then .ready else .quiet)
       else t.boot.running = none ∧ t.isOn F.BOOT_STATUS_NONE_VALID = true ∧ t.ctl.mode = .boot ∧
        (∃ a, t.mgmt.raised = s.mgmt.raised ++ [a] ∧ a.code = 0x01) ∧
        (∃ q ∈ t.ctl.pend, q.src = .yardmaster ∧ q.target = Mode.code .hold))

/-- A mode request is held, served into a transition or refused with its result, and at the transition's end DEV_MODE takes the
new mode. Rests on 02_modes_and_startup.md, Requests and arbitration (R47 to R52), 02_modes_and_startup.md, Table 2.4,
02_modes_and_startup.md, Mode registers. -/
def Obligations.ModeRequestsAreServedAndEnd : Prop :=
  (∀ (fn : Fin 2) (v : Word) (s : State), (∀ q ∈ s.ctl.pend, q.src ≠ fnSource fn.val) →
    ∃ t, exec (.modeRequestGo fn v) s = .next t ∧ t.get F.DEV_MODE_REQ_GO fn.val = 1 ∧
      t.get F.DEV_MODE_REQ_RESULT fn.val = 1 ∧ t.get F.DEV_MODE_REQ_TARGET fn.val = bits v 0 4 ∧
      t.ctl.pend = s.ctl.pend ++ [⟨fnSource fn.val, bits v 0 4, .request, 0⟩] ∧ t.ctl.trans = s.ctl.trans ∧
      { t with ctl := s.ctl, regs := s.regs } = s ∧ RegsBut [(.DEV_MODE_REQ, fn.val)] s t) ∧
  (∀ s : State, s.ctl.mode = .armed → s.ctl.trans = none → s.ctl.pend = [⟨.pf0, 7, .request, 0⟩] →
    ∃ t, exec .modeRequestEval s = .next t ∧ t.ctl.mode = .armed ∧ t.ctl.pend = [] ∧
      t.ctl.trans = some ⟨.stream, some ⟨.pf0, 7, .request, 0⟩, []⟩ ∧ { t with ctl := s.ctl } = s) ∧
  (∀ (target result : Nat) (s : State), (target = 10 ∧ result = 6 ∨ target = 4 ∧ result = 3) →
    s.ctl.mode = .armed → s.ctl.trans = none → s.ctl.pend = [⟨.pf0, target, .request, 0⟩] →
    ∃ t, exec .modeRequestEval s = .next t ∧ t.ctl.mode = .armed ∧ t.ctl.trans = none ∧ t.ctl.pend = [] ∧
      t.get F.DEV_MODE_REQ_RESULT 0 = result ∧ t.get F.DEV_MODE_REQ_GO 0 = 0) ∧
  (∀ s : State, s.ctl.mode = .armed → s.ctl.trans = some ⟨.stream, some ⟨.pf0, 7, .request, 0⟩, []⟩ → s.ctl.pend = [] →
    s.isOn F.PAIR_CFG_ENABLE = false →
    ∃ t, exec .modeTransitionEnd s = .next t ∧ t.ctl.mode = .stream ∧ t.ctl.prev = .armed ∧ t.ctl.trans = none ∧
      t.get F.DEV_MODE_REQ_RESULT 0 = 2 ∧ t.get F.DEV_MODE_REQ_GO 0 = 0)

/-- GO sends a link-management request, RETRAIN, WIDTH_CHANGE, ENTER_IDLE, ENTER_DEEP and EXIT, another GO is ILLEGAL, and
silence repeats a request twice. Rests on 03_vyl_lanes.md, Link management (R125 to R133), 03_vyl_lanes.md, Table 3.18
(R140). -/
def Obligations.LinkManagementRequestsAreSentAndRepeated : Prop :=
  (∀ (n : Fin 16) (v : Word) (s : State), (s.stall n).lmBusy = false →
    (∀ p ∈ ([(.lmRetrain n v, 1), (.lmEnterIdle n v, 4), (.lmEnterDeep n v, 5)] : List (Instr × Nat)),
      (p.2 = 1 → (s.stall n).camRetrain = false) →
      ∃ t, exec p.1 s = .next t ∧
        (t.stall n).lm = some ⟨p.2, (s.stall n).nextMsg, 0, 0, .software, 1, s.now⟩ ∧
        (t.stall n).nextMsg = ((s.stall n).nextMsg + 1) % 256 ∧ (∀ m, m ≠ n.val → t.stall m = s.stall m) ∧
        t.sent = s.sent ++ [.linkMsg n (lmMsg p.2 (s.stall n).nextMsg 0 0 0)] ∧
        t.get F.STALL_LM_CTRL_RESULT n = 1 ∧ t.get F.STALL_LM_CTRL_GO n = 1 ∧ t.get F.STALL_LM_CTRL_OP n = p.2 ∧
        RegsBut [(.STALL_LM_CTRL, n.val)] s t ∧ { t with regs := s.regs, stalls := s.stalls, sent := s.sent } = s) ∧
    ((s.stall n).camRetrain = true →
      ∃ t, exec (.lmRetrain n v) s = .next t ∧ (t.stall n).retrainDue = true ∧ (t.stall n).lm = none ∧ t.sent = s.sent ∧
        t.get F.STALL_LM_CTRL_RESULT n = 1 ∧ t.get F.STALL_LM_CTRL_GO n = 1 ∧ RegsBut [(.STALL_LM_CTRL, n.val)] s t) ∧
    (s.get F.STALL_LINK_CFG_MAX_WIDTH n < bits v 4 2 →
      ∃ t, exec (.lmWidthChange n v) s = .next t ∧ t.get F.STALL_LM_CTRL_RESULT n = 6 ∧ t.get F.STALL_LM_CTRL_GO n = 0 ∧
        OnlyRegs [(.STALL_LM_CTRL, n.val)] s t) ∧
    (bits v 4 2 ≤ s.get F.STALL_LINK_CFG_MAX_WIDTH n → s.stUp n = true →
      (∀ l ∈ (s.linkLanes n).take (2 ^ bits v 4 2), s.laneSt l = lnActive) →
      ∃ t, exec (.lmWidthChange n v) s = .next t ∧
        (t.stall n).lm = some ⟨3, (s.stall n).nextMsg, bits v 4 2, ((s.stall n).rxSeq + 2) % 65536, .software, 1, s.now⟩ ∧
        t.sent = s.sent ++ [.linkMsg n (lmMsg 3 (s.stall n).nextMsg (((s.stall n).rxSeq + 2) % 65536) (bits v 4 2) 0)] ∧
        t.get F.STALL_LM_CTRL_RESULT n = 1 ∧ RegsBut [(.STALL_LM_CTRL, n.val)] s t ∧
        { t with regs := s.regs, stalls := s.stalls, sent := s.sent } = s) ∧
    (s.linkOn n = true → s.stState n = lsIdle → (∀ l ∈ s.linkLanes n, s.laneSt l = lnIdle) →
      ∃ t, exec (.lmExit n v) s = .next t ∧ t.stState n = lsUp ∧ (∀ l ∈ s.linkLanes n, t.laneSt l = lnActive) ∧
        t.sent = s.sent ++ [.linkMsg n (lmMsg 6 (s.stall n).nextMsg 0 0 0)] ∧
        t.get F.STALL_LM_CTRL_RESULT n = 2 ∧ t.get F.STALL_LM_CTRL_GO n = 0) ∧
    (s.linkOn n = true → s.stState n = lsDeep → s.lanesOpen = true →
      ∃ t, exec (.lmExit n v) s = .next t ∧ t.get F.STALL_LM_CTRL_RESULT n = 2 ∧ t.sent = s.sent ∧
        ∀ l ∈ s.linkLanes n, s.laneSt l = lnDeep → s.ownerOf l = n → s.laneWanted l = true → t.laneSt l = lnWake) ∧
    (bits v 0 4 ∉ [1, 3, 4, 5, 6] →
      ∃ t, exec (.lmIllegalOp n v) s = .next t ∧ t.get F.STALL_LM_CTRL_RESULT n = 6 ∧ t.get F.STALL_LM_CTRL_GO n = 0 ∧
        OnlyRegs [(.STALL_LM_CTRL, n.val)] s t)) ∧
  (∀ (n : Fin 16) (v : Word) (s : State), (s.stall n).lmBusy = true →
    ∀ c ∈ ([.lmIllegalOp n v, .lmRetrain n v, .lmWidthChange n v, .lmEnterIdle n v, .lmEnterDeep n v, .lmExit n v] : List Instr),
      ∃ t, exec c s = .next t ∧ t.get F.STALL_LM_CTRL_RESULT n = 6 ∧ t.get F.STALL_LM_CTRL_GO n = 0 ∧
        OnlyRegs [(.STALL_LM_CTRL, n.val)] s t) ∧
  (∀ (n : Fin 21) (s : State), (s.stall n).lm = none → exec (.lmResponseTimeout n) s = .next s) ∧
  (∀ (n : Fin 21) (r : LmReq) (s : State), (s.stall n).lm = some r → r.sent < 3 →
    ∃ t, exec (.lmResponseTimeout n) s = .next t ∧
      (t.stall n).lm = some { r with sent := r.sent + 1, since := max s.now (r.since + 16000) } ∧
      t.sent = s.sent ++ [.linkMsg n (lmMsg r.op r.id r.seq r.width 0)] ∧ t.now = max s.now (r.since + 16000) ∧
      { t with stalls := s.stalls, sent := s.sent, tb := s.tb } = s) ∧
  (∀ (n : Fin 16) (r : LmReq) (s : State), (s.stall n).lm = some r → 3 ≤ r.sent → r.src = .software →
    ∃ t, exec (.lmResponseTimeout (n.castLE (by decide))) s = .next t ∧ (t.stall n).lm = none ∧ (t.stall n).goal = none ∧
      t.get F.STALL_LM_CTRL_RESULT n = 4 ∧ t.get F.STALL_LM_CTRL_GO n = 0 ∧
      (r.op = 1 → ∀ l ∈ s.linkLanes n, s.laneSt l = lnActive → t.laneSt l = lnTrain))

/-- A camera RETRAIN or WIDTH_REQ that meets an outstanding request of the FG-16 is answered SUPERSEDED, counted and recorded.
Formalises R128. -/
def Obligations.CameraRequestMeetingARequestIsACollision : Prop :=
  ∀ (n : Fin 16) (msg : Word) (crc : BitVec 32) (e : Bool) (r : LmReq) (s u : State),
    s.lmCheck n msg crc.toNat e = (true, u) → (u.stall n).lm = some r →
    ∀ c ∈ ([.lmRetrainReceived (n.castLE (by decide)) msg crc e, .lmWidthReqReceived (n.castLE (by decide)) msg crc e] : List Instr),
      ∃ t, exec c s = .next t ∧
        t.sent = u.sent ++ [.linkMsg n (lmMsg 0x82 (bits msg 8 8) 0 0 0)] ∧
        t.get F.STALL_LINK_COUNT_SUPERSEDED n = min (u.get F.STALL_LINK_COUNT_SUPERSEDED n + 1) 65535 ∧
        bits (t.rd .STALL_LM_CAMREQ n) 0 8 = bits msg 0 8 ∧ bits (t.rd .STALL_LM_CAMREQ n) 8 2 = bits msg 32 2 ∧
        bits (t.rd .STALL_LM_CAMREQ n) 16 8 = 0 ∧ bit (t.rd .STALL_LM_CAMREQ n) 31 = true ∧
        RegsBut [(.STALL_LINK_COUNT, n.val), (.STALL_LM_CAMREQ, n.val)] u t ∧ { t with regs := u.regs, sent := u.sent } = u

/-- A received message that fails its checks only counts; ACK carries the request out, NAK ends it, and each far request is
answered by its opcode. Rests on 03_vyl_lanes.md, Table 3.13 (R126), 03_vyl_lanes.md, Link management (R127 to R133),
03_vyl_lanes.md, Table 3.10 (R120), 16_pairing.md, Causeway lanes (R701, R702). -/
def Obligations.LinkManagementMessagesActOnTheLanes : Prop :=
  (∀ (n : Fin 21) (msg : Word) (crc : BitVec 32) (e : Bool) (s u : State), s.lmCheck n msg crc.toNat e = (false, u) →
    ∀ c ∈ ([.lmRetrainReceived n msg crc e, .lmWidthReqReceived n msg crc e, .lmExitReceived n msg crc e,
        .lmDisallowedReceived n msg crc e, .lmAckReceived n msg crc e, .lmNakReceived n msg crc e] : List Instr),
      exec c s = .next u) ∧
  (∀ (n : Fin 16) (msg : Word) (crc : BitVec 32) (e : Bool) (r : LmReq) (s u : State),
    s.lmCheck n msg crc.toNat e = (true, u) → (u.stall n).lm = some r → r.src = .software →
    (r.id ≠ bits msg 8 8 →
      exec (.lmAckReceived (n.castLE (by decide)) msg crc e) s = .next u ∧
      exec (.lmNakReceived (n.castLE (by decide)) msg crc e) s = .next u) ∧
    (r.id = bits msg 8 8 →
      (∃ t, exec (.lmNakReceived (n.castLE (by decide)) msg crc e) s = .next t ∧ (t.stall n).lm = none ∧ (t.stall n).goal = none ∧
        t.get F.STALL_LM_CTRL_RESULT n = 3 ∧ t.get F.STALL_LM_CTRL_GO n = 0) ∧
      (r.op = 1 → ∃ t, exec (.lmAckReceived (n.castLE (by decide)) msg crc e) s = .next t ∧ (t.stall n).lm = none ∧
        ∀ l ∈ u.linkLanes n, t.laneSt l = (if u.laneSt l = lnActive then lnTrain else u.laneSt l)) ∧
      (r.op = 3 → ∃ t, exec (.lmAckReceived (n.castLE (by decide)) msg crc e) s = .next t ∧ (t.stall n).lm = none ∧
        (t.stall n).switch = some (r.seq, r.width, .software) ∧ { t with stalls := u.stalls } = u) ∧
      (r.op = 4 → ∃ t, exec (.lmAckReceived (n.castLE (by decide)) msg crc e) s = .next t ∧ (t.stall n).lm = none ∧
        t.get F.STALL_LM_CTRL_RESULT n = 2 ∧ (t.stall n).quietPeer = true ∧
        (∀ l ∈ u.linkLanes n, t.laneSt l = (if u.laneSt l = lnActive then lnIdle else u.laneSt l)) ∧
        (u.linkOn n = true → (∀ l ∈ u.linkLanes n, u.laneSt l = lnActive) → t.stState n = lsIdle)) ∧
      (r.op = 5 → ∃ t, exec (.lmAckReceived (n.castLE (by decide)) msg crc e) s = .next t ∧ (t.stall n).lm = none ∧
        t.get F.STALL_LM_CTRL_RESULT n = 2 ∧
        ∀ l ∈ u.linkLanes n, t.laneSt l = (if u.laneSt l ∈ [lnActive, lnIdle] then lnDeep else u.laneSt l)))) ∧
  (∀ (n : Fin 16) (msg : Word) (crc : BitVec 32) (e : Bool) (s u : State),
    s.lmCheck n msg crc.toNat e = (true, u) → (u.stall n).lm = none →
    (∃ t, exec (.lmRetrainReceived (n.castLE (by decide)) msg crc e) s = .next t ∧
      (∃ r, t.sent = u.sent ++ .linkMsg n (lmMsg 0x80 (bits msg 8 8) 0 0 0) :: r) ∧
      ∀ l ∈ u.linkLanes n, t.laneSt l =
        (if u.laneSt l = lnActive ∧ (bits msg 34 4 = 0 ∨ (bits msg 34 4).testBit (u.laneIdx l) = true) then lnTrain else u.laneSt l)) ∧
    (u.isOn F.STALL_LM_CTRL_AUTO_GRANT_WIDTH n = false →
      ∃ t, exec (.lmWidthReqReceived (n.castLE (by decide)) msg crc e) s = .next t ∧
        t.sent = u.sent ++ [.linkMsg n (lmMsg 0x81 (bits msg 8 8) 0 0 1)] ∧ bits (t.rd .STALL_LM_CAMREQ n) 16 8 = 1 ∧
        RegsBut [(.STALL_LM_CAMREQ, n.val)] u t ∧ { t with regs := u.regs, sent := u.sent } = u) ∧
    (u.isOn F.STALL_LM_CTRL_AUTO_GRANT_WIDTH n = true → u.get F.STALL_LINK_CFG_MAX_WIDTH n < bits msg 32 2 →
      ∃ t, exec (.lmWidthReqReceived (n.castLE (by decide)) msg crc e) s = .next t ∧
        t.sent = u.sent ++ [.linkMsg n (lmMsg 0x81 (bits msg 8 8) 0 0 2)] ∧ bits (t.rd .STALL_LM_CAMREQ n) 16 8 = 2 ∧
        RegsBut [(.STALL_LM_CAMREQ, n.val)] u t ∧ { t with regs := u.regs, sent := u.sent } = u) ∧
    (u.isOn F.STALL_LM_CTRL_AUTO_GRANT_WIDTH n = true → bits msg 32 2 ≤ u.get F.STALL_LINK_CFG_MAX_WIDTH n →
      (u.stall n).lmBusy = false →
      ∃ t, exec (.lmWidthReqReceived (n.castLE (by decide)) msg crc e) s = .next t ∧
        (∃ r, t.sent = u.sent ++ .linkMsg n (lmMsg 0x80 (bits msg 8 8) 0 0 0) :: r) ∧
        (t.stall n).goal = some (bits msg 32 2, .engine)) ∧
    (u.linkOn n = true → (∀ l ∈ u.linkLanes n, u.laneSt l = lnIdle) →
      ∃ t, exec (.lmExitReceived (n.castLE (by decide)) msg crc e) s = .next t ∧ t.stState n = lsUp ∧
        ∀ l ∈ u.linkLanes n, t.laneSt l = lnActive) ∧
    (bits msg 0 8 ∈ [3, 4, 5, 0x82] →
      ∃ t, exec (.lmDisallowedReceived (n.castLE (by decide)) msg crc e) s = .next t ∧
        t.sent = u.sent ++ [.linkMsg n (lmMsg 0x81 (bits msg 8 8) 0 0 1)] ∧ { t with sent := u.sent } = u)) ∧
  (∀ (msg : Word) (crc : BitVec 32) (e : Bool) (s u : State), s.lmCheck 20 msg crc.toNat e = (true, u) →
    (bits msg 0 8 = 4 → ∃ t, exec (.lmDisallowedReceived 20 msg crc e) s = .next t ∧
      (∃ r, t.sent = u.sent ++ .linkMsg 20 (lmMsg 0x80 (bits msg 8 8) 0 0 0) :: r) ∧
      ∀ l, 32 ≤ l → l < 40 → t.laneSt l = (if u.laneSt l = lnActive then lnIdle else u.laneSt l)) ∧
    (bits msg 0 8 = 5 → ∃ t, exec (.lmDisallowedReceived 20 msg crc e) s = .next t ∧
      (∃ r, t.sent = u.sent ++ .linkMsg 20 (lmMsg 0x80 (bits msg 8 8) 0 0 0) :: r) ∧
      ∀ l, 32 ≤ l → l < 40 → t.laneSt l = (if u.laneSt l ∈ [lnActive, lnIdle] then lnDeep else u.laneSt l)))

/-- An enable that R87 allows starts the lanes of the width and borrows the neighbour, one it refuses sets CFG_REJECTED, and a
disable stops every lane. Rests on 03_vyl_lanes.md, Lanes and stalls (R85 to R87), 03_vyl_lanes.md, Table 3.16 (R138),
03_vyl_lanes.md, STALL_LINK_COUNT (R143), 03_vyl_lanes.md, Table 3.10 (R120). -/
def Obligations.StallsAreEnabledAndDisabled : Prop :=
  (∀ (n : Fin 16) (v : Word) (s : State), s.isOn F.STALL_LINK_CFG_ENABLE n = false →
    (bits v 0 2 = 3 ∨ bits v 4 2 = 3 ∨
      bits v 4 2 = 2 ∧ (n.val % 2 = 1 ∨ 14 ≤ n.val ∧ bit v 8 = true ∨ s.isOn F.STALL_LINK_CFG_ENABLE (n.val + 1) = true) ∨
      n.val % 2 = 1 ∧ s.isOn F.STALL_LINK_CFG_ENABLE (n.val - 1) = true ∧ s.get F.STALL_LINK_CFG_MAX_WIDTH (n.val - 1) = 2 →
      ∃ t, exec (.stallEnable n v) s = .next t ∧ t.isOn F.STALL_LINK_CFG_ENABLE n = false ∧
        t.get F.STALL_LINK_STATUS_CFG_REJECTED n = 1 ∧
        OnlyRegs [(.STALL_LINK_CFG, n.val), (.STALL_LINK_STATUS, n.val), (.STALL_LINK_COUNT, n.val)] s t) ∧
    (bits v 0 2 < 3 → bits v 4 2 < 3 → s.fwdIn n = false → bits v 8 1 = 0 →
      (bits v 4 2 = 2 → n.val % 2 = 0 ∧ s.isOn F.STALL_LINK_CFG_ENABLE (n.val + 1) = false) →
      (n.val % 2 = 1 → s.isOn F.STALL_LINK_CFG_ENABLE (n.val - 1) = false) →
      (∀ k, k < 2 * 2 ^ (bits v 4 2 / 2) → s.laneSt (2 * n.val + k) = lnDisabled) →
      ∃ t, exec (.stallEnable n v) s = .next t ∧ t.isOn F.STALL_LINK_CFG_ENABLE n = true ∧
        t.get F.STALL_LINK_STATUS_WIDTH n = bits v 4 2 ∧ t.get F.STALL_LINK_CFG_RATE n = bits v 0 2 ∧
        (s.lanesOpen = true → t.stState n = lsDown ∧ ∀ k, k < 2 ^ bits v 4 2 → t.laneSt (2 * n.val + k) = lnWake) ∧
        (s.modeAhead = .quiet → t.stState n = lsDeep ∧ ∀ k, k < 2 ^ bits v 4 2 → t.laneSt (2 * n.val + k) = lnDeep) ∧
        (bits v 4 2 = 2 → t.stState (n.val + 1) = lsBorrowed ∧ t.get F.STALL_LINK_STATUS_BORROWED (n.val + 1) = 1))) ∧
  (∀ (n : Fin 16) (v : Word) (s : State), s.isOn F.STALL_LINK_CFG_ENABLE n = true →
    (bits v 0 3 ≠ bits (s.rd .STALL_LINK_CFG n) 0 3 ∨ bits v 4 2 ≠ s.get F.STALL_LINK_CFG_MAX_WIDTH n →
      ∃ t, exec (.stallEnable n v) s = .next t ∧ t.rd .STALL_LINK_CFG n = s.rd .STALL_LINK_CFG n ∧
        t.get F.STALL_LINK_STATUS_CFG_REJECTED n = 1 ∧
        OnlyRegs [(.STALL_LINK_STATUS, n.val), (.STALL_LINK_COUNT, n.val)] s t) ∧
    ((s.stall n).lm = none →
      ∃ t, exec (.stallDisable n v) s = .next t ∧ t.isOn F.STALL_LINK_CFG_ENABLE n = false ∧ t.stState n = lsDisabled ∧
        t.get F.STALL_LINK_CFG_RATE n = bits v 0 2 ∧ t.get F.STALL_LINK_CFG_MAX_WIDTH n = bits v 4 2 ∧
        (s.linkOn n = true → ∀ l ∈ s.linkLanes n, t.laneSt l = lnDisabled) ∧
        (t.stall n).goal = none ∧ (t.stall n).switch = none)) ∧
  (∀ (n : Fin 16) (s : State), ∃ t, exec (.stallLinkCntClear n) s = .next t ∧ t.rd .STALL_LINK_COUNT n = 0 ∧
    OnlyRegs [(.STALL_LINK_COUNT, n.val)] s t)

/-- Lanes wake, lock, train, hand off and retry as Table 3.10 states, taps keep their limits, and the frames sent carry good
CRCs. Rests on 03_vyl_lanes.md, Table 3.10 (R120), 03_vyl_lanes.md, Training (R107 to R117), 03_vyl_lanes.md, LANE_EYE
(R147). -/
def Obligations.LanesTrainAsTheirTableSays : Prop :=
  (∀ (l : Fin 40) (inv : Bool) (s : State),
    (s.laneSt l ≠ lnWake → exec (.frameLock l inv) s = .next s ∧ exec (.wakeTimeout l inv) s = .next s) ∧
    (s.laneSt l = lnWake →
      (∃ t, exec (.frameLock l inv) s = .next t ∧ t.laneSt l = lnTrain ∧ t.get F.LANE_STATUS_RX_INVERTED l = b2n inv ∧
        RegsBut [(.LANE_STATUS, l.val)] s t ∧ { t with regs := s.regs, lanes := s.lanes } = s) ∧
      (∃ t, exec (.wakeTimeout l inv) s = .next t ∧ t.laneSt l = lnWait ∧
        t.get F.LANE_STATUS_LAST_FAIL l = (if inv then 2 else 1) ∧ t.now = max s.now ((s.lane l).since + 1000000) ∧
        RegsBut [(.LANE_STATUS, l.val)] s t ∧ { t with regs := s.regs, lanes := s.lanes, tb := s.tb } = s))) ∧
  (∀ (l : Fin 40) (s : State),
    (s.laneSt l ≠ lnTrain → exec (.trainTimeout l) s = .next s) ∧
    (s.laneSt l = lnTrain → ∃ t, exec (.trainTimeout l) s = .next t ∧ t.laneSt l = lnWait ∧
      t.get F.LANE_STATUS_LAST_FAIL l = 3 ∧
      (l < 32 → t.get F.STALL_LINK_COUNT_TRAIN_FAILS (s.ownerOf l) =
        min (s.get F.STALL_LINK_COUNT_TRAIN_FAILS (s.ownerOf l) + 1) 65535) ∧
      RegsBut [(.LANE_STATUS, l.val), (.STALL_LINK_COUNT, s.ownerOf l)] s t) ∧
    (s.laneSt l ≠ lnWait → exec (.trainWaitExpiry l) s = .next s) ∧
    (s.laneSt l = lnWait → ∃ t, exec (.trainWaitExpiry l) s = .next t ∧ t.laneSt l = lnWake ∧
      t.now = max s.now ((s.lane l).since + 400000) ∧ RegsBut [(.LANE_STATUS, l.val)] s t) ∧
    (s.linkOn (s.ownerOf l) = false ∨ s.laneSt l ≠ lnDeep → exec (.cameraWakeDetect l) s = .next s) ∧
    (l < 32 → s.linkOn (s.ownerOf l) = true → s.laneSt l = lnDeep →
      (s.lanesOpen = true → s.isOn F.STALL_LM_CTRL_CAM_WAKE_EN (s.ownerOf l) = true →
        ∃ t, exec (.cameraWakeDetect l) s = .next t ∧ t.laneSt l = lnWake ∧ ∀ k, k < 40 → k ≠ l.val → t.laneSt k = s.laneSt k) ∧
      (s.lanesOpen = true → s.isOn F.STALL_LM_CTRL_CAM_WAKE_EN (s.ownerOf l) = false → exec (.cameraWakeDetect l) s = .next s) ∧
      (s.modeAhead = .quiet → ∃ t, exec (.cameraWakeDetect l) s = .next t ∧
        t.get F.STALL_LINK_STATUS_CAM_WAKE_SEEN (s.ownerOf l) = 1 ∧ OnlyRegs [(.STALL_LINK_STATUS, s.ownerOf l)] s t))) ∧
  (∀ (l : Fin 40) (c st : BitVec 32) (inv : Bool) (eye : Word) (s : State),
    (s.laneSt l ∉ [lnTrain, lnHandoff, lnActive] → exec (.trainingFrameReceived l c st inv eye) s = .next s) ∧
    (s.laneSt l = lnActive →
      ((s.lane l).markers < 2 → ∃ t, exec (.trainingFrameReceived l c st inv eye) s = .next t ∧
        (t.lane l).markers = (s.lane l).markers + 1 ∧ { t with lanes := s.lanes } = s) ∧
      (2 ≤ (s.lane l).markers → ∃ t, exec (.trainingFrameReceived l c st inv eye) s = .next t ∧
        ((s.stall (s.ownerOf l)).lm = none → t.laneSt l = lnTrain ∧ t.get F.LANE_STATUS_LAST_FAIL l = 5))) ∧
    (s.laneSt l ∈ [lnTrain, lnHandoff] →
      ∃ t, exec (.trainingFrameReceived l c st inv eye) s = .next t ∧ t.get F.LANE_STATUS_RX_INVERTED l = b2n inv ∧
        (trainGood c.toNat = false → t.rd .LANE_TX_FIR l = s.rd .LANE_TX_FIR l) ∧
        (trainGood st.toNat = false → t.laneSt l = s.laneSt l) ∧
        (∀ x, presetTaps (c.toNat / 64 % 8) = some x → trainGood c.toNat = true → s.isOn F.LANE_CTRL_TX_FIR_OVERRIDE l = false →
          c.toNat.testBit 14 ≠ (s.lane l).acted →
          t.rd .LANE_TX_FIR l = field 0 5 x.1 ||| field 8 7 x.2.1 ||| field 16 5 x.2.2 ∧ (t.lane l).acted = c.toNat.testBit 14) ∧
        (bits (s.rd .LANE_TX_FIR l) 0 5 ≤ 16 → 32 ≤ bits (s.rd .LANE_TX_FIR l) 8 7 → bits (s.rd .LANE_TX_FIR l) 16 5 ≤ 24 →
          bits (s.rd .LANE_TX_FIR l) 0 5 + bits (s.rd .LANE_TX_FIR l) 8 7 + bits (s.rd .LANE_TX_FIR l) 16 5 ≤ 64 →
          bits (t.rd .LANE_TX_FIR l) 0 5 ≤ 16 ∧ 32 ≤ bits (t.rd .LANE_TX_FIR l) 8 7 ∧ bits (t.rd .LANE_TX_FIR l) 16 5 ≤ 24 ∧
          bits (t.rd .LANE_TX_FIR l) 0 5 + bits (t.rd .LANE_TX_FIR l) 8 7 + bits (t.rd .LANE_TX_FIR l) 16 5 ≤ 64) ∧
        (s.laneSt l = lnTrain → trainGood st.toNat = true →
          (st.toNat.testBit 11 ≠ s.fecOn (s.ownerOf l) ∨ st.toNat / 4096 % 4 ≠ s.linkRate (s.ownerOf l) →
            t.laneSt l = lnWait ∧ t.get F.LANE_STATUS_LAST_FAIL l = 4) ∧
          (st.toNat.testBit 11 = s.fecOn (s.ownerOf l) → st.toNat / 4096 % 4 = s.linkRate (s.ownerOf l) →
            st.toNat.testBit 10 = true → s.isOn F.LANE_STATUS_LOCAL_RX_READY l = true → 2 ≤ (s.lane l).goodReady →
            t.laneSt l = lnHandoff)))) ∧
  (∀ (l : Fin 40) (req : Option (Fin 64)) (ready : Bool) (s : State),
    (s.laneSt l ∈ [lnDisabled, lnDeep, lnActive, lnIdle, lnTest] → exec (.trainingFrameSend l req ready) s = .next s) ∧
    (s.laneSt l ∈ [lnWake, lnTrain, lnWait, lnFault] ∨ s.laneSt l = lnHandoff ∧ 0 < (s.lane l).hand →
      ∃ t, exec (.trainingFrameSend l req ready) s = .next t ∧
        (∃ c st, t.sent = s.sent ++ [.trainFrame l c st] ∧ trainGood c = true ∧ trainGood st = true ∧
          st.testBit 11 = s.fecOn (s.ownerOf l) ∧ st / 4096 % 4 = s.linkRate (s.ownerOf l) ∧ st.testBit 15 = false ∧
          (s.laneSt l = lnHandoff → (s.lane l).hand ≤ 9 → st / 65536 % 16 = (s.lane l).hand - 1) ∧
          (s.laneSt l ≠ lnHandoff → st / 65536 % 16 = 0)) ∧
        (s.laneSt l = lnTrain → t.get F.LANE_STATUS_LOCAL_RX_READY l = b2n ready))) ∧
  (∀ (l : Fin 40) (eye : Word) (s : State),
    (s.laneSt l ∈ [lnActive, lnIdle] → ∃ t, exec (.laneEyeUpdate l eye) s = .next t ∧ OnlyRegs [(.LANE_EYE, l.val)] s t ∧
      bits (t.rd .LANE_EYE l) 8 8 = bits eye 8 8 ∧ bits (t.rd .LANE_EYE l) 24 24 = bits eye 24 24 ∧
      bits (t.rd .LANE_EYE l) 0 8 = (if s.linkRate (s.ownerOf l) = 2 then 0 else bits eye 0 8)) ∧
    (s.laneSt l ∉ [lnActive, lnIdle] → exec (.laneEyeUpdate l eye) s = .next s))

/-- MARK rows bring a stall UP and show skew, order and skew faults follow R103 and R104, codewords and markers count, and a
silent camera is lost. Rests on 03_vyl_lanes.md, Coding (R92 to R98), 03_vyl_lanes.md, Markers and skew (R101 to R106),
03_vyl_lanes.md, Table 3.10 (R120), 04_vyl_protocol.md, Packet alignment (R155), 04_vyl_protocol.md, Heartbeats (R182). -/
def Obligations.RowsCodewordsAndBlocksAreReceived : Prop :=
  (∀ (n : Fin 21) (s : State), s.linkOn n = true → (s.widthLanes n).any s.mission = true →
    (∃ t, exec (.markRowTransmit n) s = .next t ∧ t.sent = s.sent ++ [.laneRow n 0 (s.stall n).txSeq] ∧
      (t.stall n).txSeq = ((s.stall n).txSeq + 1) % 65536 ∧ { t with stalls := s.stalls, sent := s.sent } = s) ∧
    (∃ t, exec (.fillRowTransmit n) s = .next t ∧ t.sent = s.sent ++ [.laneRow n 1 0] ∧ { t with sent := s.sent } = s)) ∧
  (∀ (n : Fin 21) (s : State), (s.linkOn n && (s.widthLanes n).any s.mission) = false →
    exec (.markRowTransmit n) s = .next s ∧ exec (.fillRowTransmit n) s = .next s) ∧
  (∀ (n : Fin 16) (seq : Fin 65536) (a b : Nat) (s : State), s.linkOn n = true → s.widthCode n = 1 → s.maxCode n = 1 →
    (∀ l ∈ s.linkLanes n, s.laneSt l = lnHandoff ∧ (s.lane l).hand = 0) →
    (a ≤ b → b ≤ a + 200 → (s.stall n).switch = none →
      ∃ t, exec (.markRowReceived (n.castLE (by decide)) seq [0, 1] [a, b]) s = .next t ∧
        (∀ l ∈ s.linkLanes n, t.laneSt l = lnActive) ∧ t.stState n = lsUp ∧
        t.rd .STALL_SKEW n = field 8 8 (b - a) ∧ (t.stall n).rxSeq = seq) ∧
    (a + 200 < b →
      ∃ t, exec (.markRowReceived (n.castLE (by decide)) seq [0, 1] [a, b]) s = .next t ∧
        (∀ l ∈ s.linkLanes n, t.laneSt l = lnTrain ∧ t.get F.LANE_STATUS_LAST_FAIL l = 7) ∧ t.stState n = lsFault ∧
        t.get F.STALL_LINK_STATUS_FAULT_CAUSE n = 7) ∧
    (∃ t, exec (.markRowReceived (n.castLE (by decide)) seq [1, 0] [a, b]) s = .next t ∧
      (∀ l ∈ s.linkLanes n, t.laneSt l = lnFault) ∧ t.stState n = lsFault ∧ t.get F.STALL_LINK_STATUS_FAULT_CAUSE n = 6)) ∧
  (∀ (l : Fin 40) (s : State),
    (s.mission l = false → exec (.markRowMissing l) s = .next s) ∧
    (s.mission l = true → (s.laneSt l = lnActive → (s.lane l).missed = 0) →
      ∃ t, exec (.markRowMissing l) s = .next t ∧
        t.get F.LANE_BLOCK_ERR_MARK_ERR l = min (s.get F.LANE_BLOCK_ERR_MARK_ERR l + 1) 65535 ∧
        (t.lane l).missed = (s.lane l).missed + 1 ∧ RegsBut [(.LANE_BLOCK_ERR, l.val)] s t ∧
        { t with regs := s.regs, lanes := s.lanes } = s) ∧
    (s.laneSt l = lnActive → 1 ≤ (s.lane l).missed → (s.stall (s.ownerOf l)).lm = none →
      ∃ t, exec (.markRowMissing l) s = .next t ∧ t.laneSt l = lnTrain ∧ t.get F.LANE_STATUS_LAST_FAIL l = 5)) ∧
  (∀ (l : Fin 40) (e : Nat) (s : State), s.fecOn (s.ownerOf l) = true → s.mission l = true →
    (1 ≤ e → e ≤ 15 → ∃ t, exec (.codewordDecode l e) s = .next t ∧
      t.get F.LANE_FEC_CW_CORR_COUNT l = min (s.get F.LANE_FEC_CW_CORR_COUNT l + 1) (2 ^ 64 - 1) ∧
      t.get F.LANE_FEC_SYM_CORR_COUNT l = min (s.get F.LANE_FEC_SYM_CORR_COUNT l + e) (2 ^ 64 - 1) ∧ (t.lane l).uncorr = 0 ∧
      RegsBut [(.LANE_FEC_CW_CORR, l.val), (.LANE_FEC_SYM_CORR, l.val)] s t ∧ { t with regs := s.regs, lanes := s.lanes } = s) ∧
    (16 ≤ e → (s.lane l).uncorr < 7 → ∃ t, exec (.codewordDecode l e) s = .next t ∧
      t.get F.LANE_FEC_CW_UNCORR_COUNT l = min (s.get F.LANE_FEC_CW_UNCORR_COUNT l + 1) (2 ^ 64 - 1) ∧
      (t.lane l).uncorr = (s.lane l).uncorr + 1 ∧ t.laneSt l = s.laneSt l) ∧
    (16 ≤ e → s.laneSt l = lnActive → 7 ≤ (s.lane l).uncorr → (s.stall (s.ownerOf l)).lm = none →
      ∃ t, exec (.codewordDecode l e) s = .next t ∧ t.laneSt l = lnTrain ∧ t.get F.LANE_STATUS_LAST_FAIL l = 5)) ∧
  (∀ (l : Fin 40) (e : Nat) (s : State), s.fecOn (s.ownerOf l) = false ∨ s.mission l = false →
    exec (.codewordDecode l e) s = .next s) ∧
  (∀ (l : Fin 40) (h : Bool) (b : List Byte) (s : State), ∃ t, exec (.blockReceive l h b) s = .next t ∧
    (t.get F.LANE_BLOCK_ERR_CTRL_TYPE_ERR l ≤ s.get F.LANE_BLOCK_ERR_CTRL_TYPE_ERR l + 1) ∧
    (h = true ∨ (s.lane l).badBlocks ≠ 0 → t.get F.LANE_BLOCK_ERR_CTRL_TYPE_ERR l = s.get F.LANE_BLOCK_ERR_CTRL_TYPE_ERR l) ∧
    t.laneSt l = s.laneSt l ∧ t.fen = s.fen ∧ t.sent = s.sent) ∧
  (∀ (n : Fin 16) (s : State), s.linkOn n = true → (s.stall n).waited = false →
    ∃ t, exec (.quietReadyTimeout n) s = .next t ∧ (t.stall n).waited = true ∧
      t.now = max s.now ((s.stall n).wakeAt + 8000000) ∧ { t with stalls := s.stalls, tb := s.tb } = s) ∧
  (∀ (n : Fin 16) (x : Nat) (s : State), (s.stall n).hbRx = some x → s.linkOn n = true → s.stUp n = true →
    (s.stall n).quietPeer = false → (s.stall n).lm = none →
    ∃ t, exec (.cameraLost n) s = .next t ∧ t.get F.STALL_PROTO_STATUS_CAM_STATE n = 2 ∧
      t.get F.STALL_PROTO_STATUS_CAM_LOST_SEEN n = 1 ∧ (t.stall n).hbRx = none ∧
      .linkMsg n (lmMsg 1 (s.stall n).nextMsg 0 0 0) ∈ t.sent ∧
      ∀ l ∈ s.widthLanes n, s.laneSt l = lnActive → t.laneSt l = lnTrain) ∧
  (∀ (n : Fin 16) (s : State), (s.stall n).hbRx = none ∨ s.stUp n = false ∨ (s.stall n).quietPeer = true →
    exec (.cameraLost n) s = .next s)

/-- TEST_EN takes a DISABLED lane of a disabled stall into TEST and out again, the checker counts only while locked, and its
counters read once. Rests on 03_vyl_lanes.md, Patterns and error injection (R134 to R136), 03_vyl_lanes.md, Tables 3.19 to
3.21 (R144 to R149), 03_vyl_lanes.md, Table 3.10 (R120). -/
def Obligations.LaneTestsCountAndAreCleared : Prop :=
  (∀ (l : Fin 32) (v : Word) (s : State), s.laneSt l = lnDisabled → s.isOn F.STALL_LINK_CFG_ENABLE (s.ownerOf l) = false →
    s.ctl.mode ≠ .reset → s.ctl.mode ≠ .boot →
    ∃ t, exec (.laneTestEnter (l.castLE (by decide)) v) s = .next t ∧ t.laneSt l = lnTest ∧
      t.rd .LANE_TX_FIR l = t.rd .LANE_TX_FIR_SET l ∧ ∀ k, k < 40 → k ≠ l.val → t.laneSt k = s.laneSt k) ∧
  (∀ (l : Fin 32) (v : Word) (s : State), s.laneSt l = lnTest → s.isOn F.STALL_LINK_CFG_ENABLE (s.ownerOf l) = false →
    ∃ t, exec (.laneTestExit (l.castLE (by decide)) v) s = .next t ∧ t.laneSt l = lnDisabled ∧
      t.get F.LANE_PAT_CTRL_CHK_LOCK l = 0) ∧
  (∀ (l : Fin 40) (s : State), ∃ t, exec (.laneCntClear l) s = .next t ∧ t.rd .LANE_FEC_CW_CORR l = 0 ∧
    t.rd .LANE_FEC_CW_UNCORR l = 0 ∧ t.rd .LANE_FEC_SYM_CORR l = 0 ∧ t.rd .LANE_BLOCK_ERR l = 0 ∧
    OnlyRegs [(.LANE_FEC_CW_CORR, l.val), (.LANE_FEC_CW_UNCORR, l.val), (.LANE_FEC_SYM_CORR, l.val), (.LANE_BLOCK_ERR, l.val)] s t) ∧
  (∀ (l : Fin 40) (v : Word) (s : State), ∃ t, exec (.laneInjectGo l v) s = .next t ∧
    RegsBut [(.LANE_PAT_CTRL, l.val)] s t ∧ { t with regs := s.regs, sent := s.sent } = s ∧
    (s.laneSt l = lnActive → t.get F.LANE_PAT_CTRL_INJ_MODE l = 1 → t.sent = s.sent ++ [.inject l 1 1]) ∧
    (s.laneSt l = lnActive → t.get F.LANE_PAT_CTRL_INJ_MODE l = 2 →
      t.sent = s.sent ++ [.inject l 2 (t.get F.LANE_PAT_CTRL_INJ_BURST_LEN l + 1)]) ∧
    (s.laneSt l ≠ lnActive → s.laneSt l ≠ lnTest → t.sent = s.sent)) ∧
  (∀ (l : Fin 40) (ui bad : Fin 1025) (errs : Nat) (s : State),
    (s.patternOn l = false ∨ s.isOn F.LANE_PAT_CTRL_CHK_EN l = false → exec (.checkerLock l ui bad errs) s = .next s) ∧
    (s.patternOn l = true → s.isOn F.LANE_PAT_CTRL_CHK_EN l = true →
      (s.isOn F.LANE_PAT_CTRL_CHK_LOCK l = false → bad = 0 → 64 ≤ ui.val →
        ∃ t, exec (.checkerLock l ui bad errs) s = .next t ∧ t.isOn F.LANE_PAT_CTRL_CHK_LOCK l = true ∧
          t.get F.LANE_PAT_ERR_COUNT l = s.get F.LANE_PAT_ERR_COUNT l) ∧
      (s.isOn F.LANE_PAT_CTRL_CHK_LOCK l = false → bad ≠ 0 ∨ ui.val < 64 → exec (.checkerLock l ui bad errs) s = .next s) ∧
      (s.isOn F.LANE_PAT_CTRL_CHK_LOCK l = true →
        ∃ t, exec (.checkerLock l ui bad errs) s = .next t ∧
          t.isOn F.LANE_PAT_CTRL_CHK_LOCK l = decide (bad.val ≤ 256) ∧
          t.get F.LANE_PAT_ERR_COUNT l = min (s.get F.LANE_PAT_ERR_COUNT l + errs) (2 ^ 64 - 1) ∧
          (s.linkRate (s.ownerOf l) ≠ 2 →
            t.get F.LANE_PAT_BITS_COUNT l = min (s.get F.LANE_PAT_BITS_COUNT l + 2 * ui.val) (2 ^ 64 - 1)) ∧
          OnlyRegs [(.LANE_PAT_CTRL, l.val), (.LANE_PAT_BITS, l.val), (.LANE_PAT_ERR, l.val)] s t))) ∧
  (∀ (l : Fin 40) (err : Bool) (s : State), ∃ t, exec (.patCounterRead l err) s = .next t ∧
    t.rd (if err then .LANE_PAT_ERR else .LANE_PAT_BITS) l = 0 ∧
    RegsBut [(if err then .LANE_PAT_ERR else .LANE_PAT_BITS, l.val)] s t ∧
    t.sent = s.sent ++ [.completion (if 32 ≤ l.val then 1 else 0) 0
      (bytesOfNat 8 (s.rd (if err then .LANE_PAT_ERR else .LANE_PAT_BITS) l).toNat) false] ∧
    { t with regs := s.regs, sent := s.sent } = s)

/-- A frame packet that fails its checks only counts; a Frame Start opens, discards or refuses a frame, Line packets add segments
in order, and the frame closes. Rests on 04_vyl_protocol.md, Reception and errors (R154 to R157), 04_vyl_protocol.md, Frames
(R158 to R166), 05_chutes.md, Bays (R207 to R210). -/
def Obligations.FramePacketsOpenFillAndCloseFrames : Prop :=
  (∀ (n : Fin 16) (fseq : Fin 256) (param : BitVec 32) (body : List Byte) (crc : BitVec 32) (e : Bool) (tick : Nat) (room : Bool) (s u : State),
    ((s.reach tick).rxCheck n (rxOf 1 fseq param body crc e tick) = (false, u) →
      exec (.frameStartReceived n fseq param body crc e tick room) s = .next u) ∧
    ((s.reach tick).rxCheck n (rxOf 2 fseq param body crc e tick) = (false, u) →
      exec (.lineReceived n fseq param body crc e tick room) s = .next u) ∧
    ((s.reach tick).rxCheck n (rxOf 3 fseq param body crc e tick) = (false, u) →
      exec (.frameEndReceived n fseq param body crc e tick room) s = .next u)) ∧
  (∀ (n : Fin 16) (p : Rx) (s u : State), s.rxCheck n p = (false, u) →
    RegsBut [(.STALL_PKT_ERR, n.val)] s u ∧ { u with regs := s.regs, stalls := s.stalls } = s ∧
    (u.stall n).frame = (s.stall n).frame ∧ (s.pathOpen n p.type = false → u = s) ∧
    (s.pathOpen n p.type = true → (s.stall n).lost = false → p.type = 1 → p.body.length = 12 →
      (p.errored = true → u.get F.STALL_PKT_ERR_ERRORED n = min (s.get F.STALL_PKT_ERR_ERRORED n + 1) 65535) ∧
      (p.errored = false → p.good = false → u.get F.STALL_PKT_ERR_CRC_ERR n = min (s.get F.STALL_PKT_ERR_CRC_ERR n + 1) 65535) ∧
      (p.errored = false → p.good = true →
        u.get F.STALL_PKT_ERR_BAD_FIELD n = min (s.get F.STALL_PKT_ERR_BAD_FIELD n + 1) 65535) ∧
      (u.stall n).skip = some (p.fseq, true) ∧ (u.stall n).gapPend = true) ∧
    (s.pathOpen n p.type = true → (s.stall n).lost = false → p.type = 1 → p.body.length ≠ 12 →
      u.get F.STALL_PKT_ERR_RESYNC n = min (s.get F.STALL_PKT_ERR_RESYNC n + 1) 65535 ∧ (u.stall n).lost = true)) ∧
  (∀ (n : Fin 16) (fseq : Fin 256) (param : BitVec 32) (body : List Byte) (crc : BitVec 32) (e : Bool) (tick : Nat) (room : Bool) (s u : State),
    (s.reach tick).rxCheck n (rxOf 1 fseq param body crc e tick) = (true, u) → bit (u.rd .PAIR_CFG) (32 + n.val) = false →
    (u.stall n).frame = none → (u.stall n).held = none →
    (u.ctxOfStall n = none ∨ u.capturing = false →
      ∃ t, exec (.frameStartReceived n fseq param body crc e tick room) s = .next t ∧
        t.get F.STALL_FRAME_ERR_FS_DISCARDED n = min (u.get F.STALL_FRAME_ERR_FS_DISCARDED n + 1) 65535 ∧
        (t.stall n).frame = none ∧ (t.stall n).skip = some (param.toNat % 256, false) ∧
        RegsBut [(.STALL_FRAME_ERR, n.val)] u t ∧ { t with regs := u.regs, stalls := u.stalls } = u) ∧
    (∀ c, u.ctxOfStall n = some c → u.isOn F.CTX_STATUS_ARMED c = true → u.capturing = true → u.get F.CTX_STATUS_PENDING_COPY c = 0 →
      (u.ctx c).merge = none → cBypass ((u.active c).getD []) = false → cMergeEn ((u.active c).getD []) = false →
      cEngine ((u.active c).getD []) ≠ 4 →
      (u.bayBusy (cChute ((u.active c).getD [])) (cBay ((u.active c).getD [])) = true →
        ∃ t, exec (.frameStartReceived n fseq param body crc e tick room) s = .next t ∧ (t.stall n).frame = none ∧
          t.get F.CTX_COUNT_OVERRUN c = min (u.get F.CTX_COUNT_OVERRUN c + 1) 65535) ∧
      (u.bayBusy (cChute ((u.active c).getD [])) (cBay ((u.active c).getD [])) = false →
        ((u.headerOf n (rxOf 1 fseq param body crc e tick)).width ≠ cWidth ((u.active c).getD []) →
          ∃ t, exec (.frameStartReceived n fseq param body crc e tick room) s = .next t ∧ (t.stall n).frame = none ∧
            t.get F.CTX_COUNT_GEOM_MISMATCH c = min (u.get F.CTX_COUNT_GEOM_MISMATCH c + 1) 65535) ∧
        ((u.headerOf n (rxOf 1 fseq param body crc e tick)).width = cWidth ((u.active c).getD []) →
          (u.headerOf n (rxOf 1 fseq param body crc e tick)).height = cHeight ((u.active c).getD []) →
          (u.headerOf n (rxOf 1 fseq param body crc e tick)).depth = cfield ((u.active c).getD []) 0x010 32 3 →
          ∃ t, exec (.frameStartReceived n fseq param body crc e tick room) s = .next t ∧
            (∃ f, (t.stall n).frame = some f ∧ f.hdr.id = param.toNat ∧ f.ctx = c ∧ f.closed = none ∧ f.pkts = 0) ∧
            (t.stall n).ref = some param.toNat ∧ t.get F.STALL_PROTO_STATUS_FRAME_OPEN n = 1 ∧
            t.get F.STALL_FRAME_ID_LAST_FRAME_ID n = param.toNat ∧ (∃ v ∈ t.yard.raised, v.id = 64 + 4 * n.val))))) ∧
  (∀ (n : Fin 16) (fseq : Fin 256) (param : BitVec 32) (body : List Byte) (crc : BitVec 32) (e : Bool) (tick : Nat) (room : Bool) (s u : State),
    (s.reach tick).rxCheck n (rxOf 2 fseq param body crc e tick) = (true, u) → bit (u.rd .PAIR_CFG) (32 + n.val) = false →
    (u.stall n).held = none →
    (∀ f, u.openFrame n = some f → f.hdr.id % 256 = fseq.val → cBypass f.copy = false →
      (param.toNat % 65536 < f.line ∨ param.toNat % 65536 = f.line ∧ param.toNat / 65536 < f.col ∨
          f.hdr.height ≤ param.toNat % 65536 ∨ f.hdr.width ≤ param.toNat / 65536 →
        ∃ t, exec (.lineReceived n fseq param body crc e tick room) s = .next t ∧
          t.get F.STALL_FRAME_ERR_LINE_ERR n = min (u.get F.STALL_FRAME_ERR_LINE_ERR n + 1) 65535 ∧ OnlyRegs [(.STALL_FRAME_ERR, n.val)] u t) ∧
      (f.line < param.toNat % 65536 ∨ f.line = param.toNat % 65536 ∧ f.col ≤ param.toNat / 65536 → param.toNat % 65536 < f.hdr.height →
        param.toNat / 65536 < f.hdr.width →
        (65536 < (u.stall n).heldBytes + body.length →
          ∃ t, exec (.lineReceived n fseq param body crc e tick room) s = .next t ∧ (t.stall n).buf = (u.stall n).buf ∧
            t.get F.CTX_COUNT2_PIXEL_OVERRUN f.ctx = min (u.get F.CTX_COUNT2_PIXEL_OVERRUN f.ctx + 1) 65535) ∧
        ((u.stall n).heldBytes + body.length ≤ 65536 →
          ∃ t, exec (.lineReceived n fseq param body crc e tick room) s = .next t ∧
            (t.stall n).buf = (u.stall n).buf ++ [⟨param.toNat % 65536, param.toNat / 65536,
              (linePixels f.hdr body).take (f.hdr.width - param.toNat / 65536), body.length⟩] ∧
            (∃ g, (t.stall n).frame = some g ∧ g.pkts = f.pkts + 1 ∧ g.hdr = f.hdr ∧ g.lastPkt = u.now ∧
              (f.line ≠ param.toNat % 65536 ∨ f.col ≠ param.toNat / 65536 → g.incomplete = true)) ∧
            RegsBut [(.STALL_FRAME_ERR, n.val)] u t ∧ { t with regs := u.regs, stalls := u.stalls } = u))) ∧
    (u.openFrame n = none →
      ((u.stall n).skip = none → ∃ t, exec (.lineReceived n fseq param body crc e tick room) s = .next t ∧
        t.get F.STALL_FRAME_ERR_ORPHAN_LINE n = min (u.get F.STALL_FRAME_ERR_ORPHAN_LINE n + 1) 65535 ∧
        OnlyRegs [(.STALL_FRAME_ERR, n.val)] u t) ∧
      ((u.stall n).skip = some (fseq.val, false) → exec (.lineReceived n fseq param body crc e tick room) s = .next u))) ∧
  (∀ (n : Fin 16) (fseq : Fin 256) (param : BitVec 32) (body : List Byte) (crc : BitVec 32) (e : Bool) (tick : Nat) (room : Bool) (s u : State),
    (s.reach tick).rxCheck n (rxOf 3 fseq param body crc e tick) = (true, u) → bit (u.rd .PAIR_CFG) (32 + n.val) = false →
    (u.stall n).held = none →
    (∀ f, u.openFrame n = some f → f.hdr.id = param.toNat →
      ∃ t, exec (.frameEndReceived n fseq param body crc e tick room) s = .next t ∧ t.openFrame n = none ∧
        t.get F.STALL_PROTO_STATUS_FRAME_OPEN n = 0 ∧ (∃ v ∈ t.yard.raised, v.id = 64 + 4 * n.val + 1) ∧
        t.get F.STALL_FRAME_ERR_INCOMPLETE n =
          (if f.incomplete = true ∨ natOfBytes (body.take 4) ≠ f.pkts ∨ natOfBytes ((body.drop 4).take 4) % 4 ≠ 0 ∨ f.line ≠ f.hdr.height
           then min (u.get F.STALL_FRAME_ERR_INCOMPLETE n + 1) 65535 else u.get F.STALL_FRAME_ERR_INCOMPLETE n)) ∧
    (u.openFrame n = none → (u.stall n).skip = none →
      ∃ t, exec (.frameEndReceived n fseq param body crc e tick room) s = .next t ∧
        t.get F.STALL_PKT_ERR_BAD_FIELD n = min (u.get F.STALL_PKT_ERR_BAD_FIELD n + 1) 65535 ∧ OnlyRegs [(.STALL_PKT_ERR, n.val)] u t)) ∧
  (∀ (n : Fin 20) (s : State),
    ((s.stall n).held = none ∨ (s.stall n).frame.isSome = true → exec (.heldFrameStartRelease n) s = .next s) ∧
    (∀ h, (s.stall n).held = some h → (s.stall n).frame = none → (s.stall n).heldPkts = [] →
      ∃ t, exec (.heldFrameStartRelease n) s = .next t ∧
        t = (s.modStall n fun x => { x with held := none, heldPkts := [] }).judgeFrame n h ∧ (t.stall n).held = none)) ∧
  (∀ (n : Fin 16) (s : State),
    (s.openFrame n = none ∨ s.get F.STALL_PROTO_CFG_FRAME_TIMEOUT n = 0 → exec (.frameTimeout (n.castLE (by decide))) s = .next s) ∧
    (∀ f, s.openFrame n = some f → s.get F.STALL_PROTO_CFG_FRAME_TIMEOUT n ≠ 0 →
      ∃ t, exec (.frameTimeout (n.castLE (by decide))) s = .next t ∧ t.openFrame n = none ∧
        t.get F.STALL_FRAME_ERR_INCOMPLETE n = min (s.get F.STALL_FRAME_ERR_INCOMPLETE n + 1) 65535 ∧
        t.now = max s.now (f.lastPkt + 4000 * s.get F.STALL_PROTO_CFG_FRAME_TIMEOUT n)))

/-- Events and completions reach their troughs, control IDs are issued, completed and quarantined, and heartbeats carry time and
give the latency. Rests on 04_vyl_protocol.md, The back channel (R171, R172), 04_vyl_protocol.md, Control requests (R173 to
R179), 04_vyl_protocol.md, Heartbeats and the keeper bit (R180, R181), 04_vyl_protocol.md, Registers (R191 to R199). -/
def Obligations.EventsControlRequestsAndHeartbeats : Prop :=
  (∀ (n : Fin 16) (param : BitVec 32) (body : List Byte) (crc : BitVec 32) (e : Bool) (tick : Nat) (room : Bool) (s u : State),
    ((s.reach tick).rxCheck n (rxOf 0x21 0 param body crc e tick) = (false, u) →
      exec (.eventPacketReceived n param body crc e tick room) s = .next u) ∧
    ((s.reach tick).rxCheck n (rxOf 0x21 0 param body crc e tick) = (true, u) → bit (u.rd .PAIR_CFG) (32 + n.val) = false →
      (u.isOn F.STALL_PROTO_CFG_EVT_EN n = false → exec (.eventPacketReceived n param body crc e tick room) s = .next u) ∧
      (u.isOn F.STALL_PROTO_CFG_EVT_EN n = true → u.get F.STALL_CTRL_CFG_EVT_TROUGH n < 400 →
        ∃ t, exec (.eventPacketReceived n param body crc e tick room) s = .next t ∧ OnlyRegs [(.STALL_PATH_ERR, n.val)] u t ∧
          t.get F.STALL_PATH_ERR_EVT_DISCARDS n = min (u.get F.STALL_PATH_ERR_EVT_DISCARDS n + 1) 65535) ∧
      (∀ k, u.get F.STALL_CTRL_CFG_EVT_TROUGH n = k → 400 ≤ k → u.isOn F.STALL_PROTO_CFG_EVT_EN n = true → u.hasRoom k 2 →
        ∃ t, exec (.eventPacketReceived n param body crc e tick room) s = .next t ∧ (t.trg k).vis = (u.trg k).vis + 2 ∧
          (t.visWord k (u.trg k).vis).data = BitVec.ofNat 64 tick ∧
          bits (t.visWord k ((u.trg k).vis + 1)).data 0 16 = param.toNat % 65536 ∧
          bits (t.visWord k ((u.trg k).vis + 1)).data 16 5 = n.val ∧
          bits (t.visWord k ((u.trg k).vis + 1)).data 32 32 = natOfBytes (body.take 4)))) ∧
  (∀ (n : Fin 16) (s : State),
    (s.stUp n = false ∨ s.inHold = true ∨ s.get F.STALL_CTRL_CFG_CREQ_TROUGH n < 400 ∨ (s.stall n).nextId = none ∨
        s.headItem (s.get F.STALL_CTRL_CFG_CREQ_TROUGH n) = none → exec (.controlRequestPop n) s = .next s) ∧
    (∀ id h it, s.stUp n = true → s.fwdIn n = false → s.inHold = false → s.ctl.mode ≠ .reset →
      400 ≤ s.get F.STALL_CTRL_CFG_CREQ_TROUGH n → (s.stall n).nextId = some id →
      s.headItem (s.get F.STALL_CTRL_CFG_CREQ_TROUGH n) = some it → it.gap = false → it.words.head? = some h →
      (it.poison = false → it.words = [h] → requestOk [h] = true →
        ∃ t, exec (.controlRequestPop n) s = .next t ∧ (t.stall n).reqs = (s.stall n).reqs ++ [⟨id, h, s.now⟩] ∧
          (t.stall n).lastCid = id ∧ t.sent = s.sent ++ [.camPacket n (packetWhole 0x10 id (bits h 0 32)
            (bytesOfNat 4 (bits h 32 8 + 256 * bits h 40 7)))] ∧
          t.get F.STALL_CTRL_STATUS_OUTSTANDING n = ((s.stall n).reqs.length + 1) % 512) ∧
      (∀ k, it.poison = true ∨ requestOk it.words = false → s.get F.STALL_CTRL_CFG_CRESP_TROUGH n = k → 400 ≤ k →
        k ≠ s.get F.STALL_CTRL_CFG_CREQ_TROUGH n → s.hasRoom k 2 →
        ∃ t, exec (.controlRequestPop n) s = .next t ∧ t.sent = s.sent ∧ (t.stall n).reqs = (s.stall n).reqs ∧
          (t.trg k).vis = (s.trg k).vis + 2 ∧ (t.visWord k (s.trg k).vis).data = h ∧
          bits (t.visWord k ((s.trg k).vis + 1)).data 0 8 = 0x83))) ∧
  (∀ (n : Fin 16) (id : Fin 256) (param : BitVec 32) (body : List Byte) (crc : BitVec 32) (e : Bool) (tick : Nat) (s u : State),
    ((s.reach tick).rxCheck n (rxOf 0x11 id param body crc e tick) = (false, u) →
      exec (.controlResponseReceived n id param body crc e tick) s = .next u) ∧
    ((s.reach tick).rxCheck n (rxOf 0x11 id param body crc e tick) = (true, u) →
      (∀ q k, (u.stall n).reqs.find? (fun x => x.id == id.val) = some q → u.get F.STALL_CTRL_CFG_CRESP_TROUGH n = k → 400 ≤ k →
        u.hasRoom k 34 →
        ∃ t, exec (.controlResponseReceived n id param body crc e tick) s = .next t ∧
          (t.stall n).reqs = (u.stall n).reqs.filter (fun x => x.id != id.val) ∧
          (t.visWord k (u.trg k).vis).data = q.head ∧ bits (t.visWord k ((u.trg k).vis + 1)).data 8 8 = id.val ∧
          bits (t.visWord k ((u.trg k).vis + 1)).data 0 8 =
            (if fitsRequest q.head (rxOf 0x11 id param body crc e tick) = true then natOfBytes (body.take 1) else 0x84)) ∧
      ((u.stall n).reqs.find? (fun x => x.id == id.val) = none →
        ∃ t, exec (.controlResponseReceived n id param body crc e tick) s = .next t ∧ OnlyRegs [(.STALL_CTRL_ERR, n.val)] u t ∧
          (if (u.stall n).quarAll.isSome = true ∨ (∃ q ∈ (u.stall n).quar, q.1 = id.val) then
            t.get F.STALL_CTRL_ERR_LATE_RESP n = min (u.get F.STALL_CTRL_ERR_LATE_RESP n + 1) 65535
           else t.get F.STALL_CTRL_ERR_UNEXPECTED_RESP n = min (u.get F.STALL_CTRL_ERR_UNEXPECTED_RESP n + 1) 65535)))) ∧
  (∀ (n : Fin 16) (s : State),
    ((s.stall n).reqs = [] → exec (.controlTimeout n) s = .next s) ∧
    (∀ q r, (s.stall n).reqs = q :: r →
      ∃ t, exec (.controlTimeout n) s = .next t ∧ (t.stall n).reqs = r ∧
        t.now = max s.now (q.since + 4000 * max 1 (s.get F.STALL_CTRL_CFG_TIMEOUT n)) ∧
        (t.stall n).quar = (s.stall n).quar ++ [(q.id, t.now + 4000 * max 1 (s.get F.STALL_CTRL_CFG_TIMEOUT n))] ∧
        t.get F.STALL_CTRL_ERR_TIMEOUTS n = min (s.get F.STALL_CTRL_ERR_TIMEOUTS n + 1) 65535) ∧
    (∀ b, (s.stall n).quarAll = some (some b) →
      ∃ t, exec (.controlIdQuarantineEnd n) s = .next t ∧ (t.stall n).quarAll = none ∧ t.now = max s.now b ∧
        t.get F.STALL_CTRL_STATUS_QUARANTINE_ALL n = 0) ∧
    (∀ q r, (s.stall n).quarAll = none → (s.stall n).quar = q :: r →
      ∃ t, exec (.controlIdQuarantineEnd n) s = .next t ∧ (t.stall n).quar = r ∧ t.now = max s.now q.2) ∧
    ((s.stall n).quarAll = some none ∨ (s.stall n).quarAll = none ∧ (s.stall n).quar = [] →
      exec (.controlIdQuarantineEnd n) s = .next s)) ∧
  (∀ (n : Fin 16) (param : BitVec 32) (body : List Byte) (crc : BitVec 32) (e : Bool) (tick : Nat) (s u : State),
    ((s.reach tick).rxCheck n (rxOf 0x30 0 param body crc e tick) = (false, u) → exec (.heartbeatReceived n param body crc e tick) s = .next u) ∧
    ((s.reach tick).rxCheck n (rxOf 0x30 0 param body crc e tick) = (true, u) →
      ∃ t, exec (.heartbeatReceived n param body crc e tick) s = .next t ∧ t.get F.STALL_HB_HB_RX_SEQ n = param.toNat ∧
        t.get F.STALL_HB_CAM_STATUS n = natOfBytes ((body.drop 12).take 2) ∧
        t.get F.STALL_PROTO_STATUS_CAM_ORPHAN n = natOfBytes ((body.drop 12).take 2) / 2 % 2 ∧
        ((u.stall n).quietPeer = false → t.get F.STALL_PROTO_STATUS_CAM_STATE n = 1 ∧ (t.stall n).hbRx = some u.now) ∧
        RegsBut [(.STALL_HB, n.val), (.STALL_PROTO_STATUS, n.val), (.STALL_LATENCY, n.val)] u t ∧
        { t with regs := u.regs, stalls := u.stalls } = u ∧
        (natOfBytes (body.take 8) = 0 → t.rd .STALL_LATENCY n = u.rd .STALL_LATENCY n ∧ (t.stall n).rtt = (u.stall n).rtt) ∧
        (∀ d : Nat, natOfBytes (body.take 8) ≠ 0 → tick = natOfBytes (body.take 8) + natOfBytes ((body.drop 8).take 4) + d → d ≤ 40000 →
          (t.stall n).rtt = d :: (u.stall n).rtt.take 15 ∧
          t.get F.STALL_LATENCY_ONE_WAY n = (t.stall n).rtt.foldl (· + ·) 0 / (2 * (t.stall n).rtt.length) % 2 ^ 20 ∧
          t.get F.STALL_LATENCY_VALID n = b2n (decide (16 ≤ (u.stall n).rttCount + 1))))) ∧
  (∀ (n : Fin 16) (s : State),
    (s.stUp n = false → exec (.heartbeatSend n) s = .next s) ∧
    (s.stUp n = true → s.fwdIn n = false → s.isOn F.STALL_LINK_CFG_PPORT_SEL n = false →
      ∃ t, exec (.heartbeatSend n) s = .next t ∧ t.now = max s.now ((s.stall n).hbTx + 4000) ∧
        (t.stall n).hbSeq = ((s.stall n).hbSeq + 1) % 2 ^ 32 ∧
        t.sent = s.sent ++ [.camPacket n (packetWhole 0x30 0 (s.stall n).hbSeq
          (bytesOfNat 8 t.now ++ bytesOfNat 4 0 ++
            bytesOfNat 2 (b2n s.rights + 2 * b2n (s.ctl.mode == .hold) + 4 * b2n (s.isOn F.PAIR_CFG_ENABLE)) ++ bytesOfNat 2 0))] ∧
        t.get F.STALL_PROTO_STATUS_KEEPER_SENT n = b2n s.rights ∧
        RegsBut [(.STALL_PROTO_STATUS, n.val)] s t ∧ { t with regs := s.regs, stalls := s.stalls, sent := s.sent, tb := s.tb } = s) ∧
    (∃ t, exec (.protoCntClear n) s = .next t ∧ t.rd .STALL_PKT_ERR n = 0 ∧ t.rd .STALL_FRAME_ERR n = 0 ∧ t.rd .STALL_CTRL_ERR n = 0 ∧
      t.rd .STALL_TRIG_COUNT n = 0 ∧ t.rd .STALL_PATH_ERR n = 0 ∧ (14 ≤ n.val → t.rd .PPORT_COUNT (n.val - 14) = 0) ∧
      OnlyRegs [(.STALL_PKT_ERR, n.val), (.STALL_FRAME_ERR, n.val), (.STALL_CTRL_ERR, n.val), (.STALL_TRIG_COUNT, n.val),
        (.STALL_PATH_ERR, n.val), (.PPORT_COUNT, n.val - 14)] s t))

/-- A Trigger is queued, judged twice, numbered and sent with its delay, late or not, and a parallel port opens, fills and closes
frames with its geometry checked. Rests on 04_vyl_protocol.md, The back channel (R167 to R170), 13_yard.md, Consumers (R604),
04_vyl_protocol.md, Parallel ports (R185 to R187), 04_vyl_protocol.md, Registers (R200 to R202). -/
def Obligations.TriggersAreTimedAndParallelPortsMakeFrames : Prop :=
  (∀ (n : Fin 16) (s : State),
    (s.takeEvent (288 + n.val) = none → exec (.yardCameraTrigger n) s = .next s) ∧
    (∀ tk u, s.takeEvent (288 + n.val) = some (tk, u) →
      (4 ≤ ((u.stall n).trigs.filter (·.yard)).length → exec (.yardCameraTrigger n) s = .next u) ∧
      (((u.stall n).trigs.filter (·.yard)).length < 4 → u.trigOk n = true →
        ∃ t g, exec (.yardCameraTrigger n) s = .next t ∧ (t.stall n).trigs = (u.stall n).trigs ++ [g] ∧
          g.target = tk + u.get F.STALL_TRIG_CFG_YARD_DELAY n ∧ g.action = u.get F.STALL_PROTO_CFG_YARD_TRIG_ACTION n ∧
          g.yard = true ∧ { t with stalls := u.stalls, frees := u.frees } = u) ∧
      (((u.stall n).trigs.filter (·.yard)).length < 4 → u.trigOk n = false →
        ∃ t, exec (.yardCameraTrigger n) s = .next t ∧ (t.stall n).trigs = (u.stall n).trigs ∧
          t.get F.STALL_TRIG_COUNT_TRIG_UNSENT n = min (u.get F.STALL_TRIG_COUNT_TRIG_UNSENT n + 1) 65535))) ∧
  (∀ (n : Fin 16) (tx : Nat) (gone : Bool) (s : State),
    (s.trigNext n = none → exec (.triggerCommit n tx gone) s = .next s) ∧
    (∀ g, s.trigNext n = some g →
      ∃ t, exec (.triggerCommit n tx gone) s = .next t ∧ (t.stall n).trigs = (s.stall n).trigs.erase g ∧
        t.now = max s.now (s.trigLead n g).toNat ∧
        (s.trigOk n = false → t.sent = s.sent ∧ (t.stall n).trigId = (s.stall n).trigId ∧
          t.get F.STALL_TRIG_COUNT_TRIG_UNSENT n = min (s.get F.STALL_TRIG_COUNT_TRIG_UNSENT n + 1) 65535) ∧
        (s.trigOk n = true → gone = true → t.sent = s.sent ∧ (t.stall n).trigId = ((s.stall n).trigId + 1) % 2 ^ 32 ∧
          t.get F.STALL_TRIG_COUNT_TRIG_UNSENT n = min (s.get F.STALL_TRIG_COUNT_TRIG_UNSENT n + 1) 65535) ∧
        (s.trigOk n = true → gone = false → g.target ≠ 0 → ∀ d : Int,
          d = (g.target : Int) - signed 16 (s.get F.STALL_TRIG_CFG_COMP n) - (max tx t.now : Nat) - s.get F.STALL_LATENCY_ONE_WAY n →
          t.sent = s.sent ++ [.camPacket n (packetWhole 0x20 0 (s.stall n).trigId
            (bytesOfNat 2 (d.toNat % 65536) ++ bytesOfNat 1 g.action ++ bytesOfNat 1 g.arg))] ∧
          (t.stall n).trigId = ((s.stall n).trigId + 1) % 2 ^ 32 ∧
          t.get F.STALL_TRIG_COUNT_TRIG_SENT n = (s.get F.STALL_TRIG_COUNT_TRIG_SENT n + 1) % 2 ^ 32 ∧
          t.get F.STALL_TRIG_COUNT_TRIG_LATE n =
            (if d < 0 then min (s.get F.STALL_TRIG_COUNT_TRIG_LATE n + 1) 65535 else s.get F.STALL_TRIG_COUNT_TRIG_LATE n)))) ∧
  (∀ (p : Fin 2) (tick : Nat) (s : State),
    (s.ppOn p = false → ∃ t, exec (.pportFrameVAssert p tick) s = .next t ∧ t.get F.PPORT_STATUS_IN_FRAME p = 1 ∧
      RegsBut [(.PPORT_STATUS, p.val)] s t ∧ t.stalls = s.stalls) ∧
    (s.ppOn p = true → ∃ t, exec (.pportFrameVAssert p tick) s = .next t ∧ t.get F.PPORT_STATUS_IN_FRAME p = 1 ∧
      (t.stall (14 + p.val)).ppOpen = some (s.stall (14 + p.val)).ppId ∧
      (t.stall (14 + p.val)).ppId = ((s.stall (14 + p.val)).ppId + 1) % 2 ^ 32 ∧ (t.stall (14 + p.val)).ppLines = 0 ∧
      (s.capturing = false → (s.stall (14 + p.val)).frame = none →
        t.get F.STALL_FRAME_ERR_FS_DISCARDED (14 + p.val) = min (s.get F.STALL_FRAME_ERR_FS_DISCARDED (14 + p.val) + 1) 65535))) ∧
  (∀ (p : Fin 2) (rise fall : List (BitVec 16)) (s : State),
    ((s.stall (14 + p.val)).ppOpen = none ∨ s.ppOn p = false → exec (.pportLineEnd p rise fall) s = .next s) ∧
    (∀ id, (s.stall (14 + p.val)).ppOpen = some id → s.ppOn p = true →
      ∃ t, exec (.pportLineEnd p rise fall) s = .next t ∧
        (t.stall (14 + p.val)).ppLines = (s.stall (14 + p.val)).ppLines + 1 ∧
        (max 1 (s.get F.PPORT_GEOM_HEIGHT p) ≤ (s.stall (14 + p.val)).ppLines →
          t.get F.PPORT_STATUS_GEOM_ERR p = 1 ∧ (t.stall (14 + p.val)).buf = (s.stall (14 + p.val)).buf ∧
          t.rd .PPORT_COUNT p = s.rd .PPORT_COUNT p) ∧
        ((s.stall (14 + p.val)).ppLines < max 1 (s.get F.PPORT_GEOM_HEIGHT p) →
          ((s.ppPixels p rise fall).length < max 1 (s.get F.PPORT_GEOM_WIDTH p) → t.get F.PPORT_STATUS_GEOM_ERR p = 1 ∧
            t.get F.PPORT_COUNT_SHORT_LINES p = min (s.get F.PPORT_COUNT_SHORT_LINES p + 1) 65535) ∧
          (max 1 (s.get F.PPORT_GEOM_WIDTH p) < (s.ppPixels p rise fall).length → t.get F.PPORT_STATUS_GEOM_ERR p = 1 ∧
            t.get F.PPORT_COUNT_LONG_LINES p = min (s.get F.PPORT_COUNT_LONG_LINES p + 1) 65535) ∧
          ((s.ppPixels p rise fall).length = max 1 (s.get F.PPORT_GEOM_WIDTH p) →
            t.get F.PPORT_STATUS_GEOM_ERR p = s.get F.PPORT_STATUS_GEOM_ERR p)))) ∧
  (∀ (p : Fin 2) (s : State),
    ((s.stall (14 + p.val)).ppOpen = none → ∃ t, exec (.pportFrameVRelease p) s = .next t ∧ t.get F.PPORT_STATUS_IN_FRAME p = 0 ∧
      OnlyRegs [(.PPORT_STATUS, p.val)] s t) ∧
    (∀ id, (s.stall (14 + p.val)).ppOpen = some id →
      ∃ t, exec (.pportFrameVRelease p) s = .next t ∧ t.get F.PPORT_STATUS_IN_FRAME p = 0 ∧
        (t.stall (14 + p.val)).ppOpen = none ∧ t.get F.PPORT_COUNT_FRAMES p = (s.get F.PPORT_COUNT_FRAMES p + 1) % 2 ^ 32 ∧
        ((s.stall (14 + p.val)).ppLines < max 1 (s.get F.PPORT_GEOM_HEIGHT p) → t.get F.PPORT_STATUS_GEOM_ERR p = 1) ∧
        (∀ f, s.ppOn p = true → (s.stall (14 + p.val)).held = none → s.openFrame (14 + p.val) = some f → f.hdr.id = id →
          t.openFrame (14 + p.val) = none))) ∧
  (∀ (p : Fin 2) (s : State),
    (∃ t, exec (.pportClockUp p) s = .next t ∧ t.get F.PPORT_STATUS_CLK_PRESENT p = 1 ∧
      (s.isOn F.STALL_LINK_CFG_ENABLE (14 + p.val) = true → s.isOn F.STALL_LINK_CFG_PPORT_SEL (14 + p.val) = true →
        t.stState (14 + p.val) = lsUp)) ∧
    (∃ t, exec (.pportClockLost p) s = .next t ∧ t.get F.PPORT_STATUS_CLK_PRESENT p = 0 ∧ t.get F.PPORT_STATUS_CLK_LOST p = 1 ∧
      (s.isOn F.STALL_LINK_CFG_ENABLE (14 + p.val) = true → s.isOn F.STALL_LINK_CFG_PPORT_SEL (14 + p.val) = true →
        s.stUp (14 + p.val) = true → t.stState (14 + p.val) = lsDown ∧ t.openFrame (14 + p.val) = none)))

/-- A locked copy keeps its bytes; a commit ends by the first check it fails; a passing one is pending or applied; enabling and
chute writes are refused by rule. Rests on 05_chutes.md, Commit (R241 to R247), 05_chutes.md, Registers (R250 to R257),
05_chutes.md, Bays and contexts (R211, R212). -/
def Obligations.TackSetsAreLockedCheckedAndAppliedAsCommitsSay : Prop :=
  (∀ (c : Fin 64) (b : Bool) (w : Fin 128) (v : Word) (be : BitVec 8) (s : State),
    (s.get F.CTX_STATUS_ACTIVE_COPY c = (if b then 2 else 1) ∨ s.get F.CTX_STATUS_PENDING_COPY c = (if b then 2 else 1) ∨
        (∃ k, (s.ctx c).check = some k ∧ k.b = b) →
      ∃ t, exec (.tackCopyWrite c b w v be) s = .next t ∧ t.isOn F.CTX_STATUS_LOCKED_WRITE c = true ∧
        OnlyRegs [(.CTX_STATUS, c.val)] s t ∧ t.get F.CTX_STATUS_ACTIVE_COPY c = s.get F.CTX_STATUS_ACTIVE_COPY c ∧
        t.get F.CTX_STATUS_PENDING_COPY c = s.get F.CTX_STATUS_PENDING_COPY c) ∧
    (s.get F.CTX_STATUS_ACTIVE_COPY c ≠ (if b then 2 else 1) → s.get F.CTX_STATUS_PENDING_COPY c ≠ (if b then 2 else 1) →
        (∀ k, (s.ctx c).check = some k → k.b ≠ b) →
      ∃ t, exec (.tackCopyWrite c b w v be) s = .next t ∧ { t with ctxs := s.ctxs } = s ∧
        (∀ d, d ≠ c.val → t.ctx d = s.ctx d) ∧ { t.ctx c with a := (s.ctx c).a, b := (s.ctx c).b } = s.ctx c ∧
        (t.ctx c).copy (!b) = (s.ctx c).copy (!b) ∧
        (∀ j, j ≠ w.val → Tab.get 0 ((t.ctx c).copy b) j = Tab.get 0 ((s.ctx c).copy b) j) ∧
        (∀ k, k < 8 → bits (Tab.get 0 ((t.ctx c).copy b) w.val) (8 * k) 8 =
          if be.getLsbD k then bits v (8 * k) 8 else bits (Tab.get 0 ((s.ctx c).copy b) w.val) (8 * k) 8))) ∧
  (∀ (c : Fin 64) (v : Word) (s : State),
    ((s.ctx c).check.isSome = true → bit v 5 = false →
      ∃ t, exec (.tackCommitGo c v) s = .next t ∧ t.isOn F.CTX_COMMIT_GO_REFUSED c = true ∧ OnlyRegs [(.CTX_COMMIT, c.val)] s t ∧
        t.get F.CTX_COMMIT_RESULT c = s.get F.CTX_COMMIT_RESULT c) ∧
    (s.get F.CTX_STATUS_PENDING_COPY c ≠ 0 → bit v 5 = false →
      ∃ t, exec (.tackCommitGo c v) s = .next t ∧ t.isOn F.CTX_COMMIT_GO_REFUSED c = true ∧ OnlyRegs [(.CTX_COMMIT, c.val)] s t ∧
        t.get F.CTX_COMMIT_RESULT c = s.get F.CTX_COMMIT_RESULT c) ∧
    ((s.ctx c).check = none → s.get F.CTX_STATUS_PENDING_COPY c = 0 →
      ∃ t, exec (.tackCommitGo c v) s = .next t ∧ t.ctx c = { s.ctx c with check := some ⟨bit v 0, none⟩ } ∧
        (∀ d, d ≠ c.val → t.ctx d = s.ctx d) ∧ t.get F.CTX_COMMIT_RESULT c = 1 ∧ t.isOn F.CTX_COMMIT_GO c = true ∧
        RegsBut [(.CTX_COMMIT, c.val)] s t ∧ { t with regs := s.regs, ctxs := s.ctxs } = s) ∧
    (s.get F.CTX_STATUS_PENDING_COPY c = 0 → exec (.tackCommitCancel c) s = .next s) ∧
    (s.get F.CTX_STATUS_PENDING_COPY c ≠ 0 →
      ∃ t, exec (.tackCommitCancel c) s = .next t ∧ t.get F.CTX_STATUS_PENDING_COPY c = 0 ∧ t.get F.CTX_COMMIT_RESULT c = 8 ∧
        t.get F.CTX_STATUS_ACTIVE_COPY c = s.get F.CTX_STATUS_ACTIVE_COPY c ∧ t.ctxs = s.ctxs ∧
        RegsBut [(.CTX_COMMIT, c.val), (.CTX_STATUS, c.val)] s t ∧ { t with regs := s.regs, grooms := s.grooms } = s)) ∧
  (∀ (c : Fin 64) (s : State),
    ((s.ctx c).check = none → exec (.tackCheckComplete c) s = .next s) ∧
    (∀ b, (s.ctx c).check = some ⟨b, none⟩ →
      ∃ t, exec (.tackCheckComplete c) s = .next t ∧ t.ctxs = (s.modCtx c fun x => { x with check := none, seqDue := (t.ctx c).seqDue }).ctxs ∧
        RegsBut [(.CTX_COMMIT, c.val), (.CTX_STATUS, c.val), (.CTX_COUNT2, c.val), (.CTX_APPLIED, c.val), (.LOG_STATUS, 0)] s t ∧
        { t with regs := s.regs, ctxs := s.ctxs, mgmt := s.mgmt, grooms := s.grooms } = s ∧ t.isOn F.CTX_COMMIT_GO c = false ∧
        (let u := (s.ctx c).copy b
         let keeps := t.get F.CTX_STATUS_ACTIVE_COPY c = s.get F.CTX_STATUS_ACTIVE_COPY c ∧
           t.get F.CTX_STATUS_PENDING_COPY c = s.get F.CTX_STATUS_PENDING_COPY c ∧ (t.ctx c).seqDue = (s.ctx c).seqDue
         let fresh : Prop := match s.active c with
           | none => cfield u 0 0 32 ≠ 0
           | some a => 1 ≤ (cfield u 0 0 32 + 2 ^ 32 - cfield a 0 0 32) % 2 ^ 32 ∧
               (cfield u 0 0 32 + 2 ^ 32 - cfield a 0 0 32) % 2 ^ 32 ≤ 2 ^ 31 - 1
         let moved := ∃ a, s.active c = some a ∧
           ¬ (cStall a = cStall u ∧ cChute a = cChute u ∧ cBay a = cBay u ∧ cBypass a = cBypass u)
         (cfield u 0x3F8 0 32 ≠ crc32c (copyBytes u) → keeps ∧ t.get F.CTX_COMMIT_RESULT c = 4 ∧
           t.get F.CTX_COUNT2_TACK_CRC c = min (s.get F.CTX_COUNT2_TACK_CRC c + 1) 65535 ∧
           ∃ f ∈ t.mgmt.faults, f.code = 1) ∧
         (cfield u 0x3F8 0 32 = crc32c (copyBytes u) → ¬ fresh → keeps ∧ t.get F.CTX_COMMIT_RESULT c = 5) ∧
         (∀ o, cfield u 0x3F8 0 32 = crc32c (copyBytes u) → fresh → o < 1024 → o % 8 = 0 → s.copyFails u o = true →
           (∀ p, p < o → p % 8 = 0 → s.copyFails u p = false) →
           keeps ∧ t.get F.CTX_COMMIT_RESULT c = 6 ∧ t.get F.CTX_COMMIT_BAD_OFFSET c = o) ∧
         (cfield u 0x3F8 0 32 = crc32c (copyBytes u) → fresh → (∀ p, p < 1024 → p % 8 = 0 → s.copyFails u p = false) →
           (s.ctxOn c = true → moved → keeps ∧ t.get F.CTX_COMMIT_RESULT c = 7) ∧
           (s.ctxOn c = true → ¬ moved → t.get F.CTX_COMMIT_RESULT c = 2 ∧
             t.get F.CTX_STATUS_PENDING_COPY c = (if b then 2 else 1) ∧
             t.get F.CTX_STATUS_ACTIVE_COPY c = s.get F.CTX_STATUS_ACTIVE_COPY c) ∧
           (s.ctxOn c = false → t.get F.CTX_COMMIT_RESULT c = 3 ∧ t.get F.CTX_STATUS_ACTIVE_COPY c = (if b then 2 else 1) ∧
             t.get F.CTX_STATUS_PENDING_COPY c = 0 ∧ t.get F.CTX_APPLIED_ACTIVE_SEQUENCE c = cfield u 0 0 32 ∧
             t.get F.CTX_APPLIED_APPLIED_FRAME_ID c = 0))))) ∧
  (∀ (c : Fin 64) (v : Word) (s : State),
    (s.ctxOn c = true → bit v 1 = false → bit v 8 = false → exec (.contextEnable c v) s = .next s) ∧
    (s.ctxOn c = false → bit v 1 = false → bit v 8 = false →
      ∃ t, exec (.contextEnable c v) s = .next t ∧
        (let no := s.active c = none ∨ ∃ a, s.active c = some a ∧
          (2 ^ s.get F.CHUTE_CFG_BAYS (cChute a) ≤ cBay a ∨
            ∃ d u, d < 64 ∧ d ≠ c.val ∧ s.ctxOn d = true ∧ s.active d = some u ∧ cStall u = cStall a)
         (no → t.ctxOn c = false ∧ t.isOn F.CTX_CTRL_ENABLE_REJECTED c = true ∧ OnlyRegs [(.CTX_CTRL, c.val)] s t) ∧
         (¬ no → t.ctxOn c = true ∧ (t.ctx c).epoch = none ∧ (∀ d, d ≠ c.val → t.ctx d = s.ctx d) ∧
           RegsBut ((.CTX_CTRL, c.val) :: (List.range 16).map fun h => (.HERD_STATUS, h)) s t ∧
           { t with regs := s.regs, ctxs := s.ctxs } = s))) ∧
    (bit v 8 = true → ∃ t, exec (.contextEnable c v) s = .next t ∧ t.rd .CTX_COUNT c = 0 ∧ t.rd .CTX_COUNT2 c = 0) ∧
    (s.ctxOn c = false → bit v 1 = false → bit v 8 = false → exec (.contextDisable c v) s = .next s) ∧
    (s.ctxOn c = true →
      ∃ t, exec (.contextDisable c v) s = .next t ∧ t.ctxOn c = false ∧ t.isOn F.CTX_STATUS_ARMED c = false ∧
        (t.ctx c).a = (s.ctx c).a ∧ (t.ctx c).b = (s.ctx c).b ∧ t.stalls = s.stalls ∧
        t.get F.CTX_STATUS_ACTIVE_COPY c = s.get F.CTX_STATUS_ACTIVE_COPY c) ∧
    (∃ t, exec (.ctxCntClear c) s = .next t ∧ t.rd .CTX_COUNT c = 0 ∧ t.rd .CTX_COUNT2 c = 0 ∧ t.rd .CTX_DEST_COUNT c = 0 ∧
      (s.active c = none → OnlyRegs [(.CTX_COUNT, c.val), (.CTX_COUNT2, c.val), (.CTX_DEST_COUNT, c.val)] s t) ∧
      (∀ u, s.active c = some u → t.rd .CHUTE_COUNT (cChute u) = 0 ∧
        OnlyRegs [(.CTX_COUNT, c.val), (.CTX_COUNT2, c.val), (.CTX_DEST_COUNT, c.val), (.CHUTE_COUNT, cChute u)] s t))) ∧
  (∀ (k : Fin 4) (v : Word) (s : State),
    ∃ t, exec (.chuteBaysWrite k v) s = .next t ∧ OnlyRegs [(.CHUTE_CFG, k.val)] s t ∧
      (let no := bits v 0 2 = 3 ∨ ∃ c u, c < 64 ∧ s.ctxOn c = true ∧ s.active c = some u ∧ cChute u = k.val
       (no → t.isOn F.CHUTE_CFG_CFG_REJECTED k = true ∧ t.get F.CHUTE_CFG_BAYS k = s.get F.CHUTE_CFG_BAYS k) ∧
       (¬ no → t.get F.CHUTE_CFG_BAYS k = bits v 0 2 ∧ (bit v 2 = true → t.isOn F.CHUTE_CFG_CFG_REJECTED k = false)))) ∧
  (∀ (v : Word) (s : State),
    ∃ t, exec (.defectBaseWrite v) s = .next t ∧ OnlyRegs [(.CHUTE_DEFECT_BASE, 0)] s t ∧
      (let no := (∃ c, c < 64 ∧ s.ctxOn c = true) ∨ 0x1800000000 < bits v 16 21 * 65536 + 0x1000000
       (no → t.isOn F.CHUTE_DEFECT_BASE_REJECTED 0 = true ∧ t.get F.CHUTE_DEFECT_BASE_BASE = s.get F.CHUTE_DEFECT_BASE_BASE) ∧
       (¬ no → t.get F.CHUTE_DEFECT_BASE_BASE = bits v 16 21)))

/-- A bay takes segments only behind its map rows, loses none of a frame's pixels, and frees itself with the last; engines hand
over results, statistics and stacks. Rests on 05_chutes.md, Bays and contexts (R205 to R214), 05_chutes.md, Maps in the fen
(R228 to R231), 05_chutes.md, Statistics (R239, R240), 06_reduction.md, Window centroiding (R278 to R283), 06_reduction.md,
Shift-and-add (R289 to R292), 09_tags_herds_delivery.md (R436). -/
def Obligations.BaysTakeTheirSegmentsRowByRowBehindTheirMaps : Prop :=
  (∀ (n : Fin 20) (s : State),
    ((s.stall n).frame = none → ∀ backed, exec (.bayLineIntake n backed) s = .next s) ∧
    (∀ f g rest, (s.stall n).frame = some f → (s.stall n).buf = g :: rest → f.mapsUpTo g.line = false →
      exec (.bayLineIntake n false) s = .next s) ∧
    (∀ f g rest, (s.stall n).frame = some f → (s.stall n).buf = g :: rest → f.mapsUpTo g.line = true → f.closed = none →
      0 < f.hdr.width → (∀ row ∈ f.rows, row.length = f.hdr.width) → f.rows.length * f.hdr.width + f.queue.length = f.entered →
      ∃ t f', exec (.bayLineIntake n false) s = .next t ∧ (t.stall n).frame = some f' ∧ (t.stall n).buf = rest ∧
        f'.hdr = f.hdr ∧ f'.ctx = f.ctx ∧ f'.copy = f.copy ∧
        f'.entered = max f.entered (g.line * f.hdr.width + g.x) + g.px.length ∧
        f'.rows.length * f.hdr.width + f'.queue.length = f'.entered ∧ f.rows.length ≤ f'.rows.length ∧
        f'.rows.take f.rows.length = f.rows ∧ (∀ row ∈ f'.rows, row.length = f.hdr.width) ∧
        (∀ m, m ≠ n.val → t.stall m = s.stall m)) ∧
    (∀ f, (s.stall n).frame = some f → (s.stall n).buf = [] → f.closed.isSome = true → f.rows.length = f.hdr.height →
      cBypass f.copy = false → f.ctx < 64 →
      ∃ t, exec (.bayLineIntake n false) s = .next t ∧ (t.stall n).frame = none ∧ t.get F.CTX_STATUS_IN_FRAME f.ctx = 0 ∧
        bit (t.rd .CHUTE_STATUS (cChute f.copy)) (cBay f.copy) = false) ∧
    (∀ f p ps a, (s.stall n).frame = some f → (s.stall n).buf = [] → f.closed = none → f.queue = [] → f.host = some a → 0 < f.hdr.width →
      f.prods = p :: ps → p.cut = false → f.ctx < 64 →
      ∃ t f', exec (.bayLineIntake n true) s = .next t ∧ (t.stall n).frame = some f' ∧ f' = { f with prods := { p with cut := true } :: ps } ∧
        t.get F.CTX_DEST_COUNT_OVERRUN f.ctx = min (s.get F.CTX_DEST_COUNT_OVERRUN f.ctx + 1) 65535 ∧
        RegsBut [(.CTX_DEST_COUNT, f.ctx)] s t ∧ { t with regs := s.regs, stalls := s.stalls } = s)) ∧
  (∀ (n : Fin 20) (s : State),
    ((s.stall n).frame = none → exec (.mapReadReturn n) s = .next s) ∧
    (∀ f, (s.stall n).frame = some f → (cBypass f.copy = true ∨ f.needsMap f.mapped = false ∨ f.hdr.height ≤ f.mapped) →
      exec (.mapReadReturn n) s = .next s) ∧
    (∀ f, (s.stall n).frame = some f → cBypass f.copy = false → f.needsMap f.mapped = true → f.mapped < f.hdr.height →
      f.closed = none → f.queue = [] → 0 < f.hdr.width →
      ∃ t f', exec (.mapReadReturn n) s = .next t ∧ (t.stall n).frame = some f' ∧ f'.mapped = f.mapped + 1 ∧
        f'.maps.length = f.maps.length + 1 ∧ f'.maps.take f.maps.length = f.maps ∧ f'.rows = f.rows ∧ f'.entered = f.entered ∧
        (t.stall n).buf = (s.stall n).buf ∧ t.fen = s.fen ∧ t.troughs = s.troughs ∧ t.ctxs = s.ctxs)) ∧
  (∀ (c : Fin 64) (s : State),
    ((s.ctx c).results = [] → exec (.windowResultPush c) s = .next s) ∧
    (∀ k p rest, (s.ctx c).results = (k, p) :: rest → p ≠ [] → 400 ≤ k → k < 65536 → s.hasRoom k p.length →
      ∃ t, exec (.windowResultPush c) s = .next t ∧ (t.ctx c).results = rest ∧ (t.trg k).vis = (s.trg k).vis + p.length ∧
        (∀ j, j ≠ k → t.trg j = s.trg j) ∧ (∀ d, d ≠ c.val → t.ctx d = s.ctx d)) ∧
    ((s.ctx c).stats = [] → exec (.statisticsPush c) s = .next s) ∧
    (∀ p rest u, (s.ctx c).stats = [p] :: rest → p ≠ [] → s.active c = some u → s.hasRoom (80 + c) p.length →
      ∃ t, exec (.statisticsPush c) s = .next t ∧ (t.ctx c).stats = rest ∧
        (t.trg (80 + c)).vis = (s.trg (80 + c)).vis + p.length ∧ (∀ j, j ≠ 80 + c.val → t.trg j = s.trg j) ∧
        ∃ v ∈ t.yard.raised, v.id = 437 + 3 * cChute u) ∧
    ((s.ctx c).staged = [] ∨ (s.ctx c).stack = none → exec (.shiftaddResampleEnd c) s = .next s) ∧
    (∀ st rest k, (s.ctx c).staged = st :: rest → (s.ctx c).stack = some k → k.frames + 1 < cStackN k.copy → k.closeDue = false →
      (cfield k.copy 0x130 0 2 = 2 → st.offset = none) → (cfield k.copy 0x130 0 2 ≠ 2 → st.centroid = none) →
      ∃ t k', exec (.shiftaddResampleEnd c) s = .next t ∧ (t.ctx c).staged = rest ∧ (t.ctx c).stack = some k' ∧
        k'.frames = k.frames + 1 ∧ k'.rejected = k.rejected + 1 ∧ k'.members = k.members ∧ k'.last = st.tag ∧ t.fen = s.fen ∧
        t.get F.RED_CTX_COUNT_SAA_REJECT c = min (s.get F.RED_CTX_COUNT_SAA_REJECT c + 1) 65535 ∧
        t.rd .RED_CTX_OFFSET c = s.rd .RED_CTX_OFFSET c ∧ t.get F.RED_CTX_STATE_STACK_FRAMES c = k.frames + 1) ∧
    (∀ st rest k dx dy, (s.ctx c).staged = st :: rest → (s.ctx c).stack = some k → k.frames + 1 < cStackN k.copy →
      k.closeDue = false → cfield k.copy 0x130 0 2 = 2 → st.offset = some (dx, dy) →
      |dx| ≤ 64 * cfield k.copy 0x130 2 8 → |dy| ≤ 64 * cfield k.copy 0x130 2 8 →
      ∃ t k', exec (.shiftaddResampleEnd c) s = .next t ∧ (t.ctx c).staged = rest ∧ (t.ctx c).stack = some k' ∧
        k'.frames = k.frames + 1 ∧ k'.members = k.members + 1 ∧ k'.rejected = k.rejected ∧
        t.get F.RED_CTX_OFFSET_DX c = unsigned 22 dx ∧ t.get F.RED_CTX_OFFSET_DY c = unsigned 22 dy ∧
        t.isOn F.RED_CTX_OFFSET_VALID c = true ∧
        t.get F.RED_CTX_COUNT_SAA_REJECT c = s.get F.RED_CTX_COUNT_SAA_REJECT c))

/-- A crib or paddock load is refused by kind, pin, range or address; a started one ends with the whole image or an EMPTY target.
Rests on 05_chutes.md, The crib (R234 to R236), 05_chutes.md, Table 5.13, 06_reduction.md, Window centroiding (R275 to R277),
06_reduction.md, Table 6.11, 06_reduction.md, R305. -/
def Obligations.CribAndPaddockLoadsEndWholeOrEmpty : Prop :=
  (∀ (v : Word) (s : State),
    (s.cribLoad.isSome = true →
      ∃ t, exec (.cribLoadGo v) s = .next t ∧ OnlyRegs [(.CRIB_LOAD, 0)] s t ∧
        t.get F.CRIB_LOAD_RESULT 0 = s.get F.CRIB_LOAD_RESULT 0) ∧
    (s.cribLoad = none →
      ∃ t, exec (.cribLoadGo v) s = .next t ∧
        t.get F.CRIB_LOAD_SLOT = bits v 0 7 ∧ t.get F.CRIB_LOAD_KIND = bits v 8 2 ∧
        t.fen = s.fen ∧ t.ctxs = s.ctxs ∧ t.paddock = s.paddock ∧ t.troughs = s.troughs ∧ t.stalls = s.stalls ∧ t.ctl = s.ctl ∧
        (bits v 8 2 = 0 ∨ bits v 8 2 = 3 → t.get F.CRIB_LOAD_RESULT = 7 ∧ t.cribLoad = none ∧ t.crib = s.crib) ∧
        (bits v 8 2 = 1 ∨ bits v 8 2 = 2 →
          (s.cribPinned (bits v 0 7) = true → t.get F.CRIB_LOAD_RESULT = 3 ∧ t.cribLoad = none ∧ t.crib = s.crib) ∧
          (s.cribPinned (bits v 0 7) = false →
            (0x1800000000 < s.get F.CRIB_LOAD_ADDR_ADDR * 64 + 262144 →
              t.get F.CRIB_LOAD_RESULT = 6 ∧ t.cribLoad = none ∧ t.crib = s.crib) ∧
            (s.get F.CRIB_LOAD_ADDR_ADDR * 64 + 262144 ≤ 0x1800000000 →
              t.get F.CRIB_LOAD_RESULT = 1 ∧ t.isOn F.CRIB_LOAD_GO = true ∧ t.cribState (bits v 0 7) = 3 ∧
                (∀ k, k ≠ bits v 0 7 → t.cribState k = s.cribState k) ∧
                (∃ l, t.cribLoad = some l ∧ l.slot = bits v 0 7 ∧ l.kind = bits v 8 2 ∧ l.image.length = 32768)))))) ∧
  (∀ s : State,
    (s.cribLoad = none → exec .cribLoadComplete s = .next s) ∧
    (∀ l, s.cribLoad = some l →
      ∃ t, exec .cribLoadComplete s = .next t ∧ t.cribLoad = none ∧ RegsBut [(.CRIB_LOAD, 0)] s t ∧ t.isOn F.CRIB_LOAD_GO = false ∧
        (∀ k, k ≠ l.slot → Tab.get CribSlot.zero t.crib k = Tab.get CribSlot.zero s.crib k) ∧
        { t with regs := s.regs, crib := s.crib, cribLoad := s.cribLoad } = s ∧
        (l.poison = true → t.cribState l.slot = 0 ∧ t.get F.CRIB_LOAD_RESULT = 5) ∧
        (l.poison = false → crc32c (l.image.flatMap fun w => bytesOfNat 8 w.toNat) ≠ s.get F.CRIB_LOAD_CRC_CRC →
          t.cribState l.slot = 0 ∧ t.get F.CRIB_LOAD_RESULT = 4) ∧
        (l.poison = false → crc32c (l.image.flatMap fun w => bytesOfNat 8 w.toNat) = s.get F.CRIB_LOAD_CRC_CRC →
          t.cribState l.slot = l.kind ∧ t.get F.CRIB_LOAD_RESULT = 2 ∧
          ∀ i, i < 2 * l.image.length → Tab.get 0 (Tab.get CribSlot.zero t.crib l.slot).entries i =
            bits ((l.image[i / 2]?).getD 0) (32 * (i % 2)) (if l.kind = 1 then 20 else 16)))) ∧
  (∀ (v : Word) (s : State),
    (s.padLoad.isSome = true →
      ∃ t, exec (.paddockLoadGo v) s = .next t ∧ OnlyRegs [(.PADDOCK_LOAD, 0)] s t ∧
        t.get F.PADDOCK_LOAD_RESULT = s.get F.PADDOCK_LOAD_RESULT) ∧
    (s.padLoad = none →
      ∃ t, exec (.paddockLoadGo v) s = .next t ∧
        (∀ k, k < 64 → k ≠ bits v 0 6 → t.rd .PADDOCK_SET k = s.rd .PADDOCK_SET k) ∧
        t.fen = s.fen ∧ t.ctxs = s.ctxs ∧ t.paddock = s.paddock ∧ t.crib = s.crib ∧ t.troughs = s.troughs ∧ t.stalls = s.stalls ∧
        (let k := bits v 0 6
         let first := s.get F.PADDOCK_LOAD_RANGE_FIRST
         let count := s.get F.PADDOCK_LOAD_RANGE_COUNT
         let bad := 65536 < first + count ∨ count = 0 ∨ 16384 < count ∨
           ∃ j, j < 64 ∧ j ≠ k ∧ s.get F.PADDOCK_SET_STATE j ≠ 0 ∧ s.get F.PADDOCK_SET_FIRST j < first + count ∧
             first < s.get F.PADDOCK_SET_FIRST j + s.get F.PADDOCK_SET_COUNT j
         (s.padPinned k = true → t.get F.PADDOCK_LOAD_RESULT = 3 ∧ t.padLoad = none ∧ t.rd .PADDOCK_SET k = s.rd .PADDOCK_SET k) ∧
         (s.padPinned k = false → bad → t.get F.PADDOCK_LOAD_RESULT = 7 ∧ t.padLoad = none ∧ t.get F.PADDOCK_SET_STATE k = 0) ∧
         (s.padPinned k = false → ¬ bad → 0x1800000000 < s.get F.PADDOCK_LOAD_ADDR_ADDR * 64 + 8 * count →
           t.get F.PADDOCK_LOAD_RESULT = 6 ∧ t.padLoad = none ∧ t.get F.PADDOCK_SET_STATE k = 0) ∧
         (s.padPinned k = false → ¬ bad → s.get F.PADDOCK_LOAD_ADDR_ADDR * 64 + 8 * count ≤ 0x1800000000 →
           t.get F.PADDOCK_LOAD_RESULT = 1 ∧ t.get F.PADDOCK_SET_STATE k = 2 ∧ t.get F.PADDOCK_SET_FIRST k = first ∧
           t.get F.PADDOCK_SET_COUNT k = count ∧ ∃ l, t.padLoad = some l ∧ l.slot = k ∧ l.image.length = count)))) ∧
  (∀ s : State,
    (s.padLoad = none → exec .paddockLoadComplete s = .next s) ∧
    (∀ l, s.padLoad = some l → l.slot < 64 →
      ∃ t, exec .paddockLoadComplete s = .next t ∧ t.padLoad = none ∧ RegsBut [(.PADDOCK_LOAD, 0), (.PADDOCK_SET, l.slot)] s t ∧
        { t with regs := s.regs, paddock := s.paddock, padLoad := s.padLoad } = s ∧
        (let good := crc32c (l.image.flatMap fun w => bytesOfNat 8 w.toNat) = s.get F.PADDOCK_LOAD_CRC_CRC
         (l.poison = true → t.get F.PADDOCK_LOAD_RESULT = 5 ∧ t.get F.PADDOCK_SET_STATE l.slot = 0 ∧ t.paddock = s.paddock) ∧
         (l.poison = false → ¬ good → t.get F.PADDOCK_LOAD_RESULT = 4 ∧ t.get F.PADDOCK_SET_STATE l.slot = 0 ∧ t.paddock = s.paddock) ∧
         (l.poison = false → good → badEntries l.image = true →
           t.get F.PADDOCK_LOAD_RESULT = 8 ∧ t.get F.PADDOCK_SET_STATE l.slot = 0 ∧ t.paddock = s.paddock) ∧
         (l.poison = false → good → badEntries l.image = false →
           t.get F.PADDOCK_LOAD_RESULT = 2 ∧ t.get F.PADDOCK_SET_STATE l.slot = 1 ∧
           ∀ i, Tab.get 0 t.paddock i =
             if s.get F.PADDOCK_SET_FIRST l.slot ≤ i ∧ i < s.get F.PADDOCK_SET_FIRST l.slot + l.image.length
             then (l.image[i - s.get F.PADDOCK_SET_FIRST l.slot]?).getD 0 else Tab.get 0 s.paddock i)))) ∧
  (∀ (c : Fin 64) (s : State), ∃ t, exec (.redCntClear c) s = .next t ∧ OnlyRegs [(.RED_CTX_COUNT, c.val)] s t ∧ t.rd .RED_CTX_COUNT c = 0)

/-- A converter meets starts, stops, units, run ends, urgent requests, configuration and calibration by its state; T0 is the
lattice instant 1,600 ticks on. Rests on 07_analogue_capture.md, Converters and the sample lattice (R309 to R313),
07_analogue_capture.md, Correction of each sample (R314 to R316), 07_analogue_capture.md, Runs, urgent conversions and their
collisions (R317 to R319), 07_analogue_capture.md, Recording into the fen (R320 to R324), 07_analogue_capture.md, Power and
modes (R325, R326), 07_analogue_capture.md, System calibration (R327, R328), 07_analogue_capture.md, Registers (R337 to
R343). -/
def Obligations.ConvertersStartRecordConvertAndCalibrateByTheirTables : Prop :=
  (∀ (n : Fin 8) (s : State), s.vstOf n = none →
    (s.adcSt n = 0 → exec (.adcCtrlStart n) s = .next s) ∧
    (s.adcSt n = 1 → s.inHold = false → s.badBuffer n = false →
      ∃ t, exec (.adcCtrlStart n) s = .next t ∧ t.adcSt n = 2 ∧
        (t.rd .ADC_RUN_INFO n).toNat = (t.adc n).t0 % 2 ^ 64 ∧ s.now + 1600 ≤ (t.adc n).t0 ∧
        (s.adcLow n = false → (t.adc n).t0 % 5 = 0 ∧ (t.adc n).t0 < s.now + 1605) ∧
        (s.adcLow n = true → (t.adc n).t0 % 40 = 0 ∧ (t.adc n).t0 < s.now + 1640) ∧
        t.get F.ADC_STATUS_RUN_INPUT n = s.get F.ADC_CFG_INPUT n ∧ t.get F.ADC_COUNT_RUNS n = (s.get F.ADC_COUNT_RUNS n + 1) % 65536 ∧
        (t.adc n).offset = signed 16 (s.get F.ADC_COEF_OFFSET (7 * n.val + s.get F.ADC_CFG_INPUT n)) ∧
        (t.adc n).gain = s.get F.ADC_COEF_GAIN (7 * n.val + s.get F.ADC_CFG_INPUT n) ∧ (t.adc n).taken = 0 ∧
        RegsBut [(.ADC_STATUS, n.val), (.ADC_RUN_INFO, n.val), (.ADC_COUNT, n.val)] s t ∧
        (∀ k, k ≠ n.val → t.adc k = s.adc k) ∧ { t with regs := s.regs, adcs := s.adcs } = s) ∧
    ((s.adcSt n = 4 ∨ s.adcSt n = 5 ∨ 0 < s.adcSt n ∧ s.inHold = true) →
      ∃ t, exec (.adcCtrlStart n) s = .next t ∧ OnlyRegs [(.ADC_COUNT, n.val)] s t ∧
        t.get F.ADC_COUNT_START_IGNORED n = min (s.get F.ADC_COUNT_START_IGNORED n + 1) 65535) ∧
    (s.adcSt n = 2 → s.inHold = false → (s.adc n).arrived / 10 ≠ s.now / 10 →
      ∃ t, exec (.adcCtrlStart n) s = .next t ∧ OnlyRegs [(.ADC_COUNT, n.val)] s t ∧
        t.get F.ADC_COUNT_START_IGNORED n = min (s.get F.ADC_COUNT_START_IGNORED n + 1) 65535) ∧
    (s.adcSt n = 1 → s.inHold = false → s.badBuffer n = true →
      ∃ t, exec (.adcCtrlStart n) s = .next t ∧ OnlyRegs [(.ADC_COUNT, n.val), (.ADC_STATUS, n.val)] s t ∧ t.adcSt n = 1 ∧
        t.isOn F.ADC_STATUS_CFG_REJECTED n = true ∧ t.get F.ADC_COUNT_START_IGNORED n = min (s.get F.ADC_COUNT_START_IGNORED n + 1) 65535) ∧
    (s.adcSt n = 3 → s.inHold = false → s.badBuffer n = false →
      ∃ t, exec (.adcCtrlStart n) s = .next t ∧ t.adcSt n = 2 ∧
        t.get F.ADC_COUNT_URGENT_DROP n = min (s.get F.ADC_COUNT_URGENT_DROP n + 1) 65535 ∧ (∃ e ∈ t.yard.raised, e.id = 401 + 2 * n.val)) ∧
    (s.isOn F.ADC_CFG_CONS_URGENT n = true ∨ s.takeEvent (304 + n) = none → exec (.adcYardStart n) s = .next s) ∧
    (∀ tick u, s.isOn F.ADC_CFG_CONS_URGENT n = false → s.takeEvent (304 + n) = some (tick, u) → s.adcSt n = 1 → s.inHold = false →
      s.badBuffer n = false → s.adcLow n = false →
      ∃ t, exec (.adcYardStart n) s = .next t ∧ t.adcSt n = 2 ∧ t.yard = u.yard ∧ (t.adc n).t0 % 5 = 0 ∧
        tick + 1600 ≤ (t.adc n).t0 ∧ (t.adc n).t0 < tick + 1605) ∧
    (s.adcSt n ≠ 2 → exec (.adcCtrlStop n) s = .next s) ∧
    (s.adcSt n = 2 →
      ∃ t, exec (.adcCtrlStop n) s = .next t ∧ { t with adcs := s.adcs } = s ∧ (∀ k, k ≠ n.val → t.adc k = s.adc k) ∧
        t.adc n = { s.adc n with stopAt := some (min ((s.adc n).stopAt.getD (s.now + 1600)) (s.now + 1600)) })) ∧
  (∀ (n : Fin 8) (s : State), ∃ t, exec (.adcCntClear n) s = .next t ∧ OnlyRegs [(.ADC_COUNT, n.val)] s t ∧ t.rd .ADC_COUNT n = 0) ∧
  (∀ (mask : BitVec 8) (s : State), (∀ k, k < 8 → s.vstOf k = none) → s.inHold = false →
    (∃ t, exec (.adcGlobalStart mask) s = .next t ∧
      (∀ k, k < 8 → mask.getLsbD k = false → t.adc k = s.adc k ∧ t.adcSt k = s.adcSt k) ∧
      (∀ k, k < 8 → mask.getLsbD k = true → s.adcSt k = 1 → s.badBuffer k = false → t.adcSt k = 2 ∧ (t.adc k).start = s.now)) ∧
    (∃ t, exec (.adcGlobalStop mask) s = .next t ∧ { t with adcs := s.adcs } = s ∧
      (∀ k, k < 8 → mask.getLsbD k = false ∨ s.adcSt k ≠ 2 → t.adc k = s.adc k) ∧
      (∀ k, k < 8 → mask.getLsbD k = true → s.adcSt k = 2 → (s.adc k).stopAt = none → (t.adc k).stopAt = some (s.now + 1600)))) ∧
  (∀ (n : Fin 8) (xs : List (BitVec 14)) (s : State),
    (s.adcSt n ≠ 2 ∨ (s.adc n).dest = 1 ∨ xs.length ≠ 32 → exec (.adcUnitCommit n xs) s = .next s) ∧
    (s.adcSt n = 2 → (s.adc n).dest ≠ 1 → xs.length = 32 → (∀ k, s.runLimit n = some k → (s.adc n).taken + 32 ≤ k) →
      s.get F.ADC_BUF_POS_WR_OFFSET n % 64 = 0 → 16 ≤ s.get F.ADC_BUF_SIZE_LOG2 n → s.get F.ADC_BUF_SIZE_LOG2 n ≤ 34 →
      (let size := 2 ^ s.get F.ADC_BUF_SIZE_LOG2 n
       let a := s.get F.ADC_BUF_BASE n * 65536 + s.get F.ADC_BUF_POS_WR_OFFSET n % size
       (∀ k, k < 64 → s.fenUsable (a + k) = true) →
       ∃ t, exec (.adcUnitCommit n xs) s = .next t ∧ (t.adc n).taken = (s.adc n).taken + 32 ∧
        t.get F.ADC_BUF_POS_WR_OFFSET n = (s.get F.ADC_BUF_POS_WR_OFFSET n + 64) % size ∧
        (∀ i x, xs[i]? = some x →
          let y := max (-8192) (min 8191 (((x.toInt + (s.adc n).offset) * (s.adc n).gain + 32768) / 65536))
          t.fenByte (a + 2 * i) = BitVec.ofNat 8 (unsigned 16 y) ∧ t.fenByte (a + 2 * i + 1) = BitVec.ofNat 8 (unsigned 16 y / 256)) ∧
        (∀ j, (j < a ∨ a + 64 ≤ j) → t.fenByte j = s.fenByte j) ∧ t.adcSt n = 2))) ∧
  (∀ (n : Fin 8) (xs : List (BitVec 14)) (stray : Nat) (s : State),
    (s.adcSt n ≠ 2 ∨ 32 ≤ xs.length → exec (.adcRunEnd n xs stray) s = .next s) ∧
    (s.adcSt n = 2 → xs.length < 32 → (s.adc n).modeEnd = false → s.runLimit n = none → exec (.adcRunEnd n xs stray) s = .next s) ∧
    (∀ k, s.adcSt n = 2 → xs.length < 32 → (s.adc n).modeEnd = false → (s.adc n).vst = none → s.runLimit n = some k →
      ((s.adc n).dest = 1 ∨ (s.adc n).taken + xs.length = k) →
      ∃ t, exec (.adcRunEnd n xs stray) s = .next t ∧ t.adcSt n = 1 ∧
        (t.isOn F.ADC_STATUS_LAST_STOPPED n = true ↔ (s.adc n).stopAt.isSome = true ∧ ((s.adc n).len = 0 ∨ k < (s.adc n).len)) ∧
        (∃ e ∈ t.yard.raised, e.id = 400 + 2 * n.val) ∧ (∀ m, m ≠ n.val → t.adc m = s.adc m) ∧
        (s.get F.ADC_CFG_RUN_TROUGH n < 400 → t.troughs = s.troughs) ∧
        (400 ≤ s.get F.ADC_CFG_RUN_TROUGH n → s.hasRoom (s.get F.ADC_CFG_RUN_TROUGH n) 4 →
          (t.trg (s.get F.ADC_CFG_RUN_TROUGH n)).vis = (s.trg (s.get F.ADC_CFG_RUN_TROUGH n)).vis + 4))) ∧
  (∀ (n : Fin 8) (s : State),
    (s.adcSt n = 0 → exec (.adcUrgentRequest n false) s = .next s) ∧
    (s.adcSt n = 1 → ∃ t, exec (.adcUrgentRequest n false) s = .next t ∧ t.adcSt n = 3 ∧ t.adc n = { s.adc n with urgent := s.now } ∧
      OnlyRegs [(.ADC_STATUS, n.val)] { s with adcs := t.adcs } t) ∧
    (1 < s.adcSt n → ∃ t, exec (.adcUrgentRequest n false) s = .next t ∧ t.adcSt n = s.adcSt n ∧ t.adcs = s.adcs ∧
      t.get F.ADC_COUNT_URGENT_DROP n = min (s.get F.ADC_COUNT_URGENT_DROP n + 1) 65535 ∧ (∃ e ∈ t.yard.raised, e.id = 401 + 2 * n.val)) ∧
    (s.isOn F.ADC_CFG_CONS_URGENT n = false ∨ s.takeEvent (304 + n) = none → exec (.adcUrgentRequest n true) s = .next s) ∧
    (∀ tick u, s.isOn F.ADC_CFG_CONS_URGENT n = true → s.takeEvent (304 + n) = some (tick, u) →
      ∃ t, exec (.adcUrgentRequest n true) s = .next t ∧
        (s.adcSt n = 1 → s.inHold = false → t.adcSt n = 3 ∧ (t.adc n).urgent = tick) ∧
        (0 < s.adcSt n → s.inHold = true → t.get F.ADC_COUNT_URGENT_DROP n = min (s.get F.ADC_COUNT_URGENT_DROP n + 1) 65535)) ∧
    (∀ x, s.adcSt n ≠ 3 → exec (.adcUrgentResult n x) s = .next s) ∧
    (∀ x, s.adcSt n = 3 → ∃ t, exec (.adcUrgentResult n x) s = .next t ∧ t.adcSt n = 1 ∧ t.isOn F.ADC_URGENT_RESULT_VALID n = true ∧
      t.get F.ADC_URGENT_RESULT_INPUT n = s.get F.ADC_CFG_URGENT_INPUT n ∧ (∃ e ∈ t.yard.raised, e.id = 400 + 2 * n.val) ∧
      t.get F.ADC_URGENT_RESULT_SAMPLE n = unsigned 16 (max (-8192) (min 8191 (((BitVec.toInt x +
        signed 16 (s.get F.ADC_COEF_OFFSET (7 * n.val + s.get F.ADC_CFG_URGENT_INPUT n))) *
        s.get F.ADC_COEF_GAIN (7 * n.val + s.get F.ADC_CFG_URGENT_INPUT n) + 32768) / 65536)))) ∧
    (∃ t, exec (.urgentResultRead n) s = .next t ∧ OnlyRegs [(.ADC_URGENT_RESULT, n.val)] { s with sent := t.sent } t ∧
      t.isOn F.ADC_URGENT_RESULT_VALID n = false ∧ t.sent = s.sent ++ [.completion 0 0 (bytesOfNat 8 (s.rd .ADC_URGENT_RESULT n).toNat) false]) ∧
    (s.adcSt n = 5 → ∃ t, exec (.adcWakeComplete n) s = .next t ∧ t.adcSt n = 1 ∧ OnlyRegs [(.ADC_STATUS, n.val)] s t) ∧
    (s.adcSt n ≠ 5 → exec (.adcWakeComplete n) s = .next s) ∧
    (s.adcSt n = 0 ∨ s.adcLow n = true ∨ s.isOn F.ADC_CFG_MMC_FREEZE n = true → exec (.mmcConverged n) s = .next s) ∧
    (s.adcSt n ≠ 0 → s.adcLow n = false → s.isOn F.ADC_CFG_MMC_FREEZE n = false →
      ∃ t, exec (.mmcConverged n) s = .next t ∧ t.isOn F.ADC_STATUS_MMC_CONVERGED n = true ∧ OnlyRegs [(.ADC_STATUS, n.val)] s t)) ∧
  (∀ (n : Fin 8) (v : Word) (s : State),
    (∃ t, exec (.adcCfgWrite n v) s = .next t ∧ OnlyRegs [(.ADC_CFG, n.val), (.ADC_STATUS, n.val)] s t ∧
      t.get F.ADC_CFG_INPUT n = (if bits v 0 3 = 7 then s.get F.ADC_CFG_INPUT n else bits v 0 3) ∧
      t.get F.ADC_CFG_URGENT_INPUT n = (if bits v 8 3 = 7 then s.get F.ADC_CFG_URGENT_INPUT n else bits v 8 3) ∧
      t.get F.ADC_CFG_DEST n = (if s.adcSt n ≠ 1 ∨ bits v 3 2 = 3 then s.get F.ADC_CFG_DEST n else bits v 3 2) ∧
      t.get F.ADC_CFG_LOWPWR n = (if s.adcSt n ≠ 1 then s.get F.ADC_CFG_LOWPWR n else bits v 5 1) ∧
      t.get F.ADC_CFG_RUN_TROUGH n = (if s.adcSt n ≠ 1 then s.get F.ADC_CFG_RUN_TROUGH n else bits v 16 16) ∧
      (bits v 0 3 = 7 → s.get F.ADC_CFG_INPUT n ≠ 7 → t.isOn F.ADC_STATUS_CFG_REJECTED n = true) ∧
      (s.adcSt n = 1 → s.get F.ADC_CFG_LOWPWR n = 1 → bit v 5 = false → t.adcSt n = 5 ∧ t.adcLow n = false) ∧
      (s.adcSt n = 1 → s.get F.ADC_CFG_LOWPWR n = 0 → bit v 5 = true → t.adcSt n = 1 ∧ t.adcLow n = true)) ∧
    (∃ t, exec (.adcBufWrite n v) s = .next t ∧ OnlyRegs [(.ADC_BUF, n.val), (.ADC_STATUS, n.val)] s t ∧
      (let no := s.adcSt n ≠ 1 ∨ bits v 16 21 * 65536 % 2 ^ bits v 0 6 ≠ 0 ∨ 0x1800000000 < bits v 16 21 * 65536 + 2 ^ bits v 0 6
       (no → t.isOn F.ADC_STATUS_CFG_REJECTED n = true ∧ t.rd .ADC_BUF n = s.rd .ADC_BUF n) ∧
       (¬ no → t.get F.ADC_BUF_BASE n = bits v 16 21 ∧ t.get F.ADC_BUF_SIZE_LOG2 n = bits v 0 6))) ∧
    (s.adcSt n ≠ 1 ∨ bits v 0 3 = 7 → ∀ c, (c = .adcCalZero n v ∨ c = .adcCalFull n v) →
      ∃ t, exec c s = .next t ∧ t.get F.ADC_CAL_RESULT n = 4 ∧ t.adcSt n = s.adcSt n ∧ t.get F.ADC_CAL_GO n = 0 ∧
        RegsBut [(.ADC_CAL, n.val)] s t) ∧
    (s.adcSt n = 1 → bits v 0 3 ≠ 7 → s.inHold = false → ∀ c, (c = .adcCalZero n v ∨
        c = .adcCalFull n v ∧ (s.adc n).zeroFor = some (bits v 0 3)) →
      ∃ t, exec c s = .next t ∧ t.adcSt n = 4 ∧ t.get F.ADC_CAL_RESULT n = 1 ∧ t.get F.ADC_CAL_GO n = 1 ∧
        (t.adc n).cal = some (bits v 0 3, decide (c = .adcCalFull n v)) ∧ RegsBut [(.ADC_CAL, n.val), (.ADC_STATUS, n.val)] s t) ∧
    (s.adcSt n = 1 → bits v 0 3 ≠ 7 → s.inHold = false → (s.adc n).zeroFor ≠ some (bits v 0 3) →
      ∃ t, exec (.adcCalFull n v) s = .next t ∧ t.adcSt n = 1 ∧ t.get F.ADC_CAL_RESULT n = 6 ∧ RegsBut [(.ADC_CAL, n.val)] s t)) ∧
  (∀ (n : Fin 8) (sum : Int) (s : State),
    ((s.adc n).cal = none ∨ s.adcSt n ≠ 4 → exec (.adcCalPhaseEnd n sum) s = .next s) ∧
    (∀ i, (s.adc n).cal = some (i, false) → s.adcSt n = 4 →
      ∃ t, exec (.adcCalPhaseEnd n sum) s = .next t ∧ t.adcSt n = 1 ∧ t.get F.ADC_CAL_RESULT n = 2 ∧ t.get F.ADC_CAL_GO n = 0 ∧
        t.get F.ADC_CAL_MEAN_ZERO n = unsigned 32 sum ∧ (t.adc n).zeroFor = some i) ∧
    (∀ i, (s.adc n).cal = some (i, true) → i < 7 → s.adcSt n = 4 → -2 ^ 31 ≤ sum → sum < 2 ^ 31 →
      ∃ t, exec (.adcCalPhaseEnd n sum) s = .next t ∧ t.adcSt n = 1 ∧ t.get F.ADC_CAL_MEAN_FULL n = unsigned 32 sum ∧
        (let z := signed 32 (s.get F.ADC_CAL_MEAN_ZERO n)
         let g := (2 * (min (s.get F.ADC_CAL_CAL_TARGET n) 8191 * 2 ^ 32) + (sum - z)) / (2 * (sum - z))
         (sum ≤ z ∨ 0x3FFFF < g → t.get F.ADC_CAL_RESULT n = 5 ∧ t.rd .ADC_COEF (7 * n.val + i) = s.rd .ADC_COEF (7 * n.val + i)) ∧
         (z < sum → g ≤ 0x3FFFF → t.get F.ADC_CAL_RESULT n = 3 ∧ t.get F.ADC_COEF_GAIN (7 * n.val + i) = g.toNat ∧
           t.get F.ADC_COEF_OFFSET (7 * n.val + i) = unsigned 16 (-((2 * z + 65536) / 131072))))))

/-- A virtual stall is enabled by rule, starts frames on its lattice, sums each dwell into pixels, passes lines and ends with its
scan. Rests on 07_analogue_capture.md, Scan-synchronous integration (R329 to R335), 07_analogue_capture.md, Registers (R344,
R345). -/
def Obligations.VirtualStallsTurnPixelsIntoFrames : Prop :=
  (∀ (v : Fin 4) (w : Word) (s : State), s.vstOn v = false →
    (let s1 := s.wr .VST_CFG v (setBits (writeFields .VST_CFG (s.rd .VST_CFG v) (setBits w 14 1 1) allBytes) 14 1 0)
     ∃ t, exec (.vstEnable v w) s = .next t ∧ t.get F.VST_CFG_MEMBERS v = bits w 0 8 ∧
      (s1.vstRefused v = true → t.vstOn v = false ∧ t.isOn F.VST_STATUS_CFG_REJECTED v = true ∧
        OnlyRegs [(.VST_CFG, v.val), (.VST_STATUS, v.val)] s t) ∧
      (s1.vstRefused v = false → t.vstOn v = true ∧ t.get F.VST_STATUS_STATE v = 1 ∧ t.vst v = Vst.zero ∧
        (∃ e ∈ t.yard.raised, e.id = 64 + 4 * (16 + v.val) + 2) ∧ t.adcs = s.adcs ∧ t.ctxs = s.ctxs))) ∧
  (∀ (v : Fin 4) (w : Word) (s : State),
    (s.vstOn v = true → ∃ t, exec (.vstEnable v w) s = .next t ∧ t.vstOn v = true ∧ OnlyRegs [(.VST_STATUS, v.val)] s t) ∧
    (s.vstOn v = false → ∃ t, exec (.vstDisable v w) s = .next t ∧ t.vstOn v = false ∧ OnlyRegs [(.VST_CFG, v.val)] s t) ∧
    (s.vstOn v = true → (s.vst v).frameOpen = false → (∀ n, s.vstLead v = some n → s.vstOf n = some v → s.adcSt n ≠ 2) →
      ∃ t, exec (.vstDisable v w) s = .next t ∧ t.vstOn v = false ∧ t.get F.VST_STATUS_STATE v = 0 ∧
        (∃ e ∈ t.yard.raised, e.id = 64 + 4 * (16 + v.val) + 3) ∧ t.adcs = s.adcs ∧ t.ctxs = s.ctxs)) ∧
  (∀ (v : Fin 4) (s : State),
    (s.get F.VST_STATUS_STATE v ≠ 2 ∨ (s.vst v).frameOpen = true → exec (.vstFrameStart v) s = .next s) ∧
    (s.get F.VST_STATUS_STATE v = 2 → (s.vst v).frameOpen = false → (s.vst v).px = 0 → (s.vst v).ending = none →
      s.get F.VST_GEOM_FRAMES v = 0 → (∀ n, (s.adc n).modeEnd = false) → (s.stall (16 + v)).frame = none →
      s.ctxOfStall (16 + v) = none →
      ∃ t, exec (.vstFrameStart v) s = .next t ∧ (t.vst v).frameOpen = true ∧ (t.vst v).nextId = ((s.vst v).nextId + 1) % 2 ^ 32 ∧
        t.get F.VST_STATUS_LAST_FRAME_ID v = (s.vst v).nextId % 2 ^ 32 ∧
        t.get F.VST_COUNT_FRAMES v = (s.get F.VST_COUNT_FRAMES v + 1) % 2 ^ 32 ∧
        (t.stall (16 + v)).skip = some ((s.vst v).nextId % 256, false) ∧ t.adcs = s.adcs)) ∧
  (∀ (v : Fin 4) (xs : List (BitVec 14)) (s : State) (n : Nat), s.vstMembers v = [n] → (s.vst v).frameOpen = true →
    s.get F.VST_STATUS_STATE v = 2 → (s.vst v).ending = none → (s.adc n).modeEnd = false → (s.adc n).offset = 0 →
    (s.adc n).gain = 65536 → s.isOn F.VST_CFG_MEAN v = true → s.get F.VST_CFG_DEPTH v ≤ 4 →
    ((s.vst v).px % s.vstArea v + 1) % s.get F.VST_GEOM_SCAN_W v ≠ 0 →
    (let sum := (xs.map BitVec.toInt).foldl (· + ·) 0
     let val : Int := if xs = [] then 0 else (2 * sum + (xs.length : Int)) / (2 * (xs.length : Int))
     let out : Int := max 0 (min (val + signed 24 (s.get F.VST_CFG_OUT_OFFSET v)) (2 ^ (8 + 2 * s.get F.VST_CFG_DEPTH v) - 1))
     let good := fun t : State => (t.vst v).px = (s.vst v).px + 1 ∧ (t.vst v).line = (s.vst v).line ++ [out.toNat] ∧
       t.get F.VST_COUNT_SHORT_PIXEL v = (if xs = [] then min (s.get F.VST_COUNT_SHORT_PIXEL v + 1) 65535
         else s.get F.VST_COUNT_SHORT_PIXEL v) ∧ t.stalls = s.stalls ∧ t.troughs = s.troughs ∧ t.fen = s.fen
     (s.isOn F.VST_CFG_TIMING v = false →
       ∃ t, exec (.vstPixelEnd v [xs]) s = .next t ∧ good t ∧
         s.pixelAt v (s.vst v).px + s.get F.VST_TIMING_DWELL v ≤ t.now) ∧
     (s.isOn F.VST_CFG_TIMING v = true → exec (.vstPixelEnd v [xs]) s = .next s ∧
       ∀ tick u, s.isOn F.ADC_CFG_CONS_URGENT n = false → s.takeEvent (304 + n) = some (tick, u) →
         ∃ t, exec (.vstPixelEvent v [xs]) s = .next t ∧ good t ∧ (t.vst v).began = tick + 1600 ∧ t.yard.delivered = u.yard.delivered))) ∧
  (∀ (v : Fin 4) (xs : List (List (BitVec 14))) (s : State), (s.vst v).frameOpen = false →
    exec (.vstPixelEnd v xs) s = .next s ∧ exec (.vstPixelEvent v xs) s = .next s) ∧
  (∀ (v : Fin 4) (s : State),
    (s.isOn F.VST_CFG_TIMING v = false ∨ s.get F.VST_STATUS_STATE v ≠ 2 → exec (.vstDwellTimeout v) s = .next s) ∧
    (s.isOn F.VST_CFG_TIMING v = true → s.get F.VST_STATUS_STATE v = 2 → (s.vst v).ending = none → (∀ n, (s.adc n).modeEnd = false) →
      1600 ≤ (s.vst v).began →
      ∃ t, exec (.vstDwellTimeout v) s = .next t ∧
        (t.vst v).ending = some ((s.vst v).began + s.get F.VST_TIMING_DWELL v) ∧
        (∀ n ∈ s.vstMembers v, s.adcSt n = 2 → (s.adc n).stopAt = none →
          (t.adc n).stopAt = some ((s.vst v).began + s.get F.VST_TIMING_DWELL v)) ∧
        t.regs = s.regs ∧ t.stalls = s.stalls))

/-- FEN_SEG_APPLY judges the whole staged map, and its completion puts the map in effect with every changed segment cleared.
Rests on 08_fen_and_troughs.md, Address space and segments (R347 to R350), 08_fen_and_troughs.md, Table 8.8. -/
def Obligations.SegmentMapsAreCheckedWholeAndClearWhatTheyChange : Prop :=
  (∀ s : State, s.isOn F.FEN_SEG_CTRL_APPLY = false →
    ∃ t, exec .fenSegApply s = .next t ∧ OnlyRegs [(.FEN_SEG_CTRL, 0)] s t ∧
      ((∃ k, k < 96 ∧ segCodeOk (s.staged k) = false ∧ (∀ j, j < k → segCodeOk (s.staged j) = true) ∧
          t.get F.FEN_SEG_CTRL_RESULT = 4 ∧ t.get F.FEN_SEG_CTRL_BAD_SEGMENT = k ∧ t.isOn F.FEN_SEG_CTRL_APPLY = false) ∨
       ((∀ k, k < 96 → segCodeOk (s.staged k) = true) ∧ s.segFits = false ∧
          t.get F.FEN_SEG_CTRL_RESULT = 2 ∧ t.isOn F.FEN_SEG_CTRL_APPLY = false) ∨
       ((∀ k, k < 96 → segCodeOk (s.staged k) = true) ∧ s.segFits = true ∧
          (∃ k ∈ s.segChanges, (∃ r ∈ s.fenInUse, inSegment k r = true) ∧
            t.get F.FEN_SEG_CTRL_RESULT = 3 ∧ t.get F.FEN_SEG_CTRL_BAD_SEGMENT = k ∧ t.isOn F.FEN_SEG_CTRL_APPLY = false)) ∨
       ((∀ k, k < 96 → segCodeOk (s.staged k) = true) ∧ s.segFits = true ∧
          (∀ k ∈ s.segChanges, ∀ r ∈ s.fenInUse, inSegment k r = false) ∧
          t.get F.FEN_SEG_CTRL_RESULT = 5 ∧ t.isOn F.FEN_SEG_CTRL_APPLY = true))) ∧
  (∀ s : State, s.isOn F.FEN_SEG_CTRL_APPLY = true →
    (∃ t, exec .fenSegApply s = .next t ∧ OnlyRegs [(.FEN_SEG_CTRL, 0)] s t ∧ t.get F.FEN_SEG_CTRL_RESULT = 5) ∧
    (∃ t, exec .fenSegApplyComplete s = .next t ∧ t.get F.FEN_SEG_CTRL_RESULT = 1 ∧ t.isOn F.FEN_SEG_CTRL_APPLY = false ∧
      (∀ m, m < 6 → t.rd .FEN_SEG_ACTIVE m = s.rd .FEN_SEG_MAP m) ∧
      (∀ a, a / 0x40000000 ∈ s.segChanges → s.staged (a / 0x40000000) ≠ 1 → t.fenByte a = 0 ∧ t.fenCheck a = 0) ∧
      (∀ a, (a / 0x40000000 ∉ s.segChanges ∨ s.staged (a / 0x40000000) = 1) → t.fenByte a = s.fenByte a ∧ t.fenCheck a = s.fenCheck a) ∧
      { t with regs := s.regs, fen := s.fen, fenChk := s.fenChk, fenFix := s.fenFix } = s))

/-- Reads and partial writes of fen words: what is counted, what is corrected, what stays poisoned, and which bytes change. Rests
on 08_fen_and_troughs.md, Protection and scrubbing (R351 to R357), 08_fen_and_troughs.md, Address space and segments (R346),
08_fen_and_troughs.md, Registers (R399, R400). -/
def Obligations.FenWordsAreReadCorrectedMergedAndCounted : Prop :=
  (∀ (addr : Nat) (e : Ecc) (s : State), s.fenUsable (addr / 8 * 8) = false →
    ∃ t, exec (.fenWordRead addr e) s = .next t ∧ OnlyRegs [(.FEN_SCRUB_COUNT, 0)] s t ∧
      t.get F.FEN_SCRUB_COUNT_BAD_ADDR = min (s.get F.FEN_SCRUB_COUNT_BAD_ADDR + 1) 0xFFFF) ∧
  (∀ (addr : Nat) (s : State), s.fenUsable (addr / 8 * 8) = true → s.fenCheck addr = 0 →
    exec (.fenWordRead addr .clean) s = .next s ∧
    (∃ t, exec (.fenWordRead addr .single) s = .next t ∧ t.get F.FEN_ECC_CORR = min (s.get F.FEN_ECC_CORR + 1) 0xFFFFFFFF ∧
      t.fen = s.fen ∧ t.fenChk = s.fenChk ∧ t.fenFix.find? (fun e => e.1 == addr / 8) = some (addr / 8, s.fenWord (addr / 8 * 8)) ∧
      { t with regs := s.regs, fenFix := s.fenFix } = s) ∧
    (∃ t, exec (.fenWordRead addr .double) s = .next t ∧ t.get F.FEN_ECC_UE = min (s.get F.FEN_ECC_UE + 1) 0xFFFF ∧
      t.fen = s.fen ∧ t.fenCheck addr = 2 ∧
      (s.isOn F.FEN_UE_ADDR_VALID = false → t.get F.FEN_UE_ADDR_ADDR = addr / 8) ∧
      (∃ a, t.mgmt.raised = s.mgmt.raised ++ [a] ∧ a.code = 0x18 ∧ a.data = BitVec.ofNat 64 (addr / 8 * 8)))) ∧
  (∀ (addr : Nat) (w : Word) (s : State), s.fenFix.find? (fun e => e.1 == addr / 8) = some (addr / 8, w) →
    (∃ t, exec (.fenCorrectionWriteback addr true) s = .next t ∧ t.fen = s.fen ∧ t.fenChk = s.fenChk ∧
      t.fenFix = Tab.erase (addr / 8) s.fenFix ∧ t.regs = s.regs) ∧
    (∃ t, exec (.fenCorrectionWriteback addr false) s = .next t ∧ t.fenWord (addr / 8 * 8) = w ∧ t.fenCheck addr = 0 ∧
      t.fenFix = Tab.erase (addr / 8) s.fenFix ∧ (∀ a, (a < addr / 8 * 8 ∨ addr / 8 * 8 + 8 ≤ a) → t.fenByte a = s.fenByte a))) ∧
  (∀ (addr : Nat) (data : Word) (be : BitVec 8) (s : State), s.fenUsable (addr / 8 * 8) = true → be ≠ 0 →
    (be = 0xFF ∨ s.fenCheck addr ≤ 1) →
    ∃ t, exec (.fenPartialWrite addr data be .clean) s = .next t ∧
      (∀ k, k < 8 → t.fenByte (addr / 8 * 8 + k) =
        if be.getLsbD k then BitVec.ofNat 8 (bits data (8 * k) 8) else s.fenByte (addr / 8 * 8 + k)) ∧
      (∀ a, (a < addr / 8 * 8 ∨ addr / 8 * 8 + 8 ≤ a) → t.fenByte a = s.fenByte a) ∧
      t.fenCheck addr = (if be = 0xFF then 0 else s.fenCheck addr)) ∧
  (∀ s : State, ∃ t, exec .fenScrubCntClear s = .next t ∧ OnlyRegs [(.FEN_ECC, 0), (.FEN_SCRUB_COUNT, 0)] s t ∧
    t.rd .FEN_ECC = 0 ∧ t.rd .FEN_SCRUB_COUNT = 0)

/-- A pool is enabled to FILLING, filled with every block address in ascending order, and disabled or forced; a release gives one
block back. Rests on 08_fen_and_troughs.md, Pools (R359 to R366), 08_fen_and_troughs.md, Registers (R401, R403 to R405). -/
def Obligations.PoolsFillLendAndTakeBackTheirBlocks : Prop :=
  (∀ (p : Fin 256) (v : Word) (s : State), s.poolOn p.val = false → bit v 4 = false →
    ∃ t, exec (.poolEnable p v) s = .next t ∧ t.fen = s.fen ∧ t.outBits = s.outBits ∧
      (let s1 := s.wr .FEN_POOL_CFG p.val (poolCfgOf (v ||| 1) &&& ~~~1)
       if s1.poolReject p.val = 0 then
         t.poolOn p.val = true ∧ t.get F.FEN_POOL_STATUS_STATE p.val = 1 ∧ t.trgOn (144 + p.val) = true ∧
           t.trgFar (144 + p.val) = true ∧ t.trg (144 + p.val) = Trough.zero
       else t.poolOn p.val = false ∧ t.isOn F.FEN_POOL_STATUS_CFG_REJECTED p.val = true ∧
         t.get F.FEN_POOL_STATUS_REJECT_CODE p.val = s1.poolReject p.val ∧ t.troughs = s.troughs)) ∧
  (∀ (p : Fin 256) (s : State), s.poolOn p.val = true → s.get F.FEN_POOL_STATUS_STATE p.val = 1 →
    s.trg (144 + p.val) = Trough.zero → s.trgOn (144 + p.val) = true → s.ctl.mode ≠ .quiet →
    s.poolBlocks p.val < s.trgSize (144 + p.val) →
    ∃ t, exec (.poolFillComplete p) s = .next t ∧ t.get F.FEN_POOL_STATUS_STATE p.val = 2 ∧
      t.poolFree p.val = s.poolBlocks p.val ∧
      (∀ k, k < s.poolBlocks p.val →
        (t.visWord (144 + p.val) k).data = BitVec.ofNat 64 (s.poolBase p.val + k * 0x10000))) ∧
  (∀ (p : Fin 256) (v : Word) (s : State), s.poolOn p.val = true → s.poolBusy p.val = true →
    ∃ t, exec (.poolDisable p v) s = .next t ∧ OnlyRegs [(.FEN_POOL_STATUS, p.val)] s t ∧
      t.isOn F.FEN_POOL_STATUS_CFG_REJECTED p.val = true ∧ t.get F.FEN_POOL_STATUS_REJECT_CODE p.val = 4) ∧
  (∀ (p : Fin 256) (v : Word) (c : Instr) (s : State), s.poolOn p.val = true →
    (c = .poolDisable p v ∧ s.poolBusy p.val = false ∨ c = .poolForce p v) →
    ∃ t, exec c s = .next t ∧ t.poolOn p.val = false ∧ t.get F.FEN_POOL_STATUS_STATE p.val = 0 ∧
      t.trg (144 + p.val) = Trough.zero ∧ t.trgOn (144 + p.val) = false ∧ t.fen = s.fen) ∧
  (∀ (v : Word) (p : Nat) (s : State), s.poolAt (bits v 16 21 * 0x10000) = some p →
    Tab.get false s.outBits (bits v 16 21) = true → s.trgOn (144 + p) = true → s.trgAsleep (144 + p) = false →
    (s.trg (144 + p)).openBy = none → s.poolFree p + 1 < s.trgSize (144 + p) →
    ∃ t, exec (.poolRelease v) s = .next t ∧ Tab.get false t.outBits (bits v 16 21) = false ∧
      t.poolFree p = s.poolFree p + 1 ∧
      (t.visWord (144 + p) (s.poolFree p)).data = BitVec.ofNat 64 (bits v 16 21 * 0x10000)) ∧
  (∀ (v : Word) (s : State), (∀ p, s.poolAt (bits v 16 21 * 0x10000) = some p → Tab.get false s.outBits (bits v 16 21) = false) →
    ∃ t, exec (.poolRelease v) s = .next t ∧ OnlyRegs [(.FEN_RELEASE_STATUS, 0)] s t ∧
      (if (s.poolAt (bits v 16 21 * 0x10000)).isSome then
        t.get F.FEN_RELEASE_STATUS_DOUBLE_RELEASE = min (s.get F.FEN_RELEASE_STATUS_DOUBLE_RELEASE + 1) 0xFFFF
       else t.get F.FEN_RELEASE_STATUS_BAD_RELEASE = min (s.get F.FEN_RELEASE_STATUS_BAD_RELEASE + 1) 0xFFFF))

/-- Doorbell pushes of single words and packets, the drop that leaves a gap marker, flush, enable and disable of a trough. Rests
on 08_fen_and_troughs.md, Trough storage (R368 to R372), 08_fen_and_troughs.md, Depth, items and gap markers (R375 to R385),
08_fen_and_troughs.md, Table 8.13. -/
def Obligations.TroughsAreConfiguredFlushedAndPushedByDoorbell : Prop :=
  (∀ (q : Fin 65536) (v : Word) (s : State), trgReserved q.val = false → s.trgOn q.val = false →
    (s.wr .TRG_CFG q.val ((v ||| 1) &&& fieldMask 0 19 &&& ~~~1)).trgReject q.val false = 0 →
    ∃ t, exec (.troughEnable q v) s = .next t ∧ t.trgOn q.val = true ∧ t.trg q.val = Trough.zero ∧
      t.trgFar q.val = bit v 1 ∧ t.trgSize q.val = 2 ^ bits v 2 5 ∧ RegsBut [(.TRG_CFG, q.val)] s t ∧
      { t with regs := s.regs, troughs := s.troughs } = s) ∧
  (∀ (q : Fin 65536) (v : Word) (s : State), trgReserved q.val = true →
    ∃ t, exec (.troughEnable q v) s = .next t ∧ OnlyRegs [(.TRG_STATUS, q.val)] s t ∧
      t.isOn F.TRG_STATUS_CFG_REJECTED q.val = true ∧ t.get F.TRG_STATUS_REJECT_CODE q.val = 5) ∧
  (∀ (q : Fin 65536) (v : Word) (s : State), trgReserved q.val = false → s.trgOn q.val = true → (s.trg q.val).waiting = [] →
    ∃ t, exec (.troughDisable q v) s = .next t ∧ t.trgOn q.val = false ∧ t.trg q.val = Trough.zero ∧
      { t with regs := s.regs, troughs := s.troughs } = s ∧ RegsBut [(.TRG_CFG, q.val), (.TRG_STATUS, q.val)] s t) ∧
  (∀ (q : Fin 65536) (s : State), (s.trg q.val).waiting = [] →
    (∃ t, exec (.trgFlush q) s = .next t ∧ t.trg q.val = Trough.zero ∧ t.fen = s.fen ∧ t.near = s.near ∧
      t.get F.TRG_COUNT_FLUSHES q.val = min (s.get F.TRG_COUNT_FLUSHES q.val + 1) 0xFFFF) ∧
    (∃ t, exec (.trgCntClear q) s = .next t ∧ OnlyRegs [(.TRG_COUNT, q.val), (.TRG_DROPS, q.val)] s t ∧
      t.rd .TRG_COUNT q.val = 0 ∧ t.rd .TRG_DROPS q.val = 0)) ∧
  (∀ (fn : Fin 2) (q : Fin 65536) (w : Word) (s : State), 400 ≤ q.val → s.trgOn q.val = true → s.trgAsleep q.val = false →
    (s.trg q.val).openBy = none → (s.trg q.val).vis + 1 < s.trgSize q.val →
    (∃ t, exec (.push fn q w false) s = .next t ∧ t.trg q.val = { s.trg q.val with vis := (s.trg q.val).vis + 1 } ∧
      t.visWord q.val (s.trg q.val).vis = ⟨w, true, true, false, false⟩ ∧
      (s.trgFar q.val = false → ∀ k, k < (s.trg q.val).vis → t.visWord q.val k = s.visWord q.val k)) ∧
    (∃ t, exec (.pushSop fn q w false) s = .next t ∧
      t.trg q.val = { s.trg q.val with openBy := some (fnAgent fn.val), openLen := 1 })) ∧
  (∀ (fn : Fin 2) (q : Fin 65536) (w : Word) (s : State), 400 ≤ q.val → s.trgOn q.val = true → s.trgAsleep q.val = false →
    (s.trg q.val).openBy = none → 0 < (s.trg q.val).vis → (s.trg q.val).vis + 1 = s.trgSize q.val →
    (s.visWord q.val ((s.trg q.val).vis - 1)).gap = false →
    ∃ t, exec (.push fn q w false) s = .next t ∧ (t.trg q.val).vis = s.trgSize q.val ∧
      t.get F.TRG_DROPS_DROPPED q.val = min (s.get F.TRG_DROPS_DROPPED q.val + 1) 0xFFFFFFFF ∧
      (t.visWord q.val (s.trg q.val).vis).gap = true ∧ bits (t.visWord q.val (s.trg q.val).vis).data 0 32 = 1) ∧
  (∀ (fn : Fin 2) (q : Fin 65536) (w : Word) (s : State), 400 ≤ q.val → s.trgOn q.val = true → s.trgAsleep q.val = false →
    (s.trg q.val).openBy = some (fnAgent fn.val) → (s.trg q.val).waiting = [] → (s.trg q.val).gaps = 0 →
    (s.trg q.val).openLen < 4096 → (s.trg q.val).vis + (s.trg q.val).openLen + 1 < s.trgSize q.val →
    (∃ t, exec (.pushMid fn q w false) s = .next t ∧
      t.trg q.val = { s.trg q.val with openLen := (s.trg q.val).openLen + 1 }) ∧
    (∃ t, exec (.pushEop fn q w false) s = .next t ∧ (t.trg q.val).openBy = none ∧
      (t.trg q.val).vis = (s.trg q.val).vis + (s.trg q.val).openLen + 1 ∧
      (t.visWord q.val ((s.trg q.val).vis + (s.trg q.val).openLen)).data = w) ∧
    (∃ t, exec (.pushAbort fn q) s = .next t ∧ (t.trg q.val).openBy = none ∧ (t.trg q.val).vis = (s.trg q.val).vis ∧
      t.get F.TRG_COUNT_PKT_ABORTS q.val = min (s.get F.TRG_COUNT_PKT_ABORTS q.val + 1) 0xFFFF))

/-- POP takes the oldest visible word and answers its status, POP_DATA its data, DEPTH the depths; the two time-outs end a packet
or a hold. Rests on 08_fen_and_troughs.md, Depth, items and gap markers (R383, R384), 08_fen_and_troughs.md, Trough ECC and
poison (R389, R390), 08_fen_and_troughs.md, Registers (R407, R409, R410). -/
def Obligations.TroughsArePoppedInOrderAndTimeoutsCutPackets : Prop :=
  (∀ (fn : Fin 2) (q : Fin 65536) (s : State), s.popAllowed (fnAgent fn.val) q.val = true → s.trgOn q.val = true →
    s.trgAsleep q.val = false → ((s.trg q.val).holder = none ∨ (s.trg q.val).holder = some (fnAgent fn.val)) →
    0 < (s.trg q.val).vis → (s.visWord q.val 0).bad = false →
    ∃ t, exec (.pop fn q .clean) s = .next t ∧ (t.trg q.val).vis = (s.trg q.val).vis - 1 ∧
      (t.trg q.val).head = ((s.trg q.val).head + 1) % s.trgSize q.val ∧ t.fen = s.fen ∧ t.near = s.near ∧
      t.sent = s.sent ++ [.completion fn.val 0 (bytesOfNat 8
        (field 0 1 1 ||| field 1 1 (b2n (s.visWord q.val 0).sop) ||| field 2 1 (b2n (s.visWord q.val 0).eop) |||
          field 3 1 (b2n (s.visWord q.val 0).gap) ||| field 32 29 ((s.trg q.val).vis - 1) : Word).toNat) false] ∧
      (t.func fn.val).popData = (s.visWord q.val 0).data) ∧
  (∀ (fn : Fin 2) (q : Fin 65536) (e : Ecc) (s : State), s.popAllowed (fnAgent fn.val) q.val = true →
    (s.trg q.val).holder = none → (s.trg q.val).vis = 0 →
    ∃ t, exec (.pop fn q e) s = .next t ∧ t.troughs = s.troughs ∧ t.regs = s.regs ∧ (t.func fn.val).popData = 0 ∧
      t.sent = s.sent ++ [.completion fn.val 0 (bytesOfNat 8 0) false]) ∧
  (∀ (fn : Fin 2) (s : State),
    ∃ t, exec (.popData fn) s = .next t ∧ { t with sent := s.sent } = s ∧
      t.sent = s.sent ++ [.completion fn.val 0 (bytesOfNat 8 (s.func fn.val).popData.toNat) false]) ∧
  (∀ (fn : Fin 2) (q : Fin 65536) (s : State),
    ∃ t, exec (.depth fn q) s = .next t ∧ { t with sent := s.sent } = s ∧
      (∃ w : Word, t.sent = s.sent ++ [.completion fn.val 0 (bytesOfNat 8 w.toNat) false] ∧
        bits w 0 29 = (s.trg q.val).vis % 2 ^ 29 ∧
        bits w 32 29 = ((s.trg q.val).vis + (s.trg q.val).openLen) % 2 ^ 29 ∧
        bit w 61 = (s.trg q.val).openBy.isSome ∧ bit w 62 = (s.trg q.val).holder.isSome ∧
        bit w 63 = ((s.trg q.val).gaps != 0))) ∧
  (∀ (q : Fin 65536) (s : State), (s.trg q.val).openBy.isSome = true → (s.trg q.val).waiting = [] →
    ∃ t, exec (.packetTimeout q) s = .next t ∧ (t.trg q.val).openBy = none ∧ (t.trg q.val).openLen = 0 ∧
      t.get F.TRG_DROPS_DROPPED q.val = min (s.get F.TRG_DROPS_DROPPED q.val + 1) 0xFFFFFFFF ∧
      t.get F.TRG_COUNT_PKT_ABORTS q.val = min (s.get F.TRG_COUNT_PKT_ABORTS q.val + 1) 0xFFFF) ∧
  (∀ (q : Fin 65536) (s : State), (s.trg q.val).holder.isSome = true →
    ∃ t, exec (.popHoldTimeout q) s = .next t ∧ (t.trg q.val).holder = none ∧ (t.trg q.val).openBy = (s.trg q.val).openBy ∧
      (t.trg q.val).vis ≤ (s.trg q.val).vis ∧
      t.get F.TRG_COUNT_PKT_ABORTS q.val = min (s.get F.TRG_COUNT_PKT_ABORTS q.val + 1) 0xFFFF)

/-- A tag record is pushed or dropped with its successor marked; a herd is enabled, disabled, releases an expired slot and pushes
its record. Rests on 09_tags_herds_delivery.md, The tag record (R411 to R420), 09_tags_herds_delivery.md, Herds (R425 to
R430), 09_tags_herds_delivery.md, Registers (R459, R460). -/
def Obligations.HerdsReleaseTheirSlotsAndTagRecordsReachTheirTroughs : Prop :=
  (∀ (c : Fin 64) (s : State),
    ((s.ctx c).tags = [] → exec (.tagRecordPush c) s = .next s) ∧
    (∀ d rest, (s.ctx c).tags = d :: rest → (s.ctx c).seqDue = none → s.hasRoom (16 + c) 8 →
      ∃ t, exec (.tagRecordPush c) s = .next t ∧ t.ctx c = { s.ctx c with tags := rest } ∧ (∀ k, k ≠ c.val → t.ctx k = s.ctx k) ∧
        (t.trg (16 + c)).vis = (s.trg (16 + c)).vis + 8 ∧ (∀ k, k ≠ 16 + c.val → t.trg k = s.trg k) ∧ t.outBits = s.outBits ∧
        (let w := fun (k : Nat) => (t.visWord (16 + c) ((s.trg (16 + c)).vis + k)).data
         bits (w 0) 0 8 = 1 ∧ bits (w 0) 8 5 = d.stall % 32 ∧ bits (w 0) 13 6 = c ∧ bits (w 0) 24 4 = d.kind % 16 ∧
         bits (w 0) 28 4 = d.region % 16 ∧ bits (w 0) 48 16 = d.aux % 65536 ∧
         bits (w 0) 32 16 = (d.flags ||| s.intervalFlags d.start) % 65536 ∧ w 1 = word d.seq ∧ w 2 = word d.start ∧
         w 3 = word d.endTick ∧ w 4 = d.enc0 ∧ w 5 = d.enc1 ∧ w 6 = word d.addr ∧ bits (w 7) 0 32 = d.bytes % 2 ^ 32 ∧
         bits (w 7) 32 32 = crc32c (bytesOfWords [w 0, w 1, w 2, w 3, w 4, w 5, w 6]) % 2 ^ 32)) ∧
    (∀ d rest, (s.ctx c).tags = d :: rest → (s.ctx c).seqDue = none → s.trgOn (16 + c) = false → d.blocks = [] →
      ∃ t, exec (.tagRecordPush c) s = .next t ∧ t.ctx c = { s.ctx c with tags := rest }.markGap ∧ t.troughs = s.troughs ∧
        t.get F.TRG_ECC_DISABLED_ACCESS = min (s.get F.TRG_ECC_DISABLED_ACCESS + 1) 65535)) ∧
  (∀ (h : Fin 16) (v : Word) (s : State),
    (s.herdOn h = true → exec (.herdEnable h v) s = .next s ∧
      ∃ t, exec (.herdDisable h v) s = .next t ∧ t.herdOn h = false ∧ t.herd h = { Herd.zero with due := (s.herd h).due } ∧
        t.rd .HERD_COUNT h = 0 ∧ t.rd .HERD_COUNT2 h = 0 ∧ t.get F.HERD_STATUS_MEMBERS h = 0 ∧
        { t with regs := s.regs, herds := s.herds } = s ∧
        RegsBut [(.HERD_CFG, h), (.HERD_STATUS, h), (.HERD_COUNT, h), (.HERD_COUNT2, h)] s t) ∧
    (s.herdOn h = false →
      (∃ t, exec (.herdDisable h v) s = .next t ∧ OnlyRegs [(.HERD_CFG, h)] s t ∧ t.herdOn h = false ∧
        t.isOn F.HERD_CFG_STRICT h = bit v 1 ∧ t.get F.HERD_CFG_WINDOW h = bits v 2 10 ∧ t.get F.HERD_CFG_TROUGH h = bits v 16 16) ∧
      ∃ t, exec (.herdEnable h v) s = .next t ∧ { t with regs := s.regs } = s ∧
        t.isOn F.HERD_CFG_STRICT h = bit v 1 ∧ t.get F.HERD_CFG_WINDOW h = bits v 2 10 ∧ t.get F.HERD_CFG_TROUGH h = bits v 16 16 ∧
        (if s.get F.HERD_PERIOD_PERIOD h < 4000 ∨ s.get F.HERD_PERIOD_PERIOD h / 2 ≤ s.get F.HERD_PERIOD_TOLERANCE h ∨
            (bit v 1 = true ∧ (bits v 2 10 = 0 ∨ 1000 < bits v 2 10)) ∨ bits v 16 16 < 16 ∨ (80 ≤ bits v 16 16 ∧ bits v 16 16 < 400)
         then t.herdOn h = false ∧ t.isOn F.HERD_STATUS_CFG_REJECTED h = true
         else t.herdOn h = true ∧ t.get F.HERD_STATUS_CFG_REJECTED h = s.get F.HERD_STATUS_CFG_REJECTED h))) ∧
  (∀ (h : Fin 16) (s : State),
    ((∀ x ∈ (s.herd h).slots, x.later = none) → exec (.herdStrictWindowExpiry h) s = .next s) ∧
    (∀ x t0, (s.herd h).slots = [x] → x.later = some t0 →
      ∃ t d, exec (.herdStrictWindowExpiry h) s = .next t ∧ (t.herd h).slots = [] ∧ (t.herd h).due = (s.herd h).due ++ [d] ∧
        (t.herd h).released = some x.slot ∧ d.slot.slot = x.slot ∧ d.slot.present = x.present ∧ d.members = s.herdMembers h ∧
        d.tick = max s.now (t0 + 4000 * s.get F.HERD_CFG_WINDOW h) ∧
        d.gap = (match (s.herd h).released with | none => false | some r => x.slot != r + 1) ∧
        t.get F.HERD_STATUS_LAST_SLOT h = x.slot % 2 ^ 32 ∧ t.get F.HERD_COUNT_RECORDS h = (s.get F.HERD_COUNT_RECORDS h + 1) % 2 ^ 32 ∧
        RegsBut [(.HERD_STATUS, h), (.HERD_COUNT, h)] s t ∧ { t with regs := s.regs, herds := s.herds, tb := s.tb, mgmt := s.mgmt } = s) ∧
    ((s.herd h).due = [] → exec (.herdRecordRelease h) s = .next s) ∧
    (∀ d rest k, (s.herd h).due = d :: rest → s.get F.HERD_CFG_TROUGH h = k → s.hasRoom k (8 + 2 * d.members.length) →
      d.members.length ≤ 16 →
      ∃ t, exec (.herdRecordRelease h) s = .next t ∧ t.herd h = { s.herd h with due := rest } ∧
        (t.trg k).vis = (s.trg k).vis + (8 + 2 * d.members.length) ∧ (∀ j, j ≠ k → t.trg j = s.trg j) ∧
        (let w := fun (j : Nat) => (t.visWord k ((s.trg k).vis + j)).data
         bits (w 0) 19 4 = h ∧ bit (w 0) 23 = true ∧ bits (w 0) 24 4 = 5 ∧ bit (w 0) 43 = true ∧ w 1 = word d.slot.slot ∧
         bit (w 0) 33 = d.gap ∧
         w 2 = word (s.get F.HERD_ORIGIN_ORIGIN h + d.slot.slot * s.get F.HERD_PERIOD_PERIOD h) ∧ w 3 = word d.tick ∧
         bits (w 7) 0 32 = 16 * d.members.length ∧
         (∀ (j : Nat) m, d.members[j]? = some m →
           bits (w (8 + 2 * j)) 0 5 = m.1 % 32 ∧ bits (w (8 + 2 * j)) 5 6 = m.2 % 64 ∧
           bit (w (8 + 2 * j)) 11 = (d.slot.present.any fun e => e.ctx == m.2) ∧
           bit (w 0) (48 + j) = (d.slot.present.any fun e => e.ctx == m.2) ∧
           (∀ e, d.slot.present.find? (fun e => e.ctx == m.2) = some e → w (9 + 2 * j) = word e.seq)))))

/-- Descriptors are fetched or popped, run as Table 9.8 says, and retire in slot order with a completion record. Rests on
09_tags_herds_delivery.md, The sluice (R437 to R447), 09_tags_herds_delivery.md, Ordering (R448, R449). -/
def Obligations.DescriptorsAreFetchedStartedAndRetiredInOrder : Prop :=
  (∀ (r : Fin 1024) (n : Fin 17) (tag : Fin 16384) (s : State),
    (s.get F.RING_CTRL_STATE r ≠ 1 ∨ s.isOn F.RING_BASE_FEED r = true ∨ n.val = 0 ∨ s.unfetched r < n ∨ s.sluiceLive = false →
      exec (.descriptorFetch r n tag) s = .next s) ∧
    (s.get F.RING_CTRL_STATE r = 1 → s.isOn F.RING_BASE_FEED r = false → s.sluiceServes = true → s.sluiceLive = true → 0 < n.val →
      n.val ≤ s.unfetched r → (s.ring r).next + n ≤ s.ringSize r → 32 * n.val ≤ s.maxRead → s.tagFree 0 tag = true →
      s.scoreRoom r n = true →
      ∃ t, exec (.descriptorFetch r n tag) s = .next t ∧
        t.sent = s.sent ++ [.hostRead tag (s.get F.RING_BASE_BASE r * 64 + 32 * (s.ring r).next) (32 * n)] ∧
        (t.ring r).next = ((s.ring r).next + n) % s.ringSize r ∧
        (t.ring r).descs.map (·.slot) = (s.ring r).descs.map (·.slot) ++ (List.range n).map ((s.ring r).next + ·) ∧
        t.host.tags = s.host.tags ++ [⟨tag, .fetch r (s.ring r).next n, false, false, [], some (s.now + s.cplTimeout)⟩] ∧
        (∀ k, k ≠ r.val → t.ring k = s.ring k) ∧ { t with rings := s.rings, host := s.host, sent := s.sent } = s)) ∧
  (∀ (tag : Fin 16384) (data : List Byte) (s : State),
    ((∀ x ∈ s.host.tags, x.tag = tag → x.quar = true) → exec (.descriptorFetchComplete tag data) s = .next s) ∧
    (∀ x (r : Fin 1024) slot d, s.host.tags.find? (fun y => y.tag == tag.val && !y.quar) = some x → x.use = .fetch r slot 1 →
      (s.ring r).descs = [d] → d.slot = slot → d.words = [] → d.ended = none → s.get F.RING_CTRL_STATE r = 1 →
      ∃ t e, exec (.descriptorFetchComplete tag data) s = .next t ∧ (t.ring r).descs = [e] ∧ e.slot = slot ∧
        e.words = (List.range 4).map (fun k => wordOfBytes ((data.drop (8 * k)).take 8)) ∧ e.started = d.started ∧
        e.ended = (s.descFault { d with words := e.words }).map (fun f => (f, 0, 0)) ∧
        t.host.tags = s.host.tags.filter (fun y => y.tag != tag.val) ∧ { t with rings := s.rings, host := s.host } = s)) ∧
  (∀ (r : Fin 1024) (s : State) it, s.get F.RING_CTRL_STATE r = 1 → s.isOn F.RING_BASE_FEED r = true → s.sluiceServes = true →
    s.sluiceLive = true → (s.ring r).descs.length < s.ringSize r → s.scoreRoom r 1 = true → 400 ≤ s.get F.RING_CTRL_SRC_TROUGH r →
    s.headItem (s.get F.RING_CTRL_SRC_TROUGH r) = some it → it.gap = false → it.poison = false → it.words.length = 4 →
    s.descFault (Desc.new (s.ring r).next it.words) = none →
    ∃ t, exec (.descriptorPop r) s = .next t ∧
      t.ring r = { s.ring r with next := ((s.ring r).next + 1) % s.ringSize r
                                 descs := (s.ring r).descs ++ [Desc.new (s.ring r).next it.words] } ∧
      (t.trg (s.get F.RING_CTRL_SRC_TROUGH r)).vis + 4 = (s.trg (s.get F.RING_CTRL_SRC_TROUGH r)).vis) ∧
  (∀ (r : Fin 1024) (slot : Fin 65536) (s : State) d,
    (s.startable r slot opNop = none → exec (.sluiceNop r slot) s = .next s) ∧
    (s.startable r slot opNop = some d →
      ∃ t e, exec (.sluiceNop r slot) s = .next t ∧ t.desc r slot = some e ∧ e.ended = some (0, 0, 0) ∧ e.words = d.words ∧
        (∀ k, k ≠ r.val → t.ring k = s.ring k) ∧ { t with rings := s.rings, host := s.host, sent := s.sent } = s) ∧
    (s.startable r slot opCopy = none → exec (.sluiceCopy r slot) s = .next s) ∧
    (s.startable r slot opCopy = some d →
      (∀ k, k < d.len → s.fenUsable (((d.w 1).toNat + k) / 8 * 8) = true ∧ s.fenCheck ((d.w 1).toNat + k) = 0) →
      ∃ t e, exec (.sluiceCopy r slot) s = .next t ∧ t.desc r slot = some e ∧ e.ended = some (0, d.len, 0) ∧
        t.sent = (s.running.hostPayload (d.w 2).toNat ((List.range d.len).map fun k => s.fenByte ((d.w 1).toNat + k)) (bit (d.w 0) 4)).sent ∧
        { t with rings := s.rings, host := s.host, sent := s.sent } = s)) ∧
  (∀ (r : Fin 1024) (slot : Fin 65536) (c : Instr) (s : State) d k, (d.w 1).toNat % 65536 = k →
    (c = .sluiceDeliver r slot ∧ s.startable r slot opDeliver = some d ∨
     c = .deliverWaitResume r slot ∧ s.desc r slot = some d ∧ d.waiting = true ∧ d.op = opDeliver ∧ s.sluiceLive = true ∧
       s.sluiceServes = true ∧ s.headItem k ≠ none) →
    (s.headItem k = none → ∃ t e, exec c s = .next t ∧ t.desc r slot = some e ∧
      (if bit (d.w 0) 8 = true then e.waiting = true ∧ e.ended = none else e.ended = some (1, 0, 0))) ∧
    (∀ it, s.headItem k = some it → it.gap = true →
      ∃ t e, exec c s = .next t ∧ t.desc r slot = some e ∧ e.ended = some (2, 0, bits ((it.words.head?).getD 0) 0 32) ∧ e.waiting = false ∧
        (t.trg k).vis + it.words.length = (s.trg k).vis) ∧
    (∀ it, s.headItem k = some it → it.gap = false → it.poison = false → it.words.length = 8 →
      bits ((it.words.head?).getD 0) 24 4 ≠ 5 →
      (it.words[7]?).getD 0 = tagCheck (it.words.take 7) (bits ((it.words[7]?).getD 0) 0 32) →
      d.len < bits ((it.words[7]?).getD 0) 0 32 →
      ∃ t e, exec c s = .next t ∧ t.desc r slot = some e ∧ e.ended = some (3, 0, bits ((it.words[7]?).getD 0) 0 32) ∧ e.blocks = d.blocks ∧
        t.sent.getLast? = some (.hostWrite (s.get F.RING_TAG_BASE r * 64 + 64 * slot) (it.words.flatMap fun w => bytesOfNat 8 w.toNat) false) ∧
        t.outBits = s.outBits)) ∧
  (∀ (r : Fin 1024) (slot : Fin 65536) (s : State) d k, (d.w 1).toNat % 65536 = k → s.startable r slot opPop = some d →
    (s.headItem k = none → ∃ t e, exec (.sluicePop r slot) s = .next t ∧ t.desc r slot = some e ∧
      (if bit (d.w 0) 8 = true then e.waiting = true ∧ e.ended = none else e.ended = some (1, 0, 0))) ∧
    (∀ it, s.headItem k = some it → it.words.length = (s.trg k).vis → it.words.length < 8192 → 8 * (it.words.length + 1) ≤ d.len →
      ∃ t e, exec (.sluicePop r slot) s = .next t ∧ t.desc r slot = some e ∧ e.ended = some (0, 8 * (it.words.length + 1), 0) ∧
        (t.trg k).vis = 0 ∧
        t.sent = (s.running.hostPayload (d.w 2).toNat (bytesOfWords
          ((field 0 13 it.words.length ||| field 16 1 (b2n it.gap) ||| field 17 1 (b2n it.poison)) :: it.words)) (bit (d.w 0) 4)).sent)) ∧
  (∀ (r : Fin 1024) (slot : Fin 65536) (tag : Fin 16384) (op : Nat) (c : Instr) (s : State) d,
    (op = opFetch ∧ c = .sluiceFetch r slot tag ∨ op = opPush ∧ c = .sluicePush r slot tag) → s.startable r slot op = some d →
    s.tagFree (if s.ringHostFed r then 2 else 1) tag = true → d.asked = 0 → d.err = none → 0 < d.len →
    ∃ t e, exec c s = .next t ∧ t.desc r slot = some e ∧ e.started = true ∧ e.asked = min s.maxRead d.len ∧ e.ended = none ∧
      t.sent = s.running.sent ++ [.hostRead tag (d.w 1).toNat (min s.maxRead d.len)] ∧
      { t with rings := s.rings, host := s.host, sent := s.sent } = s) ∧
  (∀ (r : Fin 1024) (s : State),
    ((s.ring r).descs = [] ∨ s.sluiceLive = false ∨ (s.ring r).lost = true → exec (.completionRecordIssue r) s = .next s) ∧
    (∀ d rest, (s.ring r).descs = d :: rest → d.ended = none → exec (.completionRecordIssue r) s = .next s) ∧
    (∀ d rest n det, (s.ring r).descs = d :: rest → d.ended = some (0, n, det) → s.sluiceLive = true → (s.ring r).lost = false →
      d.taken = [] → d.blocks = [] → d.slot < 65536 → s.get F.RING_CTRL_STATE r = 1 →
      ∃ t, exec (.completionRecordIssue r) s = .next t ∧ t.ring r = { s.ring r with descs := rest, retired := (s.ring r).retired + 1 } ∧
        t.get F.RING_PTR_HEAD r = (d.slot + 1) % s.ringSize r % 65536 ∧
        t.get F.SLUICE_COUNT_DESCRIPTORS = (s.get F.SLUICE_COUNT_DESCRIPTORS + 1) % 2 ^ 32 ∧
        t.sent = s.sent ++ [.hostWrite (s.get F.RING_COMPL_BASE r * 64 + 32 * d.slot) (bytesOfWords
          [field 8 4 d.op ||| field 16 16 d.slot ||| field 32 10 r ||| field 63 1 (1 - (s.ring r).retired / s.ringSize r % 2),
           field 0 32 n ||| field 32 32 (bits (d.w 3) 32 32), BitVec.ofNat 64 det, BitVec.ofNat 64 s.now]) false] ∧
        (t.host.msgs = s.host.msgs ∨ bit (d.w 0) 5 = true ∧ s.isOn F.RING_CTRL_IRQ_EN r = true ∧
          t.host.msgs = s.host.msgs ++ [⟨0, s.get F.RING_CTRL_VECTOR r, .ring⟩]) ∧
        RegsBut [(.RING_PTR, r), (.SLUICE_COUNT, 0)] s t))

/-- Rings start, stop and take their TAIL; a host buffer is committed and cancelled; a mirror copies an item; the counters clear.
Rests on 09_tags_herds_delivery.md, Registers (R456 to R464), 09_tags_herds_delivery.md, Direct placement (R432),
09_tags_herds_delivery.md, Mirrors (R454). -/
def Obligations.RingsBuffersAndMirrorsFollowTheirRegisters : Prop :=
  (∀ (r : Fin 1024) (v : Word) (s : State),
    ∃ t, exec (.ringTailWrite r v) s = .next t ∧
      (if bits v 0 16 < s.ringSize r then
        OnlyRegs [(.RING_PTR, r)] s t ∧ t.get F.RING_PTR_TAIL r = bits v 0 16 ∧ t.get F.RING_PTR_HEAD r = s.get F.RING_PTR_HEAD r
       else OnlyRegs [(.RING_CTRL, r)] s t ∧ t.isOn F.RING_CTRL_CFG_REJECTED r = true ∧
        t.get F.RING_CTRL_STATE r = s.get F.RING_CTRL_STATE r)) ∧
  (∀ (r : Fin 1024) (v : Word) (s : State), s.isOn F.RING_CTRL_ENABLE r = false →
    ∃ t, exec (.ringEnable r v) s = .next t ∧ t.get F.RING_CTRL_VECTOR r = bits v 5 11 ∧ t.get F.RING_CTRL_RECOVER r = bits v 32 16 ∧
      t.get F.RING_CTRL_INFLIGHT_RES r = bits v 20 12 ∧ t.get F.RING_CTRL_SRC_TROUGH r = bits v 48 16 ∧ t.isOn F.RING_CTRL_IRQ_EN r = bit v 4 ∧
      (if s.get F.RING_BASE_SIZE_LOG2 r < 4 ∨ 16 < s.get F.RING_BASE_SIZE_LOG2 r ∨ 65536 < s.reserved + 16 * bits v 20 12 ∨
          (s.isOn F.RING_BASE_FEED r = true ∧ bits v 48 16 < 400) ∨ (1 ≤ bits v 32 16 ∧ bits v 32 16 ≤ 399) then
        OnlyRegs [(.RING_CTRL, r)] s t ∧ t.isOn F.RING_CTRL_ENABLE r = false ∧ t.isOn F.RING_CTRL_CFG_REJECTED r = true ∧
          t.get F.RING_CTRL_STATE r = s.get F.RING_CTRL_STATE r
       else t.isOn F.RING_CTRL_ENABLE r = true ∧ t.get F.RING_CTRL_STATE r = 1 ∧ t.rd .RING_PTR r = 0 ∧ t.ring r = Ring.zero ∧
        (∀ k, k ≠ r.val → t.ring k = s.ring k) ∧ RegsBut [(.RING_CTRL, r), (.RING_PTR, r)] s t ∧
        { t with regs := s.regs, rings := s.rings, host := s.host } = s)) ∧
  (∀ (r : Fin 1024) (v : Word) (s : State), s.isOn F.RING_CTRL_ENABLE r = true →
    (∃ t, exec (.ringEnable r v) s = .next t ∧ OnlyRegs [(.RING_CTRL, r)] s t ∧ t.isOn F.RING_CTRL_ENABLE r = true ∧
      t.get F.RING_CTRL_STATE r = (if s.get F.RING_CTRL_STATE r = 3 then 1 else s.get F.RING_CTRL_STATE r)) ∧
    (∃ t, exec (.ringDisable r v) s = .next t ∧ t.isOn F.RING_CTRL_ENABLE r = false ∧
      t.get F.RING_CTRL_STATE r = (if (s.ring r).descs = [] then 0 else 2) ∧
      (t.ring r).descs.map (·.slot) = (s.ring r).descs.map (·.slot) ∧
      (∀ d ∈ (s.ring r).descs, d.ended = none → d.words ≠ [] → (d.started = false ∨ d.waiting = true) →
        { d with waiting := false, ended := some (0x0B, 0, 0) } ∈ (t.ring r).descs) ∧
      RegsBut [(.RING_CTRL, r)] s t ∧ { t with regs := s.regs, rings := s.rings } = s)) ∧
  (∀ (r : Fin 1024) (v : Word) (s : State), s.isOn F.RING_CTRL_ENABLE r = false →
    ∃ t, exec (.ringDisable r v) s = .next t ∧ OnlyRegs [(.RING_CTRL, r)] s t ∧ t.isOn F.RING_CTRL_ENABLE r = false) ∧
  (∀ (c : Fin 64) (s : State),
    (∀ v : Word, bit v 33 = false → ∃ t, exec (.destCommit c v) s = .next t ∧
      (t.ctx c).dest = some ⟨s.get F.CTX_DEST_NEXT_ADDR c * 64, bits v 0 32, s.now⟩ ∧ t.get F.CTX_DEST_CTRL_LEN c = bits v 0 32 ∧
      t.get F.CTX_DEST_CTRL_RESULT c = 1 ∧ t.isOn F.CTX_DEST_CTRL_COMMIT c = true ∧ t.isOn F.CTX_DEST_STATUS_PENDING c = true ∧
      (∀ k, k ≠ c.val → t.ctx k = s.ctx k) ∧ RegsBut [(.CTX_DEST_CTRL, c), (.CTX_DEST_STATUS, c)] s t ∧
      { t with regs := s.regs, ctxs := s.ctxs } = s) ∧
    (∃ t, exec (.destCancel c) s = .next t ∧ (t.ctx c).dest = none ∧
      ((s.ctx c).dest = none → t.get F.CTX_DEST_CTRL_RESULT c = s.get F.CTX_DEST_CTRL_RESULT c) ∧
      ((s.ctx c).dest.isSome = true → t.get F.CTX_DEST_CTRL_RESULT c = 4 ∧ t.isOn F.CTX_DEST_CTRL_COMMIT c = false ∧
        t.isOn F.CTX_DEST_STATUS_PENDING c = false) ∧ t.get F.CTX_DEST_CTRL_LEN c = s.get F.CTX_DEST_CTRL_LEN c ∧
      RegsBut [(.CTX_DEST_CTRL, c), (.CTX_DEST_STATUS, c)] s t)) ∧
  (∀ (k : Fin 4) (share : Bool) (s : State),
    (Tab.get [] s.mirrorQ k.val = [] → exec (.mirrorCopy k share) s = .next s) ∧
    (∀ ws rest, Tab.get [] s.mirrorQ k.val = ws :: rest → s.isOn F.MIRROR_CFG_ENABLE k = true →
      (share = false ∨ s.sluiceServes = false ∨ s.sluiceLive = false →
        ∃ t, exec (.mirrorCopy k share) s = .next t ∧ Tab.get [] t.mirrorQ k.val = rest ∧ t.sent = s.sent ∧
          t.get F.MIRROR_CFG_DROPPED k = min (s.get F.MIRROR_CFG_DROPPED k + 1) 0xFFFFFFFF ∧ RegsBut [(.MIRROR_CFG, k)] s t) ∧
      (share = true → s.sluiceServes = true → s.sluiceLive = true → ws.length < 16 →
        (s.mirror k).off + 8 * (ws.length + 1) < s.mirrorSize k →
        ∃ t, exec (.mirrorCopy k share) s = .next t ∧ Tab.get [] t.mirrorQ k.val = rest ∧
          t.mirror k = ⟨(s.mirror k).off + 8 * (ws.length + 1), (s.mirror k).wraps⟩ ∧
          t.sent = s.sent ++
            (s.hostPayload (s.get F.MIRROR_BASE_BASE k * 4096 + (s.mirror k).off) (bytesOfWords (field 0 13 ws.length :: ws)) false).sent.drop
              s.sent.length ++
            [.hostWrite (s.get F.MIRROR_PTR_PTR k * 8)
              (bytesOfWords [field 0 36 ((s.mirror k).off + 8 * (ws.length + 1)) ||| field 36 28 (s.mirror k).wraps]) false] ∧
          t.regs = s.regs ∧ t.fen = s.fen ∧ t.troughs = s.troughs))) ∧
  (∀ s : State, ∃ t, exec .sluiceCntClear s = .next t ∧ OnlyRegs [(.SLUICE_COUNT, 0), (.SLUICE_COUNT2, 0)] s t ∧
    t.rd .SLUICE_COUNT = 0 ∧ t.rd .SLUICE_COUNT2 = 0)

/-- Each ALU and BIT instruction writes its result and flags, G0 discarding it, and nothing else; a fall-through past index
16,383 is PC_RANGE instead. Rests on 10_bertor_core.md, Table 10.5, 10_bertor_core.md, Arithmetic and logic (R480 to R485),
10_bertor_core.md, Table 10.6, 10_bertor_core.md, Table 10.7, 10_bertor_core.md, Registers and flags (R476),
10_bertor_core.md, The instruction word (R474, R475), 10_bertor_core.md, Data memory and shared scratch (R493). -/
def Obligations.GroomArithmeticAndLogic : Prop :=
  ∀ (g : Fin 16) (e : Ecc) (s : State), e ≠ .double →
    let x := s.groom g.val
    let y := x.corrected e
    let out (i : BInstr) (c : Instr) (d : BitVec 4) (r : Word) (f : Flags) : Prop := GroomAt g.val i s →
      ∃ t, exec c s = .next t ∧ (if x.pc + i.len < 16384
        then GroomTo g.val { (y.setG d r) with flags := f, pc := x.pc + i.len } s t else GroomFaults g.val 0x02 y s t)
    let zn (r : Word) : Flags := { x.flags with z := decide (r = 0), n := r.msb }
    let off (r : Int) : Bool := decide (r < -9223372036854775808 ∨ 9223372036854775807 < r)
    ∀ (d a b : BitVec 4) (n p w : BitVec 6) (j : BitVec 14) (m : BitVec 32),
      let A := x.reg a
      let B := x.reg b
      let J : Word := j.signExtend 64
      let M : Word := m.signExtend 64
      let sum (v : Word) : Flags := { zn (A + v) with c := decide (2 ^ 64 ≤ A.toNat + v.toNat), v := off (A.toInt + v.toInt) }
      let dif : Flags := { zn (A - B) with c := decide (A.toNat < B.toNat), v := off (A.toInt - B.toInt) }
      let shl (k : Nat) : Word × Flags := let r : Word := BitVec.ofNat 64 (A.toNat * 2 ^ k)
        (r, { zn r with c := decide (k ≠ 0 ∧ A.toNat / 2 ^ (64 - k) % 2 = 1) })
      let shr (k : Nat) : Word × Flags := let r : Word := BitVec.ofNat 64 (A.toNat / 2 ^ k)
        (r, { zn r with c := decide (k ≠ 0 ∧ A.toNat / 2 ^ (k - 1) % 2 = 1) })
      let sar (k : Nat) : Word × Flags := let r : Word := BitVec.ofInt 64 (A.toInt / 2 ^ k)
        (r, { zn r with c := decide (k ≠ 0 ∧ A.toNat / 2 ^ (k - 1) % 2 = 1) })
      let k := B.toNat % 64
      let mulf (r : Word) : Flags := { zn r with c := false, v := false }
      let lo : Word := A * B
      let hu : Word := BitVec.ofNat 64 (A.toNat * B.toNat / 2 ^ 64)
      let hs : Word := BitVec.ofInt 64 (A.toInt * B.toInt / 2 ^ 64)
      let mn : Word := if A.toInt ≤ B.toInt then A else B
      let mnu : Word := if A.toNat ≤ B.toNat then A else B
      let mx : Word := if A.toInt ≤ B.toInt then B else A
      let mxu : Word := if A.toNat ≤ B.toNat then B else A
      let one : Word := BitVec.ofNat 64 (2 ^ p.toNat)
      let ext : Word := BitVec.ofNat 64 (A.toNat / 2 ^ p.toNat % 2 ^ (w.toNat + 1))
      out (.alu .add d a b) (.add g e) d (A + B) (sum B) ∧ out (.alu .sub d a b) (.sub g e) d (A - B) dif ∧
      out (.alu .and d a b) (.and g e) d (A &&& B) (zn (A &&& B)) ∧ out (.alu .or d a b) (.or g e) d (A ||| B) (zn (A ||| B)) ∧
      out (.alu .xor d a b) (.xor g e) d (A ^^^ B) (zn (A ^^^ B)) ∧
      out (.shift .shl d a b) (.shl g e) d (shl k).1 (shl k).2 ∧ out (.shiftI .shl d a n) (.shl g e) d (shl n.toNat).1 (shl n.toNat).2 ∧
      out (.shift .shr d a b) (.shr g e) d (shr k).1 (shr k).2 ∧ out (.shiftI .shr d a n) (.shr g e) d (shr n.toNat).1 (shr n.toNat).2 ∧
      out (.shift .sar d a b) (.sar g e) d (sar k).1 (sar k).2 ∧ out (.shiftI .sar d a n) (.sar g e) d (sar n.toNat).1 (sar n.toNat).2 ∧
      out (.mul .low d a b) (.mul g e) d lo (mulf lo) ∧ out (.mul .highU d a b) (.mul g e) d hu (mulf hu) ∧
      out (.mul .highS d a b) (.mul g e) d hs (mulf hs) ∧
      out (.minmax false false d a b) (.min g e) d mn (zn mn) ∧ out (.minmax false true d a b) (.min g e) d mnu (zn mnu) ∧
      out (.minmax true false d a b) (.max g e) d mx (zn mx) ∧ out (.minmax true true d a b) (.max g e) d mxu (zn mxu) ∧
      out (.cmp a b) (.cmp g e) 0 0 dif ∧ out (.addi d a j) (.addi g e) d (A + J) (sum J) ∧
      out (.movi d j) (.movi g e) d J x.flags ∧ out (.addi32 d a m) (.addi32 g e) d (A + M) (sum M) ∧
      out (.li32 .sign d m) (.li32 g e) d M x.flags ∧ out (.li32 .zero d m) (.li32 g e) d (BitVec.ofNat 64 m.toNat) x.flags ∧
      out (.li32 .high d m) (.li32 g e) d (BitVec.ofNat 64 (m.toNat * 2 ^ 32 + (x.reg d).toNat % 2 ^ 32)) x.flags ∧
      out (.bitSet d a p) (.bitSet g e) d (A ||| one) (zn (A ||| one)) ∧
      out (.bitClr d a p) (.bitClr g e) d (A &&& ~~~one) (zn (A &&& ~~~one)) ∧
      out (.bitTst a p) (.bitTst g e) 0 0 { x.flags with z := decide (A.toNat / 2 ^ p.toNat % 2 = 0) } ∧
      out (.bitExt d a p w) (.bitExt g e) d ext (zn ext)

/-- Branches go where Table 10.8 says or fault with PC_RANGE, the return stack over- and underflows, HALT stops, and a bad word
stops the groom. Rests on 10_bertor_core.md, Table 10.8, 10_bertor_core.md, Branches and control (R486, R487),
10_bertor_core.md, Table 10.4, 10_bertor_core.md, Registers and flags (R478, R479), 10_bertor_core.md, The instruction word
(R473 to R475), 10_bertor_core.md, Data memory and shared scratch (R493), 10_bertor_core.md, Faults and the watchdog (R501),
10_bertor_core.md, Table 10.14. -/
def Obligations.GroomBranchesFaultsAndHalt : Prop :=
  ∀ (g : Fin 16) (e : Ecc) (s : State),
    let x := s.groom g.val
    let y := x.corrected e
    (e ≠ .double →
      (∀ (a k : BitVec 4) (j : BitVec 14) (m : BitVec 32),
        let go (i : BInstr) (c : Instr) (q : Int) (z : Groom) : Prop := GroomAt g.val i s → (i.len = 2 → x.pc < 16383) →
          ∃ t, exec c s = .next t ∧
            (if 0 ≤ q ∧ q < 16384 then GroomTo g.val { z with pc := q.toNat } s t else GroomFaults g.val 0x02 y s t)
        let stop (i : BInstr) (c : Instr) (code : Nat) : Prop := GroomAt g.val i s → (i.len = 2 → x.pc < 16383) →
          ∃ t, exec c s = .next t ∧ GroomFaults g.val code y s t
        let f := x.flags
        let holds := ([f.z, !f.z, f.c, !f.c, f.n, !f.n, f.v, !f.v, f.c || f.z, !f.c && !f.z, xor f.n f.v, !(xor f.n f.v),
          f.z || xor f.n f.v, !f.z && !(xor f.n f.v), f.t, !f.t] : List Bool).getD k.toNat false
        let here : Int := (x.pc : Int) + j.toInt
        let far : Nat := (x.reg a + BitVec.ofNat 64 m.toNat).toNat
        go (.br j) (.b g e) here y ∧ go (.bc k j) (.bc g e) (if holds then here else x.pc + 1) y ∧
        go (.loop a j) (.loop g e) (if x.reg a = 1 then x.pc + 1 else here) (y.setG a (x.reg a - 1)) ∧
        go (.bl32 false a m) (.bl32 g e) far y ∧ go .nop (.nop g e) (x.pc + 1) y ∧ go .fence (.fence g e) (x.pc + 1) y ∧
        (x.stack.length < 16 → go (.call j) (.call g e) here { y with stack := (x.pc + 1) :: x.stack } ∧
          go (.bl32 true a m) (.bl32 g e) far { y with stack := (x.pc + 2) :: x.stack }) ∧
        (16 ≤ x.stack.length → (0 ≤ here → here < 16384 → stop (.call j) (.call g e) 0x06) ∧
          (far < 16384 → stop (.bl32 true a m) (.bl32 g e) 0x06)) ∧
        (∀ (r : Nat) (rest : List Nat), x.stack = r :: rest → go .ret (.ret g e) r { y with stack := rest }) ∧
        (x.stack = [] → stop .ret (.ret g e) 0x07) ∧
        (GroomAt g.val (.halt j) s → ∃ t, exec (.halt g e) s = .next t ∧
          GroomTo g.val { y with st := .halted, haltCode := j.toNat, haltSource := 0, pc := x.pc + 1 } s t)) ∧
      (x.ready = true → x.fetched = none → ∃ t, exec (.illegalInstruction g e) s = .next t ∧ GroomFaults g.val 0x01 y s t)) ∧
    (x.ready = true → ∀ (m : Ecc) (c : Instr),
      c ∈ [Instr.add g .double, .sub g .double, .and g .double, .or g .double, .xor g .double, .shl g .double, .shr g .double,
        .sar g .double, .mul g .double, .min g .double, .max g .double, .cmp g .double, .addi g .double, .movi g .double,
        .addi32 g .double, .li32 g .double, .bitSet g .double, .bitClr g .double, .bitTst g .double, .bitExt g .double,
        .b g .double, .bc g .double, .call g .double, .ret g .double, .loop g .double, .bl32 g .double, .halt g .double,
        .nop g .double, .fence g .double, .ld g .double m, .st g .double m, .lds g .double m, .sts g .double m,
        .amoAdd g .double m, .amoSwap g .double m, .amoCas g .double m, .waite g .double, .waitt g .double, .waitp g .double,
        .waitq g .double, .waitx g .double, .waitr g .double, .csrR g .double, .csrW g .double, .csrS g .double,
        .csrC g .double, .illegalInstruction g .double] →
      ∃ t, exec c s = .next t ∧ GroomFaults g.val 0x0A x s t)

/-- Loads, stores and atomics act on exactly the sized value at A plus offset, or fault for its range, its alignment or its check
with no effect. Rests on 10_bertor_core.md, Data memory and shared scratch (R488 to R493), 10_bertor_core.md, Table 10.9,
10_bertor_core.md, Faults and the watchdog (R501). -/
def Obligations.GroomMemoryAndAtomics : Prop :=
  ∀ (g : Fin 16) (e m : Ecc) (s : State), e ≠ .double →
    let x := s.groom g.val
    let y := x.corrected e
    x.pc + 1 < 16384 →
    ∀ (sc sg : Bool) (d a b : BitVec 4) (sz : BitVec 2) (o : BitVec 11),
      let n := 2 ^ sz.toNat
      let addr := (x.reg a + o.signExtend 64).toNat
      let lim := if sc then 0x10000 else 0x8000
      let W := s.memWord g.val sc (addr / 8)
      let bad (code : Nat) (t : State) : Prop := GroomFaults g.val code y s t
      let kept (t : State) (p : Nat) (k : Nat) : Prop :=
        (∀ i, i ≠ p / 8 → t.memWord g.val sc i = s.memWord g.val sc i) ∧
        (∀ i, t.memWord g.val (!sc) i = s.memWord g.val (!sc) i) ∧
        (∀ c, c < 64 → (c < 8 * (p % 8) ∨ 8 * (p % 8) + 8 * k ≤ c) →
          bit (t.memWord g.val sc (p / 8)) c = bit (s.memWord g.val sc (p / 8)) c) ∧
        (∀ q, q ≠ g.val → t.groom q = s.groom q) ∧ { t with grooms := s.grooms, scratch := s.scratch } = s
      (GroomAt g.val (.load sc d a sz sg o) s →
        ∃ t, exec (if sc then .lds g e m else .ld g e m) s = .next t ∧
          (if lim ≤ addr then bad (if sc then 0x04 else 0x03) t
           else if addr % n ≠ 0 then bad 0x05 t
           else if m = .double then bad (if sc then 0x0C else 0x0B) t
           else
            let v := W.toNat / 2 ^ (8 * (addr % 8)) % 2 ^ (8 * n)
            let r : Word := if sg = true ∧ 2 ^ (8 * n - 1) ≤ v then BitVec.ofInt 64 ((v : Int) - 2 ^ (8 * n)) else BitVec.ofNat 64 v
            GroomTo g.val { ((y.corrected m).setG d r) with pc := x.pc + 1 } s t)) ∧
      (GroomAt g.val (.store sc a b sz o) s →
        ∃ t, exec (if sc then .sts g e m else .st g e m) s = .next t ∧
          (if lim ≤ addr then bad (if sc then 0x04 else 0x03) t
           else if addr % n ≠ 0 then bad 0x05 t
           else if m = .double ∧ n ≠ 8 then bad (if sc then 0x0C else 0x0B) t
           else kept t addr n ∧
            bits (t.memWord g.val sc (addr / 8)) (8 * (addr % 8)) (8 * n) = (x.reg b).toNat % 2 ^ (8 * n) ∧
            t.groom g.val = { (if n = 8 then y else y.corrected m) with pc := x.pc + 1, dmem := (t.groom g.val).dmem })) ∧
      (sc = true → ∀ (wide : Bool) (op : AmoOp), GroomAt g.val (.amo op wide d a b) s →
        let p := (x.reg a).toNat
        let k := if wide then 8 else 4
        let c : Instr := match op with | .add => .amoAdd g e m | .swap => .amoSwap g e m | .cas => .amoCas g e m
        let old := (s.memWord g.val true (p / 8)).toNat / 2 ^ (8 * (p % 8)) % 2 ^ (8 * k)
        let same : Bool := decide (old = (x.reg d).toNat % 2 ^ (8 * k))
        let new := match op with
          | .add => (old + (x.reg b).toNat) % 2 ^ (8 * k)
          | .swap => (x.reg b).toNat % 2 ^ (8 * k)
          | .cas => if same then (x.reg b).toNat % 2 ^ (8 * k) else old
        ∃ t, exec c s = .next t ∧
          (if 0x10000 ≤ p then bad 0x04 t
           else if p % k ≠ 0 then bad 0x05 t
           else if m = .double then bad 0x0C t
           else kept t p k ∧ bits (t.memWord g.val true (p / 8)) (8 * (p % 8)) (8 * k) = new ∧
            t.groom g.val = { ((y.corrected m).setG d (BitVec.ofNat 64 old)) with
              pc := x.pc + 1, flags := (if op = .cas then { x.flags with z := same } else x.flags) }))

/-- A WAIT ends on its condition with T clear and its value in GD, at its deadline with T set and 0, and otherwise waits; one
that cannot end faults. Rests on 10_bertor_core.md, Waiting (R494 to R498), 10_bertor_core.md, Table 10.11,
10_bertor_core.md, Table 10.12. -/
def Obligations.GroomWaitsEndOnConditionOrDeadline : Prop :=
  ∀ (g : Fin 16) (e : Ecc) (s : State), e ≠ .double →
    let x := s.groom g.val
    let y := x.corrected e
    (∀ (d a b : BitVec 4) (p : Bool) (ax : BitVec 3) (m : BitVec 32),
      let A := x.reg a
      let dl : Option Nat := if b = 0 then none else some (x.reg b).toNat
      let past : Bool := decide (b ≠ 0 ∧ (x.reg b).toNat ≤ s.tb.count)
      let last := (Tab.get [] s.samples ax.toNat).head?
      let ends (i : BInstr) (v : Word) (c late : Bool) (ev : BitVec 16) (t : State) : Prop :=
        GroomTo g.val { (y.setG d v) with flags := { x.flags with c := c, t := late }, evpend := ev, pc := x.pc + i.len, st := .running } s t
      let wait (i : BInstr) (c : Instr) (met : Option Word) (ev : BitVec 16) (k : WaitKind) (dd : Option Nat) (pd : Bool) : Prop :=
        GroomAt g.val i s → x.pc + i.len < 16384 → ∃ t, exec c s = .next t ∧ (match met with
          | some v => ends i v true false ev t
          | none => if pd then ends i 0 false true x.evpend t
            else GroomTo g.val { y with st := .waiting, wait := some ⟨k, d, dd, i.len⟩ } s t)
      let mask : BitVec 16 := A.setWidth 16
      let tr := bits A 0 16
      let lv := bits A 32 29
      let dep := if s.trgOn tr then (s.trg tr).vis else 0
      let held := s.armedNow g.val true x.armEn (x.armEv.setWidth 16) x.armT.toNat x.armP x.armPv x.armQ 0
      (¬ (mask = 0 ∧ b = 0) → wait (.waite p d a b) (.waite g e)
        (if x.evpend &&& mask = 0 then none else some ((x.evpend &&& mask).setWidth 64))
        (if p then x.evpend &&& ~~~(x.evpend &&& mask) else x.evpend) (.event mask p) dl past) ∧
      (mask = 0 → b = 0 → GroomAt g.val (.waite p d a b) s → x.pc + 1 < 16384 →
        ∃ t, exec (.waite g e) s = .next t ∧ GroomFaults g.val 0x09 y s t) ∧
      wait (.waitt d a) (.waitt g e) (if A.toNat ≤ s.tb.count then some (BitVec.ofNat 64 s.tb.count) else none) x.evpend
        (.time A.toNat 0) none false ∧
      wait (.waitr d m) (.waitr g e) (if m = 0 then some (BitVec.ofNat 64 s.tb.count) else none) x.evpend
        (.reltime (s.tb.count + m.toNat)) none false ∧
      wait (.waitp p ax d a b) (.waitp g e)
        (match last with
          | none => none
          | some q => if s.axisDead ax.toNat = false ∧ (if p then q.pos.toInt ≤ A.toInt else A.toInt ≤ q.pos.toInt)
            then some q.pos else none) x.evpend
        (.position ax.toNat p A (Tab.get [] s.samples ax.toNat).length) dl past ∧
      wait (.waitq p d a b) (.waitq g e)
        (if (if p then dep ≤ lv else lv < dep) then some (BitVec.ofNat 64 dep) else none) x.evpend (.depth tr p lv) dl past ∧
      (¬ (x.armEn = 0 ∧ b = 0) → wait (.waitx d b) (.waitx g e) (if held = 0 then none else some (BitVec.ofNat 64 held)) x.evpend
        (.armed x.armEn (x.armEv.setWidth 16) x.armT.toNat x.armP x.armPv x.armQ
          (Tab.get [] s.samples (bits x.armP 0 3)).length) dl past) ∧
      (x.armEn = 0 → b = 0 → GroomAt g.val (.waitx d b) s → x.pc + 1 < 16384 →
        ∃ t, exec (.waitx g e) s = .next t ∧ GroomFaults g.val 0x09 y s t)) ∧
    (∀ (k : WaitKind) (d : BitVec 4) (dl : Option Nat) (n : Nat), x.st = .waiting → x.wait = some ⟨k, d, dl, n⟩ →
      let fin (v : Word) (late : Bool) (ev : BitVec 16) (t : State) : Prop :=
        t.groom g.val = { (x.setG d v) with
          flags := { x.flags with c := false, t := late }, evpend := ev, wait := none, pc := x.pc + n, st := .running } ∧
        (∀ q, q ≠ g.val → t.groom q = s.groom q) ∧ { t with grooms := s.grooms, tb := s.tb } = s
      (∀ (mk : BitVec 16) (p : Bool), k = .event mk p → x.evpend &&& mk ≠ 0 →
        ∃ t, exec (.waitEnd g) s = .next t ∧ t.tb = s.tb ∧
          fin ((x.evpend &&& mk).setWidth 64) false (if p then x.evpend &&& ~~~(x.evpend &&& mk) else x.evpend) t) ∧
      (∀ (mk : BitVec 16) (p : Bool) (u : Nat), k = .event mk p → x.evpend &&& mk = 0 → dl = some u →
        ∃ t, exec (.waitEnd g) s = .next t ∧ t.tb.count = max s.tb.count u ∧ fin 0 true x.evpend t) ∧
      (∀ (mk : BitVec 16) (p : Bool), k = .event mk p → x.evpend &&& mk = 0 → dl = none → exec (.waitEnd g) s = .next s) ∧
      (∀ u, k = .reltime u → dl = none →
        ∃ t, exec (.waitEnd g) s = .next t ∧ t.tb.count = max s.tb.count u ∧ fin (BitVec.ofNat 64 u) false x.evpend t) ∧
      (∀ u r, k = .time u r → dl = none →
        ∃ t, exec (.waitEnd g) s = .next t ∧ t.tb.count = max s.tb.count u ∧
          fin (BitVec.ofNat 64 (max s.tb.count u)) false x.evpend t) ∧
      (∀ tr lv, k = .depth tr false lv → s.trgOn tr = true → lv < (s.trg tr).vis →
        ∃ t, exec (.waitEnd g) s = .next t ∧ t.tb = s.tb ∧ fin (BitVec.ofNat 64 (s.trg tr).vis) false x.evpend t))

/-- CSR.R, .W, .S and .C read and change exactly the registers of Table 10.12 by their types, and any other use is fault CSR.
Rests on 10_bertor_core.md, Control and status registers (R499, R500), 10_bertor_core.md, Table 10.12, 10_bertor_core.md,
Table 10.3, 10_bertor_core.md, Table 10.13, 10_bertor_core.md, Faults and the watchdog (R501, R502). -/
def Obligations.GroomControlRegistersReadAndWrite : Prop :=
  ∀ (g : Fin 16) (e : Ecc) (s : State), e ≠ .double →
    let x := s.groom g.val
    let y := x.corrected e
    x.pc + 1 < 16384 →
    ∀ (d a : BitVec 4) (n : BitVec 12),
      let A := x.reg a
      let k := n.toNat
      let old := s.csrRead g.val k
      let ro : Prop := k ∈ [0x000, 0x002, 0x003, 0x008, 0x009, 0x00C, 0x00D] ∨ 0x020 ≤ k ∧ k ≤ 0x02F
      let rw : Prop := k ∈ [0x001, 0x00B, 0x018, 0x019, 0x01A, 0x01B, 0x01C, 0x01D]
      let w1c : Prop := k ∈ [0x010, 0x011]
      let mask : Nat := match k with
        | 0x001 => 0x1F | 0x00B => 0x1FFFF | 0x018 => 0xF | 0x019 => 0xFFFF | 0x01B => 0xF
        | 0x01D => 0x1FFFFFFF0001FFFF | _ => 0xFFFFFFFFFFFFFFFF
      let one (i : BInstr) (c : Instr) (P : State → Prop) : Prop :=
        GroomAt g.val i s → ∃ t, exec c s = .next t ∧ P t
      let rest (t : State) : Prop := { t with grooms := s.grooms } = s ∧ (∀ q, q ≠ g.val → t.groom q = s.groom q) ∧
        (t.groom g.val).pc = x.pc + 1 ∧ (t.groom g.val).dmem = x.dmem ∧ (t.groom g.val).imem = x.imem ∧
        (t.groom g.val).stack = x.stack ∧ (t.groom g.val).st = x.st ∧
        (k ≠ 0x001 → (t.groom g.val).flags = x.flags)
      (ro ∨ rw ∨ w1c → one (.csr .read d a n) (.csrR g e) fun t =>
        ∃ v, GroomTo g.val { (y.setG d v) with pc := x.pc + 1 } s t ∧ (k ≠ 0x00D → v = old) ∧ (k = 0x00D → v = y.eccCorr) ∧
          (k = 0x000 → v = BitVec.ofNat 64 g.val) ∧ (k = 0x001 → v = x.flags.word) ∧ (k = 0x002 → v = BitVec.ofNat 64 x.pc) ∧
          (k = 0x003 → v = BitVec.ofNat 64 x.stack.length) ∧ (k = 0x009 → v = BitVec.ofNat 64 s.tb.count)) ∧
      (rw → one (.csr .write d a n) (.csrW g e) fun t => rest t ∧ t.csrRead g.val k = A &&& BitVec.ofNat 64 mask ∧
        (t.groom g.val).g = x.g ∧ (k = 0x00B → (t.groom g.val).wdogBase = s.tb.cycles)) ∧
      (rw → one (.csr .set d a n) (.csrS g e) fun t => rest t ∧ t.csrRead g.val k = (old ||| A) &&& BitVec.ofNat 64 mask ∧
        (t.groom g.val).g = (x.setG d old).g) ∧
      (rw → one (.csr .clear d a n) (.csrC g e) fun t => rest t ∧ t.csrRead g.val k = (old &&& ~~~A) &&& BitVec.ofNat 64 mask ∧
        (t.groom g.val).g = (x.setG d old).g) ∧
      (k = 0x010 → one (.csr .write d a n) (.csrW g e) fun t =>
        GroomTo g.val { y with evpend := x.evpend &&& ~~~(A.setWidth 16), pc := x.pc + 1 } s t) ∧
      (k = 0x011 → one (.csr .write d a n) (.csrW g e) fun t =>
        GroomTo g.val { y with evover := x.evover &&& ~~~(A.setWidth 16), pc := x.pc + 1 } s t) ∧
      (k = 0x00A → one (.csr .write d a n) (.csrW g e) fun t =>
        GroomTo g.val { y with wdogBase := s.tb.cycles, pc := x.pc + 1 } s t) ∧
      (¬ (ro ∨ rw ∨ w1c) → one (.csr .read d a n) (.csrR g e) fun t => GroomFaults g.val 0x08 y s t) ∧
      (¬ (rw ∨ w1c ∨ k = 0x00A) → one (.csr .write d a n) (.csrW g e) fun t => GroomFaults g.val 0x08 y s t) ∧
      (¬ rw → one (.csr .set d a n) (.csrS g e) (fun t => GroomFaults g.val 0x08 y s t) ∧
        one (.csr .clear d a n) (.csrC g e) (fun t => GroomFaults g.val 0x08 y s t))

/-- The host releases, halts, loads and reads a groom as R543 to R547 say, events reach its inputs, and its watchdog expires.
Rests on 10_bertor_core.md, The groom (R467 to R471), 10_bertor_core.md, Waiting (R494), 10_bertor_core.md, Faults and the
watchdog (R502), 11_bertor_acquisition.md, How a device instruction leaves the groom (R510), 11_bertor_acquisition.md,
Loading, releasing and watching a groom (R543 to R547). -/
def Obligations.GroomHostEventsAndWatchdog : Prop :=
  ∀ (g : Fin 16) (s : State),
    let x := s.groom g.val
    let can (k : Nat) : Prop := ((s.groom k).st = .halted ∨ (s.groom k).st = .faulted) ∧
      s.ctl.mode ∈ [Mode.armed, .stream, .burst, .drain, .shadow]
    let released (y : Groom) (at' : Nat) : Groom := { y with
      st := .running, pc := at', stack := [], flags := Flags.zero, cycleBase := s.tb.cycles, wdogBase := s.tb.cycles
      evpend := 0, evover := 0, armEn := 0, wait := none, haltReq := none }
    (∀ v : Word, bit v 2 = false → bit v 3 = false → ∃ t, exec (.groomRelease g v) s = .next t ∧
      { t with regs := s.regs, grooms := s.grooms } = s ∧ RegsBut [(.GROOM_CTRL, g.val)] s t ∧
      t.get F.GROOM_CTRL_START_ADDR g.val = bits v 16 14 ∧ t.get F.GROOM_CTRL_START_EN g.val = bits v 0 1 ∧
      (∀ k, k ≠ g.val → t.groom k = s.groom k) ∧ (can g.val → t.groom g.val = released x (bits v 16 14)) ∧
      (¬ can g.val → t.groom g.val = x ∧ t.isOn F.GROOM_CTRL_REJECTED g.val = true)) ∧
    (∀ v : Word, bit v 1 = false → bit v 3 = false → ∃ t, exec (.groomHalt g v) s = .next t ∧
      { t with regs := s.regs, grooms := s.grooms } = s ∧ RegsBut [(.GROOM_CTRL, g.val)] s t ∧
      (∀ k, k ≠ g.val → t.groom k = s.groom k) ∧
      t.groom g.val = (if x.st = .running ∨ x.st = .waiting then { x with haltReq := some 1 } else x)) ∧
    (x.haltReq = none → exec (.groomHaltEffect g) s = .next s) ∧
    (∀ src, x.haltReq = some src → (x.st = .running ∨ x.st = .waiting) →
      let halted : Groom := { x with st := .halted, haltSource := src, wait := none, haltReq := none }
      ((x.wait = none ∨ ∃ m b d dl n, x.wait = some ⟨.event m b, d, dl, n⟩) →
        ∃ t, exec (.groomHaltEffect g) s = .next t ∧ GroomTo g.val halted s t) ∧
      (∀ c d dl n, x.wait = some ⟨.tackDone c, d, dl, n⟩ → ∃ t, exec (.groomHaltEffect g) s = .next t ∧
        { t with regs := s.regs, grooms := s.grooms } = s ∧ t.groom g.val = { halted with pc := x.pc + n } ∧
        t.get F.GROOM_DEV_COUNT2_HALT_ABANDONED g.val = min (s.get F.GROOM_DEV_COUNT2_HALT_ABANDONED g.val + 1) 0xFFFF)) ∧
    (∃ t, exec (.groomCntClear g) s = .next t ∧ OnlyRegs [(.GROOM_DEV_COUNT, g.val), (.GROOM_DEV_COUNT2, g.val)] s t ∧
      t.rd .GROOM_DEV_COUNT g.val = 0 ∧ t.rd .GROOM_DEV_COUNT2 g.val = 0) ∧
    (∀ v : Word, ∀ c ∈ [Instr.groupRelease v, .groupHalt v], ∃ t, exec c s = .next t ∧
      { t with regs := s.regs, grooms := s.grooms } = s ∧ (∀ k, 16 ≤ k → t.groom k = s.groom k) ∧
      ∀ k, k < 16 → (bit v k = true → bit v (16 + k) = false → can k →
          t.groom k = released (s.groom k) (s.get F.GROOM_CTRL_START_ADDR k)) ∧
        (bit v k = true → (bit v (16 + k) = true ∨ ¬ can k) → t.groom k = s.groom k ∧ t.isOn F.GROOM_CTRL_REJECTED k = true) ∧
        (bit v k = false → t.groom k = (if bit v (16 + k) = true ∧ ((s.groom k).st = .running ∨ (s.groom k).st = .waiting)
          then { s.groom k with haltReq := some 1 } else s.groom k))) ∧
    (∀ (i : Fin 16384) (w : BitVec 32),
      ((x.st = .running ∨ x.st = .waiting) → ∃ t, exec (.imemHostWrite g i w) s = .next t ∧ OnlyRegs [(.GROOM_DEV_COUNT2, g.val)] s t ∧
        t.get F.GROOM_DEV_COUNT2_IMEM_WRITE_DISCARD g.val = min (s.get F.GROOM_DEV_COUNT2_IMEM_WRITE_DISCARD g.val + 1) 0xFFFF) ∧
      ((x.st = .halted ∨ x.st = .faulted) → ∃ t, exec (.imemHostWrite g i w) s = .next t ∧
        GroomTo g.val { x with imem := (t.groom g.val).imem } s t ∧
        ∀ j, (t.groom g.val).iword j = if j = i.val then w else x.iword j)) ∧
    (∀ (n : Fin 16) (v : Word),
      ((x.st = .running ∨ x.st = .waiting) → ∃ t, exec (.groomGWrite g n v) s = .next t ∧ OnlyRegs [(.GROOM_DEV_COUNT2, g.val)] s t ∧
        t.get F.GROOM_DEV_COUNT2_REG_WRITE_DISCARD g.val = min (s.get F.GROOM_DEV_COUNT2_REG_WRITE_DISCARD g.val + 1) 0xFFFF) ∧
      ((x.st = .halted ∨ x.st = .faulted) → ∃ t, exec (.groomGWrite g n v) s = .next t ∧
        GroomTo g.val { x with g := (t.groom g.val).g } s t ∧
        ∀ r : BitVec 4, (t.groom g.val).reg r = if r.toNat = n.val ∧ n.val ≠ 0 then v else x.reg r)) ∧
    (∀ v : Word, ∃ t, exec (.groomWdogCfgWrite g v) s = .next t ∧
      GroomTo g.val { x with wdogCfg := v &&& 0x1FFFF, wdogBase := s.tb.cycles } s t) ∧
    (∀ (i : Fin 8192) (v : Word) (be : BitVec 8),
      (∃ t, exec (.scratchHostAccess true i v be) s = .next t ∧ { t with scratch := s.scratch } = s ∧
        (∀ j, j ≠ i.val → t.memWord 0 true j = s.memWord 0 true j) ∧
        ∀ k, k < 64 → bit (t.memWord 0 true i.val) k = (if be.getLsbD (k / 8) then bit v k else bit (s.memWord 0 true i.val) k)) ∧
      exec (.scratchHostAccess false i v be) s =
        .next { s with sent := s.sent ++ [.completion 0 0 (bytesOfNat 8 (s.memWord 0 true i.val).toNat) false] }) ∧
    (∀ (n : Fin 16) (e : YEvent), s.yard.delivered.find? (fun d => d.id == 32 + 16 * g.val + n.val) = some e →
      ∃ t, exec (.groomEventInput g n) s = .next t ∧ { t with yard := s.yard, grooms := s.grooms } = s ∧
        t.yard = { s.yard with delivered := s.yard.delivered.erase e } ∧ (∀ k, k ≠ g.val → t.groom k = s.groom k) ∧
        (t.groom g.val).evpend = x.evpend ||| (1#16 <<< n.val) ∧
        (t.groom g.val).evover = (if x.evpend.getLsbD n.val then x.evover ||| (1#16 <<< n.val) else x.evover) ∧
        t.csrRead g.val (0x20 + n.val) = BitVec.ofNat 64 e.tick ∧ (t.groom g.val).st = x.st ∧ (t.groom g.val).pc = x.pc) ∧
    ((x.st = .running ∨ x.st = .waiting) → bits x.wdogCfg 0 16 ≠ 0 →
      ∃ t, exec (.groomWatchdogExpiry g) s = .next t ∧
        t.tb.cycles = max s.tb.cycles (x.wdogBase + bits x.wdogCfg 0 16 * 1000) ∧
        (∃ a, t.mgmt.raised = s.mgmt.raised ++ [a] ∧ a.code = 0x12 ∧ bits a.data 0 8 = g.val) ∧
        ((s.yard.raised.filter (fun e => e.id == 144 + 16 * g.val + 15)).length < 2 →
          ∃ u, t.yard.raised = s.yard.raised ++ [⟨144 + 16 * g.val + 15, u⟩]) ∧
        (bit x.wdogCfg 16 = false → t.groom g.val = { x with wdogBase := t.tb.cycles }) ∧
        (bit x.wdogCfg 16 = true → (t.groom g.val).st = .faulted ∧ bits (t.groom g.val).fault 0 8 = 0x0D ∧
          (t.groom g.val).pc = x.pc ∧ (t.groom g.val).g = x.g))

/-- EMIT and EMITW place a pulse or level at the target or the lead limit and report it, SIG raises its producers, CTRIG queues,
WPT answers. Rests on 11_bertor_acquisition.md, Outputs and events (R512 to R519), 11_bertor_acquisition.md, Table 11.2,
11_bertor_acquisition.md, Camera triggers (R520, R521), 11_bertor_acquisition.md, Waypoint lists (R523 to R525),
04_vyl_protocol.md, Triggers (R170). -/
def Obligations.GroomsDriveOutputsEventsAndLists : Prop :=
  ∀ (g : Fin 16) (e : Ecc) (s : State), e ≠ .double →
    let x := s.groom g.val
    let y := x.corrected e
    x.pc + 1 < 16384 →
    ∀ (d a b : BitVec 4) (o : BitVec 5),
      let lead := s.tb.count + 16
      let A := (x.reg a).toNat
      let B := (x.reg b).toNat
      let frame (t : State) : Prop := { t with grooms := s.grooms, outs := s.outs, regs := s.regs } = s ∧
        RegsBut [(.OUT_COUNT, o.toNat), (.GROOM_DEV_COUNT, g.val)] s t ∧ (∀ k, k ≠ g.val → t.groom k = s.groom k) ∧
        ∀ q, q ≠ o.toNat → t.sched q = s.sched q
      let reply (v : Nat) (c nv : Bool) (t : State) : Prop :=
        t.groom g.val = { (y.setG d (BitVec.ofNat 64 v)) with flags := { x.flags with c := c, v := nv }, pc := x.pc + 1 } ∧
        (c = true → t.get F.GROOM_DEV_COUNT_EMIT_LATE g.val = min (s.get F.GROOM_DEV_COUNT_EMIT_LATE g.val + 1) 0xFFFF ∧
          t.get F.OUT_COUNT_LATE o.toNat = min (s.get F.OUT_COUNT_LATE o.toNat + 1) 0xFFFF)
      let pulse (f w : Nat) (t : State) : Prop :=
        t.sched o.toNat = { Sched.zero with pulses := [⟨.groom g.val, f, some (f + max w 4)⟩] }
      let level (f : Nat) (act : LevelAct) (t : State) : Prop :=
        t.sched o.toNat = { Sched.zero with changes := [⟨.groom g.val, f, act⟩] }
      let first (timed : Bool) : Nat := if timed then max A lead else lead
      let late (timed : Bool) : Bool := timed && decide (A < lead)
      (o.toNat < 16 → s.sched o.toNat = Sched.zero → s.isOn F.OUT_CFG_ENABLE o.toNat = true → s.outOpen = true →
        (∀ timed, GroomAt g.val (.emit .pulse timed o d a b) s → ∃ t, exec (.emitPulse g e) s = .next t ∧ frame t ∧
          (if B = 0 then reply 0 (late timed) true t ∧ t.sched o.toNat = Sched.zero ∧
              t.get F.OUT_COUNT_WINDOW_EMPTY o.toNat = min (s.get F.OUT_COUNT_WINDOW_EMPTY o.toNat + 1) 0xFFFF
           else reply (first timed) (late timed) false t ∧ pulse (first timed) B t)) ∧
        (∀ timed, GroomAt g.val (.emit .set timed o d a b) s → ∃ t, exec (.emitSet g e) s = .next t ∧ frame t ∧
          reply (first timed) (late timed) false t ∧ level (first timed) .set t) ∧
        (∀ timed, GroomAt g.val (.emit .clear timed o d a b) s → ∃ t, exec (.emitClear g e) s = .next t ∧ frame t ∧
          reply (first timed) (late timed) false t ∧ level (first timed) .clear t) ∧
        (A < B → GroomAt g.val (.emitw o d a b) s → ∃ t, exec (.emitw g e) s = .next t ∧ frame t ∧
          reply (first true) (late true) false t ∧ pulse (first true) (B - A) t) ∧
        (B < A → GroomAt g.val (.emitw o d a b) s → ∃ t, exec (.emitw g e) s = .next t ∧
          reply 0 (late true) true t ∧ t.sched o.toNat = Sched.zero ∧ ∃ f ∈ t.mgmt.faults, f.code = 0x02)) ∧
      (o.toNat < 31 → s.sched o.toNat = Sched.zero → s.outOpen = false →
        ∀ i c, (i, c) ∈ [(BInstr.emit .pulse true o d a b, Instr.emitPulse g e), (.emit .set true o d a b, .emitSet g e),
          (.emit .clear true o d a b, .emitClear g e), (.emitw o d a b, .emitw g e)] → GroomAt g.val i s →
        ∃ t, exec c s = .next t ∧ frame t ∧ reply 0 false true t ∧ t.sched o.toNat = Sched.zero ∧
          t.get F.GROOM_DEV_COUNT_EMIT_SUPPRESSED g.val = min (s.get F.GROOM_DEV_COUNT_EMIT_SUPPRESSED g.val + 1) 0xFFFF) ∧
      (o.toNat = 31 → ∀ i c, (i, c) ∈ [(BInstr.emit .pulse true o d a b, Instr.emitPulse g e), (.emit .set true o d a b, .emitSet g e),
          (.emit .clear true o d a b, .emitClear g e), (.emitw o d a b, .emitw g e)] → GroomAt g.val i s →
        ∃ t, exec c s = .next t ∧ GroomFaults g.val 0x10 y s t) ∧
      (∀ n : BitVec 4, GroomAt g.val (.sig n) s →
        (s.yard.raised.filter (fun q => q.id == 144 + 16 * g.val + n.toNat)).length < 2 →
        ∃ t, exec (.sig g e) s = .next t ∧ { t with grooms := s.grooms, yard := s.yard } = s ∧ t.groom g.val = { y with pc := x.pc + 1 } ∧
          t.yard = { s.yard with raised := s.yard.raised ++ [⟨144 + 16 * g.val + n.toNat, s.tb.count⟩] }) ∧
      (GroomAt g.val (.sigM a) s → s.yard.raised = [] →
        ∃ t, exec (.sigM g e) s = .next t ∧ { t with grooms := s.grooms, yard := s.yard } = s ∧ t.groom g.val = { y with pc := x.pc + 1 } ∧
          t.yard.delivered = s.yard.delivered ∧ t.yard.raised =
            ((List.range 15).filter (fun n => bit (x.reg a) n)).map (fun n => ⟨144 + 16 * g.val + n, s.tb.count⟩)) ∧
      (∀ (st : BitVec 4) (act : BitVec 8), GroomAt g.val (.ctrig st act a b) s →
        ∃ t, exec (.ctrig g e) s = .next t ∧ { t with grooms := s.grooms, stalls := s.stalls, regs := s.regs } = s ∧
          t.groom g.val = { y with pc := x.pc + 1 } ∧
          (if s.trigOk st.toNat = false then RegsBut [(.STALL_TRIG_COUNT, st.toNat)] s t ∧ t.stalls = s.stalls ∧
              t.get F.STALL_TRIG_COUNT_TRIG_UNSENT st.toNat = min (s.get F.STALL_TRIG_COUNT_TRIG_UNSENT st.toNat + 1) 0xFFFF
           else if 32 ≤ ((s.stall st.toNat).trigs.filter fun q => !q.yard).length then
              RegsBut [(.GROOM_DEV_COUNT, g.val)] s t ∧ t.stalls = s.stalls ∧
              t.get F.GROOM_DEV_COUNT_CTRIG_FULL g.val = min (s.get F.GROOM_DEV_COUNT_CTRIG_FULL g.val + 1) 0xFFFF
           else RegsBut [] s t ∧ t.stall st.toNat =
            { s.stall st.toNat with trigs := (s.stall st.toNat).trigs ++ [⟨A, act.toNat, B % 256, false, some g.val⟩] })) ∧
      (let l := o.toNat
       let v := x.reg a
       let answer (refused : Bool) (t : State) : Prop := (∀ k, k ≠ g.val → t.groom k = s.groom k) ∧ t.wpMem = s.wpMem ∧
        ∃ r : Word, t.groom g.val = { (y.setG d r) with flags := { x.flags with z := !refused }, pc := x.pc + 1 } ∧
          r.toNat = t.wpState l + 4 * b2n refused + 2 ^ 32 * t.wpNext l
       (GroomAt g.val (.wpt .set o d a) s → ∃ t, exec (.wptSet g e) s = .next t ∧
        (if s.wpState l = 1 ∨ bits v 18 19 = 0 ∨ 262144 < bits v 0 18 + bits v 18 19 ∨ bits v 41 23 ≠ 0
         then answer true t ∧ RegsBut [] s t
         else answer false t ∧ t.rd .WP_LIST_DESC l = v ∧ t.wpState l = 0 ∧ t.wpNext l = 0)) ∧
       (GroomAt g.val (.wpt .act o d a) s → ∃ t, exec (.wptAct g e) s = .next t ∧
        (if s.wpState l = 0 ∧ s.wpCount l = 0 then answer true t ∧ RegsBut [] s t
         else answer false t ∧ t.wpState l = (if s.wpState l = 0 then 1 else s.wpState l) ∧ t.wpNext l = s.wpNext l)) ∧
       (GroomAt g.val (.wpt .deact o d a) s → ∃ t, exec (.wptDeact g e) s = .next t ∧ answer false t ∧
        t.wpState l = (if s.wpState l = 1 then 0 else s.wpState l) ∧ t.wpNext l = s.wpNext l))

/-- ARM answers DONE, NOT_ENABLED or NO_CHANGE, TACK commits and answers its result, ACAP starts or stops converters at one tick,
MODE places a request. Rests on 11_bertor_acquisition.md, Contexts (R526 to R529), 11_bertor_acquisition.md, Analogue capture
and modes (R537 to R539), 11_bertor_acquisition.md, How a device instruction leaves the groom (R509),
02_modes_and_startup.md, Table 2.8. -/
def Obligations.GroomsArmCommitCaptureAndChangeMode : Prop :=
  ∀ (g : Fin 16) (e m : Ecc) (s : State), e ≠ .double →
    let x := s.groom g.val
    let y := x.corrected e
    (x.pc + 1 < 16384 → ∀ (d a b : BitVec 4) (c : BitVec 6) (cp w : Bool),
      let n := c.toNat
      let dl : Option Nat := if b = 0 then none else some (x.reg b).toNat
      let addr := (x.reg a).toNat
      let done (r : Nat) (f : Flags) (t : State) : Prop :=
        t.groom g.val = { (y.setG d (BitVec.ofNat 64 r)) with flags := f, pc := x.pc + 1 }
      let checking (z : Groom) (t : State) : Prop := (t.ctx n).check = some ⟨cp, some g.val⟩ ∧ t.get F.CTX_COMMIT_RESULT n = 1 ∧
        t.get F.CTX_COMMIT_GO n = 1 ∧ t.groom g.val = { z with wait := some ⟨.tackCheck n w, d, dl, 1⟩ }
      (∀ off, GroomAt g.val (.arm off c d) s → ∃ t, exec (if off then .armOff g e else .arm g e) s = .next t ∧
        (if s.ctxOn n = false then GroomTo g.val { (y.setG d 1) with flags := { x.flags with z := false }, pc := x.pc + 1 } s t
         else if s.isOn F.CTX_STATUS_ARMED n = !off ∨ off = false ∧ s.active n = none then
          GroomTo g.val { (y.setG d 2) with flags := { x.flags with z := false }, pc := x.pc + 1 } s t
         else done 0 { x.flags with z := true } t ∧ t.isOn F.CTX_STATUS_ARMED n = !off ∧ (t.ctx n).a = (s.ctx n).a ∧
          (t.ctx n).b = (s.ctx n).b)) ∧
      (GroomAt g.val (.tack cp w false c d 0 b) s → ∃ t, exec (.tack g e) s = .next t ∧
        { t with regs := s.regs, grooms := s.grooms, ctxs := s.ctxs } = s ∧ RegsBut [(.CTX_COMMIT, n)] s t ∧
        (∀ k, k ≠ g.val → t.groom k = s.groom k) ∧
        (if (s.ctx n).check = none ∧ s.get F.CTX_STATUS_PENDING_COPY n = 0
         then checking y t ∧ t.ctx n = { s.ctx n with check := some ⟨cp, some g.val⟩ }
         else done 9 { x.flags with z := false, t := false } t ∧ t.isOn F.CTX_COMMIT_GO_REFUSED n = true ∧ t.ctxs = s.ctxs)) ∧
      (GroomAt g.val (.tack cp w true c d a b) s →
        (0x8000 < addr + 1024 → ∃ t, exec (.tackLoad g e m) s = .next t ∧ GroomFaults g.val 0x03 y s t ∧ t.ctxs = s.ctxs) ∧
        (addr + 1024 ≤ 0x8000 → addr % 8 ≠ 0 → ∃ t, exec (.tackLoad g e m) s = .next t ∧ GroomFaults g.val 0x05 y s t ∧ t.ctxs = s.ctxs) ∧
        (addr + 1024 ≤ 0x8000 → addr % 8 = 0 → m = .double →
          ∃ t, exec (.tackLoad g e m) s = .next t ∧ GroomFaults g.val 0x0B y s t ∧ t.ctxs = s.ctxs) ∧
        (addr + 1024 ≤ 0x8000 → addr % 8 = 0 → m = .clean → s.copyLocked n cp = true →
          ∃ t, exec (.tackLoad g e m) s = .next t ∧
            GroomTo g.val { (y.setG d 0xA) with flags := { x.flags with z := false, t := false }, pc := x.pc + 1 } s t) ∧
        (addr + 1024 ≤ 0x8000 → addr % 8 = 0 → m = .clean → s.copyLocked n cp = false → (s.ctx n).check = none →
          s.get F.CTX_STATUS_PENDING_COPY n = 0 → ∃ t, exec (.tackLoad g e m) s = .next t ∧ checking y t ∧
            (∀ k, k < 128 → Tab.get 0 ((t.ctx n).copy cp) k = Tab.get 0 x.dmem (addr / 8 + k)) ∧
            (t.ctx n).copy (!cp) = (s.ctx n).copy (!cp))) ∧
      (GroomAt g.val (.tackCancel c d) s → ∃ t, exec (.tackCancel g e) s = .next t ∧
        (if s.get F.CTX_STATUS_PENDING_COPY n = 0 then RegsBut [] s t ∧ t.ctxs = s.ctxs
         else t.get F.CTX_STATUS_PENDING_COPY n = 0 ∧ t.get F.CTX_COMMIT_RESULT n = 8 ∧
          done 8 { x.flags with z := false, t := false } t)) ∧
      (∀ (stop : Bool) (q : BitVec 8), GroomAt g.val (.acap stop q d) s →
        ∃ t, exec (if stop then .acapStop g e else .acapStart g e) s = .next t ∧ done s.tb.count x.flags t ∧
          (q = 0 → { t with grooms := s.grooms } = s) ∧
          (∀ k : Fin 8, q = 1#8 <<< k.val → e = .clean → { t with grooms := s.grooms } =
            { (if stop then s.adcStop k.val s.tb.count else s.adcStart k.val s.tb.count) with grooms := s.grooms })) ∧
      (∀ tg : BitVec 4, GroomAt g.val (.mode w tg d b) s → ∃ t, exec (.mode g e) s = .next t ∧
        { t with grooms := s.grooms, ctl := s.ctl } = s ∧ t.ctl.mode = s.ctl.mode ∧
        (if tg.toNat ∈ [6, 7, 8, 9, 11] then (∃ r ∈ t.ctl.pend, r.src = .groom g.val ∧ r.target = tg.toNat) ∧
          (w = false → done 1 { x.flags with z := false, t := false } t) ∧
          (w = true → t.groom g.val = { y with wait := some ⟨.mode, d, dl, 1⟩ })
         else t.ctl = s.ctl ∧ done 6 { x.flags with z := false, t := false } t))) ∧
    (∀ (d : BitVec 4) (dl : Option Nat) (n : Nat),
      let ended (r : Nat) (z late : Bool) (t : State) : Prop := t.groom g.val = { (x.setG d (BitVec.ofNat 64 r)) with
        st := .running, wait := none, pc := x.pc + n, flags := { x.flags with z := z, t := late } } ∧
        (∀ k, k ≠ g.val → t.groom k = s.groom k) ∧ { t with grooms := s.grooms, tb := s.tb } = s
      (∀ r, r < 16 → x.wait = some ⟨.tackEnded r, d, dl, n⟩ →
        ∃ t, exec (.tackWaitEnd g) s = .next t ∧ t.tb = s.tb ∧ ended r (decide (r = 2 ∨ r = 3)) false t) ∧
      (∀ k u, x.wait = some ⟨.tackDone k, d, some u, n⟩ →
        ∃ t, exec (.tackWaitEnd g) s = .next t ∧ t.tb.count = max s.tb.count u ∧ ended 2 true true t) ∧
      (∀ r, x.wait = some ⟨.modeEnded r, d, dl, n⟩ →
        ∃ t, exec (.modeWaitEnd g) s = .next t ∧ t.tb = s.tb ∧ ended r (decide (r = 2)) false t) ∧
      (∀ u, x.wait = some ⟨.mode, d, some u, n⟩ →
        ∃ t, exec (.modeWaitEnd g) s = .next t ∧ t.tb.count = max s.tb.count u ∧ ended 1 false true t))

/-- QPUSH, QPUSH.P, TAG and DRAIN push one item or drop it and answer 0, 1, 2 or 3; QPOP and QPOP.P take the head item or say why
not. Rests on 11_bertor_acquisition.md, Troughs (R530 to R535), 11_bertor_acquisition.md, Table 11.7, 08_fen_and_troughs.md,
Table 8.6, 08_fen_and_troughs.md, Pushes (R375 to R380), 11_bertor_acquisition.md, How a device instruction leaves the groom
(R509). -/
def Obligations.GroomsPushAndPopTroughs : Prop :=
  ∀ (g : Fin 16) (e m : Ecc) (s : State), e ≠ .double →
    let x := s.groom g.val
    let y := x.corrected e
    x.pc + 1 < 16384 →
    ∀ (d a b : BitVec 4),
      let A := x.reg a
      let B := x.reg b
      let q := bits A 0 16
      let dm (k : Nat) : Word := Tab.get 0 x.dmem (B.toNat / 8 + k)
      let put (z : Groom) (r : Nat) (f : Flags) (t : State) : Prop :=
        t.groom g.val = { (z.setG d (BitVec.ofNat 64 r)) with flags := f, pc := x.pc + 1 } ∧ ∀ k, k ≠ g.val → t.groom k = s.groom k
      let push (p : Nat) (ws : List Word) (c : Instr) (z : Groom) : Prop :=
        (p < 400 → ∃ t, exec c s = .next t ∧ GroomFaults g.val 0x11 z s t ∧ t.isOn F.TRG_STATUS_REFUSED_ACCESS p = true) ∧
        (400 ≤ p → s.trgOn p = false → ∃ t, exec c s = .next t ∧ put z 2 { x.flags with z := false } t ∧ t.troughs = s.troughs ∧
          RegsBut [(.TRG_ECC, 0)] s t ∧ t.near = s.near ∧ t.fen = s.fen) ∧
        (400 ≤ p → s.trgOn p = true → s.trgFar p = false → (s.trg p).openBy = none → ws.length ≤ 4096 →
          (s.trg p).vis + ws.length < s.trgSize p → ∃ t, exec c s = .next t ∧ put z 0 { x.flags with z := true } t ∧
            (t.trg p).vis = (s.trg p).vis + ws.length ∧ (∀ k, k ≠ p → t.trg k = s.trg k) ∧ t.fen = s.fen ∧
            ∀ k, k < ws.length → t.visWord p ((s.trg p).vis + k) =
              ⟨ws.getD k 0, decide (k = 0), decide (k + 1 = ws.length), false, false⟩) ∧
        (400 ≤ p → s.trgOn p = true → s.trgFar p = false → (s.trg p).openBy = none → s.trgSize p ≤ (s.trg p).vis + ws.length →
          ∃ t, exec c s = .next t ∧ put z 1 { x.flags with z := false } t ∧
            t.get F.GROOM_DEV_COUNT2_PUSH_DROPS g.val = min (s.get F.GROOM_DEV_COUNT2_PUSH_DROPS g.val + 1) 0xFFFF ∧
            t.get F.TRG_DROPS_DROPPED p = min (s.get F.TRG_DROPS_DROPPED p + 1) 0xFFFFFFFF)
      (GroomAt g.val (.qpush d a b) s → push q [B] (.qpush g e) y) ∧
      (∀ n : BitVec 12, GroomAt g.val (.qpushP n d a b) s →
        (0x8000 < B.toNat + 8 * (n.toNat + 1) → ∃ t, exec (.qpushP g e m) s = .next t ∧ GroomFaults g.val 0x03 y s t) ∧
        (B.toNat + 8 * (n.toNat + 1) ≤ 0x8000 → B.toNat % 8 = 0 → m ≠ .double →
          push q ((List.range (n.toNat + 1)).map dm) (.qpushP g e m) (y.corrected m))) ∧
      (∀ (n : BitVec 3) (ix : BitVec 11), GroomAt g.val (.tag n ix d a b) s → m ≠ .double →
        let extra := (List.range n.toNat).map fun k => Tab.get 0 x.dmem (ix.toNat + k)
        let w0 : Word := BitVec.ofNat 64 (8 + 2 ^ 8 * g.val + 2 ^ 12 * n.toNat + 2 ^ 16 * bits A 32 6 + 2 ^ 32 + 2 ^ 48 * bits A 16 16)
        let body := [w0, B, BitVec.ofNat 64 s.tb.count]
        push q (body ++ [BitVec.ofNat 64 (crc32c ((body ++ extra).flatMap fun w => bytesOfNat 8 w.toNat) % 2 ^ 32)] ++ extra) (.tag g e m)
          (if n = 0 then y else y.corrected m)) ∧
      (GroomAt g.val (.drain d a b) s → B.toNat + 32 ≤ 0x8000 → B.toNat % 8 = 0 → m ≠ .double →
        let r := bits A 0 10
        ((s.isOn F.RING_CTRL_ENABLE r = false ∨ s.isOn F.RING_BASE_FEED r = false) →
          ∃ t, exec (.drain g e m) s = .next t ∧
            GroomTo g.val { ((y.corrected m).setG d 3) with flags := { x.flags with z := false }, pc := x.pc + 1 } s t) ∧
        (s.isOn F.RING_CTRL_ENABLE r = true → s.isOn F.RING_BASE_FEED r = true →
          push (s.get F.RING_CTRL_SRC_TROUGH r) [dm 0, dm 1, dm 2, dm 3] (.drain g e m) (y.corrected m))) ∧
      (GroomAt g.val (.qpop d a) s →
        let w := s.visWord q 0
        let idle : Bool := !s.trgOn q || s.trgAsleep q || (s.trg q).holder.isSome || decide ((s.trg q).vis = 0)
        (q < 16 ∨ 144 ≤ q ∧ q < 400 → ∃ t, exec (.qpop g e m) s = .next t ∧ GroomFaults g.val 0x11 y s t ∧
          t.isOn F.TRG_STATUS_REFUSED_ACCESS q = true) ∧
        ((16 ≤ q ∧ q < 144 ∨ 400 ≤ q) →
          (s.trgOn q = false ∨ (s.trg q).vis = 0 ∧ (s.trg q).holder = none → ∃ t, exec (.qpop g e m) s = .next t ∧ GroomTo g.val
            { (y.setG d 0) with flags := { x.flags with z := true, n := false, c := false, v := false }, pc := x.pc + 1 } s t) ∧
          (idle = false → w.eop = false → ∃ t, exec (.qpop g e m) s = .next t ∧ GroomTo g.val
            { (y.setG d 0) with flags := { x.flags with z := true, n := true, c := false, v := false }, pc := x.pc + 1 } s t) ∧
          (idle = false → w.eop = true → ∃ t, exec (.qpop g e m) s = .next t ∧
            t.groom g.val = { (y.setG d w.data) with
              flags := { x.flags with z := false, n := false, c := w.gap, v := w.bad || m == .double }, pc := x.pc + 1 } ∧
            (t.trg q).vis = (s.trg q).vis - 1 ∧ (t.trg q).head = ((s.trg q).head + 1) % s.trgSize q ∧
            ∀ k, k ≠ q → t.trg k = s.trg k))) ∧
      (∀ n : BitVec 12, GroomAt g.val (.qpopP n d a b) s →
        (0x8000 < B.toNat + 8 * (n.toNat + 1) → ∃ t, exec (.qpopP g e m) s = .next t ∧ GroomFaults g.val 0x03 y s t) ∧
        (B.toNat + 8 * (n.toNat + 1) ≤ 0x8000 → B.toNat % 8 = 0 → (16 ≤ q ∧ q < 144 ∨ 400 ≤ q) →
          (s.headItem q = none → ∃ t, exec (.qpopP g e m) s = .next t ∧ GroomTo g.val
            { (y.setG d (BitVec.ofNat 64 (if s.trgOn q = true ∧ (s.trg q).holder ≠ none then 2 ^ 19 else 2 ^ 18))) with
              flags := { x.flags with z := true }, pc := x.pc + 1 } s t) ∧
          (∀ it, s.headItem q = some it →
            (n.toNat + 1 < it.words.length → it.words.length ≤ 4096 → ∃ t, exec (.qpopP g e m) s = .next t ∧ GroomTo g.val
              { (y.setG d (BitVec.ofNat 64 (it.words.length + 2 ^ 20))) with flags := { x.flags with z := true }, pc := x.pc + 1 } s t) ∧
            (it.words.length ≤ n.toNat + 1 → ∃ t, exec (.qpopP g e m) s = .next t ∧
              (t.trg q).vis = (s.trg q).vis - it.words.length ∧ (t.groom g.val).pc = x.pc + 1 ∧
              (t.groom g.val).flags = { x.flags with z := false } ∧
              (t.groom g.val).g = (x.setG d (BitVec.ofNat 64
                (it.words.length + 2 ^ 16 * b2n it.gap + 2 ^ 17 * b2n (it.poison || m == .double)))).g ∧
              ∀ j, Tab.get 0 (t.groom g.val).dmem j = (if B.toNat / 8 ≤ j ∧ j < B.toNat / 8 + it.words.length
                then it.words.getD (j - B.toNat / 8) 0 else Tab.get 0 x.dmem j)))))

/-- An accepted PPS edge is stamped, its phase error taken and slewed away; rejected edges, time-outs and a lost reference end
LOCKED in HOLDOVER. Rests on 12_timebase_and_waypoints.md, Discipline (R552 to R556), 12_timebase_and_waypoints.md, Table
12.1, 12_timebase_and_waypoints.md, Table 12.9. -/
def Obligations.TimeBaseFollowsItsReference : Prop :=
  (∀ (n : Nat) (f : Bool) (s : State), s.isOn F.TB_CFG_PPS_FALLING = !f → exec (.ppsEdge n f) s = .next s) ∧
  (∀ (n : Nat) (f : Bool) (s : State), s.isOn F.TB_CFG_PPS_FALLING = f → s.tb.disc = .free → s.isOn F.TB_CFG_PPS_EN = true →
    s.refGood = true → (∀ u, s.tb.lastAccept = some u → u + 3600000000 ≤ n) → s.tb.setPending = false →
    ∃ t, exec (.ppsEdge n f) s = .next t ∧ { t with regs := s.regs, tb := s.tb, yard := s.yard } = s ∧
      RegsBut [(.TB_PPS_STAMP, 0), (.TB_PHASE_ERR, 0)] s t ∧ t.rd .TB_PPS_STAMP = BitVec.ofNat 64 n ∧
      t.rd .TB_PHASE_ERR = BitVec.ofInt 64 (s.phaseError n) ∧ t.tb.disc = .locking ∧ t.tb.slew = -(s.phaseError n) ∧
      t.tb.count = max s.tb.count n ∧ t.yard.delivered = s.yard.delivered ∧ t.yard.raised = s.yard.raised ++ [⟨432, n⟩]) ∧
  (∀ (n : Nat) (f : Bool) (s : State), s.isOn F.TB_CFG_PPS_FALLING = f → s.tb.disc = .locking →
    (∀ u, s.tb.lastAccept = some u → u + 3600000000 ≤ n) → s.tb.setPending = false →
    ∃ t, exec (.ppsEdge n f) s = .next t ∧ { t with regs := s.regs, tb := s.tb, yard := s.yard } = s ∧
      t.tb.slew = -(s.phaseError n) ∧
      (if (s.phaseError n).natAbs ≤ max (s.get F.TB_CFG_LOCK_NS) 1 * 4 then
        (s.tb.inRow < 2 → t.tb.disc = .locking ∧ t.tb.inRow = s.tb.inRow + 1) ∧ (2 ≤ s.tb.inRow → t.tb.disc = .locked)
       else t.tb.disc = .locking ∧ t.tb.inRow = 0)) ∧
  (∀ (n : Nat) (f : Bool) (s : State), s.isOn F.TB_CFG_PPS_FALLING = f → s.tb.disc = .locked →
    max (s.get F.TB_CFG_PPS_WINDOW) 1 * 4000 < (s.phaseError n).natAbs →
    ∃ t, exec (.ppsEdge n f) s = .next t ∧ { t with regs := s.regs, tb := s.tb, yard := s.yard } = s ∧
      RegsBut [(.TB_COUNT, 0), (.TB_STATUS, 0)] s t ∧
      t.get F.TB_COUNT_PPS_REJECT = min (s.get F.TB_COUNT_PPS_REJECT + 1) 0xFFFF ∧
      (if s.tb.rejects < 2 then t.tb.disc = .locked ∧ t.tb.rejects = s.tb.rejects + 1 ∧ t.yard = s.yard
       else t.tb.disc = .holdover ∧ t.get F.TB_STATUS_SYNC_LOST = 1 ∧
        t.get F.TB_COUNT_SYNC_LOSSES = min (s.get F.TB_COUNT_SYNC_LOSSES + 1) 0xFFFF ∧
        t.yard.raised = s.yard.raised ++ [⟨434, max s.tb.count n⟩])) ∧
  (∀ s : State, (s.tb.disc ≠ .locked → exec .ppsTimeout s = .next s) ∧
    (s.tb.disc = .locked → ∃ t, exec .ppsTimeout s = .next t ∧ { t with regs := s.regs, tb := s.tb, yard := s.yard } = s ∧
      RegsBut [(.TB_COUNT, 0), (.TB_STATUS, 0)] s t ∧ t.tb.disc = .holdover ∧ t.tb.count = s.tb.count ∧
      t.get F.TB_STATUS_SYNC_LOST = 1 ∧ t.yard.raised = s.yard.raised ++ [⟨434, s.tb.count⟩])) ∧
  (∀ s : State, ∃ t, exec .ref10mLost s = .next t ∧ { t with regs := s.regs, tb := s.tb, yard := s.yard } = s ∧
    RegsBut [(.TB_COUNT, 0), (.TB_STATUS, 0)] s t ∧ t.tb.refPresent = false ∧ t.tb.count = s.tb.count ∧
    t.tb.disc = (if s.isOn F.TB_CFG_REF10M_EN then
        (match s.tb.disc with | .free => .free | .locking => .free | .locked => .holdover | .holdover => .holdover)
      else s.tb.disc) ∧
    (s.isOn F.TB_CFG_REF10M_EN = true → s.tb.disc = .locking → t.tb.slew = 0)) ∧
  (∀ s : State, exec .ref10mPresent s = .next { s with tb := { s.tb with refPresent := true } }) ∧
  (∀ s : State, ∃ t, exec .slewComplete s = .next t ∧ { t with tb := s.tb } = s ∧ t.tb.slew = 0 ∧ s.tb.count ≤ t.tb.count ∧
    t.tb.disc = s.tb.disc)

/-- SET, ADJUST_GO, MARK_UNSYNC and CNT_CLEAR do what TB_CTRL says, the compare fires at its value and each second raises its
event. Rests on 12_timebase_and_waypoints.md, Setting and adjusting (R557 to R560), 12_timebase_and_waypoints.md, Compare and
seconds (R562, R563), 12_timebase_and_waypoints.md, Registers (R588). -/
def Obligations.TimeBaseControlSetsAdjustsAndCompares : Prop :=
  (∀ (v : Word) (s : State), bit v 1 = false → bit v 2 = false → bit v 3 = false → bit v 5 = false →
    (s.ctl.mode ∈ [Mode.ready, .quiet, .hold] →
      ∃ t, exec (.tbSet v) s = .next t ∧ t.tb.count = (s.rd .TB_SET_VALUE).toNat ∧ t.tb.unsync = false ∧
        t.tb.disc = (if s.isOn F.TB_CFG_PPS_EN then .locking else .free) ∧ t.tb.slew = 0 ∧ t.get F.TB_CTRL_SET = 0 ∧
        t.get F.TB_COUNT_SETS = min (s.get F.TB_COUNT_SETS + 1) 0xFFFF ∧ t.fen = s.fen ∧ t.ctl = s.ctl) ∧
    (s.ctl.mode ∉ [Mode.ready, .quiet, .hold] →
      ∃ t, exec (.tbSet v) s = .next t ∧ { t with regs := s.regs, tb := s.tb } = s ∧ t.tb.count = s.tb.count ∧
        t.get F.TB_STATUS_SET_REFUSED = 1 ∧ t.get F.TB_CTRL_SET = 0 ∧ RegsBut [(.TB_CTRL, 0), (.TB_STATUS, 0)] s t)) ∧
  (∀ (v : Word) (s : State), bit v 1 = true → bit v 2 = false → bit v 3 = false → bit v 5 = false →
    s.ctl.mode ∈ [Mode.ready, .quiet, .hold] → s.isOn F.TB_CFG_PPS_EN = true →
    ∃ t, exec (.tbSet v) s = .next t ∧ { t with regs := s.regs, tb := s.tb } = s ∧ t.tb.setPending = true ∧
      t.tb.count = s.tb.count ∧ t.get F.TB_CTRL_SET = 1 ∧ RegsBut [(.TB_CTRL, 0)] s t) ∧
  (∀ (v : Word) (s : State), bit v 0 = false → bit v 3 = false → bit v 5 = false →
    ∃ t, exec (.tbAdjustGo v) s = .next t ∧ { t with regs := s.regs, tb := s.tb } = s ∧ t.tb.count = s.tb.count ∧
      RegsBut [(.TB_CTRL, 0), (.TB_STATUS, 0), (.TB_COUNT, 0)] s t ∧
      (if s.isOn F.TB_CFG_PPS_EN then t.get F.TB_STATUS_ADJ_REFUSED = 1 ∧ t.tb.slew = s.tb.slew
       else t.tb.slew = (s.rd .TB_ADJUST).toInt ∧ t.get F.TB_COUNT_ADJUSTS = min (s.get F.TB_COUNT_ADJUSTS + 1) 0xFFFF)) ∧
  (∀ s : State, exec .markUnsync s = .next { s with tb := { s.tb with unsync := true } }) ∧
  (∀ s : State, ∃ t, exec .tbCntClear s = .next t ∧ { t with regs := s.regs } = s ∧ t.rd .TB_COUNT = 0 ∧ t.rd .WP_GLOBAL = 0 ∧
    (∀ o, o < 32 → t.rd .OUT_COUNT o = 0 ∧ t.rd .WP_LIST_COUNT o = 0) ∧
    (∀ n, n < 64 → t.get F.LATCH_STATUS_MISSED n = 0 ∧ t.get F.LATCH_STATUS_CAPTURES n = 0 ∧
      t.get F.LATCH_STATUS_VALID n = s.get F.LATCH_STATUS_VALID n) ∧
    (∀ i, i < 8 → t.get F.TRIGIN_STATUS_FAST i = 0 ∧ t.get F.TRIGIN_STATUS_EDGES i = 0) ∧
    (∀ r i, i < 2 ^ 20 → r ∉ [Reg.TB_COUNT, .OUT_COUNT, .WP_LIST_COUNT, .WP_GLOBAL, .LATCH_STATUS, .TRIGIN_STATUS] →
      t.rd r i = s.rd r i)) ∧
  (∀ s : State, s.isOn F.TB_CTRL_COMPARE_EN = true → s.tb.cmpFired = false → s.tb.cmpLate = false → s.tb.count ≤ s.tb.cmpNext →
    ∃ t, exec .tbCompareFire s = .next t ∧ { t with tb := s.tb, yard := s.yard } = s ∧ t.tb.count = s.tb.cmpNext ∧
      t.yard.delivered = s.yard.delivered ∧ t.yard.raised = s.yard.raised ++ [⟨435, s.tb.cmpNext⟩] ∧
      (if s.rd .TB_COMPARE_PERIOD = 0 then t.tb.cmpFired = true
       else t.tb.cmpFired = false ∧ t.tb.cmpNext = s.tb.cmpNext + max (s.rd .TB_COMPARE_PERIOD).toNat 4000)) ∧
  (∀ s : State, s.isOn F.TB_CTRL_COMPARE_EN = false → exec .tbCompareFire s = .next s) ∧
  (∀ s : State, ∃ t, exec .secondBoundary s = .next t ∧ { t with tb := s.tb, yard := s.yard } = s ∧
    t.tb.seconds = s.tb.seconds + 1 ∧ t.tb.count = max s.tb.count ((s.tb.seconds + 1) * 4000000000) ∧
    t.yard.delivered = s.yard.delivered ∧ t.yard.raised = s.yard.raised ++ [⟨433, (s.tb.seconds + 1) * 4000000000⟩])

/-- A latch captures its event's tick and position, a trigger edge is stamped, and an output pulses where and as long as its
consumer says. Rests on 12_timebase_and_waypoints.md, Timestamp capture latches (R564, R565), 12_timebase_and_waypoints.md,
Trigger inputs (R566), 12_timebase_and_waypoints.md, Output schedulers (R568 to R572), 10_bertor_core.md, Outputs (R514 to
R516). -/
def Obligations.LatchesTriggerInputsAndOutputsActOnEvents : Prop :=
  (∀ (n : Fin 64) (e : YEvent) (s : State), s.yard.delivered.find? (fun d => d.id == 312 + n.val) = some e →
    s.get F.LATCH_CFG_TROUGH n.val < 400 →
    ∃ t, exec (.latchEvent n) s = .next t ∧ { t with regs := s.regs, yard := s.yard } = s ∧
      t.yard = { s.yard with delivered := s.yard.delivered.erase e } ∧
      RegsBut [(.LATCH_TICK, n.val), (.LATCH_POS, n.val), (.LATCH_STATUS, n.val)] s t ∧
      (if s.isOn F.LATCH_CFG_ENABLE n.val = false then RegsBut [] s t
       else if s.isOn F.LATCH_STATUS_VALID n.val = true ∧ s.isOn F.LATCH_CFG_KEEP_LAST n.val = false then
        t.get F.LATCH_STATUS_MISSED n.val = min (s.get F.LATCH_STATUS_MISSED n.val + 1) 0xFFFF ∧
        t.rd .LATCH_TICK n.val = s.rd .LATCH_TICK n.val ∧ t.rd .LATCH_POS n.val = s.rd .LATCH_POS n.val
       else t.rd .LATCH_TICK n.val = BitVec.ofNat 64 e.tick ∧ t.get F.LATCH_STATUS_VALID n.val = 1 ∧
        t.get F.LATCH_STATUS_CAPTURES n.val = (s.get F.LATCH_STATUS_CAPTURES n.val + 1) % 2 ^ 32 ∧
        (s.isOn F.LATCH_CFG_POS_EN n.val = false → t.rd .LATCH_POS n.val = s.rd .LATCH_POS n.val) ∧
        (s.isOn F.LATCH_CFG_POS_EN n.val = true →
          t.rd .LATCH_POS n.val = (s.posAt (s.get F.LATCH_CFG_AXIS n.val) e.tick).getD 0 ∧
          (t.isOn F.LATCH_STATUS_POS_INVALID n.val = true ↔ s.posAt (s.get F.LATCH_CFG_AXIS n.val) e.tick = none)))) ∧
  (∀ (i : Fin 8) (r : Bool) (n : Nat) (s : State), Tab.get 0 s.tb.trigLast i.val = 0 →
    (s.yard.raised.filter (fun e => e.id == 16 + i.val)).length < 2 →
    ∃ t, exec (.trigInEdge i r n) s = .next t ∧ { t with regs := s.regs, tb := s.tb, yard := s.yard } = s ∧
      RegsBut [(.TRIGIN_STATUS, i.val)] s t ∧ t.get F.TRIGIN_STATUS_LEVEL i.val = b2n r ∧ t.tb.count = max s.tb.count n ∧
      (if s.isOn F.TRIGIN_CFG_ENABLE i.val = true ∧
          (s.get F.TRIGIN_CFG_EDGE i.val = 0 ∧ r = true ∨ s.get F.TRIGIN_CFG_EDGE i.val = 1 ∧ r = false ∨
            2 ≤ s.get F.TRIGIN_CFG_EDGE i.val) then
        t.get F.TRIGIN_STATUS_EDGES i.val = (s.get F.TRIGIN_STATUS_EDGES i.val + 1) % 2 ^ 32 ∧
        t.yard = { s.yard with raised := s.yard.raised ++ [⟨16 + i.val, n⟩] }
       else t.get F.TRIGIN_STATUS_EDGES i.val = s.get F.TRIGIN_STATUS_EDGES i.val ∧ t.yard = s.yard)) ∧
  (∀ (o : Fin 32) (e : YEvent) (s : State), s.yard.delivered.find? (fun d => d.id == o.val) = some e →
    (o.val = 31 ∨ s.isOn F.OUT_CFG_CONS_EN o.val = false) →
    exec (.outputConsumerEvent o) s = .next { s with yard := { s.yard with delivered := s.yard.delivered.erase e } }) ∧
  (∀ (o : Fin 32) (e : YEvent) (s : State), s.yard.delivered.find? (fun d => d.id == o.val) = some e → o.val < 16 →
    s.sched o.val = Sched.zero → s.outOpen = true → s.isOn F.OUT_CFG_ENABLE o.val = true → s.isOn F.OUT_CFG_CONS_EN o.val = true →
    s.get F.OUT_CFG_CONS_ACT o.val = 0 → 4 ≤ s.get F.OUT_CFG_CONS_WIDTH o.val →
    ∃ t, exec (.outputConsumerEvent o) s = .next t ∧ { t with regs := s.regs, outs := s.outs, yard := s.yard } = s ∧
      (∀ p, p ≠ o.val → t.sched p = s.sched p) ∧
      (let d := s.get F.OUT_CFG_CONS_DELAY o.val
       let w := s.get F.OUT_CFG_CONS_WIDTH o.val
       let lead := s.tb.count + 16
       if lead ≤ e.tick + d then
        t.sched o.val = { Sched.zero with pulses := [⟨.consumer, e.tick + d, some (e.tick + d + w)⟩] } ∧ RegsBut [] s t
       else t.sched o.val = { Sched.zero with pulses := [⟨.consumer, lead, some (lead + w)⟩] } ∧
        RegsBut [(.OUT_COUNT, o.val)] s t ∧
        t.get F.OUT_COUNT_LATE o.val =
          (if d = 0 then s.get F.OUT_COUNT_LATE o.val else min (s.get F.OUT_COUNT_LATE o.val + 1) 0xFFFF))) ∧
  (∀ (o : Fin 31) (src : OutSrc) (a b z : Nat) (s : State), o.val < 16 → s.sched o.val = ⟨false, false, [⟨src, a, some b⟩], [], z⟩ →
    z < a → a < b → s.tb.count ≤ a → s.isOn F.OUT_CFG_ENABLE o.val = true →
    ∃ t, exec (.outputEdgeDue o) s = .next t ∧ { t with outs := s.outs, sent := s.sent, tb := s.tb } = s ∧ t.tb.count = a ∧
      t.sched o.val = ⟨false, true, [⟨src, a, some b⟩], [], a⟩ ∧ (∀ p, p ≠ o.val → t.sched p = s.sched p) ∧
      t.sent = s.sent ++ [.edge o.val (!s.isOn F.OUT_CFG_INVERT o.val) (a + s.get F.OUT_CFG_SKEW o.val)])

/-- A sample that meets a list's next entry hits it once; descriptors are refused while active, empty or out of range; entries of
an active list stay. Rests on 12_timebase_and_waypoints.md, Waypoints (R574 to R584), 12_timebase_and_waypoints.md, Table
12.3, 12_timebase_and_waypoints.md, Table 12.13, 10_bertor_core.md, Waypoints (R523 to R525). -/
def Obligations.WaypointListsCompareAdvanceAndStop : Prop :=
  (∀ (a : Fin 8) (x : Sample) (ecc : List (Fin 32 × Ecc)) (s : State),
    s.fld.arrived.find? (fun y => y.axis == a.val) = some x →
    (s.ctl.mode.compares = false ∨ ∀ l, l < 32 → s.wpLive l a.val = false) →
    ∃ t, exec (.positionSampleReceived a ecc) s = .next t ∧ { t with regs := s.regs, fld := s.fld, samples := s.samples } = s ∧
      t.fld = { s.fld with arrived := s.fld.arrived.erase x } ∧ RegsBut [(.ENC_POS, a.val), (.ENC_POS_TICK, a.val)] s t ∧
      t.rd .ENC_POS a.val = x.pos ∧ t.rd .ENC_POS_TICK a.val = BitVec.ofNat 64 x.tick) ∧
  (∀ (a : Fin 8) (x : Sample) (l : Fin 32) (s : State), s.fld.arrived.find? (fun y => y.axis == a.val) = some x →
    s.ctl.mode.compares = true → x.axis = a.val → (∀ k, k < 32 → (s.wpLive k a.val = true ↔ k = l.val)) →
    (s.wpl l.val).skip = false → bits (s.wpl l.val).cfg 16 16 < 400 → s.wpMet l.val x = true →
    bits (s.wpWord (s.wpFirst l.val + s.wpNext l.val) 1) 5 3 = 0 → bit (s.wpWord (s.wpFirst l.val + s.wpNext l.val) 1) 8 = false →
    s.wpNext l.val + 1 < s.wpCount l.val →
    (let p := (s.wpWord (s.wpFirst l.val + s.wpNext l.val + 1) 0).toInt
     if s.isOn F.WP_LIST_DESC_DIR l.val then p < x.pos.toInt else x.pos.toInt < p) →
    ∃ t, exec (.positionSampleReceived a []) s = .next t ∧
      { t with regs := s.regs, fld := s.fld, samples := s.samples, yard := s.yard } = s ∧
      RegsBut [(.ENC_POS, a.val), (.ENC_POS_TICK, a.val), (.WP_LIST_STATUS, l.val), (.WP_LIST_COUNT, l.val)] s t ∧
      t.wpNext l.val = s.wpNext l.val + 1 ∧ t.wpState l.val = 1 ∧
      t.get F.WP_LIST_COUNT_HITS l.val = (s.get F.WP_LIST_COUNT_HITS l.val + 1) % 2 ^ 32 ∧
      t.yard = { s.yard with raised := s.yard.raised ++ [⟨32 + l.val, x.tick⟩] }) ∧
  (∀ (l : Fin 32) (v : Word) (s : State),
    (s.wpState l.val = 1 ∨ bits v 18 19 = 0 ∨ 262144 < bits v 0 18 + bits v 18 19 →
      ∃ t, exec (.wpListDescWrite l v) s = .next t ∧ OnlyRegs [(.WP_LIST_STATUS, l.val)] s t ∧
        t.isOn F.WP_LIST_STATUS_REFUSED l.val = true ∧ t.wpState l.val = s.wpState l.val ∧ t.wpNext l.val = s.wpNext l.val) ∧
    (s.wpState l.val ≠ 1 → bits v 18 19 ≠ 0 → bits v 0 18 + bits v 18 19 ≤ 262144 → bits v 41 23 = 0 →
      ∃ t, exec (.wpListDescWrite l v) s = .next t ∧ OnlyRegs [(.WP_LIST_STATUS, l.val), (.WP_LIST_DESC, l.val)] s t ∧
        t.rd .WP_LIST_DESC l.val = v ∧ t.wpState l.val = 0 ∧ t.wpNext l.val = 0)) ∧
  (∀ (l : Fin 32) (s : State),
    (s.wpState l.val ≠ 0 → exec (.wpListActivate l) s = .next s) ∧
    (s.wpState l.val = 0 → s.wpCount l.val ≠ 0 →
      ∃ t, exec (.wpListActivate l) s = .next t ∧ { t with regs := s.regs, wpLists := s.wpLists } = s ∧
        RegsBut [(.WP_LIST_STATUS, l.val)] s t ∧ t.wpState l.val = 1 ∧ t.wpNext l.val = s.wpNext l.val ∧
        (t.wpl l.val).cfg = s.rd .WP_LIST_CFG l.val ∧ (∀ k, k ≠ l.val → t.wpl k = s.wpl k)) ∧
    (s.wpState l.val = 0 → s.wpCount l.val = 0 →
      ∃ t, exec (.wpListActivate l) s = .next t ∧ OnlyRegs [(.WP_LIST_STATUS, l.val)] s t ∧
        t.isOn F.WP_LIST_STATUS_REFUSED l.val = true ∧ t.wpState l.val = 0)) ∧
  (∀ (l : Fin 32) (s : State),
    (s.wpState l.val ≠ 1 → exec (.wpListDeactivate l) s = .next s) ∧
    (s.wpState l.val = 1 → ∃ t, exec (.wpListDeactivate l) s = .next t ∧ t.wpState l.val = 0 ∧
      t.wpNext l.val = s.wpNext l.val ∧ (t.wpl l.val).gates = [] ∧ t.wpMem = s.wpMem ∧ t.ctl = s.ctl)) ∧
  (∀ (i : Fin 262144) (b : Bool) (v : Word) (s : State),
    ((∃ l, l < 32 ∧ s.wpState l = 1 ∧ s.wpFirst l ≤ i.val ∧ i.val < s.wpFirst l + s.wpCount l) →
      ∃ t, exec (.waypointEntryWrite i b v) s = .next t ∧ OnlyRegs [(.WP_GLOBAL, 0)] s t ∧
        t.get F.WP_GLOBAL_WRITE_DISCARD = min (s.get F.WP_GLOBAL_WRITE_DISCARD + 1) 0xFFFF) ∧
    ((¬ ∃ l, l < 32 ∧ s.wpState l = 1 ∧ s.wpFirst l ≤ i.val ∧ i.val < s.wpFirst l + s.wpCount l) →
      ∃ t, exec (.waypointEntryWrite i b v) s = .next t ∧ { t with wpMem := s.wpMem } = s ∧ t.wpWord i.val (b2n b) = v ∧
        (∀ j w, w < 2 → (j ≠ i.val ∨ w ≠ b2n b) → t.wpWord j w = s.wpWord j w)))

/-- A raised event is counted on each channel its producer drives and reaches each consumer they drive; only the owner changes a
secured channel. Rests on 13_yard.md, Routing (R597 to R600), 13_yard.md, Consumers (R603), 13_yard.md, Ownership (R607 to
R610), 13_yard.md, Registers (R617). -/
def Obligations.YardCarriesEventsAndGuardsSecuredChannels : Prop :=
  (∀ (p : Fin 512) (tick : Nat) (s : State), s.yard.raised = [⟨p.val, tick⟩] → prodStamped p.val = true →
    ∃ t, exec (.yardProducerEvent [p]) s = .next t ∧
      (∀ c, c < 256 → s.prodDrives p.val c = true →
        t.get F.YARD_CH_COUNT_EVENTS c = (s.get F.YARD_CH_COUNT_EVENTS c + 1) % 2 ^ 32 ∧
        t.get F.YARD_CH_CFG_LAST_PRODUCER c = p.val ∧ t.rd .YARD_CH_LAST c = BitVec.ofNat 64 tick) ∧
      (∀ c, c < 256 → s.prodDrives p.val c = false → t.rd .YARD_CH_COUNT c = s.rd .YARD_CH_COUNT c) ∧
      (∀ q c, q < 392 → c < 256 → s.prodDrives p.val c = true → s.consDriven c q = true → s.consDeaf q = false →
        (⟨q, tick⟩ : YEvent) ∈ t.yard.delivered)) ∧
  (∀ (fn : Fin 2) (cons : Bool) (row : Fin 512) (m : Fin 4) (v : Word) (s : State),
    row.val < (if cons then 392 else 464) →
    ∃ t, exec (.yardEnableWrite fn cons row m v) s = .next t ∧ { t with regs := s.regs } = s ∧
      (let r := if cons then Reg.YARD_CONS_EN else Reg.YARD_PROD_EN
       ∀ k, k < 64 → bit (t.rd r (4 * row.val + m.val)) k =
         if s.mayChange (writerOf fn.val) (64 * m.val + k) then bit v k else bit (s.rd r (4 * row.val + m.val)) k) ∧
      (∀ c, c < 256 → t.get F.YARD_CH_CFG_OWNER c = s.get F.YARD_CH_CFG_OWNER c)) ∧
  (∀ (fn : Fin 2) (c : Fin 256) (v : Word) (s : State),
    (19 ≤ bits v 0 5 ∨ s.mayChange (writerOf fn.val) c.val = false ∧ bits v 0 6 ≠ bits (s.rd .YARD_CH_CFG c.val) 0 6) →
    ∃ t, exec (.yardChCfgWrite fn c v) s = .next t ∧ { t with regs := s.regs } = s ∧
      RegsBut [(.YARD_CH_CFG, c.val), (.YARD_CH_COUNT, c.val), (.YARD_GLOBAL, 0)] s t ∧
      bits (t.rd .YARD_CH_CFG c.val) 0 6 = bits (s.rd .YARD_CH_CFG c.val) 0 6 ∧ t.isOn F.YARD_CH_CFG_DENIED c.val = true ∧
      t.get F.YARD_GLOBAL_DENIED_TOTAL = min (s.get F.YARD_GLOBAL_DENIED_TOTAL + 1) 0xFFFF) ∧
  (∀ (fn : Fin 2) (c : Fin 256) (v : Word) (s : State), bits v 0 5 < 19 → s.mayChange (writerOf fn.val) c.val = true →
    ∃ t, exec (.yardChCfgWrite fn c v) s = .next t ∧ OnlyRegs [(.YARD_CH_CFG, c.val)] s t ∧
      bits (t.rd .YARD_CH_CFG c.val) 0 6 = bits v 0 6 ∧
      t.get F.YARD_CH_CFG_LAST_PRODUCER c.val = s.get F.YARD_CH_CFG_LAST_PRODUCER c.val) ∧
  (∀ s : State, ∃ t, exec .yardCntClear s = .next t ∧ { t with regs := s.regs } = s ∧ t.rd .YARD_GLOBAL = 0 ∧
    (∀ c, c < 256 → t.rd .YARD_CH_COUNT c = 0) ∧
    (∀ r i, i < 2 ^ 20 → r ≠ .YARD_GLOBAL → r ≠ .YARD_CH_COUNT → t.rd r i = s.rd r i))

/-- The levee delivers or loses its oldest frame, heartbeats carry the mode's flags, field hold starts and ends, and a lost field
side is declared. Rests on 14_field_domain.md, The levee (R619 to R621), 14_field_domain.md, Heartbeats and field hold (R637
to R643), 14_field_domain.md, Registers (R648, R649). -/
def Obligations.LeveeCarriesHeartbeatsCommandsAndLoss : Prop :=
  (∀ (i : LeveeItem) (r : List LeveeItem) (s : State), s.ctl.mode.yardOn = true → s.fld.toField = i :: r →
    exec (.leveeFrame true true) s = .next { s with fld := (match i with
      | .heartbeat h => { s.fld with toField := r, beats := s.fld.beats ++ [h] }
      | .sync _ => { s.fld with toField := r, synced := true }
      | .cmd c _ => { s.fld with toField := r, armed := s.fld.armed ++ [c] }) } ∧
    (∃ t, exec (.leveeFrame true false) s = .next t ∧ { t with regs := s.regs, fld := s.fld } = s ∧
      RegsBut [(.FLD_LEVEE_COUNT, 0)] s t ∧
      t.get F.FLD_LEVEE_COUNT_LEVEE_CRC = min (s.get F.FLD_LEVEE_COUNT_LEVEE_CRC + 1) 0xFFFF ∧
      t.fld = (match i with
        | .cmd c n => if 1 < n then { s.fld with toField := .cmd c (n - 1) :: r }
            else { s.fld with toField := r, lost := s.fld.lost ++ [c] }
        | .heartbeat _ => { s.fld with toField := r }
        | .sync _ => { s.fld with toField := r }))) ∧
  (∀ (x : Sample) (r : List Sample) (s : State), s.ctl.mode.yardOn = true → s.fld.toCore = x :: r →
    exec (.leveeFrame false true) s = .next { s with fld := { s.fld with toCore := r, arrived := s.fld.arrived ++ [x] } }) ∧
  (∀ (c : FoCmd) (r : List FoCmd) (s : State), s.fld.lost = c :: r →
    ∃ t, exec .leveeCmdResend s = .next t ∧ { t with regs := s.regs, fld := s.fld } = s ∧ RegsBut [(.FLD_LEVEE_COUNT, 0)] s t ∧
      t.fld = { s.fld with lost := r, toField := s.fld.toField ++ [.cmd c 2] } ∧
      t.get F.FLD_LEVEE_COUNT_CMD_RESENDS = min (s.get F.FLD_LEVEE_COUNT_CMD_RESENDS + 1) 0xFFFF) ∧
  (∀ s : State,
    exec .coreHeartbeatSend s = .next (if s.ctl.mode ∈ [Mode.off, .keep, .reset, .boot] then s
      else { s with fld := { s.fld with toField := s.fld.toField ++ [.heartbeat
        ⟨decide (s.ctl.mode ≠ .hold) && s.isOn F.FLD_STATUS_LINK_UP && s.isOn F.FLD_STATUS_CFG_SYNCED, decide (s.ctl.mode = .hold),
          decide (s.ctl.mode ∉ [Mode.quiet, .hold])⟩] } }) ∧
    exec .timeSyncSend s = .next (if s.ctl.mode ∈ [Mode.off, .keep, .reset] then s
      else { s with fld := { s.fld with toField := s.fld.toField ++ [.sync s.tb.count] } })) ∧
  (∀ (h : HbFlags) (r : List HbFlags) (s : State), s.fld.beats = h :: r → s.fld.up = true →
    ∃ t, exec .coreHeartbeatReceived s = .next t ∧ { t with fld := s.fld } = s ∧ t.fld.beats = r ∧ t.fld.last = h ∧
      (∀ n, t.axis n = s.axis n) ∧
      (h.hold = true → t.fld.hold = true ∧ t.fld.armed = [] ∧ t.fld.fo15 = false ∧ ∀ k, t.fo k = s.fo k) ∧
      (h.hold = false → h.run = true → t.fld.hold = false ∧ t.fld.armed = s.fld.armed ∧
        ∀ k, k < 15 → t.fo k = (if s.fld.hold then { s.fo k with level := (s.fo k).safeOn } else s.fo k)) ∧
      (h.hold = false → h.run = false → t.fld.hold = s.fld.hold)) ∧
  (∀ s : State, s.fld.up = true →
    (∃ t, exec .fieldHoldTimeout s = .next t ∧ { t with fld := s.fld } = s ∧ t.fld.hold = true ∧ t.fld.fo15 = false ∧
      t.fld.armed = [] ∧ (∀ n, t.axis n = s.axis n) ∧ ∀ k, t.fo k = s.fo k) ∧
    (∃ t, exec .heartbeatToggle s = .next t ∧ { t with fld := { t.fld with fo15 := s.fld.fo15 }, sent := s.sent } = s ∧
      t.fld.fo15 = (if s.fld.hold = false ∧ s.fld.last.hbEnable = true then !s.fld.fo15 else false))) ∧
  (∀ (v : Nat) (s : State), s.fld.up = true → s.ctl.mode.yardOn = true → v < 65536 →
    (v < 1700 → s.isOn F.FLD_STATUS_LINK_UP = true → ∃ t, exec (.fieldHeartbeatReceived v) s = .next t ∧
      t.isOn F.FLD_STATUS_LINK_UP = false ∧ t.isOn F.FLD_STATUS_FIELD_LOST_SEEN = true ∧ t.get F.FLD_VFIELD_VFIELD = v ∧
      (∀ n, n < 8 → t.get F.ENC_STATUS_STATE n = 3 ∧ t.get F.ENC_STATUS_FAULT_CAUSE n = 3)) ∧
    (1710 ≤ v → s.isOn F.FLD_STATUS_LINK_UP = false → s.fld.held = [] →
      ∃ t, exec (.fieldHeartbeatReceived v) s = .next t ∧ t.isOn F.FLD_STATUS_LINK_UP = true ∧
        t.isOn F.FLD_STATUS_CFG_SYNCED = true ∧ t.isOn F.FLD_STATUS_VFIELD_OK = true ∧ t.get F.FLD_VFIELD_VFIELD = v ∧
        (∀ n, n < 8 → t.rd .ENC_CFG n = (if s.fld.cfgValid then (s.axis n).cfg else s.rd .ENC_CFG n) ∧
          (t.axis n).cfg = t.rd .ENC_CFG n))) ∧
  (∀ s : State, (s.isOn F.FLD_STATUS_LINK_UP = false → exec .fieldLost s = .next s) ∧
    (s.isOn F.FLD_STATUS_LINK_UP = true → ∃ t, exec .fieldLost s = .next t ∧ t.isOn F.FLD_STATUS_LINK_UP = false ∧
      t.isOn F.FLD_STATUS_FIELD_LOST_SEEN = true ∧
      t.get F.FLD_LEVEE_COUNT_LINK_LOSSES = min (s.get F.FLD_LEVEE_COUNT_LINK_LOSSES + 1) 0xFFFF ∧
      (∀ n, n < 8 → t.get F.ENC_STATUS_STATE n = 3 ∧ t.isOn F.ENC_STATUS_POS_SUSPECT n = true ∧
        t.get F.ENC_STATUS_FAULT_CAUSE n = (if s.isOn F.FLD_STATUS_VFIELD_OK then 4 else 3)) ∧
      (∃ a, t.mgmt.raised = s.mgmt.raised ++ [a] ∧ a.code = 0x21))) ∧
  (∀ s : State,
    (∃ t, exec .vfieldLow s = .next t ∧ { t with fld := s.fld } = s ∧ t.fld.up = false ∧ t.fld.cfgValid = false ∧
      (∀ n, t.axis n = FieldAxis.zero) ∧ t.fld.held = s.fld.held) ∧
    (s.fld.up = false → ∃ t, exec .vfieldRestart s = .next t ∧ { t with fld := s.fld } = s ∧ t.fld.up = true ∧
      t.fld.hold = true ∧ t.fld.cfgValid = s.fld.cfgValid ∧ ∀ n, t.axis n = s.axis n))

/-- Receivers adopt levels silently, edges count as DECODE says, samples carry the count and their tick, SSI reads move it and an
index latches and loads. Rests on 14_field_domain.md, Input qualification (R622 to R624), 14_field_domain.md, Encoder axes
(R626 to R632), 14_field_domain.md, Table 14.10, 14_field_domain.md, Table 14.11. -/
def Obligations.EncoderAxesQualifyCountAndSample : Prop :=
  (∀ (n : Fin 16) (p : Fin 3) (h : Bool) (s : State), s.fld.up = true →
    (F.FI_CFG_ENABLE.of (s.fin n.val).cfg = 1 → (s.fin n.val).level = none →
      ∃ t, exec (.receiverQualify true n p h) s = .next t ∧ { t with fld := s.fld } = s ∧
        t.fin n.val = { s.fin n.val with level := some h } ∧ (∀ i, i ≠ n.val → t.fin i = s.fin i) ∧ ∀ k, t.axis k = s.axis k) ∧
    (n.val < 8 → (s.axis n.val).on = true → (s.axis n.val).pin p.val = none →
      ∃ t, exec (.receiverQualify false n p h) s = .next t ∧ { t with regs := s.regs, fld := s.fld } = s ∧
        (t.axis n.val).pin p.val = some h ∧ (t.axis n.val).count = (s.axis n.val).count ∧
        (t.axis n.val).counters = (s.axis n.val).counters ∧ (∀ i, i ≠ n.val → t.axis i = s.axis i) ∧
        ((s.axis n.val).fault = 1 → ((s.axis n.val).setPin p.val (some h)).qualified = true → (t.axis n.val).fault = 0))) ∧
  (∀ (n : Fin 8) (p : Fin 3) (l : Bool) (s : State), s.fld.up = true → (s.axis n.val).on = true → (s.axis n.val).mode = 0 →
    (s.axis n.val).fault = 0 → (s.axis n.val).pin p.val = some l →
    ∃ t, exec (.brokenWire n p) s = .next t ∧ { t with regs := s.regs, fld := s.fld } = s ∧
      (t.axis n.val).pin p.val = none ∧ (t.axis n.val).fault = 1 ∧ (t.axis n.val).count = (s.axis n.val).count ∧
      F.ENC_COUNT_FAULTS.of (t.axis n.val).counters = min (F.ENC_COUNT_FAULTS.of (s.axis n.val).counters + 1) 0xFFFF ∧
      (∀ i, i ≠ n.val → t.axis i = s.axis i) ∧
      (s.isOn F.FLD_STATUS_LINK_UP = true → t.get F.ENC_STATUS_STATE n.val = 3 ∧ t.get F.ENC_STATUS_FAULT_CAUSE n.val = 1 ∧
        t.isOn F.ENC_STATUS_POS_SUSPECT n.val = true)) ∧
  (∀ (n : Fin 8) (a b z a0 b0 : Bool) (s : State), s.fld.up = true → (s.axis n.val).on = true → (s.axis n.val).mode ≠ 2 →
    (s.axis n.val).fault = 0 → (s.axis n.val).a = some a0 → (s.axis n.val).b = some b0 →
    ∃ t, exec (.encoderEdge n a b z) s = .next t ∧ { t with fld := s.fld } = s ∧ (∀ i, i ≠ n.val → t.axis i = s.axis i) ∧
      (t.axis n.val).a = some a ∧ (t.axis n.val).b = some b ∧ (t.axis n.val).z = (s.axis n.val).z.map (· && z) ∧
      (if a ≠ a0 ∧ b ≠ b0 then (t.axis n.val).count = (s.axis n.val).count ∧ (t.axis n.val).suspect = true ∧
          F.ENC_COUNT_QUAD_ERR.of (t.axis n.val).counters = min (F.ENC_COUNT_QUAD_ERR.of (s.axis n.val).counters + 1) 0xFFFF
       else (t.axis n.val).counters = (s.axis n.val).counters ∧
        (let d : Int := match F.ENC_CFG_DECODE.of (s.axis n.val).cfg with
          | 0 => if a ≠ a0 then (if a ≠ b then 1 else -1) else if b ≠ b0 then (if a = b then 1 else -1) else 0
          | 1 => if a ≠ a0 then (if a ≠ b then 1 else -1) else 0
          | 2 => if a0 = false ∧ a = true then (if b then -1 else 1) else 0
          | _ => if a0 = false ∧ a = true then (if b then 1 else -1) else 0
         (t.axis n.val).count = (s.axis n.val).count +
          BitVec.ofInt 64 (if F.ENC_CFG_INVERT_DIR.of (s.axis n.val).cfg = 1 then -d else d)))) ∧
  (∀ (n : Fin 8) (a b z : Bool) (s : State), s.fld.up = true → (s.axis n.val).on = true → (s.axis n.val).mode ≠ 2 →
    ((s.axis n.val).a = none ∨ (s.axis n.val).b = none) →
    ∃ t, exec (.encoderEdge n a b z) s = .next t ∧ { t with fld := s.fld } = s ∧
      (t.axis n.val).count = (s.axis n.val).count ∧ (t.axis n.val).counters = (s.axis n.val).counters) ∧
  (∀ (n : Fin 8) (s : State), s.fld.up = true → (s.axis n.val).on = true → (s.axis n.val).mode ≠ 2 →
    ((s.axis n.val).fault ≠ 0 → exec (.positionSampleSend n) s = .next s) ∧
    ((s.axis n.val).fault = 0 → ∃ t, exec (.positionSampleSend n) s = .next t ∧ { t with fld := s.fld } = s ∧
      (t.axis n.val).count = (if (s.axis n.val).loadDue then (s.axis n.val).load else (s.axis n.val).count) ∧
      (t.axis n.val).loadDue = false ∧
      t.fld.toCore = s.fld.toCore ++ (if s.fld.synced then [⟨n.val, (t.axis n.val).count, s.tb.count⟩] else []))) ∧
  (∀ (n : Fin 8) (raw k : Nat) (s : State), s.fld.up = true → (s.axis n.val).on = true → (s.axis n.val).mode = 2 →
    (s.axis n.val).b ≠ none → (s.axis n.val).fault = 0 → (s.axis n.val).loadDue = false →
    F.ENC_CFG_SSI_GRAY.of (s.axis n.val).cfg = 0 → s.fld.synced = true →
    (F.ENC_CFG_SSI_EXTEND.of (s.axis n.val).cfg = 0 → ∃ t, exec (.ssiRead n raw true k) s = .next t ∧
      { t with regs := s.regs, fld := s.fld } = s ∧
      (t.axis n.val).count = BitVec.ofNat 64 (raw % 2 ^ (s.axis n.val).ssiBits) ∧
      t.fld.toCore = s.fld.toCore ++ [⟨n.val, (t.axis n.val).count, k⟩]) ∧
    (∀ v, F.ENC_CFG_SSI_EXTEND.of (s.axis n.val).cfg = 1 → (s.axis n.val).ssiPrev = some v →
      ∃ (t : State) (d : Int), exec (.ssiRead n raw true k) s = .next t ∧ { t with regs := s.regs, fld := s.fld } = s ∧
        -(2 ^ ((s.axis n.val).ssiBits - 1)) ≤ d ∧ d < 2 ^ ((s.axis n.val).ssiBits - 1) ∧
        (2 ^ (s.axis n.val).ssiBits : Int) ∣ d - ((raw : Int) - v) ∧
        (t.axis n.val).count = (s.axis n.val).count + BitVec.ofInt 64 d ∧
        t.fld.toCore = s.fld.toCore ++ [⟨n.val, (t.axis n.val).count, k⟩]) ∧
    (∃ t, exec (.ssiRead n raw false k) s = .next t ∧ { t with regs := s.regs, fld := s.fld } = s ∧
      (t.axis n.val).count = (s.axis n.val).count ∧ t.fld.toCore = s.fld.toCore ∧
      F.ENC_COUNT_SSI_ERR.of (t.axis n.val).counters = min (F.ENC_COUNT_SSI_ERR.of (s.axis n.val).counters + 1) 0xFFFF ∧
      (t.axis n.val).fault = (if 2 ≤ (s.axis n.val).ssiBad then 2 else 0))) ∧
  (∀ (n : Fin 8) (k : Nat) (s : State), s.fld.up = true → (s.axis n.val).on = true → (s.axis n.val).mode ≠ 2 →
    (s.axis n.val).fault = 0 → (s.axis n.val).z ≠ none →
    (F.ENC_CFG_Z_GATE.of (s.axis n.val).cfg = 0 ∨ (s.axis n.val).a = some true ∧ (s.axis n.val).b = some true) →
    ∃ t, exec (.encoderIndex n k) s = .next t ∧
      F.ENC_COUNT_INDEX.of (t.axis n.val).counters = (F.ENC_COUNT_INDEX.of (s.axis n.val).counters + 1) % 2 ^ 16 ∧
      (let c := if (s.axis n.val).loadDue then (s.axis n.val).load else (s.axis n.val).count
       let act := F.ENC_CFG_Z_ACTION.of (s.axis n.val).cfg
       (t.axis n.val).zpos = (if act = 0 then (s.axis n.val).zpos else c) ∧
       (t.axis n.val).count = (if act = 3 ∨ act = 2 ∧ (s.axis n.val).armed = true then (s.axis n.val).load else c) ∧
       (act = 2 → (t.axis n.val).armed = false)) ∧
      (F.ENC_CFG_Z_EVENT_EN.of (s.axis n.val).cfg = 0 → t.yard = s.yard) ∧
      (F.ENC_CFG_Z_EVENT_EN.of (s.axis n.val).cfg = 1 → s.isOn F.FLD_STATUS_LINK_UP = true → s.fld.synced = true →
        (s.yard.raised.filter (fun e => e.id == 24 + n.val)).length < 2 →
        t.yard = { s.yard with raised := s.yard.raised ++ [⟨24 + n.val, k⟩] }))

/-- Field writes cross while the link is up and are held while it is down, inputs count edges and glitches, outputs switch, trip
and recover. Rests on 14_field_domain.md, Field inputs (R633), 14_field_domain.md, Field outputs (R634 to R636),
14_field_domain.md, Heartbeats and field hold (R641), 14_field_domain.md, Registers (R649 to R654). -/
def Obligations.FieldRegistersInputsAndOutputsAct : Prop :=
  (∀ (n : Fin 8) (s : State),
    (s.isOn F.FLD_STATUS_LINK_UP = true →
      (∃ t, exec (.encLoad n) s = .next t ∧ { t with fld := s.fld } = s ∧ t.axis n.val = { s.axis n.val with loadDue := true } ∧
        ∀ i, i ≠ n.val → t.axis i = s.axis i) ∧
      (∃ t, exec (.encZArm n) s = .next t ∧ { t with regs := s.regs, fld := s.fld } = s ∧ (t.axis n.val).armed = true ∧
        (t.axis n.val).count = (s.axis n.val).count ∧ t.get F.ENC_CTRL_Z_ARM n.val = 1 ∧ t.get F.ENC_STATUS_Z_ARMED n.val = 1)) ∧
    (s.isOn F.FLD_STATUS_LINK_UP = false → ∀ c ∈ [Instr.encLoad n, .encZArm n],
      ∃ t, exec c s = .next t ∧ OnlyRegs [(.FLD_LEVEE_COUNT, 0)] s t ∧
        t.get F.FLD_LEVEE_COUNT_CMD_DISCARDED = min (s.get F.FLD_LEVEE_COUNT_CMD_DISCARDED + 1) 0xFFFF)) ∧
  (∀ (n : Fin 8) (v : Word) (s : State),
    (F.ENC_CFG_MODE.of v = 3 ∨ s.isOn F.ENC_CFG_ENABLE n.val = true ∧ bit v 0 = true ∧
        (s.rd .ENC_CFG n.val ^^^ v) &&& 0x0000FFFFFFFF03FE ≠ 0 →
      ∃ t, exec (.encCfgWrite n v) s = .next t ∧ OnlyRegs [(.ENC_STATUS, n.val)] s t ∧
        t.isOn F.ENC_STATUS_CFG_REJECTED n.val = true) ∧
    (F.ENC_CFG_MODE.of v ≠ 3 → (s.isOn F.ENC_CFG_ENABLE n.val = false ∨ bit v 0 = false) →
      ∃ t, exec (.encCfgWrite n v) s = .next t ∧ t.rd .ENC_CFG n.val = v &&& 0x0000FFFFFFFF03FF ∧
        (s.isOn F.FLD_STATUS_LINK_UP = true → (t.axis n.val).cfg = v &&& 0x0000FFFFFFFF03FF) ∧
        (s.isOn F.FLD_STATUS_LINK_UP = false → RegsBut [(.ENC_CFG, n.val)] s t ∧
          t.fld = { s.fld with held := s.fld.held.filter (· != ⟨.ENC_CFG, n.val⟩) ++ [⟨.ENC_CFG, n.val⟩] }))) ∧
  (∀ (i : Fin 16) (r l : Bool) (k : Nat) (s : State), s.fld.up = true → F.FI_CFG_ENABLE.of (s.fin i.val).cfg = 1 →
    (s.fin i.val).level = some l →
    (∃ t, exec (.fieldInputEdge i r true k) s = .next t ∧ { t with fld := s.fld } = s ∧ (t.fin i.val).level = some l ∧
      F.FI_STATUS_GLITCHES.of (t.fin i.val).counters = min (F.FI_STATUS_GLITCHES.of (s.fin i.val).counters + 1) 0xFFFF ∧
      F.FI_STATUS_EDGES.of (t.fin i.val).counters = F.FI_STATUS_EDGES.of (s.fin i.val).counters) ∧
    (s.isOn F.FLD_STATUS_LINK_UP = true → s.fld.synced = true → (s.yard.raised.filter (fun e => e.id == i.val)).length < 2 →
      ∃ t, exec (.fieldInputEdge i r false k) s = .next t ∧ { t with fld := s.fld, yard := s.yard } = s ∧
        (t.fin i.val).level = some r ∧
        (if F.FI_CFG_EDGE.of (s.fin i.val).cfg = 0 ∧ r = true ∨ F.FI_CFG_EDGE.of (s.fin i.val).cfg = 1 ∧ r = false ∨
            2 ≤ F.FI_CFG_EDGE.of (s.fin i.val).cfg then
          F.FI_STATUS_EDGES.of (t.fin i.val).counters = (F.FI_STATUS_EDGES.of (s.fin i.val).counters + 1) % 2 ^ 32 ∧
          t.yard = { s.yard with raised := s.yard.raised ++ [⟨i.val, k⟩] }
         else (t.fin i.val).counters = (s.fin i.val).counters ∧ t.yard = s.yard))) ∧
  (∀ (k : Fin 15) (c : FoCmd) (s : State), s.fld.armed.find? (fun c => c.out == k.val) = some c → s.fld.up = true →
    ∃ t, exec (.fieldOutputSwitch k) s = .next t ∧ { t with fld := s.fld, tb := s.tb } = s ∧
      t.tb.count = max s.tb.count c.tick ∧ t.fld.armed = s.fld.armed.erase c ∧ (∀ j, j ≠ k.val → t.fo j = s.fo j) ∧
      t.fo k.val = (if s.fld.hold then s.fo k.val else { s.fo k.val with level := c.on })) ∧
  (∀ (k : Fin 15) (s : State), s.isOn F.FLD_STATUS_LINK_UP = true →
    (s.foOn k.val = true → s.isOn F.FO_STATUS_OVERLOAD k.val = false →
      ∃ t, exec (.foOverloadTrip k) s = .next t ∧ t.foOn k.val = false ∧ t.isOn F.FO_STATUS_OVERLOAD k.val = true ∧
        t.isOn F.FO_STATUS_SWITCH_ON k.val = false ∧ (t.fo k.val).level = (s.fo k.val).level ∧
        (∃ a, t.mgmt.raised = s.mgmt.raised ++ [a] ∧ a.code = 0x20 ∧ bits a.data 0 8 = k.val)) ∧
    (s.isOn F.FO_STATUS_OVERLOAD k.val = true →
      ∃ t, exec (.foOverloadClear k) s = .next t ∧ { t with regs := s.regs, fld := s.fld } = s ∧
        RegsBut [(.FO_STATUS, k.val)] s t ∧ t.isOn F.FO_STATUS_OVERLOAD k.val = false ∧
        t.fo k.val = { s.fo k.val with overload := false } ∧ t.isOn F.FO_STATUS_SWITCH_ON k.val = t.foOn k.val)) ∧
  (∀ (k : Fin 15) (s : State), s.isOn F.FLD_STATUS_LINK_UP = false → s.isOn F.FO_STATUS_OVERLOAD k.val = true →
    ∃ t, exec (.foOverloadClear k) s = .next t ∧ OnlyRegs [(.FLD_LEVEE_COUNT, 0)] s t ∧
      t.get F.FLD_LEVEE_COUNT_CMD_DISCARDED = min (s.get F.FLD_LEVEE_COUNT_CMD_DISCARDED + 1) 0xFFFF) ∧
  (∀ (i : Fin 16) (v : Word) (s : State),
    exec (.fieldWrite .FO_CFG 15 v) s = .next s ∧
    (i.val < 8 → ∃ t, exec (.fieldWrite .ENC_LOAD i v) s = .next t ∧ t.rd .ENC_LOAD i.val = v ∧
      (s.isOn F.FLD_STATUS_LINK_UP = true → (t.axis i.val).load = v) ∧
      (s.isOn F.FLD_STATUS_LINK_UP = false → ⟨.ENC_LOAD, i.val⟩ ∈ t.fld.held ∧ t.axis i.val = s.axis i.val)) ∧
    (∃ t, exec (.fieldWrite .FI_CFG i v) s = .next t ∧ t.get F.FI_CFG_ENABLE i.val = bits v 0 1 ∧
      t.get F.FI_CFG_EDGE i.val = bits v 1 2 ∧ t.get F.FI_CFG_DEBOUNCE i.val = bits v 16 16 ∧
      (s.isOn F.FLD_STATUS_LINK_UP = true → (t.fin i.val).cfg = t.rd .FI_CFG i.val)) ∧
    (i.val < 15 → ∃ t, exec (.fieldWrite .FO_CFG i v) s = .next t ∧ t.isOn F.FO_CFG_SAFE_ON i.val = bit v 0 ∧
      (s.isOn F.FLD_STATUS_LINK_UP = true → (t.fo i.val).safeOn = bit v 0))) ∧
  (∀ s : State, ∃ t, exec .fldCntClear s = .next t ∧ { t with regs := s.regs, fld := s.fld } = s ∧ t.rd .FLD_LEVEE_COUNT = 0 ∧
    (∀ n, n < 8 → t.rd .ENC_COUNT n = 0 ∧ (t.axis n).counters = 0 ∧ (t.axis n).count = (s.axis n).count) ∧
    (∀ i, i < 16 → t.get F.FI_STATUS_GLITCHES i = 0 ∧ t.get F.FI_STATUS_EDGES i = 0 ∧ (t.fin i).level = (s.fin i).level ∧
      t.get F.FI_STATUS_LEVEL i = s.get F.FI_STATUS_LEVEL i) ∧
    (∀ r i, i < 2 ^ 20 → r ∉ [Reg.FLD_LEVEE_COUNT, .ENC_COUNT, .FI_STATUS] → t.rd r i = s.rd r i))

/-- Configuration and memory requests are answered as Table 15.6 says; a register write acts on its fields; MCTP_REG_READ
answers. Rests on 15_host_endpoint.md, Functions and configuration header (R655 to R658), 15_host_endpoint.md, Table 15.6,
15_host_endpoint.md, The stud book (R661, R662), 18_address_map.md, Reserved space (R756), 18_address_map.md, The fen window
(R761), 17_management.md, Table 17.6. -/
def Obligations.RequestsAreAnsweredAndRegistersWritten : Prop :=
  (∀ (fn : Fin 2) (write : Bool) (off : Nat) (data : BitVec 32) (be : BitVec 4) (s : State),
    (s.host.linkUp = false → exec (.configRequest fn write off data be) s = .next s) ∧
    (s.host.linkUp = true → s.retryStatus fn = true →
      ∃ t, exec (.configRequest fn write off data be) s = .next t ∧ t.sent = s.sent ++ [.completion fn 2 [] false] ∧
        t.func fn = s.func fn ∧ { t with host := s.host, sent := s.sent } = s) ∧
    (s.host.linkUp = true → s.retryStatus fn = false →
      (∃ t, exec (.configRequest fn false off data be) s = .next t ∧
        t.sent = s.sent ++ [.completion fn 0 (bytesOfNat 4 (s.cfgRead fn (off / 4 * 4))) false] ∧
        (off / 4 * 4 = 0 → (s.func fn).cfg 0 = 0 →
          t.sent.getLast? = some (.completion fn 0 [0x3E, 0x1F, if fn.val = 0 then 0x16 else 0x17, 0x0F] false)) ∧
        t.func fn = s.func fn ∧ { t with host := s.host, sent := s.sent } = s) ∧
      (off / 4 * 4 = 4 → be = 0xF →
        ∃ t, exec (.configRequest fn true off data be) s = .next t ∧ (t.func fn).memOn = data.getLsbD 1 ∧
          (t.func fn).master = data.getLsbD 2 ∧ t.sent.getLast? = some (.completion fn 0 [] false)) ∧
      (off / 4 * 4 = 0x98 → be = 0xF → fn.val = 0 →
        ∃ t, exec (.configRequest fn true off data be) s = .next t ∧
          t.get F.HOST_CPL_TIMEOUT_TIMEOUT_US =
            (match data.toNat % 16 with | 1 => 100 | 2 => 10000 | 5 => 55000 | _ => 50000) ∧
          RegsBut [(.HOST_CPL_TIMEOUT, 0)] s t ∧ { t with regs := s.regs, host := s.host, sent := s.sent } = s))) ∧
  (∀ (fn : Fin 2) (bar off len : Nat) (data : List Byte) (be : List Bool) (ep posted : Bool) (s : State), s.host.linkUp = true →
    ((s.func fn).inFlr = true → ∀ write, ∃ t, exec (.hostMemoryRequest fn bar write off len data be ep posted) s = .next t ∧
      { t with host := s.host } = s ∧ t.func fn = s.func fn) ∧
    ((s.func fn).inFlr = false →
      ((s.func fn).d3hot = true ∨ (s.func fn).memOn = false ∨ barSize fn bar = none ∨ (∃ n, barSize fn bar = some n ∧ n < off + len) ∨
        (¬ (fn.val = 0 ∧ bar = 2) ∧ 8 < off % 8 + len) ∨ (fn.val = 0 ∧ bar = 2 ∧ (s.ctl.mode = .quiet ∨ fenEnd < off + len))) →
      (∃ t, exec (.hostMemoryRequest fn bar false off len data be ep posted) s = .next t ∧
        t.sent.getLast? = some (.completion fn 1 [] false) ∧ t.fen = s.fen ∧ t.troughs = s.troughs ∧
        t.get F.HOST_COUNT2_UR_SENT = (if fn.val = 0 then min (s.get F.HOST_COUNT2_UR_SENT + 1) 65535 else s.get F.HOST_COUNT2_UR_SENT)) ∧
      (∃ t l, exec (.hostMemoryRequest fn bar true off len data be ep true) s = .next t ∧ t.sent = s.sent ++ l ∧
        (∀ f st d e, Out.completion f st d e ∉ l) ∧ t.fen = s.fen ∧ t.troughs = s.troughs)) ∧
    (fn.val = 0 → (s.func 0).inFlr = false → (s.func 0).d3hot = false → (s.func 0).memOn = true → s.noImage = false →
      (bar = 0 → off = 0 → len = 4 → ∃ t, exec (.hostMemoryRequest fn bar false off len data be ep posted) s = .next t ∧
        t.sent = s.sent ++ [.completion 0 0 [0x44, 0x55, 0x54, 0x53] false] ∧ { t with host := s.host, sent := s.sent } = s) ∧
      (bar = 0 → 0x80000 ≤ off → off < 0x100000 → off % 8 + len ≤ 8 → 0 < len →
        (∃ t, exec (.hostMemoryRequest fn bar false off len data be ep posted) s = .next t ∧
          t.sent = s.sent ++ [.completion 0 0 (List.replicate len 0) false] ∧ { t with host := s.host, sent := s.sent } = s) ∧
        (∃ t, exec (.hostMemoryRequest fn bar true off len data be false true) s = .next t ∧ { t with host := s.host } = s)) ∧
      (bar = 2 → off % 8 = 0 → len = 8 → poolRecordEnd ≤ off → s.ctl.mode ≠ .quiet → s.fenBarred off 8 = false →
        s.fenUsable off = true →
        (s.fenCheck off = 0 → ∃ t, exec (.hostMemoryRequest fn bar false off len data be ep posted) s = .next t ∧
          t.sent = s.sent ++ [.completion 0 0 ((List.range 8).map fun k => s.fenByte (off + k)) false] ∧
          { t with host := s.host, sent := s.sent } = s) ∧
        (data.length = 8 → be = [] → ∃ t, exec (.hostMemoryRequest fn bar true off len data be false true) s = .next t ∧
          (∀ k, k < 8 → some (t.fenByte (off + k)) = data[k]?) ∧ (∀ a, (a < off ∨ off + 8 ≤ a) → t.fenByte a = s.fenByte a) ∧
          t.fenCheck off = 0 ∧ { t with host := s.host, fen := s.fen, fenChk := s.fenChk, fenFix := s.fenFix } = s)))) ∧
  (∀ (fn : Fin 2) (r : Reg) (i : Nat) (v : Word) (be : BitVec 8) (s : State),
    (regBytes fn r i = none → exec (.registerWrite fn r i v be) s = .next s) ∧
    (∀ n, regBytes fn r i = some n →
      (∀ m, s.regWriteA fn r i v m = none ∧ s.regWriteB r i v m = none ∧ s.regWriteC r i v m = none) →
      ∃ t, exec (.registerWrite fn r i v be) s = .next t ∧ OnlyRegs [(r, i)] s t ∧
        t.rd r i = writeFields r (s.rd r i) v (byteMask (if n = 4 then be &&& 0x0F else be))) ∧
    (fn.val = 0 → r = .HIRQ_SRC_PENDING → i = 0 → be = 0x0F →
      ∃ t, exec (.registerWrite fn r i v be) s = .next t ∧ OnlyRegs [(.HIRQ_SRC_PENDING, 0)] s t ∧
        t.rd .HIRQ_SRC_PENDING = s.rd .HIRQ_SRC_PENDING &&& ~~~(v &&& 0xFFFF))) ∧
  (∀ (off : Nat) (s : State), off % 8 = 0 →
    (s.firmware = false → exec (.mctpRegRead off) s = .next s) ∧
    (s.firmware = true → ((0x60000 ≤ off ∧ off < 0x62000) ∨ 0xF0000 ≤ off) →
      exec (.mctpRegRead off) s = .next { s with sent := s.sent ++ [.smbus 0x04 [1]] }) ∧
    (∀ r i, s.firmware = true → winAt 1 off = none → s.doorbellAt 1 off = none → (off < 0x60000 ∨ 0x62000 ≤ off) → regAt 1 off = some (r, i, 8) →
      r ≠ .LANE_PAT_BITS → r ≠ .LANE_PAT_ERR → r ≠ .ADC_URGENT_RESULT → off < 0xF0000 →
      exec (.mctpRegRead off) s = .next { s with sent := s.sent ++ [.smbus 0x04 [0, s.regPeek r i]] }))

/-- A waiting message is sent, kept in the PBA, shown in HIRQ_INTX_CAUSE or held for a slot; unmasking sends one; a yard event
queues one. Rests on 15_host_endpoint.md, Interrupts (R665 to R670), 01_architecture.md, Message engines (R35 to R38). -/
def Obligations.MessagesMeetTheirMasksEnablesAndSlots : Prop :=
  (∀ (fn : Fin 2) (v : Fin 2048) (s : State),
    ((s.host.msgs.find? fun m => m.fn == fn.val && m.vector == v.val) = none → exec (.msixMessageIssue fn v false) s = .next s) ∧
    exec (.msixMessageIssue fn v true) s = exec (.msixMessageIssue fn v false)
      (if fn.val = 0 then { s with host := { s.host with slots := [] } } else { s with host := { s.host with slots1 := [] } }) ∧
    (∀ m, (s.host.msgs.find? fun m => m.fn == fn.val && m.vector == v.val) = some m →
      ((s.func fn).msixOn = false → fn.val = 0 → (s.func 0).intx = false →
        exec (.msixMessageIssue fn v false) s = .next { s with host := { s.host with msgs := s.host.msgs.erase m } }) ∧
      ((s.func fn).intx = true → fn.val = 0 →
        ∃ t, exec (.msixMessageIssue fn v false) s = .next t ∧ t.host.msgs = s.host.msgs.erase m ∧ t.sent = s.sent ∧
          OnlyRegs [(.HIRQ_INTX_CAUSE, 0)] { s with host := { s.host with msgs := s.host.msgs.erase m } } t ∧
          t.rd .HIRQ_INTX_CAUSE = s.rd .HIRQ_INTX_CAUSE |||
            (match m.cls with | .ring => 1 | .yard => 2 | .trough => 4 | .device => 8 | .shared => 0)) ∧
      ((s.func fn).msixOn = true → ((s.func fn).msixMasked = true ∨ (s.vec fn v).masked = true) →
        ∃ t, exec (.msixMessageIssue fn v false) s = .next t ∧ t.host.msgs = s.host.msgs.erase m ∧ t.sent = s.sent ∧
          Tab.get false (t.func fn).pba v.val = true ∧ t.regs = s.regs ∧ { t with host := s.host } = s) ∧
      ((s.func fn).msixOn = true → (s.func fn).msixMasked = false → (s.vec fn v).masked = false → s.maySend fn = true →
        (fn.val = 0 → ∀ c, s.slotFor m.cls = some c →
          ∃ t, exec (.msixMessageIssue fn v false) s = .next t ∧ t.host.msgs = s.host.msgs.erase m ∧
            t.sent = s.sent ++ [.msix 0 v (s.vec 0 v).addr (s.vec 0 v).data] ∧ t.host.slots = s.host.slots ++ [c] ∧
            Tab.get 0 t.host.lastMsg v.val = t.now + 1 ∧
            (Tab.get 0 s.host.lastMsg v.val ≠ 0 → Tab.get 0 s.host.lastMsg v.val - 1 + s.coalesce v ≤ t.now) ∧
            { t with host := s.host, sent := s.sent, tb := s.tb } = s) ∧
        (fn.val = 0 → s.slotFor m.cls = none → exec (.msixMessageIssue fn v false) s = .next s) ∧
        (fn.val = 1 → s.host.slots1.contains v.val = false →
          ∃ t, exec (.msixMessageIssue fn v false) s = .next t ∧ t.host.msgs = s.host.msgs.erase m ∧
            t.sent = s.sent ++ [.msix 1 v (s.vec 1 v).addr (s.vec 1 v).data] ∧ { t with host := s.host, sent := s.sent } = s)))) ∧
  (∀ (fn : Fin 2) (v : Fin 2048) (s : State),
    (fn.val = 1 → 64 ≤ v.val → exec (.msixUnmask fn v) s = .next s) ∧
    ((fn.val = 0 ∨ v.val < 64) →
      ∃ t, exec (.msixUnmask fn v) s = .next t ∧ t.vec fn v = { s.vec fn v with masked := false } ∧
        (∀ k, k ≠ v.val → t.vec fn k = s.vec fn k) ∧ { t with host := s.host } = s ∧
        (if Tab.get false (s.func fn).pba v.val = true ∧ (s.func fn).msixOn = true ∧ (s.func fn).msixMasked = false then
          Tab.get false (t.func fn).pba v.val = false ∧
            (t.host.msgs = s.host.msgs ++ [⟨fn, v, .shared⟩] ∨
              t.host.msgs = s.host.msgs ∧ ∃ m ∈ s.host.msgs, m.fn = fn ∧ m.vector = v)
         else t.host.msgs = s.host.msgs ∧ Tab.get false (t.func fn).pba v.val = Tab.get false (s.func fn).pba v.val))) ∧
  (∀ (k : Fin 16) (s : State),
    (s.takeEvent (376 + k) = none → exec (.hirqSourceEvent k) s = .next s) ∧
    (∀ tick u, s.takeEvent (376 + k) = some (tick, u) →
      (s.isOn F.HIRQ_SRC_CFG_ENABLE k = false ∨ bit (s.rd .HIRQ_SRC_PENDING) k = true → exec (.hirqSourceEvent k) s = .next u) ∧
      (s.isOn F.HIRQ_SRC_CFG_ENABLE k = true → bit (s.rd .HIRQ_SRC_PENDING) k = false →
        ∃ t, exec (.hirqSourceEvent k) s = .next t ∧ bit (t.rd .HIRQ_SRC_PENDING) k = true ∧
          (∀ j, j ≠ k.val → bit (t.rd .HIRQ_SRC_PENDING) j = bit (s.rd .HIRQ_SRC_PENDING) j) ∧
          t.get F.HIRQ_SRC_TICK_TICK k = tick % 2 ^ 64 ∧
          (∃ m ∈ t.host.msgs, m.fn = 0 ∧ m.vector = s.get F.HIRQ_SRC_CFG_VECTOR k) ∧
          RegsBut [(.HIRQ_SRC_PENDING, 0), (.HIRQ_SRC_TICK, k)] s t ∧ t.sent = s.sent ∧
          { t with regs := s.regs, host := s.host, yard := s.yard } = s)))

/-- Completions, timeouts and quarantine of read tags; the link and L1; function-level resets; the counters. Rests on
15_host_endpoint.md, Read tags, completion timeout and quarantine (R678 to R680), 15_host_endpoint.md, Link loss and surprise
removal (R681, R682), 15_host_endpoint.md, Function-level reset (R684 to R686), 15_host_endpoint.md, Power management (R673,
R674), 15_host_endpoint.md, Registers (R692, R694). -/
def Obligations.TagsLinkAndFunctionResetsFollowTheEndpoint : Prop :=
  (∀ (tag : Nat) (data : List Byte) (ok ep last : Bool) (s : State), tag < 16384 →
    (s.tagOf tag = none → ∃ t, exec (.hostCompletionReceived tag data ok ep last) s = .next t ∧
      t.get F.HOST_COUNT2_UNEXPECTED_CPL = min (s.get F.HOST_COUNT2_UNEXPECTED_CPL + 1) 65535 ∧ t.host.tags = s.host.tags ∧
      t.rings = s.rings ∧ t.fen = s.fen) ∧
    (∀ x, s.tagOf tag = some x → x.quar = true → ∃ t, exec (.hostCompletionReceived tag data ok ep last) s = .next t ∧
      t.host.tags = s.host.tags ∧ t.rings = s.rings ∧ t.fen = s.fen ∧
      (if x.flr = true then t.get F.HOST_COUNT_FLR_DISCARDS = min (s.get F.HOST_COUNT_FLR_DISCARDS + 1) 65535 ∧
          OnlyRegs [(.HOST_COUNT, 0)] s t
       else t.get F.HOST_COUNT_LATE_CPL = min (s.get F.HOST_COUNT_LATE_CPL + 1) 65535)) ∧
    (∀ x (r : Fin 1024) d, s.host.tags = [x] → x.tag = tag → x.quar = false → x.use = .data r d.slot 0 8 → x.got = [] →
      (s.ring r).descs = [d] → d.op = opFetch → d.started = true → d.ended = none → d.err = none → d.back = 0 → d.asked = 8 → d.len = 8 →
      (d.w 2).toNat % 8 = 0 → s.fenUsable (d.w 2).toNat = true → data.length = 8 →
      ∃ t e, exec (.hostCompletionReceived tag data true false true) s = .next t ∧ t.host.tags = [] ∧ (t.ring r).descs = [e] ∧
        e.ended = some (0, 8, 0) ∧ (∀ k, k < 8 → some (t.fenByte ((d.w 2).toNat + k)) = data[k]?) ∧
        (∀ a, (a < (d.w 2).toNat ∨ (d.w 2).toNat + 8 ≤ a) → t.fenByte a = s.fenByte a) ∧ t.regs = s.regs) ∧
    (s.tagOf tag = none → exec (.completionTimeout tag) s = .next s ∧ exec (.tagQuarantineEnd tag) s = .next s) ∧
    (∀ x, s.tagOf tag = some x →
      (x.quar = true → exec (.completionTimeout tag) s = .next s) ∧
      (x.quar = false → exec (.tagQuarantineEnd tag) s = .next s) ∧
      (x.quar = false → ∃ t y, exec (.completionTimeout tag) s = .next t ∧ t.tagOf tag = some y ∧ y.quar = true ∧ y.flr = x.flr ∧
        y.due = some (t.now + s.cplTimeout) ∧ (∀ d, x.due = some d → d ≤ t.now) ∧
        t.get F.HOST_COUNT_CPL_TIMEOUTS = min (s.get F.HOST_COUNT_CPL_TIMEOUTS + 1) 65535) ∧
      (∀ d, x.quar = true → x.due = some d → ∃ t, exec (.tagQuarantineEnd tag) s = .next t ∧ d ≤ t.now ∧
        t.host.tags = s.host.tags.filter (fun y => y.tag != tag) ∧ { t with host := s.host, tb := s.tb } = s))) ∧
  (∀ s : State,
    (s.hostLive = false ∨ s.host.inL1 = true ∨ s.linkIdle = false → exec .l1EntryRequest s = .next s) ∧
    (s.hostLive = true → s.host.inL1 = false → s.host.pf0.dword 0 0x80 / 2 % 2 = 1 → s.linkIdle = true →
      ∃ t, exec .l1EntryRequest s = .next t ∧ t.host.inL1 = true ∧
        t.sent = s.sent ++ [.pcieMessage 4 (s.get F.HOST_PM_CFG_LTR_IDLE), .pcieMessage 5 0] ∧
        t.get F.HOST_COUNT2_L1_ENTRIES = min (s.get F.HOST_COUNT2_L1_ENTRIES + 1) 65535 ∧ RegsBut [(.HOST_COUNT2, 0)] s t)) ∧
  (∀ (speed width : Nat) (flit hot : Bool) (s : State),
    (s.host.linkUp = true ∨ s.power.perst = true ∨ s.power.vddAon = false → exec (.hostLinkUp speed width flit) s = .next s) ∧
    (s.host.linkUp = false → s.power.perst = false → s.power.vddAon = true →
      ∃ t, exec (.hostLinkUp speed width flit) s = .next t ∧ t.host.linkUp = true ∧ t.host.speed = speed ∧ t.host.width = width ∧
        t.host.flit = flit ∧ t.ret.wakeN = false) ∧
    (s.host.linkUp = false → exec (.hostLinkDown hot) s = .next s) ∧
    (s.host.linkUp = true → ∃ t, exec (.hostLinkDown hot) s = .next t ∧ t.host.linkUp = false ∧
      t.isOn F.HOST_STATUS_LINK_LOST_SEEN = true ∧ t.get F.HOST_COUNT_LINK_LOSSES = min (s.get F.HOST_COUNT_LINK_LOSSES + 1) 65535 ∧
      (∀ x ∈ t.host.tags, x.flr = true) ∧ t.ctl = s.ctl ∧
      (hot = false → (t.func 0).master = false ∧ (t.func 0).msixOn = false ∧ (t.func 1).master = false ∧ (t.func 1).msixOn = false))) ∧
  (∀ s : State,
    (s.host.pf0.inFlr = true → exec .flrPf0 s = .next s) ∧
    (s.host.pf0.inFlr = false → ∃ t, exec .flrPf0 s = .next t ∧ t.host.pf0.inFlr = true ∧ t.host.pf0.master = false ∧
      t.host.pf0.msixOn = false ∧ (∀ r, r < 1024 → t.ring r = Ring.zero ∧ t.rd .RING_CTRL r = 0 ∧ t.rd .RING_PTR r = 0) ∧
      (∀ x ∈ t.host.tags, x.quar = true ∧ x.flr = true) ∧ (∀ g, g < 16 → (t.groom g).st = .halted ∨ (t.groom g).st = .faulted) ∧
      (∀ c, c < 64 → t.isOn F.CTX_STATUS_ARMED c = false) ∧ t.get F.HIRQ_DEV_CFG_VECTOR = 0 ∧ t.host.pf1 = s.host.pf1 ∧
      ((s.modeAhead = .armed ∨ s.modeAhead = .stream ∨ s.modeAhead = .burst ∨ s.modeAhead = .drain ∨ s.modeAhead = .shadow) →
        ∃ q ∈ t.ctl.pend, q.src = .yardmaster ∧ q.target = 5 ∧ q.reason = .flr) ∧
      t.crib = s.crib ∧ t.paddock = s.paddock ∧ t.wpMem = s.wpMem ∧ t.fld = s.fld) ∧
    (s.host.pf0.inFlr = false → exec .flrPf0Complete s = .next s) ∧
    (s.host.pf0.inFlr = true → ∃ t, exec .flrPf0Complete s = .next t ∧ t.host.pf0 = { s.host.pf0 with inFlr := false } ∧
      t.host.tags = s.host.tags.map (fun x => if x.flr = true ∧ x.due = none then { x with due := some (s.now + s.host.flrTicks) } else x) ∧
      { t with host := s.host } = s) ∧
    (∃ t, exec .flrPf1 s = .next t ∧ t.host.pf1.master = false ∧ t.host.pf1.msixOn = false ∧ t.rd .DEV_MODE_REQ 1 = 4 ∧
      t.host.pf0 = s.host.pf0 ∧ t.host.tags = s.host.tags ∧ t.rings = s.rings ∧ t.ctl.mode = s.ctl.mode) ∧
    (∃ t, exec .hostCntClear s = .next t ∧ OnlyRegs [(.HOST_COUNT, 0), (.HOST_COUNT2, 0)] s t ∧ t.rd .HOST_COUNT = 0 ∧
      t.rd .HOST_COUNT2 = 0))

/-- Enable, election, takeover, hand-over and stand-down move the pair state, the epoch and the cutover as Table 16.3 says. Rests
on 16_pairing.md, Table 16.3, 16_pairing.md, The causeway link (R703 to R705), 16_pairing.md, Roles, epochs and keeper rights
(R708 to R710), 16_pairing.md, When both claim the keeper line (R714), 16_pairing.md, Registers (R718 to R723). -/
def Obligations.PairRolesFollowStatusLinesAndCommands : Prop :=
  (∀ (v : Word) (s : State),
    (s.isOn F.PAIR_CFG_ENABLE = false → s.pairSerialOk = false → ∃ t, exec (.pairEnable v) s = .next t ∧
      OnlyRegs [(.PAIR_CFG, 0), (.PAIR_STATUS, 0)] s t ∧ t.isOn F.PAIR_CFG_ENABLE = false ∧
      t.isOn F.PAIR_STATUS_CFG_REJECTED = true ∧ t.pairSt = s.pairSt) ∧
    (s.isOn F.PAIR_CFG_ENABLE = false → s.pairSerialOk = true → s.pairSt = 0 → ∃ t, exec (.pairEnable v) s = .next t ∧
      t.isOn F.PAIR_CFG_ENABLE = true ∧ t.pairSt = 1 ∧ t.get F.PAIR_CFG_PRIORITY = bits v 8 8 ∧ t.get F.PAIR_CFG_FWD_OUT = bits v 32 16 ∧
      t.get F.PAIR_CFG_FWD_IN = bits v 48 16 ∧ t.rd .PAIR_EPOCH = s.rd .PAIR_EPOCH) ∧
    (s.isOn F.PAIR_CFG_ENABLE = true → ∃ t, exec (.pairDisable v) s = .next t ∧ t.isOn F.PAIR_CFG_ENABLE = false ∧ t.pairSt = 0 ∧
      t.isOn F.PAIR_STATUS_RIGHTS = false ∧ t.get F.PAIR_CFG_PRIORITY = s.get F.PAIR_CFG_PRIORITY ∧
      t.get F.PAIR_CFG_FWD_IN = s.get F.PAIR_CFG_FWD_IN ∧ t.isOn F.PAIR_STATUS_CAUSEWAY_UP = false) ∧
    (s.isOn F.PAIR_CFG_ENABLE = false → ∃ t, exec (.pairDisable v) s = .next t ∧ OnlyRegs [(.PAIR_CFG, 0)] s t ∧
      t.isOn F.PAIR_CFG_ENABLE = false ∧ t.get F.PAIR_CFG_PRIORITY = bits v 8 8)) ∧
  (∀ s : State,
    (s.cwActive = false → exec .pairStatusSend s = .next s) ∧
    (s.cwActive = true → ∃ b, exec .pairStatusSend s = .next { s with sent := s.sent ++ [.causeway 0x40 b] } ∧ b.length = 84 ∧
      (∀ w, b[0]? = some w → bits w 0 3 = s.pairSt ∧ bit w 3 = false ∧ (bit w 4 = true ↔ s.pairSt = 2) ∧
        bits w 8 8 = s.get F.PAIR_CFG_PRIORITY ∧ bits w 16 48 = 0) ∧
      b[1]? = some (s.rd .PAIR_EPOCH) ∧ b[2]? = some (word s.serial) ∧ b[3]? = some (s.rd .PAIR_PEER_SERIAL) ∧
      (∀ c, c < 64 → b[4 + c]? = some (s.rd .PAIR_WM c)) ∧ (∀ h, h < 16 → b[68 + h]? = some (s.rd .PAIR_HERD_WM h)))) ∧
  (∀ (body : List Word) (crc : BitVec 32) (e : Bool) (tick : Nat) (s : State), (s.reach tick).cwActive = true →
    ((e = true ∨ (rxOf 0x40 0 0 (bytesOfWords body) crc e tick).good = false ∨ body.length ≠ 84) →
      ∃ t, exec (.pairStatusReceived body crc e tick) s = .next t ∧ OnlyRegs [(.PAIR_COUNT2, 0)] (s.reach tick) t ∧
        t.get F.PAIR_COUNT2_CW_DISCARDS = min (s.get F.PAIR_COUNT2_CW_DISCARDS + 1) 255) ∧
    (e = false → (rxOf 0x40 0 0 (bytesOfWords body) crc e tick).good = true → body.length = 84 →
      (∀ w2 w3, body[2]? = some w2 → body[3]? = some w3 → (w2 ≠ s.rd .PAIR_PEER_SERIAL ∨ w3 ≠ word s.serial) →
        ∃ t, exec (.pairStatusReceived body crc e tick) s = .next t ∧ t.isOn F.PAIR_STATUS_MISCONFIG = true ∧
          t.isOn F.PAIR_STATUS_CAUSEWAY_UP = false) ∧
      (∀ w0 w1, body[0]? = some w0 → body[1]? = some w1 → body[2]? = some (s.rd .PAIR_PEER_SERIAL) → body[3]? = some (word s.serial) →
        s.isOn F.PAIR_STATUS_MISCONFIG = false →
        (s.pairSt = 1 → (bits w0 0 3 = 2 ∨ bits w0 0 3 = 4) → ∃ t, exec (.pairStatusReceived body crc e tick) s = .next t ∧ t.pairSt = 3 ∧
          t.rd .PAIR_EPOCH = w1 ∧ t.rd .PAIR_PEER_EPOCH = w1 ∧ t.get F.PAIR_STATUS_PEER_STATE = bits w0 0 3 ∧
          t.isOn F.PAIR_STATUS_CAUSEWAY_UP = true ∧ t.isOn F.PAIR_STATUS_RIGHTS = false ∧
          (∀ c, c < 64 → some (t.rd .PAIR_WM c) = body[4 + c]?) ∧ (∀ h, h < 16 → some (t.rd .PAIR_HERD_WM h) = body[68 + h]?)) ∧
        (s.pairSt = 1 → bits w0 0 3 = 1 → bits w0 8 8 < s.get F.PAIR_CFG_PRIORITY → w1.toNat < 2 ^ 64 - 1 → s.epoch < 2 ^ 64 - 1 →
          ∃ t, exec (.pairStatusReceived body crc e tick) s = .next t ∧ t.pairSt = 2 ∧ t.epoch = max s.epoch w1.toNat + 1 ∧
            (s.modeAhead = .shadow → ∃ q ∈ t.ctl.pend, q.src = .yardmaster ∧ q.target = Mode.code .stream)) ∧
        (s.pairSt = 3 → bit w0 3 = true → s.peerKeep = false → w1.toNat < 2 ^ 64 - 1 → s.epoch < 2 ^ 64 - 1 →
          ∃ t, exec (.pairStatusReceived body crc e tick) s = .next t ∧ t.pairSt = 2 ∧ t.rd .PAIR_CUTOVER = 0 ∧
            t.get F.PAIR_STATUS_LAST_TAKEOVER = 1 ∧ t.epoch = max s.epoch w1.toNat + 1)))) ∧
  (∀ s : State,
    (s.pair.lastStatus = none ∨ s.cwUp = false → exec .causewayStatusTimeout s = .next s) ∧
    (∀ t0, s.pair.lastStatus = some t0 → s.cwUp = true → ∃ t, exec .causewayStatusTimeout s = .next t ∧ t.cwUp = false ∧
      t0 + 40000 ≤ t.now ∧ t.get F.PAIR_COUNT_CW_LOSSES = min (s.get F.PAIR_COUNT_CW_LOSSES + 1) 65535) ∧
    (∀ own peer, s.isOn F.PAIR_CFG_ENABLE = false → ∃ t, exec (.peerKeepChange own peer) s = .next t ∧ t.peerKeep = peer ∧
      t.keepOut = own ∧ (s.peerKeep = true → peer = false → t.pair.release = some (s.now - 4000)) ∧
      RegsBut [(.PAIR_STATUS, 0), (.YARD_GLOBAL, 0)] s t) ∧
    (s.isOn F.PAIR_CFG_ENABLE = true → s.pairSt = 5 → ∃ t, exec (.peerKeepChange false true) s = .next t ∧ t.pairSt = 3) ∧
    (s.isOn F.PAIR_CFG_ENABLE = true → s.pairSt = 2 → s.cwUp = false → s.peerEpoch ≤ s.epoch →
      ∃ t, exec (.peerKeepChange true true) s = .next t ∧ t.pairSt = 5 ∧ t.pair.standAt = t.now ∧
        t.get F.PAIR_COUNT_STANDDOWNS = min (s.get F.PAIR_COUNT_STANDDOWNS + 1) 65535) ∧
    (s.pairSt ≠ 1 ∧ s.pairSt ≠ 3 ∨ s.peerKeep = true → exec .peerReleaseTakeover s = .next s) ∧
    (∀ cut, (s.pairSt = 1 ∨ s.pairSt = 3) → s.peerKeep = false → (s.cwUp = false ∨ s.pair.peerFinal = false) → s.pair.release = some cut →
      ∃ t, exec .peerReleaseTakeover s = .next t ∧ t.pairSt = 2 ∧ t.rd .PAIR_CUTOVER = word cut ∧ cut + 400000 ≤ t.now ∧
        t.get F.PAIR_STATUS_LAST_TAKEOVER = 2 ∧ t.rd .PAIR_EPOCH = word (max s.epoch s.peerEpoch + 1) ∧
        t.get F.PAIR_COUNT_TAKEOVERS = min (s.get F.PAIR_COUNT_TAKEOVERS + 1) 65535 ∧
        (∀ c, c < 64 → Tab.get 0 t.pair.cutWm c = s.rd .PAIR_WM c)) ∧
    (s.pairSt ≠ 5 ∨ s.peerKeep = true → exec .standdownReclaim s = .next s) ∧
    (s.pairSt = 5 → s.peerKeep = false → ∃ t, exec .standdownReclaim s = .next t ∧ t.pairSt = 2 ∧ t.get F.PAIR_STATUS_LAST_TAKEOVER = 3 ∧
      s.pair.standAt + (if s.serial < (s.rd .PAIR_PEER_SERIAL).toNat then 4000000 else 8000000) ≤ t.now) ∧
    (∀ v : BitVec 32, v.getLsbD 1 = false →
      ∃ t, exec (.pairHandover v) s = .next t ∧
        (if s.pairSt = 2 ∧ s.cwUp = true ∧ s.get F.PAIR_STATUS_PEER_STATE = 3 then t.pairSt = 4 ∧ t.isOn F.PAIR_CTRL_HANDOVER = true
         else OnlyRegs [(.PAIR_STATUS, 0)] s t ∧ t.pairSt = s.pairSt ∧ t.isOn F.PAIR_STATUS_CFG_REJECTED = true)) ∧
    (s.pairSt ≠ 4 ∨ s.sluiceDraining = true → exec .handoverComplete s = .next s) ∧
    (s.pairSt = 4 → s.sluiceDraining = false → ∃ t, exec .handoverComplete s = .next t ∧ t.pairSt = 3 ∧ t.isOn F.PAIR_CTRL_HANDOVER = false ∧
      t.rd .PAIR_EPOCH = s.rd .PAIR_EPOCH ∧
      (s.cwActive = true → ∃ b w, t.sent = s.sent ++ [.causeway 0x40 b] ∧ b[0]? = some w ∧ bit w 3 = true ∧ bits w 0 3 = 4)))

/-- A forwarded packet reaches its stall as if its lanes had brought it; a shadow trims records the keeper has delivered. Rests
on 16_pairing.md, The causeway link (R704, R706, R707), 16_pairing.md, Watermarks and trimming (R711, R712), 16_pairing.md,
Registers (R720, R723). -/
def Obligations.CausewayForwardsPacketsAndTrimsTheShadow : Prop :=
  (∀ (body : List Byte) (crc : BitVec 32) (e : Bool) (tick : Nat) (room : Bool) (s : State),
    ((s.reach tick).cwActive = false → exec (.forwardPacketReceived body crc e tick room) s = .next (s.reach tick)) ∧
    ((s.reach tick).cwActive = true → (e = true ∨ (rxOf 0x48 0 0 body crc e tick).good = false) →
      ∃ t, exec (.forwardPacketReceived body crc e tick room) s = .next t ∧ OnlyRegs [(.PAIR_COUNT2, 0)] (s.reach tick) t ∧
        t.get F.PAIR_COUNT2_CW_DISCARDS = min (s.get F.PAIR_COUNT2_CW_DISCARDS + 1) 255) ∧
    (∀ (n : Fin 32) (type fseq : Byte) (param crc2 : BitVec 32) (b : List Byte), (s.reach tick).cwActive = true → e = false →
      (rxOf 0x48 0 0 body crc e tick).good = true → b.length < 65536 →
      body = bytesOfNat 8 n ++ [type, fseq] ++ bytesOfNat 2 b.length ++ bytesOfNat 4 param.toNat ++ b ++ bytesOfNat 4 crc2.toNat →
      (s.cwUp = false ∨ 16 ≤ n.val ∨ (s.reach tick).fwdIn n = false ∨ s.isOn F.STALL_LINK_CFG_ENABLE n = false →
        exec (.forwardPacketReceived body crc e tick room) s = .next (s.reach tick)) ∧
      (s.cwUp = true → n.val < 16 → (s.reach tick).fwdIn n = true → s.isOn F.STALL_LINK_CFG_ENABLE n = true →
        let q := rxOf type.toNat ⟨fseq.toNat, fseq.isLt⟩ param b crc2 false tick
        ((type = 1 ∨ type = 2 ∨ type = 3) →
          exec (.forwardPacketReceived body crc e tick room) s = .next ((s.reach tick).rxFrame n q room)) ∧
        (type = 0x21 → exec (.forwardPacketReceived body crc e tick room) s = .next ((s.reach tick).rxEvent n q room))))) ∧
  (∀ (k : Fin 65536) (s : State),
    (s.isOn F.PAIR_CFG_ENABLE = false ∨ s.pairSt ≠ 3 ∨ s.cwUp = false → exec (.tagTroughTrim k) s = .next s) ∧
    (s.headItem k = none → exec (.tagTroughTrim k) s = .next s) ∧
    (∀ it, s.headItem k = some it → it.gap = true → (s.trg k).vis = 1 → exec (.tagTroughTrim k) s = .next s)) ∧
  (∀ (c : Fin 64) (k : Fin 65536) (s : State) it w0 w1, s.isOn F.PAIR_CFG_ENABLE = true → s.pairSt = 3 → s.cwUp = true →
    k.val = 16 + c.val → s.headItem k = some it → it.gap = false → it.poison = false → it.words.length = 8 → it.words[0]? = some w0 →
    it.words[1]? = some w1 → bits w0 24 4 ≠ 5 → bits w0 13 6 = c.val → s.ctxOn c = true →
    (s.rd .PAIR_WM c < w1 → exec (.tagTroughTrim k) s = .next s) ∧
    (w1 ≤ s.rd .PAIR_WM c → (s.trg k).vis = 8 → (bit w0 38 = true ∨ bits ((it.words[7]?).getD 0) 0 32 = 0) →
      ∃ t, exec (.tagTroughTrim k) s = .next t ∧ (t.trg k).vis = 0 ∧
        t.get F.PAIR_COUNT2_TRIMMED = (s.get F.PAIR_COUNT2_TRIMMED + 1) % 2 ^ 32 ∧ t.outBits = s.outBits ∧
        (∀ j, j ≠ k.val → t.trg j = s.trg j) ∧ t.ctxs = s.ctxs)) ∧
  (∀ s : State, ∃ t, exec .pairCntClear s = .next t ∧ OnlyRegs [(.PAIR_COUNT, 0), (.PAIR_COUNT2, 0)] s t ∧ t.rd .PAIR_COUNT = 0 ∧
    t.rd .PAIR_COUNT2 = 0)

/-- An alarm is entered in trough 0 in three words, counted unacknowledged, acknowledged forward from the oldest, and the logs'
clears clear only their own. Rests on 17_management.md, Alarms (R729 to R733), 17_management.md, Table 17.6,
17_management.md, PF1 registers (R751). -/
def Obligations.AlarmsAreEnteredAcknowledgedAndCleared : Prop :=
  (∀ (a : Alarm) (r : List Alarm) (s : State), s.firmware = true → s.mgmt.raised = a :: r → s.mgmt.unacked.length < 256 →
    ∃ t, exec .alarmEntry s = .next t ∧ t.mgmt.raised = r ∧ t.mgmt.unacked = s.mgmt.unacked ++ [a.seq] ∧
      t.get F.ALARM_STATUS_UNACKED = s.mgmt.unacked.length + 1 ∧ t.ret.queue.length = s.ret.queue.length + 1 ∧
      .uart a.seq a.code a.tick a.data ∈ t.sent ∧ t.fuses = s.fuses ∧
      (s.trgOn 0 = true → s.trgAsleep 0 = false → (s.trg 0).openBy = none → (s.trg 0).vis + 3 < s.trgSize 0 →
        (t.trg 0).vis = (s.trg 0).vis + 3 ∧
        bits (t.visWord 0 (s.trg 0).vis).data 0 8 = 0x0E ∧ bits (t.visWord 0 (s.trg 0).vis).data 8 8 = a.code % 256 ∧
        bit (t.visWord 0 (s.trg 0).vis).data 16 = a.hold ∧ bits (t.visWord 0 (s.trg 0).vis).data 32 32 = a.seq % 2 ^ 32 ∧
        (t.visWord 0 ((s.trg 0).vis + 1)).data = BitVec.ofNat 64 a.tick ∧ (t.visWord 0 ((s.trg 0).vis + 2)).data = a.data)) ∧
  (∀ (a : Alarm) (r : List Alarm) (s : State), s.firmware = true → s.mgmt.raised = a :: r → 256 ≤ s.mgmt.unacked.length →
    ∃ t, exec .alarmEntry s = .next t ∧ t.mgmt.raised = r ∧ t.mgmt.unacked = s.mgmt.unacked ∧
      t.mgmt.missed = min (s.mgmt.missed + 1) 0xFFFFFFFF ∧ t.isOn F.ALARM_STATUS_OVERFLOWED = true ∧ t.troughs = s.troughs) ∧
  (∀ (q : BitVec 32) (s : State), s.firmware = true → s.mgmt.missed = 0 →
    (∃ t, exec (.alarmAck q) s = .next t ∧
      t.mgmt.unacked = s.mgmt.unacked.dropWhile (fun e => seqAtOrAfter q.toNat e) ∧ t.mgmt.raised = s.mgmt.raised ∧
      t.get F.ALARM_STATUS_UNACKED = t.mgmt.unacked.length % 512 ∧ (∀ k, k ≠ 0 → t.trg k = s.trg k) ∧ t.fen = s.fen) ∧
    (∃ t, exec (.mctpAlarmAck q) s = .next t ∧
      t.mgmt.unacked = s.mgmt.unacked.dropWhile (fun e => seqAtOrAfter q.toNat e) ∧
      t.sent = s.sent ++ [.smbus 0x02 [BitVec.ofNat 64 (s.mgmt.unacked.length - t.mgmt.unacked.length)]]) ∧
    (∃ t, exec (.mctpAlarmRead q) s = .next t ∧ { t with sent := s.sent } = s ∧
      (∃ ws, t.sent = s.sent ++ [.smbus 0x01 ws] ∧
        ws.length = 3 * min 4 (s.mgmt.unacked.filter fun e => seqAtOrAfter e q.toNat).length))) ∧
  (∀ s : State,
    (∃ t, exec .traceThaw s = .next t ∧ OnlyRegs [(.LOG_STATUS, 0)] s t ∧ t.get F.LOG_STATUS_TRACE_FROZEN = 0 ∧
      t.get F.LOG_STATUS_FROZEN_DROPS = s.get F.LOG_STATUS_FROZEN_DROPS) ∧
    (∃ t, exec .summaryClear s = .next t ∧ { t with regs := s.regs } = s ∧ (∀ m, m < 2 ^ 20 → t.rd .ALARM_SUMMARY m = 0) ∧
      (∀ r i, i < 2 ^ 20 → r ≠ .ALARM_SUMMARY → t.rd r i = s.rd r i)) ∧
    (∃ t, exec .logCntClear s = .next t ∧ OnlyRegs [(.LOG_STATUS, 0)] s t ∧ t.get F.LOG_STATUS_FROZEN_DROPS = 0 ∧
      t.get F.LOG_STATUS_TRACE_FROZEN = s.get F.LOG_STATUS_TRACE_FROZEN))

/-- Fault records and event windows reach their troughs, SMBus answers its commands, and the console takes input while DEBUG_LOCK
is intact. Rests on 17_management.md, Faults, events and trace (R735), 17_management.md, SMBus, UART and JTAG (R741 to R744),
17_management.md, Paths and their degradation (R738). -/
def Obligations.LogsArePushedAndReadOverSMBus : Prop :=
  (∀ (f : FaultRec) (s : State), s.firmware = true → f ∈ s.mgmt.faults →
    (∀ g ∈ s.mgmt.faults, g ≠ f → f.first < g.first ∨ f.first = g.first ∧ f.code < g.code) →
    s.trgOn 1 = true → s.trgAsleep 1 = false → (s.trg 1).openBy = none → (s.trg 1).vis + 4 < s.trgSize 1 →
    ∃ t, exec .faultRecordPush s = .next t ∧ t.mgmt.faults = s.mgmt.faults.filter (fun g => g.code != f.code) ∧
      (t.trg 1).vis = (s.trg 1).vis + 4 ∧ bits (t.visWord 1 (s.trg 1).vis).data 0 8 = 0x0B ∧
      bits (t.visWord 1 (s.trg 1).vis).data 8 8 = f.code % 256 ∧ bits (t.visWord 1 (s.trg 1).vis).data 32 32 = f.count % 2 ^ 32 ∧
      (t.visWord 1 ((s.trg 1).vis + 1)).data = BitVec.ofNat 64 f.first ∧
      (t.visWord 1 ((s.trg 1).vis + 2)).data = BitVec.ofNat 64 f.last ∧ (t.visWord 1 ((s.trg 1).vis + 3)).data = f.data) ∧
  (∀ s : State, s.firmware = true → s.trgOn 2 = true → s.trgAsleep 2 = false → (s.trg 2).openBy = none →
    (s.trg 2).vis + 3 * s.mgmt.events.length < s.trgSize 2 →
    ∃ t, exec .eventWindowClose s = .next t ∧ t.mgmt.events = [] ∧ t.mgmt.windowStart = s.tb.count ∧ t.mgmt.mirrorUsed = 0 ∧
      (t.trg 2).vis = (s.trg 2).vis + 3 * s.mgmt.events.length) ∧
  (∀ (e : BitVec 8) (s : State), s.smbLive = true →
    (∃ t, exec (.mctpSetEndpointId e) s = .next t ∧ t.get F.MGMT_SMB_CFG_EID = e.toNat ∧
      RegsBut [(.MGMT_SMB_CFG, 0)] s t ∧ { t with regs := s.regs, sent := s.sent } = s) ∧
    (∃ t, exec .mctpGetEndpointId s = .next t ∧ { t with sent := s.sent } = s ∧
      t.sent = s.sent ++ [.smbus 0x02 [BitVec.ofNat 64 (s.get F.MGMT_SMB_CFG_EID)]]) ∧
    (∃ t ws, exec .mctpGetVersionSupport s = .next t ∧ { t with sent := s.sent } = s ∧ t.sent = s.sent ++ [.smbus 0x04 ws]) ∧
    (∃ t, exec .mctpGetMessageTypeSupport s = .next t ∧ { t with sent := s.sent } = s ∧
      t.sent = s.sent ++ [.smbus 0x05 [0x00, 0x01, 0x7E]]) ∧
    (∃ t, exec .mctpGetVendorSupport s = .next t ∧ { t with sent := s.sent } = s ∧ t.sent = s.sent ++ [.smbus 0x06 [0x1F3E]])) ∧
  (∀ (k : Nat) (s : State), s.firmware = true → k < 32 →
    (∃ t, exec (.pldmSensorRead (k + 1)) s = .next t ∧ { t with sent := s.sent } = s ∧
      t.sent = s.sent ++ [.smbus 0x11 [BitVec.ofNat 64 (s.get F.TEMP_CUR k)]]) ∧
    (k < 4 → ∃ t, exec (.pldmSensorRead (k + 0x21)) s = .next t ∧ { t with sent := s.sent } = s ∧
      t.sent = s.sent ++ [.smbus 0x11 [BitVec.ofNat 64 (s.get F.FEN_CASE_CUR k)]]) ∧
    (k < 10 → ∃ t, exec (.pldmSensorRead (k + 0x30)) s = .next t ∧ { t with sent := s.sent } = s ∧
      t.sent = s.sent ++ [.smbus 0x11 [BitVec.ofNat 64 (s.get F.RAIL_MV k)]])) ∧
  (∀ (k n : Nat) (s : State), s.firmware = true → 1 ≤ k → k ≤ 3 →
    (s.popAllowed .smbus k = true →
      ∃ t ws, exec (.mctpLogPop k n) s = .next t ∧ t.sent = s.sent ++ [.smbus 0x03 (0 :: ws)] ∧ ws.length ≤ 6) ∧
    (s.popAllowed .smbus k = false →
      ∃ t, exec (.mctpLogPop k n) s = .next t ∧ { t with sent := s.sent } = s ∧ t.sent = s.sent ++ [.smbus 0x03 [mctpRefused]])) ∧
  (∀ (c : Nat) (b : Byte) (s : State), s.firmware = true →
    (∃ t, exec (.mctpUnsupported c) s = .next t ∧ { t with sent := s.sent } = s ∧ t.sent = s.sent ++ [.smbus c [mctpUnsupported]]) ∧
    (∃ t, exec (.uartConsoleInput b) s = .next t ∧ { t with mgmt := s.mgmt } = s ∧
      t.mgmt = (if s.fuses.debugLock then s.mgmt else { s.mgmt with console := s.mgmt.console ++ [b] })))

/-- Thermal and rail samples fill the sensor registers, set THROTTLED, RAIL_RANGE and BOUNDS_SUSPENDED, and their releases end
them. Rests on 17_management.md, Telemetry (R739), 01_architecture.md, Table 1.5, 01_architecture.md, Thermal gradient and
supply range (R24, R25). -/
def Obligations.TelemetrySetsBoundsAndRegisters : Prop :=
  (∀ (v : List Int) (s : State), s.firmware = true → v.length = 32 →
    ∃ t, exec (.thermalSample v) s = .next t ∧
      (∃ hi ∈ v, ∃ lo ∈ v, (∀ x ∈ v, lo ≤ x ∧ x ≤ hi) ∧ t.mgmt.gradient = hi - lo) ∧
      (∀ k, k < 32 → t.get F.TEMP_CUR k = unsigned 16 (v.getD k 0)) ∧
      (720 < t.mgmt.gradient → t.isOn F.DEV_STATUS_THROTTLED = true ∧ t.isOn F.DEV_STATUS_BOUNDS_SUSPENDED = true) ∧
      (880 < t.mgmt.gradient → s.mgmt.gradient ≤ 880 → ∃ a ∈ t.mgmt.raised, a.code = 0x06) ∧ t.fen = s.fen) ∧
  (∀ s : State, s.mgmt.thermal = true → s.mgmt.gradient ≤ 640 →
    ∃ t, exec .throttleRelease s = .next t ∧ t.mgmt.thermal = false ∧ t.isOn F.DEV_STATUS_THROTTLED = false ∧
      t.isOn F.DEV_STATUS_BOUNDS_SUSPENDED = s.mgmt.railCause ∧ (∀ k, k < 4 → t.isOn F.CHUTE_STATUS_THROTTLED k = false)) ∧
  (∀ (v : List Nat) (c : Nat) (s : State), s.firmware = true → v.length = 10 →
    ∃ t, exec (.railSample v c) s = .next t ∧
      (∀ k, k < 10 → t.get F.RAIL_MV k = v.getD k 0 % 2 ^ 16) ∧ t.get F.RAIL_CURRENT 0 = c % 2 ^ 16 ∧
      (t.isOn F.DEV_STATUS_RAIL_RANGE = true ↔ ∃ k, k < 10 ∧ railOut k (v.getD k 0) = true) ∧
      (t.isOn F.DEV_STATUS_RAIL_RANGE = true → t.isOn F.DEV_STATUS_BOUNDS_SUSPENDED = true)) ∧
  (∀ s : State, s.mgmt.railCause = true → s.mgmt.railsOut = [] →
    ∃ t, exec .boundsRelease s = .next t ∧ t.mgmt.railCause = false ∧
      t.isOn F.DEV_STATUS_BOUNDS_SUSPENDED = s.mgmt.thermal ∧ t.isOn F.DEV_STATUS_RAIL_RANGE = false) ∧
  (∀ (v : List Int) (s : State), s.firmware = true → v.length = 4 →
    ∃ t, exec (.fenCaseSample v) s = .next t ∧ (∀ k, k < 4 → t.get F.FEN_CASE_CUR k = unsigned 16 (v.getD k 0)) ∧ t.fen = s.fen) ∧
  (∀ (v : List Nat) (s : State), s.firmware = true → v.length = 34 →
    ∃ t, exec (.activitySample v) s = .next t ∧ { t with regs := s.regs } = s ∧
      (∀ k, k < 34 → bits (t.rd .ACTIVITY (k / 8)) (8 * (k % 8)) 8 = min (v.getD k 0) 255)) ∧
  (∀ s : State, ∃ t, exec .telemClear s = .next t ∧ { t with regs := s.regs, mgmt := s.mgmt } = s ∧
    (∀ k, k < 32 → t.get F.TEMP_MAX k = 0 ∧ t.get F.TEMP_CUR k = s.get F.TEMP_CUR k) ∧
    (∀ k, k < 4 → t.get F.FEN_CASE_MAX k = 0 ∧ t.get F.FEN_CASE_CUR k = s.get F.FEN_CASE_CUR k) ∧
    (∀ k, k < 10 → t.get F.RAIL_MIN_MV k = 0 ∧ t.get F.RAIL_MAX_MV k = 0 ∧ t.get F.RAIL_MV k = s.get F.RAIL_MV k))

/-- An in-service test slice counts its pass, failure or preemption, a scrub pass counts, and each JTAG instruction selects what
the balls show. Rests on 17_management.md, In-service test (R740), 17_management.md, SMBus, UART and JTAG (R745). -/
def Obligations.InServiceTestAndJtagDoTheirInstructions : Prop :=
  (∀ (k : Fin 6) (d : Nat) (e f : Bool) (s : State), s.firmware = true → s.istMode = true → s.istOn k.val = true →
    ∃ t, exec (.istSlice k d true e f) s = .next t ∧ OnlyRegs [(.IST_TASK_COUNT, k.val)] s t ∧
      t.get F.IST_TASK_COUNT_PREEMPTIONS k.val = min (s.get F.IST_TASK_COUNT_PREEMPTIONS k.val + 1) 0xFFFF ∧
      t.get F.IST_TASK_COUNT_PASSES k.val = s.get F.IST_TASK_COUNT_PASSES k.val) ∧
  (∀ (k : Fin 6) (d : Nat) (s : State), (k.val = 1 ∨ k.val = 5) → s.firmware = true → s.istMode = true → s.istOn k.val = true →
    ∃ t, exec (.istSlice k d false false true) s = .next t ∧
      t.get F.IST_TASK_COUNT_FAILURES k.val = min (s.get F.IST_TASK_COUNT_FAILURES k.val + 1) 0xFFFF ∧
      (∃ a, t.mgmt.raised = s.mgmt.raised ++ [a] ∧ a.code = 0x38 ∧ bits a.data 0 8 = k.val)) ∧
  (∀ (d : Nat) (f : Bool) (s : State), s.firmware = true → s.istMode = true → s.istOn 4 = true →
    ∃ t, exec (.istSlice 4 d false true f) s = .next t ∧ OnlyRegs [(.IST_TASK_COUNT, 4)] s t ∧
      t.get F.IST_TASK_COUNT_PASSES 4 = (s.get F.IST_TASK_COUNT_PASSES 4 + 1) % 2 ^ 32) ∧
  (∀ s : State, s.firmware = true → s.istMode = true → s.isOn F.FEN_SCRUB_ENABLE = true →
    ∃ t, exec .fenScrubPass s = .next t ∧ OnlyRegs [(.FEN_SCRUB_COUNT, 0), (.IST_TASK_COUNT, 0)] s t ∧
      t.get F.FEN_SCRUB_COUNT_PASSES = (s.get F.FEN_SCRUB_COUNT_PASSES + 1) % 2 ^ 32) ∧
  (∀ (x y : List Bool) (s : State),
    (∃ t, exec .jtagBypass s = .next t ∧ t.mgmt.jtag = { s.mgmt.jtag with ir := 0, drive := .system } ∧
      { t with mgmt := { t.mgmt with jtag := s.mgmt.jtag }, sent := s.sent } = s) ∧
    (∃ t, exec .jtagIdcode s = .next t ∧ t.mgmt.jtag.drive = .system ∧ t.sent = s.sent ++ [.jtag 1 0x20F166FD] ∧
      { t with mgmt := { t.mgmt with jtag := s.mgmt.jtag }, sent := s.sent } = s) ∧
    (∃ t, exec (.jtagSamplePreload x y) s = .next t ∧ t.mgmt.jtag.captured = x ∧ t.mgmt.jtag.boundary = y ∧
      t.mgmt.jtag.drive = .system ∧ { t with mgmt := { t.mgmt with jtag := s.mgmt.jtag }, sent := s.sent } = s) ∧
    (∃ t, exec (.jtagExtest x) s = .next t ∧ t.mgmt.jtag.captured = x ∧ t.mgmt.jtag.boundary = s.mgmt.jtag.boundary ∧
      t.mgmt.jtag.drive = .boundary ∧ { t with mgmt := { t.mgmt with jtag := s.mgmt.jtag }, sent := s.sent } = s) ∧
    (∃ t, exec .jtagClamp s = .next t ∧ t.mgmt.jtag.boundary = s.mgmt.jtag.boundary ∧ t.mgmt.jtag.drive = .boundary ∧
      { t with mgmt := { t.mgmt with jtag := s.mgmt.jtag }, sent := s.sent } = s) ∧
    (∃ t, exec .jtagHighz s = .next t ∧ t.mgmt.jtag.drive = .highz ∧
      { t with mgmt := { t.mgmt with jtag := s.mgmt.jtag }, sent := s.sent } = s) ∧
    (∃ t, exec (.jtagExtestPulse x) s = .next t ∧ t.mgmt.jtag.captured = x ∧ t.mgmt.jtag.drive = .boundary ∧
      { t with mgmt := { t.mgmt with jtag := s.mgmt.jtag }, sent := s.sent } = s) ∧
    (∃ t, exec (.jtagExtestTrain x) s = .next t ∧ t.mgmt.jtag.captured = x ∧ t.mgmt.jtag.drive = .boundary ∧
      { t with mgmt := { t.mgmt with jtag := s.mgmt.jtag }, sent := s.sent } = s))

/-- Flash operations act with KEY 0x464C and fuse operations with KEY 0x5345, under their refusals, and each ends with its
result. Rests on 17_management.md, Fuses, keys and images (R746, Table 17.7), 17_management.md, PF1 registers (R753),
18_address_map.md, R764. -/
def Obligations.FlashAndFusesChangeOnlyByTheirCommands : Prop :=
  (∀ (v : Word) (s : State), bits v 16 16 = 0x464C → s.flashLive = true → s.mgmt.flashOp = .none →
    (s.get F.FLASH_ADDR_ADDR % 4096 = 0 →
      ∃ t, exec (.flashRead v) s = .next t ∧ t.mgmt.flashOp = .flash 1 ∧ t.get F.FLASH_STATUS_RESULT = 1 ∧
        (∀ k, k < 4096 → Tab.get (0 : Byte) t.mgmt.flashBuf k = s.boot.byte (s.get F.FLASH_ADDR_ADDR + k)) ∧ t.boot = s.boot) ∧
    (s.get F.FLASH_ADDR_ADDR % 65536 = 0 → s.inRunningSlot (s.get F.FLASH_ADDR_ADDR) = false →
      ∃ t, exec (.flashErase v) s = .next t ∧ t.mgmt.flashOp = .flash 2 ∧ t.fuses = s.fuses ∧
        (∀ a, t.boot.byte a = if s.get F.FLASH_ADDR_ADDR ≤ a ∧ a < s.get F.FLASH_ADDR_ADDR + 65536 then 0xFF else s.boot.byte a)) ∧
    (s.get F.FLASH_ADDR_ADDR % 4096 = 0 → s.inRunningSlot (s.get F.FLASH_ADDR_ADDR) = false →
      ∃ t, exec (.flashProgram v) s = .next t ∧ t.mgmt.flashOp = .flash 3 ∧ t.fuses = s.fuses ∧
        (∀ a, t.boot.byte a = if s.get F.FLASH_ADDR_ADDR ≤ a ∧ a < s.get F.FLASH_ADDR_ADDR + 4096 then
          Tab.get (0 : Byte) s.mgmt.flashBuf (a - s.get F.FLASH_ADDR_ADDR) else s.boot.byte a)) ∧
    (s.inRunningSlot (s.get F.FLASH_ADDR_ADDR) = true → s.get F.FLASH_ADDR_ADDR % 65536 = 0 →
      ∀ c, (c = .flashErase v ∨ c = .flashProgram v) →
        ∃ t, exec c s = .next t ∧ t.get F.FLASH_STATUS_RESULT = 4 ∧ t.boot = s.boot ∧ t.mgmt = s.mgmt) ∧
    (∀ re, ∃ t, exec (.flashVerify v re) s = .next t ∧ t.mgmt.flashOp = .flash 4 ∧ t.boot = s.boot ∧
      t.get F.FLASH_STATUS_VERIFY_RESULT = s.checkImage (s.get F.FLASH_ADDR_ADDR / 2 ^ 25 % 2) re)) ∧
  (∀ (v : Word) (s : State), bits v 16 16 ≠ 0x464C → ∀ c, (c = .flashRead v ∨ c = .flashErase v ∨ c = .flashProgram v ∨ c = .flashVerify v true) →
    ∃ t, exec c s = .next t ∧ OnlyRegs [(.FLASH_CTRL, 0)] s t) ∧
  (∀ (v : Word) (s : State), bits v 16 16 = 0x5345 → s.flashLive = true → s.mgmt.flashOp = .none →
    (s.isOn F.DEV_STATUS_BOOT_DOWNGRADE = false →
      ∃ t, exec (.secConfirm v) s = .next t ∧ t.mgmt.flashOp = .sec 1 ∧ s.fuses.rollback ≤ t.fuses.rollback ∧
        t.fuses = { s.fuses with rollback := max s.fuses.rollback (if s.boot.running.isSome then s.boot.runLevel else 0) }) ∧
    (∀ k, bits v 5 3 = k → k < 4 → s.fuses.keys[k]? = some [] →
      ∃ t, exec (.secProgramKey v) s = .next t ∧ t.mgmt.flashOp = .sec 2 ∧ t.fuses.revoked = s.fuses.revoked ∧
        t.fuses.keys[k]? = some ((List.range 48).map fun j => Tab.get (0 : Byte) s.mgmt.flashBuf j) ∧
        (∀ j, j ≠ k → t.fuses.keys[j]? = s.fuses.keys[j]?)) ∧
    (∀ k, bits v 5 3 = k → k < 4 → ¬ (s.boot.running.isSome = true ∧ s.boot.runKey = k) → s.fuses.otherKey k = true →
      ∃ t, exec (.secRevoke v) s = .next t ∧ t.mgmt.flashOp = .sec 3 ∧ t.fuses.keys = s.fuses.keys ∧
        t.fuses.revoked = s.fuses.revoked.set k true)) ∧
  (∀ (v : Word) (s : State), bits v 16 16 ≠ 0x5345 → ∀ c, (c = .secConfirm v ∨ c = .secProgramKey v ∨ c = .secRevoke v) →
    ∃ t, exec c s = .next t ∧ OnlyRegs [(.SEC_CMD, 0)] s t) ∧
  (∀ (ok : Bool) (op : Nat) (s : State), s.mgmt.flashOp = .flash op →
    ∃ t, exec (.flashOpComplete ok) s = .next t ∧ t.mgmt.flashOp = .none ∧ t.get F.FLASH_CTRL_GO = 0 ∧
      t.get F.FLASH_STATUS_RESULT = (if ok then 2 else 5) ∧ t.boot = s.boot) ∧
  (∀ (ok : Bool) (op : Nat) (s : State), s.mgmt.flashOp = .sec op →
    ∃ t, exec (.secOpComplete ok) s = .next t ∧ t.mgmt.flashOp = .none ∧ t.get F.SEC_CMD_GO = 0 ∧
      t.get F.SEC_STATUS_RESULT = (if ok then 2 else 5) ∧ t.fuses = s.fuses) ∧
  (∀ (v : Word) (s : State), ∃ t, exec (.mgmtDbWindowWrite v) s = .next t ∧ OnlyRegs [(.MGMT_DB_WINDOW, 0)] s t ∧
    t.get F.MGMT_DB_WINDOW_WINDOW = bits v 0 6)

/-- A step is the front command's effect on the state with the queue's rest; the idle cycle of an empty queue is log entry 3's
choice. Rests on 00_scope.md, Scope, 95_what_each_step_holds.md, What each step holds. -/
def Obligations.AStepRunsTheFrontCommand : Prop :=
  (∀ (c : Instr) (rest : List Instr) (s : State), s.pending = c :: rest → step s = exec c { s with pending := rest }) ∧
  (∀ s : State, s.pending = [] → ∃ t, step s = .next t ∧ t.pending = [] ∧ (s.power.vddAon = false → t = s) ∧ t.fen = s.fen ∧
    t.troughs = s.troughs ∧ t.sent = s.sent)

/-- After reset the mode is RESET, the queue is empty, every register reads its Reset column and the stores are canonical. Rests
on 02_modes_and_startup.md, Resets (Table 2.14), 00_scope.md, Reading tables, 16_pairing.md, Table 16.7, 15_host_endpoint.md,
Table 15.18. -/
def Obligations.ResetIsCanonicalAndHoldsTheResetColumns : Prop :=
  State.reset.ctl.mode = .reset ∧ State.reset.pending = [] ∧ State.reset.Canonical ∧ (∀ r i, State.reset.rd r i = r.rst i) ∧
  State.reset.get F.PAIR_CFG_PRIORITY = 0x80 ∧ State.reset.get F.HOST_CPL_TIMEOUT_TIMEOUT_US = 50000 ∧
  State.reset.isOn F.SLUICE_CFG_RELAXED_EN = true ∧ State.reset.get F.HOST_PM_CFG_L1_IDLE = 10 ∧
  State.reset.get F.DEV_MODE_REQ_TARGET 0 = 4 ∧ State.reset.get F.DEV_MODE_REQ_TARGET 1 = 4

/-- Every step keeps the fen, its check states and the register file in canonical form, so equal contents are equal data. Rests
on 08_fen_and_troughs.md, Address space and segments (R346 to R354), 00_scope.md, Registers (R6 to R13),
02_modes_and_startup.md, Resets (Table 2.14). -/
def Obligations.EveryStepKeepsTheStoresCanonical : Prop :=
  ∀ s t : State, s.Canonical → step s = .next t → t.Canonical

/-- Every Bertor instruction the manual allows decodes from its encoding, and every word that decodes is the encoding of what it
decodes to. Rests on 10_bertor_core.md, Tables 10.2 to 10.11 (R472, R473), 11_bertor_acquisition.md, Tables 11.2 to 11.8
(R505). -/
def Obligations.BertorDecodingAndEncodingAgree : Prop :=
  (∀ i : BInstr, i.ok = true → decodeBertor (encodeWord i) (encodeExt i) = some i) ∧
  (∀ (w e : BitVec 32) (i : BInstr), decodeBertor w e = some i →
    i.ok = true ∧ encodeWord i = w ∧ (i.len = 2 → encodeExt i = e))
end

