-- ==== Sys2Proof/Laws/Coding.lean ====
section
/-! SUPPORT. The descrambler undoes the scrambler, and the receiver's sum undoes the precoder (R96, R100). -/

namespace Sys2Proof.Machine

/-- Both ends starting alike, the descrambler gives the bits back, and both ends end alike. -/
theorem descramble_scramble (l : List Bool) (st : BitVec 58) :
    (descramble (scramble l st).1 st).1 = l ∧ (descramble (scramble l st).1 st).2 = (scramble l st).2 := by
  induction l generalizing st with
  | nil => exact ⟨rfl, rfl⟩
  | cons b l ih =>
    have hx : ∀ x y : Bool, ((((b != x) != y) != x) != y) = b := by cases b <;> decide
    simp only [scramble, descramble]
    exact ⟨by rw [hx, (ih _).1], (ih _).2⟩

/-- The precoder's values stay below 4, and the receiver gives the Gray values back. -/
theorem unprecode_precode (l : List Nat) (y : Nat) (hy : y < 4) (h : ∀ g ∈ l, g < 4) : unprecode y (precode y l) = l := by
  induction l generalizing y with
  | nil => rfl
  | cons g l ih =>
    have hg : g < 4 := h g List.mem_cons_self
    rw [precode, unprecode, ih _ (Nat.mod_lt _ (by omega)) (fun x hx => h x (List.mem_cons_of_mem _ hx))]
    congr 1
    omega

end Sys2Proof.Machine
end

