-- ==== Sys2Proof/Laws/Tab.lean ====
section
/-! SUPPORT. What the table operations do: a read after a write, the other keys left alone, and the canonical form kept. -/

namespace Sys2Proof

variable {α : Type}

theorem Tab.get_erase (d : α) (t : Tab α) (k j : Nat) :
    Tab.get d (Tab.erase k t) j = if j = k then d else Tab.get d t j := by
  induction t with
  | nil => simp [Tab.erase, Tab.get]
  | cons e t ih =>
    obtain ⟨i, v⟩ := e
    by_cases h : i = k
    · subst h; simp only [Tab.erase, if_true, ih, Tab.get]
      by_cases hj : j = i
      · simp [hj]
      · simp [hj, Ne.symm hj]
    · simp only [Tab.erase, if_neg h, Tab.get, ih]
      by_cases hi : i = j
      · subst hi; simp [h]
      · simp [hi]

theorem Tab.mem_erase {k : Nat} {t : Tab α} {e : Nat × α} (h : e ∈ Tab.erase k t) : e ∈ t ∧ e.1 ≠ k := by
  induction t with
  | nil => simp [Tab.erase] at h
  | cons a t ih =>
    obtain ⟨i, v⟩ := a
    by_cases hi : i = k
    · simp only [Tab.erase, if_pos hi] at h
      exact ⟨List.mem_cons_of_mem _ (ih h).1, (ih h).2⟩
    · simp only [Tab.erase, if_neg hi, List.mem_cons] at h
      rcases h with rfl | h
      · exact ⟨List.mem_cons_self, hi⟩
      · exact ⟨List.mem_cons_of_mem _ (ih h).1, (ih h).2⟩

theorem Tab.mem_insert {k : Nat} {v : α} {t : Tab α} {e : Nat × α} (h : e ∈ Tab.insert k v t) : e = (k, v) ∨ e ∈ t := by
  induction t with
  | nil => simpa [Tab.insert] using h
  | cons a t ih =>
    obtain ⟨i, w⟩ := a
    by_cases hi : k < i
    · simpa [Tab.insert, hi] using h
    · simp only [Tab.insert, if_neg hi, List.mem_cons] at h
      rcases h with rfl | h
      · simp
      · rcases ih h with h | h <;> simp [h]

theorem Tab.get_insert_of_not_mem (d : α) (t : Tab α) (k : Nat) (v : α) (hk : ∀ e ∈ t, e.1 ≠ k) (j : Nat) :
    Tab.get d (Tab.insert k v t) j = if j = k then v else Tab.get d t j := by
  induction t with
  | nil => by_cases h : j = k <;> simp [Tab.insert, Tab.get, h, Ne.symm]
  | cons e t ih =>
    obtain ⟨i, w⟩ := e
    have hi : i ≠ k := hk (i, w) List.mem_cons_self
    have ih' := ih (fun e he => hk e (List.mem_cons_of_mem _ he))
    by_cases hl : k < i
    · simp only [Tab.insert, if_pos hl, Tab.get]
      by_cases hj : j = k
      · simp [hj]
      · simp [hj, Ne.symm hj]
    · simp only [Tab.insert, if_neg hl, Tab.get, ih']
      by_cases hj : i = j
      · subst hj; simp [hi]
      · simp [hj]

/-- A read after a write: the written key gives the value, every other key what it gave before. -/
theorem Tab.get_set [DecidableEq α] (d : α) (t : Tab α) (k : Nat) (v : α) (j : Nat) :
    Tab.get d (Tab.set d t k v) j = if j = k then v else Tab.get d t j := by
  unfold Tab.set
  split
  · next h => subst h; exact Tab.get_erase _ _ _ _
  · rw [Tab.get_insert_of_not_mem _ _ _ _ (fun e he => (Tab.mem_erase he).2), Tab.get_erase]
    by_cases hj : j = k <;> simp [hj]

@[simp] theorem Tab.get_set_same [DecidableEq α] (d : α) (t : Tab α) (k : Nat) (v : α) :
    Tab.get d (Tab.set d t k v) k = v := by simp [Tab.get_set]

theorem Tab.get_erase_other (d : α) (t : Tab α) {k j : Nat} (h : j ≠ k) : Tab.get d (Tab.erase k t) j = Tab.get d t j := by
  rw [Tab.get_erase, if_neg h]

/-- A key beside the one written reads as before, whatever it defaults to. -/
theorem Tab.get_set_other [DecidableEq α] (d e : α) (t : Tab α) {k j : Nat} (v : α) (h : j ≠ k) :
    Tab.get e (Tab.set d t k v) j = Tab.get e t j := by
  unfold Tab.set
  split
  · exact Tab.get_erase_other _ _ h
  · rw [Tab.get_insert_of_not_mem _ _ _ _ (fun e he => (Tab.mem_erase he).2), if_neg h, Tab.get_erase_other _ _ h]

theorem Tab.pairwise_erase {t : Tab α} (k : Nat) (h : t.Pairwise (fun a b => a.1 < b.1)) :
    (Tab.erase k t).Pairwise (fun a b => a.1 < b.1) := by
  induction t with
  | nil => simp [Tab.erase]
  | cons a t ih =>
    obtain ⟨i, v⟩ := a
    rw [List.pairwise_cons] at h
    by_cases hi : i = k
    · simpa [Tab.erase, hi] using ih h.2
    · simp only [Tab.erase, if_neg hi, List.pairwise_cons]
      exact ⟨fun b hb => h.1 b (Tab.mem_erase hb).1, ih h.2⟩

theorem Tab.pairwise_insert {t : Tab α} (k : Nat) (v : α) (h : t.Pairwise (fun a b => a.1 < b.1))
    (hk : ∀ e ∈ t, e.1 ≠ k) : (Tab.insert k v t).Pairwise (fun a b => a.1 < b.1) := by
  induction t with
  | nil => simp [Tab.insert]
  | cons a t ih =>
    obtain ⟨i, w⟩ := a
    rw [List.pairwise_cons] at h
    by_cases hl : k < i
    · simp only [Tab.insert, if_pos hl, List.pairwise_cons, List.mem_cons]
      refine ⟨?_, h⟩
      rintro b (rfl | hb)
      · exact hl
      · exact Nat.lt_trans hl (h.1 b hb)
    · simp only [Tab.insert, if_neg hl, List.pairwise_cons]
      refine ⟨?_, ih h.2 (fun e he => hk e (List.mem_cons_of_mem _ he))⟩
      intro b hb
      rcases Tab.mem_insert hb with rfl | hb
      · exact Nat.lt_of_le_of_ne (Nat.le_of_not_lt hl) (hk (i, w) List.mem_cons_self)
      · exact h.1 b hb

/-- A write keeps the canonical form. -/
theorem Tab.wf_set [DecidableEq α] (d : α) {t : Tab α} (k : Nat) (v : α) (h : Tab.wf d t) :
    Tab.wf d (Tab.set d t k v) := by
  unfold Tab.set
  split
  · exact ⟨Tab.pairwise_erase k h.1, fun e he => h.2 e (Tab.mem_erase he).1⟩
  · next hv =>
    refine ⟨Tab.pairwise_insert k v (Tab.pairwise_erase k h.1) (fun e he => (Tab.mem_erase he).2), fun e he => ?_⟩
    rcases Tab.mem_insert he with rfl | he
    · exact hv
    · exact h.2 e (Tab.mem_erase he).1

/-- Erasing keeps the canonical form. -/
theorem Tab.wf_erase (d : α) {t : Tab α} (k : Nat) (h : Tab.wf d t) : Tab.wf d (Tab.erase k t) :=
  ⟨Tab.pairwise_erase k h.1, fun e he => h.2 e (Tab.mem_erase he).1⟩

theorem Tab.mem_drop {p : Nat → Bool} {t : Tab α} {e : Nat × α} (h : e ∈ Tab.drop p t) : e ∈ t := by
  induction t with
  | nil => simp [Tab.drop] at h
  | cons a t ih =>
    obtain ⟨i, v⟩ := a
    by_cases hp : p i = true
    · rw [Tab.drop, if_pos hp] at h; exact List.mem_cons_of_mem _ (ih h)
    · rw [Tab.drop, if_neg hp, List.mem_cons] at h
      rcases h with rfl | h
      · exact List.mem_cons_self
      · exact List.mem_cons_of_mem _ (ih h)

/-- Dropping keys keeps the canonical form. -/
theorem Tab.wf_drop (d : α) (p : Nat → Bool) {t : Tab α} (h : Tab.wf d t) : Tab.wf d (Tab.drop p t) := by
  refine ⟨?_, fun e he => h.2 e (Tab.mem_drop he)⟩
  have h1 := h.1
  clear h
  induction t with
  | nil => simp [Tab.drop]
  | cons a t ih =>
    obtain ⟨i, v⟩ := a
    rw [List.pairwise_cons] at h1
    by_cases hp : p i = true
    · rw [Tab.drop, if_pos hp]; exact ih h1.2
    · rw [Tab.drop, if_neg hp, List.pairwise_cons]
      exact ⟨fun b hb => h1.1 b (Tab.mem_drop hb), ih h1.2⟩

/-- What a key reads as after a drop. -/
theorem Tab.get_drop (d : α) (p : Nat → Bool) (t : Tab α) (j : Nat) :
    Tab.get d (Tab.drop p t) j = if p j then d else Tab.get d t j := by
  induction t with
  | nil => simp [Tab.drop, Tab.get]
  | cons a t ih =>
    obtain ⟨i, v⟩ := a
    by_cases hp : p i = true
    · simp only [Tab.drop, if_pos hp, ih, Tab.get]
      by_cases hj : i = j
      · subst hj; simp [hp]
      · simp [hj]
    · simp only [Tab.drop, if_neg hp, Tab.get, ih]
      by_cases hj : i = j
      · subst hj; simp [hp]
      · simp [hj]

/-- Storing bytes keeps the fen's canonical form. -/
theorem Machine.wf_storeBytes {m : List Host.Cell} (a : Nat) (bs : List Byte) (h : Machine.Memory.wf m) :
    Machine.Memory.wf (Machine.storeBytes m a bs) := by
  induction bs generalizing m a with
  | nil => exact h
  | cons b bs ih => exact ih (a + 1) (Tab.wf_set 0 a b h)

/-- A byte outside the stored range reads as before. -/
theorem Machine.get_storeBytes_other (m : List Host.Cell) (a : Nat) (bs : List Byte) (j : Nat)
    (h : j < a ∨ a + bs.length ≤ j) : Tab.get 0 (Machine.storeBytes m a bs) j = Tab.get 0 m j := by
  induction bs generalizing m a with
  | nil => rfl
  | cons b bs ih =>
    rw [Machine.storeBytes, ih _ _ (by simp only [List.length_cons] at h; omega),
      Tab.get_set_other _ _ _ _ (by simp only [List.length_cons] at h; omega)]

/-- A stored byte reads back. -/
theorem Machine.get_storeBytes_at (m : List Host.Cell) (a : Nat) (bs : List Byte) (k : Nat) (h : k < bs.length) :
    Tab.get 0 (Machine.storeBytes m a bs) (a + k) = bs[k] := by
  induction bs generalizing m a k with
  | nil => simp at h
  | cons b bs ih =>
    cases k with
    | zero =>
      rw [Machine.storeBytes, Machine.get_storeBytes_other _ _ _ _ (Or.inl (by omega))]
      simp
    | succ k =>
      have hk : k < bs.length := by simpa using h
      have := ih (Tab.set 0 m a b) (a + 1) k hk
      rw [Machine.storeBytes, show a + (k + 1) = a + 1 + k by omega, this]
      simp

end Sys2Proof
end

