-- ==== Sys2Proof/Laws/Regs.lean ====
section
/-! SUPPORT. What a read, a write and a field write of a register do: the value written, the other registers and the other fields
left alone. -/

namespace Sys2Proof

theorem bits_eq_extract (v : Word) (lo w : Nat) : bits v lo w = (v.extractLsb' lo w).toNat := by
  simp [bits, BitVec.extractLsb'_toNat]

theorem testBit_bits (v : Word) (lo w k : Nat) : (bits v lo w).testBit k = (decide (k < w) && v.getLsbD (lo + k)) := by
  rw [bits_eq_extract, BitVec.testBit_toNat, BitVec.getLsbD_extractLsb']

theorem getLsbD_fieldMask (lo w k : Nat) :
    (fieldMask lo w).getLsbD k = (decide (k < 64) && decide (lo ≤ k) && decide (k < lo + w)) := by
  unfold fieldMask
  rw [BitVec.getLsbD_ofNat, Nat.testBit_mul_two_pow, Nat.testBit_two_pow_sub_one]
  by_cases h1 : k < 64 <;> by_cases h2 : lo ≤ k <;> simp [h1, h2]
  omega

theorem getLsbD_setBits (v : Word) (lo w n k : Nat) :
    (setBits v lo w n).getLsbD k =
      (decide (k < 64) && if lo ≤ k ∧ k < lo + w then n.testBit (k - lo) else v.getLsbD k) := by
  unfold setBits
  rw [BitVec.getLsbD_or, BitVec.getLsbD_and, BitVec.getLsbD_not, getLsbD_fieldMask, BitVec.getLsbD_shiftLeft,
    BitVec.getLsbD_ofNat, Nat.testBit_mod_two_pow]
  by_cases h1 : k < 64
  · by_cases h2 : lo ≤ k
    · by_cases h3 : k < lo + w
      · have h4 : k - lo < w := by omega
        have h5 : k - lo < 64 := by omega
        simp [h1, h2, h3, h4, h5, Nat.not_lt.mpr h2]
      · have h4 : ¬ (k - lo < w) := by omega
        simp [h1, h2, h3, h4]
    · simp [h1, h2, Nat.lt_of_not_le h2]
  · simp [h1]

/-- A field written and read back: its low bits. -/
theorem bits_setBits_same (v : Word) (lo w n : Nat) (h : lo + w ≤ 64) : bits (setBits v lo w n) lo w = n % 2 ^ w := by
  apply Nat.eq_of_testBit_eq
  intro k
  rw [testBit_bits, getLsbD_setBits, Nat.testBit_mod_two_pow]
  by_cases hk : k < w
  · have h1 : lo + k < 64 := by omega
    have h2 : lo + k < lo + w := by omega
    simp [hk, h1]
  · simp [hk]

/-- A field beside the one written reads as before. -/
theorem bits_setBits_other (v : Word) (lo w n lo' w' : Nat) (h : lo' + w' ≤ lo ∨ lo + w ≤ lo') :
    bits (setBits v lo w n) lo' w' = bits v lo' w' := by
  apply Nat.eq_of_testBit_eq
  intro k
  rw [testBit_bits, testBit_bits, getLsbD_setBits]
  by_cases hk : k < w'
  · have h1 : ¬ (lo ≤ lo' + k ∧ lo' + k < lo + w) := by omega
    rw [if_neg h1]
    by_cases h2 : lo' + k < 64
    · simp [h2]
    · have : v.getLsbD (lo' + k) = false := BitVec.getLsbD_of_ge _ _ (by omega)
      simp [this]
  · simp [hk]

theorem bits_lt (v : Word) (lo w : Nat) : bits v lo w < 2 ^ w := Nat.mod_lt _ (by positivity)

namespace Machine

/-- Two registers, or two instances below 2^20, have two keys. -/
theorem regKey_inj {r q : Reg} {i j : Nat} (hi : i < 2 ^ 20) (hj : j < 2 ^ 20) (h : regKey r i = regKey q j) :
    r = q ∧ i = j := by
  unfold regKey at h
  have h1 : r.ctorIdx = q.ctorIdx := by omega
  have h2 : i = j := by omega
  exact ⟨by rw [← Reg.ofNat_ctorIdx r, ← Reg.ofNat_ctorIdx q, h1], h2⟩

theorem regKey_ne_of_inst {r : Reg} {i j : Nat} (h : j ≠ i) : regKey r j ≠ regKey r i := by
  unfold regKey; omega

@[simp] theorem rd_wr_same (s : State) (r : Reg) (i : Nat) (v : Word) : (s.wr r i v).rd r i = v := by
  simp [State.rd, State.wr]

theorem rd_wr_key (s : State) (r q : Reg) (i j : Nat) (v : Word) (h : regKey q j ≠ regKey r i) :
    (s.wr r i v).rd q j = s.rd q j := by
  simp [State.rd, State.wr, Tab.get_set_other _ _ _ _ h]

/-- Another register reads as before. -/
theorem rd_wr_reg (s : State) {r q : Reg} {i j : Nat} (v : Word) (h : q ≠ r) (hi : i < 2 ^ 20) (hj : j < 2 ^ 20) :
    (s.wr r i v).rd q j = s.rd q j :=
  rd_wr_key _ _ _ _ _ _ (fun e => h (regKey_inj hj hi e).1)

/-- Another instance of the register reads as before. -/
theorem rd_wr_inst (s : State) {r : Reg} {i j : Nat} (v : Word) (h : j ≠ i) : (s.wr r i v).rd r j = s.rd r j :=
  rd_wr_key _ _ _ _ _ _ (regKey_ne_of_inst h)

theorem rd_put_key (s : State) (f : Fld) (q : Reg) (i j n : Nat) (h : regKey q j ≠ regKey f.r i) :
    (s.put f i n).rd q j = s.rd q j := rd_wr_key _ _ _ _ _ _ h

theorem wr_onlyRegs (s : State) (r : Reg) (i : Nat) (v : Word) : OnlyRegs [(r, i)] s (s.wr r i v) :=
  ⟨rfl, fun q j h => rd_wr_key s r q i j v (h (r, i) List.mem_cons_self)⟩

theorem put_onlyRegs (s : State) (f : Fld) (i n : Nat) : OnlyRegs [(f.r, i)] s (s.put f i n) := wr_onlyRegs _ _ _ _

theorem RegsBut.refl (l : List (Reg × Nat)) (s : State) : RegsBut l s s := fun _ _ _ => rfl

theorem RegsBut.trans {l : List (Reg × Nat)} {s t u : State} (h : RegsBut l s t) (k : RegsBut l t u) : RegsBut l s u :=
  fun q j hp => (k q j hp).trans (h q j hp)

theorem RegsBut.wr {l : List (Reg × Nat)} {s t : State} (h : RegsBut l s t) {r : Reg} {i : Nat} (v : Word)
    (hm : (r, i) ∈ l) : RegsBut l s (t.wr r i v) :=
  fun q j hp => (rd_wr_key t r q i j v (hp (r, i) hm)).trans (h q j hp)

theorem RegsBut.put {l : List (Reg × Nat)} {s t : State} (h : RegsBut l s t) (f : Fld) {i : Nat} (n : Nat)
    (hm : (f.r, i) ∈ l) : RegsBut l s (t.put f i n) := RegsBut.wr h _ hm

theorem RegsBut.inc {l : List (Reg × Nat)} {s t : State} (h : RegsBut l s t) (f : Fld) {i : Nat}
    (hm : (f.r, i) ∈ l) : RegsBut l s (t.inc f i) := RegsBut.wr h _ hm

/-- The key of a register gives the register back. -/
theorem regOfKey_regKey (r : Reg) {i : Nat} (h : i < 2 ^ 20) : regOfKey (regKey r i) = some r := by
  have : regKey r i / 2 ^ 20 = r.ctorIdx := by unfold regKey; omega
  unfold regOfKey
  rw [this]
  cases r <;> rfl

/-- A field put and read back. -/
theorem get_put_same (s : State) (f : Fld) (i n : Nat) (h : f.lo + f.w ≤ 64) : (s.put f i n).get f i = n % 2 ^ f.w := by
  simp [State.get, State.put, bits_setBits_same _ _ _ _ h]

/-- A field of the same register beside the one put. -/
theorem get_put_beside (s : State) (f g : Fld) (i n : Nat) (hr : g.r = f.r) (h : g.lo + g.w ≤ f.lo ∨ f.lo + f.w ≤ g.lo) :
    (s.put f i n).get g i = s.get g i := by
  unfold State.get State.put
  rw [hr, rd_wr_same, bits_setBits_other _ _ _ _ _ _ h]

/-- A field of another register. -/
theorem get_put_reg (s : State) (f g : Fld) (i j n : Nat) (hr : g.r ≠ f.r) (hi : i < 2 ^ 20) (hj : j < 2 ^ 20) :
    (s.put f i n).get g j = s.get g j := by
  unfold State.get State.put
  rw [rd_wr_reg s _ hr hi hj]

/-- A field of another instance. -/
theorem get_put_inst (s : State) (f g : Fld) (i j n : Nat) (hr : g.r = f.r) (hj : j ≠ i) :
    (s.put f i n).get g j = s.get g j := by
  unfold State.get State.put
  rw [hr, rd_wr_inst s _ hj]

theorem get_lt (s : State) (f : Fld) (i : Nat) : s.get f i < 2 ^ f.w := bits_lt _ _ _

/-- A saturating counter after one more. -/
theorem get_inc_same (s : State) (f : Fld) (i : Nat) (h : f.lo + f.w ≤ 64) :
    (s.inc f i).get f i = min (s.get f i + 1) (2 ^ f.w - 1) := by
  unfold State.inc State.addSat
  rw [get_put_same _ _ _ _ h, satAdd, Nat.mod_eq_of_lt]
  have : 0 < 2 ^ f.w := by positivity
  omega

end Machine
end Sys2Proof
end

