-- ==== Sys2Proof/Laws/Crc.lean ====
section
/-! SUPPORT. The CRC-32C stays within 32 bits, and the CRC word of a tack-set copy lies outside what it covers (R152, R216). -/

namespace Sys2Proof.Machine

theorem crcReflStep_lt {poly : Nat} (hp : poly < 2 ^ 32) (n : Nat) {c : Nat} (h : c < 2 ^ 32) : crcReflStep poly n c < 2 ^ 32 := by
  induction n generalizing c with
  | zero => exact h
  | succ n ih =>
    unfold crcReflStep
    apply ih
    split
    · exact Nat.xor_lt_two_pow (by omega) hp
    · omega

theorem crc32cAux_lt (bs : List Byte) {c : Nat} (h : c < 2 ^ 32) : crc32cAux c bs < 2 ^ 32 := by
  induction bs generalizing c with
  | nil => exact h
  | cons b bs ih =>
    unfold crc32cAux
    exact ih (crcReflStep_lt (by decide) 8 (Nat.xor_lt_two_pow h (by have := b.isLt; omega)))

/-- A CRC-32C has 32 bits. -/
theorem crc32c_lt (bs : List Byte) : crc32c bs < 2 ^ 32 := Nat.xor_lt_two_pow (crc32cAux_lt bs (by decide)) (by decide)

/-- The word that holds a copy's CRC is not covered by it. -/
theorem copyBytes_set_crc (t : Tab Word) (v : Word) : copyBytes (Tab.set 0 t 127 v) = copyBytes t := by
  unfold copyBytes
  apply List.flatMap_congr
  intro k hk
  have : k ≠ 127 := by have := List.mem_range.mp hk; omega
  rw [Tab.get_set_other 0 0 t v this]

/-- The CRC field of a copy reads as written. -/
theorem cfield_set_crc (t : Tab Word) (n : Nat) (h : n < 2 ^ 32) : cfield (Tab.set 0 t 127 (word n)) 0x3F8 0 32 = n := by
  unfold cfield cword
  rw [show 0x3F8 / 8 = 127 from rfl, Tab.get_set_same]
  simp [bits, word]
  omega

/-- A word of a copy beside its CRC reads as before. -/
theorem cword_set_crc (t : Tab Word) (v : Word) (off : Nat) (h : off / 8 ≠ 127) : cword (Tab.set 0 t 127 v) off = cword t off :=
  Tab.get_set_other 0 0 t v h

theorem cRegions_set_crc (t : Tab Word) (v : Word) : cRegions (Tab.set 0 t 127 v) = cRegions t := by
  have k := cword_set_crc t v
  have h0 : cfield (Tab.set 0 t 127 v) 0x100 5 5 = cfield t 0x100 5 5 := by unfold cfield; rw [k _ (by decide)]
  have h1 : cWidth (Tab.set 0 t 127 v) = cWidth t := by unfold cWidth cfield; rw [k _ (by decide)]
  have h2 : cHeight (Tab.set 0 t 127 v) = cHeight t := by unfold cHeight cfield; rw [k _ (by decide)]
  unfold cRegions
  simp only [h0, h1, h2]
  split
  · rfl
  · apply List.map_congr_left
    intro r hr
    have hn : cfield t 0x100 5 5 < 32 := Nat.mod_lt _ (by decide)
    have hl := List.mem_range.mp hr
    have e1 := k (0x200 + 16 * r) (by omega)
    have e2 := k (0x208 + 16 * r) (by omega)
    simp only [cfield, cbit, e1, e2]

/-- The checks of a copy's other words do not depend on its CRC. -/
theorem copyFails_set_crc (s : State) (t : Tab Word) (v : Word) (off : Nat) (h : off / 8 ≠ 127) :
    s.copyFails (Tab.set 0 t 127 v) off = s.copyFails t off := by
  have k := cword_set_crc t v
  have e : ∀ o lo w, o < 1016 → cfield (Tab.set 0 t 127 v) o lo w = cfield t o lo w := fun o lo w ho => by
    unfold cfield; rw [k o (by omega)]
  have b : ∀ o i, o < 1016 → cbit (Tab.set 0 t 127 v) o i = cbit t o i := fun o i ho => by unfold cbit; rw [k o (by omega)]
  unfold State.copyFails cLargest cKeep cPack cEngine cPool cStackN cBypass cWidth cHeight cStall cChute cBay
  rw [cRegions_set_crc, k off h]
  simp (disch := decide) only [e, b]

/-- The CRC word of a copy passes its checks when only its low 32 bits are set. -/
theorem copyFails_crc_word (s : State) (t : Tab Word) (n : Nat) (h : n < 2 ^ 32) :
    s.copyFails (Tab.set 0 t 127 (word n)) 0x3F8 = false := by
  have hw : cword (Tab.set 0 t 127 (word n)) 0x3F8 = word n := by
    unfold cword
    rw [show 0x3F8 / 8 = 127 from rfl, Tab.get_set_same]
  have hm : word n &&& ~~~copyMask 0x3F8 = 0 := by
    have e : copyMask 0x3F8 = 0xFFFFFFFF#64 := by decide
    rw [e]
    apply BitVec.eq_of_getLsbD_eq
    intro i hi
    rcases Nat.lt_or_ge i 32 with h1 | h1
    · have : (~~~(0xFFFFFFFF#64)).getLsbD i = false := by
        revert h1; revert i; decide
      rw [BitVec.getLsbD_and, this, Bool.and_false]; exact (BitVec.getLsbD_zero).symm
    · have : (word n).getLsbD i = false := by
        simp only [word, BitVec.getLsbD_ofNat, Bool.and_eq_false_iff]
        right
        exact Nat.testBit_lt_two_pow (lt_of_lt_of_le h (Nat.pow_le_pow_right (by decide) h1))
      simp [this]
  unfold State.copyFails
  rw [hw, hm]
  simp

end Sys2Proof.Machine
end

