-- ==== Sys2Proof/Laws/Fen.lean ====
section
/-! SUPPORT. Every operation on the fen and on the register file keeps their canonical form, and a stored word reads back. -/

namespace Sys2Proof.Machine

variable {s : State}

/-- A state with the same three stores is canonical with the other. -/
theorem Canonical.congr {t : State} (h : s.Canonical) (hf : t.fen = s.fen) (hc : t.fenChk = s.fenChk) (hr : t.regs = s.regs) :
    t.Canonical := by
  unfold State.Canonical at *; rw [hf, hc, hr]; exact h

theorem Canonical.setChk (h : s.Canonical) {c : Tab Nat} (hc : Tab.wf 0 c) : ({ s with fenChk := c } : State).Canonical :=
  ⟨h.1, hc, h.2.2⟩

theorem Tab.pairwise_set {α : Type} [DecidableEq α] (d : α) {t : Tab α} (k : Nat) (v : α)
    (h : t.Pairwise (fun a b => a.1 < b.1)) : (Tab.set d t k v).Pairwise (fun a b => a.1 < b.1) := by
  unfold Tab.set
  split
  · exact Tab.pairwise_erase k h
  · exact Tab.pairwise_insert k v (Tab.pairwise_erase k h) (fun e he => (Tab.mem_erase he).2)

theorem Tab.pairwise_drop {α : Type} (p : Nat → Bool) {t : Tab α} (h : t.Pairwise (fun a b => a.1 < b.1)) :
    (Tab.drop p t).Pairwise (fun a b => a.1 < b.1) := by
  induction t with
  | nil => simp [Tab.drop]
  | cons a t ih =>
    obtain ⟨i, v⟩ := a
    rw [List.pairwise_cons] at h
    by_cases hp : p i = true
    · rw [Tab.drop, if_pos hp]; exact ih h.2
    · rw [Tab.drop, if_neg hp, List.pairwise_cons]
      exact ⟨fun b hb => h.1 b (Tab.mem_drop hb), ih h.2⟩

/-! ### Registers -/

theorem Canonical.wr (h : s.Canonical) (r : Reg) (i : Nat) (v : Word) : (s.wr r i v).Canonical :=
  ⟨h.1, h.2.1, Tab.pairwise_set _ _ _ h.2.2⟩

theorem Canonical.put (h : s.Canonical) (f : Fld) (i n : Nat) : (s.put f i n).Canonical := Canonical.wr h _ _ _

theorem Canonical.addSat (h : s.Canonical) (f : Fld) (i n : Nat) : (s.addSat f i n).Canonical := Canonical.wr h _ _ _

theorem Canonical.inc (h : s.Canonical) (f : Fld) (i : Nat) : (s.inc f i).Canonical := Canonical.wr h _ _ _

theorem Canonical.rst (h : s.Canonical) (r : Reg) (i : Nat) : (s.rst r i).Canonical := Canonical.wr h _ _ _

theorem Canonical.rstWhere (h : s.Canonical) (p : Reg → Bool) : (s.rstWhere p).Canonical :=
  ⟨h.1, h.2.1, Tab.pairwise_drop _ h.2.2⟩

theorem Canonical.resetRegs (h : s.Canonical) (k : ResetKind) : (s.resetRegs k).Canonical :=
  ⟨h.1, h.2.1, Tab.pairwise_drop _ h.2.2⟩

theorem Canonical.placeRequest (h : s.Canonical) (r : ModeReq) : (s.placeRequest r).Canonical := by
  unfold State.placeRequest
  dsimp only
  split
  · exact h
  · exact h

theorem Canonical.alarm (h : s.Canonical) (code : Nat) (data : Word) : (s.alarm code data).Canonical := by
  unfold State.alarm
  have h2 := Canonical.inc (Canonical.put h F.ALARM_STATUS_NEXT_SEQ 0 (s.get F.ALARM_STATUS_NEXT_SEQ + 1))
    ⟨.ALARM_SUMMARY, 16 * (code % 4), 16⟩ (code / 4)
  dsimp only
  split
  · apply Canonical.placeRequest
    exact Canonical.congr h2 rfl rfl rfl
  · exact Canonical.congr h2 rfl rfl rfl

theorem Canonical.fenUe (h : s.Canonical) (a : Nat) : (s.fenUe a).Canonical := by
  unfold State.fenUe
  have h1 := Canonical.inc h F.FEN_ECC_UE 0
  dsimp only
  split
  · exact Canonical.alarm h1 _ _
  · exact Canonical.alarm (Canonical.put (Canonical.put h1 _ _ _) _ _ _) _ _

/-! ### The fen -/

theorem Canonical.fenStore (h : s.Canonical) (a : Nat) (w : Word) (poison : Bool) : (s.fenStore a w poison).Canonical :=
  ⟨wf_storeBytes _ _ h.1, Tab.wf_set _ _ _ h.2.1, h.2.2⟩

theorem Canonical.fenMerge (h : s.Canonical) (a : Nat) (w : Word) (be : BitVec 8) (poison : Bool) :
    (s.fenMerge a w be poison).Canonical := by
  unfold State.fenMerge
  dsimp only
  split
  · exact Canonical.fenStore h _ _ _
  · split
    · exact Canonical.fenStore h _ _ _
    · exact Canonical.fenStore (Canonical.inc h _ _) _ _ _
    · exact Canonical.fenStore (Canonical.fenUe h _) _ _ _

theorem Canonical.engineRead (h : s.Canonical) (a : Nat) : (s.engineRead a).2.2.Canonical := by
  unfold State.engineRead
  split
  · exact Canonical.inc h _ _
  · split
    · exact h
    · exact Canonical.inc h _ _
    · exact Canonical.fenUe h _

theorem Canonical.engineReadWords (n a : Nat) (h : s.Canonical) : (State.engineReadWords n a s).2.2.Canonical := by
  induction n generalizing a s with
  | zero => exact h
  | succ n ih => exact ih (a + 8) (Canonical.engineRead h a)

theorem Canonical.engineWrite (h : s.Canonical) (a : Nat) (w : Word) (poison : Bool) : (s.engineWrite a w poison).Canonical := by
  unfold State.engineWrite
  split
  · exact Canonical.fenStore h _ _ _
  · exact Canonical.inc h _ _

theorem Canonical.engineWriteWords (h : s.Canonical) (a : Nat) (ws : List Word) : (s.engineWriteWords a ws).Canonical := by
  induction ws generalizing a s with
  | nil => exact h
  | cons w ws ih => exact ih (Canonical.engineWrite h a w false) (a + 8)

/-- One word's part of a byte write keeps the form. -/
theorem Canonical.mergeOr (h : s.Canonical) (a : Nat) (w : Word) (be : BitVec 8) (poison : Bool) :
    (if s.fenUsable a then s.fenMerge (a / 8 * 8) w be poison else s.inc F.FEN_SCRUB_COUNT_BAD_ADDR).Canonical := by
  split
  · exact Canonical.fenMerge h _ _ _ _
  · exact Canonical.inc h _ _

theorem Canonical.engineWriteBytes (fuel a : Nat) (bs : List Byte) (h : s.Canonical) :
    (State.engineWriteBytes fuel s a bs).Canonical := by
  induction fuel generalizing s a bs with
  | zero => exact h
  | succ fuel ih =>
    cases bs with
    | nil => exact h
    | cons b bs => exact ih _ _ (Canonical.mergeOr h _ _ _ _)

theorem Canonical.writeBytesAs (fuel a : Nat) (bs : List Byte) (poison : Bool) (h : s.Canonical) :
    (State.writeBytesAs fuel s a bs poison).Canonical := by
  induction fuel generalizing s a bs with
  | zero => exact h
  | succ fuel ih =>
    cases bs with
    | nil => exact h
    | cons b bs => exact ih _ _ (Canonical.mergeOr h _ _ _ _)

theorem Canonical.bar2Write (fuel a : Nat) (bs : List (Byte × Bool)) (ep : Bool) (h : s.Canonical) :
    (State.bar2Write fuel s a bs ep).Canonical := by
  induction fuel generalizing s a bs with
  | zero => exact h
  | succ fuel ih =>
    cases bs with
    | nil => exact h
    | cons b bs =>
      refine ih _ _ ?_
      split
      · exact h
      · exact Canonical.fenMerge h _ _ _ _

/-! ### Commands on the fen -/

theorem Canonical.fold_wr (h : s.Canonical) (r : Reg) (f : Nat → Word) (l : List Nat) :
    (l.foldl (fun a m => a.wr r m (f m)) s).Canonical := by
  induction l generalizing s with
  | nil => exact h
  | cons m l ih => exact ih (Canonical.wr h _ _ _)

/-- An APPLY of the segment map that completes drops whole segments, which keeps the form. -/
theorem execFenSegApplyComplete_canonical {t : State} (h : s.Canonical) (e : execFenSegApplyComplete s = .next t) :
    t.Canonical := by
  unfold execFenSegApplyComplete at e
  injection e with e
  subst e
  split
  · dsimp only
    refine Canonical.put (Canonical.put (Canonical.put (Canonical.fold_wr ?_ _ _ _) _ _ _) _ _ _) _ _ _
    exact ⟨Tab.wf_drop _ _ h.1, Tab.wf_drop _ _ h.2.1, h.2.2⟩
  · exact h

theorem execFenWordRead_canonical {t : State} (addr : Nat) (ecc : Ecc) (h : s.Canonical)
    (e : execFenWordRead addr ecc s = .next t) : t.Canonical := by
  unfold execFenWordRead at e
  injection e with e
  subst e
  dsimp only
  split
  · exact Canonical.inc h _ _
  · split
    · exact Canonical.setChk (Canonical.fenUe h (addr / 8 * 8)) (Tab.wf_set 0 (addr / 8 * 8 / 8) 2 h.2.1)
    · split
      · exact Canonical.congr (Canonical.inc h F.FEN_ECC_CORR 0) rfl rfl rfl
      · exact Canonical.engineRead h _
    · exact Canonical.engineRead h _

theorem execFenCorrectionWriteback_canonical {t : State} (addr : Nat) (written : Bool) (h : s.Canonical)
    (e : execFenCorrectionWriteback addr written s = .next t) : t.Canonical := by
  unfold execFenCorrectionWriteback at e
  injection e with e
  subst e
  dsimp only
  split
  · exact h
  · split
    · exact Canonical.congr h rfl rfl rfl
    · exact Canonical.fenStore h _ _ _

theorem execFenPartialWrite_canonical {t : State} (addr : Nat) (data : Word) (be : BitVec 8) (ecc : Ecc) (h : s.Canonical)
    (e : execFenPartialWrite addr data be ecc s = .next t) : t.Canonical := by
  unfold execFenPartialWrite at e
  injection e with e
  subst e
  dsimp only
  split
  · exact Canonical.inc h _ _
  · split
    · exact h
    · apply Canonical.fenMerge
      cases ecc
      · exact h
      · dsimp only
        split
        · exact h
        · exact Canonical.inc h _ _
      · dsimp only
        split
        · exact h
        · exact Canonical.setChk h (Tab.wf_set 0 (addr / 8 * 8 / 8) 2 h.2.1)

/-! ### A stored word -/

theorem length_bytesOfNat (n v : Nat) : (bytesOfNat n v).length = n := by
  induction n generalizing v with
  | zero => rfl
  | succ n ih => simp [bytesOfNat, ih]

/-- A byte outside the word stored reads as before. -/
theorem fenByte_fenStore_other (s : State) (a b : Nat) (w : Word) (poison : Bool) (h : b < a ∨ a + 8 ≤ b) :
    (s.fenStore a w poison).fenByte b = s.fenByte b :=
  get_storeBytes_other _ _ _ _ (by simpa [length_bytesOfNat] using h)

/-- The check state of the word stored, and of every other word. -/
theorem fenCheck_fenStore (s : State) (a b : Nat) (w : Word) (poison : Bool) :
    (s.fenStore a w poison).fenCheck b = if b / 8 = a / 8 then b2n poison else s.fenCheck b :=
  Tab.get_set _ _ _ _ _

/-- The word stored reads back. -/
theorem fenWord_fenStore_same (s : State) (a : Nat) (w : Word) (poison : Bool) : (s.fenStore a w poison).fenWord a = w := by
  have h : (s.fenStore a w poison).fenBytes a 8 = bytesOfNat 8 w.toNat := by
    apply List.ext_getElem
    · simp [State.fenBytes, length_bytesOfNat]
    · intro k h1 h2
      simp only [State.fenBytes, List.getElem_map, List.getElem_range]
      exact get_storeBytes_at _ _ _ _ h2
  unfold State.fenWord
  rw [h]
  apply BitVec.eq_of_toNat_eq
  have hb : ∀ n v, (wordOfBytes (bytesOfNat n v)).toNat = v % 256 ^ n % 2 ^ 64 := by
    intro n
    induction n with
    | zero => intro v; simp [bytesOfNat, wordOfBytes, Nat.mod_one]
    | succ n ih =>
      intro v
      rw [bytesOfNat, wordOfBytes]
      have e : (BitVec.zeroExtend 64 (BitVec.ofNat 8 v)).toNat = v % 256 := by
        simp; omega
      have d : ((BitVec.zeroExtend 64 (BitVec.ofNat 8 v)) ||| (wordOfBytes (bytesOfNat n (v / 256)) <<< 8)).toNat =
          v % 256 + (v / 256 % 256 ^ n * 256) % 2 ^ 64 := by
        rw [BitVec.toNat_or, BitVec.toNat_shiftLeft, e, ih, Nat.shiftLeft_eq]
        have hm : v / 256 % 256 ^ n % 2 ^ 64 * 2 ^ 8 % 2 ^ 64 = (v / 256 % 256 ^ n * 256) % 2 ^ 64 := by
          rw [show (2 : Nat) ^ 8 = 256 by rfl, Nat.mod_mul_mod]
        rw [hm]
        have hlt : v % 256 < 2 ^ 8 := by omega
        have hdvd : 2 ^ 8 ∣ v / 256 % 256 ^ n * 256 % 2 ^ 64 := by
          rw [Nat.dvd_iff_mod_eq_zero, Nat.mod_mod_of_dvd _ (by norm_num)]; simp
        obtain ⟨q, hq⟩ := hdvd
        rw [hq, Nat.or_comm, Nat.add_comm, Nat.two_pow_add_eq_or_of_lt hlt]
      have h1 : v % 256 ^ (n + 1) = v % 256 + 256 * (v / 256 % 256 ^ n) := by rw [Nat.pow_succ']; exact Nat.mod_mul
      rw [d, h1]
      omega
  rw [hb]
  have := w.isLt
  omega

end Sys2Proof.Machine
end

