-- ==== Sys2Proof/Laws/Ops.lean ====
section
/-! SUPPORT. What each shared operation can change, once each: the fields it may write, everything else being as before. -/

namespace Sys2Proof.Machine

variable (s : State)

/-! ### Time, outputs and free values -/

theorem reach_frame (t : Nat) : { s.reach t with tb := s.tb } = s := rfl

theorem reach_count (t : Nat) : (s.reach t).tb.count = max s.tb.count t := rfl

theorem emit_frame (o : Out) : { s.emit o with sent := s.sent } = s := rfl

theorem emit_sent (o : Out) : (s.emit o).sent = s.sent ++ [o] := rfl

theorem fresh_frame : { s.fresh.2 with frees := s.frees } = s := rfl

/-! ### Registers -/

theorem inc_frame (f : Fld) (i : Nat) : { s.inc f i with regs := s.regs } = s := rfl

theorem addSat_frame (f : Fld) (i n : Nat) : { s.addSat f i n with regs := s.regs } = s := rfl

theorem rstWhere_frame (p : Reg → Bool) : { s.rstWhere p with regs := s.regs } = s := rfl

/-- A register that `p` names reads its Reset column, every other register as before. -/
theorem rd_rstWhere (p : Reg → Bool) (r : Reg) {i : Nat} (h : i < 2 ^ 20) :
    (s.rstWhere p).rd r i = if p r then r.rst i else s.rd r i := by
  unfold State.rd State.rstWhere
  rw [Tab.get_drop, regOfKey_regKey r h]

/-! ### The yard -/

theorem raiseYard_frame (p t : Nat) : { s.raiseYard p t with regs := s.regs, yard := s.yard } = s := by
  unfold State.raiseYard
  split
  · rfl
  · split <;> rfl

/-- Where its crossing has room, a producer's event waits with its tick and no register changes. -/
theorem raiseYard_raised (p t : Nat) (he : prodExists p = true)
    (hr : (s.yard.raised.filter (fun e => e.id == p)).length < 2) :
    s.raiseYard p t = { s with yard := { s.yard with raised := s.yard.raised ++ [⟨p, t⟩] } } := by
  unfold State.raiseYard
  rw [if_neg (by simp [he]), if_neg]
  simp only [Bool.and_eq_true, decide_eq_true_eq]
  omega

/-! ### Messages, alarms and logs -/

theorem sendVector_frame (fn v : Nat) (c : MsgClass) : { s.sendVector fn v c with host := s.host } = s := by
  unfold State.sendVector
  split <;> rfl

theorem sendPf1_frame (v : Nat) : { s.sendPf1 v with host := s.host } = s := by
  unfold State.sendPf1
  split
  · exact sendVector_frame s _ _ _
  · rfl

theorem devIrq_frame (b : Nat) : { s.devIrq b with regs := s.regs, host := s.host } = s := by
  unfold State.devIrq State.sendVector
  dsimp only
  split
  · split <;> rfl
  · rfl

theorem placeRequest_frame (r : ModeReq) : { s.placeRequest r with ctl := s.ctl } = s := by
  unfold State.placeRequest
  dsimp only
  split <;> rfl

theorem alarm_frame (code : Nat) (data : Word) :
    { s.alarm code data with regs := s.regs, ctl := s.ctl, mgmt := s.mgmt } = s := by
  unfold State.alarm State.placeRequest
  dsimp only
  split
  · split <;> rfl
  · rfl

/-- An alarm raised waits with its sequence number and tick, and whether it is hold-causing. -/
theorem alarm_raised (code : Nat) (data : Word) :
    (s.alarm code data).mgmt.raised =
      s.mgmt.raised ++ [⟨code, data, s.get F.ALARM_STATUS_NEXT_SEQ, s.now, bit (s.rd .ALARM_CFG code) 0⟩] := by
  unfold State.alarm State.placeRequest
  dsimp only
  split
  · split <;> rfl
  · rfl

theorem fault_frame (code : Nat) (data : Word) : { s.fault code data with regs := s.regs, mgmt := s.mgmt } = s := rfl

theorem countEvent_frame (code : Nat) : { s.countEvent code with mgmt := s.mgmt } = s := rfl

/-! ### The fen -/

theorem fenStore_frame (a : Nat) (w : Word) (poison : Bool) :
    { s.fenStore a w poison with fen := s.fen, fenChk := s.fenChk, fenFix := s.fenFix } = s := rfl

theorem fenUe_frame (a : Nat) : { s.fenUe a with regs := s.regs, ctl := s.ctl, mgmt := s.mgmt } = s := by
  unfold State.fenUe State.alarm State.placeRequest
  dsimp only
  split <;> split <;> (first | rfl | (split <;> rfl))

theorem engineRead_frame (a : Nat) : { (s.engineRead a).2.2 with regs := s.regs, ctl := s.ctl, mgmt := s.mgmt } = s := by
  unfold State.engineRead
  split
  · rfl
  · split
    · rfl
    · rfl
    · exact fenUe_frame s a

theorem fenMerge_frame (a : Nat) (w : Word) (be : BitVec 8) (poison : Bool) :
    { s.fenMerge a w be poison with
      regs := s.regs, ctl := s.ctl, mgmt := s.mgmt, fen := s.fen, fenChk := s.fenChk, fenFix := s.fenFix } = s := by
  unfold State.fenMerge
  dsimp only
  split
  · rfl
  · split
    · rfl
    · rfl
    · exact congrArg (fun t : State => { t with fen := s.fen, fenChk := s.fenChk, fenFix := s.fenFix }) (fenUe_frame s a)

theorem engineWrite_frame (a : Nat) (w : Word) (poison : Bool) :
    { s.engineWrite a w poison with regs := s.regs, fen := s.fen, fenChk := s.fenChk, fenFix := s.fenFix } = s := by
  unfold State.engineWrite
  split <;> rfl

/-- An engine's write to usable storage: the word stored, clean or poisoned as told. -/
theorem engineWrite_usable (a : Nat) (w : Word) (poison : Bool) (h : s.fenUsable a = true) :
    s.engineWrite a w poison = s.fenStore (a / 8 * 8) w poison := by
  unfold State.engineWrite
  rw [if_pos h]

/-! ### Troughs -/

theorem setTrg_frame (t : Nat) (x : Trough) : { s.setTrg t x with troughs := s.troughs } = s := rfl

@[simp] theorem trg_setTrg_same (t : Nat) (x : Trough) : (s.setTrg t x).trg t = x := by
  simp [State.trg, State.setTrg]

theorem trg_setTrg_other (t u : Nat) (x : Trough) (h : u ≠ t) : (s.setTrg t x).trg u = s.trg u := by
  simp [State.trg, State.setTrg, Tab.get_set_other _ _ _ _ h]

/-- The head of a queue moves on: its queue alone changes. -/
theorem advance_frame (t n : Nat) : { s.advance t n with troughs := s.troughs } = s := rfl

end Sys2Proof.Machine
end

