-- ==== Sys2Proof/Laws/State.lean ====
section
/-! SUPPORT. For each update of the state, the fields it leaves alone. -/

namespace Sys2Proof.Machine

variable (s : State)

@[simp] theorem wr_pending (r : Reg) (i : Nat) (v : Word) : (s.wr r i v).pending = s.pending := rfl
@[simp] theorem wr_chans (r : Reg) (i : Nat) (v : Word) : (s.wr r i v).chans = s.chans := rfl
@[simp] theorem wr_ctl (r : Reg) (i : Nat) (v : Word) : (s.wr r i v).ctl = s.ctl := rfl
@[simp] theorem wr_power (r : Reg) (i : Nat) (v : Word) : (s.wr r i v).power = s.power := rfl
@[simp] theorem wr_ret (r : Reg) (i : Nat) (v : Word) : (s.wr r i v).ret = s.ret := rfl
@[simp] theorem wr_fuses (r : Reg) (i : Nat) (v : Word) : (s.wr r i v).fuses = s.fuses := rfl
@[simp] theorem wr_boot (r : Reg) (i : Nat) (v : Word) : (s.wr r i v).boot = s.boot := rfl
@[simp] theorem wr_fen (r : Reg) (i : Nat) (v : Word) : (s.wr r i v).fen = s.fen := rfl
@[simp] theorem wr_fenChk (r : Reg) (i : Nat) (v : Word) : (s.wr r i v).fenChk = s.fenChk := rfl
@[simp] theorem wr_fenFix (r : Reg) (i : Nat) (v : Word) : (s.wr r i v).fenFix = s.fenFix := rfl
@[simp] theorem wr_near (r : Reg) (i : Nat) (v : Word) : (s.wr r i v).near = s.near := rfl
@[simp] theorem wr_troughs (r : Reg) (i : Nat) (v : Word) : (s.wr r i v).troughs = s.troughs := rfl
@[simp] theorem wr_mirrorQ (r : Reg) (i : Nat) (v : Word) : (s.wr r i v).mirrorQ = s.mirrorQ := rfl
@[simp] theorem wr_outBits (r : Reg) (i : Nat) (v : Word) : (s.wr r i v).outBits = s.outBits := rfl
@[simp] theorem wr_yard (r : Reg) (i : Nat) (v : Word) : (s.wr r i v).yard = s.yard := rfl
@[simp] theorem wr_grooms (r : Reg) (i : Nat) (v : Word) : (s.wr r i v).grooms = s.grooms := rfl
@[simp] theorem wr_scratch (r : Reg) (i : Nat) (v : Word) : (s.wr r i v).scratch = s.scratch := rfl
@[simp] theorem wr_stalls (r : Reg) (i : Nat) (v : Word) : (s.wr r i v).stalls = s.stalls := rfl
@[simp] theorem wr_lanes (r : Reg) (i : Nat) (v : Word) : (s.wr r i v).lanes = s.lanes := rfl
@[simp] theorem wr_ctxs (r : Reg) (i : Nat) (v : Word) : (s.wr r i v).ctxs = s.ctxs := rfl
@[simp] theorem wr_baysServed (r : Reg) (i : Nat) (v : Word) : (s.wr r i v).baysServed = s.baysServed := rfl
@[simp] theorem wr_crib (r : Reg) (i : Nat) (v : Word) : (s.wr r i v).crib = s.crib := rfl
@[simp] theorem wr_cribLoad (r : Reg) (i : Nat) (v : Word) : (s.wr r i v).cribLoad = s.cribLoad := rfl
@[simp] theorem wr_paddock (r : Reg) (i : Nat) (v : Word) : (s.wr r i v).paddock = s.paddock := rfl
@[simp] theorem wr_padLoad (r : Reg) (i : Nat) (v : Word) : (s.wr r i v).padLoad = s.padLoad := rfl
@[simp] theorem wr_herds (r : Reg) (i : Nat) (v : Word) : (s.wr r i v).herds = s.herds := rfl
@[simp] theorem wr_adcs (r : Reg) (i : Nat) (v : Word) : (s.wr r i v).adcs = s.adcs := rfl
@[simp] theorem wr_vsts (r : Reg) (i : Nat) (v : Word) : (s.wr r i v).vsts = s.vsts := rfl
@[simp] theorem wr_rings (r : Reg) (i : Nat) (v : Word) : (s.wr r i v).rings = s.rings := rfl
@[simp] theorem wr_mirrors (r : Reg) (i : Nat) (v : Word) : (s.wr r i v).mirrors = s.mirrors := rfl
@[simp] theorem wr_pair (r : Reg) (i : Nat) (v : Word) : (s.wr r i v).pair = s.pair := rfl
@[simp] theorem wr_tb (r : Reg) (i : Nat) (v : Word) : (s.wr r i v).tb = s.tb := rfl
@[simp] theorem wr_outs (r : Reg) (i : Nat) (v : Word) : (s.wr r i v).outs = s.outs := rfl
@[simp] theorem wr_wpLists (r : Reg) (i : Nat) (v : Word) : (s.wr r i v).wpLists = s.wpLists := rfl
@[simp] theorem wr_wpMem (r : Reg) (i : Nat) (v : Word) : (s.wr r i v).wpMem = s.wpMem := rfl
@[simp] theorem wr_samples (r : Reg) (i : Nat) (v : Word) : (s.wr r i v).samples = s.samples := rfl
@[simp] theorem wr_fld (r : Reg) (i : Nat) (v : Word) : (s.wr r i v).fld = s.fld := rfl
@[simp] theorem wr_mgmt (r : Reg) (i : Nat) (v : Word) : (s.wr r i v).mgmt = s.mgmt := rfl
@[simp] theorem wr_host (r : Reg) (i : Nat) (v : Word) : (s.wr r i v).host = s.host := rfl
@[simp] theorem wr_sent (r : Reg) (i : Nat) (v : Word) : (s.wr r i v).sent = s.sent := rfl
@[simp] theorem wr_frees (r : Reg) (i : Nat) (v : Word) : (s.wr r i v).frees = s.frees := rfl

@[simp] theorem put_pending (f : Fld) (i n : Nat) : (s.put f i n).pending = s.pending := rfl
@[simp] theorem put_chans (f : Fld) (i n : Nat) : (s.put f i n).chans = s.chans := rfl
@[simp] theorem put_ctl (f : Fld) (i n : Nat) : (s.put f i n).ctl = s.ctl := rfl
@[simp] theorem put_power (f : Fld) (i n : Nat) : (s.put f i n).power = s.power := rfl
@[simp] theorem put_ret (f : Fld) (i n : Nat) : (s.put f i n).ret = s.ret := rfl
@[simp] theorem put_fuses (f : Fld) (i n : Nat) : (s.put f i n).fuses = s.fuses := rfl
@[simp] theorem put_boot (f : Fld) (i n : Nat) : (s.put f i n).boot = s.boot := rfl
@[simp] theorem put_fen (f : Fld) (i n : Nat) : (s.put f i n).fen = s.fen := rfl
@[simp] theorem put_fenChk (f : Fld) (i n : Nat) : (s.put f i n).fenChk = s.fenChk := rfl
@[simp] theorem put_fenFix (f : Fld) (i n : Nat) : (s.put f i n).fenFix = s.fenFix := rfl
@[simp] theorem put_near (f : Fld) (i n : Nat) : (s.put f i n).near = s.near := rfl
@[simp] theorem put_troughs (f : Fld) (i n : Nat) : (s.put f i n).troughs = s.troughs := rfl
@[simp] theorem put_mirrorQ (f : Fld) (i n : Nat) : (s.put f i n).mirrorQ = s.mirrorQ := rfl
@[simp] theorem put_outBits (f : Fld) (i n : Nat) : (s.put f i n).outBits = s.outBits := rfl
@[simp] theorem put_yard (f : Fld) (i n : Nat) : (s.put f i n).yard = s.yard := rfl
@[simp] theorem put_grooms (f : Fld) (i n : Nat) : (s.put f i n).grooms = s.grooms := rfl
@[simp] theorem put_scratch (f : Fld) (i n : Nat) : (s.put f i n).scratch = s.scratch := rfl
@[simp] theorem put_stalls (f : Fld) (i n : Nat) : (s.put f i n).stalls = s.stalls := rfl
@[simp] theorem put_lanes (f : Fld) (i n : Nat) : (s.put f i n).lanes = s.lanes := rfl
@[simp] theorem put_ctxs (f : Fld) (i n : Nat) : (s.put f i n).ctxs = s.ctxs := rfl
@[simp] theorem put_baysServed (f : Fld) (i n : Nat) : (s.put f i n).baysServed = s.baysServed := rfl
@[simp] theorem put_crib (f : Fld) (i n : Nat) : (s.put f i n).crib = s.crib := rfl
@[simp] theorem put_cribLoad (f : Fld) (i n : Nat) : (s.put f i n).cribLoad = s.cribLoad := rfl
@[simp] theorem put_paddock (f : Fld) (i n : Nat) : (s.put f i n).paddock = s.paddock := rfl
@[simp] theorem put_padLoad (f : Fld) (i n : Nat) : (s.put f i n).padLoad = s.padLoad := rfl
@[simp] theorem put_herds (f : Fld) (i n : Nat) : (s.put f i n).herds = s.herds := rfl
@[simp] theorem put_adcs (f : Fld) (i n : Nat) : (s.put f i n).adcs = s.adcs := rfl
@[simp] theorem put_vsts (f : Fld) (i n : Nat) : (s.put f i n).vsts = s.vsts := rfl
@[simp] theorem put_rings (f : Fld) (i n : Nat) : (s.put f i n).rings = s.rings := rfl
@[simp] theorem put_mirrors (f : Fld) (i n : Nat) : (s.put f i n).mirrors = s.mirrors := rfl
@[simp] theorem put_pair (f : Fld) (i n : Nat) : (s.put f i n).pair = s.pair := rfl
@[simp] theorem put_tb (f : Fld) (i n : Nat) : (s.put f i n).tb = s.tb := rfl
@[simp] theorem put_outs (f : Fld) (i n : Nat) : (s.put f i n).outs = s.outs := rfl
@[simp] theorem put_wpLists (f : Fld) (i n : Nat) : (s.put f i n).wpLists = s.wpLists := rfl
@[simp] theorem put_wpMem (f : Fld) (i n : Nat) : (s.put f i n).wpMem = s.wpMem := rfl
@[simp] theorem put_samples (f : Fld) (i n : Nat) : (s.put f i n).samples = s.samples := rfl
@[simp] theorem put_fld (f : Fld) (i n : Nat) : (s.put f i n).fld = s.fld := rfl
@[simp] theorem put_mgmt (f : Fld) (i n : Nat) : (s.put f i n).mgmt = s.mgmt := rfl
@[simp] theorem put_host (f : Fld) (i n : Nat) : (s.put f i n).host = s.host := rfl
@[simp] theorem put_sent (f : Fld) (i n : Nat) : (s.put f i n).sent = s.sent := rfl
@[simp] theorem put_frees (f : Fld) (i n : Nat) : (s.put f i n).frees = s.frees := rfl

@[simp] theorem inc_pending (f : Fld) (i : Nat) : (s.inc f i).pending = s.pending := rfl
@[simp] theorem inc_chans (f : Fld) (i : Nat) : (s.inc f i).chans = s.chans := rfl
@[simp] theorem inc_ctl (f : Fld) (i : Nat) : (s.inc f i).ctl = s.ctl := rfl
@[simp] theorem inc_power (f : Fld) (i : Nat) : (s.inc f i).power = s.power := rfl
@[simp] theorem inc_ret (f : Fld) (i : Nat) : (s.inc f i).ret = s.ret := rfl
@[simp] theorem inc_fuses (f : Fld) (i : Nat) : (s.inc f i).fuses = s.fuses := rfl
@[simp] theorem inc_boot (f : Fld) (i : Nat) : (s.inc f i).boot = s.boot := rfl
@[simp] theorem inc_fen (f : Fld) (i : Nat) : (s.inc f i).fen = s.fen := rfl
@[simp] theorem inc_fenChk (f : Fld) (i : Nat) : (s.inc f i).fenChk = s.fenChk := rfl
@[simp] theorem inc_fenFix (f : Fld) (i : Nat) : (s.inc f i).fenFix = s.fenFix := rfl
@[simp] theorem inc_near (f : Fld) (i : Nat) : (s.inc f i).near = s.near := rfl
@[simp] theorem inc_troughs (f : Fld) (i : Nat) : (s.inc f i).troughs = s.troughs := rfl
@[simp] theorem inc_mirrorQ (f : Fld) (i : Nat) : (s.inc f i).mirrorQ = s.mirrorQ := rfl
@[simp] theorem inc_outBits (f : Fld) (i : Nat) : (s.inc f i).outBits = s.outBits := rfl
@[simp] theorem inc_yard (f : Fld) (i : Nat) : (s.inc f i).yard = s.yard := rfl
@[simp] theorem inc_grooms (f : Fld) (i : Nat) : (s.inc f i).grooms = s.grooms := rfl
@[simp] theorem inc_scratch (f : Fld) (i : Nat) : (s.inc f i).scratch = s.scratch := rfl
@[simp] theorem inc_stalls (f : Fld) (i : Nat) : (s.inc f i).stalls = s.stalls := rfl
@[simp] theorem inc_lanes (f : Fld) (i : Nat) : (s.inc f i).lanes = s.lanes := rfl
@[simp] theorem inc_ctxs (f : Fld) (i : Nat) : (s.inc f i).ctxs = s.ctxs := rfl
@[simp] theorem inc_baysServed (f : Fld) (i : Nat) : (s.inc f i).baysServed = s.baysServed := rfl
@[simp] theorem inc_crib (f : Fld) (i : Nat) : (s.inc f i).crib = s.crib := rfl
@[simp] theorem inc_cribLoad (f : Fld) (i : Nat) : (s.inc f i).cribLoad = s.cribLoad := rfl
@[simp] theorem inc_paddock (f : Fld) (i : Nat) : (s.inc f i).paddock = s.paddock := rfl
@[simp] theorem inc_padLoad (f : Fld) (i : Nat) : (s.inc f i).padLoad = s.padLoad := rfl
@[simp] theorem inc_herds (f : Fld) (i : Nat) : (s.inc f i).herds = s.herds := rfl
@[simp] theorem inc_adcs (f : Fld) (i : Nat) : (s.inc f i).adcs = s.adcs := rfl
@[simp] theorem inc_vsts (f : Fld) (i : Nat) : (s.inc f i).vsts = s.vsts := rfl
@[simp] theorem inc_rings (f : Fld) (i : Nat) : (s.inc f i).rings = s.rings := rfl
@[simp] theorem inc_mirrors (f : Fld) (i : Nat) : (s.inc f i).mirrors = s.mirrors := rfl
@[simp] theorem inc_pair (f : Fld) (i : Nat) : (s.inc f i).pair = s.pair := rfl
@[simp] theorem inc_tb (f : Fld) (i : Nat) : (s.inc f i).tb = s.tb := rfl
@[simp] theorem inc_outs (f : Fld) (i : Nat) : (s.inc f i).outs = s.outs := rfl
@[simp] theorem inc_wpLists (f : Fld) (i : Nat) : (s.inc f i).wpLists = s.wpLists := rfl
@[simp] theorem inc_wpMem (f : Fld) (i : Nat) : (s.inc f i).wpMem = s.wpMem := rfl
@[simp] theorem inc_samples (f : Fld) (i : Nat) : (s.inc f i).samples = s.samples := rfl
@[simp] theorem inc_fld (f : Fld) (i : Nat) : (s.inc f i).fld = s.fld := rfl
@[simp] theorem inc_mgmt (f : Fld) (i : Nat) : (s.inc f i).mgmt = s.mgmt := rfl
@[simp] theorem inc_host (f : Fld) (i : Nat) : (s.inc f i).host = s.host := rfl
@[simp] theorem inc_sent (f : Fld) (i : Nat) : (s.inc f i).sent = s.sent := rfl
@[simp] theorem inc_frees (f : Fld) (i : Nat) : (s.inc f i).frees = s.frees := rfl

@[simp] theorem addSat_pending (f : Fld) (i n : Nat) : (s.addSat f i n).pending = s.pending := rfl
@[simp] theorem addSat_chans (f : Fld) (i n : Nat) : (s.addSat f i n).chans = s.chans := rfl
@[simp] theorem addSat_ctl (f : Fld) (i n : Nat) : (s.addSat f i n).ctl = s.ctl := rfl
@[simp] theorem addSat_power (f : Fld) (i n : Nat) : (s.addSat f i n).power = s.power := rfl
@[simp] theorem addSat_ret (f : Fld) (i n : Nat) : (s.addSat f i n).ret = s.ret := rfl
@[simp] theorem addSat_fuses (f : Fld) (i n : Nat) : (s.addSat f i n).fuses = s.fuses := rfl
@[simp] theorem addSat_boot (f : Fld) (i n : Nat) : (s.addSat f i n).boot = s.boot := rfl
@[simp] theorem addSat_fen (f : Fld) (i n : Nat) : (s.addSat f i n).fen = s.fen := rfl
@[simp] theorem addSat_fenChk (f : Fld) (i n : Nat) : (s.addSat f i n).fenChk = s.fenChk := rfl
@[simp] theorem addSat_fenFix (f : Fld) (i n : Nat) : (s.addSat f i n).fenFix = s.fenFix := rfl
@[simp] theorem addSat_near (f : Fld) (i n : Nat) : (s.addSat f i n).near = s.near := rfl
@[simp] theorem addSat_troughs (f : Fld) (i n : Nat) : (s.addSat f i n).troughs = s.troughs := rfl
@[simp] theorem addSat_mirrorQ (f : Fld) (i n : Nat) : (s.addSat f i n).mirrorQ = s.mirrorQ := rfl
@[simp] theorem addSat_outBits (f : Fld) (i n : Nat) : (s.addSat f i n).outBits = s.outBits := rfl
@[simp] theorem addSat_yard (f : Fld) (i n : Nat) : (s.addSat f i n).yard = s.yard := rfl
@[simp] theorem addSat_grooms (f : Fld) (i n : Nat) : (s.addSat f i n).grooms = s.grooms := rfl
@[simp] theorem addSat_scratch (f : Fld) (i n : Nat) : (s.addSat f i n).scratch = s.scratch := rfl
@[simp] theorem addSat_stalls (f : Fld) (i n : Nat) : (s.addSat f i n).stalls = s.stalls := rfl
@[simp] theorem addSat_lanes (f : Fld) (i n : Nat) : (s.addSat f i n).lanes = s.lanes := rfl
@[simp] theorem addSat_ctxs (f : Fld) (i n : Nat) : (s.addSat f i n).ctxs = s.ctxs := rfl
@[simp] theorem addSat_baysServed (f : Fld) (i n : Nat) : (s.addSat f i n).baysServed = s.baysServed := rfl
@[simp] theorem addSat_crib (f : Fld) (i n : Nat) : (s.addSat f i n).crib = s.crib := rfl
@[simp] theorem addSat_cribLoad (f : Fld) (i n : Nat) : (s.addSat f i n).cribLoad = s.cribLoad := rfl
@[simp] theorem addSat_paddock (f : Fld) (i n : Nat) : (s.addSat f i n).paddock = s.paddock := rfl
@[simp] theorem addSat_padLoad (f : Fld) (i n : Nat) : (s.addSat f i n).padLoad = s.padLoad := rfl
@[simp] theorem addSat_herds (f : Fld) (i n : Nat) : (s.addSat f i n).herds = s.herds := rfl
@[simp] theorem addSat_adcs (f : Fld) (i n : Nat) : (s.addSat f i n).adcs = s.adcs := rfl
@[simp] theorem addSat_vsts (f : Fld) (i n : Nat) : (s.addSat f i n).vsts = s.vsts := rfl
@[simp] theorem addSat_rings (f : Fld) (i n : Nat) : (s.addSat f i n).rings = s.rings := rfl
@[simp] theorem addSat_mirrors (f : Fld) (i n : Nat) : (s.addSat f i n).mirrors = s.mirrors := rfl
@[simp] theorem addSat_pair (f : Fld) (i n : Nat) : (s.addSat f i n).pair = s.pair := rfl
@[simp] theorem addSat_tb (f : Fld) (i n : Nat) : (s.addSat f i n).tb = s.tb := rfl
@[simp] theorem addSat_outs (f : Fld) (i n : Nat) : (s.addSat f i n).outs = s.outs := rfl
@[simp] theorem addSat_wpLists (f : Fld) (i n : Nat) : (s.addSat f i n).wpLists = s.wpLists := rfl
@[simp] theorem addSat_wpMem (f : Fld) (i n : Nat) : (s.addSat f i n).wpMem = s.wpMem := rfl
@[simp] theorem addSat_samples (f : Fld) (i n : Nat) : (s.addSat f i n).samples = s.samples := rfl
@[simp] theorem addSat_fld (f : Fld) (i n : Nat) : (s.addSat f i n).fld = s.fld := rfl
@[simp] theorem addSat_mgmt (f : Fld) (i n : Nat) : (s.addSat f i n).mgmt = s.mgmt := rfl
@[simp] theorem addSat_host (f : Fld) (i n : Nat) : (s.addSat f i n).host = s.host := rfl
@[simp] theorem addSat_sent (f : Fld) (i n : Nat) : (s.addSat f i n).sent = s.sent := rfl
@[simp] theorem addSat_frees (f : Fld) (i n : Nat) : (s.addSat f i n).frees = s.frees := rfl

@[simp] theorem incWrap_pending (f : Fld) (i : Nat) : (s.incWrap f i).pending = s.pending := rfl
@[simp] theorem incWrap_chans (f : Fld) (i : Nat) : (s.incWrap f i).chans = s.chans := rfl
@[simp] theorem incWrap_ctl (f : Fld) (i : Nat) : (s.incWrap f i).ctl = s.ctl := rfl
@[simp] theorem incWrap_power (f : Fld) (i : Nat) : (s.incWrap f i).power = s.power := rfl
@[simp] theorem incWrap_ret (f : Fld) (i : Nat) : (s.incWrap f i).ret = s.ret := rfl
@[simp] theorem incWrap_fuses (f : Fld) (i : Nat) : (s.incWrap f i).fuses = s.fuses := rfl
@[simp] theorem incWrap_boot (f : Fld) (i : Nat) : (s.incWrap f i).boot = s.boot := rfl
@[simp] theorem incWrap_fen (f : Fld) (i : Nat) : (s.incWrap f i).fen = s.fen := rfl
@[simp] theorem incWrap_fenChk (f : Fld) (i : Nat) : (s.incWrap f i).fenChk = s.fenChk := rfl
@[simp] theorem incWrap_fenFix (f : Fld) (i : Nat) : (s.incWrap f i).fenFix = s.fenFix := rfl
@[simp] theorem incWrap_near (f : Fld) (i : Nat) : (s.incWrap f i).near = s.near := rfl
@[simp] theorem incWrap_troughs (f : Fld) (i : Nat) : (s.incWrap f i).troughs = s.troughs := rfl
@[simp] theorem incWrap_mirrorQ (f : Fld) (i : Nat) : (s.incWrap f i).mirrorQ = s.mirrorQ := rfl
@[simp] theorem incWrap_outBits (f : Fld) (i : Nat) : (s.incWrap f i).outBits = s.outBits := rfl
@[simp] theorem incWrap_yard (f : Fld) (i : Nat) : (s.incWrap f i).yard = s.yard := rfl
@[simp] theorem incWrap_grooms (f : Fld) (i : Nat) : (s.incWrap f i).grooms = s.grooms := rfl
@[simp] theorem incWrap_scratch (f : Fld) (i : Nat) : (s.incWrap f i).scratch = s.scratch := rfl
@[simp] theorem incWrap_stalls (f : Fld) (i : Nat) : (s.incWrap f i).stalls = s.stalls := rfl
@[simp] theorem incWrap_lanes (f : Fld) (i : Nat) : (s.incWrap f i).lanes = s.lanes := rfl
@[simp] theorem incWrap_ctxs (f : Fld) (i : Nat) : (s.incWrap f i).ctxs = s.ctxs := rfl
@[simp] theorem incWrap_baysServed (f : Fld) (i : Nat) : (s.incWrap f i).baysServed = s.baysServed := rfl
@[simp] theorem incWrap_crib (f : Fld) (i : Nat) : (s.incWrap f i).crib = s.crib := rfl
@[simp] theorem incWrap_cribLoad (f : Fld) (i : Nat) : (s.incWrap f i).cribLoad = s.cribLoad := rfl
@[simp] theorem incWrap_paddock (f : Fld) (i : Nat) : (s.incWrap f i).paddock = s.paddock := rfl
@[simp] theorem incWrap_padLoad (f : Fld) (i : Nat) : (s.incWrap f i).padLoad = s.padLoad := rfl
@[simp] theorem incWrap_herds (f : Fld) (i : Nat) : (s.incWrap f i).herds = s.herds := rfl
@[simp] theorem incWrap_adcs (f : Fld) (i : Nat) : (s.incWrap f i).adcs = s.adcs := rfl
@[simp] theorem incWrap_vsts (f : Fld) (i : Nat) : (s.incWrap f i).vsts = s.vsts := rfl
@[simp] theorem incWrap_rings (f : Fld) (i : Nat) : (s.incWrap f i).rings = s.rings := rfl
@[simp] theorem incWrap_mirrors (f : Fld) (i : Nat) : (s.incWrap f i).mirrors = s.mirrors := rfl
@[simp] theorem incWrap_pair (f : Fld) (i : Nat) : (s.incWrap f i).pair = s.pair := rfl
@[simp] theorem incWrap_tb (f : Fld) (i : Nat) : (s.incWrap f i).tb = s.tb := rfl
@[simp] theorem incWrap_outs (f : Fld) (i : Nat) : (s.incWrap f i).outs = s.outs := rfl
@[simp] theorem incWrap_wpLists (f : Fld) (i : Nat) : (s.incWrap f i).wpLists = s.wpLists := rfl
@[simp] theorem incWrap_wpMem (f : Fld) (i : Nat) : (s.incWrap f i).wpMem = s.wpMem := rfl
@[simp] theorem incWrap_samples (f : Fld) (i : Nat) : (s.incWrap f i).samples = s.samples := rfl
@[simp] theorem incWrap_fld (f : Fld) (i : Nat) : (s.incWrap f i).fld = s.fld := rfl
@[simp] theorem incWrap_mgmt (f : Fld) (i : Nat) : (s.incWrap f i).mgmt = s.mgmt := rfl
@[simp] theorem incWrap_host (f : Fld) (i : Nat) : (s.incWrap f i).host = s.host := rfl
@[simp] theorem incWrap_sent (f : Fld) (i : Nat) : (s.incWrap f i).sent = s.sent := rfl
@[simp] theorem incWrap_frees (f : Fld) (i : Nat) : (s.incWrap f i).frees = s.frees := rfl

@[simp] theorem rst_pending (r : Reg) (i : Nat) : (s.rst r i).pending = s.pending := rfl
@[simp] theorem rst_chans (r : Reg) (i : Nat) : (s.rst r i).chans = s.chans := rfl
@[simp] theorem rst_ctl (r : Reg) (i : Nat) : (s.rst r i).ctl = s.ctl := rfl
@[simp] theorem rst_power (r : Reg) (i : Nat) : (s.rst r i).power = s.power := rfl
@[simp] theorem rst_ret (r : Reg) (i : Nat) : (s.rst r i).ret = s.ret := rfl
@[simp] theorem rst_fuses (r : Reg) (i : Nat) : (s.rst r i).fuses = s.fuses := rfl
@[simp] theorem rst_boot (r : Reg) (i : Nat) : (s.rst r i).boot = s.boot := rfl
@[simp] theorem rst_fen (r : Reg) (i : Nat) : (s.rst r i).fen = s.fen := rfl
@[simp] theorem rst_fenChk (r : Reg) (i : Nat) : (s.rst r i).fenChk = s.fenChk := rfl
@[simp] theorem rst_fenFix (r : Reg) (i : Nat) : (s.rst r i).fenFix = s.fenFix := rfl
@[simp] theorem rst_near (r : Reg) (i : Nat) : (s.rst r i).near = s.near := rfl
@[simp] theorem rst_troughs (r : Reg) (i : Nat) : (s.rst r i).troughs = s.troughs := rfl
@[simp] theorem rst_mirrorQ (r : Reg) (i : Nat) : (s.rst r i).mirrorQ = s.mirrorQ := rfl
@[simp] theorem rst_outBits (r : Reg) (i : Nat) : (s.rst r i).outBits = s.outBits := rfl
@[simp] theorem rst_yard (r : Reg) (i : Nat) : (s.rst r i).yard = s.yard := rfl
@[simp] theorem rst_grooms (r : Reg) (i : Nat) : (s.rst r i).grooms = s.grooms := rfl
@[simp] theorem rst_scratch (r : Reg) (i : Nat) : (s.rst r i).scratch = s.scratch := rfl
@[simp] theorem rst_stalls (r : Reg) (i : Nat) : (s.rst r i).stalls = s.stalls := rfl
@[simp] theorem rst_lanes (r : Reg) (i : Nat) : (s.rst r i).lanes = s.lanes := rfl
@[simp] theorem rst_ctxs (r : Reg) (i : Nat) : (s.rst r i).ctxs = s.ctxs := rfl
@[simp] theorem rst_baysServed (r : Reg) (i : Nat) : (s.rst r i).baysServed = s.baysServed := rfl
@[simp] theorem rst_crib (r : Reg) (i : Nat) : (s.rst r i).crib = s.crib := rfl
@[simp] theorem rst_cribLoad (r : Reg) (i : Nat) : (s.rst r i).cribLoad = s.cribLoad := rfl
@[simp] theorem rst_paddock (r : Reg) (i : Nat) : (s.rst r i).paddock = s.paddock := rfl
@[simp] theorem rst_padLoad (r : Reg) (i : Nat) : (s.rst r i).padLoad = s.padLoad := rfl
@[simp] theorem rst_herds (r : Reg) (i : Nat) : (s.rst r i).herds = s.herds := rfl
@[simp] theorem rst_adcs (r : Reg) (i : Nat) : (s.rst r i).adcs = s.adcs := rfl
@[simp] theorem rst_vsts (r : Reg) (i : Nat) : (s.rst r i).vsts = s.vsts := rfl
@[simp] theorem rst_rings (r : Reg) (i : Nat) : (s.rst r i).rings = s.rings := rfl
@[simp] theorem rst_mirrors (r : Reg) (i : Nat) : (s.rst r i).mirrors = s.mirrors := rfl
@[simp] theorem rst_pair (r : Reg) (i : Nat) : (s.rst r i).pair = s.pair := rfl
@[simp] theorem rst_tb (r : Reg) (i : Nat) : (s.rst r i).tb = s.tb := rfl
@[simp] theorem rst_outs (r : Reg) (i : Nat) : (s.rst r i).outs = s.outs := rfl
@[simp] theorem rst_wpLists (r : Reg) (i : Nat) : (s.rst r i).wpLists = s.wpLists := rfl
@[simp] theorem rst_wpMem (r : Reg) (i : Nat) : (s.rst r i).wpMem = s.wpMem := rfl
@[simp] theorem rst_samples (r : Reg) (i : Nat) : (s.rst r i).samples = s.samples := rfl
@[simp] theorem rst_fld (r : Reg) (i : Nat) : (s.rst r i).fld = s.fld := rfl
@[simp] theorem rst_mgmt (r : Reg) (i : Nat) : (s.rst r i).mgmt = s.mgmt := rfl
@[simp] theorem rst_host (r : Reg) (i : Nat) : (s.rst r i).host = s.host := rfl
@[simp] theorem rst_sent (r : Reg) (i : Nat) : (s.rst r i).sent = s.sent := rfl
@[simp] theorem rst_frees (r : Reg) (i : Nat) : (s.rst r i).frees = s.frees := rfl

@[simp] theorem rstWhere_pending (p : Reg → Bool) : (s.rstWhere p).pending = s.pending := rfl
@[simp] theorem rstWhere_chans (p : Reg → Bool) : (s.rstWhere p).chans = s.chans := rfl
@[simp] theorem rstWhere_ctl (p : Reg → Bool) : (s.rstWhere p).ctl = s.ctl := rfl
@[simp] theorem rstWhere_power (p : Reg → Bool) : (s.rstWhere p).power = s.power := rfl
@[simp] theorem rstWhere_ret (p : Reg → Bool) : (s.rstWhere p).ret = s.ret := rfl
@[simp] theorem rstWhere_fuses (p : Reg → Bool) : (s.rstWhere p).fuses = s.fuses := rfl
@[simp] theorem rstWhere_boot (p : Reg → Bool) : (s.rstWhere p).boot = s.boot := rfl
@[simp] theorem rstWhere_fen (p : Reg → Bool) : (s.rstWhere p).fen = s.fen := rfl
@[simp] theorem rstWhere_fenChk (p : Reg → Bool) : (s.rstWhere p).fenChk = s.fenChk := rfl
@[simp] theorem rstWhere_fenFix (p : Reg → Bool) : (s.rstWhere p).fenFix = s.fenFix := rfl
@[simp] theorem rstWhere_near (p : Reg → Bool) : (s.rstWhere p).near = s.near := rfl
@[simp] theorem rstWhere_troughs (p : Reg → Bool) : (s.rstWhere p).troughs = s.troughs := rfl
@[simp] theorem rstWhere_mirrorQ (p : Reg → Bool) : (s.rstWhere p).mirrorQ = s.mirrorQ := rfl
@[simp] theorem rstWhere_outBits (p : Reg → Bool) : (s.rstWhere p).outBits = s.outBits := rfl
@[simp] theorem rstWhere_yard (p : Reg → Bool) : (s.rstWhere p).yard = s.yard := rfl
@[simp] theorem rstWhere_grooms (p : Reg → Bool) : (s.rstWhere p).grooms = s.grooms := rfl
@[simp] theorem rstWhere_scratch (p : Reg → Bool) : (s.rstWhere p).scratch = s.scratch := rfl
@[simp] theorem rstWhere_stalls (p : Reg → Bool) : (s.rstWhere p).stalls = s.stalls := rfl
@[simp] theorem rstWhere_lanes (p : Reg → Bool) : (s.rstWhere p).lanes = s.lanes := rfl
@[simp] theorem rstWhere_ctxs (p : Reg → Bool) : (s.rstWhere p).ctxs = s.ctxs := rfl
@[simp] theorem rstWhere_baysServed (p : Reg → Bool) : (s.rstWhere p).baysServed = s.baysServed := rfl
@[simp] theorem rstWhere_crib (p : Reg → Bool) : (s.rstWhere p).crib = s.crib := rfl
@[simp] theorem rstWhere_cribLoad (p : Reg → Bool) : (s.rstWhere p).cribLoad = s.cribLoad := rfl
@[simp] theorem rstWhere_paddock (p : Reg → Bool) : (s.rstWhere p).paddock = s.paddock := rfl
@[simp] theorem rstWhere_padLoad (p : Reg → Bool) : (s.rstWhere p).padLoad = s.padLoad := rfl
@[simp] theorem rstWhere_herds (p : Reg → Bool) : (s.rstWhere p).herds = s.herds := rfl
@[simp] theorem rstWhere_adcs (p : Reg → Bool) : (s.rstWhere p).adcs = s.adcs := rfl
@[simp] theorem rstWhere_vsts (p : Reg → Bool) : (s.rstWhere p).vsts = s.vsts := rfl
@[simp] theorem rstWhere_rings (p : Reg → Bool) : (s.rstWhere p).rings = s.rings := rfl
@[simp] theorem rstWhere_mirrors (p : Reg → Bool) : (s.rstWhere p).mirrors = s.mirrors := rfl
@[simp] theorem rstWhere_pair (p : Reg → Bool) : (s.rstWhere p).pair = s.pair := rfl
@[simp] theorem rstWhere_tb (p : Reg → Bool) : (s.rstWhere p).tb = s.tb := rfl
@[simp] theorem rstWhere_outs (p : Reg → Bool) : (s.rstWhere p).outs = s.outs := rfl
@[simp] theorem rstWhere_wpLists (p : Reg → Bool) : (s.rstWhere p).wpLists = s.wpLists := rfl
@[simp] theorem rstWhere_wpMem (p : Reg → Bool) : (s.rstWhere p).wpMem = s.wpMem := rfl
@[simp] theorem rstWhere_samples (p : Reg → Bool) : (s.rstWhere p).samples = s.samples := rfl
@[simp] theorem rstWhere_fld (p : Reg → Bool) : (s.rstWhere p).fld = s.fld := rfl
@[simp] theorem rstWhere_mgmt (p : Reg → Bool) : (s.rstWhere p).mgmt = s.mgmt := rfl
@[simp] theorem rstWhere_host (p : Reg → Bool) : (s.rstWhere p).host = s.host := rfl
@[simp] theorem rstWhere_sent (p : Reg → Bool) : (s.rstWhere p).sent = s.sent := rfl
@[simp] theorem rstWhere_frees (p : Reg → Bool) : (s.rstWhere p).frees = s.frees := rfl

@[simp] theorem emit_pending (o : Out) : (s.emit o).pending = s.pending := rfl
@[simp] theorem emit_regs (o : Out) : (s.emit o).regs = s.regs := rfl
@[simp] theorem emit_chans (o : Out) : (s.emit o).chans = s.chans := rfl
@[simp] theorem emit_ctl (o : Out) : (s.emit o).ctl = s.ctl := rfl
@[simp] theorem emit_power (o : Out) : (s.emit o).power = s.power := rfl
@[simp] theorem emit_ret (o : Out) : (s.emit o).ret = s.ret := rfl
@[simp] theorem emit_fuses (o : Out) : (s.emit o).fuses = s.fuses := rfl
@[simp] theorem emit_boot (o : Out) : (s.emit o).boot = s.boot := rfl
@[simp] theorem emit_fen (o : Out) : (s.emit o).fen = s.fen := rfl
@[simp] theorem emit_fenChk (o : Out) : (s.emit o).fenChk = s.fenChk := rfl
@[simp] theorem emit_fenFix (o : Out) : (s.emit o).fenFix = s.fenFix := rfl
@[simp] theorem emit_near (o : Out) : (s.emit o).near = s.near := rfl
@[simp] theorem emit_troughs (o : Out) : (s.emit o).troughs = s.troughs := rfl
@[simp] theorem emit_mirrorQ (o : Out) : (s.emit o).mirrorQ = s.mirrorQ := rfl
@[simp] theorem emit_outBits (o : Out) : (s.emit o).outBits = s.outBits := rfl
@[simp] theorem emit_yard (o : Out) : (s.emit o).yard = s.yard := rfl
@[simp] theorem emit_grooms (o : Out) : (s.emit o).grooms = s.grooms := rfl
@[simp] theorem emit_scratch (o : Out) : (s.emit o).scratch = s.scratch := rfl
@[simp] theorem emit_stalls (o : Out) : (s.emit o).stalls = s.stalls := rfl
@[simp] theorem emit_lanes (o : Out) : (s.emit o).lanes = s.lanes := rfl
@[simp] theorem emit_ctxs (o : Out) : (s.emit o).ctxs = s.ctxs := rfl
@[simp] theorem emit_baysServed (o : Out) : (s.emit o).baysServed = s.baysServed := rfl
@[simp] theorem emit_crib (o : Out) : (s.emit o).crib = s.crib := rfl
@[simp] theorem emit_cribLoad (o : Out) : (s.emit o).cribLoad = s.cribLoad := rfl
@[simp] theorem emit_paddock (o : Out) : (s.emit o).paddock = s.paddock := rfl
@[simp] theorem emit_padLoad (o : Out) : (s.emit o).padLoad = s.padLoad := rfl
@[simp] theorem emit_herds (o : Out) : (s.emit o).herds = s.herds := rfl
@[simp] theorem emit_adcs (o : Out) : (s.emit o).adcs = s.adcs := rfl
@[simp] theorem emit_vsts (o : Out) : (s.emit o).vsts = s.vsts := rfl
@[simp] theorem emit_rings (o : Out) : (s.emit o).rings = s.rings := rfl
@[simp] theorem emit_mirrors (o : Out) : (s.emit o).mirrors = s.mirrors := rfl
@[simp] theorem emit_pair (o : Out) : (s.emit o).pair = s.pair := rfl
@[simp] theorem emit_tb (o : Out) : (s.emit o).tb = s.tb := rfl
@[simp] theorem emit_outs (o : Out) : (s.emit o).outs = s.outs := rfl
@[simp] theorem emit_wpLists (o : Out) : (s.emit o).wpLists = s.wpLists := rfl
@[simp] theorem emit_wpMem (o : Out) : (s.emit o).wpMem = s.wpMem := rfl
@[simp] theorem emit_samples (o : Out) : (s.emit o).samples = s.samples := rfl
@[simp] theorem emit_fld (o : Out) : (s.emit o).fld = s.fld := rfl
@[simp] theorem emit_mgmt (o : Out) : (s.emit o).mgmt = s.mgmt := rfl
@[simp] theorem emit_host (o : Out) : (s.emit o).host = s.host := rfl
@[simp] theorem emit_frees (o : Out) : (s.emit o).frees = s.frees := rfl

@[simp] theorem reach_pending (t : Nat) : (s.reach t).pending = s.pending := rfl
@[simp] theorem reach_regs (t : Nat) : (s.reach t).regs = s.regs := rfl
@[simp] theorem reach_chans (t : Nat) : (s.reach t).chans = s.chans := rfl
@[simp] theorem reach_ctl (t : Nat) : (s.reach t).ctl = s.ctl := rfl
@[simp] theorem reach_power (t : Nat) : (s.reach t).power = s.power := rfl
@[simp] theorem reach_ret (t : Nat) : (s.reach t).ret = s.ret := rfl
@[simp] theorem reach_fuses (t : Nat) : (s.reach t).fuses = s.fuses := rfl
@[simp] theorem reach_boot (t : Nat) : (s.reach t).boot = s.boot := rfl
@[simp] theorem reach_fen (t : Nat) : (s.reach t).fen = s.fen := rfl
@[simp] theorem reach_fenChk (t : Nat) : (s.reach t).fenChk = s.fenChk := rfl
@[simp] theorem reach_fenFix (t : Nat) : (s.reach t).fenFix = s.fenFix := rfl
@[simp] theorem reach_near (t : Nat) : (s.reach t).near = s.near := rfl
@[simp] theorem reach_troughs (t : Nat) : (s.reach t).troughs = s.troughs := rfl
@[simp] theorem reach_mirrorQ (t : Nat) : (s.reach t).mirrorQ = s.mirrorQ := rfl
@[simp] theorem reach_outBits (t : Nat) : (s.reach t).outBits = s.outBits := rfl
@[simp] theorem reach_yard (t : Nat) : (s.reach t).yard = s.yard := rfl
@[simp] theorem reach_grooms (t : Nat) : (s.reach t).grooms = s.grooms := rfl
@[simp] theorem reach_scratch (t : Nat) : (s.reach t).scratch = s.scratch := rfl
@[simp] theorem reach_stalls (t : Nat) : (s.reach t).stalls = s.stalls := rfl
@[simp] theorem reach_lanes (t : Nat) : (s.reach t).lanes = s.lanes := rfl
@[simp] theorem reach_ctxs (t : Nat) : (s.reach t).ctxs = s.ctxs := rfl
@[simp] theorem reach_baysServed (t : Nat) : (s.reach t).baysServed = s.baysServed := rfl
@[simp] theorem reach_crib (t : Nat) : (s.reach t).crib = s.crib := rfl
@[simp] theorem reach_cribLoad (t : Nat) : (s.reach t).cribLoad = s.cribLoad := rfl
@[simp] theorem reach_paddock (t : Nat) : (s.reach t).paddock = s.paddock := rfl
@[simp] theorem reach_padLoad (t : Nat) : (s.reach t).padLoad = s.padLoad := rfl
@[simp] theorem reach_herds (t : Nat) : (s.reach t).herds = s.herds := rfl
@[simp] theorem reach_adcs (t : Nat) : (s.reach t).adcs = s.adcs := rfl
@[simp] theorem reach_vsts (t : Nat) : (s.reach t).vsts = s.vsts := rfl
@[simp] theorem reach_rings (t : Nat) : (s.reach t).rings = s.rings := rfl
@[simp] theorem reach_mirrors (t : Nat) : (s.reach t).mirrors = s.mirrors := rfl
@[simp] theorem reach_pair (t : Nat) : (s.reach t).pair = s.pair := rfl
@[simp] theorem reach_outs (t : Nat) : (s.reach t).outs = s.outs := rfl
@[simp] theorem reach_wpLists (t : Nat) : (s.reach t).wpLists = s.wpLists := rfl
@[simp] theorem reach_wpMem (t : Nat) : (s.reach t).wpMem = s.wpMem := rfl
@[simp] theorem reach_samples (t : Nat) : (s.reach t).samples = s.samples := rfl
@[simp] theorem reach_fld (t : Nat) : (s.reach t).fld = s.fld := rfl
@[simp] theorem reach_mgmt (t : Nat) : (s.reach t).mgmt = s.mgmt := rfl
@[simp] theorem reach_host (t : Nat) : (s.reach t).host = s.host := rfl
@[simp] theorem reach_sent (t : Nat) : (s.reach t).sent = s.sent := rfl
@[simp] theorem reach_frees (t : Nat) : (s.reach t).frees = s.frees := rfl

@[simp] theorem setChan_pending (c : Nat) (x : Chan) : (s.setChan c x).pending = s.pending := rfl
@[simp] theorem setChan_regs (c : Nat) (x : Chan) : (s.setChan c x).regs = s.regs := rfl
@[simp] theorem setChan_ctl (c : Nat) (x : Chan) : (s.setChan c x).ctl = s.ctl := rfl
@[simp] theorem setChan_power (c : Nat) (x : Chan) : (s.setChan c x).power = s.power := rfl
@[simp] theorem setChan_ret (c : Nat) (x : Chan) : (s.setChan c x).ret = s.ret := rfl
@[simp] theorem setChan_fuses (c : Nat) (x : Chan) : (s.setChan c x).fuses = s.fuses := rfl
@[simp] theorem setChan_boot (c : Nat) (x : Chan) : (s.setChan c x).boot = s.boot := rfl
@[simp] theorem setChan_fen (c : Nat) (x : Chan) : (s.setChan c x).fen = s.fen := rfl
@[simp] theorem setChan_fenChk (c : Nat) (x : Chan) : (s.setChan c x).fenChk = s.fenChk := rfl
@[simp] theorem setChan_fenFix (c : Nat) (x : Chan) : (s.setChan c x).fenFix = s.fenFix := rfl
@[simp] theorem setChan_near (c : Nat) (x : Chan) : (s.setChan c x).near = s.near := rfl
@[simp] theorem setChan_troughs (c : Nat) (x : Chan) : (s.setChan c x).troughs = s.troughs := rfl
@[simp] theorem setChan_mirrorQ (c : Nat) (x : Chan) : (s.setChan c x).mirrorQ = s.mirrorQ := rfl
@[simp] theorem setChan_outBits (c : Nat) (x : Chan) : (s.setChan c x).outBits = s.outBits := rfl
@[simp] theorem setChan_yard (c : Nat) (x : Chan) : (s.setChan c x).yard = s.yard := rfl
@[simp] theorem setChan_grooms (c : Nat) (x : Chan) : (s.setChan c x).grooms = s.grooms := rfl
@[simp] theorem setChan_scratch (c : Nat) (x : Chan) : (s.setChan c x).scratch = s.scratch := rfl
@[simp] theorem setChan_stalls (c : Nat) (x : Chan) : (s.setChan c x).stalls = s.stalls := rfl
@[simp] theorem setChan_lanes (c : Nat) (x : Chan) : (s.setChan c x).lanes = s.lanes := rfl
@[simp] theorem setChan_ctxs (c : Nat) (x : Chan) : (s.setChan c x).ctxs = s.ctxs := rfl
@[simp] theorem setChan_baysServed (c : Nat) (x : Chan) : (s.setChan c x).baysServed = s.baysServed := rfl
@[simp] theorem setChan_crib (c : Nat) (x : Chan) : (s.setChan c x).crib = s.crib := rfl
@[simp] theorem setChan_cribLoad (c : Nat) (x : Chan) : (s.setChan c x).cribLoad = s.cribLoad := rfl
@[simp] theorem setChan_paddock (c : Nat) (x : Chan) : (s.setChan c x).paddock = s.paddock := rfl
@[simp] theorem setChan_padLoad (c : Nat) (x : Chan) : (s.setChan c x).padLoad = s.padLoad := rfl
@[simp] theorem setChan_herds (c : Nat) (x : Chan) : (s.setChan c x).herds = s.herds := rfl
@[simp] theorem setChan_adcs (c : Nat) (x : Chan) : (s.setChan c x).adcs = s.adcs := rfl
@[simp] theorem setChan_vsts (c : Nat) (x : Chan) : (s.setChan c x).vsts = s.vsts := rfl
@[simp] theorem setChan_rings (c : Nat) (x : Chan) : (s.setChan c x).rings = s.rings := rfl
@[simp] theorem setChan_mirrors (c : Nat) (x : Chan) : (s.setChan c x).mirrors = s.mirrors := rfl
@[simp] theorem setChan_pair (c : Nat) (x : Chan) : (s.setChan c x).pair = s.pair := rfl
@[simp] theorem setChan_tb (c : Nat) (x : Chan) : (s.setChan c x).tb = s.tb := rfl
@[simp] theorem setChan_outs (c : Nat) (x : Chan) : (s.setChan c x).outs = s.outs := rfl
@[simp] theorem setChan_wpLists (c : Nat) (x : Chan) : (s.setChan c x).wpLists = s.wpLists := rfl
@[simp] theorem setChan_wpMem (c : Nat) (x : Chan) : (s.setChan c x).wpMem = s.wpMem := rfl
@[simp] theorem setChan_samples (c : Nat) (x : Chan) : (s.setChan c x).samples = s.samples := rfl
@[simp] theorem setChan_fld (c : Nat) (x : Chan) : (s.setChan c x).fld = s.fld := rfl
@[simp] theorem setChan_mgmt (c : Nat) (x : Chan) : (s.setChan c x).mgmt = s.mgmt := rfl
@[simp] theorem setChan_host (c : Nat) (x : Chan) : (s.setChan c x).host = s.host := rfl
@[simp] theorem setChan_sent (c : Nat) (x : Chan) : (s.setChan c x).sent = s.sent := rfl
@[simp] theorem setChan_frees (c : Nat) (x : Chan) : (s.setChan c x).frees = s.frees := rfl

@[simp] theorem setGroom_pending (g : Nat) (x : Groom) : (s.setGroom g x).pending = s.pending := rfl
@[simp] theorem setGroom_regs (g : Nat) (x : Groom) : (s.setGroom g x).regs = s.regs := rfl
@[simp] theorem setGroom_chans (g : Nat) (x : Groom) : (s.setGroom g x).chans = s.chans := rfl
@[simp] theorem setGroom_ctl (g : Nat) (x : Groom) : (s.setGroom g x).ctl = s.ctl := rfl
@[simp] theorem setGroom_power (g : Nat) (x : Groom) : (s.setGroom g x).power = s.power := rfl
@[simp] theorem setGroom_ret (g : Nat) (x : Groom) : (s.setGroom g x).ret = s.ret := rfl
@[simp] theorem setGroom_fuses (g : Nat) (x : Groom) : (s.setGroom g x).fuses = s.fuses := rfl
@[simp] theorem setGroom_boot (g : Nat) (x : Groom) : (s.setGroom g x).boot = s.boot := rfl
@[simp] theorem setGroom_fen (g : Nat) (x : Groom) : (s.setGroom g x).fen = s.fen := rfl
@[simp] theorem setGroom_fenChk (g : Nat) (x : Groom) : (s.setGroom g x).fenChk = s.fenChk := rfl
@[simp] theorem setGroom_fenFix (g : Nat) (x : Groom) : (s.setGroom g x).fenFix = s.fenFix := rfl
@[simp] theorem setGroom_near (g : Nat) (x : Groom) : (s.setGroom g x).near = s.near := rfl
@[simp] theorem setGroom_troughs (g : Nat) (x : Groom) : (s.setGroom g x).troughs = s.troughs := rfl
@[simp] theorem setGroom_mirrorQ (g : Nat) (x : Groom) : (s.setGroom g x).mirrorQ = s.mirrorQ := rfl
@[simp] theorem setGroom_outBits (g : Nat) (x : Groom) : (s.setGroom g x).outBits = s.outBits := rfl
@[simp] theorem setGroom_yard (g : Nat) (x : Groom) : (s.setGroom g x).yard = s.yard := rfl
@[simp] theorem setGroom_scratch (g : Nat) (x : Groom) : (s.setGroom g x).scratch = s.scratch := rfl
@[simp] theorem setGroom_stalls (g : Nat) (x : Groom) : (s.setGroom g x).stalls = s.stalls := rfl
@[simp] theorem setGroom_lanes (g : Nat) (x : Groom) : (s.setGroom g x).lanes = s.lanes := rfl
@[simp] theorem setGroom_ctxs (g : Nat) (x : Groom) : (s.setGroom g x).ctxs = s.ctxs := rfl
@[simp] theorem setGroom_baysServed (g : Nat) (x : Groom) : (s.setGroom g x).baysServed = s.baysServed := rfl
@[simp] theorem setGroom_crib (g : Nat) (x : Groom) : (s.setGroom g x).crib = s.crib := rfl
@[simp] theorem setGroom_cribLoad (g : Nat) (x : Groom) : (s.setGroom g x).cribLoad = s.cribLoad := rfl
@[simp] theorem setGroom_paddock (g : Nat) (x : Groom) : (s.setGroom g x).paddock = s.paddock := rfl
@[simp] theorem setGroom_padLoad (g : Nat) (x : Groom) : (s.setGroom g x).padLoad = s.padLoad := rfl
@[simp] theorem setGroom_herds (g : Nat) (x : Groom) : (s.setGroom g x).herds = s.herds := rfl
@[simp] theorem setGroom_adcs (g : Nat) (x : Groom) : (s.setGroom g x).adcs = s.adcs := rfl
@[simp] theorem setGroom_vsts (g : Nat) (x : Groom) : (s.setGroom g x).vsts = s.vsts := rfl
@[simp] theorem setGroom_rings (g : Nat) (x : Groom) : (s.setGroom g x).rings = s.rings := rfl
@[simp] theorem setGroom_mirrors (g : Nat) (x : Groom) : (s.setGroom g x).mirrors = s.mirrors := rfl
@[simp] theorem setGroom_pair (g : Nat) (x : Groom) : (s.setGroom g x).pair = s.pair := rfl
@[simp] theorem setGroom_tb (g : Nat) (x : Groom) : (s.setGroom g x).tb = s.tb := rfl
@[simp] theorem setGroom_outs (g : Nat) (x : Groom) : (s.setGroom g x).outs = s.outs := rfl
@[simp] theorem setGroom_wpLists (g : Nat) (x : Groom) : (s.setGroom g x).wpLists = s.wpLists := rfl
@[simp] theorem setGroom_wpMem (g : Nat) (x : Groom) : (s.setGroom g x).wpMem = s.wpMem := rfl
@[simp] theorem setGroom_samples (g : Nat) (x : Groom) : (s.setGroom g x).samples = s.samples := rfl
@[simp] theorem setGroom_fld (g : Nat) (x : Groom) : (s.setGroom g x).fld = s.fld := rfl
@[simp] theorem setGroom_mgmt (g : Nat) (x : Groom) : (s.setGroom g x).mgmt = s.mgmt := rfl
@[simp] theorem setGroom_host (g : Nat) (x : Groom) : (s.setGroom g x).host = s.host := rfl
@[simp] theorem setGroom_sent (g : Nat) (x : Groom) : (s.setGroom g x).sent = s.sent := rfl
@[simp] theorem setGroom_frees (g : Nat) (x : Groom) : (s.setGroom g x).frees = s.frees := rfl

@[simp] theorem setStall_pending (n : Nat) (x : Stall) : (s.setStall n x).pending = s.pending := rfl
@[simp] theorem setStall_regs (n : Nat) (x : Stall) : (s.setStall n x).regs = s.regs := rfl
@[simp] theorem setStall_chans (n : Nat) (x : Stall) : (s.setStall n x).chans = s.chans := rfl
@[simp] theorem setStall_ctl (n : Nat) (x : Stall) : (s.setStall n x).ctl = s.ctl := rfl
@[simp] theorem setStall_power (n : Nat) (x : Stall) : (s.setStall n x).power = s.power := rfl
@[simp] theorem setStall_ret (n : Nat) (x : Stall) : (s.setStall n x).ret = s.ret := rfl
@[simp] theorem setStall_fuses (n : Nat) (x : Stall) : (s.setStall n x).fuses = s.fuses := rfl
@[simp] theorem setStall_boot (n : Nat) (x : Stall) : (s.setStall n x).boot = s.boot := rfl
@[simp] theorem setStall_fen (n : Nat) (x : Stall) : (s.setStall n x).fen = s.fen := rfl
@[simp] theorem setStall_fenChk (n : Nat) (x : Stall) : (s.setStall n x).fenChk = s.fenChk := rfl
@[simp] theorem setStall_fenFix (n : Nat) (x : Stall) : (s.setStall n x).fenFix = s.fenFix := rfl
@[simp] theorem setStall_near (n : Nat) (x : Stall) : (s.setStall n x).near = s.near := rfl
@[simp] theorem setStall_troughs (n : Nat) (x : Stall) : (s.setStall n x).troughs = s.troughs := rfl
@[simp] theorem setStall_mirrorQ (n : Nat) (x : Stall) : (s.setStall n x).mirrorQ = s.mirrorQ := rfl
@[simp] theorem setStall_outBits (n : Nat) (x : Stall) : (s.setStall n x).outBits = s.outBits := rfl
@[simp] theorem setStall_yard (n : Nat) (x : Stall) : (s.setStall n x).yard = s.yard := rfl
@[simp] theorem setStall_grooms (n : Nat) (x : Stall) : (s.setStall n x).grooms = s.grooms := rfl
@[simp] theorem setStall_scratch (n : Nat) (x : Stall) : (s.setStall n x).scratch = s.scratch := rfl
@[simp] theorem setStall_lanes (n : Nat) (x : Stall) : (s.setStall n x).lanes = s.lanes := rfl
@[simp] theorem setStall_ctxs (n : Nat) (x : Stall) : (s.setStall n x).ctxs = s.ctxs := rfl
@[simp] theorem setStall_baysServed (n : Nat) (x : Stall) : (s.setStall n x).baysServed = s.baysServed := rfl
@[simp] theorem setStall_crib (n : Nat) (x : Stall) : (s.setStall n x).crib = s.crib := rfl
@[simp] theorem setStall_cribLoad (n : Nat) (x : Stall) : (s.setStall n x).cribLoad = s.cribLoad := rfl
@[simp] theorem setStall_paddock (n : Nat) (x : Stall) : (s.setStall n x).paddock = s.paddock := rfl
@[simp] theorem setStall_padLoad (n : Nat) (x : Stall) : (s.setStall n x).padLoad = s.padLoad := rfl
@[simp] theorem setStall_herds (n : Nat) (x : Stall) : (s.setStall n x).herds = s.herds := rfl
@[simp] theorem setStall_adcs (n : Nat) (x : Stall) : (s.setStall n x).adcs = s.adcs := rfl
@[simp] theorem setStall_vsts (n : Nat) (x : Stall) : (s.setStall n x).vsts = s.vsts := rfl
@[simp] theorem setStall_rings (n : Nat) (x : Stall) : (s.setStall n x).rings = s.rings := rfl
@[simp] theorem setStall_mirrors (n : Nat) (x : Stall) : (s.setStall n x).mirrors = s.mirrors := rfl
@[simp] theorem setStall_pair (n : Nat) (x : Stall) : (s.setStall n x).pair = s.pair := rfl
@[simp] theorem setStall_tb (n : Nat) (x : Stall) : (s.setStall n x).tb = s.tb := rfl
@[simp] theorem setStall_outs (n : Nat) (x : Stall) : (s.setStall n x).outs = s.outs := rfl
@[simp] theorem setStall_wpLists (n : Nat) (x : Stall) : (s.setStall n x).wpLists = s.wpLists := rfl
@[simp] theorem setStall_wpMem (n : Nat) (x : Stall) : (s.setStall n x).wpMem = s.wpMem := rfl
@[simp] theorem setStall_samples (n : Nat) (x : Stall) : (s.setStall n x).samples = s.samples := rfl
@[simp] theorem setStall_fld (n : Nat) (x : Stall) : (s.setStall n x).fld = s.fld := rfl
@[simp] theorem setStall_mgmt (n : Nat) (x : Stall) : (s.setStall n x).mgmt = s.mgmt := rfl
@[simp] theorem setStall_host (n : Nat) (x : Stall) : (s.setStall n x).host = s.host := rfl
@[simp] theorem setStall_sent (n : Nat) (x : Stall) : (s.setStall n x).sent = s.sent := rfl
@[simp] theorem setStall_frees (n : Nat) (x : Stall) : (s.setStall n x).frees = s.frees := rfl

@[simp] theorem modStall_pending (n : Nat) (f : Stall → Stall) : (s.modStall n f).pending = s.pending := rfl
@[simp] theorem modStall_regs (n : Nat) (f : Stall → Stall) : (s.modStall n f).regs = s.regs := rfl
@[simp] theorem modStall_chans (n : Nat) (f : Stall → Stall) : (s.modStall n f).chans = s.chans := rfl
@[simp] theorem modStall_ctl (n : Nat) (f : Stall → Stall) : (s.modStall n f).ctl = s.ctl := rfl
@[simp] theorem modStall_power (n : Nat) (f : Stall → Stall) : (s.modStall n f).power = s.power := rfl
@[simp] theorem modStall_ret (n : Nat) (f : Stall → Stall) : (s.modStall n f).ret = s.ret := rfl
@[simp] theorem modStall_fuses (n : Nat) (f : Stall → Stall) : (s.modStall n f).fuses = s.fuses := rfl
@[simp] theorem modStall_boot (n : Nat) (f : Stall → Stall) : (s.modStall n f).boot = s.boot := rfl
@[simp] theorem modStall_fen (n : Nat) (f : Stall → Stall) : (s.modStall n f).fen = s.fen := rfl
@[simp] theorem modStall_fenChk (n : Nat) (f : Stall → Stall) : (s.modStall n f).fenChk = s.fenChk := rfl
@[simp] theorem modStall_fenFix (n : Nat) (f : Stall → Stall) : (s.modStall n f).fenFix = s.fenFix := rfl
@[simp] theorem modStall_near (n : Nat) (f : Stall → Stall) : (s.modStall n f).near = s.near := rfl
@[simp] theorem modStall_troughs (n : Nat) (f : Stall → Stall) : (s.modStall n f).troughs = s.troughs := rfl
@[simp] theorem modStall_mirrorQ (n : Nat) (f : Stall → Stall) : (s.modStall n f).mirrorQ = s.mirrorQ := rfl
@[simp] theorem modStall_outBits (n : Nat) (f : Stall → Stall) : (s.modStall n f).outBits = s.outBits := rfl
@[simp] theorem modStall_yard (n : Nat) (f : Stall → Stall) : (s.modStall n f).yard = s.yard := rfl
@[simp] theorem modStall_grooms (n : Nat) (f : Stall → Stall) : (s.modStall n f).grooms = s.grooms := rfl
@[simp] theorem modStall_scratch (n : Nat) (f : Stall → Stall) : (s.modStall n f).scratch = s.scratch := rfl
@[simp] theorem modStall_lanes (n : Nat) (f : Stall → Stall) : (s.modStall n f).lanes = s.lanes := rfl
@[simp] theorem modStall_ctxs (n : Nat) (f : Stall → Stall) : (s.modStall n f).ctxs = s.ctxs := rfl
@[simp] theorem modStall_baysServed (n : Nat) (f : Stall → Stall) : (s.modStall n f).baysServed = s.baysServed := rfl
@[simp] theorem modStall_crib (n : Nat) (f : Stall → Stall) : (s.modStall n f).crib = s.crib := rfl
@[simp] theorem modStall_cribLoad (n : Nat) (f : Stall → Stall) : (s.modStall n f).cribLoad = s.cribLoad := rfl
@[simp] theorem modStall_paddock (n : Nat) (f : Stall → Stall) : (s.modStall n f).paddock = s.paddock := rfl
@[simp] theorem modStall_padLoad (n : Nat) (f : Stall → Stall) : (s.modStall n f).padLoad = s.padLoad := rfl
@[simp] theorem modStall_herds (n : Nat) (f : Stall → Stall) : (s.modStall n f).herds = s.herds := rfl
@[simp] theorem modStall_adcs (n : Nat) (f : Stall → Stall) : (s.modStall n f).adcs = s.adcs := rfl
@[simp] theorem modStall_vsts (n : Nat) (f : Stall → Stall) : (s.modStall n f).vsts = s.vsts := rfl
@[simp] theorem modStall_rings (n : Nat) (f : Stall → Stall) : (s.modStall n f).rings = s.rings := rfl
@[simp] theorem modStall_mirrors (n : Nat) (f : Stall → Stall) : (s.modStall n f).mirrors = s.mirrors := rfl
@[simp] theorem modStall_pair (n : Nat) (f : Stall → Stall) : (s.modStall n f).pair = s.pair := rfl
@[simp] theorem modStall_tb (n : Nat) (f : Stall → Stall) : (s.modStall n f).tb = s.tb := rfl
@[simp] theorem modStall_outs (n : Nat) (f : Stall → Stall) : (s.modStall n f).outs = s.outs := rfl
@[simp] theorem modStall_wpLists (n : Nat) (f : Stall → Stall) : (s.modStall n f).wpLists = s.wpLists := rfl
@[simp] theorem modStall_wpMem (n : Nat) (f : Stall → Stall) : (s.modStall n f).wpMem = s.wpMem := rfl
@[simp] theorem modStall_samples (n : Nat) (f : Stall → Stall) : (s.modStall n f).samples = s.samples := rfl
@[simp] theorem modStall_fld (n : Nat) (f : Stall → Stall) : (s.modStall n f).fld = s.fld := rfl
@[simp] theorem modStall_mgmt (n : Nat) (f : Stall → Stall) : (s.modStall n f).mgmt = s.mgmt := rfl
@[simp] theorem modStall_host (n : Nat) (f : Stall → Stall) : (s.modStall n f).host = s.host := rfl
@[simp] theorem modStall_sent (n : Nat) (f : Stall → Stall) : (s.modStall n f).sent = s.sent := rfl
@[simp] theorem modStall_frees (n : Nat) (f : Stall → Stall) : (s.modStall n f).frees = s.frees := rfl

@[simp] theorem modLane_pending (l : Nat) (f : Lane → Lane) : (s.modLane l f).pending = s.pending := rfl
@[simp] theorem modLane_regs (l : Nat) (f : Lane → Lane) : (s.modLane l f).regs = s.regs := rfl
@[simp] theorem modLane_chans (l : Nat) (f : Lane → Lane) : (s.modLane l f).chans = s.chans := rfl
@[simp] theorem modLane_ctl (l : Nat) (f : Lane → Lane) : (s.modLane l f).ctl = s.ctl := rfl
@[simp] theorem modLane_power (l : Nat) (f : Lane → Lane) : (s.modLane l f).power = s.power := rfl
@[simp] theorem modLane_ret (l : Nat) (f : Lane → Lane) : (s.modLane l f).ret = s.ret := rfl
@[simp] theorem modLane_fuses (l : Nat) (f : Lane → Lane) : (s.modLane l f).fuses = s.fuses := rfl
@[simp] theorem modLane_boot (l : Nat) (f : Lane → Lane) : (s.modLane l f).boot = s.boot := rfl
@[simp] theorem modLane_fen (l : Nat) (f : Lane → Lane) : (s.modLane l f).fen = s.fen := rfl
@[simp] theorem modLane_fenChk (l : Nat) (f : Lane → Lane) : (s.modLane l f).fenChk = s.fenChk := rfl
@[simp] theorem modLane_fenFix (l : Nat) (f : Lane → Lane) : (s.modLane l f).fenFix = s.fenFix := rfl
@[simp] theorem modLane_near (l : Nat) (f : Lane → Lane) : (s.modLane l f).near = s.near := rfl
@[simp] theorem modLane_troughs (l : Nat) (f : Lane → Lane) : (s.modLane l f).troughs = s.troughs := rfl
@[simp] theorem modLane_mirrorQ (l : Nat) (f : Lane → Lane) : (s.modLane l f).mirrorQ = s.mirrorQ := rfl
@[simp] theorem modLane_outBits (l : Nat) (f : Lane → Lane) : (s.modLane l f).outBits = s.outBits := rfl
@[simp] theorem modLane_yard (l : Nat) (f : Lane → Lane) : (s.modLane l f).yard = s.yard := rfl
@[simp] theorem modLane_grooms (l : Nat) (f : Lane → Lane) : (s.modLane l f).grooms = s.grooms := rfl
@[simp] theorem modLane_scratch (l : Nat) (f : Lane → Lane) : (s.modLane l f).scratch = s.scratch := rfl
@[simp] theorem modLane_stalls (l : Nat) (f : Lane → Lane) : (s.modLane l f).stalls = s.stalls := rfl
@[simp] theorem modLane_ctxs (l : Nat) (f : Lane → Lane) : (s.modLane l f).ctxs = s.ctxs := rfl
@[simp] theorem modLane_baysServed (l : Nat) (f : Lane → Lane) : (s.modLane l f).baysServed = s.baysServed := rfl
@[simp] theorem modLane_crib (l : Nat) (f : Lane → Lane) : (s.modLane l f).crib = s.crib := rfl
@[simp] theorem modLane_cribLoad (l : Nat) (f : Lane → Lane) : (s.modLane l f).cribLoad = s.cribLoad := rfl
@[simp] theorem modLane_paddock (l : Nat) (f : Lane → Lane) : (s.modLane l f).paddock = s.paddock := rfl
@[simp] theorem modLane_padLoad (l : Nat) (f : Lane → Lane) : (s.modLane l f).padLoad = s.padLoad := rfl
@[simp] theorem modLane_herds (l : Nat) (f : Lane → Lane) : (s.modLane l f).herds = s.herds := rfl
@[simp] theorem modLane_adcs (l : Nat) (f : Lane → Lane) : (s.modLane l f).adcs = s.adcs := rfl
@[simp] theorem modLane_vsts (l : Nat) (f : Lane → Lane) : (s.modLane l f).vsts = s.vsts := rfl
@[simp] theorem modLane_rings (l : Nat) (f : Lane → Lane) : (s.modLane l f).rings = s.rings := rfl
@[simp] theorem modLane_mirrors (l : Nat) (f : Lane → Lane) : (s.modLane l f).mirrors = s.mirrors := rfl
@[simp] theorem modLane_pair (l : Nat) (f : Lane → Lane) : (s.modLane l f).pair = s.pair := rfl
@[simp] theorem modLane_tb (l : Nat) (f : Lane → Lane) : (s.modLane l f).tb = s.tb := rfl
@[simp] theorem modLane_outs (l : Nat) (f : Lane → Lane) : (s.modLane l f).outs = s.outs := rfl
@[simp] theorem modLane_wpLists (l : Nat) (f : Lane → Lane) : (s.modLane l f).wpLists = s.wpLists := rfl
@[simp] theorem modLane_wpMem (l : Nat) (f : Lane → Lane) : (s.modLane l f).wpMem = s.wpMem := rfl
@[simp] theorem modLane_samples (l : Nat) (f : Lane → Lane) : (s.modLane l f).samples = s.samples := rfl
@[simp] theorem modLane_fld (l : Nat) (f : Lane → Lane) : (s.modLane l f).fld = s.fld := rfl
@[simp] theorem modLane_mgmt (l : Nat) (f : Lane → Lane) : (s.modLane l f).mgmt = s.mgmt := rfl
@[simp] theorem modLane_host (l : Nat) (f : Lane → Lane) : (s.modLane l f).host = s.host := rfl
@[simp] theorem modLane_sent (l : Nat) (f : Lane → Lane) : (s.modLane l f).sent = s.sent := rfl
@[simp] theorem modLane_frees (l : Nat) (f : Lane → Lane) : (s.modLane l f).frees = s.frees := rfl

@[simp] theorem modAdc_pending (n : Nat) (f : Adc → Adc) : (s.modAdc n f).pending = s.pending := rfl
@[simp] theorem modAdc_regs (n : Nat) (f : Adc → Adc) : (s.modAdc n f).regs = s.regs := rfl
@[simp] theorem modAdc_chans (n : Nat) (f : Adc → Adc) : (s.modAdc n f).chans = s.chans := rfl
@[simp] theorem modAdc_ctl (n : Nat) (f : Adc → Adc) : (s.modAdc n f).ctl = s.ctl := rfl
@[simp] theorem modAdc_power (n : Nat) (f : Adc → Adc) : (s.modAdc n f).power = s.power := rfl
@[simp] theorem modAdc_ret (n : Nat) (f : Adc → Adc) : (s.modAdc n f).ret = s.ret := rfl
@[simp] theorem modAdc_fuses (n : Nat) (f : Adc → Adc) : (s.modAdc n f).fuses = s.fuses := rfl
@[simp] theorem modAdc_boot (n : Nat) (f : Adc → Adc) : (s.modAdc n f).boot = s.boot := rfl
@[simp] theorem modAdc_fen (n : Nat) (f : Adc → Adc) : (s.modAdc n f).fen = s.fen := rfl
@[simp] theorem modAdc_fenChk (n : Nat) (f : Adc → Adc) : (s.modAdc n f).fenChk = s.fenChk := rfl
@[simp] theorem modAdc_fenFix (n : Nat) (f : Adc → Adc) : (s.modAdc n f).fenFix = s.fenFix := rfl
@[simp] theorem modAdc_near (n : Nat) (f : Adc → Adc) : (s.modAdc n f).near = s.near := rfl
@[simp] theorem modAdc_troughs (n : Nat) (f : Adc → Adc) : (s.modAdc n f).troughs = s.troughs := rfl
@[simp] theorem modAdc_mirrorQ (n : Nat) (f : Adc → Adc) : (s.modAdc n f).mirrorQ = s.mirrorQ := rfl
@[simp] theorem modAdc_outBits (n : Nat) (f : Adc → Adc) : (s.modAdc n f).outBits = s.outBits := rfl
@[simp] theorem modAdc_yard (n : Nat) (f : Adc → Adc) : (s.modAdc n f).yard = s.yard := rfl
@[simp] theorem modAdc_grooms (n : Nat) (f : Adc → Adc) : (s.modAdc n f).grooms = s.grooms := rfl
@[simp] theorem modAdc_scratch (n : Nat) (f : Adc → Adc) : (s.modAdc n f).scratch = s.scratch := rfl
@[simp] theorem modAdc_stalls (n : Nat) (f : Adc → Adc) : (s.modAdc n f).stalls = s.stalls := rfl
@[simp] theorem modAdc_lanes (n : Nat) (f : Adc → Adc) : (s.modAdc n f).lanes = s.lanes := rfl
@[simp] theorem modAdc_ctxs (n : Nat) (f : Adc → Adc) : (s.modAdc n f).ctxs = s.ctxs := rfl
@[simp] theorem modAdc_baysServed (n : Nat) (f : Adc → Adc) : (s.modAdc n f).baysServed = s.baysServed := rfl
@[simp] theorem modAdc_crib (n : Nat) (f : Adc → Adc) : (s.modAdc n f).crib = s.crib := rfl
@[simp] theorem modAdc_cribLoad (n : Nat) (f : Adc → Adc) : (s.modAdc n f).cribLoad = s.cribLoad := rfl
@[simp] theorem modAdc_paddock (n : Nat) (f : Adc → Adc) : (s.modAdc n f).paddock = s.paddock := rfl
@[simp] theorem modAdc_padLoad (n : Nat) (f : Adc → Adc) : (s.modAdc n f).padLoad = s.padLoad := rfl
@[simp] theorem modAdc_herds (n : Nat) (f : Adc → Adc) : (s.modAdc n f).herds = s.herds := rfl
@[simp] theorem modAdc_vsts (n : Nat) (f : Adc → Adc) : (s.modAdc n f).vsts = s.vsts := rfl
@[simp] theorem modAdc_rings (n : Nat) (f : Adc → Adc) : (s.modAdc n f).rings = s.rings := rfl
@[simp] theorem modAdc_mirrors (n : Nat) (f : Adc → Adc) : (s.modAdc n f).mirrors = s.mirrors := rfl
@[simp] theorem modAdc_pair (n : Nat) (f : Adc → Adc) : (s.modAdc n f).pair = s.pair := rfl
@[simp] theorem modAdc_tb (n : Nat) (f : Adc → Adc) : (s.modAdc n f).tb = s.tb := rfl
@[simp] theorem modAdc_outs (n : Nat) (f : Adc → Adc) : (s.modAdc n f).outs = s.outs := rfl
@[simp] theorem modAdc_wpLists (n : Nat) (f : Adc → Adc) : (s.modAdc n f).wpLists = s.wpLists := rfl
@[simp] theorem modAdc_wpMem (n : Nat) (f : Adc → Adc) : (s.modAdc n f).wpMem = s.wpMem := rfl
@[simp] theorem modAdc_samples (n : Nat) (f : Adc → Adc) : (s.modAdc n f).samples = s.samples := rfl
@[simp] theorem modAdc_fld (n : Nat) (f : Adc → Adc) : (s.modAdc n f).fld = s.fld := rfl
@[simp] theorem modAdc_mgmt (n : Nat) (f : Adc → Adc) : (s.modAdc n f).mgmt = s.mgmt := rfl
@[simp] theorem modAdc_host (n : Nat) (f : Adc → Adc) : (s.modAdc n f).host = s.host := rfl
@[simp] theorem modAdc_sent (n : Nat) (f : Adc → Adc) : (s.modAdc n f).sent = s.sent := rfl
@[simp] theorem modAdc_frees (n : Nat) (f : Adc → Adc) : (s.modAdc n f).frees = s.frees := rfl

@[simp] theorem modVst_pending (v : Nat) (f : Vst → Vst) : (s.modVst v f).pending = s.pending := rfl
@[simp] theorem modVst_regs (v : Nat) (f : Vst → Vst) : (s.modVst v f).regs = s.regs := rfl
@[simp] theorem modVst_chans (v : Nat) (f : Vst → Vst) : (s.modVst v f).chans = s.chans := rfl
@[simp] theorem modVst_ctl (v : Nat) (f : Vst → Vst) : (s.modVst v f).ctl = s.ctl := rfl
@[simp] theorem modVst_power (v : Nat) (f : Vst → Vst) : (s.modVst v f).power = s.power := rfl
@[simp] theorem modVst_ret (v : Nat) (f : Vst → Vst) : (s.modVst v f).ret = s.ret := rfl
@[simp] theorem modVst_fuses (v : Nat) (f : Vst → Vst) : (s.modVst v f).fuses = s.fuses := rfl
@[simp] theorem modVst_boot (v : Nat) (f : Vst → Vst) : (s.modVst v f).boot = s.boot := rfl
@[simp] theorem modVst_fen (v : Nat) (f : Vst → Vst) : (s.modVst v f).fen = s.fen := rfl
@[simp] theorem modVst_fenChk (v : Nat) (f : Vst → Vst) : (s.modVst v f).fenChk = s.fenChk := rfl
@[simp] theorem modVst_fenFix (v : Nat) (f : Vst → Vst) : (s.modVst v f).fenFix = s.fenFix := rfl
@[simp] theorem modVst_near (v : Nat) (f : Vst → Vst) : (s.modVst v f).near = s.near := rfl
@[simp] theorem modVst_troughs (v : Nat) (f : Vst → Vst) : (s.modVst v f).troughs = s.troughs := rfl
@[simp] theorem modVst_mirrorQ (v : Nat) (f : Vst → Vst) : (s.modVst v f).mirrorQ = s.mirrorQ := rfl
@[simp] theorem modVst_outBits (v : Nat) (f : Vst → Vst) : (s.modVst v f).outBits = s.outBits := rfl
@[simp] theorem modVst_yard (v : Nat) (f : Vst → Vst) : (s.modVst v f).yard = s.yard := rfl
@[simp] theorem modVst_grooms (v : Nat) (f : Vst → Vst) : (s.modVst v f).grooms = s.grooms := rfl
@[simp] theorem modVst_scratch (v : Nat) (f : Vst → Vst) : (s.modVst v f).scratch = s.scratch := rfl
@[simp] theorem modVst_stalls (v : Nat) (f : Vst → Vst) : (s.modVst v f).stalls = s.stalls := rfl
@[simp] theorem modVst_lanes (v : Nat) (f : Vst → Vst) : (s.modVst v f).lanes = s.lanes := rfl
@[simp] theorem modVst_ctxs (v : Nat) (f : Vst → Vst) : (s.modVst v f).ctxs = s.ctxs := rfl
@[simp] theorem modVst_baysServed (v : Nat) (f : Vst → Vst) : (s.modVst v f).baysServed = s.baysServed := rfl
@[simp] theorem modVst_crib (v : Nat) (f : Vst → Vst) : (s.modVst v f).crib = s.crib := rfl
@[simp] theorem modVst_cribLoad (v : Nat) (f : Vst → Vst) : (s.modVst v f).cribLoad = s.cribLoad := rfl
@[simp] theorem modVst_paddock (v : Nat) (f : Vst → Vst) : (s.modVst v f).paddock = s.paddock := rfl
@[simp] theorem modVst_padLoad (v : Nat) (f : Vst → Vst) : (s.modVst v f).padLoad = s.padLoad := rfl
@[simp] theorem modVst_herds (v : Nat) (f : Vst → Vst) : (s.modVst v f).herds = s.herds := rfl
@[simp] theorem modVst_adcs (v : Nat) (f : Vst → Vst) : (s.modVst v f).adcs = s.adcs := rfl
@[simp] theorem modVst_rings (v : Nat) (f : Vst → Vst) : (s.modVst v f).rings = s.rings := rfl
@[simp] theorem modVst_mirrors (v : Nat) (f : Vst → Vst) : (s.modVst v f).mirrors = s.mirrors := rfl
@[simp] theorem modVst_pair (v : Nat) (f : Vst → Vst) : (s.modVst v f).pair = s.pair := rfl
@[simp] theorem modVst_tb (v : Nat) (f : Vst → Vst) : (s.modVst v f).tb = s.tb := rfl
@[simp] theorem modVst_outs (v : Nat) (f : Vst → Vst) : (s.modVst v f).outs = s.outs := rfl
@[simp] theorem modVst_wpLists (v : Nat) (f : Vst → Vst) : (s.modVst v f).wpLists = s.wpLists := rfl
@[simp] theorem modVst_wpMem (v : Nat) (f : Vst → Vst) : (s.modVst v f).wpMem = s.wpMem := rfl
@[simp] theorem modVst_samples (v : Nat) (f : Vst → Vst) : (s.modVst v f).samples = s.samples := rfl
@[simp] theorem modVst_fld (v : Nat) (f : Vst → Vst) : (s.modVst v f).fld = s.fld := rfl
@[simp] theorem modVst_mgmt (v : Nat) (f : Vst → Vst) : (s.modVst v f).mgmt = s.mgmt := rfl
@[simp] theorem modVst_host (v : Nat) (f : Vst → Vst) : (s.modVst v f).host = s.host := rfl
@[simp] theorem modVst_sent (v : Nat) (f : Vst → Vst) : (s.modVst v f).sent = s.sent := rfl
@[simp] theorem modVst_frees (v : Nat) (f : Vst → Vst) : (s.modVst v f).frees = s.frees := rfl

@[simp] theorem setHerd_pending (h : Nat) (x : Herd) : (s.setHerd h x).pending = s.pending := rfl
@[simp] theorem setHerd_regs (h : Nat) (x : Herd) : (s.setHerd h x).regs = s.regs := rfl
@[simp] theorem setHerd_chans (h : Nat) (x : Herd) : (s.setHerd h x).chans = s.chans := rfl
@[simp] theorem setHerd_ctl (h : Nat) (x : Herd) : (s.setHerd h x).ctl = s.ctl := rfl
@[simp] theorem setHerd_power (h : Nat) (x : Herd) : (s.setHerd h x).power = s.power := rfl
@[simp] theorem setHerd_ret (h : Nat) (x : Herd) : (s.setHerd h x).ret = s.ret := rfl
@[simp] theorem setHerd_fuses (h : Nat) (x : Herd) : (s.setHerd h x).fuses = s.fuses := rfl
@[simp] theorem setHerd_boot (h : Nat) (x : Herd) : (s.setHerd h x).boot = s.boot := rfl
@[simp] theorem setHerd_fen (h : Nat) (x : Herd) : (s.setHerd h x).fen = s.fen := rfl
@[simp] theorem setHerd_fenChk (h : Nat) (x : Herd) : (s.setHerd h x).fenChk = s.fenChk := rfl
@[simp] theorem setHerd_fenFix (h : Nat) (x : Herd) : (s.setHerd h x).fenFix = s.fenFix := rfl
@[simp] theorem setHerd_near (h : Nat) (x : Herd) : (s.setHerd h x).near = s.near := rfl
@[simp] theorem setHerd_troughs (h : Nat) (x : Herd) : (s.setHerd h x).troughs = s.troughs := rfl
@[simp] theorem setHerd_mirrorQ (h : Nat) (x : Herd) : (s.setHerd h x).mirrorQ = s.mirrorQ := rfl
@[simp] theorem setHerd_outBits (h : Nat) (x : Herd) : (s.setHerd h x).outBits = s.outBits := rfl
@[simp] theorem setHerd_yard (h : Nat) (x : Herd) : (s.setHerd h x).yard = s.yard := rfl
@[simp] theorem setHerd_grooms (h : Nat) (x : Herd) : (s.setHerd h x).grooms = s.grooms := rfl
@[simp] theorem setHerd_scratch (h : Nat) (x : Herd) : (s.setHerd h x).scratch = s.scratch := rfl
@[simp] theorem setHerd_stalls (h : Nat) (x : Herd) : (s.setHerd h x).stalls = s.stalls := rfl
@[simp] theorem setHerd_lanes (h : Nat) (x : Herd) : (s.setHerd h x).lanes = s.lanes := rfl
@[simp] theorem setHerd_ctxs (h : Nat) (x : Herd) : (s.setHerd h x).ctxs = s.ctxs := rfl
@[simp] theorem setHerd_baysServed (h : Nat) (x : Herd) : (s.setHerd h x).baysServed = s.baysServed := rfl
@[simp] theorem setHerd_crib (h : Nat) (x : Herd) : (s.setHerd h x).crib = s.crib := rfl
@[simp] theorem setHerd_cribLoad (h : Nat) (x : Herd) : (s.setHerd h x).cribLoad = s.cribLoad := rfl
@[simp] theorem setHerd_paddock (h : Nat) (x : Herd) : (s.setHerd h x).paddock = s.paddock := rfl
@[simp] theorem setHerd_padLoad (h : Nat) (x : Herd) : (s.setHerd h x).padLoad = s.padLoad := rfl
@[simp] theorem setHerd_adcs (h : Nat) (x : Herd) : (s.setHerd h x).adcs = s.adcs := rfl
@[simp] theorem setHerd_vsts (h : Nat) (x : Herd) : (s.setHerd h x).vsts = s.vsts := rfl
@[simp] theorem setHerd_rings (h : Nat) (x : Herd) : (s.setHerd h x).rings = s.rings := rfl
@[simp] theorem setHerd_mirrors (h : Nat) (x : Herd) : (s.setHerd h x).mirrors = s.mirrors := rfl
@[simp] theorem setHerd_pair (h : Nat) (x : Herd) : (s.setHerd h x).pair = s.pair := rfl
@[simp] theorem setHerd_tb (h : Nat) (x : Herd) : (s.setHerd h x).tb = s.tb := rfl
@[simp] theorem setHerd_outs (h : Nat) (x : Herd) : (s.setHerd h x).outs = s.outs := rfl
@[simp] theorem setHerd_wpLists (h : Nat) (x : Herd) : (s.setHerd h x).wpLists = s.wpLists := rfl
@[simp] theorem setHerd_wpMem (h : Nat) (x : Herd) : (s.setHerd h x).wpMem = s.wpMem := rfl
@[simp] theorem setHerd_samples (h : Nat) (x : Herd) : (s.setHerd h x).samples = s.samples := rfl
@[simp] theorem setHerd_fld (h : Nat) (x : Herd) : (s.setHerd h x).fld = s.fld := rfl
@[simp] theorem setHerd_mgmt (h : Nat) (x : Herd) : (s.setHerd h x).mgmt = s.mgmt := rfl
@[simp] theorem setHerd_host (h : Nat) (x : Herd) : (s.setHerd h x).host = s.host := rfl
@[simp] theorem setHerd_sent (h : Nat) (x : Herd) : (s.setHerd h x).sent = s.sent := rfl
@[simp] theorem setHerd_frees (h : Nat) (x : Herd) : (s.setHerd h x).frees = s.frees := rfl

@[simp] theorem setSched_pending (o : Nat) (x : Sched) : (s.setSched o x).pending = s.pending := rfl
@[simp] theorem setSched_regs (o : Nat) (x : Sched) : (s.setSched o x).regs = s.regs := rfl
@[simp] theorem setSched_chans (o : Nat) (x : Sched) : (s.setSched o x).chans = s.chans := rfl
@[simp] theorem setSched_ctl (o : Nat) (x : Sched) : (s.setSched o x).ctl = s.ctl := rfl
@[simp] theorem setSched_power (o : Nat) (x : Sched) : (s.setSched o x).power = s.power := rfl
@[simp] theorem setSched_ret (o : Nat) (x : Sched) : (s.setSched o x).ret = s.ret := rfl
@[simp] theorem setSched_fuses (o : Nat) (x : Sched) : (s.setSched o x).fuses = s.fuses := rfl
@[simp] theorem setSched_boot (o : Nat) (x : Sched) : (s.setSched o x).boot = s.boot := rfl
@[simp] theorem setSched_fen (o : Nat) (x : Sched) : (s.setSched o x).fen = s.fen := rfl
@[simp] theorem setSched_fenChk (o : Nat) (x : Sched) : (s.setSched o x).fenChk = s.fenChk := rfl
@[simp] theorem setSched_fenFix (o : Nat) (x : Sched) : (s.setSched o x).fenFix = s.fenFix := rfl
@[simp] theorem setSched_near (o : Nat) (x : Sched) : (s.setSched o x).near = s.near := rfl
@[simp] theorem setSched_troughs (o : Nat) (x : Sched) : (s.setSched o x).troughs = s.troughs := rfl
@[simp] theorem setSched_mirrorQ (o : Nat) (x : Sched) : (s.setSched o x).mirrorQ = s.mirrorQ := rfl
@[simp] theorem setSched_outBits (o : Nat) (x : Sched) : (s.setSched o x).outBits = s.outBits := rfl
@[simp] theorem setSched_yard (o : Nat) (x : Sched) : (s.setSched o x).yard = s.yard := rfl
@[simp] theorem setSched_grooms (o : Nat) (x : Sched) : (s.setSched o x).grooms = s.grooms := rfl
@[simp] theorem setSched_scratch (o : Nat) (x : Sched) : (s.setSched o x).scratch = s.scratch := rfl
@[simp] theorem setSched_stalls (o : Nat) (x : Sched) : (s.setSched o x).stalls = s.stalls := rfl
@[simp] theorem setSched_lanes (o : Nat) (x : Sched) : (s.setSched o x).lanes = s.lanes := rfl
@[simp] theorem setSched_ctxs (o : Nat) (x : Sched) : (s.setSched o x).ctxs = s.ctxs := rfl
@[simp] theorem setSched_baysServed (o : Nat) (x : Sched) : (s.setSched o x).baysServed = s.baysServed := rfl
@[simp] theorem setSched_crib (o : Nat) (x : Sched) : (s.setSched o x).crib = s.crib := rfl
@[simp] theorem setSched_cribLoad (o : Nat) (x : Sched) : (s.setSched o x).cribLoad = s.cribLoad := rfl
@[simp] theorem setSched_paddock (o : Nat) (x : Sched) : (s.setSched o x).paddock = s.paddock := rfl
@[simp] theorem setSched_padLoad (o : Nat) (x : Sched) : (s.setSched o x).padLoad = s.padLoad := rfl
@[simp] theorem setSched_herds (o : Nat) (x : Sched) : (s.setSched o x).herds = s.herds := rfl
@[simp] theorem setSched_adcs (o : Nat) (x : Sched) : (s.setSched o x).adcs = s.adcs := rfl
@[simp] theorem setSched_vsts (o : Nat) (x : Sched) : (s.setSched o x).vsts = s.vsts := rfl
@[simp] theorem setSched_rings (o : Nat) (x : Sched) : (s.setSched o x).rings = s.rings := rfl
@[simp] theorem setSched_mirrors (o : Nat) (x : Sched) : (s.setSched o x).mirrors = s.mirrors := rfl
@[simp] theorem setSched_pair (o : Nat) (x : Sched) : (s.setSched o x).pair = s.pair := rfl
@[simp] theorem setSched_tb (o : Nat) (x : Sched) : (s.setSched o x).tb = s.tb := rfl
@[simp] theorem setSched_wpLists (o : Nat) (x : Sched) : (s.setSched o x).wpLists = s.wpLists := rfl
@[simp] theorem setSched_wpMem (o : Nat) (x : Sched) : (s.setSched o x).wpMem = s.wpMem := rfl
@[simp] theorem setSched_samples (o : Nat) (x : Sched) : (s.setSched o x).samples = s.samples := rfl
@[simp] theorem setSched_fld (o : Nat) (x : Sched) : (s.setSched o x).fld = s.fld := rfl
@[simp] theorem setSched_mgmt (o : Nat) (x : Sched) : (s.setSched o x).mgmt = s.mgmt := rfl
@[simp] theorem setSched_host (o : Nat) (x : Sched) : (s.setSched o x).host = s.host := rfl
@[simp] theorem setSched_sent (o : Nat) (x : Sched) : (s.setSched o x).sent = s.sent := rfl
@[simp] theorem setSched_frees (o : Nat) (x : Sched) : (s.setSched o x).frees = s.frees := rfl

@[simp] theorem setAxis_pending (n : Nat) (x : FieldAxis) : (s.setAxis n x).pending = s.pending := rfl
@[simp] theorem setAxis_regs (n : Nat) (x : FieldAxis) : (s.setAxis n x).regs = s.regs := rfl
@[simp] theorem setAxis_chans (n : Nat) (x : FieldAxis) : (s.setAxis n x).chans = s.chans := rfl
@[simp] theorem setAxis_ctl (n : Nat) (x : FieldAxis) : (s.setAxis n x).ctl = s.ctl := rfl
@[simp] theorem setAxis_power (n : Nat) (x : FieldAxis) : (s.setAxis n x).power = s.power := rfl
@[simp] theorem setAxis_ret (n : Nat) (x : FieldAxis) : (s.setAxis n x).ret = s.ret := rfl
@[simp] theorem setAxis_fuses (n : Nat) (x : FieldAxis) : (s.setAxis n x).fuses = s.fuses := rfl
@[simp] theorem setAxis_boot (n : Nat) (x : FieldAxis) : (s.setAxis n x).boot = s.boot := rfl
@[simp] theorem setAxis_fen (n : Nat) (x : FieldAxis) : (s.setAxis n x).fen = s.fen := rfl
@[simp] theorem setAxis_fenChk (n : Nat) (x : FieldAxis) : (s.setAxis n x).fenChk = s.fenChk := rfl
@[simp] theorem setAxis_fenFix (n : Nat) (x : FieldAxis) : (s.setAxis n x).fenFix = s.fenFix := rfl
@[simp] theorem setAxis_near (n : Nat) (x : FieldAxis) : (s.setAxis n x).near = s.near := rfl
@[simp] theorem setAxis_troughs (n : Nat) (x : FieldAxis) : (s.setAxis n x).troughs = s.troughs := rfl
@[simp] theorem setAxis_mirrorQ (n : Nat) (x : FieldAxis) : (s.setAxis n x).mirrorQ = s.mirrorQ := rfl
@[simp] theorem setAxis_outBits (n : Nat) (x : FieldAxis) : (s.setAxis n x).outBits = s.outBits := rfl
@[simp] theorem setAxis_yard (n : Nat) (x : FieldAxis) : (s.setAxis n x).yard = s.yard := rfl
@[simp] theorem setAxis_grooms (n : Nat) (x : FieldAxis) : (s.setAxis n x).grooms = s.grooms := rfl
@[simp] theorem setAxis_scratch (n : Nat) (x : FieldAxis) : (s.setAxis n x).scratch = s.scratch := rfl
@[simp] theorem setAxis_stalls (n : Nat) (x : FieldAxis) : (s.setAxis n x).stalls = s.stalls := rfl
@[simp] theorem setAxis_lanes (n : Nat) (x : FieldAxis) : (s.setAxis n x).lanes = s.lanes := rfl
@[simp] theorem setAxis_ctxs (n : Nat) (x : FieldAxis) : (s.setAxis n x).ctxs = s.ctxs := rfl
@[simp] theorem setAxis_baysServed (n : Nat) (x : FieldAxis) : (s.setAxis n x).baysServed = s.baysServed := rfl
@[simp] theorem setAxis_crib (n : Nat) (x : FieldAxis) : (s.setAxis n x).crib = s.crib := rfl
@[simp] theorem setAxis_cribLoad (n : Nat) (x : FieldAxis) : (s.setAxis n x).cribLoad = s.cribLoad := rfl
@[simp] theorem setAxis_paddock (n : Nat) (x : FieldAxis) : (s.setAxis n x).paddock = s.paddock := rfl
@[simp] theorem setAxis_padLoad (n : Nat) (x : FieldAxis) : (s.setAxis n x).padLoad = s.padLoad := rfl
@[simp] theorem setAxis_herds (n : Nat) (x : FieldAxis) : (s.setAxis n x).herds = s.herds := rfl
@[simp] theorem setAxis_adcs (n : Nat) (x : FieldAxis) : (s.setAxis n x).adcs = s.adcs := rfl
@[simp] theorem setAxis_vsts (n : Nat) (x : FieldAxis) : (s.setAxis n x).vsts = s.vsts := rfl
@[simp] theorem setAxis_rings (n : Nat) (x : FieldAxis) : (s.setAxis n x).rings = s.rings := rfl
@[simp] theorem setAxis_mirrors (n : Nat) (x : FieldAxis) : (s.setAxis n x).mirrors = s.mirrors := rfl
@[simp] theorem setAxis_pair (n : Nat) (x : FieldAxis) : (s.setAxis n x).pair = s.pair := rfl
@[simp] theorem setAxis_tb (n : Nat) (x : FieldAxis) : (s.setAxis n x).tb = s.tb := rfl
@[simp] theorem setAxis_outs (n : Nat) (x : FieldAxis) : (s.setAxis n x).outs = s.outs := rfl
@[simp] theorem setAxis_wpLists (n : Nat) (x : FieldAxis) : (s.setAxis n x).wpLists = s.wpLists := rfl
@[simp] theorem setAxis_wpMem (n : Nat) (x : FieldAxis) : (s.setAxis n x).wpMem = s.wpMem := rfl
@[simp] theorem setAxis_samples (n : Nat) (x : FieldAxis) : (s.setAxis n x).samples = s.samples := rfl
@[simp] theorem setAxis_mgmt (n : Nat) (x : FieldAxis) : (s.setAxis n x).mgmt = s.mgmt := rfl
@[simp] theorem setAxis_host (n : Nat) (x : FieldAxis) : (s.setAxis n x).host = s.host := rfl
@[simp] theorem setAxis_sent (n : Nat) (x : FieldAxis) : (s.setAxis n x).sent = s.sent := rfl
@[simp] theorem setAxis_frees (n : Nat) (x : FieldAxis) : (s.setAxis n x).frees = s.frees := rfl

@[simp] theorem setFin_pending (i : Nat) (x : FieldIn) : (s.setFin i x).pending = s.pending := rfl
@[simp] theorem setFin_regs (i : Nat) (x : FieldIn) : (s.setFin i x).regs = s.regs := rfl
@[simp] theorem setFin_chans (i : Nat) (x : FieldIn) : (s.setFin i x).chans = s.chans := rfl
@[simp] theorem setFin_ctl (i : Nat) (x : FieldIn) : (s.setFin i x).ctl = s.ctl := rfl
@[simp] theorem setFin_power (i : Nat) (x : FieldIn) : (s.setFin i x).power = s.power := rfl
@[simp] theorem setFin_ret (i : Nat) (x : FieldIn) : (s.setFin i x).ret = s.ret := rfl
@[simp] theorem setFin_fuses (i : Nat) (x : FieldIn) : (s.setFin i x).fuses = s.fuses := rfl
@[simp] theorem setFin_boot (i : Nat) (x : FieldIn) : (s.setFin i x).boot = s.boot := rfl
@[simp] theorem setFin_fen (i : Nat) (x : FieldIn) : (s.setFin i x).fen = s.fen := rfl
@[simp] theorem setFin_fenChk (i : Nat) (x : FieldIn) : (s.setFin i x).fenChk = s.fenChk := rfl
@[simp] theorem setFin_fenFix (i : Nat) (x : FieldIn) : (s.setFin i x).fenFix = s.fenFix := rfl
@[simp] theorem setFin_near (i : Nat) (x : FieldIn) : (s.setFin i x).near = s.near := rfl
@[simp] theorem setFin_troughs (i : Nat) (x : FieldIn) : (s.setFin i x).troughs = s.troughs := rfl
@[simp] theorem setFin_mirrorQ (i : Nat) (x : FieldIn) : (s.setFin i x).mirrorQ = s.mirrorQ := rfl
@[simp] theorem setFin_outBits (i : Nat) (x : FieldIn) : (s.setFin i x).outBits = s.outBits := rfl
@[simp] theorem setFin_yard (i : Nat) (x : FieldIn) : (s.setFin i x).yard = s.yard := rfl
@[simp] theorem setFin_grooms (i : Nat) (x : FieldIn) : (s.setFin i x).grooms = s.grooms := rfl
@[simp] theorem setFin_scratch (i : Nat) (x : FieldIn) : (s.setFin i x).scratch = s.scratch := rfl
@[simp] theorem setFin_stalls (i : Nat) (x : FieldIn) : (s.setFin i x).stalls = s.stalls := rfl
@[simp] theorem setFin_lanes (i : Nat) (x : FieldIn) : (s.setFin i x).lanes = s.lanes := rfl
@[simp] theorem setFin_ctxs (i : Nat) (x : FieldIn) : (s.setFin i x).ctxs = s.ctxs := rfl
@[simp] theorem setFin_baysServed (i : Nat) (x : FieldIn) : (s.setFin i x).baysServed = s.baysServed := rfl
@[simp] theorem setFin_crib (i : Nat) (x : FieldIn) : (s.setFin i x).crib = s.crib := rfl
@[simp] theorem setFin_cribLoad (i : Nat) (x : FieldIn) : (s.setFin i x).cribLoad = s.cribLoad := rfl
@[simp] theorem setFin_paddock (i : Nat) (x : FieldIn) : (s.setFin i x).paddock = s.paddock := rfl
@[simp] theorem setFin_padLoad (i : Nat) (x : FieldIn) : (s.setFin i x).padLoad = s.padLoad := rfl
@[simp] theorem setFin_herds (i : Nat) (x : FieldIn) : (s.setFin i x).herds = s.herds := rfl
@[simp] theorem setFin_adcs (i : Nat) (x : FieldIn) : (s.setFin i x).adcs = s.adcs := rfl
@[simp] theorem setFin_vsts (i : Nat) (x : FieldIn) : (s.setFin i x).vsts = s.vsts := rfl
@[simp] theorem setFin_rings (i : Nat) (x : FieldIn) : (s.setFin i x).rings = s.rings := rfl
@[simp] theorem setFin_mirrors (i : Nat) (x : FieldIn) : (s.setFin i x).mirrors = s.mirrors := rfl
@[simp] theorem setFin_pair (i : Nat) (x : FieldIn) : (s.setFin i x).pair = s.pair := rfl
@[simp] theorem setFin_tb (i : Nat) (x : FieldIn) : (s.setFin i x).tb = s.tb := rfl
@[simp] theorem setFin_outs (i : Nat) (x : FieldIn) : (s.setFin i x).outs = s.outs := rfl
@[simp] theorem setFin_wpLists (i : Nat) (x : FieldIn) : (s.setFin i x).wpLists = s.wpLists := rfl
@[simp] theorem setFin_wpMem (i : Nat) (x : FieldIn) : (s.setFin i x).wpMem = s.wpMem := rfl
@[simp] theorem setFin_samples (i : Nat) (x : FieldIn) : (s.setFin i x).samples = s.samples := rfl
@[simp] theorem setFin_mgmt (i : Nat) (x : FieldIn) : (s.setFin i x).mgmt = s.mgmt := rfl
@[simp] theorem setFin_host (i : Nat) (x : FieldIn) : (s.setFin i x).host = s.host := rfl
@[simp] theorem setFin_sent (i : Nat) (x : FieldIn) : (s.setFin i x).sent = s.sent := rfl
@[simp] theorem setFin_frees (i : Nat) (x : FieldIn) : (s.setFin i x).frees = s.frees := rfl

@[simp] theorem setFo_pending (k : Nat) (x : FieldOut) : (s.setFo k x).pending = s.pending := rfl
@[simp] theorem setFo_regs (k : Nat) (x : FieldOut) : (s.setFo k x).regs = s.regs := rfl
@[simp] theorem setFo_chans (k : Nat) (x : FieldOut) : (s.setFo k x).chans = s.chans := rfl
@[simp] theorem setFo_ctl (k : Nat) (x : FieldOut) : (s.setFo k x).ctl = s.ctl := rfl
@[simp] theorem setFo_power (k : Nat) (x : FieldOut) : (s.setFo k x).power = s.power := rfl
@[simp] theorem setFo_ret (k : Nat) (x : FieldOut) : (s.setFo k x).ret = s.ret := rfl
@[simp] theorem setFo_fuses (k : Nat) (x : FieldOut) : (s.setFo k x).fuses = s.fuses := rfl
@[simp] theorem setFo_boot (k : Nat) (x : FieldOut) : (s.setFo k x).boot = s.boot := rfl
@[simp] theorem setFo_fen (k : Nat) (x : FieldOut) : (s.setFo k x).fen = s.fen := rfl
@[simp] theorem setFo_fenChk (k : Nat) (x : FieldOut) : (s.setFo k x).fenChk = s.fenChk := rfl
@[simp] theorem setFo_fenFix (k : Nat) (x : FieldOut) : (s.setFo k x).fenFix = s.fenFix := rfl
@[simp] theorem setFo_near (k : Nat) (x : FieldOut) : (s.setFo k x).near = s.near := rfl
@[simp] theorem setFo_troughs (k : Nat) (x : FieldOut) : (s.setFo k x).troughs = s.troughs := rfl
@[simp] theorem setFo_mirrorQ (k : Nat) (x : FieldOut) : (s.setFo k x).mirrorQ = s.mirrorQ := rfl
@[simp] theorem setFo_outBits (k : Nat) (x : FieldOut) : (s.setFo k x).outBits = s.outBits := rfl
@[simp] theorem setFo_yard (k : Nat) (x : FieldOut) : (s.setFo k x).yard = s.yard := rfl
@[simp] theorem setFo_grooms (k : Nat) (x : FieldOut) : (s.setFo k x).grooms = s.grooms := rfl
@[simp] theorem setFo_scratch (k : Nat) (x : FieldOut) : (s.setFo k x).scratch = s.scratch := rfl
@[simp] theorem setFo_stalls (k : Nat) (x : FieldOut) : (s.setFo k x).stalls = s.stalls := rfl
@[simp] theorem setFo_lanes (k : Nat) (x : FieldOut) : (s.setFo k x).lanes = s.lanes := rfl
@[simp] theorem setFo_ctxs (k : Nat) (x : FieldOut) : (s.setFo k x).ctxs = s.ctxs := rfl
@[simp] theorem setFo_baysServed (k : Nat) (x : FieldOut) : (s.setFo k x).baysServed = s.baysServed := rfl
@[simp] theorem setFo_crib (k : Nat) (x : FieldOut) : (s.setFo k x).crib = s.crib := rfl
@[simp] theorem setFo_cribLoad (k : Nat) (x : FieldOut) : (s.setFo k x).cribLoad = s.cribLoad := rfl
@[simp] theorem setFo_paddock (k : Nat) (x : FieldOut) : (s.setFo k x).paddock = s.paddock := rfl
@[simp] theorem setFo_padLoad (k : Nat) (x : FieldOut) : (s.setFo k x).padLoad = s.padLoad := rfl
@[simp] theorem setFo_herds (k : Nat) (x : FieldOut) : (s.setFo k x).herds = s.herds := rfl
@[simp] theorem setFo_adcs (k : Nat) (x : FieldOut) : (s.setFo k x).adcs = s.adcs := rfl
@[simp] theorem setFo_vsts (k : Nat) (x : FieldOut) : (s.setFo k x).vsts = s.vsts := rfl
@[simp] theorem setFo_rings (k : Nat) (x : FieldOut) : (s.setFo k x).rings = s.rings := rfl
@[simp] theorem setFo_mirrors (k : Nat) (x : FieldOut) : (s.setFo k x).mirrors = s.mirrors := rfl
@[simp] theorem setFo_pair (k : Nat) (x : FieldOut) : (s.setFo k x).pair = s.pair := rfl
@[simp] theorem setFo_tb (k : Nat) (x : FieldOut) : (s.setFo k x).tb = s.tb := rfl
@[simp] theorem setFo_outs (k : Nat) (x : FieldOut) : (s.setFo k x).outs = s.outs := rfl
@[simp] theorem setFo_wpLists (k : Nat) (x : FieldOut) : (s.setFo k x).wpLists = s.wpLists := rfl
@[simp] theorem setFo_wpMem (k : Nat) (x : FieldOut) : (s.setFo k x).wpMem = s.wpMem := rfl
@[simp] theorem setFo_samples (k : Nat) (x : FieldOut) : (s.setFo k x).samples = s.samples := rfl
@[simp] theorem setFo_mgmt (k : Nat) (x : FieldOut) : (s.setFo k x).mgmt = s.mgmt := rfl
@[simp] theorem setFo_host (k : Nat) (x : FieldOut) : (s.setFo k x).host = s.host := rfl
@[simp] theorem setFo_sent (k : Nat) (x : FieldOut) : (s.setFo k x).sent = s.sent := rfl
@[simp] theorem setFo_frees (k : Nat) (x : FieldOut) : (s.setFo k x).frees = s.frees := rfl

@[simp] theorem modTag_pending (tag : Nat) (f : RTag → RTag) : (s.modTag tag f).pending = s.pending := rfl
@[simp] theorem modTag_regs (tag : Nat) (f : RTag → RTag) : (s.modTag tag f).regs = s.regs := rfl
@[simp] theorem modTag_chans (tag : Nat) (f : RTag → RTag) : (s.modTag tag f).chans = s.chans := rfl
@[simp] theorem modTag_ctl (tag : Nat) (f : RTag → RTag) : (s.modTag tag f).ctl = s.ctl := rfl
@[simp] theorem modTag_power (tag : Nat) (f : RTag → RTag) : (s.modTag tag f).power = s.power := rfl
@[simp] theorem modTag_ret (tag : Nat) (f : RTag → RTag) : (s.modTag tag f).ret = s.ret := rfl
@[simp] theorem modTag_fuses (tag : Nat) (f : RTag → RTag) : (s.modTag tag f).fuses = s.fuses := rfl
@[simp] theorem modTag_boot (tag : Nat) (f : RTag → RTag) : (s.modTag tag f).boot = s.boot := rfl
@[simp] theorem modTag_fen (tag : Nat) (f : RTag → RTag) : (s.modTag tag f).fen = s.fen := rfl
@[simp] theorem modTag_fenChk (tag : Nat) (f : RTag → RTag) : (s.modTag tag f).fenChk = s.fenChk := rfl
@[simp] theorem modTag_fenFix (tag : Nat) (f : RTag → RTag) : (s.modTag tag f).fenFix = s.fenFix := rfl
@[simp] theorem modTag_near (tag : Nat) (f : RTag → RTag) : (s.modTag tag f).near = s.near := rfl
@[simp] theorem modTag_troughs (tag : Nat) (f : RTag → RTag) : (s.modTag tag f).troughs = s.troughs := rfl
@[simp] theorem modTag_mirrorQ (tag : Nat) (f : RTag → RTag) : (s.modTag tag f).mirrorQ = s.mirrorQ := rfl
@[simp] theorem modTag_outBits (tag : Nat) (f : RTag → RTag) : (s.modTag tag f).outBits = s.outBits := rfl
@[simp] theorem modTag_yard (tag : Nat) (f : RTag → RTag) : (s.modTag tag f).yard = s.yard := rfl
@[simp] theorem modTag_grooms (tag : Nat) (f : RTag → RTag) : (s.modTag tag f).grooms = s.grooms := rfl
@[simp] theorem modTag_scratch (tag : Nat) (f : RTag → RTag) : (s.modTag tag f).scratch = s.scratch := rfl
@[simp] theorem modTag_stalls (tag : Nat) (f : RTag → RTag) : (s.modTag tag f).stalls = s.stalls := rfl
@[simp] theorem modTag_lanes (tag : Nat) (f : RTag → RTag) : (s.modTag tag f).lanes = s.lanes := rfl
@[simp] theorem modTag_ctxs (tag : Nat) (f : RTag → RTag) : (s.modTag tag f).ctxs = s.ctxs := rfl
@[simp] theorem modTag_baysServed (tag : Nat) (f : RTag → RTag) : (s.modTag tag f).baysServed = s.baysServed := rfl
@[simp] theorem modTag_crib (tag : Nat) (f : RTag → RTag) : (s.modTag tag f).crib = s.crib := rfl
@[simp] theorem modTag_cribLoad (tag : Nat) (f : RTag → RTag) : (s.modTag tag f).cribLoad = s.cribLoad := rfl
@[simp] theorem modTag_paddock (tag : Nat) (f : RTag → RTag) : (s.modTag tag f).paddock = s.paddock := rfl
@[simp] theorem modTag_padLoad (tag : Nat) (f : RTag → RTag) : (s.modTag tag f).padLoad = s.padLoad := rfl
@[simp] theorem modTag_herds (tag : Nat) (f : RTag → RTag) : (s.modTag tag f).herds = s.herds := rfl
@[simp] theorem modTag_adcs (tag : Nat) (f : RTag → RTag) : (s.modTag tag f).adcs = s.adcs := rfl
@[simp] theorem modTag_vsts (tag : Nat) (f : RTag → RTag) : (s.modTag tag f).vsts = s.vsts := rfl
@[simp] theorem modTag_rings (tag : Nat) (f : RTag → RTag) : (s.modTag tag f).rings = s.rings := rfl
@[simp] theorem modTag_mirrors (tag : Nat) (f : RTag → RTag) : (s.modTag tag f).mirrors = s.mirrors := rfl
@[simp] theorem modTag_pair (tag : Nat) (f : RTag → RTag) : (s.modTag tag f).pair = s.pair := rfl
@[simp] theorem modTag_tb (tag : Nat) (f : RTag → RTag) : (s.modTag tag f).tb = s.tb := rfl
@[simp] theorem modTag_outs (tag : Nat) (f : RTag → RTag) : (s.modTag tag f).outs = s.outs := rfl
@[simp] theorem modTag_wpLists (tag : Nat) (f : RTag → RTag) : (s.modTag tag f).wpLists = s.wpLists := rfl
@[simp] theorem modTag_wpMem (tag : Nat) (f : RTag → RTag) : (s.modTag tag f).wpMem = s.wpMem := rfl
@[simp] theorem modTag_samples (tag : Nat) (f : RTag → RTag) : (s.modTag tag f).samples = s.samples := rfl
@[simp] theorem modTag_fld (tag : Nat) (f : RTag → RTag) : (s.modTag tag f).fld = s.fld := rfl
@[simp] theorem modTag_mgmt (tag : Nat) (f : RTag → RTag) : (s.modTag tag f).mgmt = s.mgmt := rfl
@[simp] theorem modTag_sent (tag : Nat) (f : RTag → RTag) : (s.modTag tag f).sent = s.sent := rfl
@[simp] theorem modTag_frees (tag : Nat) (f : RTag → RTag) : (s.modTag tag f).frees = s.frees := rfl

@[simp] theorem setVbat_pending (mv : Nat) : (s.setVbat mv).pending = s.pending := rfl
@[simp] theorem setVbat_regs (mv : Nat) : (s.setVbat mv).regs = s.regs := rfl
@[simp] theorem setVbat_chans (mv : Nat) : (s.setVbat mv).chans = s.chans := rfl
@[simp] theorem setVbat_ctl (mv : Nat) : (s.setVbat mv).ctl = s.ctl := rfl
@[simp] theorem setVbat_ret (mv : Nat) : (s.setVbat mv).ret = s.ret := rfl
@[simp] theorem setVbat_fuses (mv : Nat) : (s.setVbat mv).fuses = s.fuses := rfl
@[simp] theorem setVbat_boot (mv : Nat) : (s.setVbat mv).boot = s.boot := rfl
@[simp] theorem setVbat_fen (mv : Nat) : (s.setVbat mv).fen = s.fen := rfl
@[simp] theorem setVbat_fenChk (mv : Nat) : (s.setVbat mv).fenChk = s.fenChk := rfl
@[simp] theorem setVbat_fenFix (mv : Nat) : (s.setVbat mv).fenFix = s.fenFix := rfl
@[simp] theorem setVbat_near (mv : Nat) : (s.setVbat mv).near = s.near := rfl
@[simp] theorem setVbat_troughs (mv : Nat) : (s.setVbat mv).troughs = s.troughs := rfl
@[simp] theorem setVbat_mirrorQ (mv : Nat) : (s.setVbat mv).mirrorQ = s.mirrorQ := rfl
@[simp] theorem setVbat_outBits (mv : Nat) : (s.setVbat mv).outBits = s.outBits := rfl
@[simp] theorem setVbat_yard (mv : Nat) : (s.setVbat mv).yard = s.yard := rfl
@[simp] theorem setVbat_grooms (mv : Nat) : (s.setVbat mv).grooms = s.grooms := rfl
@[simp] theorem setVbat_scratch (mv : Nat) : (s.setVbat mv).scratch = s.scratch := rfl
@[simp] theorem setVbat_stalls (mv : Nat) : (s.setVbat mv).stalls = s.stalls := rfl
@[simp] theorem setVbat_lanes (mv : Nat) : (s.setVbat mv).lanes = s.lanes := rfl
@[simp] theorem setVbat_ctxs (mv : Nat) : (s.setVbat mv).ctxs = s.ctxs := rfl
@[simp] theorem setVbat_baysServed (mv : Nat) : (s.setVbat mv).baysServed = s.baysServed := rfl
@[simp] theorem setVbat_crib (mv : Nat) : (s.setVbat mv).crib = s.crib := rfl
@[simp] theorem setVbat_cribLoad (mv : Nat) : (s.setVbat mv).cribLoad = s.cribLoad := rfl
@[simp] theorem setVbat_paddock (mv : Nat) : (s.setVbat mv).paddock = s.paddock := rfl
@[simp] theorem setVbat_padLoad (mv : Nat) : (s.setVbat mv).padLoad = s.padLoad := rfl
@[simp] theorem setVbat_herds (mv : Nat) : (s.setVbat mv).herds = s.herds := rfl
@[simp] theorem setVbat_adcs (mv : Nat) : (s.setVbat mv).adcs = s.adcs := rfl
@[simp] theorem setVbat_vsts (mv : Nat) : (s.setVbat mv).vsts = s.vsts := rfl
@[simp] theorem setVbat_rings (mv : Nat) : (s.setVbat mv).rings = s.rings := rfl
@[simp] theorem setVbat_mirrors (mv : Nat) : (s.setVbat mv).mirrors = s.mirrors := rfl
@[simp] theorem setVbat_pair (mv : Nat) : (s.setVbat mv).pair = s.pair := rfl
@[simp] theorem setVbat_tb (mv : Nat) : (s.setVbat mv).tb = s.tb := rfl
@[simp] theorem setVbat_outs (mv : Nat) : (s.setVbat mv).outs = s.outs := rfl
@[simp] theorem setVbat_wpLists (mv : Nat) : (s.setVbat mv).wpLists = s.wpLists := rfl
@[simp] theorem setVbat_wpMem (mv : Nat) : (s.setVbat mv).wpMem = s.wpMem := rfl
@[simp] theorem setVbat_samples (mv : Nat) : (s.setVbat mv).samples = s.samples := rfl
@[simp] theorem setVbat_fld (mv : Nat) : (s.setVbat mv).fld = s.fld := rfl
@[simp] theorem setVbat_mgmt (mv : Nat) : (s.setVbat mv).mgmt = s.mgmt := rfl
@[simp] theorem setVbat_host (mv : Nat) : (s.setVbat mv).host = s.host := rfl
@[simp] theorem setVbat_sent (mv : Nat) : (s.setVbat mv).sent = s.sent := rfl
@[simp] theorem setVbat_frees (mv : Nat) : (s.setVbat mv).frees = s.frees := rfl

@[simp] theorem loadBackup_pending : (s.loadBackup).pending = s.pending := rfl
@[simp] theorem loadBackup_regs : (s.loadBackup).regs = s.regs := rfl
@[simp] theorem loadBackup_chans : (s.loadBackup).chans = s.chans := rfl
@[simp] theorem loadBackup_ctl : (s.loadBackup).ctl = s.ctl := rfl
@[simp] theorem loadBackup_power : (s.loadBackup).power = s.power := rfl
@[simp] theorem loadBackup_fuses : (s.loadBackup).fuses = s.fuses := rfl
@[simp] theorem loadBackup_boot : (s.loadBackup).boot = s.boot := rfl
@[simp] theorem loadBackup_fen : (s.loadBackup).fen = s.fen := rfl
@[simp] theorem loadBackup_fenChk : (s.loadBackup).fenChk = s.fenChk := rfl
@[simp] theorem loadBackup_fenFix : (s.loadBackup).fenFix = s.fenFix := rfl
@[simp] theorem loadBackup_near : (s.loadBackup).near = s.near := rfl
@[simp] theorem loadBackup_troughs : (s.loadBackup).troughs = s.troughs := rfl
@[simp] theorem loadBackup_mirrorQ : (s.loadBackup).mirrorQ = s.mirrorQ := rfl
@[simp] theorem loadBackup_outBits : (s.loadBackup).outBits = s.outBits := rfl
@[simp] theorem loadBackup_yard : (s.loadBackup).yard = s.yard := rfl
@[simp] theorem loadBackup_grooms : (s.loadBackup).grooms = s.grooms := rfl
@[simp] theorem loadBackup_scratch : (s.loadBackup).scratch = s.scratch := rfl
@[simp] theorem loadBackup_stalls : (s.loadBackup).stalls = s.stalls := rfl
@[simp] theorem loadBackup_lanes : (s.loadBackup).lanes = s.lanes := rfl
@[simp] theorem loadBackup_ctxs : (s.loadBackup).ctxs = s.ctxs := rfl
@[simp] theorem loadBackup_baysServed : (s.loadBackup).baysServed = s.baysServed := rfl
@[simp] theorem loadBackup_crib : (s.loadBackup).crib = s.crib := rfl
@[simp] theorem loadBackup_cribLoad : (s.loadBackup).cribLoad = s.cribLoad := rfl
@[simp] theorem loadBackup_paddock : (s.loadBackup).paddock = s.paddock := rfl
@[simp] theorem loadBackup_padLoad : (s.loadBackup).padLoad = s.padLoad := rfl
@[simp] theorem loadBackup_herds : (s.loadBackup).herds = s.herds := rfl
@[simp] theorem loadBackup_adcs : (s.loadBackup).adcs = s.adcs := rfl
@[simp] theorem loadBackup_vsts : (s.loadBackup).vsts = s.vsts := rfl
@[simp] theorem loadBackup_rings : (s.loadBackup).rings = s.rings := rfl
@[simp] theorem loadBackup_mirrors : (s.loadBackup).mirrors = s.mirrors := rfl
@[simp] theorem loadBackup_pair : (s.loadBackup).pair = s.pair := rfl
@[simp] theorem loadBackup_tb : (s.loadBackup).tb = s.tb := rfl
@[simp] theorem loadBackup_outs : (s.loadBackup).outs = s.outs := rfl
@[simp] theorem loadBackup_wpLists : (s.loadBackup).wpLists = s.wpLists := rfl
@[simp] theorem loadBackup_wpMem : (s.loadBackup).wpMem = s.wpMem := rfl
@[simp] theorem loadBackup_samples : (s.loadBackup).samples = s.samples := rfl
@[simp] theorem loadBackup_fld : (s.loadBackup).fld = s.fld := rfl
@[simp] theorem loadBackup_mgmt : (s.loadBackup).mgmt = s.mgmt := rfl
@[simp] theorem loadBackup_host : (s.loadBackup).host = s.host := rfl
@[simp] theorem loadBackup_sent : (s.loadBackup).sent = s.sent := rfl
@[simp] theorem loadBackup_frees : (s.loadBackup).frees = s.frees := rfl

@[simp] theorem retain_pending (p : List (Nat × List Byte)) : (s.retain p).pending = s.pending := rfl
@[simp] theorem retain_regs (p : List (Nat × List Byte)) : (s.retain p).regs = s.regs := rfl
@[simp] theorem retain_chans (p : List (Nat × List Byte)) : (s.retain p).chans = s.chans := rfl
@[simp] theorem retain_ctl (p : List (Nat × List Byte)) : (s.retain p).ctl = s.ctl := rfl
@[simp] theorem retain_power (p : List (Nat × List Byte)) : (s.retain p).power = s.power := rfl
@[simp] theorem retain_fuses (p : List (Nat × List Byte)) : (s.retain p).fuses = s.fuses := rfl
@[simp] theorem retain_boot (p : List (Nat × List Byte)) : (s.retain p).boot = s.boot := rfl
@[simp] theorem retain_fen (p : List (Nat × List Byte)) : (s.retain p).fen = s.fen := rfl
@[simp] theorem retain_fenChk (p : List (Nat × List Byte)) : (s.retain p).fenChk = s.fenChk := rfl
@[simp] theorem retain_fenFix (p : List (Nat × List Byte)) : (s.retain p).fenFix = s.fenFix := rfl
@[simp] theorem retain_near (p : List (Nat × List Byte)) : (s.retain p).near = s.near := rfl
@[simp] theorem retain_troughs (p : List (Nat × List Byte)) : (s.retain p).troughs = s.troughs := rfl
@[simp] theorem retain_mirrorQ (p : List (Nat × List Byte)) : (s.retain p).mirrorQ = s.mirrorQ := rfl
@[simp] theorem retain_outBits (p : List (Nat × List Byte)) : (s.retain p).outBits = s.outBits := rfl
@[simp] theorem retain_yard (p : List (Nat × List Byte)) : (s.retain p).yard = s.yard := rfl
@[simp] theorem retain_grooms (p : List (Nat × List Byte)) : (s.retain p).grooms = s.grooms := rfl
@[simp] theorem retain_scratch (p : List (Nat × List Byte)) : (s.retain p).scratch = s.scratch := rfl
@[simp] theorem retain_stalls (p : List (Nat × List Byte)) : (s.retain p).stalls = s.stalls := rfl
@[simp] theorem retain_lanes (p : List (Nat × List Byte)) : (s.retain p).lanes = s.lanes := rfl
@[simp] theorem retain_ctxs (p : List (Nat × List Byte)) : (s.retain p).ctxs = s.ctxs := rfl
@[simp] theorem retain_baysServed (p : List (Nat × List Byte)) : (s.retain p).baysServed = s.baysServed := rfl
@[simp] theorem retain_crib (p : List (Nat × List Byte)) : (s.retain p).crib = s.crib := rfl
@[simp] theorem retain_cribLoad (p : List (Nat × List Byte)) : (s.retain p).cribLoad = s.cribLoad := rfl
@[simp] theorem retain_paddock (p : List (Nat × List Byte)) : (s.retain p).paddock = s.paddock := rfl
@[simp] theorem retain_padLoad (p : List (Nat × List Byte)) : (s.retain p).padLoad = s.padLoad := rfl
@[simp] theorem retain_herds (p : List (Nat × List Byte)) : (s.retain p).herds = s.herds := rfl
@[simp] theorem retain_adcs (p : List (Nat × List Byte)) : (s.retain p).adcs = s.adcs := rfl
@[simp] theorem retain_vsts (p : List (Nat × List Byte)) : (s.retain p).vsts = s.vsts := rfl
@[simp] theorem retain_rings (p : List (Nat × List Byte)) : (s.retain p).rings = s.rings := rfl
@[simp] theorem retain_mirrors (p : List (Nat × List Byte)) : (s.retain p).mirrors = s.mirrors := rfl
@[simp] theorem retain_pair (p : List (Nat × List Byte)) : (s.retain p).pair = s.pair := rfl
@[simp] theorem retain_tb (p : List (Nat × List Byte)) : (s.retain p).tb = s.tb := rfl
@[simp] theorem retain_outs (p : List (Nat × List Byte)) : (s.retain p).outs = s.outs := rfl
@[simp] theorem retain_wpLists (p : List (Nat × List Byte)) : (s.retain p).wpLists = s.wpLists := rfl
@[simp] theorem retain_wpMem (p : List (Nat × List Byte)) : (s.retain p).wpMem = s.wpMem := rfl
@[simp] theorem retain_samples (p : List (Nat × List Byte)) : (s.retain p).samples = s.samples := rfl
@[simp] theorem retain_fld (p : List (Nat × List Byte)) : (s.retain p).fld = s.fld := rfl
@[simp] theorem retain_mgmt (p : List (Nat × List Byte)) : (s.retain p).mgmt = s.mgmt := rfl
@[simp] theorem retain_host (p : List (Nat × List Byte)) : (s.retain p).host = s.host := rfl
@[simp] theorem retain_sent (p : List (Nat × List Byte)) : (s.retain p).sent = s.sent := rfl
@[simp] theorem retain_frees (p : List (Nat × List Byte)) : (s.retain p).frees = s.frees := rfl

@[simp] theorem fault_pending (c : Nat) (d : Word) : (s.fault c d).pending = s.pending := rfl
@[simp] theorem fault_chans (c : Nat) (d : Word) : (s.fault c d).chans = s.chans := rfl
@[simp] theorem fault_ctl (c : Nat) (d : Word) : (s.fault c d).ctl = s.ctl := rfl
@[simp] theorem fault_power (c : Nat) (d : Word) : (s.fault c d).power = s.power := rfl
@[simp] theorem fault_ret (c : Nat) (d : Word) : (s.fault c d).ret = s.ret := rfl
@[simp] theorem fault_fuses (c : Nat) (d : Word) : (s.fault c d).fuses = s.fuses := rfl
@[simp] theorem fault_boot (c : Nat) (d : Word) : (s.fault c d).boot = s.boot := rfl
@[simp] theorem fault_fen (c : Nat) (d : Word) : (s.fault c d).fen = s.fen := rfl
@[simp] theorem fault_fenChk (c : Nat) (d : Word) : (s.fault c d).fenChk = s.fenChk := rfl
@[simp] theorem fault_fenFix (c : Nat) (d : Word) : (s.fault c d).fenFix = s.fenFix := rfl
@[simp] theorem fault_near (c : Nat) (d : Word) : (s.fault c d).near = s.near := rfl
@[simp] theorem fault_troughs (c : Nat) (d : Word) : (s.fault c d).troughs = s.troughs := rfl
@[simp] theorem fault_mirrorQ (c : Nat) (d : Word) : (s.fault c d).mirrorQ = s.mirrorQ := rfl
@[simp] theorem fault_outBits (c : Nat) (d : Word) : (s.fault c d).outBits = s.outBits := rfl
@[simp] theorem fault_yard (c : Nat) (d : Word) : (s.fault c d).yard = s.yard := rfl
@[simp] theorem fault_grooms (c : Nat) (d : Word) : (s.fault c d).grooms = s.grooms := rfl
@[simp] theorem fault_scratch (c : Nat) (d : Word) : (s.fault c d).scratch = s.scratch := rfl
@[simp] theorem fault_stalls (c : Nat) (d : Word) : (s.fault c d).stalls = s.stalls := rfl
@[simp] theorem fault_lanes (c : Nat) (d : Word) : (s.fault c d).lanes = s.lanes := rfl
@[simp] theorem fault_ctxs (c : Nat) (d : Word) : (s.fault c d).ctxs = s.ctxs := rfl
@[simp] theorem fault_baysServed (c : Nat) (d : Word) : (s.fault c d).baysServed = s.baysServed := rfl
@[simp] theorem fault_crib (c : Nat) (d : Word) : (s.fault c d).crib = s.crib := rfl
@[simp] theorem fault_cribLoad (c : Nat) (d : Word) : (s.fault c d).cribLoad = s.cribLoad := rfl
@[simp] theorem fault_paddock (c : Nat) (d : Word) : (s.fault c d).paddock = s.paddock := rfl
@[simp] theorem fault_padLoad (c : Nat) (d : Word) : (s.fault c d).padLoad = s.padLoad := rfl
@[simp] theorem fault_herds (c : Nat) (d : Word) : (s.fault c d).herds = s.herds := rfl
@[simp] theorem fault_adcs (c : Nat) (d : Word) : (s.fault c d).adcs = s.adcs := rfl
@[simp] theorem fault_vsts (c : Nat) (d : Word) : (s.fault c d).vsts = s.vsts := rfl
@[simp] theorem fault_rings (c : Nat) (d : Word) : (s.fault c d).rings = s.rings := rfl
@[simp] theorem fault_mirrors (c : Nat) (d : Word) : (s.fault c d).mirrors = s.mirrors := rfl
@[simp] theorem fault_pair (c : Nat) (d : Word) : (s.fault c d).pair = s.pair := rfl
@[simp] theorem fault_tb (c : Nat) (d : Word) : (s.fault c d).tb = s.tb := rfl
@[simp] theorem fault_outs (c : Nat) (d : Word) : (s.fault c d).outs = s.outs := rfl
@[simp] theorem fault_wpLists (c : Nat) (d : Word) : (s.fault c d).wpLists = s.wpLists := rfl
@[simp] theorem fault_wpMem (c : Nat) (d : Word) : (s.fault c d).wpMem = s.wpMem := rfl
@[simp] theorem fault_samples (c : Nat) (d : Word) : (s.fault c d).samples = s.samples := rfl
@[simp] theorem fault_fld (c : Nat) (d : Word) : (s.fault c d).fld = s.fld := rfl
@[simp] theorem fault_host (c : Nat) (d : Word) : (s.fault c d).host = s.host := rfl
@[simp] theorem fault_sent (c : Nat) (d : Word) : (s.fault c d).sent = s.sent := rfl
@[simp] theorem fault_frees (c : Nat) (d : Word) : (s.fault c d).frees = s.frees := rfl

@[simp] theorem countEvent_pending (c : Nat) : (s.countEvent c).pending = s.pending := rfl
@[simp] theorem countEvent_regs (c : Nat) : (s.countEvent c).regs = s.regs := rfl
@[simp] theorem countEvent_chans (c : Nat) : (s.countEvent c).chans = s.chans := rfl
@[simp] theorem countEvent_ctl (c : Nat) : (s.countEvent c).ctl = s.ctl := rfl
@[simp] theorem countEvent_power (c : Nat) : (s.countEvent c).power = s.power := rfl
@[simp] theorem countEvent_ret (c : Nat) : (s.countEvent c).ret = s.ret := rfl
@[simp] theorem countEvent_fuses (c : Nat) : (s.countEvent c).fuses = s.fuses := rfl
@[simp] theorem countEvent_boot (c : Nat) : (s.countEvent c).boot = s.boot := rfl
@[simp] theorem countEvent_fen (c : Nat) : (s.countEvent c).fen = s.fen := rfl
@[simp] theorem countEvent_fenChk (c : Nat) : (s.countEvent c).fenChk = s.fenChk := rfl
@[simp] theorem countEvent_fenFix (c : Nat) : (s.countEvent c).fenFix = s.fenFix := rfl
@[simp] theorem countEvent_near (c : Nat) : (s.countEvent c).near = s.near := rfl
@[simp] theorem countEvent_troughs (c : Nat) : (s.countEvent c).troughs = s.troughs := rfl
@[simp] theorem countEvent_mirrorQ (c : Nat) : (s.countEvent c).mirrorQ = s.mirrorQ := rfl
@[simp] theorem countEvent_outBits (c : Nat) : (s.countEvent c).outBits = s.outBits := rfl
@[simp] theorem countEvent_yard (c : Nat) : (s.countEvent c).yard = s.yard := rfl
@[simp] theorem countEvent_grooms (c : Nat) : (s.countEvent c).grooms = s.grooms := rfl
@[simp] theorem countEvent_scratch (c : Nat) : (s.countEvent c).scratch = s.scratch := rfl
@[simp] theorem countEvent_stalls (c : Nat) : (s.countEvent c).stalls = s.stalls := rfl
@[simp] theorem countEvent_lanes (c : Nat) : (s.countEvent c).lanes = s.lanes := rfl
@[simp] theorem countEvent_ctxs (c : Nat) : (s.countEvent c).ctxs = s.ctxs := rfl
@[simp] theorem countEvent_baysServed (c : Nat) : (s.countEvent c).baysServed = s.baysServed := rfl
@[simp] theorem countEvent_crib (c : Nat) : (s.countEvent c).crib = s.crib := rfl
@[simp] theorem countEvent_cribLoad (c : Nat) : (s.countEvent c).cribLoad = s.cribLoad := rfl
@[simp] theorem countEvent_paddock (c : Nat) : (s.countEvent c).paddock = s.paddock := rfl
@[simp] theorem countEvent_padLoad (c : Nat) : (s.countEvent c).padLoad = s.padLoad := rfl
@[simp] theorem countEvent_herds (c : Nat) : (s.countEvent c).herds = s.herds := rfl
@[simp] theorem countEvent_adcs (c : Nat) : (s.countEvent c).adcs = s.adcs := rfl
@[simp] theorem countEvent_vsts (c : Nat) : (s.countEvent c).vsts = s.vsts := rfl
@[simp] theorem countEvent_rings (c : Nat) : (s.countEvent c).rings = s.rings := rfl
@[simp] theorem countEvent_mirrors (c : Nat) : (s.countEvent c).mirrors = s.mirrors := rfl
@[simp] theorem countEvent_pair (c : Nat) : (s.countEvent c).pair = s.pair := rfl
@[simp] theorem countEvent_tb (c : Nat) : (s.countEvent c).tb = s.tb := rfl
@[simp] theorem countEvent_outs (c : Nat) : (s.countEvent c).outs = s.outs := rfl
@[simp] theorem countEvent_wpLists (c : Nat) : (s.countEvent c).wpLists = s.wpLists := rfl
@[simp] theorem countEvent_wpMem (c : Nat) : (s.countEvent c).wpMem = s.wpMem := rfl
@[simp] theorem countEvent_samples (c : Nat) : (s.countEvent c).samples = s.samples := rfl
@[simp] theorem countEvent_fld (c : Nat) : (s.countEvent c).fld = s.fld := rfl
@[simp] theorem countEvent_host (c : Nat) : (s.countEvent c).host = s.host := rfl
@[simp] theorem countEvent_sent (c : Nat) : (s.countEvent c).sent = s.sent := rfl
@[simp] theorem countEvent_frees (c : Nat) : (s.countEvent c).frees = s.frees := rfl

@[simp] theorem fenStore_pending (a : Nat) (w : Word) (p : Bool) : (s.fenStore a w p).pending = s.pending := rfl
@[simp] theorem fenStore_regs (a : Nat) (w : Word) (p : Bool) : (s.fenStore a w p).regs = s.regs := rfl
@[simp] theorem fenStore_chans (a : Nat) (w : Word) (p : Bool) : (s.fenStore a w p).chans = s.chans := rfl
@[simp] theorem fenStore_ctl (a : Nat) (w : Word) (p : Bool) : (s.fenStore a w p).ctl = s.ctl := rfl
@[simp] theorem fenStore_power (a : Nat) (w : Word) (p : Bool) : (s.fenStore a w p).power = s.power := rfl
@[simp] theorem fenStore_ret (a : Nat) (w : Word) (p : Bool) : (s.fenStore a w p).ret = s.ret := rfl
@[simp] theorem fenStore_fuses (a : Nat) (w : Word) (p : Bool) : (s.fenStore a w p).fuses = s.fuses := rfl
@[simp] theorem fenStore_boot (a : Nat) (w : Word) (p : Bool) : (s.fenStore a w p).boot = s.boot := rfl
@[simp] theorem fenStore_near (a : Nat) (w : Word) (p : Bool) : (s.fenStore a w p).near = s.near := rfl
@[simp] theorem fenStore_troughs (a : Nat) (w : Word) (p : Bool) : (s.fenStore a w p).troughs = s.troughs := rfl
@[simp] theorem fenStore_mirrorQ (a : Nat) (w : Word) (p : Bool) : (s.fenStore a w p).mirrorQ = s.mirrorQ := rfl
@[simp] theorem fenStore_outBits (a : Nat) (w : Word) (p : Bool) : (s.fenStore a w p).outBits = s.outBits := rfl
@[simp] theorem fenStore_yard (a : Nat) (w : Word) (p : Bool) : (s.fenStore a w p).yard = s.yard := rfl
@[simp] theorem fenStore_grooms (a : Nat) (w : Word) (p : Bool) : (s.fenStore a w p).grooms = s.grooms := rfl
@[simp] theorem fenStore_scratch (a : Nat) (w : Word) (p : Bool) : (s.fenStore a w p).scratch = s.scratch := rfl
@[simp] theorem fenStore_stalls (a : Nat) (w : Word) (p : Bool) : (s.fenStore a w p).stalls = s.stalls := rfl
@[simp] theorem fenStore_lanes (a : Nat) (w : Word) (p : Bool) : (s.fenStore a w p).lanes = s.lanes := rfl
@[simp] theorem fenStore_ctxs (a : Nat) (w : Word) (p : Bool) : (s.fenStore a w p).ctxs = s.ctxs := rfl
@[simp] theorem fenStore_baysServed (a : Nat) (w : Word) (p : Bool) : (s.fenStore a w p).baysServed = s.baysServed := rfl
@[simp] theorem fenStore_crib (a : Nat) (w : Word) (p : Bool) : (s.fenStore a w p).crib = s.crib := rfl
@[simp] theorem fenStore_cribLoad (a : Nat) (w : Word) (p : Bool) : (s.fenStore a w p).cribLoad = s.cribLoad := rfl
@[simp] theorem fenStore_paddock (a : Nat) (w : Word) (p : Bool) : (s.fenStore a w p).paddock = s.paddock := rfl
@[simp] theorem fenStore_padLoad (a : Nat) (w : Word) (p : Bool) : (s.fenStore a w p).padLoad = s.padLoad := rfl
@[simp] theorem fenStore_herds (a : Nat) (w : Word) (p : Bool) : (s.fenStore a w p).herds = s.herds := rfl
@[simp] theorem fenStore_adcs (a : Nat) (w : Word) (p : Bool) : (s.fenStore a w p).adcs = s.adcs := rfl
@[simp] theorem fenStore_vsts (a : Nat) (w : Word) (p : Bool) : (s.fenStore a w p).vsts = s.vsts := rfl
@[simp] theorem fenStore_rings (a : Nat) (w : Word) (p : Bool) : (s.fenStore a w p).rings = s.rings := rfl
@[simp] theorem fenStore_mirrors (a : Nat) (w : Word) (p : Bool) : (s.fenStore a w p).mirrors = s.mirrors := rfl
@[simp] theorem fenStore_pair (a : Nat) (w : Word) (p : Bool) : (s.fenStore a w p).pair = s.pair := rfl
@[simp] theorem fenStore_tb (a : Nat) (w : Word) (p : Bool) : (s.fenStore a w p).tb = s.tb := rfl
@[simp] theorem fenStore_outs (a : Nat) (w : Word) (p : Bool) : (s.fenStore a w p).outs = s.outs := rfl
@[simp] theorem fenStore_wpLists (a : Nat) (w : Word) (p : Bool) : (s.fenStore a w p).wpLists = s.wpLists := rfl
@[simp] theorem fenStore_wpMem (a : Nat) (w : Word) (p : Bool) : (s.fenStore a w p).wpMem = s.wpMem := rfl
@[simp] theorem fenStore_samples (a : Nat) (w : Word) (p : Bool) : (s.fenStore a w p).samples = s.samples := rfl
@[simp] theorem fenStore_fld (a : Nat) (w : Word) (p : Bool) : (s.fenStore a w p).fld = s.fld := rfl
@[simp] theorem fenStore_mgmt (a : Nat) (w : Word) (p : Bool) : (s.fenStore a w p).mgmt = s.mgmt := rfl
@[simp] theorem fenStore_host (a : Nat) (w : Word) (p : Bool) : (s.fenStore a w p).host = s.host := rfl
@[simp] theorem fenStore_sent (a : Nat) (w : Word) (p : Bool) : (s.fenStore a w p).sent = s.sent := rfl
@[simp] theorem fenStore_frees (a : Nat) (w : Word) (p : Bool) : (s.fenStore a w p).frees = s.frees := rfl

@[simp] theorem placeRequest_pending (r : ModeReq) : (s.placeRequest r).pending = s.pending := by unfold State.placeRequest; dsimp only; split <;> rfl
@[simp] theorem placeRequest_regs (r : ModeReq) : (s.placeRequest r).regs = s.regs := by unfold State.placeRequest; dsimp only; split <;> rfl
@[simp] theorem placeRequest_chans (r : ModeReq) : (s.placeRequest r).chans = s.chans := by unfold State.placeRequest; dsimp only; split <;> rfl
@[simp] theorem placeRequest_power (r : ModeReq) : (s.placeRequest r).power = s.power := by unfold State.placeRequest; dsimp only; split <;> rfl
@[simp] theorem placeRequest_ret (r : ModeReq) : (s.placeRequest r).ret = s.ret := by unfold State.placeRequest; dsimp only; split <;> rfl
@[simp] theorem placeRequest_fuses (r : ModeReq) : (s.placeRequest r).fuses = s.fuses := by unfold State.placeRequest; dsimp only; split <;> rfl
@[simp] theorem placeRequest_boot (r : ModeReq) : (s.placeRequest r).boot = s.boot := by unfold State.placeRequest; dsimp only; split <;> rfl
@[simp] theorem placeRequest_fen (r : ModeReq) : (s.placeRequest r).fen = s.fen := by unfold State.placeRequest; dsimp only; split <;> rfl
@[simp] theorem placeRequest_fenChk (r : ModeReq) : (s.placeRequest r).fenChk = s.fenChk := by unfold State.placeRequest; dsimp only; split <;> rfl
@[simp] theorem placeRequest_fenFix (r : ModeReq) : (s.placeRequest r).fenFix = s.fenFix := by unfold State.placeRequest; dsimp only; split <;> rfl
@[simp] theorem placeRequest_near (r : ModeReq) : (s.placeRequest r).near = s.near := by unfold State.placeRequest; dsimp only; split <;> rfl
@[simp] theorem placeRequest_troughs (r : ModeReq) : (s.placeRequest r).troughs = s.troughs := by unfold State.placeRequest; dsimp only; split <;> rfl
@[simp] theorem placeRequest_mirrorQ (r : ModeReq) : (s.placeRequest r).mirrorQ = s.mirrorQ := by unfold State.placeRequest; dsimp only; split <;> rfl
@[simp] theorem placeRequest_outBits (r : ModeReq) : (s.placeRequest r).outBits = s.outBits := by unfold State.placeRequest; dsimp only; split <;> rfl
@[simp] theorem placeRequest_yard (r : ModeReq) : (s.placeRequest r).yard = s.yard := by unfold State.placeRequest; dsimp only; split <;> rfl
@[simp] theorem placeRequest_grooms (r : ModeReq) : (s.placeRequest r).grooms = s.grooms := by unfold State.placeRequest; dsimp only; split <;> rfl
@[simp] theorem placeRequest_scratch (r : ModeReq) : (s.placeRequest r).scratch = s.scratch := by unfold State.placeRequest; dsimp only; split <;> rfl
@[simp] theorem placeRequest_stalls (r : ModeReq) : (s.placeRequest r).stalls = s.stalls := by unfold State.placeRequest; dsimp only; split <;> rfl
@[simp] theorem placeRequest_lanes (r : ModeReq) : (s.placeRequest r).lanes = s.lanes := by unfold State.placeRequest; dsimp only; split <;> rfl
@[simp] theorem placeRequest_ctxs (r : ModeReq) : (s.placeRequest r).ctxs = s.ctxs := by unfold State.placeRequest; dsimp only; split <;> rfl
@[simp] theorem placeRequest_baysServed (r : ModeReq) : (s.placeRequest r).baysServed = s.baysServed := by unfold State.placeRequest; dsimp only; split <;> rfl
@[simp] theorem placeRequest_crib (r : ModeReq) : (s.placeRequest r).crib = s.crib := by unfold State.placeRequest; dsimp only; split <;> rfl
@[simp] theorem placeRequest_cribLoad (r : ModeReq) : (s.placeRequest r).cribLoad = s.cribLoad := by unfold State.placeRequest; dsimp only; split <;> rfl
@[simp] theorem placeRequest_paddock (r : ModeReq) : (s.placeRequest r).paddock = s.paddock := by unfold State.placeRequest; dsimp only; split <;> rfl
@[simp] theorem placeRequest_padLoad (r : ModeReq) : (s.placeRequest r).padLoad = s.padLoad := by unfold State.placeRequest; dsimp only; split <;> rfl
@[simp] theorem placeRequest_herds (r : ModeReq) : (s.placeRequest r).herds = s.herds := by unfold State.placeRequest; dsimp only; split <;> rfl
@[simp] theorem placeRequest_adcs (r : ModeReq) : (s.placeRequest r).adcs = s.adcs := by unfold State.placeRequest; dsimp only; split <;> rfl
@[simp] theorem placeRequest_vsts (r : ModeReq) : (s.placeRequest r).vsts = s.vsts := by unfold State.placeRequest; dsimp only; split <;> rfl
@[simp] theorem placeRequest_rings (r : ModeReq) : (s.placeRequest r).rings = s.rings := by unfold State.placeRequest; dsimp only; split <;> rfl
@[simp] theorem placeRequest_mirrors (r : ModeReq) : (s.placeRequest r).mirrors = s.mirrors := by unfold State.placeRequest; dsimp only; split <;> rfl
@[simp] theorem placeRequest_pair (r : ModeReq) : (s.placeRequest r).pair = s.pair := by unfold State.placeRequest; dsimp only; split <;> rfl
@[simp] theorem placeRequest_tb (r : ModeReq) : (s.placeRequest r).tb = s.tb := by unfold State.placeRequest; dsimp only; split <;> rfl
@[simp] theorem placeRequest_outs (r : ModeReq) : (s.placeRequest r).outs = s.outs := by unfold State.placeRequest; dsimp only; split <;> rfl
@[simp] theorem placeRequest_wpLists (r : ModeReq) : (s.placeRequest r).wpLists = s.wpLists := by unfold State.placeRequest; dsimp only; split <;> rfl
@[simp] theorem placeRequest_wpMem (r : ModeReq) : (s.placeRequest r).wpMem = s.wpMem := by unfold State.placeRequest; dsimp only; split <;> rfl
@[simp] theorem placeRequest_samples (r : ModeReq) : (s.placeRequest r).samples = s.samples := by unfold State.placeRequest; dsimp only; split <;> rfl
@[simp] theorem placeRequest_fld (r : ModeReq) : (s.placeRequest r).fld = s.fld := by unfold State.placeRequest; dsimp only; split <;> rfl
@[simp] theorem placeRequest_mgmt (r : ModeReq) : (s.placeRequest r).mgmt = s.mgmt := by unfold State.placeRequest; dsimp only; split <;> rfl
@[simp] theorem placeRequest_host (r : ModeReq) : (s.placeRequest r).host = s.host := by unfold State.placeRequest; dsimp only; split <;> rfl
@[simp] theorem placeRequest_sent (r : ModeReq) : (s.placeRequest r).sent = s.sent := by unfold State.placeRequest; dsimp only; split <;> rfl
@[simp] theorem placeRequest_frees (r : ModeReq) : (s.placeRequest r).frees = s.frees := by unfold State.placeRequest; dsimp only; split <;> rfl

@[simp] theorem alarm_pending (c : Nat) (d : Word) : (s.alarm c d).pending = s.pending := by unfold State.alarm; dsimp only; split <;> first | rfl | (rw [placeRequest_pending]; rfl)
@[simp] theorem alarm_chans (c : Nat) (d : Word) : (s.alarm c d).chans = s.chans := by unfold State.alarm; dsimp only; split <;> first | rfl | (rw [placeRequest_chans]; rfl)
@[simp] theorem alarm_power (c : Nat) (d : Word) : (s.alarm c d).power = s.power := by unfold State.alarm; dsimp only; split <;> first | rfl | (rw [placeRequest_power]; rfl)
@[simp] theorem alarm_ret (c : Nat) (d : Word) : (s.alarm c d).ret = s.ret := by unfold State.alarm; dsimp only; split <;> first | rfl | (rw [placeRequest_ret]; rfl)
@[simp] theorem alarm_fuses (c : Nat) (d : Word) : (s.alarm c d).fuses = s.fuses := by unfold State.alarm; dsimp only; split <;> first | rfl | (rw [placeRequest_fuses]; rfl)
@[simp] theorem alarm_boot (c : Nat) (d : Word) : (s.alarm c d).boot = s.boot := by unfold State.alarm; dsimp only; split <;> first | rfl | (rw [placeRequest_boot]; rfl)
@[simp] theorem alarm_fen (c : Nat) (d : Word) : (s.alarm c d).fen = s.fen := by unfold State.alarm; dsimp only; split <;> first | rfl | (rw [placeRequest_fen]; rfl)
@[simp] theorem alarm_fenChk (c : Nat) (d : Word) : (s.alarm c d).fenChk = s.fenChk := by unfold State.alarm; dsimp only; split <;> first | rfl | (rw [placeRequest_fenChk]; rfl)
@[simp] theorem alarm_fenFix (c : Nat) (d : Word) : (s.alarm c d).fenFix = s.fenFix := by unfold State.alarm; dsimp only; split <;> first | rfl | (rw [placeRequest_fenFix]; rfl)
@[simp] theorem alarm_near (c : Nat) (d : Word) : (s.alarm c d).near = s.near := by unfold State.alarm; dsimp only; split <;> first | rfl | (rw [placeRequest_near]; rfl)
@[simp] theorem alarm_troughs (c : Nat) (d : Word) : (s.alarm c d).troughs = s.troughs := by unfold State.alarm; dsimp only; split <;> first | rfl | (rw [placeRequest_troughs]; rfl)
@[simp] theorem alarm_mirrorQ (c : Nat) (d : Word) : (s.alarm c d).mirrorQ = s.mirrorQ := by unfold State.alarm; dsimp only; split <;> first | rfl | (rw [placeRequest_mirrorQ]; rfl)
@[simp] theorem alarm_outBits (c : Nat) (d : Word) : (s.alarm c d).outBits = s.outBits := by unfold State.alarm; dsimp only; split <;> first | rfl | (rw [placeRequest_outBits]; rfl)
@[simp] theorem alarm_yard (c : Nat) (d : Word) : (s.alarm c d).yard = s.yard := by unfold State.alarm; dsimp only; split <;> first | rfl | (rw [placeRequest_yard]; rfl)
@[simp] theorem alarm_grooms (c : Nat) (d : Word) : (s.alarm c d).grooms = s.grooms := by unfold State.alarm; dsimp only; split <;> first | rfl | (rw [placeRequest_grooms]; rfl)
@[simp] theorem alarm_scratch (c : Nat) (d : Word) : (s.alarm c d).scratch = s.scratch := by unfold State.alarm; dsimp only; split <;> first | rfl | (rw [placeRequest_scratch]; rfl)
@[simp] theorem alarm_stalls (c : Nat) (d : Word) : (s.alarm c d).stalls = s.stalls := by unfold State.alarm; dsimp only; split <;> first | rfl | (rw [placeRequest_stalls]; rfl)
@[simp] theorem alarm_lanes (c : Nat) (d : Word) : (s.alarm c d).lanes = s.lanes := by unfold State.alarm; dsimp only; split <;> first | rfl | (rw [placeRequest_lanes]; rfl)
@[simp] theorem alarm_ctxs (c : Nat) (d : Word) : (s.alarm c d).ctxs = s.ctxs := by unfold State.alarm; dsimp only; split <;> first | rfl | (rw [placeRequest_ctxs]; rfl)
@[simp] theorem alarm_baysServed (c : Nat) (d : Word) : (s.alarm c d).baysServed = s.baysServed := by unfold State.alarm; dsimp only; split <;> first | rfl | (rw [placeRequest_baysServed]; rfl)
@[simp] theorem alarm_crib (c : Nat) (d : Word) : (s.alarm c d).crib = s.crib := by unfold State.alarm; dsimp only; split <;> first | rfl | (rw [placeRequest_crib]; rfl)
@[simp] theorem alarm_cribLoad (c : Nat) (d : Word) : (s.alarm c d).cribLoad = s.cribLoad := by unfold State.alarm; dsimp only; split <;> first | rfl | (rw [placeRequest_cribLoad]; rfl)
@[simp] theorem alarm_paddock (c : Nat) (d : Word) : (s.alarm c d).paddock = s.paddock := by unfold State.alarm; dsimp only; split <;> first | rfl | (rw [placeRequest_paddock]; rfl)
@[simp] theorem alarm_padLoad (c : Nat) (d : Word) : (s.alarm c d).padLoad = s.padLoad := by unfold State.alarm; dsimp only; split <;> first | rfl | (rw [placeRequest_padLoad]; rfl)
@[simp] theorem alarm_herds (c : Nat) (d : Word) : (s.alarm c d).herds = s.herds := by unfold State.alarm; dsimp only; split <;> first | rfl | (rw [placeRequest_herds]; rfl)
@[simp] theorem alarm_adcs (c : Nat) (d : Word) : (s.alarm c d).adcs = s.adcs := by unfold State.alarm; dsimp only; split <;> first | rfl | (rw [placeRequest_adcs]; rfl)
@[simp] theorem alarm_vsts (c : Nat) (d : Word) : (s.alarm c d).vsts = s.vsts := by unfold State.alarm; dsimp only; split <;> first | rfl | (rw [placeRequest_vsts]; rfl)
@[simp] theorem alarm_rings (c : Nat) (d : Word) : (s.alarm c d).rings = s.rings := by unfold State.alarm; dsimp only; split <;> first | rfl | (rw [placeRequest_rings]; rfl)
@[simp] theorem alarm_mirrors (c : Nat) (d : Word) : (s.alarm c d).mirrors = s.mirrors := by unfold State.alarm; dsimp only; split <;> first | rfl | (rw [placeRequest_mirrors]; rfl)
@[simp] theorem alarm_pair (c : Nat) (d : Word) : (s.alarm c d).pair = s.pair := by unfold State.alarm; dsimp only; split <;> first | rfl | (rw [placeRequest_pair]; rfl)
@[simp] theorem alarm_tb (c : Nat) (d : Word) : (s.alarm c d).tb = s.tb := by unfold State.alarm; dsimp only; split <;> first | rfl | (rw [placeRequest_tb]; rfl)
@[simp] theorem alarm_outs (c : Nat) (d : Word) : (s.alarm c d).outs = s.outs := by unfold State.alarm; dsimp only; split <;> first | rfl | (rw [placeRequest_outs]; rfl)
@[simp] theorem alarm_wpLists (c : Nat) (d : Word) : (s.alarm c d).wpLists = s.wpLists := by unfold State.alarm; dsimp only; split <;> first | rfl | (rw [placeRequest_wpLists]; rfl)
@[simp] theorem alarm_wpMem (c : Nat) (d : Word) : (s.alarm c d).wpMem = s.wpMem := by unfold State.alarm; dsimp only; split <;> first | rfl | (rw [placeRequest_wpMem]; rfl)
@[simp] theorem alarm_samples (c : Nat) (d : Word) : (s.alarm c d).samples = s.samples := by unfold State.alarm; dsimp only; split <;> first | rfl | (rw [placeRequest_samples]; rfl)
@[simp] theorem alarm_fld (c : Nat) (d : Word) : (s.alarm c d).fld = s.fld := by unfold State.alarm; dsimp only; split <;> first | rfl | (rw [placeRequest_fld]; rfl)
@[simp] theorem alarm_host (c : Nat) (d : Word) : (s.alarm c d).host = s.host := by unfold State.alarm; dsimp only; split <;> first | rfl | (rw [placeRequest_host]; rfl)
@[simp] theorem alarm_sent (c : Nat) (d : Word) : (s.alarm c d).sent = s.sent := by unfold State.alarm; dsimp only; split <;> first | rfl | (rw [placeRequest_sent]; rfl)
@[simp] theorem alarm_frees (c : Nat) (d : Word) : (s.alarm c d).frees = s.frees := by unfold State.alarm; dsimp only; split <;> first | rfl | (rw [placeRequest_frees]; rfl)

@[simp] theorem setFunc_pending (fn : Nat) (f : Func) : (s.setFunc fn f).pending = s.pending := by unfold State.setFunc; split <;> rfl
@[simp] theorem setFunc_regs (fn : Nat) (f : Func) : (s.setFunc fn f).regs = s.regs := by unfold State.setFunc; split <;> rfl
@[simp] theorem setFunc_chans (fn : Nat) (f : Func) : (s.setFunc fn f).chans = s.chans := by unfold State.setFunc; split <;> rfl
@[simp] theorem setFunc_ctl (fn : Nat) (f : Func) : (s.setFunc fn f).ctl = s.ctl := by unfold State.setFunc; split <;> rfl
@[simp] theorem setFunc_power (fn : Nat) (f : Func) : (s.setFunc fn f).power = s.power := by unfold State.setFunc; split <;> rfl
@[simp] theorem setFunc_ret (fn : Nat) (f : Func) : (s.setFunc fn f).ret = s.ret := by unfold State.setFunc; split <;> rfl
@[simp] theorem setFunc_fuses (fn : Nat) (f : Func) : (s.setFunc fn f).fuses = s.fuses := by unfold State.setFunc; split <;> rfl
@[simp] theorem setFunc_boot (fn : Nat) (f : Func) : (s.setFunc fn f).boot = s.boot := by unfold State.setFunc; split <;> rfl
@[simp] theorem setFunc_fen (fn : Nat) (f : Func) : (s.setFunc fn f).fen = s.fen := by unfold State.setFunc; split <;> rfl
@[simp] theorem setFunc_fenChk (fn : Nat) (f : Func) : (s.setFunc fn f).fenChk = s.fenChk := by unfold State.setFunc; split <;> rfl
@[simp] theorem setFunc_fenFix (fn : Nat) (f : Func) : (s.setFunc fn f).fenFix = s.fenFix := by unfold State.setFunc; split <;> rfl
@[simp] theorem setFunc_near (fn : Nat) (f : Func) : (s.setFunc fn f).near = s.near := by unfold State.setFunc; split <;> rfl
@[simp] theorem setFunc_troughs (fn : Nat) (f : Func) : (s.setFunc fn f).troughs = s.troughs := by unfold State.setFunc; split <;> rfl
@[simp] theorem setFunc_mirrorQ (fn : Nat) (f : Func) : (s.setFunc fn f).mirrorQ = s.mirrorQ := by unfold State.setFunc; split <;> rfl
@[simp] theorem setFunc_outBits (fn : Nat) (f : Func) : (s.setFunc fn f).outBits = s.outBits := by unfold State.setFunc; split <;> rfl
@[simp] theorem setFunc_yard (fn : Nat) (f : Func) : (s.setFunc fn f).yard = s.yard := by unfold State.setFunc; split <;> rfl
@[simp] theorem setFunc_grooms (fn : Nat) (f : Func) : (s.setFunc fn f).grooms = s.grooms := by unfold State.setFunc; split <;> rfl
@[simp] theorem setFunc_scratch (fn : Nat) (f : Func) : (s.setFunc fn f).scratch = s.scratch := by unfold State.setFunc; split <;> rfl
@[simp] theorem setFunc_stalls (fn : Nat) (f : Func) : (s.setFunc fn f).stalls = s.stalls := by unfold State.setFunc; split <;> rfl
@[simp] theorem setFunc_lanes (fn : Nat) (f : Func) : (s.setFunc fn f).lanes = s.lanes := by unfold State.setFunc; split <;> rfl
@[simp] theorem setFunc_ctxs (fn : Nat) (f : Func) : (s.setFunc fn f).ctxs = s.ctxs := by unfold State.setFunc; split <;> rfl
@[simp] theorem setFunc_baysServed (fn : Nat) (f : Func) : (s.setFunc fn f).baysServed = s.baysServed := by unfold State.setFunc; split <;> rfl
@[simp] theorem setFunc_crib (fn : Nat) (f : Func) : (s.setFunc fn f).crib = s.crib := by unfold State.setFunc; split <;> rfl
@[simp] theorem setFunc_cribLoad (fn : Nat) (f : Func) : (s.setFunc fn f).cribLoad = s.cribLoad := by unfold State.setFunc; split <;> rfl
@[simp] theorem setFunc_paddock (fn : Nat) (f : Func) : (s.setFunc fn f).paddock = s.paddock := by unfold State.setFunc; split <;> rfl
@[simp] theorem setFunc_padLoad (fn : Nat) (f : Func) : (s.setFunc fn f).padLoad = s.padLoad := by unfold State.setFunc; split <;> rfl
@[simp] theorem setFunc_herds (fn : Nat) (f : Func) : (s.setFunc fn f).herds = s.herds := by unfold State.setFunc; split <;> rfl
@[simp] theorem setFunc_adcs (fn : Nat) (f : Func) : (s.setFunc fn f).adcs = s.adcs := by unfold State.setFunc; split <;> rfl
@[simp] theorem setFunc_vsts (fn : Nat) (f : Func) : (s.setFunc fn f).vsts = s.vsts := by unfold State.setFunc; split <;> rfl
@[simp] theorem setFunc_rings (fn : Nat) (f : Func) : (s.setFunc fn f).rings = s.rings := by unfold State.setFunc; split <;> rfl
@[simp] theorem setFunc_mirrors (fn : Nat) (f : Func) : (s.setFunc fn f).mirrors = s.mirrors := by unfold State.setFunc; split <;> rfl
@[simp] theorem setFunc_pair (fn : Nat) (f : Func) : (s.setFunc fn f).pair = s.pair := by unfold State.setFunc; split <;> rfl
@[simp] theorem setFunc_tb (fn : Nat) (f : Func) : (s.setFunc fn f).tb = s.tb := by unfold State.setFunc; split <;> rfl
@[simp] theorem setFunc_outs (fn : Nat) (f : Func) : (s.setFunc fn f).outs = s.outs := by unfold State.setFunc; split <;> rfl
@[simp] theorem setFunc_wpLists (fn : Nat) (f : Func) : (s.setFunc fn f).wpLists = s.wpLists := by unfold State.setFunc; split <;> rfl
@[simp] theorem setFunc_wpMem (fn : Nat) (f : Func) : (s.setFunc fn f).wpMem = s.wpMem := by unfold State.setFunc; split <;> rfl
@[simp] theorem setFunc_samples (fn : Nat) (f : Func) : (s.setFunc fn f).samples = s.samples := by unfold State.setFunc; split <;> rfl
@[simp] theorem setFunc_fld (fn : Nat) (f : Func) : (s.setFunc fn f).fld = s.fld := by unfold State.setFunc; split <;> rfl
@[simp] theorem setFunc_mgmt (fn : Nat) (f : Func) : (s.setFunc fn f).mgmt = s.mgmt := by unfold State.setFunc; split <;> rfl
@[simp] theorem setFunc_sent (fn : Nat) (f : Func) : (s.setFunc fn f).sent = s.sent := by unfold State.setFunc; split <;> rfl
@[simp] theorem setFunc_frees (fn : Nat) (f : Func) : (s.setFunc fn f).frees = s.frees := by unfold State.setFunc; split <;> rfl

@[simp] theorem sendVector_pending (fn v : Nat) (c : MsgClass) : (s.sendVector fn v c).pending = s.pending := by unfold State.sendVector; split <;> rfl
@[simp] theorem sendVector_regs (fn v : Nat) (c : MsgClass) : (s.sendVector fn v c).regs = s.regs := by unfold State.sendVector; split <;> rfl
@[simp] theorem sendVector_chans (fn v : Nat) (c : MsgClass) : (s.sendVector fn v c).chans = s.chans := by unfold State.sendVector; split <;> rfl
@[simp] theorem sendVector_ctl (fn v : Nat) (c : MsgClass) : (s.sendVector fn v c).ctl = s.ctl := by unfold State.sendVector; split <;> rfl
@[simp] theorem sendVector_power (fn v : Nat) (c : MsgClass) : (s.sendVector fn v c).power = s.power := by unfold State.sendVector; split <;> rfl
@[simp] theorem sendVector_ret (fn v : Nat) (c : MsgClass) : (s.sendVector fn v c).ret = s.ret := by unfold State.sendVector; split <;> rfl
@[simp] theorem sendVector_fuses (fn v : Nat) (c : MsgClass) : (s.sendVector fn v c).fuses = s.fuses := by unfold State.sendVector; split <;> rfl
@[simp] theorem sendVector_boot (fn v : Nat) (c : MsgClass) : (s.sendVector fn v c).boot = s.boot := by unfold State.sendVector; split <;> rfl
@[simp] theorem sendVector_fen (fn v : Nat) (c : MsgClass) : (s.sendVector fn v c).fen = s.fen := by unfold State.sendVector; split <;> rfl
@[simp] theorem sendVector_fenChk (fn v : Nat) (c : MsgClass) : (s.sendVector fn v c).fenChk = s.fenChk := by unfold State.sendVector; split <;> rfl
@[simp] theorem sendVector_fenFix (fn v : Nat) (c : MsgClass) : (s.sendVector fn v c).fenFix = s.fenFix := by unfold State.sendVector; split <;> rfl
@[simp] theorem sendVector_near (fn v : Nat) (c : MsgClass) : (s.sendVector fn v c).near = s.near := by unfold State.sendVector; split <;> rfl
@[simp] theorem sendVector_troughs (fn v : Nat) (c : MsgClass) : (s.sendVector fn v c).troughs = s.troughs := by unfold State.sendVector; split <;> rfl
@[simp] theorem sendVector_mirrorQ (fn v : Nat) (c : MsgClass) : (s.sendVector fn v c).mirrorQ = s.mirrorQ := by unfold State.sendVector; split <;> rfl
@[simp] theorem sendVector_outBits (fn v : Nat) (c : MsgClass) : (s.sendVector fn v c).outBits = s.outBits := by unfold State.sendVector; split <;> rfl
@[simp] theorem sendVector_yard (fn v : Nat) (c : MsgClass) : (s.sendVector fn v c).yard = s.yard := by unfold State.sendVector; split <;> rfl
@[simp] theorem sendVector_grooms (fn v : Nat) (c : MsgClass) : (s.sendVector fn v c).grooms = s.grooms := by unfold State.sendVector; split <;> rfl
@[simp] theorem sendVector_scratch (fn v : Nat) (c : MsgClass) : (s.sendVector fn v c).scratch = s.scratch := by unfold State.sendVector; split <;> rfl
@[simp] theorem sendVector_stalls (fn v : Nat) (c : MsgClass) : (s.sendVector fn v c).stalls = s.stalls := by unfold State.sendVector; split <;> rfl
@[simp] theorem sendVector_lanes (fn v : Nat) (c : MsgClass) : (s.sendVector fn v c).lanes = s.lanes := by unfold State.sendVector; split <;> rfl
@[simp] theorem sendVector_ctxs (fn v : Nat) (c : MsgClass) : (s.sendVector fn v c).ctxs = s.ctxs := by unfold State.sendVector; split <;> rfl
@[simp] theorem sendVector_baysServed (fn v : Nat) (c : MsgClass) : (s.sendVector fn v c).baysServed = s.baysServed := by unfold State.sendVector; split <;> rfl
@[simp] theorem sendVector_crib (fn v : Nat) (c : MsgClass) : (s.sendVector fn v c).crib = s.crib := by unfold State.sendVector; split <;> rfl
@[simp] theorem sendVector_cribLoad (fn v : Nat) (c : MsgClass) : (s.sendVector fn v c).cribLoad = s.cribLoad := by unfold State.sendVector; split <;> rfl
@[simp] theorem sendVector_paddock (fn v : Nat) (c : MsgClass) : (s.sendVector fn v c).paddock = s.paddock := by unfold State.sendVector; split <;> rfl
@[simp] theorem sendVector_padLoad (fn v : Nat) (c : MsgClass) : (s.sendVector fn v c).padLoad = s.padLoad := by unfold State.sendVector; split <;> rfl
@[simp] theorem sendVector_herds (fn v : Nat) (c : MsgClass) : (s.sendVector fn v c).herds = s.herds := by unfold State.sendVector; split <;> rfl
@[simp] theorem sendVector_adcs (fn v : Nat) (c : MsgClass) : (s.sendVector fn v c).adcs = s.adcs := by unfold State.sendVector; split <;> rfl
@[simp] theorem sendVector_vsts (fn v : Nat) (c : MsgClass) : (s.sendVector fn v c).vsts = s.vsts := by unfold State.sendVector; split <;> rfl
@[simp] theorem sendVector_rings (fn v : Nat) (c : MsgClass) : (s.sendVector fn v c).rings = s.rings := by unfold State.sendVector; split <;> rfl
@[simp] theorem sendVector_mirrors (fn v : Nat) (c : MsgClass) : (s.sendVector fn v c).mirrors = s.mirrors := by unfold State.sendVector; split <;> rfl
@[simp] theorem sendVector_pair (fn v : Nat) (c : MsgClass) : (s.sendVector fn v c).pair = s.pair := by unfold State.sendVector; split <;> rfl
@[simp] theorem sendVector_tb (fn v : Nat) (c : MsgClass) : (s.sendVector fn v c).tb = s.tb := by unfold State.sendVector; split <;> rfl
@[simp] theorem sendVector_outs (fn v : Nat) (c : MsgClass) : (s.sendVector fn v c).outs = s.outs := by unfold State.sendVector; split <;> rfl
@[simp] theorem sendVector_wpLists (fn v : Nat) (c : MsgClass) : (s.sendVector fn v c).wpLists = s.wpLists := by unfold State.sendVector; split <;> rfl
@[simp] theorem sendVector_wpMem (fn v : Nat) (c : MsgClass) : (s.sendVector fn v c).wpMem = s.wpMem := by unfold State.sendVector; split <;> rfl
@[simp] theorem sendVector_samples (fn v : Nat) (c : MsgClass) : (s.sendVector fn v c).samples = s.samples := by unfold State.sendVector; split <;> rfl
@[simp] theorem sendVector_fld (fn v : Nat) (c : MsgClass) : (s.sendVector fn v c).fld = s.fld := by unfold State.sendVector; split <;> rfl
@[simp] theorem sendVector_mgmt (fn v : Nat) (c : MsgClass) : (s.sendVector fn v c).mgmt = s.mgmt := by unfold State.sendVector; split <;> rfl
@[simp] theorem sendVector_sent (fn v : Nat) (c : MsgClass) : (s.sendVector fn v c).sent = s.sent := by unfold State.sendVector; split <;> rfl
@[simp] theorem sendVector_frees (fn v : Nat) (c : MsgClass) : (s.sendVector fn v c).frees = s.frees := by unfold State.sendVector; split <;> rfl

@[simp] theorem sendPf1_pending (v : Nat) : (s.sendPf1 v).pending = s.pending := by unfold State.sendPf1; split <;> simp
@[simp] theorem sendPf1_regs (v : Nat) : (s.sendPf1 v).regs = s.regs := by unfold State.sendPf1; split <;> simp
@[simp] theorem sendPf1_chans (v : Nat) : (s.sendPf1 v).chans = s.chans := by unfold State.sendPf1; split <;> simp
@[simp] theorem sendPf1_ctl (v : Nat) : (s.sendPf1 v).ctl = s.ctl := by unfold State.sendPf1; split <;> simp
@[simp] theorem sendPf1_power (v : Nat) : (s.sendPf1 v).power = s.power := by unfold State.sendPf1; split <;> simp
@[simp] theorem sendPf1_ret (v : Nat) : (s.sendPf1 v).ret = s.ret := by unfold State.sendPf1; split <;> simp
@[simp] theorem sendPf1_fuses (v : Nat) : (s.sendPf1 v).fuses = s.fuses := by unfold State.sendPf1; split <;> simp
@[simp] theorem sendPf1_boot (v : Nat) : (s.sendPf1 v).boot = s.boot := by unfold State.sendPf1; split <;> simp
@[simp] theorem sendPf1_fen (v : Nat) : (s.sendPf1 v).fen = s.fen := by unfold State.sendPf1; split <;> simp
@[simp] theorem sendPf1_fenChk (v : Nat) : (s.sendPf1 v).fenChk = s.fenChk := by unfold State.sendPf1; split <;> simp
@[simp] theorem sendPf1_fenFix (v : Nat) : (s.sendPf1 v).fenFix = s.fenFix := by unfold State.sendPf1; split <;> simp
@[simp] theorem sendPf1_near (v : Nat) : (s.sendPf1 v).near = s.near := by unfold State.sendPf1; split <;> simp
@[simp] theorem sendPf1_troughs (v : Nat) : (s.sendPf1 v).troughs = s.troughs := by unfold State.sendPf1; split <;> simp
@[simp] theorem sendPf1_mirrorQ (v : Nat) : (s.sendPf1 v).mirrorQ = s.mirrorQ := by unfold State.sendPf1; split <;> simp
@[simp] theorem sendPf1_outBits (v : Nat) : (s.sendPf1 v).outBits = s.outBits := by unfold State.sendPf1; split <;> simp
@[simp] theorem sendPf1_yard (v : Nat) : (s.sendPf1 v).yard = s.yard := by unfold State.sendPf1; split <;> simp
@[simp] theorem sendPf1_grooms (v : Nat) : (s.sendPf1 v).grooms = s.grooms := by unfold State.sendPf1; split <;> simp
@[simp] theorem sendPf1_scratch (v : Nat) : (s.sendPf1 v).scratch = s.scratch := by unfold State.sendPf1; split <;> simp
@[simp] theorem sendPf1_stalls (v : Nat) : (s.sendPf1 v).stalls = s.stalls := by unfold State.sendPf1; split <;> simp
@[simp] theorem sendPf1_lanes (v : Nat) : (s.sendPf1 v).lanes = s.lanes := by unfold State.sendPf1; split <;> simp
@[simp] theorem sendPf1_ctxs (v : Nat) : (s.sendPf1 v).ctxs = s.ctxs := by unfold State.sendPf1; split <;> simp
@[simp] theorem sendPf1_baysServed (v : Nat) : (s.sendPf1 v).baysServed = s.baysServed := by unfold State.sendPf1; split <;> simp
@[simp] theorem sendPf1_crib (v : Nat) : (s.sendPf1 v).crib = s.crib := by unfold State.sendPf1; split <;> simp
@[simp] theorem sendPf1_cribLoad (v : Nat) : (s.sendPf1 v).cribLoad = s.cribLoad := by unfold State.sendPf1; split <;> simp
@[simp] theorem sendPf1_paddock (v : Nat) : (s.sendPf1 v).paddock = s.paddock := by unfold State.sendPf1; split <;> simp
@[simp] theorem sendPf1_padLoad (v : Nat) : (s.sendPf1 v).padLoad = s.padLoad := by unfold State.sendPf1; split <;> simp
@[simp] theorem sendPf1_herds (v : Nat) : (s.sendPf1 v).herds = s.herds := by unfold State.sendPf1; split <;> simp
@[simp] theorem sendPf1_adcs (v : Nat) : (s.sendPf1 v).adcs = s.adcs := by unfold State.sendPf1; split <;> simp
@[simp] theorem sendPf1_vsts (v : Nat) : (s.sendPf1 v).vsts = s.vsts := by unfold State.sendPf1; split <;> simp
@[simp] theorem sendPf1_rings (v : Nat) : (s.sendPf1 v).rings = s.rings := by unfold State.sendPf1; split <;> simp
@[simp] theorem sendPf1_mirrors (v : Nat) : (s.sendPf1 v).mirrors = s.mirrors := by unfold State.sendPf1; split <;> simp
@[simp] theorem sendPf1_pair (v : Nat) : (s.sendPf1 v).pair = s.pair := by unfold State.sendPf1; split <;> simp
@[simp] theorem sendPf1_tb (v : Nat) : (s.sendPf1 v).tb = s.tb := by unfold State.sendPf1; split <;> simp
@[simp] theorem sendPf1_outs (v : Nat) : (s.sendPf1 v).outs = s.outs := by unfold State.sendPf1; split <;> simp
@[simp] theorem sendPf1_wpLists (v : Nat) : (s.sendPf1 v).wpLists = s.wpLists := by unfold State.sendPf1; split <;> simp
@[simp] theorem sendPf1_wpMem (v : Nat) : (s.sendPf1 v).wpMem = s.wpMem := by unfold State.sendPf1; split <;> simp
@[simp] theorem sendPf1_samples (v : Nat) : (s.sendPf1 v).samples = s.samples := by unfold State.sendPf1; split <;> simp
@[simp] theorem sendPf1_fld (v : Nat) : (s.sendPf1 v).fld = s.fld := by unfold State.sendPf1; split <;> simp
@[simp] theorem sendPf1_mgmt (v : Nat) : (s.sendPf1 v).mgmt = s.mgmt := by unfold State.sendPf1; split <;> simp
@[simp] theorem sendPf1_sent (v : Nat) : (s.sendPf1 v).sent = s.sent := by unfold State.sendPf1; split <;> simp
@[simp] theorem sendPf1_frees (v : Nat) : (s.sendPf1 v).frees = s.frees := by unfold State.sendPf1; split <;> simp

@[simp] theorem raiseYard_pending (p t : Nat) : (s.raiseYard p t).pending = s.pending := by unfold State.raiseYard; split <;> (try split) <;> rfl
@[simp] theorem raiseYard_chans (p t : Nat) : (s.raiseYard p t).chans = s.chans := by unfold State.raiseYard; split <;> (try split) <;> rfl
@[simp] theorem raiseYard_ctl (p t : Nat) : (s.raiseYard p t).ctl = s.ctl := by unfold State.raiseYard; split <;> (try split) <;> rfl
@[simp] theorem raiseYard_power (p t : Nat) : (s.raiseYard p t).power = s.power := by unfold State.raiseYard; split <;> (try split) <;> rfl
@[simp] theorem raiseYard_ret (p t : Nat) : (s.raiseYard p t).ret = s.ret := by unfold State.raiseYard; split <;> (try split) <;> rfl
@[simp] theorem raiseYard_fuses (p t : Nat) : (s.raiseYard p t).fuses = s.fuses := by unfold State.raiseYard; split <;> (try split) <;> rfl
@[simp] theorem raiseYard_boot (p t : Nat) : (s.raiseYard p t).boot = s.boot := by unfold State.raiseYard; split <;> (try split) <;> rfl
@[simp] theorem raiseYard_fen (p t : Nat) : (s.raiseYard p t).fen = s.fen := by unfold State.raiseYard; split <;> (try split) <;> rfl
@[simp] theorem raiseYard_fenChk (p t : Nat) : (s.raiseYard p t).fenChk = s.fenChk := by unfold State.raiseYard; split <;> (try split) <;> rfl
@[simp] theorem raiseYard_fenFix (p t : Nat) : (s.raiseYard p t).fenFix = s.fenFix := by unfold State.raiseYard; split <;> (try split) <;> rfl
@[simp] theorem raiseYard_near (p t : Nat) : (s.raiseYard p t).near = s.near := by unfold State.raiseYard; split <;> (try split) <;> rfl
@[simp] theorem raiseYard_troughs (p t : Nat) : (s.raiseYard p t).troughs = s.troughs := by unfold State.raiseYard; split <;> (try split) <;> rfl
@[simp] theorem raiseYard_mirrorQ (p t : Nat) : (s.raiseYard p t).mirrorQ = s.mirrorQ := by unfold State.raiseYard; split <;> (try split) <;> rfl
@[simp] theorem raiseYard_outBits (p t : Nat) : (s.raiseYard p t).outBits = s.outBits := by unfold State.raiseYard; split <;> (try split) <;> rfl
@[simp] theorem raiseYard_grooms (p t : Nat) : (s.raiseYard p t).grooms = s.grooms := by unfold State.raiseYard; split <;> (try split) <;> rfl
@[simp] theorem raiseYard_scratch (p t : Nat) : (s.raiseYard p t).scratch = s.scratch := by unfold State.raiseYard; split <;> (try split) <;> rfl
@[simp] theorem raiseYard_stalls (p t : Nat) : (s.raiseYard p t).stalls = s.stalls := by unfold State.raiseYard; split <;> (try split) <;> rfl
@[simp] theorem raiseYard_lanes (p t : Nat) : (s.raiseYard p t).lanes = s.lanes := by unfold State.raiseYard; split <;> (try split) <;> rfl
@[simp] theorem raiseYard_ctxs (p t : Nat) : (s.raiseYard p t).ctxs = s.ctxs := by unfold State.raiseYard; split <;> (try split) <;> rfl
@[simp] theorem raiseYard_baysServed (p t : Nat) : (s.raiseYard p t).baysServed = s.baysServed := by unfold State.raiseYard; split <;> (try split) <;> rfl
@[simp] theorem raiseYard_crib (p t : Nat) : (s.raiseYard p t).crib = s.crib := by unfold State.raiseYard; split <;> (try split) <;> rfl
@[simp] theorem raiseYard_cribLoad (p t : Nat) : (s.raiseYard p t).cribLoad = s.cribLoad := by unfold State.raiseYard; split <;> (try split) <;> rfl
@[simp] theorem raiseYard_paddock (p t : Nat) : (s.raiseYard p t).paddock = s.paddock := by unfold State.raiseYard; split <;> (try split) <;> rfl
@[simp] theorem raiseYard_padLoad (p t : Nat) : (s.raiseYard p t).padLoad = s.padLoad := by unfold State.raiseYard; split <;> (try split) <;> rfl
@[simp] theorem raiseYard_herds (p t : Nat) : (s.raiseYard p t).herds = s.herds := by unfold State.raiseYard; split <;> (try split) <;> rfl
@[simp] theorem raiseYard_adcs (p t : Nat) : (s.raiseYard p t).adcs = s.adcs := by unfold State.raiseYard; split <;> (try split) <;> rfl
@[simp] theorem raiseYard_vsts (p t : Nat) : (s.raiseYard p t).vsts = s.vsts := by unfold State.raiseYard; split <;> (try split) <;> rfl
@[simp] theorem raiseYard_rings (p t : Nat) : (s.raiseYard p t).rings = s.rings := by unfold State.raiseYard; split <;> (try split) <;> rfl
@[simp] theorem raiseYard_mirrors (p t : Nat) : (s.raiseYard p t).mirrors = s.mirrors := by unfold State.raiseYard; split <;> (try split) <;> rfl
@[simp] theorem raiseYard_pair (p t : Nat) : (s.raiseYard p t).pair = s.pair := by unfold State.raiseYard; split <;> (try split) <;> rfl
@[simp] theorem raiseYard_tb (p t : Nat) : (s.raiseYard p t).tb = s.tb := by unfold State.raiseYard; split <;> (try split) <;> rfl
@[simp] theorem raiseYard_outs (p t : Nat) : (s.raiseYard p t).outs = s.outs := by unfold State.raiseYard; split <;> (try split) <;> rfl
@[simp] theorem raiseYard_wpLists (p t : Nat) : (s.raiseYard p t).wpLists = s.wpLists := by unfold State.raiseYard; split <;> (try split) <;> rfl
@[simp] theorem raiseYard_wpMem (p t : Nat) : (s.raiseYard p t).wpMem = s.wpMem := by unfold State.raiseYard; split <;> (try split) <;> rfl
@[simp] theorem raiseYard_samples (p t : Nat) : (s.raiseYard p t).samples = s.samples := by unfold State.raiseYard; split <;> (try split) <;> rfl
@[simp] theorem raiseYard_fld (p t : Nat) : (s.raiseYard p t).fld = s.fld := by unfold State.raiseYard; split <;> (try split) <;> rfl
@[simp] theorem raiseYard_mgmt (p t : Nat) : (s.raiseYard p t).mgmt = s.mgmt := by unfold State.raiseYard; split <;> (try split) <;> rfl
@[simp] theorem raiseYard_host (p t : Nat) : (s.raiseYard p t).host = s.host := by unfold State.raiseYard; split <;> (try split) <;> rfl
@[simp] theorem raiseYard_sent (p t : Nat) : (s.raiseYard p t).sent = s.sent := by unfold State.raiseYard; split <;> (try split) <;> rfl
@[simp] theorem raiseYard_frees (p t : Nat) : (s.raiseYard p t).frees = s.frees := by unfold State.raiseYard; split <;> (try split) <;> rfl

@[simp] theorem fenUe_pending (a : Nat) : (s.fenUe a).pending = s.pending := by unfold State.fenUe; dsimp only; rw [alarm_pending]; split <;> rfl
@[simp] theorem fenUe_chans (a : Nat) : (s.fenUe a).chans = s.chans := by unfold State.fenUe; dsimp only; rw [alarm_chans]; split <;> rfl
@[simp] theorem fenUe_power (a : Nat) : (s.fenUe a).power = s.power := by unfold State.fenUe; dsimp only; rw [alarm_power]; split <;> rfl
@[simp] theorem fenUe_ret (a : Nat) : (s.fenUe a).ret = s.ret := by unfold State.fenUe; dsimp only; rw [alarm_ret]; split <;> rfl
@[simp] theorem fenUe_fuses (a : Nat) : (s.fenUe a).fuses = s.fuses := by unfold State.fenUe; dsimp only; rw [alarm_fuses]; split <;> rfl
@[simp] theorem fenUe_boot (a : Nat) : (s.fenUe a).boot = s.boot := by unfold State.fenUe; dsimp only; rw [alarm_boot]; split <;> rfl
@[simp] theorem fenUe_fen (a : Nat) : (s.fenUe a).fen = s.fen := by unfold State.fenUe; dsimp only; rw [alarm_fen]; split <;> rfl
@[simp] theorem fenUe_fenChk (a : Nat) : (s.fenUe a).fenChk = s.fenChk := by unfold State.fenUe; dsimp only; rw [alarm_fenChk]; split <;> rfl
@[simp] theorem fenUe_fenFix (a : Nat) : (s.fenUe a).fenFix = s.fenFix := by unfold State.fenUe; dsimp only; rw [alarm_fenFix]; split <;> rfl
@[simp] theorem fenUe_near (a : Nat) : (s.fenUe a).near = s.near := by unfold State.fenUe; dsimp only; rw [alarm_near]; split <;> rfl
@[simp] theorem fenUe_troughs (a : Nat) : (s.fenUe a).troughs = s.troughs := by unfold State.fenUe; dsimp only; rw [alarm_troughs]; split <;> rfl
@[simp] theorem fenUe_mirrorQ (a : Nat) : (s.fenUe a).mirrorQ = s.mirrorQ := by unfold State.fenUe; dsimp only; rw [alarm_mirrorQ]; split <;> rfl
@[simp] theorem fenUe_outBits (a : Nat) : (s.fenUe a).outBits = s.outBits := by unfold State.fenUe; dsimp only; rw [alarm_outBits]; split <;> rfl
@[simp] theorem fenUe_yard (a : Nat) : (s.fenUe a).yard = s.yard := by unfold State.fenUe; dsimp only; rw [alarm_yard]; split <;> rfl
@[simp] theorem fenUe_grooms (a : Nat) : (s.fenUe a).grooms = s.grooms := by unfold State.fenUe; dsimp only; rw [alarm_grooms]; split <;> rfl
@[simp] theorem fenUe_scratch (a : Nat) : (s.fenUe a).scratch = s.scratch := by unfold State.fenUe; dsimp only; rw [alarm_scratch]; split <;> rfl
@[simp] theorem fenUe_stalls (a : Nat) : (s.fenUe a).stalls = s.stalls := by unfold State.fenUe; dsimp only; rw [alarm_stalls]; split <;> rfl
@[simp] theorem fenUe_lanes (a : Nat) : (s.fenUe a).lanes = s.lanes := by unfold State.fenUe; dsimp only; rw [alarm_lanes]; split <;> rfl
@[simp] theorem fenUe_ctxs (a : Nat) : (s.fenUe a).ctxs = s.ctxs := by unfold State.fenUe; dsimp only; rw [alarm_ctxs]; split <;> rfl
@[simp] theorem fenUe_baysServed (a : Nat) : (s.fenUe a).baysServed = s.baysServed := by unfold State.fenUe; dsimp only; rw [alarm_baysServed]; split <;> rfl
@[simp] theorem fenUe_crib (a : Nat) : (s.fenUe a).crib = s.crib := by unfold State.fenUe; dsimp only; rw [alarm_crib]; split <;> rfl
@[simp] theorem fenUe_cribLoad (a : Nat) : (s.fenUe a).cribLoad = s.cribLoad := by unfold State.fenUe; dsimp only; rw [alarm_cribLoad]; split <;> rfl
@[simp] theorem fenUe_paddock (a : Nat) : (s.fenUe a).paddock = s.paddock := by unfold State.fenUe; dsimp only; rw [alarm_paddock]; split <;> rfl
@[simp] theorem fenUe_padLoad (a : Nat) : (s.fenUe a).padLoad = s.padLoad := by unfold State.fenUe; dsimp only; rw [alarm_padLoad]; split <;> rfl
@[simp] theorem fenUe_herds (a : Nat) : (s.fenUe a).herds = s.herds := by unfold State.fenUe; dsimp only; rw [alarm_herds]; split <;> rfl
@[simp] theorem fenUe_adcs (a : Nat) : (s.fenUe a).adcs = s.adcs := by unfold State.fenUe; dsimp only; rw [alarm_adcs]; split <;> rfl
@[simp] theorem fenUe_vsts (a : Nat) : (s.fenUe a).vsts = s.vsts := by unfold State.fenUe; dsimp only; rw [alarm_vsts]; split <;> rfl
@[simp] theorem fenUe_rings (a : Nat) : (s.fenUe a).rings = s.rings := by unfold State.fenUe; dsimp only; rw [alarm_rings]; split <;> rfl
@[simp] theorem fenUe_mirrors (a : Nat) : (s.fenUe a).mirrors = s.mirrors := by unfold State.fenUe; dsimp only; rw [alarm_mirrors]; split <;> rfl
@[simp] theorem fenUe_pair (a : Nat) : (s.fenUe a).pair = s.pair := by unfold State.fenUe; dsimp only; rw [alarm_pair]; split <;> rfl
@[simp] theorem fenUe_tb (a : Nat) : (s.fenUe a).tb = s.tb := by unfold State.fenUe; dsimp only; rw [alarm_tb]; split <;> rfl
@[simp] theorem fenUe_outs (a : Nat) : (s.fenUe a).outs = s.outs := by unfold State.fenUe; dsimp only; rw [alarm_outs]; split <;> rfl
@[simp] theorem fenUe_wpLists (a : Nat) : (s.fenUe a).wpLists = s.wpLists := by unfold State.fenUe; dsimp only; rw [alarm_wpLists]; split <;> rfl
@[simp] theorem fenUe_wpMem (a : Nat) : (s.fenUe a).wpMem = s.wpMem := by unfold State.fenUe; dsimp only; rw [alarm_wpMem]; split <;> rfl
@[simp] theorem fenUe_samples (a : Nat) : (s.fenUe a).samples = s.samples := by unfold State.fenUe; dsimp only; rw [alarm_samples]; split <;> rfl
@[simp] theorem fenUe_fld (a : Nat) : (s.fenUe a).fld = s.fld := by unfold State.fenUe; dsimp only; rw [alarm_fld]; split <;> rfl
@[simp] theorem fenUe_host (a : Nat) : (s.fenUe a).host = s.host := by unfold State.fenUe; dsimp only; rw [alarm_host]; split <;> rfl
@[simp] theorem fenUe_sent (a : Nat) : (s.fenUe a).sent = s.sent := by unfold State.fenUe; dsimp only; rw [alarm_sent]; split <;> rfl
@[simp] theorem fenUe_frees (a : Nat) : (s.fenUe a).frees = s.frees := by unfold State.fenUe; dsimp only; rw [alarm_frees]; split <;> rfl

@[simp] theorem devIrq_pending (b : Nat) : (s.devIrq b).pending = s.pending := by unfold State.devIrq; dsimp only; split <;> simp
@[simp] theorem devIrq_chans (b : Nat) : (s.devIrq b).chans = s.chans := by unfold State.devIrq; dsimp only; split <;> simp
@[simp] theorem devIrq_ctl (b : Nat) : (s.devIrq b).ctl = s.ctl := by unfold State.devIrq; dsimp only; split <;> simp
@[simp] theorem devIrq_power (b : Nat) : (s.devIrq b).power = s.power := by unfold State.devIrq; dsimp only; split <;> simp
@[simp] theorem devIrq_ret (b : Nat) : (s.devIrq b).ret = s.ret := by unfold State.devIrq; dsimp only; split <;> simp
@[simp] theorem devIrq_fuses (b : Nat) : (s.devIrq b).fuses = s.fuses := by unfold State.devIrq; dsimp only; split <;> simp
@[simp] theorem devIrq_boot (b : Nat) : (s.devIrq b).boot = s.boot := by unfold State.devIrq; dsimp only; split <;> simp
@[simp] theorem devIrq_fen (b : Nat) : (s.devIrq b).fen = s.fen := by unfold State.devIrq; dsimp only; split <;> simp
@[simp] theorem devIrq_fenChk (b : Nat) : (s.devIrq b).fenChk = s.fenChk := by unfold State.devIrq; dsimp only; split <;> simp
@[simp] theorem devIrq_fenFix (b : Nat) : (s.devIrq b).fenFix = s.fenFix := by unfold State.devIrq; dsimp only; split <;> simp
@[simp] theorem devIrq_near (b : Nat) : (s.devIrq b).near = s.near := by unfold State.devIrq; dsimp only; split <;> simp
@[simp] theorem devIrq_troughs (b : Nat) : (s.devIrq b).troughs = s.troughs := by unfold State.devIrq; dsimp only; split <;> simp
@[simp] theorem devIrq_mirrorQ (b : Nat) : (s.devIrq b).mirrorQ = s.mirrorQ := by unfold State.devIrq; dsimp only; split <;> simp
@[simp] theorem devIrq_outBits (b : Nat) : (s.devIrq b).outBits = s.outBits := by unfold State.devIrq; dsimp only; split <;> simp
@[simp] theorem devIrq_yard (b : Nat) : (s.devIrq b).yard = s.yard := by unfold State.devIrq; dsimp only; split <;> simp
@[simp] theorem devIrq_grooms (b : Nat) : (s.devIrq b).grooms = s.grooms := by unfold State.devIrq; dsimp only; split <;> simp
@[simp] theorem devIrq_scratch (b : Nat) : (s.devIrq b).scratch = s.scratch := by unfold State.devIrq; dsimp only; split <;> simp
@[simp] theorem devIrq_stalls (b : Nat) : (s.devIrq b).stalls = s.stalls := by unfold State.devIrq; dsimp only; split <;> simp
@[simp] theorem devIrq_lanes (b : Nat) : (s.devIrq b).lanes = s.lanes := by unfold State.devIrq; dsimp only; split <;> simp
@[simp] theorem devIrq_ctxs (b : Nat) : (s.devIrq b).ctxs = s.ctxs := by unfold State.devIrq; dsimp only; split <;> simp
@[simp] theorem devIrq_baysServed (b : Nat) : (s.devIrq b).baysServed = s.baysServed := by unfold State.devIrq; dsimp only; split <;> simp
@[simp] theorem devIrq_crib (b : Nat) : (s.devIrq b).crib = s.crib := by unfold State.devIrq; dsimp only; split <;> simp
@[simp] theorem devIrq_cribLoad (b : Nat) : (s.devIrq b).cribLoad = s.cribLoad := by unfold State.devIrq; dsimp only; split <;> simp
@[simp] theorem devIrq_paddock (b : Nat) : (s.devIrq b).paddock = s.paddock := by unfold State.devIrq; dsimp only; split <;> simp
@[simp] theorem devIrq_padLoad (b : Nat) : (s.devIrq b).padLoad = s.padLoad := by unfold State.devIrq; dsimp only; split <;> simp
@[simp] theorem devIrq_herds (b : Nat) : (s.devIrq b).herds = s.herds := by unfold State.devIrq; dsimp only; split <;> simp
@[simp] theorem devIrq_adcs (b : Nat) : (s.devIrq b).adcs = s.adcs := by unfold State.devIrq; dsimp only; split <;> simp
@[simp] theorem devIrq_vsts (b : Nat) : (s.devIrq b).vsts = s.vsts := by unfold State.devIrq; dsimp only; split <;> simp
@[simp] theorem devIrq_rings (b : Nat) : (s.devIrq b).rings = s.rings := by unfold State.devIrq; dsimp only; split <;> simp
@[simp] theorem devIrq_mirrors (b : Nat) : (s.devIrq b).mirrors = s.mirrors := by unfold State.devIrq; dsimp only; split <;> simp
@[simp] theorem devIrq_pair (b : Nat) : (s.devIrq b).pair = s.pair := by unfold State.devIrq; dsimp only; split <;> simp
@[simp] theorem devIrq_tb (b : Nat) : (s.devIrq b).tb = s.tb := by unfold State.devIrq; dsimp only; split <;> simp
@[simp] theorem devIrq_outs (b : Nat) : (s.devIrq b).outs = s.outs := by unfold State.devIrq; dsimp only; split <;> simp
@[simp] theorem devIrq_wpLists (b : Nat) : (s.devIrq b).wpLists = s.wpLists := by unfold State.devIrq; dsimp only; split <;> simp
@[simp] theorem devIrq_wpMem (b : Nat) : (s.devIrq b).wpMem = s.wpMem := by unfold State.devIrq; dsimp only; split <;> simp
@[simp] theorem devIrq_samples (b : Nat) : (s.devIrq b).samples = s.samples := by unfold State.devIrq; dsimp only; split <;> simp
@[simp] theorem devIrq_fld (b : Nat) : (s.devIrq b).fld = s.fld := by unfold State.devIrq; dsimp only; split <;> simp
@[simp] theorem devIrq_mgmt (b : Nat) : (s.devIrq b).mgmt = s.mgmt := by unfold State.devIrq; dsimp only; split <;> simp
@[simp] theorem devIrq_sent (b : Nat) : (s.devIrq b).sent = s.sent := by unfold State.devIrq; dsimp only; split <;> simp
@[simp] theorem devIrq_frees (b : Nat) : (s.devIrq b).frees = s.frees := by unfold State.devIrq; dsimp only; split <;> simp

end Sys2Proof.Machine
end

