-- ==== Sys2Proof/Tests/Slice0.lean ====
section
/-! SUPPORT. Tests: WellFormed's checks, worked figures of the specification, and a witness for each hypothesis of a statement. -/

namespace Sys2Proof.Tests

open Sys2Proof.Machine

/-! ### WellFormed: each check refuses a term -/

theorem test_ill_formed_supplies :
    wellFormed (.thermalSample []) = false ∧ wellFormed (.railSample [] 0) = false ∧
    wellFormed (.railSample (List.replicate 10 0) 65536) = false ∧ wellFormed (.vbatRise 65536) = false ∧
    wellFormed (.vbatBrownout 65536) = false ∧ wellFormed (.vbatLow 65536) = false ∧ wellFormed (.vbatRecover 65536) = false ∧
    wellFormed (.retentionSoftwareWrite 4096 [0]) = false ∧ wellFormed (.thermalSample (List.replicate 32 400)) = true := by decide

theorem test_ill_formed_lanes :
    wellFormed (.markRowReceived 0 0 [0] []) = false ∧ wellFormed (.codewordDecode 0 545) = false ∧
    wellFormed (.blockReceive 0 true []) = false ∧ wellFormed (.checkerLock 0 1 2 0) = false ∧
    wellFormed (.codewordDecode 0 544) = true := by decide

theorem test_ill_formed_packets :
    wellFormed (.frameStartReceived 0 0 0 [0] 0 false 0 true) = false ∧
    wellFormed (.frameStartReceived 0 0 0 [] 0 false (2 ^ 64) true) = false ∧
    wellFormed (.lineReceived 0 0 0 [0] 0 false 0 true) = false ∧ wellFormed (.lineReceived 0 0 0 [] 0 false (2 ^ 64) true) = false ∧
    wellFormed (.frameEndReceived 0 0 0 [0] 0 false 0 true) = false ∧
    wellFormed (.frameEndReceived 0 0 0 [] 0 false (2 ^ 64) true) = false ∧
    wellFormed (.controlResponseReceived 0 0 0 [0] 0 false 0) = false ∧
    wellFormed (.controlResponseReceived 0 0 0 [] 0 false (2 ^ 64)) = false ∧
    wellFormed (.eventPacketReceived 0 0 [0] 0 false 0 true) = false ∧
    wellFormed (.eventPacketReceived 0 0 [] 0 false (2 ^ 64) true) = false ∧
    wellFormed (.heartbeatReceived 0 0 [0] 0 false 0) = false ∧ wellFormed (.heartbeatReceived 0 0 [] 0 false (2 ^ 64)) = false ∧
    wellFormed (.triggerCommit 0 (2 ^ 64) true) = false ∧ wellFormed (.pportFrameVAssert 0 (2 ^ 64)) = false ∧
    wellFormed (.pportLineEnd 0 [] [1]) = false ∧ wellFormed (.lineReceived 0 0 0 [0, 0, 0, 0] 0 false 0 true) = true := by decide

theorem test_ill_formed_data :
    wellFormed (.adcUnitCommit 0 []) = false ∧ wellFormed (.adcRunEnd 0 (List.replicate 32 0) 0) = false ∧
    wellFormed (.vstPixelEnd 0 [[1], []]) = false ∧ wellFormed (.vstPixelEvent 0 [[1], []]) = false ∧
    wellFormed (.fenWordRead (2 ^ 37) .clean) = false ∧ wellFormed (.fenCorrectionWriteback (2 ^ 37) false) = false ∧
    wellFormed (.fenPartialWrite (2 ^ 37) 0 0 .clean) = false ∧ wellFormed (.descriptorFetch 0 0 0) = false ∧
    wellFormed (.descriptorFetchComplete 0 [0]) = false ∧ wellFormed (.descriptorFetch 0 1 0) = true := by decide

theorem test_ill_formed_time :
    wellFormed (.ppsEdge (2 ^ 64) false) = false ∧ wellFormed (.trigInEdge 0 true (2 ^ 64)) = false ∧
    wellFormed (.positionSampleReceived 0 [(1, .clean), (1, .single)]) = false ∧ wellFormed (.yardProducerEvent [3, 3]) = false ∧
    wellFormed (.fieldHeartbeatReceived 65536) = false ∧ wellFormed (.ssiRead 0 0 true (2 ^ 64)) = false ∧
    wellFormed (.encoderIndex 0 (2 ^ 64)) = false ∧ wellFormed (.fieldInputEdge 0 true false (2 ^ 64)) = false ∧
    wellFormed (.yardProducerEvent [3, 4]) = true := by decide

theorem test_ill_formed_host :
    wellFormed (.configRequest 0 false 2 0 0) = false ∧ wellFormed (.configRequest 0 false 4096 0 0) = false ∧
    wellFormed (.hostMemoryRequest 0 0 true 0 4 [] [] false true) = false ∧
    wellFormed (.hostMemoryRequest 0 0 false 0 4 [] [] true true) = false ∧
    wellFormed (.registerWrite 0 .HOST_CTRL 65536 0 0) = false ∧ wellFormed (.hostCompletionReceived 16384 [] true false true) = false ∧
    wellFormed (.hostCompletionReceived 0 (List.replicate 4097 0) true false true) = false ∧
    wellFormed (.completionTimeout 16384) = false ∧ wellFormed (.tagQuarantineEnd 16384) = false ∧
    wellFormed (.hostLinkUp 0 16 true) = false ∧ wellFormed (.hostLinkUp 7 16 true) = false ∧ wellFormed (.hostLinkUp 6 3 true) = false ∧
    wellFormed (.hostLinkUp 6 16 true) = true := by decide +kernel

theorem test_ill_formed_management :
    wellFormed (.pairStatusReceived [] 0 false (2 ^ 64)) = false ∧ wellFormed (.forwardPacketReceived [0] 0 false 0 true) = false ∧
    wellFormed (.forwardPacketReceived [] 0 false (2 ^ 64) true) = false ∧ wellFormed (.fenCaseSample []) = false ∧
    wellFormed (.activitySample []) = false ∧ wellFormed (.activitySample (List.replicate 34 257)) = false ∧
    wellFormed (.istSlice 0 (2 ^ 32) false true true) = false ∧ wellFormed (.pldmSensorRead 65536) = false ∧
    wellFormed (.mctpLogPop 65536 1) = false ∧ wellFormed (.mctpRegRead 4) = false ∧ wellFormed (.mctpRegRead 0x100000) = false ∧
    wellFormed (.mctpUnsupported 256) = false ∧ wellFormed (.mctpRegRead 8) = true := by decide

/-! ### Worked figures of the specification -/

/-- Table 18.5. -/
theorem test_addresses : regAt 0 0x1E0208 = some (.LANE_STATUS, 29, 4) ∧ regAt 0 0x4E0108 = some (.GROOM_G, 49, 8) ∧
    winAt 0 0x810008 = some (.way 4096 1) ∧ regAt 0 0x20C888 = some (.CTX_DEST_CTRL, 3, 8) ∧
    regAt 1 0x41050 = some (.YARD_CH_CFG, 5, 4) := by decide +kernel

/-- The precoder's example after R100. -/
theorem test_precoder : grayStream [false, false, false, true, true, true, true, false, true, false] = [0, 1, 2, 3, 3] ∧
    precode 0 [0, 1, 2, 3, 3] = [0, 1, 1, 2, 1] ∧ [0, 1, 1, 2, 1].map level = [-3, -1, -1, 1, -1] := by decide

/-- The first bits of the example field after R111. -/
theorem test_field_levels : (fieldLevels 0xF9004010).take 20 =
    [-3, -3, 3, 3, -3, -3, 3, 3, -3, -3, 3, 3, -3, -3, 3, 3, 3, 3, -3, -3] := by decide

/-- Table 19.18. -/
theorem test_balls : ballAt 45 7 = .cl 29 true true ∧ ballAt 7 45 = .pcie 5 false false ∧ ballAt 1 18 = .cwl 3 false false ∧
    ballAt 38 48 = .pport 1 .frameV true ∧ ballAt 47 19 = .ain 3 2 true ∧ ballAt 45 50 = .enc 5 2 false ∧
    ballAt 15 30 = .supply .hbmq ∧ ballAt 12 23 = .supply .sram ∧ ballAt 20 25 = .supply .core := by decide

/-- The 2,520 populated positions. -/
theorem test_populated : ((List.range 2601).filter fun p => ballAt (p / 51 + 1) (p % 51 + 1) != .none).length = 2520 := by
  decide +kernel

/-- The pixel of chapter 5 through shading and gain: 1,708 with s 0x4800 and g 0x3D71 gives 1,845. -/
theorem test_pixel : shadePx 0x4800 0x3D71 1708 = 1845 := by decide

/-- The stall entry of the stud book (after R664). -/
theorem test_stud_book : [0x180, 0x188, 0x190, 0x198].map (fun a => State.reset.winRead (.stud a)) =
    [0x100000A, 0x100000, 0x10000, 0x40000000010] := by decide +kernel

/-- The descriptor of Table 12.6. -/
theorem test_descriptor : State.reset.wpDescBad 0 0x201F481000 = false ∧
    ((State.reset.wpSet 0 0x201F481000).2.wpFirst 0 = 4096) ∧ (State.reset.wpSet 0 0x201F481000).2.wpCount 0 = 2002 := by decide

/-- The residuals of the example after R296: 5 maps to 10 and -3 to 5, coded with parameter 2 as 11010 and 1001. -/
theorem test_rice : residual 16 5 0 = 10 ∧ residual 16 0 3 = 5 ∧ packBlock 16 [(5, 10), (0, 5)] =
    bitsMsb 8 2 ++ [true, true, false, true, false, true, false, false, true] := by decide

/-- A small state in mode `m` with an image running and the supplies good. -/
def live (m : Mode) : State :=
  { State.reset with
    ctl := ⟨m, .boot, none, []⟩
    power := ⟨true, 3000, false, true, true⟩
    boot := ⟨[], some 0, 0, 0, false⟩ }

/-- A state without main power in mode `m`. -/
def dark (m : Mode) (mv : Nat) : State := { State.reset with ctl := ⟨m, .reset, none, []⟩, power := ⟨false, mv, true, true, false⟩ }

/-! ### Witnesses: modes, resets, retention -/

theorem wit_supplies : (dark .off 0).ctl.mode = .off ∧ (dark .off 0).power.vddAon = false ∧
    2000 ≤ (dark .keep 3000).power.vbatMv ∧ (live .ready).power.vddAon = true ∧ 1900 ≤ (live .ready).power.vbatMv ∧
    (live .ready).power.sampled = true ∧ (live .ready).ret.carrying = false ∧ (dark .keep 1800).ctl.mode = .keep := by decide

theorem wit_supply_low : ({ live .ready with power := ⟨true, 1899, false, true, true⟩ } : State).power.vbatMv < 1900 := by decide

theorem wit_retention : (dark .keep 3000).power.vddAon = false ∧ (dark .keep 3000).ctl.mode = .keep ∧
    ({ live .ready with ret := { Retention.zero with queue := [⟨[(0x800, [1])]⟩] } } : State).ret.queue = [⟨[(0x800, [1])]⟩] ∧
    State.reset.power.vddAon = true ∧ State.reset.power.sampled = false ∧ State.reset.ret.sealValid = false := by decide

theorem wit_resets : (live .ready).power.vddAon = true ∧ (live .ready).power.perst = false ∧ (live .ready).ctl.mode ≠ .reset ∧
    (live .ready).ctl.mode ≠ .off ∧ (live .ready).ctl.mode ≠ .keep ∧ (live .ready).firmware = true ∧
    State.reset.power.vddAon = true ∧ State.reset.ctl.mode = .reset := by decide

theorem wit_mode_requests :
    (∀ q ∈ (live .ready).ctl.pend, q.src ≠ fnSource 1) ∧
    ({ live .armed with ctl := ⟨.armed, .ready, none, [⟨.pf0, 7, .request, 0⟩]⟩ } : State).ctl.pend = [⟨.pf0, 7, .request, 0⟩] ∧
    ({ live .armed with ctl := ⟨.armed, .ready, none, [⟨.pf0, 10, .request, 0⟩]⟩ } : State).ctl.trans = none ∧
    ({ live .armed with ctl := ⟨.armed, .ready, some ⟨.stream, some ⟨.pf0, 7, .request, 0⟩, []⟩, []⟩ } : State).isOn
      F.PAIR_CFG_ENABLE = false := by decide

/-- BOOT with two blank slots: neither passes its checks. -/
def booting : State := { State.reset with ctl := ⟨.boot, .reset, none, []⟩ }

theorem wit_boot : booting.ctl.mode = .boot ∧ booting.boot.running = none ∧ booting.ctl.trans = none ∧
    booting.isOn F.BOOT_STATUS_NONE_VALID = false ∧ bit (booting.rd .ALARM_CFG 1) 0 = true := by decide

/-! ### Witnesses: lanes -/

/-- Stall 0 enabled at width two with its lanes in state `st`, and the stall in state `ls`. -/
def withLanes (st ls : Nat) : State :=
  ((((live .ready).put F.STALL_LINK_CFG_ENABLE 0 1).put F.STALL_LINK_STATUS_WIDTH 0 1).put F.STALL_LINK_STATUS_STATE 0 ls
    |>.put F.LANE_STATUS_STATE 0 st).put F.LANE_STATUS_STATE 1 st

/-- Stall 0 with an outstanding request of software. -/
def withRequest (op sent : Nat) : State :=
  (withLanes lnActive lsUp).modStall 0 fun x => { x with lm := some ⟨op, 7, 0, 0, .software, sent, 0⟩ }

theorem wit_requests : ((withLanes lnActive lsUp).stall 0).lmBusy = false ∧ ((withLanes lnActive lsUp).stall 0).camRetrain = false ∧
    (((withLanes lnTrain lsDown).modStall 0 fun x => { x with camRetrain := true }).stall 0).lmBusy = false ∧
    (withLanes lnActive lsUp).get F.STALL_LINK_CFG_MAX_WIDTH 0 = 1 ∧ bits (0x20 : Word) 4 2 = 2 ∧ (withLanes lnActive lsUp).stUp 0 = true ∧
    (∀ l ∈ ((withLanes lnActive lsUp).linkLanes 0).take (2 ^ bits (0x10 : Word) 4 2), (withLanes lnActive lsUp).laneSt l = lnActive) ∧
    bits (0 : Word) 0 4 ∉ [1, 3, 4, 5, 6] ∧ ((withRequest 1 1).stall 0).lmBusy = true := by decide

theorem wit_exit : (withLanes lnIdle lsIdle).linkOn 0 = true ∧ (withLanes lnIdle lsIdle).stState 0 = lsIdle ∧
    (∀ l ∈ (withLanes lnIdle lsIdle).linkLanes 0, (withLanes lnIdle lsIdle).laneSt l = lnIdle) ∧
    (withLanes lnDeep lsDeep).stState 0 = lsDeep ∧ (withLanes lnDeep lsDeep).lanesOpen = true ∧
    (withLanes lnDeep lsDeep).laneSt 0 = lnDeep ∧ (withLanes lnDeep lsDeep).ownerOf 0 = 0 ∧
    (withLanes lnDeep lsDeep).laneWanted 0 = true := by decide

theorem wit_unanswered : ((withRequest 4 1).stall 0).lm = some ⟨4, 7, 0, 0, .software, 1, 0⟩ ∧
    ((withRequest 1 3).stall 0).lm = some ⟨1, 7, 0, 0, .software, 3, 0⟩ ∧ ((withLanes lnActive lsUp).stall 0).lm = none := by decide

/-- The CRC of a link-management packet that carries `m`. -/
def msgCrc (m : Word) : Nat := crc32c (packetBytes 0x31 0 0 (bytesOfNat 8 m.toNat))

theorem wit_messages :
    ((withRequest 1 1).lmCheck 0 0x0702 (msgCrc 0x0702) false).1 = true ∧
    ((((withRequest 1 1).lmCheck 0 0x0702 (msgCrc 0x0702) false).2.stall 0).lm).isSome = true ∧
    ((withRequest 1 1).lmCheck 0 0x0702 (msgCrc 0x0702) true).1 = false ∧ bits (0x0780 : Word) 8 8 = 7 ∧ bits (0x0880 : Word) 8 8 ≠ 7 ∧
    ((withLanes lnActive lsUp).lmCheck 0 0x0702 (msgCrc 0x0702) false).1 = true ∧
    (((withLanes lnActive lsUp).lmCheck 0 0x0702 (msgCrc 0x0702) false).2.stall 0).lm = none := by decide +kernel

theorem wit_widthReq : (withLanes lnActive lsUp).isOn F.STALL_LM_CTRL_AUTO_GRANT_WIDTH 0 = false ∧
    ((withLanes lnActive lsUp).put F.STALL_LM_CTRL_AUTO_GRANT_WIDTH 0 1).isOn F.STALL_LM_CTRL_AUTO_GRANT_WIDTH 0 = true ∧
    bits (0x200000702 : Word) 32 2 = 2 ∧ bits (0x100000702 : Word) 32 2 = 1 ∧
    (((withLanes lnActive lsUp).put F.STALL_LM_CTRL_AUTO_GRANT_WIDTH 0 1).stall 0).lmBusy = false := by decide

/-- The pair enabled with the causeway's lanes ACTIVE. -/
def withCauseway : State :=
  (List.range 8).foldl (fun a k => a.put F.LANE_STATUS_STATE (32 + k) lnActive)
    (((live .ready).put F.PAIR_CFG_ENABLE 0 1).put F.PAIR_STATUS_CAUSEWAY_UP 0 1)

theorem wit_causeway : (withCauseway.lmCheck 20 0x0704 (msgCrc 0x0704) false).1 = true := by decide +kernel

theorem wit_enable : (live .ready).isOn F.STALL_LINK_CFG_ENABLE 0 = false ∧ (live .ready).fwdIn 0 = false ∧
    (live .ready).isOn F.STALL_LINK_CFG_ENABLE 1 = false ∧ (live .ready).lanesOpen = true ∧ (live .quiet).modeAhead = .quiet ∧
    (∀ k, k < 4 → (live .ready).laneSt k = lnDisabled) ∧ bits (0x224 : Word) 4 2 = 2 ∧ bits (0x224 : Word) 8 1 = 0 ∧
    bits (0x234 : Word) 4 2 = 3 ∧ (withLanes lnActive lsUp).isOn F.STALL_LINK_CFG_ENABLE 0 = true ∧
    ((withLanes lnActive lsUp).stall 0).lm = none ∧
    bits (0x215 : Word) 0 3 ≠ bits ((withLanes lnActive lsUp).rd .STALL_LINK_CFG 0) 0 3 := by decide

theorem wit_training : (withLanes lnWake lsDown).laneSt 0 = lnWake ∧ (withLanes lnTrain lsDown).laneSt 0 = lnTrain ∧
    (withLanes lnWait lsDown).laneSt 0 = lnWait ∧ (withLanes lnDeep lsDeep).laneSt 0 = lnDeep ∧
    (withLanes lnDeep lsDeep).linkOn ((withLanes lnDeep lsDeep).ownerOf 0) = true ∧
    (withLanes lnDeep lsDeep).isOn F.STALL_LM_CTRL_CAM_WAKE_EN 0 = true ∧ (withLanes lnActive lsUp).laneSt 1 = lnActive ∧
    ((withLanes lnActive lsUp).lane 1).markers < 2 ∧
    2 ≤ (((withLanes lnActive lsUp).modLane 0 fun x => { x with markers := 2 }).lane 0).markers := by decide

theorem wit_fields : trainGood 0xF9004010 = true ∧ trainGood 0xF8004010 = false ∧ (0xF9004010 : Nat).testBit 14 ≠ ((withLanes lnTrain lsDown).lane 0).acted ∧
    presetTaps ((trainField 0x4080) / 64 % 8) = some (4, 52, 8) ∧ (withLanes lnTrain lsDown).isOn F.LANE_CTRL_TX_FIR_OVERRIDE 0 = false ∧
    bits ((withLanes lnTrain lsDown).rd .LANE_TX_FIR 0) 8 7 = 64 ∧ (trainField 0xC00).testBit 11 = (withLanes lnTrain lsDown).fecOn 0 ∧
    (trainField 0xC00).testBit 10 = true ∧ trainField 0xC00 / 4096 % 4 = (withLanes lnTrain lsDown).linkRate 0 ∧
    trainGood (trainField 0xC00) = true ∧
    2 ≤ (((withLanes lnTrain lsDown).modLane 0 fun x => { x with goodReady := 2 }).lane 0).goodReady ∧
    ((withLanes lnTrain lsDown).put F.LANE_STATUS_LOCAL_RX_READY 0 1).isOn F.LANE_STATUS_LOCAL_RX_READY 0 = true := by decide

/-- A training field worked out in the specification: 0x00_4010 with its CRC8. -/
theorem test_training_field : trainField 0x004010 = 0xF9004010 := by decide

theorem wit_handoff : (withLanes lnHandoff lsDown).laneSt 0 = lnHandoff ∧ ((withLanes lnHandoff lsDown).lane 0).hand = 0 ∧
    0 < (((withLanes lnHandoff lsDown).modLane 0 fun x => { x with hand := 9 }).lane 0).hand ∧
    (withLanes lnHandoff lsDown).widthCode 0 = 1 ∧ (withLanes lnHandoff lsDown).maxCode 0 = 1 ∧
    ((withLanes lnHandoff lsDown).stall 0).switch = none ∧
    ((withLanes lnHandoff lsDown).widthLanes 0).any (withLanes lnHandoff lsDown).mission = true ∧
    (withLanes lnHandoff lsDown).linkOn 0 = true := by decide

theorem wit_lock : (withLanes lnActive lsUp).mission 0 = true ∧ ((withLanes lnActive lsUp).lane 0).missed = 0 ∧
    1 ≤ (((withLanes lnActive lsUp).modLane 0 fun x => { x with missed := 1 }).lane 0).missed ∧
    (withLanes lnActive lsUp).fecOn 0 = true ∧ ((withLanes lnActive lsUp).lane 0).uncorr < 7 ∧
    7 ≤ (((withLanes lnActive lsUp).modLane 0 fun x => { x with uncorr := 7 }).lane 0).uncorr ∧
    (withLanes lnTrain lsDown).mission 0 = false ∧ ((withLanes lnTrain lsDown).stall 0).waited = false ∧
    (((withLanes lnActive lsUp).modStall 0 fun x => { x with hbRx := some 5 }).stall 0).hbRx = some 5 ∧
    ((withLanes lnActive lsUp).stall 0).quietPeer = false := by decide

theorem wit_tests : (live .ready).laneSt 4 = lnDisabled ∧ (live .ready).isOn F.STALL_LINK_CFG_ENABLE ((live .ready).ownerOf 4) = false ∧
    ((live .ready).put F.LANE_STATUS_STATE 4 lnTest).laneSt 4 = lnTest ∧ ((live .ready).put F.LANE_STATUS_STATE 4 lnTest).patternOn 4 = true ∧
    (((live .ready).put F.LANE_STATUS_STATE 4 lnTest).put F.LANE_PAT_CTRL_CHK_EN 4 1).isOn F.LANE_PAT_CTRL_CHK_EN 4 = true ∧
    ((live .ready).put F.LANE_PAT_CTRL_CHK_LOCK 4 1).isOn F.LANE_PAT_CTRL_CHK_LOCK 4 = true ∧
    ((withLanes lnActive lsUp).put F.LANE_PAT_CTRL_INJ_MODE 0 1).get F.LANE_PAT_CTRL_INJ_MODE 0 = 1 := by decide

/-! ### Witnesses: packets -/

/-- Stall 0 UP outside a capture. -/
def withStall : State := withLanes lnActive lsUp

/-- A packet's CRC as a command carries it. -/
def pktCrc (type fseq : Nat) (param : BitVec 32) (body : List Byte) : BitVec 32 :=
  BitVec.ofNat 32 (crc32c (packetBytes type fseq param.toNat body))

/-- The body of a Frame Start of `w` by `h` pixels of 16 bits in containers. -/
def fsBody (w h : Nat) : List Byte := bytesOfNat 2 w ++ bytesOfNat 2 h ++ [4, 0, 0, 0, 0, 0, 0, 0]

/-- The Frame Start on the wire that the specification works out, with its CRC. -/
theorem test_frame_start : packetWhole 0x01 0x40 0x1F40
    [0x00, 0x10, 0x00, 0x10, 0x12, 0x10, 0x40, 0x1F, 0xD0, 0x01, 0x01, 0x00] =
    [0x01, 0x40, 0x0C, 0x00, 0x40, 0x1F, 0x00, 0x00, 0x00, 0x10, 0x00, 0x10, 0x12, 0x10, 0x40, 0x1F,
      0xD0, 0x01, 0x01, 0x00, 0xF5, 0x59, 0x5C, 0xD8] := by decide +kernel

theorem wit_frame_start : (withStall.reach 9).rxCheck 0 (rxOf 1 5 5 (fsBody 4 2) (pktCrc 1 5 5 (fsBody 4 2)) false 9) =
      (true, withStall.reach 9) ∧ bit (withStall.rd .PAIR_CFG) 32 = false ∧ (withStall.stall 0).frame = none ∧
    (withStall.stall 0).held = none ∧ withStall.ctxOfStall 0 = none ∧
    (withStall.rxCheck 0 (rxOf 1 5 5 (fsBody 4 2) 0 false 9)).1 = false ∧
    (withStall.rxCheck 0 (rxOf 1 5 5 (fsBody 4 2) 0 true 9)).1 = false ∧
    (withStall.rxCheck 0 (rxOf 1 5 5 (fsBody 0 2) (pktCrc 1 5 5 (fsBody 0 2)) false 9)).1 = false ∧
    (withStall.rxCheck 0 (rxOf 1 5 5 [] 0 false 9)).1 = false := by decide +kernel

/-- Context 0 on stall 0, armed and streaming, with an active copy of 4 by 2 pixels of 16 bits. -/
def withCtx : State :=
  (((({ withStall with ctl := ⟨.stream, .boot, none, []⟩ }.put F.CTX_CTRL_ENABLE 0 1).put F.CTX_STATUS_ARMED 0 1).put
    F.CTX_STATUS_ACTIVE_COPY 0 1)).modCtx 0 fun x => { x with a := [(2, field 0 16 4 ||| field 16 16 2 ||| field 32 3 4)] }

theorem wit_accept : withCtx.ctxOfStall 0 = some 0 ∧ withCtx.isOn F.CTX_STATUS_ARMED 0 = true ∧ withCtx.capturing = true ∧
    withCtx.get F.CTX_STATUS_PENDING_COPY 0 = 0 ∧ (withCtx.ctx 0).merge = none ∧ cBypass ((withCtx.active 0).getD []) = false ∧
    cMergeEn ((withCtx.active 0).getD []) = false ∧ cEngine ((withCtx.active 0).getD []) ≠ 4 ∧ withCtx.bayBusy 0 0 = false ∧
    cWidth ((withCtx.active 0).getD []) = 4 ∧ cHeight ((withCtx.active 0).getD []) = 2 ∧
    cfield ((withCtx.active 0).getD []) 0x010 32 3 = 4 ∧
    (withCtx.headerOf 0 (rxOf 1 5 5 (fsBody 4 2) (pktCrc 1 5 5 (fsBody 4 2)) false 9)).width = 4 ∧
    (withCtx.headerOf 0 (rxOf 1 5 5 (fsBody 4 2) (pktCrc 1 5 5 (fsBody 4 2)) false 9)).height = 2 ∧
    (withCtx.headerOf 0 (rxOf 1 5 5 (fsBody 4 2) (pktCrc 1 5 5 (fsBody 4 2)) false 9)).depth = 4 := by decide

/-- `withCtx` after its camera's Frame Start 5. -/
def withOpen : State :=
  ((withCtx.reach 9).rxFrame 0 (rxOf 1 5 5 (fsBody 4 2) (pktCrc 1 5 5 (fsBody 4 2)) false 9) true)

theorem wit_line : (withOpen.openFrame 0).map (fun f => (f.hdr.id, f.line, f.col, f.hdr.width, f.hdr.height)) = some (5, 0, 0, 4, 2) ∧
    (withOpen.openFrame 0).map (fun f => cBypass f.copy) = some false ∧ (withOpen.stall 0).heldBytes + 8 ≤ 65536 ∧
    ((withOpen.reach 9).rxCheck 0 (rxOf 2 5 0 [1, 0, 2, 0, 3, 0, 4, 0] (pktCrc 2 5 0 [1, 0, 2, 0, 3, 0, 4, 0]) false 9)).1 = true ∧
    ((withOpen.reach 9).rxCheck 0 (rxOf 3 5 5 [2, 0, 0, 0, 0, 0, 0, 0] (pktCrc 3 5 5 [2, 0, 0, 0, 0, 0, 0, 0]) false 9)).1 = true ∧
    withOpen.get F.STALL_PROTO_CFG_FRAME_TIMEOUT 0 ≠ 0 ∧ withStall.openFrame 0 = none ∧ (withStall.stall 0).skip = none := by
  decide +kernel

theorem wit_held : ((withStall.modStall 0 fun x => { x with held := some (withStall.headerOf 0 (rxOf 1 5 5 (fsBody 4 2) 0 false 9)) }).stall
      0).held.isSome = true ∧ (withStall.stall 0).heldPkts = [] := by decide

/-- Stall 0 UP with troughs 400 to 402 for requests, responses and events, and the request READ 1 waiting. -/
def withControl : State :=
  let s := (((withStall.put F.STALL_CTRL_CFG_CREQ_TROUGH 0 400).put F.STALL_CTRL_CFG_CRESP_TROUGH 0 401).put F.STALL_CTRL_CFG_EVT_TROUGH 0 402)
  let s1 := [400, 401, 402].foldl (fun a k => ((a.put F.TRG_CFG_ENABLE k 1).put F.TRG_CFG_SIZE_LOG2 k 6).put F.TRG_BASE_BASE k (64 * k)) s
  s1.pushItem 400 [field 0 32 0x10 ||| field 32 8 1 ||| field 40 7 1]

theorem wit_event : withControl.trgOn 402 = true ∧ withControl.trgAsleep 402 = false ∧ (withControl.trg 402).openBy = none ∧
    (withControl.trg 402).vis + 2 < withControl.trgSize 402 ∧ withControl.isOn F.STALL_PROTO_CFG_EVT_EN 0 = true ∧
    withControl.get F.STALL_CTRL_CFG_EVT_TROUGH 0 = 402 ∧ withStall.get F.STALL_CTRL_CFG_EVT_TROUGH 0 < 400 ∧
    ((withControl.reach 9).rxCheck 0 (rxOf 0x21 0 1 [7, 0, 0, 0] (pktCrc 0x21 0 1 [7, 0, 0, 0]) false 9)).1 = true ∧
    (withControl.rxCheck 0 (rxOf 0x21 0 1 [7, 0, 0, 0] 0 false 9)).1 = false := by decide +kernel

theorem wit_request : withControl.stUp 0 = true ∧ withControl.fwdIn 0 = false ∧ withControl.inHold = false ∧ withControl.ctl.mode ≠ .reset ∧
    (withControl.stall 0).nextId = some 0 ∧ withControl.headItem 400 = some ⟨[0x10100000010], false, false⟩ ∧
    requestOk [0x10100000010] = true ∧ requestOk [0x10200000010] = false ∧ (withControl.trg 401).vis + 34 < withControl.trgSize 401 := by
  decide +kernel

theorem wit_response : ((withControl.modStall 0 fun x => { x with reqs := [⟨3, 0x10100000010, 0⟩] }).stall 0).reqs.find?
      (fun x => x.id == 3) = some ⟨3, 0x10100000010, 0⟩ ∧ (withControl.stall 0).reqs = [] ∧
    ((withControl.reach 9).rxCheck 0 (rxOf 0x11 3 0x10 [2, 0, 0, 0] (pktCrc 0x11 3 0x10 [2, 0, 0, 0]) false 9)).1 = true ∧
    ((withControl.modStall 0 fun x => { x with quarAll := some (some 5) }).stall 0).quarAll = some (some 5) ∧
    ((withControl.modStall 0 fun x => { x with quar := [(3, 9)] }).stall 0).quar = [(3, 9)] ∧ (withControl.stall 0).quarAll = none := by
  decide +kernel

theorem wit_heartbeat : ((withStall.reach 900).rxCheck 0 (rxOf 0x30 0 1 (bytesOfNat 8 100 ++ bytesOfNat 8 300)
      (pktCrc 0x30 0 1 (bytesOfNat 8 100 ++ bytesOfNat 8 300)) false 900)).1 = true ∧ (withStall.stall 0).quietPeer = false ∧
    900 = natOfBytes ((bytesOfNat 8 100 ++ bytesOfNat 8 300).take 8) + natOfBytes (((bytesOfNat 8 100 ++ bytesOfNat 8 300).drop 8).take 4) + 500 ∧
    withStall.isOn F.STALL_LINK_CFG_PPORT_SEL 0 = false := by decide +kernel

theorem wit_trigger : withStall.trigOk 0 = true ∧ withStall.takeEvent 288 = none ∧
    ({ withStall with yard := { withStall.yard with delivered := [⟨288, 5⟩] } } : State).takeEvent 288 =
      some (5, { withStall with yard := { withStall.yard with delivered := [] } }) ∧
    (withStall.modStall 0 fun x => { x with trigs := [⟨9000, 1, 0, false, none⟩] }).trigNext 0 = some ⟨9000, 1, 0, false, none⟩ ∧
    withStall.trigNext 0 = none ∧ (live .ready).trigOk 0 = false := by decide

/-- Stall 14 enabled on its parallel port, UP. -/
def withPort : State :=
  (((live .ready).put F.STALL_LINK_CFG_ENABLE 14 1).put F.STALL_LINK_CFG_PPORT_SEL 14 1).put F.STALL_LINK_STATUS_STATE 14 lsUp

theorem wit_port : withPort.ppOn 0 = true ∧ (live .ready).ppOn 0 = false ∧ withPort.capturing = false ∧ (withPort.stall 14).frame = none ∧
    (withPort.stall 14).ppOpen = none ∧ ((withPort.modStall 14 fun x => { x with ppOpen := some 0 }).stall 14).ppOpen = some 0 ∧
    (withPort.stall 14).ppLines < max 1 (withPort.get F.PPORT_GEOM_HEIGHT 0) ∧
    (withPort.ppPixels 0 [1] [2]).length < max 1 (withPort.get F.PPORT_GEOM_WIDTH 0) ∧ withPort.stUp 14 = true := by decide

/-! ### Witnesses: fen and troughs -/

/-- A live state with near software trough 400 enabled, of 16 words, at word offset 16,384. -/
def withTrough : State :=
  (((live .ready).put F.TRG_CFG_ENABLE 400 1).put F.TRG_CFG_SIZE_LOG2 400 4).put F.TRG_BASE_BASE 400 16384

theorem wit_segments : (live .ready).isOn F.FEN_SEG_CTRL_APPLY = false ∧
    ((live .ready).put F.FEN_SEG_CTRL_APPLY 0 1).isOn F.FEN_SEG_CTRL_APPLY = true := by decide

theorem wit_fen_words : (live .ready).fenUsable (0x40000 / 8 * 8) = true ∧ (live .ready).fenUsable 0 = false ∧
    (live .ready).fenCheck 0x40000 = 0 ∧
    ({ live .ready with fenFix := [(0x8000, 5)] } : State).fenFix.find? (fun e => e.1 == 0x40000 / 8) = some (0x40000 / 8, 5) := by
  decide

theorem wit_trough_config : trgReserved 400 = false ∧ (live .ready).trgOn 400 = false ∧ trgReserved 15 = true ∧
    (((live .ready).put F.TRG_BASE_BASE 400 16384).wr .TRG_CFG 400 ((0x11#64 ||| 1) &&& fieldMask 0 19 &&& ~~~1)).trgReject 400 false = 0 := by
  decide

theorem wit_push : withTrough.trgOn 400 = true ∧ withTrough.trgAsleep 400 = false ∧ (withTrough.trg 400).openBy = none ∧
    (withTrough.trg 400).vis + 1 < withTrough.trgSize 400 ∧ (withTrough.trg 400).waiting = [] := by decide

theorem wit_push_full : ((withTrough.setTrg 400 { Trough.zero with vis := 15 }).trg 400).vis + 1 = withTrough.trgSize 400 ∧
    ((withTrough.setTrg 400 { Trough.zero with vis := 15 }).visWord 400 14).gap = false := by decide

theorem wit_packet : ((withTrough.setTrg 400 { Trough.zero with openBy := some (fnAgent 1), openLen := 1 }).trg 400).openBy =
      some (fnAgent 1) ∧ 0 + 1 + 1 < withTrough.trgSize 400 := by decide

theorem wit_pop : (withTrough.setTrg 400 { Trough.zero with vis := 1 }).popAllowed (fnAgent 0) 400 = true ∧
    0 < ((withTrough.setTrg 400 { Trough.zero with vis := 1 }).trg 400).vis ∧
    ((withTrough.setTrg 400 { Trough.zero with vis := 1 }).visWord 400 0).bad = false ∧ (withTrough.trg 400).vis = 0 := by decide

theorem wit_hold : ((withTrough.setTrg 400 { Trough.zero with holder := some .pf0, vis := 2 }).trg 400).holder.isSome = true := by
  decide

/-- Pool 0 of four blocks from segment 0, its list ring after it, FILLING. -/
def withPool : State :=
  (((((live .ready).wr .FEN_POOL_CFG 0 (field 0 1 1 ||| field 16 21 16 ||| field 38 21 4)).put F.FEN_POOL_STATUS_STATE 0 1).put
    F.TRG_CFG_ENABLE 144 1).put F.TRG_CFG_LOCATION 144 1).put F.TRG_CFG_SIZE_LOG2 144 10 |>.put F.TRG_BASE_BASE 144 0x200000

theorem wit_pool : withPool.poolOn 0 = true ∧ withPool.get F.FEN_POOL_STATUS_STATE 0 = 1 ∧ withPool.trg 144 = Trough.zero ∧
    withPool.trgOn 144 = true ∧ withPool.ctl.mode ≠ .quiet ∧ withPool.poolBlocks 0 < withPool.trgSize 144 ∧
    withPool.poolBusy 0 = false ∧ ({ withPool with outBits := [(16, true)] } : State).poolBusy 0 = true ∧
    (live .ready).poolOn 0 = false ∧ bit (0 : Word) 4 = false := by decide

theorem wit_pool_release : withPool.poolAt (bits 0x100000 16 21 * 0x10000) = some 0 ∧
    Tab.get false ({ withPool with outBits := [(16, true)] } : State).outBits (bits 0x100000 16 21) = true ∧
    withPool.trgAsleep 144 = false ∧ withPool.poolFree 0 + 1 < withPool.trgSize 144 ∧
    Tab.get false withPool.outBits (bits 0x100000 16 21) = false := by decide

/-! ### Witnesses: tack sets, bays and engines -/

/-- A copy of 4 by 2 pixels of 16 bits on stall `n`, with sequence `q`, its CRC apart. -/
def copyBody (n q : Nat) : Tab Word :=
  [(0, field 0 32 q ||| field 32 8 1), (1, word n), (2, field 0 16 4 ||| field 16 16 2 ||| field 32 3 4), (15, 0x81000)]

/-- The copy with its CRC off by `d`. -/
def goodCopy (n q : Nat) (d : Nat := 0) : Tab Word :=
  Tab.set 0 (copyBody n q) 127 (word ((crc32c (copyBytes (copyBody n q)) + d) % 2 ^ 32))

theorem wit_copy_crc (n q d : Nat) : cfield (goodCopy n q d) 0x3F8 0 32 = (crc32c (copyBytes (goodCopy n q d)) + d) % 2 ^ 32 := by
  unfold goodCopy
  rw [cfield_set_crc _ _ (Nat.mod_lt _ (by decide)), copyBytes_set_crc]

theorem wit_copy_good (n q : Nat) : cfield (goodCopy n q) 0x3F8 0 32 = crc32c (copyBytes (goodCopy n q)) := by
  rw [wit_copy_crc, Nat.add_zero, Nat.mod_eq_of_lt (crc32c_lt _)]

theorem wit_copy_bad (n q : Nat) : cfield (goodCopy n q 1) 0x3F8 0 32 ≠ crc32c (copyBytes (goodCopy n q 1)) := by
  rw [wit_copy_crc]
  have := crc32c_lt (copyBytes (goodCopy n q 1))
  omega

/-- A live state with pool 0 enabled and context 0 disabled, `t` in copy B under check for the register's commit. -/
def withCheck (t : Tab Word) : State :=
  ((live .ready).put F.FEN_POOL_CFG_ENABLE 0 1).modCtx 0 fun x => { x with b := t, check := some ⟨true, none⟩ }

theorem wit_copy_write : (live .ready).get F.CTX_STATUS_ACTIVE_COPY 0 ≠ 1 ∧ ((live .ready).ctx 0).check = none ∧
    withCtx.get F.CTX_STATUS_ACTIVE_COPY 0 = 1 ∧ ((withCheck []).ctx 0).check = some ⟨true, none⟩ := by decide

theorem wit_body_good : ∀ k, k < 127 → (withCheck []).copyFails (copyBody 0 1) (8 * k) = false := by decide +kernel

/-- A copy that passes every check; `withCheck []` differs from `withCheck` of it in copy B alone, which no check of a word reads. -/
theorem wit_check_good : cfield (goodCopy 0 1) 0x3F8 0 32 = crc32c (copyBytes (goodCopy 0 1)) ∧
    ∀ p, p < 1024 → p % 8 = 0 → (withCheck []).copyFails (goodCopy 0 1) p = false := by
  refine ⟨wit_copy_good 0 1, fun p hp h8 => ?_⟩
  rcases Nat.lt_or_ge p 1016 with h | h
  · unfold goodCopy
    rw [copyFails_set_crc _ _ _ _ (by omega)]
    have := wit_body_good (p / 8) (by omega)
    rwa [show 8 * (p / 8) = p by omega] at this
  · obtain rfl : p = 1016 := by omega
    exact copyFails_crc_word _ _ _ (Nat.mod_lt _ (by decide))

theorem wit_check_bad : (withCheck (copyBody 0 1)).active 0 = none ∧ cfield (copyBody 0 1) 0 0 32 ≠ 0 ∧ cfield (copyBody 0 0) 0 0 32 = 0 ∧
    (withCheck (copyBody 20 1)).copyFails (copyBody 20 1) 8 = true ∧ (withCheck (copyBody 20 1)).copyFails (copyBody 20 1) 0 = false := by
  decide +kernel

theorem wit_check_on : (withCtx.put F.FEN_POOL_CFG_ENABLE 0 1).ctxOn 0 = true ∧ withCtx.active 0 = some (withCtx.ctx 0).a ∧
    cStall (withCtx.ctx 0).a = cStall (copyBody 0 1) ∧ cStall (withCtx.ctx 0).a ≠ cStall (copyBody 3 1) ∧
    1 ≤ (cfield (copyBody 0 1) 0 0 32 + 2 ^ 32 - cfield (withCtx.ctx 0).a 0 0 32) % 2 ^ 32 := by decide +kernel

theorem wit_ctx_enable : (live .ready).ctxOn 0 = false ∧ (live .ready).active 0 = none ∧ withCtx.ctxOn 0 = true ∧
    (withCtx.put F.CTX_CTRL_ENABLE 0 0).active 0 = some (withCtx.ctx 0).a ∧
    (withCtx.put F.CTX_CTRL_ENABLE 0 0).enableRefused 0 = false := by decide

theorem wit_chute : bits (3 : Word) 0 2 = 3 ∧ (∃ u, withCtx.active 0 = some u ∧ cChute u = 0) ∧ withCtx.ctxOn 0 = true ∧
    0x1800000000 < bits 0x1FFFFF0000 16 21 * 65536 + 0x1000000 := by decide

/-- `withOpen` with the pixels of both lines waiting, and closed. -/
def withLines : State :=
  withOpen.modStall 0 fun x => { x with buf := [⟨0, 0, [1, 2, 3, 4], 8⟩, ⟨1, 0, [5, 6, 7, 8], 8⟩] }

theorem wit_intake : (withLines.stall 0).frame.map (fun f => (f.mapsUpTo 0, f.closed, f.hdr.width, f.rows.length, f.queue.length, f.entered)) =
      some (true, none, 4, 0, 0, 0) ∧
    (withLines.stall 0).frame.map (fun f => ({ f with copy := Tab.set 0 f.copy 3 0x20 }).mapsUpTo 0) = some false ∧
    (withStall.stall 0).frame = none := by decide +kernel

theorem wit_bay_done : (withOpen.stall 0).frame.map (fun f =>
      let g := { f with closed := some 9, rows := [[], []] }
      (g.closed.isSome, g.rows.length == g.hdr.height, cBypass g.copy, decide (g.ctx < 64))) = some (true, true, false, true) ∧
    (withOpen.stall 0).buf = [] := by decide +kernel

theorem wit_placed : (withOpen.stall 0).frame.map (fun f =>
      let g := { f with host := some 0x1000, prods := [Prod.zero 0 (some 0x1000)] }
      (g.closed, g.queue.length, g.host, g.prods.map (·.cut))) = some (none, 0, some 0x1000, [false]) := by decide +kernel

theorem wit_map : (withOpen.stall 0).frame.map (fun f =>
      let g := { f with copy := Tab.set 0 f.copy 3 0x20 }
      (cBypass g.copy, g.needsMap g.mapped, decide (g.mapped < g.hdr.height), f.needsMap f.mapped)) = some (false, true, true, false) := by
  decide +kernel

theorem wit_results : ((withTrough.modCtx 0 fun x => { x with results := [(400, [3, 4])] }).ctx 0).results = [(400, [3, 4])] ∧
    (withTrough.modCtx 0 fun x => { x with results := [(400, [3, 4])] }).hasRoom 400 2 ∧ (withTrough.ctx 0).results = [] ∧
    (withTrough.ctx 0).stats = [] := by
  refine ⟨by decide, ⟨by decide, by decide, by decide, by decide⟩, by decide, by decide⟩

theorem wit_stats : (((withCtx.put F.TRG_CFG_ENABLE 80 1).put F.TRG_CFG_SIZE_LOG2 80 12).modCtx 0 fun x => { x with stats := [[[1, 2]]] }).hasRoom 80 2 ∧
    withCtx.active 0 = some (withCtx.ctx 0).a := ⟨⟨by decide, by decide, by decide, by decide⟩, by decide⟩

/-- Context 0 with a stack of 3 programmed frames under way and one staged frame. -/
def withStack (d : Option (Int × Int)) : State :=
  withCtx.modCtx 0 fun x => { x with
    stack := some (Stack.fresh [(2, field 0 16 4 ||| field 16 16 2), (32, 4), (35, 3), (38, 2 ||| field 2 8 1)] 1)
    staged := [⟨0, d, none, 0, FrameTag.zero, 0⟩] }

theorem wit_stack : ((withStack none).ctx 0).stack.map (fun k => (decide (k.frames + 1 < cStackN k.copy), k.closeDue, cfield k.copy 0x130 0 2, cfield k.copy 0x130 2 8)) =
      some (true, false, 2, 1) ∧ ((withStack none).ctx 0).staged.map (·.offset) = [none] ∧
    ((withStack (some (64, -3))).ctx 0).staged.map (·.offset) = [some (64, -3)] ∧ |(64 : Int)| ≤ 64 * 1 ∧ |(-3 : Int)| ≤ 64 * 1 ∧
    (withCtx.ctx 0).staged = [] := by decide

theorem wit_crib : (live .ready).cribLoad = none ∧ bits (0x10100 : Word) 8 2 = 1 ∧ bits (0x10300 : Word) 8 2 = 3 ∧
    (live .ready).cribPinned 0 = false ∧
    (withCtx.modCtx 0 fun x => { x with a := Tab.set 0 x.a 3 0x40 }).cribPinned 0 = true ∧
    (live .ready).get F.CRIB_LOAD_ADDR_ADDR * 64 + 262144 ≤ 0x1800000000 ∧
    0x1800000000 < ((live .ready).put F.CRIB_LOAD_ADDR_ADDR 0 0x60000000).get F.CRIB_LOAD_ADDR_ADDR * 64 + 262144 := by decide

theorem wit_crib_done : (⟨3, 1, [0x20], true⟩ : Load).poison = true ∧
    crc32c ((⟨3, 1, [0x20], false⟩ : Load).image.flatMap fun w => bytesOfNat 8 w.toNat) ≠ (live .ready).get F.CRIB_LOAD_CRC_CRC ∧
    crc32c ([0x20#64].flatMap fun w => bytesOfNat 8 w.toNat) =
      ((live .ready).put F.CRIB_LOAD_CRC_CRC 0 (crc32c ([0x20#64].flatMap fun w => bytesOfNat 8 w.toNat))).get F.CRIB_LOAD_CRC_CRC := by
  decide +kernel

theorem wit_paddock : (live .ready).padLoad = none ∧ (live .ready).padPinned 0 = false ∧
    (withCtx.modCtx 0 fun x => { x with a := Tab.set 0 x.a 32 2 }).padPinned 0 = true ∧
    (live .ready).get F.PADDOCK_LOAD_RANGE_COUNT = 0 ∧ ((live .ready).put F.PADDOCK_LOAD_RANGE_COUNT 0 2).padOverlap 0 0 2 = false ∧
    badEntries [0, 0] = true ∧ badEntries [0, 1] = false := by decide

/-! ### Witnesses: analogue capture -/

/-- Converter 0 IDLE with a record buffer of 64 KiB at 0x40000, or in another state. -/
def withAdc (st : Nat) : State := ((live .ready).put F.ADC_BUF_SIZE_LOG2 0 16 |>.put F.ADC_BUF_BASE 0 4).put F.ADC_STATUS_STATE 0 st

theorem wit_adc_start : (withAdc 1).vstOf 0 = none ∧ (withAdc 1).adcSt 0 = 1 ∧ (withAdc 1).inHold = false ∧ (withAdc 1).badBuffer 0 = false ∧
    (withAdc 0).adcSt 0 = 0 ∧ (withAdc 3).adcSt 0 = 3 ∧ (live .ready).badBuffer 0 = true ∧ (withAdc 1).adcLow 0 = false ∧
    ((withAdc 1).put F.ADC_STATUS_LOWPWR_ACTIVE 0 1).adcLow 0 = true := by decide

theorem wit_adc_busy : (withAdc 4).adcSt 0 = 4 ∧ (live .hold).inHold = true ∧
    (((withAdc 2).reach 100).adc 0).arrived / 10 ≠ ((withAdc 2).reach 100).now / 10 := by decide

theorem wit_adc_yard : (withAdc 1).isOn F.ADC_CFG_CONS_URGENT 0 = false ∧ (withAdc 1).takeEvent 304 = none ∧
    (({ withAdc 1 with yard := { (withAdc 1).yard with delivered := [⟨304, 7⟩] } } : State).takeEvent 304).map (·.1) = some 7 := by decide

theorem wit_adc_mask : (∀ k, k < 8 → (withAdc 1).vstOf k = none) ∧ (1#8).getLsbD 0 = true ∧ (1#8).getLsbD 1 = false := by decide

/-- Converter 0 recording with 64 samples in all. -/
def withRun : State := (withAdc 2).modAdc 0 fun a => { a with gain := 65536, len := 64 }

theorem wit_adc_unit : withRun.adcSt 0 = 2 ∧ (withRun.adc 0).dest ≠ 1 ∧ (List.replicate 32 (5#14)).length = 32 ∧
    withRun.runLimit 0 = some 64 ∧ withRun.get F.ADC_BUF_POS_WR_OFFSET 0 % 64 = 0 ∧ 16 ≤ withRun.get F.ADC_BUF_SIZE_LOG2 0 ∧
    withRun.get F.ADC_BUF_SIZE_LOG2 0 ≤ 34 ∧
    ∀ k, k < 64 → withRun.fenUsable (withRun.get F.ADC_BUF_BASE 0 * 65536 + withRun.get F.ADC_BUF_POS_WR_OFFSET 0 % 2 ^ 16 + k) = true := by
  decide +kernel

theorem wit_adc_end : ((withRun.modAdc 0 fun a => { a with taken := 64 }).adc 0).taken + 0 = 64 ∧ (withRun.adc 0).modeEnd = false ∧
    (withRun.adc 0).vst = none ∧ ((withAdc 2).runLimit 0) = none ∧ withRun.get F.ADC_CFG_RUN_TROUGH 0 < 400 ∧
    400 ≤ (withRun.put F.ADC_CFG_RUN_TROUGH 0 400).get F.ADC_CFG_RUN_TROUGH 0 := by decide

theorem wit_adc_cal : (live .ready).inHold = false ∧ bits (2 : Word) 0 3 ≠ 7 ∧ bits (7 : Word) 0 3 = 7 ∧
    (((withAdc 1).modAdc 0 fun a => { a with zeroFor := some 2 }).adc 0).zeroFor = some (bits (2 : Word) 0 3) ∧
    (((withAdc 4).modAdc 0 fun a => { a with cal := some (2, true) }).adc 0).cal = some (2, true) ∧ (withAdc 4).adcSt 0 = 4 := by decide

/-- The worked figures of the calibration example: means -37.375 and 7,700.25, target 8,000. -/
theorem test_calibration : calCoef (-2449408) 504643584 8000 = some (37, 67758) ∧
    field 0 32 (unsigned 32 (-2449408)) ||| field 32 32 (unsigned 32 504643584) = 0x1E144000FFDAA000 ∧
    correct 37 67758 (BitVec.ofInt 14 (-37)) = (0, false) ∧ correct 37 67758 7700 = (7999, false) := by decide

/-- Virtual stall 16 scanning with converter 0 for it: one member, 4 by 2 pixels of 8 bits, dwell 100. -/
def withVst (event : Bool) : State :=
  let s := (((live .stream).wr .VST_CFG 0 (field 0 8 1 ||| field 9 1 (if event then 1 else 0) ||| field 10 1 1 ||| field 14 1 1)).wr .VST_TIMING 0 100).wr
    .VST_GEOM 0 (field 0 16 4 ||| field 16 16 2)
  (((s.put F.VST_STATUS_STATE 0 2).put F.ADC_STATUS_STATE 0 2).modAdc 0 fun a => { a with gain := 65536, dest := 1, vst := some 0 }).modVst 0
    fun x => { x with t0 := 2000, began := 2000 }

theorem wit_vst_enable : (live .ready).vstOn 0 = false ∧ (withVst false).vstOn 0 = true ∧ ((withVst false).vst 0).frameOpen = false ∧
    ((withVst false).put F.ADC_STATUS_STATE 0 1).adcSt 0 ≠ 2 ∧ (live .ready).vstRefused 0 = true ∧
    (((live .ready).put F.ADC_CFG_DEST 0 1).put F.VST_CFG_MEMBERS 0 1).vstRefused 0 = false := by decide

theorem wit_vst_frame : (withVst false).get F.VST_STATUS_STATE 0 = 2 ∧ ((withVst false).vst 0).px = 0 ∧
    ((withVst false).vst 0).ending = none ∧ (withVst false).get F.VST_GEOM_FRAMES 0 = 0 ∧ ((withVst false).stall 16).frame = none ∧
    (withVst false).ctxOfStall 16 = none ∧ ((withVst false).adc 0).modeEnd = false := by decide

theorem wit_vst_pixel : (withVst true).vstMembers 0 = [0] ∧ ((withVst true).adc 0).offset = 0 ∧ ((withVst true).adc 0).gain = 65536 ∧
    (withVst true).isOn F.VST_CFG_MEAN 0 = true ∧ (withVst true).get F.VST_CFG_DEPTH 0 ≤ 4 ∧
    (((withVst true).vst 0).px % (withVst true).vstArea 0 + 1) % (withVst true).get F.VST_GEOM_SCAN_W 0 ≠ 0 ∧
    (withVst true).isOn F.VST_CFG_TIMING 0 = true ∧ (withVst false).isOn F.VST_CFG_TIMING 0 = false ∧
    1600 ≤ ((withVst true).vst 0).began ∧ (((withVst true).modVst 0 fun x => { x with frameOpen := true }).vst 0).frameOpen = true := by decide

/-! ### Witnesses: tags, herds and the sluice -/

/-- A record of an 8-byte FRAME product at fen address 0x40000. -/
def aTag : TagDue := ⟨3, none, 0, 0, 0, 0x400, 7, 100, 200, 0, 0, 0x40000, 8, []⟩

/-- Near trough `k` of 64 words on. -/
def nearTrough (k : Nat) (s : State) : State := ((s.put F.TRG_CFG_ENABLE k 1).put F.TRG_CFG_SIZE_LOG2 k 6).put F.TRG_BASE_BASE k 20480

/-- Context 0 with a record due and its tag trough on. -/
def withTag : State := nearTrough 16 ((live .ready).modCtx 0 fun x => { x with tags := [aTag] })

theorem wit_tag_push : (withTag.ctx 0).tags = [aTag] ∧ (withTag.ctx 0).seqDue = none ∧ withTag.hasRoom 16 8 ∧
    ((live .ready).ctx 0).tags = [] := by unfold State.hasRoom; decide

theorem wit_tag_drop : ((withTag.put F.TRG_CFG_ENABLE 16 0).ctx 0).tags = [aTag] ∧ (withTag.put F.TRG_CFG_ENABLE 16 0).trgOn 16 = false ∧
    aTag.blocks = [] := by decide

/-- Slot 5 of a herd, one frame present, and a frame of a later slot seen at tick 50. -/
def aSlot : HerdSlot := ⟨5, [⟨0, 3, 20010, 9, 0, false⟩], [], some 50⟩

/-- Herd 2 on, with that slot open, and a released record due to trough 400. -/
def withHerd : State :=
  nearTrough 400 (((((live .ready).put F.HERD_CFG_ENABLE 2 1).put F.HERD_PERIOD_PERIOD 2 4000).put F.HERD_CFG_TROUGH 2 400).setHerd 2
    ⟨[aSlot], [], [⟨aSlot, [(3, 0), (4, 1)], 70, false⟩], none⟩)

theorem wit_herd : withHerd.herdOn 2 = true ∧ (live .ready).herdOn 2 = false ∧ (withHerd.herd 2).slots = [aSlot] ∧ aSlot.later = some 50 ∧
    (withHerd.herd 2).due = [⟨aSlot, [(3, 0), (4, 1)], 70, false⟩] ∧ withHerd.get F.HERD_CFG_TROUGH 2 = 400 ∧
    withHerd.hasRoom 400 (8 + 2 * 2) := by unfold State.hasRoom; decide

/-- A descriptor with operation `op`, SRC, DST and LEN in slot 0. -/
def aDesc (op : Nat) (src dst len : Word) : Desc := Desc.new 0 [BitVec.ofNat 64 op, src, dst, len]

/-- Ring 0 running and host-fed with 16 slots, the host live, and the descriptors given. -/
def withRing (ds : List Desc) : State :=
  { (((((live .ready).put F.RING_CTRL_ENABLE 0 1).put F.RING_CTRL_STATE 0 1).put F.RING_BASE_SIZE_LOG2 0 4).put F.RING_COMPL_BASE 0 1)
    with host := { (live .ready).host with linkUp := true, pf0 := { (live .ready).host.pf0 with regs := [(cfgCommand, 4)] } }
         rings := [(0, ⟨ds.length, ds, 0, false⟩)] }

theorem wit_fetch_desc : ((withRing []).put F.RING_PTR_TAIL 0 2).get F.RING_CTRL_STATE 0 = 1 ∧
    ((withRing []).put F.RING_PTR_TAIL 0 2).unfetched 0 = 2 ∧ ((withRing []).put F.RING_PTR_TAIL 0 2).sluiceServes = true ∧
    ((withRing []).put F.RING_PTR_TAIL 0 2).sluiceLive = true ∧ 32 * 2 ≤ (withRing []).maxRead ∧ (withRing []).tagFree 0 5 = true ∧
    ((withRing []).ring 0).next + 2 ≤ (withRing []).ringSize 0 := by decide

theorem wit_score : (withRing []).scoreRoom 0 2 = true := by decide +kernel

/-- A fetch of slot 0 of ring 0 outstanding with tag 5. -/
def withFetch : State :=
  { withRing [Desc.new 0 []] with
    host := { (withRing []).host with tags := [⟨5, .fetch 0 0 1, false, false, [], none⟩] } }

theorem wit_fetch_done : withFetch.host.tags.find? (fun y => y.tag == 5 && !y.quar) = some ⟨5, .fetch 0 0 1, false, false, [], none⟩ ∧
    (withFetch.ring 0).descs = [Desc.new 0 []] ∧ withFetch.get F.RING_CTRL_STATE 0 = 1 ∧
    (∀ x ∈ withFetch.host.tags, x.tag = 6 → x.quar = true) := by decide

/-- Ring 0 trough-fed from near trough 400, which holds a 4-word packet. -/
def withFeed : State :=
  (((nearTrough 400 (withRing [])).put F.RING_BASE_FEED 0 1).put F.RING_CTRL_SRC_TROUGH 0 400).pushItem 400 [0, 0, 0, 0]

theorem wit_desc_pop : withFeed.headItem 400 = some ⟨[0, 0, 0, 0], false, false⟩ ∧ withFeed.get F.RING_CTRL_SRC_TROUGH 0 = 400 ∧
    withFeed.descFault (Desc.new (withFeed.ring 0).next [0, 0, 0, 0]) = none ∧ (withFeed.ring 0).descs.length < withFeed.ringSize 0 ∧
    withFeed.isOn F.RING_BASE_FEED 0 = true ∧ withFeed.get F.RING_CTRL_STATE 0 = 1 ∧ withFeed.sluiceServes = true ∧
    withFeed.sluiceLive = true := by decide

theorem wit_desc_pop_score : withFeed.scoreRoom 0 1 = true := by decide +kernel

theorem wit_start : (withRing [aDesc 0 0 0 0]).startable 0 0 opNop = some (aDesc 0 0 0 0) ∧ (withRing []).startable 0 0 opNop = none ∧
    (withRing [aDesc 1 0x40000 0x1000 8]).startable 0 0 opCopy = some (aDesc 1 0x40000 0x1000 8) ∧
    (aDesc 1 0x40000 0x1000 8).len = 8 ∧ (∀ k, k < 8 → (withRing []).fenUsable ((0x40000 + k) / 8 * 8) = true ∧
      (withRing []).fenCheck (0x40000 + k) = 0) ∧
    (withRing [aDesc 3 0x1000 0x40000 8]).startable 0 0 opFetch = some (aDesc 3 0x1000 0x40000 8) ∧
    (withRing [aDesc 5 0x1000 400 8]).startable 0 0 opPop = some (aDesc 5 0x1000 400 8) ∧
    (withRing [aDesc 4 0x1000 400 8]).startable 0 0 opPush = some (aDesc 4 0x1000 400 8) ∧ (withRing []).tagFree 2 100 = true := by decide

theorem wit_empty : (nearTrough 400 (withRing [aDesc 2 400 0x1000 8])).startable 0 0 opDeliver = some (aDesc 2 400 0x1000 8) ∧
    (nearTrough 400 (withRing [aDesc 2 400 0x1000 8])).headItem 400 = none := by decide

/-- A ring 0 whose DELIVER in slot 0 waits on trough 16, where a tag record lies. -/
def withWaiting : State :=
  let d := { aDesc 2 16 0x1000 4 with started := true, waiting := true }
  (nearTrough 16 (withRing [d])).pushItem 16 (tagRecord 0 aTag 0)

theorem wit_resume : (∃ d, withWaiting.desc 0 0 = some d ∧ d.waiting = true ∧ d.op = opDeliver) ∧ withWaiting.headItem 16 ≠ none ∧
    withWaiting.sluiceLive = true ∧ withWaiting.sluiceServes = true := by decide

theorem wit_record : ∃ it, withWaiting.headItem 16 = some it ∧ it.gap = false ∧ it.poison = false ∧ it.words.length = 8 ∧
    bits ((it.words.head?).getD 0) 24 4 ≠ 5 ∧
    (it.words[7]?).getD 0 = tagCheck (it.words.take 7) (bits ((it.words[7]?).getD 0) 0 32) ∧
    4 < bits ((it.words[7]?).getD 0) 0 32 := ⟨⟨tagRecord 0 aTag 0, false, false⟩, by decide +kernel⟩

/-- Near trough 400 with a gap marker. -/
def withMarker : State := (nearTrough 400 (withRing [aDesc 2 400 0x1000 8])).dropItem 400

theorem wit_marker : ∃ it, withMarker.headItem 400 = some it ∧ it.gap = true ∧ withMarker.startable 0 0 opDeliver ≠ none :=
  ⟨⟨[1], true, false⟩, by decide⟩

theorem wit_pop_item : ∃ it, ((nearTrough 400 (withRing [aDesc 5 400 0x1000 16])).pushItem 400 [7]).headItem 400 = some it ∧
    it.words.length = (((nearTrough 400 (withRing [aDesc 5 400 0x1000 16])).pushItem 400 [7]).trg 400).vis ∧
    8 * (it.words.length + 1) ≤ (aDesc 5 400 0x1000 16).len := ⟨⟨[7], false, false⟩, by decide⟩

theorem wit_retire : ∃ d, ((withRing [(aDesc 0 0 0 0).close 0 0 0]).ring 0).descs = [d] ∧ d.ended = some (0, 0, 0) ∧ d.taken = [] ∧
    d.blocks = [] ∧ d.slot < 65536 ∧ (withRing []).sluiceLive = true := ⟨(aDesc 0 0 0 0).close 0 0 0, by decide⟩

theorem wit_ring_words : bits (3 : Word) 0 16 < (withRing []).ringSize 0 ∧ (withRing []).ringSize 0 ≤ bits (99 : Word) 0 16 ∧
    (live .ready).isOn F.RING_CTRL_ENABLE 0 = false ∧ (withRing []).isOn F.RING_CTRL_ENABLE 0 = true := by decide

theorem wit_dest : bit (64 : Word) 33 = false ∧
    (((live .ready).modCtx 0 fun x => { x with dest := some ⟨0x1000, 64, 0⟩ }).ctx 0).dest.isSome = true := by decide

/-- Mirror 0 on with an item waiting. -/
def withMirror : State := { (withRing []).put F.MIRROR_CFG_ENABLE 0 1 with mirrorQ := [(0, [[5, 6]])] }

theorem wit_mirror : Tab.get [] withMirror.mirrorQ 0 = [[5, 6]] ∧ withMirror.isOn F.MIRROR_CFG_ENABLE 0 = true ∧
    withMirror.sluiceServes = true ∧ withMirror.sluiceLive = true ∧
    (withMirror.mirror 0).off + 8 * (2 + 1) < withMirror.mirrorSize 0 := by decide

/-! ### Witnesses: the grooms -/

/-- Groom 0 RUNNING at index 0 with instruction word `w` and extension `x`, G1 = `a`, G2 = `b`, an empty return stack. -/
def withGroom (w x : BitVec 32) (a b : Word) : State :=
  (live .stream).setGroom 0 { Groom.zero with st := .running, imem := [(0, w), (1, x)], g := [(1, a), (2, b)] }

/-- That groom with field `f` changed. -/
def State.modGroom (s : State) (f : Groom → Groom) : State := s.setGroom 0 (f (s.groom 0))

/-- The words of Tables 10.5 to 10.8 stand for their instructions, at a groom that is ready for them. -/
theorem wit_groom_alu :
    ((withGroom 0x00C48000 0 7 9).groom 0).ready = true ∧ ((withGroom 0x00C48000 0 7 9).groom 0).fetched = some (.alu .add 3 1 2) ∧
    ((withGroom 0x18C42008 0 7 9).groom 0).fetched = some (.shiftI .shr 3 1 8) ∧
    ((withGroom 0x28C48001 0 7 9).groom 0).fetched = some (.minmax true true 3 1 2) ∧
    ((withGroom 0x2C048000 0 7 9).groom 0).fetched = some (.cmp 1 2) ∧
    ((withGroom 0x30C43FFC 0 7 9).groom 0).fetched = some (.addi 3 1 0x3FFC) ∧
    ((withGroom 0xC4880000 0x000186A0 7 9).groom 0).fetched = some (.addi32 2 2 0x000186A0) ∧
    ((withGroom 0x38C431D0 0 7 9).groom 0).fetched = some (.bitExt 3 1 16 7) ∧
    ((withGroom 0x44400010 0 7 9).groom 0).fetched = some (.bc 1 16) ∧
    ((withGroom 0xCC000001 0x2400 7 9).groom 0).fetched = some (.bl32 true 0 0x2400) ∧
    ((withGroom 0x54000001 0 7 9).groom 0).fetched = some (.halt 1) ∧
    ((withGroom 0x74000000 0 7 9).groom 0).fetched = none := by decide

theorem wit_groom_stack : ((withGroom 0x48000100 0 7 9).groom 0).stack.length < 16 ∧
    ((withGroom 0x4C000000 0 7 9).groom 0).stack = [] ∧
    16 ≤ ((State.modGroom (withGroom 0x48000100 0 7 9) fun x => { x with stack := List.replicate 16 5 }).groom 0).stack.length ∧
    ((State.modGroom (withGroom 0x4C000000 0 7 9) fun x => { x with stack := [5] }).groom 0).stack = [5] := by decide

theorem wit_groom_memory : ((withGroom 0x60842808 0 0 9).groom 0).fetched = some (.load false 2 1 2 true 8) ∧
    ((withGroom 0x6C0C9002 0 0 9).groom 0).fetched = some (.store true 3 2 1 2) ∧
    ((withGroom 0x718CA800 0 0 9).groom 0).fetched = some (.amo .cas true 6 3 2) ∧
    ((withGroom 0x60842808 0 0x7FF8 9).groom 0).pc + 1 < 16384 := by decide

theorem wit_groom_wait : ((withGroom 0x81524001 0 0 9).groom 0).fetched = some (.waite true 5 4 9) ∧
    ((withGroom 0xC8C00000 0x0FA0 0 9).groom 0).fetched = some (.waitr 3 0x0FA0) ∧
    ((withGroom 0x88864003 0 0 9).groom 0).fetched = some (.waitp false 3 2 1 9) := by decide

theorem wit_wait_end : ((State.modGroom (withGroom 0 0 0 0) fun x =>
      { x with st := .waiting, evpend := 1, wait := some ⟨.event 1 true, 5, some 9, 1⟩ }).groom 0).wait =
        some ⟨.event 1 true, 5, some 9, 1⟩ ∧
    ((State.modGroom (withGroom 0 0 0 0) fun x =>
      { x with st := .waiting, evpend := 1, wait := some ⟨.event 1 true, 5, some 9, 1⟩ }).groom 0).evpend &&& 1 ≠ 0 ∧
    ((State.modGroom (withGroom 0 0 0 0) fun x => { x with st := .waiting, wait := some ⟨.reltime 9, 5, none, 2⟩ }).groom 0).st =
      .waiting := by decide

theorem wit_csr : ((withGroom 0x3DC00009 0 0 9).groom 0).fetched = some (.csr .read 7 0 9) ∧
    ((withGroom 0x3C00100A 0 0 9).groom 0).fetched = some (.csr .write 0 0 10) := by decide

theorem wit_host_groom : ((live .armed).groom 0).st = .halted ∧ (live .armed).ctl.mode ∈ [Mode.armed, .stream, .burst, .drain, .shadow] ∧
    bit (0x20001 : Word) 2 = false ∧ bit (0x20001 : Word) 3 = false ∧ bit (0x20001 : Word) 1 = false ∧
    ((State.modGroom (withGroom 0 0 0 0) fun x => { x with haltReq := some 1 }).groom 0).haltReq = some 1 ∧
    ((State.modGroom (withGroom 0 0 0 0) fun x =>
      { x with haltReq := some 1, st := .waiting, wait := some ⟨.tackDone 0, 5, none, 1⟩ }).groom 0).wait = some ⟨.tackDone 0, 5, none, 1⟩ ∧
    ({ live .armed with yard := ⟨[], [⟨32, 9⟩]⟩ } : State).yard.delivered.find? (fun d => d.id == 32 + 16 * (0 : Fin 16).val + (0 : Fin 16).val)
      = some ⟨32, 9⟩ ∧
    bits ((State.modGroom (withGroom 0 0 0 0) fun x => { x with wdogCfg := 0x1000A }).groom 0).wdogCfg 0 16 ≠ 0 := by decide

/-- Groom 0 at EMIT G5, G1, G2, TRIG3, AT with output 3 enabled. -/
theorem wit_emit : ((withGroom 0xA1448023 0 100 8).groom 0).fetched = some (.emit .pulse true 3 5 1 2) ∧
    ((withGroom 0xA1448023 0 100 8).put F.OUT_CFG_ENABLE 3 1).isOn F.OUT_CFG_ENABLE 3 = true ∧
    ((withGroom 0xA1448023 0 100 8).put F.OUT_CFG_ENABLE 3 1).outOpen = true ∧
    ((withGroom 0xA1448023 0 100 8).put F.OUT_CFG_ENABLE 3 1).sched 3 = Sched.zero ∧ (live .quiet).outOpen = false ∧
    ((withGroom 0xA00000DF 0 0 0).groom 0).fetched = none ∧ ((withGroom 0xA000005F 0 0 0).groom 0).fetched = some (.emit .set false 31 0 0 0) ∧
    ((withGroom 0xA419C014 0 100 8).groom 0).fetched = some (.emitw 20 0 6 7) ∧
    ((withGroom 0xA8000002 0 0 0).groom 0).fetched = some (.sig 2) ∧ ((withGroom 0xA8102000 0 0 0).groom 0).fetched = some (.sigM 4) ∧
    ((withGroom 0xAC048802 0 0 0).groom 0).fetched = some (.ctrig 2 0x80 1 2) := by decide

theorem wit_lists : ((withGroom 0xB0840003 0 0 0).groom 0).fetched = some (.wpt .set 3 2 1) ∧
    ((withGroom 0xB0801003 0 0 0).groom 0).fetched = some (.wpt .act 3 2 0) ∧
    ((withGroom 0xB0802003 0 0 0).groom 0).fetched = some (.wpt .deact 3 2 0) := by decide

theorem wit_contexts : ((withGroom 0xE0800045 0 0 0).groom 0).fetched = some (.arm true 5 2) ∧
    ((withGroom 0xE4E80245 0 0 0).groom 0).fetched = some (.tack true false true 5 3 10 0) ∧
    ((withGroom 0xE4C24105 0 0 0).groom 0).fetched = some (.tack false true false 5 3 0 9) ∧
    ((withGroom 0xE4C00085 0 0 0).groom 0).fetched = some (.tackCancel 5 3) ∧
    ((withGroom 0xF8800003 0 0 0).groom 0).fetched = some (.acap false 3 2) ∧
    ((withGroom 0xFD400017 0 0 0).groom 0).fetched = some (.mode true 7 5 0) ∧
    ((live .stream).ctx 5).check = none ∧ (live .stream).get F.CTX_STATUS_PENDING_COPY 5 = 0 ∧ (live .stream).copyLocked 5 true = false ∧
    ((live .stream).put F.CTX_STATUS_ACTIVE_COPY 5 2).copyLocked 5 true = true := by decide

theorem wit_contexts_wait :
    ((State.modGroom (withGroom 0 0 0 0) fun x => { x with wait := some ⟨.tackEnded 3, 5, none, 1⟩ }).groom 0).wait =
      some ⟨.tackEnded 3, 5, none, 1⟩ ∧
    ((State.modGroom (withGroom 0 0 0 0) fun x => { x with wait := some ⟨.mode, 5, some 9, 1⟩ }).groom 0).wait =
      some ⟨.mode, 5, some 9, 1⟩ := by decide

/-- Groom 0 at word `w` with G8 = 400 and G9 = 0, and trough 400 near, of 16 words, holding two words. -/
def withGroomTrough (w : BitVec 32) : State :=
  let s := (State.modGroom (withGroom w 0 0 0) fun x => { x with g := [(8, 400)] }).wr .TRG_CFG 400 0x11
  { s with troughs := [(400, { Trough.zero with vis := 1 })], near := [(0, ⟨7, true, true, false, false⟩)] }

theorem wit_trough : ((withGroomTrough 0xEC224000).groom 0).fetched = some (.qpush 0 8 9) ∧
    ((withGroomTrough 0xECA24007).groom 0).fetched = some (.qpushP 3 2 8 9) ∧
    ((withGroomTrough 0xF1200000).groom 0).fetched = some (.qpop 4 8) ∧
    ((withGroomTrough 0xF122401F).groom 0).fetched = some (.qpopP 15 4 8 9) ∧
    ((withGroomTrough 0xE8AF0201).groom 0).fetched = some (.tag 1 0x40 2 11 12) ∧
    ((withGroomTrough 0xF4B78000).groom 0).fetched = some (.drain 2 13 14) ∧
    (withGroomTrough 0).trgOn 400 = true ∧ (withGroomTrough 0).trgFar 400 = false ∧ ((withGroomTrough 0).trg 400).openBy = none ∧
    ((withGroomTrough 0).trg 400).vis + 14 < (withGroomTrough 0).trgSize 400 ∧
    (withGroomTrough 0).trgSize 400 ≤ ((withGroomTrough 0).trg 400).vis + 15 ∧
    ((withGroomTrough 0).visWord 400 0).eop = true ∧ (withGroomTrough 0).headItem 400 = some ⟨[7], false, false⟩ ∧
    (live .stream).trgOn 400 = false ∧ (live .stream).headItem 400 = none := by decide

/-! ### Witnesses: the time base, the outputs and the waypoints -/

/-- Ready with PPS_EN and the frequency reference present, in discipline state `d`. -/
def withDisc (d : Disc) (n : Nat) : State :=
  let s := (live .ready).put F.TB_CFG_PPS_EN 0 1
  { s with tb := { s.tb with disc := d, refPresent := true, inRow := n, rejects := n } }

theorem wit_pps : (withDisc .free 0).isOn F.TB_CFG_PPS_FALLING = false ∧ (withDisc .free 0).tb.disc = .free ∧
    (withDisc .free 0).isOn F.TB_CFG_PPS_EN = true ∧ (withDisc .free 0).refGood = true ∧
    (withDisc .free 0).tb.lastAccept = none ∧ (withDisc .free 0).tb.setPending = false := by decide

theorem wit_pps_locking : (withDisc .locking 2).tb.disc = .locking ∧ (withDisc .locking 2).tb.inRow = 2 ∧
    (withDisc .locking 2).tb.lastAccept = none ∧
    ((withDisc .locking 2).phaseError 4000000100).natAbs ≤ max ((withDisc .locking 2).get F.TB_CFG_LOCK_NS) 1 * 4 ∧
    ¬ ((withDisc .locking 2).phaseError 4000000401).natAbs ≤ max ((withDisc .locking 2).get F.TB_CFG_LOCK_NS) 1 * 4 := by decide

theorem wit_pps_locked : (withDisc .locked 2).tb.disc = .locked ∧ (withDisc .locked 2).tb.rejects = 2 ∧
    max ((withDisc .locked 2).get F.TB_CFG_PPS_WINDOW) 1 * 4000 < ((withDisc .locked 2).phaseError 4000040001).natAbs ∧
    ¬ max ((withDisc .locked 2).get F.TB_CFG_PPS_WINDOW) 1 * 4000 < ((withDisc .locked 2).phaseError 4000040000).natAbs := by decide

theorem wit_compare : ((live .ready).put F.TB_CTRL_COMPARE_EN 0 1).isOn F.TB_CTRL_COMPARE_EN = true ∧
    ((live .ready).put F.TB_CTRL_COMPARE_EN 0 1).tb.cmpFired = false ∧
    ((live .ready).put F.TB_CTRL_COMPARE_EN 0 1).tb.cmpLate = false ∧
    ((live .ready).put F.TB_CTRL_COMPARE_EN 0 1).tb.count ≤ ((live .ready).put F.TB_CTRL_COMPARE_EN 0 1).tb.cmpNext ∧
    (live .ready).isOn F.TB_CTRL_COMPARE_EN = false := by decide

theorem wit_set : bit (0x1 : Word) 1 = false ∧ bit (0x1 : Word) 2 = false ∧ bit (0x1 : Word) 3 = false ∧ bit (0x1 : Word) 5 = false ∧
    bit (0x3 : Word) 1 = true ∧ (live .ready).ctl.mode ∈ [Mode.ready, .quiet, .hold] ∧
    (live .armed).ctl.mode ∉ [Mode.ready, .quiet, .hold] ∧ bit (0x4 : Word) 0 = false := by decide

/-- Event `e` delivered, latch 0 enabled and without a trough, output 0 enabled for its consumer with a width of 8 ticks. -/
def withDelivered (e : YEvent) : State :=
  let s := ((live .ready).wr .LATCH_CFG 0 0x0190_0001 |>.put F.LATCH_CFG_TROUGH 0 0).wr .OUT_CFG 0 (0x8101 : Word)
  { s with yard := ⟨[], [e]⟩ }

theorem wit_latch : (withDelivered ⟨312, 9⟩).yard.delivered.find? (fun d => d.id == 312 + (0 : Fin 64).val) = some ⟨312, 9⟩ ∧
    (withDelivered ⟨312, 9⟩).get F.LATCH_CFG_TROUGH 0 < 400 ∧ (withDelivered ⟨312, 9⟩).isOn F.LATCH_CFG_ENABLE 0 = true ∧
    (withDelivered ⟨312, 9⟩).isOn F.LATCH_STATUS_VALID 0 = false ∧
    ((withDelivered ⟨312, 9⟩).put F.LATCH_STATUS_VALID 0 1).isOn F.LATCH_STATUS_VALID 0 = true ∧
    (withDelivered ⟨312, 9⟩).isOn F.LATCH_CFG_ENABLE 1 = false := by decide

theorem wit_trig_in : Tab.get 0 (live .ready).tb.trigLast 0 = 0 ∧
    ((live .ready).yard.raised.filter (fun e => e.id == 16)).length < 2 ∧
    ((live .ready).put F.TRIGIN_CFG_ENABLE 0 1).isOn F.TRIGIN_CFG_ENABLE 0 = true ∧
    (live .ready).get F.TRIGIN_CFG_EDGE 0 = 0 := by decide

theorem wit_output : (withDelivered ⟨0, 9⟩).yard.delivered.find? (fun d => d.id == (0 : Fin 32).val) = some ⟨0, 9⟩ ∧
    (withDelivered ⟨0, 9⟩).sched 0 = Sched.zero ∧ (withDelivered ⟨0, 9⟩).outOpen = true ∧
    (withDelivered ⟨0, 9⟩).isOn F.OUT_CFG_ENABLE 0 = true ∧ (withDelivered ⟨0, 9⟩).isOn F.OUT_CFG_CONS_EN 0 = true ∧
    (withDelivered ⟨0, 9⟩).get F.OUT_CFG_CONS_ACT 0 = 0 ∧ 4 ≤ (withDelivered ⟨0, 9⟩).get F.OUT_CFG_CONS_WIDTH 0 ∧
    ¬ (withDelivered ⟨0, 9⟩).tb.count + 16 ≤ 9 + (withDelivered ⟨0, 9⟩).get F.OUT_CFG_CONS_DELAY 0 ∧
    (withDelivered ⟨0, 99⟩).tb.count + 16 ≤ 99 + (withDelivered ⟨0, 99⟩).get F.OUT_CFG_CONS_DELAY 0 ∧
    (live .ready).isOn F.OUT_CFG_CONS_EN 0 = false := by decide

theorem wit_edge_due : (((withDelivered ⟨0, 9⟩).setSched 0 ⟨false, false, [⟨.consumer, 20, some 28⟩], [], 0⟩).sched 0 =
      ⟨false, false, [⟨.consumer, 20, some 28⟩], [], 0⟩) ∧ (0 : Nat) < 20 ∧ 20 < 28 ∧
    ((withDelivered ⟨0, 9⟩).setSched 0 ⟨false, false, [⟨.consumer, 20, some 28⟩], [], 0⟩).tb.count ≤ 20 ∧
    ((withDelivered ⟨0, 9⟩).setSched 0 ⟨false, false, [⟨.consumer, 20, some 28⟩], [], 0⟩).isOn F.OUT_CFG_ENABLE 0 = true := by decide

/-- List 0 over entries 0 and 1 at positions 100 and 200, upwards on axis 0, in state `st`; a sample at 150 has arrived. -/
def withWaypoints (st : Nat) : State :=
  let s := ((live .ready).wr .WP_LIST_DESC 0 (0x8_0000 : Word)).put F.WP_LIST_STATUS_STATE 0 st
  { s with
    wpMem := Tab.set 0 (Tab.set 0 s.wpMem 0 100) 2 200
    fld := { s.fld with arrived := [⟨0, 150, 9⟩] } }

theorem wit_waypoint :
    (withWaypoints 1).fld.arrived.find? (fun y => y.axis == (0 : Fin 8).val) = some ⟨0, 150, 9⟩ ∧
    (withWaypoints 1).ctl.mode.compares = true ∧ (∀ k, k < 32 → ((withWaypoints 1).wpLive k 0 = true ↔ k = 0)) ∧
    ((withWaypoints 1).wpl 0).skip = false ∧ bits ((withWaypoints 1).wpl 0).cfg 16 16 < 400 ∧
    (withWaypoints 1).wpMet 0 ⟨0, 150, 9⟩ = true ∧
    bits ((withWaypoints 1).wpWord ((withWaypoints 1).wpFirst 0 + (withWaypoints 1).wpNext 0) 1) 5 3 = 0 ∧
    bit ((withWaypoints 1).wpWord ((withWaypoints 1).wpFirst 0 + (withWaypoints 1).wpNext 0) 1) 8 = false ∧
    (withWaypoints 1).wpNext 0 + 1 < (withWaypoints 1).wpCount 0 ∧
    (150#64).toInt < ((withWaypoints 1).wpWord ((withWaypoints 1).wpFirst 0 + (withWaypoints 1).wpNext 0 + 1) 0).toInt ∧
    (∀ l, l < 32 → (withWaypoints 0).wpLive l 0 = false) := by decide

theorem wit_waypoint_list : (withWaypoints 1).wpState 0 = 1 ∧ (withWaypoints 0).wpState 0 = 0 ∧ (withWaypoints 0).wpCount 0 ≠ 0 ∧
    (live .ready).wpCount 0 = 0 ∧ (live .ready).wpState 0 = 0 ∧ bits (0x1FFFFE00001 : Word) 41 23 = 0 ∧
    bits (0x8_0000 : Word) 18 19 ≠ 0 ∧ bits (0x8_0000 : Word) 0 18 + bits (0x8_0000 : Word) 18 19 ≤ 262144 ∧
    262144 < bits (0xC_0000_0001 : Word) 0 18 + bits (0xC_0000_0001 : Word) 18 19 + 262144 ∧
    (withWaypoints 1).wpFirst 0 ≤ 1 ∧ 1 < (withWaypoints 1).wpFirst 0 + (withWaypoints 1).wpCount 0 ∧
    ¬ 2 < (withWaypoints 1).wpFirst 0 + (withWaypoints 1).wpCount 0 := by decide

/-! ### Witnesses: the yard -/

/-- Producer 16 with an event of tick 9 raised, on channel 5, to latch consumer 312, which is enabled. -/
def withEvent : State :=
  { (((live .ready).wr .YARD_PROD_EN 64 0x20).wr .YARD_CONS_EN 1248 0x20).put F.LATCH_CFG_ENABLE 0 1 with yard := ⟨[⟨16, 9⟩], []⟩ }

theorem wit_yard : withEvent.yard.raised = [⟨(16 : Fin 512).val, 9⟩] ∧ prodStamped 16 = true ∧ withEvent.prodDrives 16 5 = true ∧
    withEvent.prodDrives 16 6 = false ∧ withEvent.consDriven 5 312 = true ∧ withEvent.consDeaf 312 = false := by decide

theorem wit_yard_owner : ((live .ready).wr .YARD_CH_CFG 5 0x21).mayChange 18 5 = false ∧
    bits (0x20 : Word) 0 6 ≠ bits (((live .ready).wr .YARD_CH_CFG 5 0x21).rd .YARD_CH_CFG 5) 0 6 ∧
    ((live .ready).wr .YARD_CH_CFG 5 0x21).mayChange 1 5 = true ∧ bits (0x21 : Word) 0 5 < 19 := by decide

/-! ### Witnesses: the field domain -/

/-- The field side up and synchronised, the link up, axis 0 with configuration `c`, fault `f` and pins `p`; input 0 enabled and
qualified low; output 0 on. -/
def withField (c : Word) (f : Nat) (p : Option Bool) : State :=
  let s := (live .ready).put F.FLD_STATUS_LINK_UP 0 1
  { s with fld := { s.fld with
      up := true, hold := false, synced := true
      axes := [(0, { FieldAxis.zero with cfg := c, a := p, b := p, z := p, fault := f, ssiPrev := some 3, ssiBad := 2 })]
      ins := [(0, ⟨1, some false, 0⟩)]
      outs := [(0, ⟨false, true, false⟩)]
      toField := [.cmd ⟨0, true, 9⟩ 2, .sync 5]
      toCore := [⟨0, 7, 9⟩]
      beats := [⟨true, false, true⟩]
      armed := [⟨0, true, 9⟩]
      lost := [⟨0, true, 9⟩] } }

theorem wit_levee : (withField 1 0 none).ctl.mode.yardOn = true ∧
    (withField 1 0 none).fld.toField = [.cmd ⟨0, true, 9⟩ 2, .sync 5] ∧ (withField 1 0 none).fld.toCore = [⟨0, 7, 9⟩] ∧
    (withField 1 0 none).fld.lost = [⟨0, true, 9⟩] ∧ (withField 1 0 none).fld.beats = [⟨true, false, true⟩] ∧
    (withField 1 0 none).fld.up = true ∧ (withField 1 0 none).isOn F.FLD_STATUS_LINK_UP = true ∧
    (live .ready).isOn F.FLD_STATUS_LINK_UP = false ∧ (withField 1 0 none).fld.held = [] := by decide

theorem wit_levee_down : ({ live .ready with fld := { (live .ready).fld with up := false } } : State).fld.up = false ∧
    ((withField 1 0 none).put F.FLD_STATUS_LINK_UP 0 0).isOn F.FLD_STATUS_LINK_UP = false ∧
    ((withField 1 0 none).put F.FLD_STATUS_LINK_UP 0 0).fld.up = true := by decide

theorem wit_axis : ((withField 1 0 none).axis 0).on = true ∧ ((withField 1 0 none).axis 0).pin 0 = none ∧
    ((withField 1 0 (some true)).axis 0).mode = 0 ∧ ((withField 1 0 (some true)).axis 0).fault = 0 ∧
    ((withField 1 0 (some true)).axis 0).a = some true ∧ ((withField 1 0 (some true)).axis 0).b = some true ∧
    ((withField 1 0 (some true)).axis 0).z ≠ none ∧ ((withField 1 0 (some true)).axis 0).pin 2 = some true ∧
    ((withField 1 1 none).axis 0).fault ≠ 0 ∧ F.ENC_CFG_Z_GATE.of ((withField 1 0 (some true)).axis 0).cfg = 0 ∧
    F.ENC_CFG_Z_EVENT_EN.of ((withField 0x201 0 (some true)).axis 0).cfg = 1 ∧
    (((withField 1 1 none).axis 0).setPin 0 (some true)).qualified = false := by decide

theorem wit_ssi : ((withField 0x5 0 (some true)).axis 0).mode = 2 ∧ ((withField 0x5 0 (some true)).axis 0).on = true ∧
    ((withField 0x5 0 (some true)).axis 0).b ≠ none ∧ ((withField 0x5 0 (some true)).axis 0).loadDue = false ∧
    F.ENC_CFG_SSI_GRAY.of ((withField 0x5 0 (some true)).axis 0).cfg = 0 ∧ (withField 0x5 0 none).fld.synced = true ∧
    F.ENC_CFG_SSI_EXTEND.of ((withField 0x5 0 (some true)).axis 0).cfg = 0 ∧
    F.ENC_CFG_SSI_EXTEND.of ((withField 0x80000005 0 (some true)).axis 0).cfg = 1 ∧
    ((withField 0x80000005 0 (some true)).axis 0).ssiPrev = some 3 := by decide

theorem wit_field_regs : F.ENC_CFG_MODE.of (0x6 : Word) = 3 ∧ F.ENC_CFG_MODE.of (0x1 : Word) ≠ 3 ∧
    (withField 1 0 none).isOn F.ENC_CFG_ENABLE 0 = false ∧
    ((withField 1 0 none).wr .ENC_CFG 0 1).isOn F.ENC_CFG_ENABLE 0 = true ∧
    (((withField 1 0 none).wr .ENC_CFG 0 1).rd .ENC_CFG 0 ^^^ (0x101 : Word)) &&& 0x0000FFFFFFFF03FE ≠ 0 := by decide

theorem wit_field_io : F.FI_CFG_ENABLE.of ((withField 1 0 none).fin 0).cfg = 1 ∧ ((withField 1 0 none).fin 0).level = some false ∧
    ((withField 1 0 none).yard.raised.filter (fun e => e.id == 0)).length < 2 ∧
    (withField 1 0 none).fld.armed.find? (fun c => c.out == (0 : Fin 15).val) = some ⟨0, true, 9⟩ ∧
    (withField 1 0 none).foOn 0 = true ∧ (withField 1 0 none).isOn F.FO_STATUS_OVERLOAD 0 = false ∧
    ((withField 1 0 none).put F.FO_STATUS_OVERLOAD 0 1).isOn F.FO_STATUS_OVERLOAD 0 = true ∧
    ((withField 1 0 none).put F.FO_STATUS_OVERLOAD 0 1).isOn F.FLD_STATUS_LINK_UP = true := by decide

theorem wit_receiver_input : F.FI_CFG_ENABLE.of (({ withField 1 0 none with fld := { (withField 1 0 none).fld with
      ins := [(0, ⟨1, none, 0⟩)] } }).fin 0).cfg = 1 ∧ (({ withField 1 0 none with fld := { (withField 1 0 none).fld with
      ins := [(0, ⟨1, none, 0⟩)] } }).fin 0).level = none := by decide

/-! ### Witnesses: the host endpoint -/

/-- A live state with the host link up, and Command `cmd` in both functions. -/
def withHost (cmd : Nat) : State :=
  { live .ready with host := { (live .ready).host with
      linkUp := true, pf0 := { (live .ready).host.pf0 with regs := [(4, cmd)] }, pf1 := { (live .ready).host.pf1 with regs := [(4, cmd)] } } }

theorem wit_config : (withHost 6).retryStatus 0 = false ∧ (withHost 6).host.linkUp = true ∧ ((withHost 6).func 1).cfg 0 = 0 ∧
    ({ withHost 6 with boot := { (withHost 6).boot with running := none } } : State).retryStatus 1 = true ∧
    (live .ready).host.linkUp = false := by decide

theorem wit_memory : ((withHost 6).func 0).inFlr = false ∧ ((withHost 6).func 0).d3hot = false ∧ ((withHost 6).func 0).memOn = true ∧
    (withHost 6).noImage = false ∧ ((withHost 4).func 0).memOn = false ∧ barSize 0 3 = none ∧ (withHost 6).fenBarred 0x40000 8 = false ∧
    (withHost 6).fenUsable 0x40000 = true ∧ (withHost 6).fenCheck 0x40000 = 0 ∧ poolRecordEnd ≤ 0x40000 ∧ (withHost 6).ctl.mode ≠ .quiet := by
  decide

theorem wit_in_flr : (({ withHost 6 with host := { (withHost 6).host with pf0 := { (withHost 6).host.pf0 with inFlr := true } } } : State).func 0).inFlr =
    true := by decide

theorem wit_register : regBytes 0 .ALARM_CFG 3 = none ∧ regBytes 0 .HOST_PM_CFG 0 = some 4 ∧ regBytes 0 .HIRQ_SRC_PENDING 0 = some 4 := by
  decide +kernel

theorem wit_register_plain (s : State) (v m : Word) : s.regWriteA 0 .HOST_PM_CFG 0 v m = none ∧ s.regWriteB .HOST_PM_CFG 0 v m = none ∧
    s.regWriteC .HOST_PM_CFG 0 v m = none := ⟨rfl, rfl, rfl⟩

theorem wit_reg_read : (withHost 6).firmware = true ∧ winAt 1 0x30020 = none ∧ (withHost 6).doorbellAt 1 0x30020 = none ∧
    regAt 1 0x30020 = some (.PAIR_EPOCH, 0, 8) ∧
    ({ withHost 6 with boot := { (withHost 6).boot with running := none } } : State).firmware = false := by decide +kernel

/-- `withHost 6` with a message of vector 5 of function `fn` waiting, MSI-X on or off, and the vector masked or not. -/
def withMsg (fn : Nat) (on masked : Bool) : State :=
  let f : Func := { (live .ready).host.pf0 with
    regs := [(4, 6), (0x50, if on then 0x80000000 else 0)], vecs := [(5, ⟨0x1000, 7, masked⟩)] }
  { withHost 6 with host := { (withHost 6).host with pf0 := f, pf1 := f, msgs := [⟨fn, 5, .yard⟩] } }

theorem wit_message : (withMsg 0 true false).host.msgs.find? (fun m => m.fn == 0 && m.vector == 5) = some ⟨0, 5, .yard⟩ ∧
    ((withMsg 0 true false).func 0).msixOn = true ∧ ((withMsg 0 true false).func 0).msixMasked = false ∧
    ((withMsg 0 true false).vec 0 5).masked = false ∧ (withMsg 0 true false).maySend 0 = true ∧
    (withMsg 0 true false).slotFor .yard = some .yard ∧ ((withMsg 0 true true).vec 0 5).masked = true ∧
    ((withMsg 0 false false).func 0).intx = true ∧ (withMsg 1 true false).maySend 1 = true ∧
    (withMsg 1 true false).host.slots1.contains 5 = false ∧ (withHost 6).host.msgs.find? (fun m => m.fn == 0 && m.vector == 5) = none := by
  decide

theorem wit_no_intx : ((withHost 0x406).func 0).intx = false ∧ ((withHost 0x406).func 0).msixOn = false := by decide

theorem wit_slots_full : ({ withMsg 0 true false with host := { (withMsg 0 true false).host with
    slots := List.replicate 16 .yard ++ List.replicate 18 .shared } } : State).slotFor .yard = none := by decide

theorem wit_pba : Tab.get false ((withMsg 0 true true).setPba 0 5 true |>.func 0).pba 5 = true := by decide

/-- An event for host interrupt source 2, which is on. -/
def withHirq (on : Nat) : State :=
  { (live .ready).put F.HIRQ_SRC_CFG_ENABLE 2 on with yard := { (live .ready).yard with delivered := [⟨378, 9⟩] } }

theorem wit_hirq : ((withHirq 1).takeEvent 378).isSome = true ∧ (withHirq 1).isOn F.HIRQ_SRC_CFG_ENABLE 2 = true ∧
    bit ((withHirq 1).rd .HIRQ_SRC_PENDING) 2 = false ∧ (withHirq 0).isOn F.HIRQ_SRC_CFG_ENABLE 2 = false ∧
    (live .ready).takeEvent 378 = none := by decide

/-- A FETCH of 8 bytes to fen address 0x40000 in slot 0 of ring 0, its read out with tag 100. -/
def withRead : State :=
  { withRing [{ aDesc 3 0x1000 0x40000 8 with started := true, asked := 8 }] with
    host := { (withRing []).host with tags := [⟨100, .data 0 0 0 8, false, false, [], some 50⟩] } }

theorem wit_tags : withRead.tagOf 100 = some ⟨100, .data 0 0 0 8, false, false, [], some 50⟩ ∧ withRead.tagOf 101 = none ∧
    (∃ d, (withRead.ring 0).descs = [d] ∧ d.op = opFetch ∧ d.started = true ∧ d.ended = none ∧ d.err = none ∧ d.back = 0 ∧ d.asked = 8 ∧
      d.len = 8 ∧ (d.w 2).toNat % 8 = 0 ∧ d.slot = 0) ∧ withRead.fenUsable 0x40000 = true ∧
    (∃ y, ({ withRead with host := { withRead.host with tags := [⟨100, .data 0 65536 0 0, true, false, [], some 9⟩] } } : State).tagOf 100 =
      some y ∧ y.quar = true ∧ y.due = some 9) := by
  refine ⟨by decide, by decide, ⟨_, rfl, by decide⟩, by decide, ⟨_, rfl, by decide⟩⟩

/-- The host live and idle, ASPM L1 enabled. -/
def withL1 : State :=
  { live .ready with host := { (live .ready).host with linkUp := true, pf0 := { (live .ready).host.pf0 with regs := [(4, 4), (0x80, 2)] } } }

theorem wit_l1 : withL1.hostLive = true ∧ withL1.host.inL1 = false ∧ withL1.host.pf0.dword 0 0x80 / 2 % 2 = 1 := by decide

theorem wit_l1_idle : withL1.linkIdle = true := by decide +kernel

theorem wit_link : (live .ready).host.linkUp = false ∧ (live .ready).power.perst = false ∧ (live .ready).power.vddAon = true ∧
    (withHost 6).host.linkUp = true ∧ (withHost 6).host.pf0.inFlr = false ∧ (live .stream).modeAhead = .stream := by decide

/-! ### Witnesses: the pair -/

/-- `withCauseway` in pair state `st` with peer serial `ps` and the peer's line at `line`. -/
def withPair (st line : Nat) : State :=
  ((withCauseway.put F.PAIR_STATUS_STATE 0 st).put F.PAIR_STATUS_PEER_KEEP 0 line).wr .PAIR_PEER_SERIAL 0 0x1F3E0F1600000009

/-- A STATUS body of the peer, with word 0 and its epoch. -/
def statusOf (w0 epoch : Word) : List Word := [w0, epoch, 0x1F3E0F1600000009, 0x1F3E0F1600000000] ++ List.replicate 80 7

theorem wit_pair_enable : (live .ready).isOn F.PAIR_CFG_ENABLE = false ∧ (live .ready).pairSerialOk = false ∧
    ((live .ready).wr .PAIR_PEER_SERIAL 0 9).pairSerialOk = true ∧ (live .ready).pairSt = 0 ∧ (withPair 1 0).isOn F.PAIR_CFG_ENABLE = true := by
  decide

theorem wit_status : (withPair 1 0).cwActive = true ∧ (live .ready).cwActive = false ∧ ((withPair 1 0).reach 9).cwActive = true ∧
    (statusOf 2 5).length = 84 ∧ (statusOf 2 5)[2]? = some ((withPair 1 0).rd .PAIR_PEER_SERIAL) ∧
    (statusOf 2 5)[3]? = some (word (withPair 1 0).serial) ∧ (withPair 1 0).isOn F.PAIR_STATUS_MISCONFIG = false ∧ (withPair 1 0).pairSt = 1 ∧
    bits (1 : Word) 8 8 < (withPair 1 0).get F.PAIR_CFG_PRIORITY ∧ (withPair 1 0).epoch < 2 ^ 64 - 1 ∧ bit (8 : Word) 3 = true ∧
    (withPair 3 0).peerKeep = false := by decide

/-- The CRC that a packet with this body has. -/
theorem wit_status_crc (type tick : Nat) (body : List Byte) :
    (rxOf type 0 0 body (BitVec.ofNat 32 (crc32c (packetBytes type 0 0 body))) false tick).good = true := by
  have h := crc32c_lt (packetBytes type 0 0 body)
  simp only [rxOf, Rx.good, BitVec.toNat_ofNat, Fin.val_zero, Fin.isValue, Nat.mod_eq_of_lt h]
  exact beq_self_eq_true _

theorem wit_status_wrong : (live .ready).rd .PAIR_PEER_SERIAL ≠ (0x1F3E0F1600000009 : Word) := by decide

theorem wit_lines : (withPair 5 0).pairSt = 5 ∧ (withPair 5 0).peerKeep = false ∧ (withPair 5 1).peerKeep = true ∧
    ((withPair 2 1).put F.PAIR_STATUS_CAUSEWAY_UP 0 0).cwUp = false ∧ (withPair 2 1).peerEpoch ≤ (withPair 2 1).epoch ∧
    ({ withPair 3 0 with pair := { (withPair 3 0).pair with release := some 4000 } } : State).pair.release = some 4000 ∧
    (withPair 3 0).pair.peerFinal = false ∧ (withPair 2 1).pairSt = 2 ∧ ((withPair 2 1).put F.PAIR_STATUS_PEER_STATE 0 3).cwUp = true ∧
    (withPair 4 0).sluiceDraining = false ∧ ({ withPair 3 0 with pair := { (withPair 3 0).pair with lastStatus := some 1 } } : State).cwUp = true ∧
    (2 : BitVec 32).getLsbD 1 = true ∧ (1 : BitVec 32).getLsbD 1 = false := by decide +kernel

/-- A pair member fed stall 3 from the causeway. -/
def withFed : State := (((withPair 3 0).put F.PAIR_CFG_FWD_IN 0 8).put F.STALL_LINK_CFG_ENABLE 3 1).put F.STALL_LINK_STATUS_STATE 3 lsUp

theorem wit_forward : withFed.fwdIn 3 = true ∧ withFed.isOn F.STALL_LINK_CFG_ENABLE 3 = true ∧ withFed.cwUp = true ∧
    (withFed.reach 9).cwActive = true ∧ (withFed.reach 9).fwdIn 2 = false := by decide +kernel

/-- A shadow with context 0 enabled, its watermark at `wm`, and a record of FRAME_SEQ 7 without payload in trough 16. -/
def withTrim (wm : Word) : State :=
  let s := nearTrough 16 (((withPair 3 0).put F.CTX_CTRL_ENABLE 0 1).wr .PAIR_WM 0 wm)
  s.pushItem 16 [0, 7, 0, 0, 0, 0, 0, 0]

theorem wit_trim : (withTrim 7).headItem 16 = some ⟨[0, 7, 0, 0, 0, 0, 0, 0], false, false⟩ ∧ (withTrim 7).ctxOn 0 = true ∧
    ((withTrim 7).trg 16).vis = 8 ∧ (7 : Word) ≤ (withTrim 7).rd .PAIR_WM 0 ∧ (withTrim 6).rd .PAIR_WM 0 < 7 ∧
    (withTrim 6).headItem 16 = some ⟨[0, 7, 0, 0, 0, 0, 0, 0], false, false⟩ ∧ (withPair 3 0).headItem 16 = none := by decide +kernel

theorem wit_trim_marker : ∃ it, ((nearTrough 16 (withPair 3 0)).dropItem 16).headItem 16 = some it ∧ it.gap = true ∧
    (((nearTrough 16 (withPair 3 0)).dropItem 16).trg 16).vis = 1 := ⟨⟨[1], true, false⟩, by decide +kernel⟩

/-! ### Witnesses: management -/

/-- An alarm, code 0x05, raised and not entered, with `n` unacknowledged. -/
def withAlarm (n : Nat) : State :=
  { live .ready with mgmt := { Mgmt.zero with raised := [⟨0x05, 7, n, 100, false⟩], unacked := List.range n } }

theorem wit_alarms : (withAlarm 0).firmware = true ∧ (withAlarm 0).mgmt.raised = [⟨0x05, 7, 0, 100, false⟩] ∧
    (withAlarm 0).mgmt.unacked.length < 256 ∧ (withAlarm 2).mgmt.missed = 0 := by decide

theorem wit_alarm_overflow : 256 ≤ (withAlarm 256).mgmt.unacked.length := by simp [withAlarm]

/-- The log troughs as the yardmaster configures them. -/
def withLogs : State := (live .ready).configureLogs

theorem wit_logs : withLogs.trgOn 0 = true ∧ withLogs.trgAsleep 0 = false ∧ (withLogs.trg 0).openBy = none ∧
    (withLogs.trg 0).vis + 3 < withLogs.trgSize 0 ∧ withLogs.trgOn 1 = true ∧ withLogs.trgAsleep 1 = false ∧
    (withLogs.trg 1).openBy = none ∧ (withLogs.trg 1).vis + 4 < withLogs.trgSize 1 ∧ withLogs.trgOn 2 = true ∧
    withLogs.trgAsleep 2 = false ∧ (withLogs.trg 2).openBy = none ∧
    (withLogs.trg 2).vis + 3 * withLogs.mgmt.events.length < withLogs.trgSize 2 ∧ withLogs.firmware = true ∧
    withLogs.smbLive = true ∧ withLogs.popAllowed .smbus 1 = false ∧
    (withLogs.put F.LOG_CFG_OWNER_1 0 1).popAllowed .smbus 1 = true := by decide

theorem wit_fault : (∀ g ∈ ([⟨3, 10, 12, 2, 0⟩] : List FaultRec), g ≠ ⟨3, 10, 12, 2, 0⟩ → (10 < g.first ∨ 10 = g.first ∧ 3 < g.code)) ∧
    (⟨3, 10, 12, 2, 0⟩ : FaultRec) ∈ ({ withLogs.mgmt with faults := [⟨3, 10, 12, 2, 0⟩] } : Mgmt).faults := by decide

theorem wit_telemetry : (List.replicate 32 (400 : Int)).length = 32 ∧ (List.replicate 10 1000).length = 10 ∧
    (List.replicate 4 (400 : Int)).length = 4 ∧ (List.replicate 34 1).length = 34 ∧
    ({ Mgmt.zero with thermal := true, gradient := 640 } : Mgmt).thermal = true ∧
    ({ Mgmt.zero with railCause := true } : Mgmt).railsOut = [] := by decide

theorem wit_ist : (live .ready).istMode = true ∧ (live .ready).istOn 0 = true ∧ (live .ready).istOn 1 = true ∧
    (live .ready).istOn 4 = true ∧ (live .ready).istOn 5 = true ∧ (live .ready).isOn F.FEN_SCRUB_ENABLE = true := by decide

/-- Slot 0 keys programmed and slot 1 blank. -/
def withKeys : State := { live .ready with fuses := ⟨[[1], [], [2], []], [false, false, false, false], 3, 0, false⟩ }

theorem wit_flash : bits (0x464C0010 : Word) 16 16 = 0x464C ∧ (live .ready).flashLive = true ∧ (live .ready).mgmt.flashOp = .none ∧
    ((live .ready).put F.FLASH_ADDR_ADDR 0 0x2000000).get F.FLASH_ADDR_ADDR % 65536 = 0 ∧
    (live .ready).inRunningSlot 0x2000000 = false ∧ (live .ready).inRunningSlot 0 = true ∧
    (live .ready).get F.FLASH_ADDR_ADDR % 65536 = 0 ∧ bits (0 : Word) 16 16 ≠ 0x464C ∧ bits (0 : Word) 16 16 ≠ 0x5345 := by decide

theorem wit_sec : bits (0x53450030 : Word) 16 16 = 0x5345 ∧ withKeys.flashLive = true ∧
    withKeys.isOn F.DEV_STATUS_BOOT_DOWNGRADE = false ∧ bits (0x53450030 : Word) 5 3 = 1 ∧ withKeys.fuses.keys[1]? = some [] ∧
    bits (0x53450050 : Word) 5 3 = 2 ∧ ¬ (withKeys.boot.running.isSome = true ∧ withKeys.boot.runKey = 2) ∧
    withKeys.fuses.otherKey 2 = true ∧ ({ Mgmt.zero with flashOp := .flash 1 } : Mgmt).flashOp = .flash 1 ∧
    ({ Mgmt.zero with flashOp := .sec 1 } : Mgmt).flashOp = .sec 1 := by decide

/-! ### Witnesses: the step, the stores and Bertor's encoding -/

theorem wit_step : ({ live .ready with pending := [.hostCntClear] } : State).pending = .hostCntClear :: [] ∧ (live .ready).pending = [] ∧
    (dark .off 0).power.vddAon = false := by decide

theorem wit_canonical : (live .ready).Canonical ∧ ∃ t, step (live .ready) = .next t :=
  ⟨by unfold State.Canonical; decide, _, rfl⟩

theorem wit_bertor : (BInstr.csr .write 0 3 0x105).ok = true ∧ decodeBertor (encodeWord (.bl32 true 3 7)) 7 = some (.bl32 true 3 7) := by
  decide

end Sys2Proof.Tests
end

/-! SUPPORT. The handshake channels (R17 to R20): what one channel does at a write and at a free, what the state keeps, and the
statement O1. -/

namespace Sys2Proof.Machine

/-! ### One channel of the state -/

@[simp] theorem chan_setChan_same (s : State) (c : Nat) (x : Chan) : (s.setChan c x).chan c = x :=
  Tab.get_set_same _ _ _ _

theorem chan_setChan_other (s : State) {c d : Nat} (x : Chan) (h : d ≠ c) : (s.setChan c x).chan d = s.chan d :=
  Tab.get_set_other _ _ _ _ h

theorem setChan_chans_restored (s : State) (c : Nat) (x : Chan) : { s.setChan c x with chans := s.chans } = s := rfl

/-! ### The sender writes (R18, R19) -/

theorem Chan.write_of_room {x : Chan} (w : Word) (h : x.slots.length < 8 ∧ x.held = []) :
    x.write w = { x with slots := x.slots ++ [w], taken := x.taken ++ [w] } := if_pos h

theorem Chan.write_of_no_room {x : Chan} (w : Word) (h : ¬ (x.slots.length < 8 ∧ x.held = [])) :
    x.write w = { x with held := x.held ++ [w] } := if_neg h

/-- The entries in the order the sender wrote them: a write appends its entry, whether it is taken or held. -/
theorem Chan.write_taken_held (x : Chan) (w : Word) :
    (x.write w).taken ++ (x.write w).held = x.taken ++ x.held ++ [w] := by
  by_cases h : x.slots.length < 8 ∧ x.held = []
  · rw [Chan.write_of_room w h]; simp [h.2]
  · rw [Chan.write_of_no_room w h]; simp

theorem Chan.write_slots_held (x : Chan) (w : Word) :
    if x.slots.length < 8 ∧ x.held = [] then (x.write w).slots = x.slots ++ [w] ∧ (x.write w).held = []
    else (x.write w).slots = x.slots ∧ (x.write w).held = x.held ++ [w] := by
  split
  · next h => rw [Chan.write_of_room w h]; exact ⟨rfl, h.2⟩
  · next h => rw [Chan.write_of_no_room w h]; exact ⟨rfl, rfl⟩

/-! ### The oldest entry is freed (R19) -/

theorem Chan.free_of_none_held {x : Chan} (h : x.held = []) : x.free = { x with slots := x.slots.tail } := by
  simp [Chan.free, h]

theorem Chan.free_of_no_slots {x : Chan} (h : x.slots = []) : x.free = x := by
  obtain ⟨slots, held, taken⟩ := x
  subst h
  cases held <;> rfl

theorem Chan.free_of_held {x : Chan} {v : Word} {h : List Word} (hx : x.held = v :: h) (hs : x.slots ≠ []) :
    x.free = { slots := x.slots.tail ++ [v], held := h, taken := x.taken ++ [v] } := by
  simp [Chan.free, hx, hs]

/-- A free moves at most the first held entry behind those taken, so the order of all entries stays. -/
theorem Chan.free_taken_held (x : Chan) : x.free.taken ++ x.free.held = x.taken ++ x.held := by
  by_cases hs : x.slots = []
  · rw [Chan.free_of_no_slots hs]
  · cases hx : x.held with
    | nil => rw [Chan.free_of_none_held hx, hx]
    | cons v h => rw [Chan.free_of_held hx hs]; simp

/-! ### The two commands -/

theorem exec_handshakeEntryVisible (c : Fin 64) (w : Word) (s : State) :
    exec (.handshakeEntryVisible c w) s = .next (s.setChan c ((s.chan c).write w)) := rfl

theorem exec_handshakeEntryFreed (c : Fin 64) (s : State) :
    exec (.handshakeEntryFreed c) s = .next (s.setChan c (s.chan c).free) := rfl

/-- Settles O1 (R18, R19): each command replaces its own channel only, by `Chan.write` or `Chan.free`. That a message counts as
taken when it enters a place is the model's choice (log 15). -/
theorem handshakeChannelKeepsEveryEntryInOrder : Obligations.HandshakeChannelKeepsEveryEntryInOrder := by
  intro c w s
  constructor
  · refine ⟨_, exec_handshakeEntryVisible c w s, setChan_chans_restored .., fun d hd => chan_setChan_other s _ hd, ?_⟩
    rw [chan_setChan_same]
    exact ⟨Chan.write_taken_held _ w, Chan.write_slots_held _ w⟩
  · refine ⟨_, exec_handshakeEntryFreed c s, setChan_chans_restored .., fun d hd => chan_setChan_other s _ hd, ?_⟩
    rw [chan_setChan_same]
    refine ⟨Chan.free_taken_held _, fun hx => ?_, fun v h hx hs => ?_⟩
    · rw [Chan.free_of_none_held hx]
    · rw [Chan.free_of_held hx hs]; exact ⟨rfl, rfl⟩

end Sys2Proof.Machine

/-! SUPPORT. The retention island (R69 to R79): the seal that a sequencer's step leaves, what an alarm leaves alone in the register
file, and the statement O3. -/

namespace Sys2Proof

/-! ### The seal's code (R71) -/

/-- A step of a 16-bit code keeps to 16 bits. -/
theorem crcStep16_lt {poly : Nat} (hp : poly < 2 ^ 16) (n : Nat) {c : Nat} (h : c < 2 ^ 16) : crcStep 16 poly n c < 2 ^ 16 := by
  induction n generalizing c with
  | zero => exact h
  | succ n ih =>
    refine ih ?_
    split
    · exact Nat.xor_lt_two_pow (Nat.mod_lt _ (by decide)) hp
    · exact Nat.mod_lt _ (by decide)

theorem crcMsb16_lt {poly : Nat} (hp : poly < 2 ^ 16) (bs : List Byte) {c : Nat} (h : c < 2 ^ 16) : crcMsb 16 poly c bs < 2 ^ 16 := by
  induction bs generalizing c with
  | nil => exact h
  | cons b bs ih => exact ih (crcStep16_lt hp 8 (Nat.xor_lt_two_pow h (by have := b.isLt; omega)))

theorem crc16_lt (bs : List Byte) : crc16 bs < 65536 := crcMsb16_lt (by decide) bs (by decide)

namespace Machine

/-! ### A step of the sequencer (R72) -/

theorem nextGeneration_ne_zero (g : Nat) : nextGeneration g ≠ 0 := by unfold nextGeneration; split <;> omega

/-- SEAL_CRC depends on the memory alone. -/
theorem Retention.sealCrc_congr {r q : Retention} (h : q.mem = r.mem) (gen : Nat) : q.sealCrc gen = r.sealCrc gen := by
  unfold Retention.sealCrc Retention.bytes Retention.byte
  rw [h]

/-- Whether a seal is valid depends on it and the memory alone. -/
theorem Retention.sealValid_congr {r q : Retention} (hm : q.mem = r.mem) (hs : q.sealWord = r.sealWord) :
    q.sealValid = r.sealValid := by
  unfold Retention.sealValid
  simp only [hs, Retention.sealCrc_congr hm]

/-- The seal that a step writes: the next generation, and the code over the memory as written. -/
theorem Retention.step_sealWord (r : Retention) (w : RetWrite) :
    (r.step w).sealWord =
      nextGeneration (r.sealWord / 65536) * 65536 + (r.step w).sealCrc (nextGeneration (r.sealWord / 65536)) := by
  rw [Retention.sealCrc_congr (q := r.step w) (r := { r with mem := (r.step w).mem }) rfl]
  unfold Retention.step
  dsimp only

theorem Retention.step_generation (r : Retention) (w : RetWrite) :
    (r.step w).sealWord / 65536 = nextGeneration (r.sealWord / 65536) := by
  have h : (r.step w).sealCrc (nextGeneration (r.sealWord / 65536)) < 65536 := crc16_lt _
  rw [Retention.step_sealWord]
  omega

/-- A step leaves a valid seal (R71, R72). -/
theorem Retention.step_sealValid (r : Retention) (w : RetWrite) : (r.step w).sealValid = true := by
  have hc : (r.step w).sealWord % 65536 = (r.step w).sealCrc (nextGeneration (r.sealWord / 65536)) := by
    have h : (r.step w).sealCrc (nextGeneration (r.sealWord / 65536)) < 65536 := crc16_lt _
    rw [Retention.step_sealWord]
    omega
  simp [Retention.sealValid, r.step_generation w, hc, nextGeneration_ne_zero]

/-! ### The registers an alarm leaves alone -/

theorem rd_congr {s t : State} (h : t.regs = s.regs) (r : Reg) (i : Nat) : t.rd r i = s.rd r i := by
  unfold State.rd; rw [h]

theorem get_congr {s t : State} {f : Fld} {i : Nat} (h : t.rd f.r i = s.rd f.r i) : t.get f i = s.get f i := by
  unfold State.get; rw [h]

theorem alarm_regs (s : State) (code : Nat) (data : Word) :
    (s.alarm code data).regs = ((s.put F.ALARM_STATUS_NEXT_SEQ 0 (s.get F.ALARM_STATUS_NEXT_SEQ + 1)).inc
      ⟨.ALARM_SUMMARY, 16 * (code % 4), 16⟩ (code / 4)).regs := by
  unfold State.alarm
  dsimp only
  split
  · exact placeRequest_regs _ _
  · rfl

/-- An alarm writes ALARM_STATUS and its count in ALARM_SUMMARY, no other register. -/
theorem alarm_regsBut (s : State) (code : Nat) (data : Word) :
    RegsBut [(.ALARM_STATUS, 0), (.ALARM_SUMMARY, code / 4)] s (s.alarm code data) := fun q j h =>
  (rd_congr (alarm_regs s code data) q j).trans
    (((RegsBut.refl _ s).put F.ALARM_STATUS_NEXT_SEQ _ (by simp)).inc ⟨.ALARM_SUMMARY, 16 * (code % 4), 16⟩ (by simp) q j h)

/-- A register beside ALARM_STATUS and ALARM_SUMMARY, after an alarm. -/
theorem rd_alarm (s : State) {code : Nat} (data : Word) {r : Reg} {i : Nat} (hc : code < 256) (hi : i < 2 ^ 20)
    (h1 : r ≠ .ALARM_STATUS) (h2 : r ≠ .ALARM_SUMMARY) : (s.alarm code data).rd r i = s.rd r i := by
  refine alarm_regsBut s code data r i ?_
  simp only [List.forall_mem_cons, List.not_mem_nil, false_implies, implies_true, and_true]
  exact ⟨fun e => h1 (regKey_inj hi (by decide) e).1, fun e => h2 (regKey_inj hi (by omega) e).1⟩

/-- A field of a register beside ALARM_STATUS and ALARM_SUMMARY, after an alarm. -/
theorem get_alarm (s : State) {code : Nat} (data : Word) {f : Fld} {i : Nat} (hc : code < 256) (hi : i < 2 ^ 20)
    (h1 : f.r ≠ .ALARM_STATUS) (h2 : f.r ≠ .ALARM_SUMMARY) : (s.alarm code data).get f i = s.get f i :=
  get_congr (rd_alarm s data hc hi h1 h2)

/-! ### The commands of the island -/

/-- The backup counter on VBAT (R74). -/
theorem exec_backupCounterStep_onVbat {s : State} (hv : s.power.vddAon = false) (hm : s.ctl.mode = .keep) :
    exec .backupCounterStep s = .next { s with ret := { s.ret with
      acc := if 32768 ≤ s.ret.acc + 16960 then s.ret.acc + 16960 - 32768 else s.ret.acc + 16960
      backup := s.ret.backup + if 32768 ≤ s.ret.acc + 16960 then 31 else 30 } } := by
  change execBackupCounterStep s = _
  unfold execBackupCounterStep
  rw [if_pos (by simp [hv, hm])]
  dsimp only
  split <;> rfl

/-- A software write inside the software's half of the memory is queued (R79). -/
theorem exec_retentionSoftwareWrite_inside {off : Nat} {bytes : List Byte} (s : State)
    (h : 0x800 ≤ off ∧ off + bytes.length ≤ 0x1000 ∧ bytes ≠ []) :
    exec (.retentionSoftwareWrite off bytes) s = .next (s.retain [(off, bytes)]) := by
  change execRetentionSoftwareWrite off bytes s = _
  unfold execRetentionSoftwareWrite
  rw [if_pos h]

theorem exec_retentionSequencerStep_cons {s : State} {w : RetWrite} {ws : List RetWrite} (h : s.ret.queue = w :: ws) :
    exec .retentionSequencerStep s = .next { s with ret := { s.ret.step w with queue := ws } } := by
  change execRetentionSequencerStep s = _
  simp only [execRetentionSequencerStep, h]

/-- The seal's one sample finds it valid: the count restarts from the backup counter (R75, R76). -/
theorem exec_sealSample_valid {s : State} (hv : s.power.vddAon = true) (hs : s.power.sampled = false) (hr : s.ret.sealValid = true) :
    exec .sealSample s = .next (State.put { s with
      power := { s.power with sampled := true }, ret := { s.ret with valid := true }
      tb := { s.tb with count := s.ret.backup * 4000, unsync := false } } F.DEV_STATUS_RETENTION_VALID 0 1) := by
  change execSealSample s = _
  unfold execSealSample
  rw [if_neg (by simp [hv, hs])]
  dsimp only
  rw [if_pos hr]

/-- The memory zeroed, with a valid seal on it, and the sample's result recorded (R76). -/
def Retention.zeroed (r : Retention) : Retention := { ({ r with mem := [], queue := [] } : Retention).step ⟨[]⟩ with valid := false }

theorem Retention.zeroed_sealValid (r : Retention) : r.zeroed.sealValid = true := by
  rw [← Retention.step_sealValid { r with mem := [], queue := [] } ⟨[]⟩]
  exact Retention.sealValid_congr rfl rfl

/-- The seal's one sample finds it invalid (R76). -/
theorem exec_sealSample_invalid {s : State} (hv : s.power.vddAon = true) (hs : s.power.sampled = false)
    (hr : s.ret.sealValid = false) :
    exec .sealSample s = .next ((State.put { s with
      power := { s.power with sampled := true }, ret := s.ret.zeroed
      tb := { s.tb with count := 0, unsync := true } } F.DEV_STATUS_RETENTION_VALID 0 0).alarm 0x03 0) := by
  change execSealSample s = _
  unfold execSealSample
  rw [if_neg (by simp [hv, hs])]
  dsimp only
  rw [if_neg (by simp [hr])]
  rfl

theorem exec_vbatLow_of_low {s : State} {mv : Nat} (hv : s.power.vddAon = true) (hm : mv < 2000) :
    exec (.vbatLow mv) s = .next (s.setVbat mv).vbatLow := by
  change execVbatLow mv s = _
  unfold execVbatLow
  rw [if_pos ⟨hv, hm⟩]

theorem exec_vbatRecover_of_high {s : State} {mv : Nat} (hv : s.power.vddAon = true) (hm : 2000 ≤ mv) :
    exec (.vbatRecover mv) s = .next ((s.setVbat mv).put F.DEV_STATUS_VBAT_LOW 0 0) := by
  change execVbatRecover mv s = _
  unfold execVbatRecover
  rw [if_pos ⟨hv, hm⟩]

/-! ### The low cell (R70) -/

/-- As VBAT_LOW rises its bit is set and its alarm raised; in a fundamental reset it may also assert WAKE_N (R677). -/
theorem vbatLow_of_clear {s : State} (h : s.isOn F.DEV_STATUS_VBAT_LOW = false) :
    ∃ wake, s.vbatLow =
      let a := (s.put F.DEV_STATUS_VBAT_LOW 0 1).alarm 0x04 (field 0 16 s.power.vbatMv)
      { a with ret := { a.ret with wakeN := wake } } := by
  unfold State.vbatLow
  rw [if_neg (by simp [h])]
  dsimp only
  split
  · exact ⟨true, rfl⟩
  · exact ⟨_, rfl⟩

theorem vbatLow_of_set {s : State} (h : s.isOn F.DEV_STATUS_VBAT_LOW = true) : s.vbatLow = s := if_pos h

/-- Settles O3 (R70 to R79, Table 12.2), one command at a time; that the alarm is raised as VBAT_LOW rises is log 27. -/
theorem retentionIslandKeepsTimeAndSeal : Obligations.RetentionIslandKeepsTimeAndSeal := by
  refine ⟨fun s hv hm => ?_, fun off bytes s ho hl hb => ?_, fun s w ws hq => ?_, fun s hv hs hr => ?_, fun s hv hs hr => ?_,
    fun mv s hv hm => ?_, fun mv s hv hm => ?_⟩
  · refine ⟨_, exec_backupCounterStep_onVbat hv hm, rfl, ?_, ?_, rfl, rfl⟩ <;> dsimp only
  · exact ⟨_, exec_retentionSoftwareWrite_inside s ⟨ho, hl, hb⟩, rfl, rfl⟩
  · refine ⟨_, exec_retentionSequencerStep_cons hq, ?_⟩
    refine ⟨rfl, rfl, ?_, ?_, rfl⟩
    · exact s.ret.step_generation w
    · rw [← s.ret.step_sealValid w]
      exact Retention.sealValid_congr rfl rfl
  · refine ⟨_, exec_sealSample_valid hv hs hr, rfl, rfl, get_put_same _ _ _ _ (by decide), rfl, rfl, rfl, ?_⟩
    exact (put_onlyRegs _ F.DEV_STATUS_RETENTION_VALID 0 1).2
  · refine ⟨_, exec_sealSample_invalid hv hs hr, ?_, ?_, ?_, ?_, ?_, ?_, _, alarm_raised _ _ _, rfl⟩
    · simp
    · simp
    · rw [get_alarm _ _ (by decide) (by decide) (by decide) (by decide), get_put_same _ _ _ _ (by decide)]
      rfl
    · simp
    · simp [Retention.zeroed, Retention.step]
    · rw [alarm_ret]
      exact s.ret.zeroed_sealValid
  · refine ⟨_, exec_vbatLow_of_low hv hm, ?_⟩
    by_cases hb : s.get F.DEV_STATUS_VBAT_LOW = 1
    · rw [if_pos hb, vbatLow_of_set (s := s.setVbat mv) (decide_eq_true hb)]
      exact ⟨hb, rfl, rfl, rfl⟩
    · obtain ⟨wake, hw⟩ := vbatLow_of_clear (s := s.setVbat mv) (decide_eq_false hb)
      rw [if_neg hb, hw]
      refine ⟨?_, by simp [State.setVbat], by simp, _, alarm_raised _ _ _, rfl⟩
      exact (get_alarm (State.put _ _ _ _) _ (by decide) (by decide) (by decide) (by decide)).trans
        (get_put_same _ _ _ _ (by decide))
  · exact ⟨_, exec_vbatRecover_of_high hv hm, get_put_same _ _ _ _ (by decide), rfl, rfl,
      (put_onlyRegs (s.setVbat mv) F.DEV_STATUS_VBAT_LOW 0 0).2⟩

end Machine
end Sys2Proof

/-! SUPPORT. The device-level resets (R80 to R83, Table 2.14): the register file after a reset, what a lost hold on a trough leaves alone,
and the statement O4. -/

namespace Sys2Proof.Machine

/-! ### Register frames -/

/-- A register that no listed key belongs to reads as before. -/
theorem RegsBut.rd_eq {l : List (Reg × Nat)} {s t : State} (h : RegsBut l s t) {r : Reg} {i : Nat} (hi : i < 2 ^ 20)
    (hl : ∀ p ∈ l, r ≠ p.1 ∧ p.2 < 2 ^ 20) : t.rd r i = s.rd r i :=
  h r i fun p hp e => (hl p hp).1 (regKey_inj hi (hl p hp).2 e).1

theorem RegsBut.mono {l m : List (Reg × Nat)} {s t : State} (h : RegsBut l s t) (hm : ∀ p ∈ l, p ∈ m) : RegsBut m s t :=
  fun q j hp => h q j fun p hl => hp p (hm p hl)

theorem RegsBut.of_regs {s t : State} (h : t.regs = s.regs) (l : List (Reg × Nat)) : RegsBut l s t :=
  fun q j _ => rd_congr h q j

/-! ### A hold on a trough is lost (R384) -/

/-- What holds of a state and is kept by every event raised holds of it after the watch slots of a trough have fired. -/
theorem watchFire_rec {P : State → Prop} {s : State} (t : Nat) (hs : P s) (hyard : ∀ a p u, P a → P (a.raiseYard p u)) :
    P (s.watchFire t) := by
  refine List.foldlRecOn (motive := P) _ _ hs fun a ha k _ => ?_
  split
  · exact hyard a _ _ ha
  · exact ha

/-- All that a threshold can do: TRG_STATUS of its trough is written, vectors are sent, and events are raised (R387, R388). -/
theorem trgThresh_rec {P : State → Prop} {s : State} (t before : Nat) (hs : P s)
    (hput : ∀ a f n, f.r = .TRG_STATUS → P a → P (a.put f t n)) (hvec : ∀ a fn v c, P a → P (a.sendVector fn v c))
    (hyard : ∀ a p u, P a → P (a.raiseYard p u)) : P (s.trgThresh t before) := by
  have hpf : ∀ a v, P a → P (a.sendPf1 v) := fun a v ha => by
    unfold State.sendPf1
    split
    · exact hvec a _ _ _ ha
    · exact ha
  unfold State.trgThresh
  extract_lets after lvl s1 s2 s3
  have h1 : P s1 := by
    unfold s1
    split
    · exact hpf s 3 hs
    · exact hs
  split
  · exact hput _ _ _ rfl h1
  · split
    · have h2 : P s2 := hput _ _ _ rfl (hput _ _ _ rfl h1)
      refine watchFire_rec t ?_ hyard
      unfold s3
      split
      · exact hvec _ _ _ _ h2
      · exact h2
    · exact h1

theorem raiseYard_regsBut (s : State) (p t : Nat) : RegsBut [(.YARD_GLOBAL, 0)] s (s.raiseYard p t) := by
  unfold State.raiseYard
  split
  · exact RegsBut.refl _ _
  · split
    · exact (RegsBut.refl _ s).inc _ (by simp)
    · exact RegsBut.of_regs rfl _

theorem trgThresh_regsBut (s : State) (t before : Nat) : RegsBut [(.YARD_GLOBAL, 0), (.TRG_STATUS, t)] s (s.trgThresh t before) := by
  refine trgThresh_rec (P := RegsBut _ s) t before (RegsBut.refl _ s) (fun a f n hf ha => ha.put f n (by simp [hf]))
    (fun a fn v c ha => ha.trans (RegsBut.of_regs (sendVector_regs ..) _)) fun a p u ha => ha.trans ?_
  exact (raiseYard_regsBut a p u).mono (by simp)

/-- The state with its registers, yard, endpoint and trough descriptors blanked: what a lost hold keeps. -/
def State.blankTroughs (s : State) : State := { s with regs := [], troughs := [], yard := Yard.zero, host := HostEp.zero }

theorem put_blankTroughs (s : State) (f : Fld) (i n : Nat) : (s.put f i n).blankTroughs = s.blankTroughs := rfl

theorem setTrg_blankTroughs (s : State) (t : Nat) (x : Trough) : (s.setTrg t x).blankTroughs = s.blankTroughs := rfl

theorem trgThresh_blankTroughs (s : State) (t before : Nat) : (s.trgThresh t before).blankTroughs = s.blankTroughs := by
  refine trgThresh_rec (P := fun a => a.blankTroughs = s.blankTroughs) t before rfl
    (fun a f n _ ha => (put_blankTroughs ..).trans ha) (fun a fn v c ha => ?_) fun a p u ha => ?_
  · unfold State.sendVector
    split <;> exact ha
  · unfold State.raiseYard
    split
    · exact ha
    · split <;> exact ha

/-- The registers of trough `t` that a lost hold may write. -/
def holdRegs (t : Nat) : List (Reg × Nat) := [(.YARD_GLOBAL, 0), (.TRG_STATUS, t), (.TRG_COUNT, t)]

theorem loseHold_regsBut (s : State) (t : Nat) : RegsBut (holdRegs t) s (s.loseHold t) := by
  unfold State.loseHold
  dsimp only
  split
  · refine RegsBut.trans ?_ ((trgThresh_regsBut _ t _).mono (by simp [holdRegs]))
    exact RegsBut.inc (RegsBut.of_regs rfl _) F.TRG_COUNT_PKT_ABORTS (by simp [holdRegs])
  · exact RegsBut.refl _ _

/-- A lost hold discards an item of its trough; nothing but the trough, registers and messages changes. -/
theorem loseHold_blankTroughs (s : State) (t : Nat) : (s.loseHold t).blankTroughs = s.blankTroughs := by
  unfold State.loseHold
  dsimp only
  split
  · refine (trgThresh_blankTroughs _ t _).trans ((put_blankTroughs ..).trans ?_)
    exact (setTrg_blankTroughs ..).trans (setTrg_blankTroughs ..)
  · rfl

/-! ### The register file after a reset -/

/-- A register that the reset keeps reads as before, any other its Reset column. -/
theorem rd_resetRegs (s : State) (k : ResetKind) (r : Reg) {i : Nat} (hi : i < 2 ^ 20) :
    (s.resetRegs k).rd r i =
      if (if k.deep then k == .perst && r == .DEV_RESET_CAUSE else keptReg r i) then s.rd r i else r.rst i := by
  have hm : regKey r i % 2 ^ 20 = i := by unfold regKey; omega
  unfold State.rd State.resetRegs
  rw [Tab.get_drop]
  simp only [regOfKey_regKey r hi, hm]
  cases (if k.deep then k == .perst && r == .DEV_RESET_CAUSE else keptReg r i) <;> rfl

/-! ### A reset of the core -/

/-- What a reset of kind `k` of Table 2.14 leaves of `s` in `t`, beside the fen and the troughs. -/
structure ResetKeeps (k : ResetKind) (s t : State) : Prop where
  regs : t.regs = (s.resetRegs k).regs
  ctl : t.ctl = ModeCtl.zero
  ret : t.ret = s.ret
  fuses : t.fuses = s.fuses
  axes : t.fld.axes = s.fld.axes
  pending : t.pending = s.pending

/-- DEV_STATUS as a reset of `t` leaves it: RETENTION_VALID and VBAT_LOW stay true to the island. -/
def State.resetStatus (t : State) : State :=
  (t.put F.DEV_STATUS_RETENTION_VALID 0 (b2n t.ret.valid)).put F.DEV_STATUS_VBAT_LOW 0 (b2n (t.power.vbatMv < 2000))

/-- A power-on or fundamental reset loses the fen and the troughs. -/
theorem coreReset_deep (s : State) {k : ResetKind} (hk : k.deep = true) :
    ∃ t, s.coreReset k = t.resetStatus ∧ ResetKeeps k s t ∧ t.fen = [] ∧ t.troughs = [] := by
  unfold State.coreReset
  dsimp only
  simp only [hk, if_true]
  exact ⟨_, rfl, ⟨rfl, rfl, rfl, rfl, rfl, rfl⟩, rfl, rfl⟩

/-- Any other reset keeps the fen, and holds on the log troughs are lost. -/
theorem coreReset_warm (s : State) {k : ResetKind} (hk : k.deep = false) :
    ∃ t, s.coreReset k = (([1, 2, 3].foldl State.loseHold t).put F.FEN_STATUS_RECORD_RESTORED 0 1).resetStatus ∧
      ResetKeeps k s t ∧ t.fen = s.fen ∧ t.fenChk = s.fenChk := by
  unfold State.coreReset
  dsimp only
  simp only [hk, Bool.false_eq_true, if_false]
  exact ⟨_, rfl, ⟨rfl, rfl, rfl, rfl, rfl, rfl⟩, rfl, rfl⟩

/-! ### The registers after a reset -/

/-- RETENTION_VALID and VBAT_LOW aside, a reset's last writes leave every register alone. -/
theorem rd_resetStatus (t : State) {r : Reg} {i : Nat} (hi : i < 2 ^ 20) (hr : r ≠ .DEV_STATUS) : t.resetStatus.rd r i = t.rd r i :=
  (rd_wr_reg _ _ hr (by decide) hi).trans (rd_wr_reg t _ hr (by decide) hi)

theorem get_resetStatus_retentionValid (t : State) : t.resetStatus.get F.DEV_STATUS_RETENTION_VALID = b2n t.ret.valid := by
  unfold State.resetStatus
  rw [get_put_beside _ F.DEV_STATUS_VBAT_LOW F.DEV_STATUS_RETENTION_VALID _ _ rfl (by decide), get_put_same _ _ _ _ (by decide)]
  cases t.ret.valid <;> rfl

theorem ResetKeeps.rd {k : ResetKind} {s t : State} (h : ResetKeeps k s t) (r : Reg) {i : Nat} (hi : i < 2 ^ 20) :
    t.rd r i = if (if k.deep then k == .perst && r == .DEV_RESET_CAUSE else keptReg r i) then s.rd r i else r.rst i :=
  (rd_congr h.regs r i).trans (rd_resetRegs s k r hi)

theorem loseHolds_blankTroughs (t : State) : ([1, 2, 3].foldl State.loseHold t).blankTroughs = t.blankTroughs := by
  simp only [List.foldl, loseHold_blankTroughs]

/-- The registers that a soft, hot or watchdog reset writes besides returning them to their Reset column. -/
def warmWrites : List (Reg × Nat) := [(.DEV_STATUS, 0), (.FEN_STATUS, 0)] ++ [1, 2, 3].flatMap holdRegs

theorem warm_regsBut (t : State) :
    RegsBut warmWrites t (([1, 2, 3].foldl State.loseHold t).put F.FEN_STATUS_RECORD_RESTORED 0 1).resetStatus := by
  have h : RegsBut warmWrites t ([1, 2, 3].foldl State.loseHold t) :=
    List.foldlRecOn (motive := RegsBut _ t) _ _ (RegsBut.refl _ t) fun a ha n hn =>
      ha.trans ((loseHold_regsBut a n).mono fun _ hp => List.mem_append_right _ (List.mem_flatMap.mpr ⟨n, hn, hp⟩))
  exact ((h.put F.FEN_STATUS_RECORD_RESTORED 1 (by decide)).put F.DEV_STATUS_RETENTION_VALID _ (by decide)).put
    F.DEV_STATUS_VBAT_LOW _ (by decide)

/-- After a soft, hot or watchdog reset a register is kept or at its Reset column. -/
theorem rd_coreReset_warm (s : State) {k : ResetKind} (hk : k.deep = false) {r : Reg} {i : Nat} (hi : i < 2 ^ 20)
    (hr : ∀ p ∈ warmWrites, r ≠ p.1 ∧ p.2 < 2 ^ 20) :
    (s.coreReset k).rd r i = if keptReg r i then s.rd r i else r.rst i := by
  obtain ⟨t, ht, h, -⟩ := coreReset_warm s hk
  rw [ht, (warm_regsBut t).rd_eq hi hr, h.rd r hi, hk]
  rfl

/-- What a soft, hot or watchdog reset keeps beside registers (R82). -/
theorem coreReset_warm_keeps (s : State) {k : ResetKind} (hk : k.deep = false) :
    (s.coreReset k).ctl = ModeCtl.zero ∧ (s.coreReset k).fen = s.fen ∧ (s.coreReset k).fenChk = s.fenChk ∧
      (s.coreReset k).ret = s.ret ∧ (s.coreReset k).fuses = s.fuses ∧ (s.coreReset k).fld.axes = s.fld.axes ∧
      (s.coreReset k).pending = s.pending := by
  obtain ⟨t, ht, h, hfen, hchk⟩ := coreReset_warm s hk
  have hb := loseHolds_blankTroughs t
  rw [ht]
  exact ⟨(congrArg State.ctl hb).trans h.ctl, (congrArg State.fen hb).trans hfen, (congrArg State.fenChk hb).trans hchk,
    (congrArg State.ret hb).trans h.ret, (congrArg State.fuses hb).trans h.fuses,
    (congrArg (fun a : State => a.fld.axes) hb).trans h.axes, (congrArg State.pending hb).trans h.pending⟩

/-- The pool record is restored (R367). -/
theorem get_coreReset_warm_recordRestored (s : State) {k : ResetKind} (hk : k.deep = false) :
    (s.coreReset k).get F.FEN_STATUS_RECORD_RESTORED = 1 := by
  obtain ⟨t, ht, -⟩ := coreReset_warm s hk
  rw [ht]
  exact (get_congr (rd_resetStatus _ (by decide) (by decide))).trans (get_put_same _ _ _ _ (by decide))

/-! ### A fundamental reset (R75, R80, R83) -/

/-- The backup counter takes the count where it was sampled, and PERST is named as the cause. -/
theorem fundamental_eq (s : State) : ∃ backup acc carrying, s.fundamental =
    (State.coreReset { s with ret := { s.ret with backup := backup, acc := acc, carrying := carrying } } .perst).put
      F.DEV_RESET_CAUSE_PERST 0 1 := by
  unfold State.fundamental
  dsimp only
  split <;> exact ⟨_, _, _, rfl⟩

/-- PERST_ASSERT and the fall of a main rail make a fundamental reset. -/
theorem exec_fundamental {c : Instr} {s : State} (hc : c = .perstAssert ∨ ∃ r : Fin 10, r.val < 8 ∧ c = .railDropReset r)
    (hv : s.power.vddAon = true) (hp : s.power.perst = false) :
    ∃ p, exec c s = .next (State.fundamental { s with power := p }) := by
  obtain rfl | ⟨r, hr, rfl⟩ := hc
  · change ∃ p, execPerstAssert s = _
    unfold execPerstAssert
    rw [if_neg (by simp [hv, hp])]
    exact ⟨_, rfl⟩
  · change ∃ p, execRailDropReset r s = _
    unfold execRailDropReset
    rw [if_neg (by simp [hv, hp, hr])]
    exact ⟨_, rfl⟩

/-! ### Soft, hot and watchdog resets (R80 to R82, R724) -/

/-- The reset of each command, with the bit of DEV_RESET_CAUSE that it sets. -/
theorem exec_warmReset {c : Instr} {b : Nat} {s : State}
    (hc : c = .softReset 0x52530001#64 ∧ b = 3 ∧ s.ctl.mode ≠ .reset ∨ c = .hotReset ∧ b = 2 ∨
      c = .yardmasterWatchdogExpiry ∧ b = 4 ∧ s.firmware = true) :
    ∃ k : ResetKind, k.deep = false ∧ exec c s = .next (s.warmReset k ⟨.DEV_RESET_CAUSE, b, 1⟩) := by
  obtain ⟨rfl, rfl, hm⟩ | ⟨rfl, rfl⟩ | ⟨rfl, rfl, hf⟩ := hc
  · refine ⟨.soft, rfl, ?_⟩
    change execSoftReset _ s = _
    unfold execSoftReset State.devResetWrite
    rw [if_neg hm]
    dsimp only
    rw [if_pos (by decide)]
  · exact ⟨.hot, rfl, rfl⟩
  · refine ⟨.watchdog, rfl, ?_⟩
    change execYardmasterWatchdogExpiry s = _
    unfold execYardmasterWatchdogExpiry
    rw [if_pos hf]

theorem warmReset_of_live {s : State} (k : ResetKind) (cause : Fld) (ho : s.ctl.mode ≠ .off) (hk : s.ctl.mode ≠ .keep)
    (hp : s.power.perst = false) : s.warmReset k cause = (s.coreReset k).put cause 0 1 := by
  unfold State.warmReset
  rw [if_neg (by simp [ho, hk, hp])]

/-! ### The end of RESET (R53, R561) -/

/-- BOOT begins; a count that the backup counter carried restarts from it. -/
theorem toBoot_of_reset {s : State} (hm : s.ctl.mode = .reset) (hp : s.power.perst = false) (hr : s.power.railsGood = true)
    (hv : s.power.vddAon = true) :
    ∃ tb ret, s.toBoot = { s with tb := tb, ret := ret, ctl := { s.ctl with mode := .boot, prev := .reset } } ∧
      if s.ret.carrying then tb.count = s.ret.backup * 4000 else tb = s.tb := by
  unfold State.toBoot
  rw [if_neg (by simp [hm, hp, hr, hv])]
  dsimp only
  split
  · exact ⟨_, _, rfl, rfl⟩
  · exact ⟨_, _, rfl, rfl⟩

theorem exec_perstRelease_live {s : State} (hv : s.power.vddAon = true) :
    exec .perstRelease s = .next (State.toBoot { s with power := { s.power with perst := false, railsGood := true } }) := by
  change execPerstRelease s = _
  unfold execPerstRelease
  rw [if_neg (by simp [hv])]

/-! ### The statement -/

/-- A fundamental reset (Table 2.14). -/
theorem exec_fundamental_effect {c : Instr} {s : State} (hc : c = .perstAssert ∨ ∃ r : Fin 10, r.val < 8 ∧ c = .railDropReset r)
    (hv : s.power.vddAon = true) (hp : s.power.perst = false) :
    ∃ t, exec c s = .next t ∧ t.ctl.mode = .reset ∧ t.ctl.trans = none ∧
      (∀ r i, i < 2 ^ 20 → r ≠ .DEV_RESET_CAUSE → r ≠ .DEV_STATUS → t.rd r i = r.rst i) ∧
      t.rd .DEV_RESET_CAUSE 0 = setBits (s.rd .DEV_RESET_CAUSE 0) 1 1 1 ∧
      t.get F.DEV_STATUS_RETENTION_VALID = b2n s.ret.valid ∧ t.fen = [] ∧ t.troughs = [] ∧
      t.ret.mem = s.ret.mem ∧ t.ret.sealWord = s.ret.sealWord ∧ t.fuses = s.fuses ∧ t.fld.axes = s.fld.axes ∧
      t.pending = s.pending := by
  obtain ⟨p, he⟩ := exec_fundamental hc hv hp
  obtain ⟨backup, acc, carrying, hf⟩ := fundamental_eq { s with power := p }
  obtain ⟨t, ht, h, hfen, htrg⟩ := coreReset_deep
    { s with power := p, ret := { s.ret with backup := backup, acc := acc, carrying := carrying } } (k := .perst) rfl
  refine ⟨_, he, ?_⟩
  rw [hf, ht]
  refine ⟨congrArg ModeCtl.mode h.ctl, congrArg ModeCtl.trans h.ctl, fun r i hi hr hd => ?_, ?_, ?_, hfen, htrg,
    (congrArg Retention.mem h.ret :), (congrArg Retention.sealWord h.ret :), h.fuses, h.axes, h.pending⟩
  · rw [State.put, rd_wr_reg _ _ hr (by decide) hi, rd_resetStatus t hi hd, h.rd r hi]
    simp [ResetKind.deep, hr]
  · rw [State.put, rd_wr_same, rd_resetStatus t (by decide) (by decide), h.rd _ (by decide)]
    rfl
  · rw [get_put_reg _ _ _ _ _ _ (by decide) (by decide) (by decide), get_resetStatus_retentionValid, h.ret]

/-- A soft, hot or watchdog reset that sets bit `b` of DEV_RESET_CAUSE (Table 2.14). -/
theorem warmReset_effect {s : State} {k : ResetKind} (hd : k.deep = false) (b : Nat) :
    let t := (s.coreReset k).put ⟨.DEV_RESET_CAUSE, b, 1⟩ 0 1
    t.ctl.mode = .reset ∧ t.ctl.trans = none ∧ t.fen = s.fen ∧ t.fenChk = s.fenChk ∧
      t.rd .DEV_RESET_CAUSE 0 = setBits (s.rd .DEV_RESET_CAUSE 0) b 1 1 ∧
      t.rd .TB_CFG = Reg.rst .TB_CFG 0 ∧ t.rd .HOST_CTRL = Reg.rst .HOST_CTRL 0 ∧
      (∀ n, n < 2 ^ 20 → t.rd .YARD_CH_CFG n = Reg.rst .YARD_CH_CFG n) ∧
      t.get F.FEN_STATUS_RECORD_RESTORED = 1 ∧ t.ret.mem = s.ret.mem ∧ t.fuses = s.fuses ∧ t.fld.axes = s.fld.axes ∧
      t.pending = s.pending := by
  obtain ⟨hctl, hfen, hchk, hret, hfuses, haxes, hpending⟩ := coreReset_warm_keeps s hd
  have hother {r : Reg} {i : Nat} (hr : r ≠ .DEV_RESET_CAUSE) (hi : i < 2 ^ 20) :
      ((s.coreReset k).put ⟨.DEV_RESET_CAUSE, b, 1⟩ 0 1).rd r i = (s.coreReset k).rd r i :=
    rd_wr_reg _ _ hr (by decide) hi
  have hrst {r : Reg} {i : Nat} (hr : r ≠ .DEV_RESET_CAUSE) (hi : i < 2 ^ 20) (hw : ∀ p ∈ warmWrites, r ≠ p.1 ∧ p.2 < 2 ^ 20)
      (hk : keptReg r i = false) : ((s.coreReset k).put ⟨.DEV_RESET_CAUSE, b, 1⟩ 0 1).rd r i = r.rst i := by
    rw [hother hr hi, rd_coreReset_warm s hd hi hw, hk, if_neg Bool.false_ne_true]
  have hcause : (s.coreReset k).rd .DEV_RESET_CAUSE 0 = s.rd .DEV_RESET_CAUSE 0 :=
    (rd_coreReset_warm s hd (by decide) (by decide)).trans (if_pos rfl)
  refine ⟨congrArg ModeCtl.mode ((put_ctl ..).trans hctl), congrArg ModeCtl.trans ((put_ctl ..).trans hctl), (put_fen ..).trans hfen,
    (put_fenChk ..).trans hchk, ?_, hrst (by decide) (by decide) (by decide) rfl,
    hrst (by decide) (by decide) (by decide) rfl, fun n hn => hrst (by decide) hn (by decide) rfl, ?_,
    congrArg Retention.mem ((put_ret ..).trans hret), (put_fuses ..).trans hfuses,
    (congrArg Field.axes (put_fld ..)).trans haxes, (put_pending ..).trans hpending⟩
  · rw [State.put, rd_wr_same, hcause]
  · exact (get_congr (hother (by decide) (by decide))).trans (get_coreReset_warm_recordRestored s hd)

/-- Settles O4 (R80 to R83, Table 2.14): a fundamental reset, the three that keep the fen, and the end of RESET. -/
theorem resetsRestoreRegistersAndKeepWhatTheyKeep : Obligations.ResetsRestoreRegistersAndKeepWhatTheyKeep := by
  refine ⟨fun c s => exec_fundamental_effect, fun c b s hc ho hk hp => ?_, fun s hv hm => ?_⟩
  · obtain ⟨k, hd, he⟩ := exec_warmReset hc
    exact ⟨_, he.trans (congrArg _ (warmReset_of_live k _ ho hk hp)), warmReset_effect hd b⟩
  · obtain ⟨tb, ret, ht, hc⟩ := toBoot_of_reset
      (s := { s with power := { s.power with perst := false, railsGood := true } }) hm rfl rfl hv
    exact ⟨_, (exec_perstRelease_live hv).trans (congrArg _ ht), rfl, rfl, rfl, hc, rfl⟩

end Sys2Proof.Machine

/-! SUPPORT. Mode requests and transitions (R46 to R52, R58): a request held, served alone, refused, and completed; the end of a
transition; and the statement O6. -/

namespace Sys2Proof.Machine

/-! ### A request is submitted (R48, R58) -/

/-- TARGET takes the four bits written. -/
theorem bits_writeFields_modeReq_target (old v : Word) :
    bits (writeFields .DEV_MODE_REQ old (v ||| 0x10) allBytes) 0 4 = bits v 0 4 := by
  apply Nat.eq_of_testBit_eq
  intro k
  rw [testBit_bits, testBit_bits]
  by_cases hk : k < 4
  · have hall : allBytes.getLsbD k = true := BitVec.getLsbD_allOnes.trans (decide_eq_true (by omega))
    have h0 : (fieldMask 0 4).getLsbD k = true := by simp [getLsbD_fieldMask]; omega
    have h4 : (fieldMask 4 1).getLsbD k = false := by simp [getLsbD_fieldMask]; omega
    have h10 : (0x10#64).getLsbD k = false := by interval_cases k <;> rfl
    simp [writeFields, writeField, Reg.fields, hall, h0, h4, h10]
  · simp [hk]

theorem placeRequest_of_new_source {s : State} {r : ModeReq} (h : ∀ q ∈ s.ctl.pend, q.src ≠ r.src) :
    s.placeRequest r = { s with ctl := { s.ctl with pend := s.ctl.pend ++ [r] } } := by
  have hany : s.ctl.pend.any (fun q => q.src == r.src && q.target == Mode.code .hold) = false := by
    simpa using fun q hq hs => absurd hs (h q hq)
  have hfilter : s.ctl.pend.filter (fun q => q.src != r.src || q.target == Mode.code .hold) = s.ctl.pend := by
    simpa using fun q hq => Or.inl (h q hq)
  unfold State.placeRequest
  simp only [hany, hfilter, Bool.false_eq_true, and_false, if_false]

/-- GO from a function with no pending request: the request joins those pending and its register shows it. -/
theorem exec_modeRequestGo_new {fn : Fin 2} (v : Word) {s : State} (h : ∀ q ∈ s.ctl.pend, q.src ≠ fnSource fn.val) :
    ∃ w, bits w 0 4 = bits v 0 4 ∧ exec (.modeRequestGo fn v) s =
      .next (((({ s with ctl := { s.ctl with pend := s.ctl.pend ++ [⟨fnSource fn.val, bits v 0 4, .request, 0⟩] } } : State).wr
        .DEV_MODE_REQ fn.val w).put F.DEV_MODE_REQ_RESULT fn.val resPending).put F.DEV_MODE_REQ_GO fn.val 1) := by
  have hw := bits_writeFields_modeReq_target (s.rd .DEV_MODE_REQ fn.val) v
  have hgo : bit ((v ||| 0x10) &&& allBytes) 4 = true := by simp [bit, allBytes]
  have hold : s.ctl.pend.find? (fun q => q.src == fnSource fn.val && q.target != 11) = none := by
    simpa [List.find?_eq_none] using fun q hq hs => absurd hs (h q hq)
  refine ⟨_, hw, ?_⟩
  change execModeRequestGo fn v s = _
  unfold execModeRequestGo State.modeReqWrite
  simp only [hgo, Bool.not_true, Bool.false_eq_true, if_false, wr_ctl, hold]
  rw [placeRequest_of_new_source h]
  simp only [State.get, rd_wr_same, hw]
  rfl

/-! ### A request completes (R48, R669) -/

theorem devIrq_regsBut (s : State) (b : Nat) : RegsBut [(.HIRQ_DEV_STATUS, 0)] s (s.devIrq b) := by
  have h := (RegsBut.refl [(Reg.HIRQ_DEV_STATUS, 0)] s).wr (r := .HIRQ_DEV_STATUS) (i := 0)
    (s.rd .HIRQ_DEV_STATUS ||| (1#64 <<< b)) (by simp)
  unfold State.devIrq
  dsimp only
  split
  · exact h.trans (RegsBut.of_regs (sendVector_regs ..) _)
  · exact h

/-- A request of PF0 with none pending behind it completes in PF0's register. -/
theorem complete_pf0 {s : State} {r : ModeReq} (result : Nat) (hp : s.ctl.pend = []) (hs : r.src = .pf0) :
    s.complete r result = ((s.put F.DEV_MODE_REQ_RESULT 0 result).put F.DEV_MODE_REQ_GO 0 0).devIrq 0 := by
  unfold State.complete
  simp [hp, hs]

/-- RESULT and GO of PF0's register, and the mode controller, as a completion leaves them. -/
theorem complete_pf0_effect {s : State} {r : ModeReq} {result : Nat} (hp : s.ctl.pend = []) (hs : r.src = .pf0)
    (hr : result < 16) : (s.complete r result).ctl = s.ctl ∧
      (s.complete r result).get F.DEV_MODE_REQ_RESULT 0 = result ∧ (s.complete r result).get F.DEV_MODE_REQ_GO 0 = 0 := by
  have hd (t : State) : (t.devIrq 0).rd .DEV_MODE_REQ 0 = t.rd .DEV_MODE_REQ 0 :=
    (devIrq_regsBut t 0).rd_eq (by decide) (by decide)
  rw [complete_pf0 result hp hs]
  refine ⟨by simp, (get_congr (hd _)).trans ?_, (get_congr (hd _)).trans (get_put_same _ _ _ _ (by decide))⟩
  rw [get_put_beside _ F.DEV_MODE_REQ_GO F.DEV_MODE_REQ_RESULT _ _ rfl (by decide), get_put_same _ _ _ _ (by decide)]
  exact Nat.mod_eq_of_lt hr

/-! ### A single pending request is served (R49) -/

/-- The state with no request pending. -/
def State.noPend (s : State) : State := { s with ctl := { s.ctl with pend := [] } }

theorem serve_single_starts {s : State} {r : ModeReq} {target : Mode} (hp : s.ctl.pend = [r]) (hj : s.noPend.judge r = 0)
    (ht : Mode.ofCode r.target = some target) : s.serve 1 = s.noPend.startTransition r target [] := by
  unfold State.noPend at *
  unfold State.serve
  simp only [hp, firstReq, List.erase_cons_head, hj, ht]

theorem serve_single_refused {s : State} {r : ModeReq} {result : Nat} (hp : s.ctl.pend = [r]) (hj : s.noPend.judge r = result)
    (hr : result ≠ 0) : s.serve 1 = s.noPend.complete r result := by
  obtain ⟨n, rfl⟩ := Nat.exists_eq_succ_of_ne_zero hr
  unfold State.noPend at *
  unfold State.serve
  simp only [hp, firstReq, List.erase_cons_head, hj, State.serve]

/-- Where no transition is in progress, requests are served and none is left for HOLD to abandon. -/
theorem exec_modeRequestEval_single {s : State} {r : ModeReq} (hm : s.ctl.mode.serves = true) (ht : s.ctl.trans = none)
    (hp : s.ctl.pend = [r]) : exec .modeRequestEval s = .next (s.serve 1).holdNow := by
  change execModeRequestEval s = _
  unfold execModeRequestEval State.modeEval
  simp [hm, ht, hp]

theorem holdNow_of_no_transition {s : State} (h : s.ctl.trans = none) : s.holdNow = s := by
  unfold State.holdNow
  rw [h]

/-- A transition to another mode than HOLD goes on where no request for HOLD came with it. -/
theorem holdNow_of_no_hold {s : State} {t : Transition} (h : s.ctl.trans = some t) (ht : t.target ≠ .hold)
    (hs : t.served = []) (hp : s.ctl.pend = []) : s.holdNow = s := by
  unfold State.holdNow
  simp [h, ht, hs, hp, firstReq]

/-- In ARMED PF0 may ask for STREAM, and the row is open (Tables 2.3 and 2.4). -/
theorem judge_armed_stream {s : State} (hm : s.ctl.mode = .armed) : s.judge ⟨.pf0, 7, .request, 0⟩ = 0 := by
  simp [State.judge, State.mayAsk, State.rowOpen, Mode.ofCode, hm]

/-- PF0 may not ask for SHADOW (Table 2.3). -/
theorem judge_pf0_shadow (s : State) : s.judge ⟨.pf0, 10, .request, 0⟩ = resDenied := by
  simp [State.judge, State.mayAsk]

/-- Table 2.4 has no row from ARMED to QUIET. -/
theorem judge_armed_quiet {s : State} (hm : s.ctl.mode = .armed) : s.judge ⟨.pf0, 4, .request, 0⟩ = resIllegal := by
  simp [State.judge, State.mayAsk, State.rowOpen, Mode.ofCode, hm]

/-- The move from ARMED to STREAM begins with nothing but its own record. -/
theorem startMove_armed_stream {s : State} (r : ModeReq) (h : s.ctl.mode = .armed) : s.startMove r .stream = s := by
  unfold State.startMove
  rw [h]

/-! ### A transition ends (R52) -/

/-- The registers that the end of a move from ARMED to STREAM writes before its request completes. -/
def endWrites : List (Reg × Nat) := [(.FEN_STATUS, 0), (.TB_CTRL, 0), (.TB_STATUS, 0)]

/-- A SET that waited is refused in STREAM (R558): nothing of the mode controller changes. -/
theorem tbMode_ctl (s : State) : s.tbMode.ctl = s.ctl := by
  unfold State.tbMode
  split <;> rfl

theorem tbMode_regsBut (s : State) : RegsBut [(.TB_CTRL, 0), (.TB_STATUS, 0)] s s.tbMode := by
  unfold State.tbMode
  split
  · exact ((RegsBut.of_regs rfl _).put F.TB_CTRL_SET 0 (by simp)).put F.TB_STATUS_SET_REFUSED 1 (by simp)
  · exact RegsBut.refl _ _

/-- A member whose pairing is off asks for nothing. -/
theorem askShadow_of_unpaired {s : State} (why : ReqReason) (h : s.isOn F.PAIR_CFG_ENABLE = false) : s.askShadow why = s := by
  unfold State.askShadow
  simp [h]

/-- The fen's bits as a move that leaves it awake ends. -/
theorem fenAwake_of_not_quiet {s : State} (h : s.ctl.mode ≠ .quiet) (on : Bool) :
    s.fenAwake on = (s.put F.FEN_STATUS_READY 0 (b2n on)).put F.FEN_STATUS_SELF_REFRESH 0 (b2n (!on)) := by
  unfold State.fenAwake
  simp [h]

/-- The state as a move from ARMED to STREAM takes its new mode (R52). -/
def State.inStream (s : State) : State :=
  { s.fenAwake true with ctl := { (s.fenAwake true).ctl with mode := .stream, prev := .armed, trans := none } }

/-- The move from ARMED to STREAM ends: the new mode stands and its request completes DONE. -/
theorem endTransition_armed_stream {s : State} {r : ModeReq} (hm : s.ctl.mode = .armed) (hp : s.ctl.pend = [])
    (hpair : s.isOn F.PAIR_CFG_ENABLE = false) :
    ∃ a : State, s.endTransition ⟨.stream, some r, []⟩ = a.complete r resDone ∧ a.ctl = ⟨.stream, .armed, none, []⟩ := by
  have hfen := fenAwake_of_not_quiet (s := s) (by rw [hm]; decide) true
  have hctl : s.inStream.tbMode.ctl = ⟨.stream, .armed, none, []⟩ := by
    rw [tbMode_ctl]
    simp [State.inStream, hfen, hp]
  have hpair4 : s.inStream.tbMode.isOn F.PAIR_CFG_ENABLE = false := by
    have h : RegsBut endWrites s s.inStream.tbMode := by
      refine RegsBut.trans ?_ ((tbMode_regsBut s.inStream).mono (by simp [endWrites]))
      refine RegsBut.trans ?_ (RegsBut.of_regs (s := s.fenAwake true) rfl _)
      rw [hfen]
      exact ((RegsBut.refl _ s).put _ _ (by simp [endWrites])).put _ _ (by simp [endWrites])
    rw [← hpair]
    unfold State.isOn
    rw [get_congr (h.rd_eq (by decide) (by decide))]
  refine ⟨s.inStream.tbMode, ?_, hctl⟩
  have hend : s.inStream.endMove .armed (some r) = s.inStream.tbMode := by
    unfold State.endMove
    simp only [hctl]
    exact askShadow_of_unpaired _ hpair4
  unfold State.endTransition
  simp only [hm]
  exact congrArg (State.complete · r resDone) hend

/-- Settles O6 (R46 to R52, R58, Tables 2.3 and 2.4). -/
theorem modeRequestsAreServedAndEnd : Obligations.ModeRequestsAreServedAndEnd := by
  refine ⟨fun fn v s h => ?_, fun s hm ht hp => ?_, fun target result s hc hm ht hp => ?_, fun s hm ht hp hpair => ?_⟩
  · obtain ⟨w, hw, he⟩ := exec_modeRequestGo_new v h
    refine ⟨_, he, get_put_same _ _ _ _ (by decide), ?_, ?_, rfl, rfl, rfl, ?_⟩
    · rw [get_put_beside _ F.DEV_MODE_REQ_GO F.DEV_MODE_REQ_RESULT _ _ rfl (by decide), get_put_same _ _ _ _ (by decide)]
      rfl
    · rw [get_put_beside _ F.DEV_MODE_REQ_GO F.DEV_MODE_REQ_TARGET _ _ rfl (by decide),
        get_put_beside _ F.DEV_MODE_REQ_RESULT F.DEV_MODE_REQ_TARGET _ _ rfl (by decide), State.get, rd_wr_same, ← hw]
    · refine RegsBut.put (RegsBut.put (RegsBut.wr ?_ w (by simp)) _ _ (by simp)) _ _ (by simp)
      exact RegsBut.of_regs rfl _
  · have hserve := (serve_single_starts hp (judge_armed_stream (s := s.noPend) hm) rfl).trans
      (startMove_armed_stream _ hm)
    refine ⟨_, exec_modeRequestEval_single (by rw [hm]; rfl) ht hp, ?_⟩
    rw [hserve, holdNow_of_no_hold rfl (by decide) rfl rfl]
    exact ⟨hm, rfl, rfl, rfl⟩
  · have hj : s.noPend.judge ⟨.pf0, target, .request, 0⟩ = result := by
      obtain ⟨rfl, rfl⟩ | ⟨rfl, rfl⟩ := hc
      · exact judge_pf0_shadow _
      · exact judge_armed_quiet hm
    have hr : result ≠ 0 ∧ result < 16 := by omega
    obtain ⟨hctl, hres, hgo⟩ := complete_pf0_effect (s := s.noPend) (r := ⟨.pf0, target, .request, 0⟩) rfl rfl hr.2
    rw [exec_modeRequestEval_single (by rw [hm]; rfl) ht hp, serve_single_refused hp hj hr.1,
      holdNow_of_no_transition ((congrArg ModeCtl.trans hctl).trans ht)]
    exact ⟨_, rfl, (congrArg ModeCtl.mode hctl).trans hm, (congrArg ModeCtl.trans hctl).trans ht, congrArg ModeCtl.pend hctl,
      hres, hgo⟩
  · obtain ⟨a, he, ha⟩ := endTransition_armed_stream (r := ⟨.pf0, 7, .request, 0⟩) hm hp hpair
    obtain ⟨hctl, hres, hgo⟩ := complete_pf0_effect (s := a) (r := ⟨.pf0, 7, .request, 0⟩) (result := resDone)
      (by rw [ha]) rfl (by decide)
    have hexec : exec .modeTransitionEnd s = .next (a.complete ⟨.pf0, 7, .request, 0⟩ resDone) := by
      change execModeTransitionEnd s = _
      unfold execModeTransitionEnd
      simp [ht, hm, he]
    rw [ha] at hctl
    exact ⟨_, hexec, congrArg ModeCtl.mode hctl, congrArg ModeCtl.prev hctl, congrArg ModeCtl.trans hctl, hres, hgo⟩

end Sys2Proof.Machine

/-! SUPPORT. What frames, results and link changes leave alone: the mode and its transition, the supplies, the retention island, the
fuses, the boot images, the time base, and the device's own registers (DEV_*, BOOT_*, RET_SEAL). One lemma for each operation. -/

namespace Sys2Proof

/-- A register of the device's own table: DEV_*, BOOT_* and RET_SEAL come first in the order of registers. -/
def Reg.ofDevice (r : Reg) : Bool := decide (r.ctorIdx < 10)

namespace Machine

/-- The part of the state that the data path never changes. -/
structure Ground where
  pending : List Instr
  mode : Mode
  prev : Mode
  trans : Option Transition
  power : Power
  ret : Retention
  fuses : Fuses
  boot : Boot
  tb : TimeBase
  deviceReg : Word → Nat → Word

/-- The ground of a state; its device registers are given by key, for any Reset column. -/
def State.ground (s : State) : Ground :=
  ⟨s.pending, s.ctl.mode, s.ctl.prev, s.ctl.trans, s.power, s.ret, s.fuses, s.boot, s.tb,
    fun d k => if k < 10 * 2 ^ 20 then Tab.get d s.regs k else d⟩

theorem regKey_lt_of_ofDevice {r : Reg} {i : Nat} (hr : r.ofDevice = true) (hi : i < 2 ^ 20) : regKey r i < 10 * 2 ^ 20 := by
  have h : r.ctorIdx < 10 := of_decide_eq_true hr
  unfold regKey
  omega

/-- States with the same ground read the same in every device register. -/
theorem rd_of_ground {s t : State} (h : t.ground = s.ground) {r : Reg} {i : Nat} (hr : r.ofDevice = true) (hi : i < 2 ^ 20) :
    t.rd r i = s.rd r i := by
  have hk := congrFun (congrFun (congrArg Ground.deviceReg h) (r.rst i)) (regKey r i)
  simp only [State.ground, if_pos (regKey_lt_of_ofDevice hr hi)] at hk
  exact hk

theorem mode_of_ground {s t : State} (h : t.ground = s.ground) : t.ctl.mode = s.ctl.mode := congrArg Ground.mode h

theorem prev_of_ground {s t : State} (h : t.ground = s.ground) : t.ctl.prev = s.ctl.prev := congrArg Ground.prev h

theorem boot_of_ground {s t : State} (h : t.ground = s.ground) : t.boot = s.boot := congrArg Ground.boot h

variable (s : State)

/-! ### Registers -/

theorem ground_wr {r : Reg} (i : Nat) (v : Word) (h : r.ofDevice = false) : (s.wr r i v).ground = s.ground := by
  have hr : 10 ≤ r.ctorIdx := by simpa [Reg.ofDevice] using h
  have hregs : (s.wr r i v).ground.deviceReg = s.ground.deviceReg := by
    funext d k
    simp only [State.ground, State.wr]
    split
    · next hk => exact Tab.get_set_other _ _ _ _ (by unfold regKey; omega)
    · rfl
  unfold State.ground at hregs ⊢
  simp only [wr_pending, wr_ctl, wr_power, wr_ret, wr_fuses, wr_boot, wr_tb] at hregs ⊢
  rw [hregs]

theorem ground_put {f : Fld} (i n : Nat) (h : f.r.ofDevice = false) : (s.put f i n).ground = s.ground := ground_wr s _ _ h

theorem ground_addSat {f : Fld} (i n : Nat) (h : f.r.ofDevice = false) : (s.addSat f i n).ground = s.ground := ground_wr s _ _ h

theorem ground_inc {f : Fld} (i : Nat) (h : f.r.ofDevice = false) : (s.inc f i).ground = s.ground := ground_wr s _ _ h

theorem ground_incWrap {f : Fld} (i : Nat) (h : f.r.ofDevice = false) : (s.incWrap f i).ground = s.ground := ground_wr s _ _ h

theorem ground_raiseYard (p t : Nat) : (s.raiseYard p t).ground = s.ground := by
  unfold State.raiseYard
  split
  · rfl
  · split
    · exact ground_inc s _ rfl
    · rfl

theorem ground_sendVector (fn v : Nat) (c : MsgClass) : (s.sendVector fn v c).ground = s.ground := by
  unfold State.sendVector
  split <;> rfl

/-! ### Messages, alarms and logs -/

theorem ground_countEvent (code : Nat) : (s.countEvent code).ground = s.ground := rfl

theorem ground_placeRequest (r : ModeReq) : (s.placeRequest r).ground = s.ground := by
  unfold State.placeRequest
  dsimp only
  split <;> rfl

theorem ground_mgmt (m : Mgmt) : ({ s with mgmt := m } : State).ground = s.ground := rfl

theorem ground_alarm (code : Nat) (data : Word) : (s.alarm code data).ground = s.ground := by
  simp (disch := decide) only [State.alarm, apply_ite State.ground, ground_placeRequest, ground_mgmt]
  exact (ite_self _).trans ((ground_inc _ _ rfl).trans (ground_put s _ _ (by decide)))

/-! ### The fen -/

theorem ground_fenStore (a : Nat) (w : Word) (poison : Bool) : (s.fenStore a w poison).ground = s.ground := rfl

theorem ground_fenUe (a : Nat) : (s.fenUe a).ground = s.ground := by
  simp (disch := decide) only [State.fenUe, ground_alarm, apply_ite State.ground, ground_put, ground_inc, ite_self]

theorem ground_engineRead (a : Nat) : (s.engineRead a).2.2.ground = s.ground := by
  unfold State.engineRead
  split
  · exact ground_inc s _ rfl
  · split
    · rfl
    · exact ground_inc s _ rfl
    · exact ground_fenUe s a

theorem ground_engineWrite (a : Nat) (w : Word) (poison : Bool) : (s.engineWrite a w poison).ground = s.ground := by
  simp (disch := decide) only [State.engineWrite, apply_ite State.ground, ground_fenStore, ground_inc, ite_self]

theorem ground_engineWriteWords (a : Nat) (ws : List Word) : (s.engineWriteWords a ws).ground = s.ground := by
  induction ws generalizing s a with
  | nil => rfl
  | cons w ws ih => exact (ih _ _).trans (ground_engineWrite s a w false)

theorem ground_fenMerge (a : Nat) (w : Word) (be : BitVec 8) (poison : Bool) : (s.fenMerge a w be poison).ground = s.ground := by
  unfold State.fenMerge
  dsimp only
  split
  · rfl
  · split
    · rfl
    · exact (ground_fenStore ..).trans (ground_inc s _ rfl)
    · exact (ground_fenStore ..).trans (ground_fenUe s a)

theorem ground_engineWriteBytes (fuel a : Nat) (bs : List Byte) : (State.engineWriteBytes fuel s a bs).ground = s.ground := by
  induction fuel generalizing s a bs with
  | zero => rfl
  | succ fuel ih =>
    cases bs with
    | nil => rfl
    | cons b bs =>
      unfold State.engineWriteBytes
      simp (disch := decide) only [ih, apply_ite State.ground, ground_fenMerge, ground_inc, ite_self]

/-! ### Troughs -/

theorem ground_setTrg (t : Nat) (x : Trough) : (s.setTrg t x).ground = s.ground := rfl

theorem ground_writeSlot (t i : Nat) (w : TWord) : (s.writeSlot t i w).ground = s.ground := by
  unfold State.writeSlot
  split
  · simp only [ground_fenStore]
  · rfl

theorem ground_putWords (t k : Nat) (ws : List TWord) : (s.putWords t k ws).ground = s.ground := by
  induction ws generalizing s k with
  | nil => rfl
  | cons w ws ih => exact (ih _ _).trans (ground_writeSlot s _ _ w)

theorem ground_trgThresh (t before : Nat) : (s.trgThresh t before).ground = s.ground :=
  trgThresh_rec (P := fun a => a.ground = s.ground) t before rfl (fun a _ _ hf ha => (ground_put a _ _ (by rw [hf]; rfl)).trans ha)
    (fun a _ _ _ ha => (ground_sendVector a ..).trans ha) fun a _ _ ha => (ground_raiseYard a ..).trans ha

theorem ground_markDrops (t n tick : Nat) : (s.markDrops t n tick).ground = s.ground := by
  simp (disch := decide) only [State.markDrops, apply_ite State.ground, ground_writeSlot, ground_incWrap, ground_setTrg, ite_self]

theorem ground_dropItem (t : Nat) : (s.dropItem t).ground = s.ground := by
  simp (disch := decide) only [State.dropItem, ground_markDrops, ground_inc]

theorem ground_dropPending (t : Nat) : (s.dropPending t).ground = s.ground := by
  simp (disch := decide) only [State.dropPending, ground_setTrg, ground_inc]

theorem ground_mirrorNote (t : Nat) (ws : List TWord) : (s.mirrorNote t ws).ground = s.ground := by
  unfold State.mirrorNote
  split <;> rfl

theorem ground_pushBurst (t : Nat) (ws : List TWord) : (s.pushBurst t ws).ground = s.ground := by
  simp only [State.pushBurst, State.commitItem, apply_ite State.ground, ground_mirrorNote, ground_setTrg, ground_putWords,
    ground_dropItem, ite_self]

theorem ground_pushItem (t : Nat) (ws : List Word) : (s.pushItem t ws).ground = s.ground := by
  simp (disch := decide) only [State.pushItem, apply_ite State.ground, ground_inc, ground_dropPending, ground_setTrg,
    ground_trgThresh, ground_pushBurst, ite_self]

theorem ground_noteHead (t : Nat) : (s.noteHead t).ground = s.ground := by
  simp (disch := decide) only [State.noteHead, State.noteTaken, State.raiseMark, apply_ite State.ground, ground_wr, ite_self]

theorem ground_dropHead (t : Nat) : (s.dropHead t).ground = s.ground := by
  simp (disch := decide) only [State.dropHead, State.dropQuiet, State.advance, ground_trgThresh, ground_addSat, ground_setTrg,
    ground_noteHead]

/-! ### Pools and blocks -/

theorem ground_outBits (t : Tab Bool) : ({ s with outBits := t } : State).ground = s.ground := rfl

theorem ground_poolWatch (p : Nat) : (s.poolWatch p).ground = s.ground := by
  simp (disch := decide) only [State.poolWatch, apply_ite State.ground, ground_alarm, ground_inc, ground_put, ite_self]

theorem ground_allocBlock (p : Nat) : (s.allocBlock p).2.ground = s.ground := by
  unfold State.allocBlock
  split
  · simp (disch := decide) only [apply_ite State.ground, ground_inc, ite_self]
  · simp (disch := decide) only [ground_poolWatch, ground_incWrap, ground_outBits, ground_dropHead]

theorem ground_releaseBlock (a : Nat) : (s.releaseBlock a).ground = s.ground := by
  unfold State.releaseBlock
  split
  · exact ground_inc s _ rfl
  · simp (disch := decide) only [apply_ite State.ground, ground_inc, ground_poolWatch, ground_pushItem, ground_outBits, ite_self]

/-- A fold whose steps each leave the ground leaves it. -/
theorem ground_foldl {β : Type} {f : State → β → State} (h : ∀ a b, (f a b).ground = a.ground) (l : List β) :
    (l.foldl f s).ground = s.ground :=
  List.foldlRecOn (motive := fun a => a.ground = s.ground) l f rfl fun a ha b _ => (h a b).trans ha

/-- The same of a fold that carries a value beside the state. -/
theorem ground_foldl_snd {α β : Type} {f : α × State → β → α × State} (h : ∀ a b, (f a b).2.ground = a.2.ground) (l : List β)
    (x : α) : (l.foldl f (x, s)).2.ground = s.ground :=
  List.foldlRecOn (motive := fun a : α × State => a.2.ground = s.ground) l f rfl fun a ha b _ => (h a b).trans ha

theorem ground_abandon (c : Nat) (p : Prod) : (s.abandon c p).2.ground = s.ground := by
  exact (ground_inc _ _ rfl).trans (ground_foldl s ground_releaseBlock _)

end Machine
end Sys2Proof

/-! SUPPORT. The ground under a frame: rows, products, stacks, herds, and a frame's close leave it. -/

namespace Sys2Proof.Machine

variable (s : State)

/-! ### Contexts, products and host writes -/

variable {s} in
theorem ground_of_allocBlock {p : Nat} {b : Option Nat} {t : State} (h : s.allocBlock p = (b, t)) : t.ground = s.ground := by
  have ha := ground_allocBlock s p
  rw [h] at ha
  exact ha

theorem ground_modCtx (c : Nat) (f : Ctx → Ctx) : (s.modCtx c f).ground = s.ground := rfl

theorem ground_queueTags (c : Nat) (l : List (Option TagDue)) : (s.queueTags c l).ground = s.ground := rfl

theorem ground_mapWords (n a : Nat) : (State.mapWords n a s).2.ground = s.ground := by
  induction n generalizing s a with
  | zero => rfl
  | succ n ih => exact (ih _ _).trans (ground_engineRead s a)

theorem ground_mapVals (a n size : Nat) : (s.mapVals a n size).2.2.ground = s.ground := by
  unfold State.mapVals
  split
  · rfl
  · exact ground_mapWords s _ _

theorem ground_read32 (a n : Nat) : (s.read32 a n).2.2.ground = s.ground := ground_mapVals s a n 4

theorem ground_write32 (a : Nat) (l : List Int) : (s.write32 a l).ground = s.ground := ground_engineWriteBytes s _ a _

theorem ground_hostPayload (a : Nat) (bs : List Byte) (relaxed : Bool) : (s.hostPayload a bs relaxed).ground = s.ground := by
  have h (fuel : Nat) : ∀ (t : State) (a : Nat) (bs : List Byte) (rel : Bool),
      (State.sendWrites fuel t a bs rel).ground = t.ground := by
    induction fuel with
    | zero => exact fun _ _ _ _ => rfl
    | succ fuel ih =>
      intro t a bs rel
      cases bs with
      | nil => rfl
      | cons b bs => exact ih _ _ _ _
  exact h _ s a bs _

theorem ground_fillBlocks (c pool fuel : Nat) (p : Prod) (q : List Byte) :
    (State.fillBlocks c pool fuel p q s).2.ground = s.ground := by
  induction fuel generalizing s p q with
  | zero => rfl
  | succ fuel ih =>
    unfold State.fillBlocks
    split
    · split
      · rfl
      · split
        · next h => exact (ground_abandon _ c p).trans (ground_of_allocBlock h)
        · next h => exact (ih _ _ _).trans (ground_of_allocBlock h)
    · next b _ =>
      extract_lets off room s1 rest p1
      have h1 : s1.ground = s.ground := ground_engineWriteBytes s _ _ _
      split
      · exact h1
      · split
        · next h => exact (ground_abandon _ c p1).trans ((ground_of_allocBlock h).trans h1)
        · next h => exact ((ih _ _ _).trans (ground_engineWrite ..)).trans ((ground_of_allocBlock h).trans h1)

theorem ground_prodAppend (c pool : Nat) (relaxed : Bool) (p : Prod) (bs : List Byte) :
    (s.prodAppend c pool relaxed p bs).2.ground = s.ground := by
  unfold State.prodAppend
  split
  · rfl
  · split
    · split
      · exact ground_hostPayload s ..
      · rfl
    · exact ground_fillBlocks s ..

theorem ground_prodEnd (p : Prod) : (s.prodEnd p).2.ground = s.ground := by
  unfold State.prodEnd
  split
  · split
    · rfl
    · exact ground_engineWriteBytes s ..
  · rfl

theorem ground_endProds (l : List Prod) : (s.endProds l).2.ground = s.ground := by
  unfold State.endProds
  refine ground_foldl_snd s (fun a p => ?_) l _
  exact ground_prodEnd a.2 p

/-! ### Event chunks and window results -/

theorem ground_endChunk (c seq : Nat) (k : Chunks) (last : Bool) : (s.endChunk c seq k last).2.ground = s.ground := by
  unfold State.endChunk
  dsimp only
  split
  · rfl
  · exact ground_engineWriteWords s ..

theorem ground_openChunk (c pool : Nat) (k : Chunks) : (s.openChunk c pool k).2.ground = s.ground := by
  unfold State.openChunk
  split
  · rfl
  · split
    · next h => exact ground_of_allocBlock h
    · next h => exact (ground_inc _ _ rfl).trans (ground_of_allocBlock h)

theorem ground_addEvent (c pool seq : Nat) (a : Chunks × State) (e : Word) : (addEvent c pool seq a e).2.ground = a.2.ground := by
  unfold addEvent
  extract_lets o s1 k
  have h1 : s1.ground = a.2.ground := by
    unfold s1
    split
    · exact (ground_engineWrite ..).trans (ground_openChunk a.2 ..)
    · exact ground_openChunk a.2 ..
  split
  · exact (ground_endChunk ..).trans h1
  · exact h1

theorem ground_formResults (f : Frame) (atClose : Bool) : (s.formResults f atClose).2.ground = s.ground := by
  unfold State.formResults
  split
  · rfl
  · refine ground_foldl_snd s (fun a k => ?_) _ f
    dsimp only
    split
    · rfl
    · exact ground_modCtx a.2 ..

/-! ### Rows -/

theorem ground_showStack (c : Nat) : (s.showStack c).ground = s.ground := by
  simp (disch := decide) only [State.showStack, ground_put]

theorem ground_sumRow (f : Frame) (r oy : Nat) (row : List Px) : (s.sumRow f r oy row).2.ground = s.ground := by
  unfold State.sumRow
  extract_lets t a u first last read rd f1 reg zero tag head p bs q
  have hrd : rd.2.2.ground = s.ground := by
    unfold rd
    split
    · rfl
    · exact ground_read32 s ..
  split
  · exact (ground_write32 ..).trans hrd
  · exact (ground_prodAppend ..).trans hrd

theorem ground_regionRow (f : Frame) (r : Nat) (reg : Region) (oy : Nat) : (s.regionRow f r reg oy).2.ground = s.ground := by
  unfold State.regionRow
  extract_lets t row all f1 relaxed p bs q k1
  have h1 : k1.2.ground = s.ground := by
    unfold k1
    split
    · rfl
    · exact ground_prodAppend s ..
  split
  · exact (ground_sumRow ..).trans h1
  · split
    · exact (ground_write32 ..).trans h1
    · exact h1
  · exact h1

theorem ground_routeRow (f : Frame) (y : Nat) : (s.routeRow f y).2.ground = s.ground := by
  unfold State.routeRow
  extract_lets t rs a b h ys evs r
  have ha : a.2.ground = s.ground := by
    refine ground_foldl_snd s (fun a r => ?_) _ f
    split
    · rfl
    · split
      · exact ground_regionRow a.2 ..
      · rfl
  have hb : b.2.ground = s.ground := (ground_formResults ..).trans ha
  split
  · exact hb
  · exact (ground_foldl_snd b.2 (fun a e => ground_addEvent _ _ _ a e) evs _).trans hb

theorem ground_passRow (f : Frame) : (s.passRow f).2.ground = s.ground := by
  unfold State.passRow
  extract_lets w y raw f1 p r need m d o row s1 f2
  split
  · exact ground_prodAppend s ..
  · have h1 : s1.ground = s.ground := by
      unfold s1
      split
      · rfl
      · exact ground_engineWriteBytes s ..
    split
    · exact (ground_routeRow ..).trans h1
    · exact h1

theorem ground_passRows (n : Nat) (f : Frame) : (State.passRows n s f).2.ground = s.ground := by
  induction n generalizing s f with
  | zero => rfl
  | succ n ih =>
    unfold State.passRows
    split
    · exact (ih _ _).trans (ground_passRow s f)
    · rfl

/-! ### Stacks and the end of a route -/

theorem ground_shortProduct (c kind : Nat) (k : Stack) (r : Nat) (reg : Region) :
    (s.shortProduct c kind k r reg).2.2.ground = s.ground := by
  unfold State.shortProduct
  extract_lets t s0 a e
  have ha : a.2.2.ground = s.ground := by
    refine List.foldlRecOn (motive := fun a : Prod × Bool × State => a.2.2.ground = s.ground) _ _ (ground_prodAppend s ..)
      fun a ha oy _ => ?_
    dsimp only
    refine (ground_prodAppend ..).trans ?_
    split
    · exact ha
    · exact (ground_read32 ..).trans ha
  exact (ground_prodEnd ..).trans ha

theorem ground_closeStack (c : Nat) : (s.closeStack c).ground = s.ground := by
  unfold State.closeStack
  split
  · rfl
  · extract_lets s1 eng kind rs a s2
    have ha : a.2.ground = s.ground := by
      refine (ground_foldl_snd s1 (fun a r => ?_) _ _).trans (ground_modCtx s ..)
      dsimp only
      split
      · rfl
      · exact ground_shortProduct a.2 ..
    have h2 : s2.ground = s.ground := by
      unfold s2
      split
      · exact ground_modCtx s ..
      · exact (ground_queueTags ..).trans ha
    exact (ground_showStack ..).trans h2

theorem ground_routeFinish (f : Frame) : (s.routeFinish f).ground = s.ground := by
  unfold State.routeFinish
  extract_lets t c flags herd tag e w pr frames chunkTag o e1 early sm q st
  have he : e.2.ground = s.ground := ground_endProds s f.prods
  have hw : w.2.ground = s.ground := ground_formResults s f true
  have hpr : pr.2.ground = s.ground := (ground_endProds w.2 w.1.prods).trans hw
  have ho : o.2.ground = s.ground := (ground_openChunk pr.2 _ _ _).trans hpr
  have he1 : e1.2.ground = s.ground := (ground_endChunk o.2 _ _ _ _).trans ho
  have hsm : sm.2.ground = s.ground := (ground_endProds pr.2 w.1.sums).trans hpr
  split
  · exact (ground_queueTags e.2 c _).trans he
  · split
    · exact (ground_queueTags _ c _).trans ((ground_put e1.2 _ _ rfl).trans he1)
    · exact (ground_queueTags pr.2 c _).trans hpr
    · split
      · refine (ground_queueTags _ c _).trans ((ground_foldl sm.2 (fun a p => ?_) sm.1).trans hsm)
        exact ground_foldl a ground_releaseBlock p.blocks
      · rw [ground_showStack, apply_ite State.ground, ground_closeStack, ite_self, ground_modCtx, ground_queueTags, hsm]
    · exact (ground_showStack _ c).trans ((ground_modCtx _ c _).trans ((ground_queueTags pr.2 c _).trans hpr))
    · exact (ground_queueTags pr.2 c _).trans hpr

/-! ### Herds -/

theorem ground_setHerd (h : Nat) (x : Herd) : (s.setHerd h x).ground = s.ground := rfl

theorem ground_modSlots (h : Nat) (f : HerdSlot → HerdSlot) : (s.modSlots h f).ground = s.ground := rfl

theorem ground_herdRelease (h : Nat) (x : HerdSlot) : (s.herdRelease h x).ground = s.ground := by
  simp (disch := decide) only [State.herdRelease, apply_ite State.ground, ground_countEvent, ground_inc, ground_put, ground_incWrap,
    ground_setHerd, ite_self]

theorem ground_herdGo (h : Nat) : (s.herdGo h).ground = s.ground := by
  have hs (n : Nat) : ∀ t : State, (t.herdSettle h n).ground = t.ground := by
    induction n with
    | zero => exact fun _ => rfl
    | succ n ih =>
      intro t
      unfold State.herdSettle
      split
      · rfl
      · split
        · rfl
        · exact (ih _).trans (ground_herdRelease t h _)
  exact hs _ s

theorem ground_herdPassAll (c : Nat) : (s.herdPassAll c).ground = s.ground := by
  refine ground_foldl s (fun a h => ?_) _
  split
  · exact (ground_herdGo ..).trans (ground_modSlots a ..)
  · rfl

theorem ground_herdFlags (c seq flags : Nat) (copy : Tab Word) : (s.herdFlags c seq flags copy).ground = s.ground := by
  unfold State.herdFlags
  split <;> rfl

/-- Two answers with the same ground, whichever a condition picks. -/
theorem ground_snd_ite {α : Type} {p : Prop} [Decidable p] {x y : α × State} {g : Ground} (hx : x.2.ground = g)
    (hy : y.2.ground = g) : (if p then x else y).2.ground = g := by
  split <;> assumption

theorem ground_herdCount (c stall start seq flags : Nat) (copy : Tab Word) :
    (s.herdCount c stall start seq flags copy).2.ground = s.ground := by
  unfold State.herdCount
  split
  · rfl
  · next h _ =>
    split
    · rfl
    · split
      · exact ground_inc s h rfl
      · extract_lets k y s1
        have h1 : s1.ground = s.ground := by
          simp only [s1, apply_ite State.ground, ground_setHerd, ite_self]
        refine ground_snd_ite (ground_inc s h rfl) ?_
        split
        · exact h1
        · refine ground_snd_ite ((ground_inc s1 h rfl).trans h1) (ground_snd_ite h1 ?_)
          extract_lets late e s2 s3 s4
          have h3 : s3.ground = s1.ground := by
            simp (disch := decide) only [s3, s2, apply_ite State.ground, ground_inc, ground_modSlots, ite_self]
          exact (ground_herdGo s4 h).trans ((ground_modSlots s3 h _).trans (h3.trans h1))

/-! ### The close of a frame -/

theorem ground_modStall (n : Nat) (f : Stall → Stall) : (s.modStall n f).ground = s.ground := rfl

theorem ground_stPut {f : Fld} (n v : Nat) (h : f.r.ofDevice = false) : (s.stPut f n v).ground = s.ground := by
  simp only [State.stPut, apply_ite State.ground, ground_put _ _ _ h, ite_self]

theorem ground_endGroup (c : Nat) : (s.endGroup c).ground = s.ground := by
  unfold State.endGroup
  split
  · rfl
  · simp (disch := decide) only [apply_ite State.ground, ground_queueTags, ground_put, ground_modCtx, ite_self]

theorem ground_finishFrame (n : Nat) (f : Frame) : (s.finishFrame n f).ground = s.ground := by
  unfold State.finishFrame
  extract_lets c t leaves s1 set s2 s3 s4 s5 s6
  have h1 : s1.ground = s.ground := by
    simp only [s1, apply_ite State.ground, ground_routeFinish, ite_self]
  have h2 : s2.ground = s1.ground := by
    simp only [s2, apply_ite State.ground, ground_modCtx, ite_self]
  have h3 : s3.ground = s2.ground := by
    simp only [s3, apply_ite State.ground, ground_herdFlags, ite_self]
  have h4 : s4.ground = s3.ground := by
    simp (disch := decide) only [s4, apply_ite State.ground, ground_modCtx, ground_put, ite_self]
  have h5 : s5.ground = s4.ground := by
    simp (disch := decide) only [s5, apply_ite State.ground, ground_put, ite_self]
  have h6 : s6.ground = s5.ground := by
    simp (disch := decide) only [s6, apply_ite State.ground, ground_wr, ground_put, ite_self]
  rw [ground_modStall, h6, h5, h4, h3, h2, h1]

theorem ground_advanceFrame (n : Nat) : (s.advanceFrame n).ground = s.ground := by
  unfold State.advanceFrame
  split
  · rfl
  · simp only [apply_ite State.ground, ground_finishFrame, ground_modStall, ground_passRows, ite_self]

theorem ground_closeFrame (n : Nat) (inc : Bool) : (s.closeFrame n inc).ground = s.ground := by
  unfold State.closeFrame
  split
  · rfl
  · split
    · rfl
    · extract_lets bad f1 c s1 s2 s3 leaves tag k s4 s5
      have h1 : s1.ground = s.ground := ground_stPut s _ _ rfl
      have h2 : s2.ground = s1.ground := by
        simp (disch := decide) only [s2, apply_ite State.ground, ground_inc, ite_self]
      have h3 : s3.ground = s2.ground := (ground_modCtx _ c _).trans (ground_raiseYard s2 _ _)
      have hk : k.2.ground = s3.ground := by
        unfold k
        split
        · exact ground_herdCount s3 ..
        · rfl
      have h5 : s5.ground = k.2.ground := (ground_advanceFrame s4 n).trans (ground_modStall k.2 n _)
      rw [apply_ite State.ground, ground_endGroup, ite_self, h5, hk, h3, h2, h1]

end Sys2Proof.Machine

/-! SUPPORT. The ground under the links: control requests, the pair, lanes and stalls leave it, and so does powering the converters
up. -/

namespace Sys2Proof.Machine

variable (s : State)

/-! ### Control requests (R173 to R179) -/

theorem ground_showIds (n : Nat) : (s.showIds n).ground = s.ground := by
  simp (disch := decide) only [State.showIds, ground_put]

theorem ground_ctlComplete (n : Nat) (head : Word) (result id : Nat) (data : List Word) :
    (s.ctlComplete n head result id data).ground = s.ground := by
  simp (disch := decide) only [State.ctlComplete, apply_ite State.ground, ground_inc, ground_pushItem, ite_self]

theorem ground_ctlAbort (n result : Nat) : (s.ctlAbort n result).ground = s.ground := by
  refine (ground_showIds _ n).trans ((ground_foldl _ (fun a r => ?_) _).trans (ground_modStall s n _))
  simp (disch := decide) only [ground_ctlComplete, apply_ite State.ground, ground_inc, ite_self]

theorem ground_quarRun (n : Nat) : (s.quarRun n).ground = s.ground := rfl

/-! ### The pair (R703, R709, R714) -/

theorem ground_pair (p : Pair) : ({ s with pair := p } : State).ground = s.ground := rfl

theorem ground_pairView : s.pairView.ground = s.ground := by
  simp (disch := decide) only [State.pairView, apply_ite State.ground, ground_alarm, ground_put, ite_self]

theorem ground_askShadow (why : ReqReason) : (s.askShadow why).ground = s.ground := by
  simp only [State.askShadow, apply_ite State.ground, ground_placeRequest, ite_self]

theorem ground_setPair (st : Nat) (why : ReqReason) : (s.setPair st why).ground = s.ground := by
  simp (disch := decide) only [State.setPair, ground_pairView, ground_askShadow, ground_put]

theorem ground_pairLines : s.pairLines.ground = s.ground := by
  simp (disch := decide) only [State.pairLines, State.takesShadow, State.standDown, apply_ite State.ground, ground_setPair, ground_pair,
    ground_inc, ground_alarm, ground_raiseYard, ite_self]

/-! ### A stall's state (R123, R162, R178) -/

theorem ground_lmResult (n : Nat) (src : LmSource) (r : Nat) : (s.lmResult n src r).ground = s.ground := by
  simp (disch := decide) only [State.lmResult, apply_ite State.ground, ground_put, ite_self]

theorem ground_linkUp (n : Nat) : (s.linkUp n).ground = s.ground := by
  simp (disch := decide) only [State.linkUp, apply_ite State.ground, ground_quarRun, ground_modStall, ground_lmResult, ground_put,
    ground_countEvent, ground_raiseYard, ite_self]

theorem ground_linkDown (n : Nat) : (s.linkDown n).ground = s.ground := by
  simp only [State.linkDown, ground_modStall, ground_ctlAbort, ground_closeFrame, ground_countEvent, ground_raiseYard]

theorem ground_setLink (n new : Nat) : (s.setLink n new).ground = s.ground := by
  unfold State.setLink
  extract_lets old live s1 s2 s3
  have h2 : s2.ground = s.ground := by
    simp (disch := decide) only [s2, s1, apply_ite State.ground, ground_linkDown, ground_ctlAbort, ground_put, ite_self]
  have h3 : s3.ground = s2.ground := by
    unfold s3
    split
    · simp only [apply_ite State.ground, ground_herdPassAll, ite_self]
    · rfl
  simp only [apply_ite State.ground, ground_linkUp, ite_self, h3, h2]

theorem ground_fwdStalls (up : Bool) : (s.fwdStalls up).ground = s.ground := by
  refine ground_foldl s (fun a n => ?_) _
  simp only [apply_ite State.ground, ground_setLink, ite_self]

theorem ground_causewayDown (loss : Bool) : (s.causewayDown loss).ground = s.ground := by
  simp (disch := decide) only [State.causewayDown, apply_ite State.ground, ground_pairLines, ground_pairView, ground_fwdStalls,
    ground_alarm, ground_inc, ground_raiseYard, ground_put, ite_self]

theorem ground_evalLink (n : Nat) : (s.evalLink n).ground = s.ground := by
  simp only [State.evalLink, apply_ite State.ground, ground_causewayDown, ground_pair, ground_setLink, ite_self]

/-! ### Lanes and converters start (R120, R122, R326) -/

theorem ground_modLane (l : Nat) (f : Lane → Lane) : (s.modLane l f).ground = s.ground := rfl

theorem ground_laneEnter (l st clear : Nat) : (s.laneEnter l st clear).ground = s.ground := by
  simp (disch := decide) only [State.laneEnter, ground_modLane, ground_put, ground_wr]

theorem ground_laneStart (l : Nat) : (s.laneStart l).ground = s.ground := by
  simp only [State.laneStart, State.toWake, State.toDeep, apply_ite State.ground, ground_modLane, ground_laneEnter, ite_self]

theorem ground_linkStart (n : Nat) : (s.linkStart n).ground = s.ground := by
  refine (ground_evalLink _ n).trans ((ground_modStall _ n _).trans (ground_foldl s (fun a l => ?_) _))
  simp only [apply_ite State.ground, ground_laneStart, ite_self]

theorem ground_lanesReady : s.lanesReady.ground = s.ground := ground_foldl s ground_linkStart _

theorem ground_adcsOn : s.adcsOn.ground = s.ground := by
  refine ground_foldl s (fun a n => ?_) _
  simp (disch := decide) only [State.adcTo, apply_ite State.ground, ground_put, ite_self]

end Sys2Proof.Machine

/-! SUPPORT. Boot (R61 to R68): the checks' results, an image's start, BOOT_NO_IMAGE, and the statement O5. -/

namespace Sys2Proof.Machine

/-! ### The checks (Table 2.10) -/

theorem checkImage_lt (s : State) (k : Nat) (readErr : Bool) : s.checkImage k readErr < 16 := by
  unfold State.checkImage
  dsimp only
  repeat' split
  all_goals decide

/-- The state with both results in BOOT_STATUS. -/
def State.bootResults (s : State) (ra rb : Nat) : State := (s.put F.BOOT_STATUS_A_RESULT 0 ra).put F.BOOT_STATUS_B_RESULT 0 rb

theorem get_bootResults_a (s : State) {ra : Nat} (rb : Nat) (h : ra < 16) : (s.bootResults ra rb).get F.BOOT_STATUS_A_RESULT = ra := by
  unfold State.bootResults
  rw [get_put_beside _ F.BOOT_STATUS_B_RESULT F.BOOT_STATUS_A_RESULT _ _ rfl (by decide), get_put_same _ _ _ _ (by decide)]
  exact Nat.mod_eq_of_lt h

theorem get_bootResults_b (s : State) (ra : Nat) {rb : Nat} (h : rb < 16) : (s.bootResults ra rb).get F.BOOT_STATUS_B_RESULT = rb := by
  unfold State.bootResults
  rw [get_put_same _ _ _ _ (by decide)]
  exact Nat.mod_eq_of_lt h

/-! ### The choice (R64, R68) -/

theorem toBoot_of_not_reset {s : State} (h : s.ctl.mode ≠ .reset) : s.toBoot = s := if_pos (.inl h)

/-- The state in which neither image is valid: NONE_VALID set and BOOT_NO_IMAGE raised. -/
def State.noImageRaised (s : State) : State :=
  (s.put F.BOOT_STATUS_NONE_VALID 0 1).alarm 0x01 (s.put F.BOOT_STATUS_NONE_VALID 0 1).bootStatus

/-- What follows the checks: an image starts, or BOOT_NO_IMAGE is raised. -/
def State.bootChoice (s : State) (ra rb : Nat) : State :=
  if ra = 0 ∧ (rb ≠ 0 ∨ s.boot.sequence 1 ≤ s.boot.sequence 0) then (s.bootResults ra rb).startImage 0 ra rb
  else if rb = 0 then (s.bootResults ra rb).startImage 1 ra rb
  else (s.bootResults ra rb).noImageRaised

theorem exec_bootImageSelect_inBoot {s : State} (ea eb : Bool) (hm : s.ctl.mode = .boot) (hr : s.boot.running = none)
    (ht : s.ctl.trans = none) (hn : s.isOn F.BOOT_STATUS_NONE_VALID = false) :
    exec (.bootImageSelect ea eb) s = .next (s.bootChoice (s.checkImage 0 ea) (s.checkImage 1 eb)) := by
  change execBootImageSelect ea eb s = _
  unfold execBootImageSelect
  dsimp only
  rw [toBoot_of_not_reset (by rw [hm]; decide), if_neg (by simp [hm, hr, ht, hn])]
  rfl

/-! ### An image starts (R65) -/

theorem ground_configureLogs (s : State) : s.configureLogs.ground = s.ground := by
  refine ground_foldl s (fun a e => ?_) _
  simp (disch := decide) only [apply_ite State.ground, ground_put, ground_wr, ite_self]

theorem alarm_mode (s : State) (code : Nat) (data : Word) : (s.alarm code data).ctl.mode = s.ctl.mode :=
  mode_of_ground (ground_alarm s code data)

/-- An image that starts runs in READY or QUIET, entered from BOOT, and BOOT_STATUS shows its slot (R65, Table 2.4). -/
theorem startImage_effect {s : State} (k ra rb : Nat) (hm : s.ctl.mode = .boot) :
    (s.startImage k ra rb).boot.running = some k ∧ (s.startImage k ra rb).ctl.prev = .boot ∧
      (s.startImage k ra rb).ctl.mode = (if s.boot.nat (slotBase k + 0x012) 2 % 2 = 1 then .ready else .quiet) ∧
      (s.startImage k ra rb).rd .BOOT_STATUS 0 = setBits (s.rd .BOOT_STATUS 0) 8 1 k := by
  unfold State.startImage
  extract_lets b a seq last auto s1 s2 s3 s4 s5 ctl s6
  have hlogs : s2.configureLogs.ground = s2.ground := ground_configureLogs s2
  have h2 : s2.rd .BOOT_STATUS 0 = setBits (s.rd .BOOT_STATUS 0) 8 1 k := by
    unfold s2
    rw [State.put, rd_wr_reg _ _ (by decide) (by decide) (by decide), State.put, rd_wr_same,
      rd_wr_reg s1 _ (by decide) (by decide) (by decide)]
    rfl
  have h3 : s3.rd .BOOT_STATUS 0 = s2.rd .BOOT_STATUS 0 :=
    (rd_congr (retain_regs ..) _ _).trans (rd_of_ground hlogs (by decide) (by decide))
  have h4 : s4.rd .BOOT_STATUS 0 = s3.rd .BOOT_STATUS 0 := by
    unfold s4
    split
    · exact (rd_alarm _ _ (by decide) (by decide) (by decide) (by decide)).trans
        (rd_wr_reg s3 _ (by decide) (by decide) (by decide))
    · rfl
  have hboot2 : s2.boot = s1.boot := (put_boot ..).trans ((put_boot ..).trans (wr_boot ..))
  have hctl2 : s2.ctl = s.ctl := (put_ctl ..).trans ((put_ctl ..).trans (wr_ctl ..))
  have hboot3 : s3.boot = s1.boot := (retain_boot s2.configureLogs _).trans ((boot_of_ground hlogs).trans hboot2)
  have hmode3 : s3.ctl.mode = .boot := by
    rw [show s3.ctl = s2.configureLogs.ctl from retain_ctl .., mode_of_ground hlogs, hctl2, hm]
  have hboot4 : s4.boot = s3.boot := by
    unfold s4
    split
    · exact (alarm_boot ..).trans (put_boot ..)
    · rfl
  have hmode4 : s4.ctl.mode = s3.ctl.mode := by
    unfold s4
    split
    · exact (alarm_mode ..).trans (congrArg ModeCtl.mode (put_ctl ..))
    · rfl
  have h5 : s5.ground = s4.ground := by
    unfold s5
    rw [fenAwake_of_not_quiet (by rw [hmode4, hmode3]; decide)]
    simp (disch := decide) only [ground_put]
  have hend : (if auto then s6.adcsOn.lanesReady else s6).ground = s6.ground := by
    simp only [apply_ite State.ground, ground_lanesReady, ground_adcsOn, ite_self]
  have hauto : s6.ctl.mode = (if s.boot.nat (slotBase k + 0x012) 2 % 2 = 1 then .ready else .quiet) := by
    simp only [s6, auto, a, b, beq_iff_eq]
  have h6 : s6.boot.running = some k :=
    congrArg Boot.running ((boot_of_ground h5).trans (hboot4.trans hboot3))
  refine ⟨(congrArg Boot.running (boot_of_ground hend)).trans h6, prev_of_ground hend, (mode_of_ground hend).trans hauto,
    (rd_of_ground hend (by decide) (by decide)).trans ?_⟩
  exact (rd_of_ground h5 (by decide) (by decide)).trans (h4.trans (h3.trans h2))

/-! ### No valid image (R66, R68) -/

/-- A request for HOLD is among those pending once it is placed: it joins an earlier one of its source, or is added (R51). -/
theorem placeRequest_hold {s : State} {r : ModeReq} (h : r.target = Mode.code .hold) :
    ∃ q ∈ (s.placeRequest r).ctl.pend, q.src = r.src ∧ q.target = Mode.code .hold := by
  unfold State.placeRequest
  dsimp only
  split
  · next hj =>
    obtain ⟨q, hq, he⟩ := List.any_eq_true.mp hj.2
    exact ⟨q, hq, by simpa using he⟩
  · exact ⟨r, by simp, rfl, h⟩

/-- A hold-causing alarm asks for HOLD in the yardmaster's name (R728). -/
theorem alarm_asks_hold {s : State} {code : Nat} (data : Word) (h : bit (s.rd .ALARM_CFG code) 0 = true) :
    ∃ q ∈ (s.alarm code data).ctl.pend, q.src = .yardmaster ∧ q.target = Mode.code .hold := by
  unfold State.alarm
  dsimp only
  rw [if_pos h]
  exact placeRequest_hold rfl

theorem noImageRaised_effect {s : State} (h : bit (s.rd .ALARM_CFG 1) 0 = true) :
    s.noImageRaised.get F.BOOT_STATUS_A_RESULT = s.get F.BOOT_STATUS_A_RESULT ∧
      s.noImageRaised.get F.BOOT_STATUS_B_RESULT = s.get F.BOOT_STATUS_B_RESULT ∧
      s.noImageRaised.isOn F.BOOT_STATUS_NONE_VALID = true ∧ s.noImageRaised.boot = s.boot ∧
      s.noImageRaised.ctl.mode = s.ctl.mode ∧
      (∃ a, s.noImageRaised.mgmt.raised = s.mgmt.raised ++ [a] ∧ a.code = 0x01) ∧
      ∃ q ∈ s.noImageRaised.ctl.pend, q.src = .yardmaster ∧ q.target = Mode.code .hold := by
  have hget (f : Fld) (hf : f.r = .BOOT_STATUS) :
      s.noImageRaised.get f = (s.put F.BOOT_STATUS_NONE_VALID 0 1).get f :=
    get_alarm _ _ (by decide) (by decide) (by rw [hf]; decide) (by rw [hf]; decide)
  refine ⟨(hget _ rfl).trans ?_, (hget _ rfl).trans ?_, decide_eq_true ((hget _ rfl).trans ?_), (alarm_boot ..).trans (put_boot ..),
    (alarm_mode ..).trans (congrArg ModeCtl.mode (put_ctl ..)), ⟨_, alarm_raised _ _ _, rfl⟩, alarm_asks_hold _ ?_⟩
  · exact get_put_beside s F.BOOT_STATUS_NONE_VALID F.BOOT_STATUS_A_RESULT _ _ rfl (by decide)
  · exact get_put_beside s F.BOOT_STATUS_NONE_VALID F.BOOT_STATUS_B_RESULT _ _ rfl (by decide)
  · exact get_put_same _ _ _ _ (by decide)
  · rw [State.put, rd_wr_reg s _ (by decide) (by decide) (by decide)]
    exact h

/-- Settles O5 (R64, R65, R68, Table 2.4): image A, image B, or BOOT_NO_IMAGE. -/
theorem bootStartsTheValidImageOfHigherSequence : Obligations.BootStartsTheValidImageOfHigherSequence := by
  intro ea eb s hm hr ht hn hh
  have ha := get_bootResults_a s (s.checkImage 1 eb) (checkImage_lt s 0 ea)
  have hb := get_bootResults_b s (s.checkImage 0 ea) (checkImage_lt s 1 eb)
  refine ⟨_, exec_bootImageSelect_inBoot ea eb hm hr ht hn, ?_⟩
  generalize s.checkImage 0 ea = ra at *
  generalize s.checkImage 1 eb = rb at *
  have hstart (k : Nat) : 
      ((s.bootResults ra rb).startImage k ra rb).get F.BOOT_STATUS_A_RESULT = ra ∧
        ((s.bootResults ra rb).startImage k ra rb).get F.BOOT_STATUS_B_RESULT = rb := by
    obtain ⟨-, -, -, hs⟩ := startImage_effect (s := s.bootResults ra rb) k ra rb hm
    unfold State.get
    rw [hs, bits_setBits_other _ _ _ _ _ _ (by decide), bits_setBits_other _ _ _ _ _ _ (by decide)]
    exact ⟨ha, hb⟩
  unfold State.bootChoice
  by_cases hA : ra = 0 ∧ (rb ≠ 0 ∨ s.boot.sequence 1 ≤ s.boot.sequence 0)
  · obtain ⟨hrun, hprev, hmode, -⟩ := startImage_effect (s := s.bootResults ra rb) 0 ra rb hm
    rw [if_pos hA, if_pos hA]
    exact ⟨(hstart 0).1, (hstart 0).2, hrun, hprev, hmode⟩
  · rw [if_neg hA, if_neg hA]
    by_cases hB : rb = 0
    · obtain ⟨hrun, hprev, hmode, -⟩ := startImage_effect (s := s.bootResults ra rb) 1 ra rb hm
      rw [if_pos hB, if_pos hB]
      exact ⟨(hstart 1).1, (hstart 1).2, hrun, hprev, hmode⟩
    · rw [if_neg hB, if_neg hB]
      have hcfg : bit ((s.bootResults ra rb).rd .ALARM_CFG 1) 0 = true := by
        rw [State.bootResults, State.put, rd_wr_reg _ _ (by decide) (by decide) (by decide), State.put,
          rd_wr_reg _ _ (by decide) (by decide) (by decide)]
        exact hh
      obtain ⟨hra, hrb, hnone, hboot, hmode, hraised, hpend⟩ := noImageRaised_effect hcfg
      exact ⟨hra.trans ha, hrb.trans hb, (congrArg Boot.running hboot).trans hr, hnone, hmode.trans hm, hraised, hpend⟩

end Sys2Proof.Machine

/-! SUPPORT. Reading rules of the lane layer: what a software write leaves in a field (Table 0.3), a stall's and a lane's record after
a change of it, and fields of a register around a mask. -/

namespace Sys2Proof

/-! ### A software write of a whole register (Table 0.3) -/

/-- The fields share no bit. -/
def FSpec.apart (f g : FSpec) : Bool := decide (f.lo + f.w ≤ g.lo) || decide (g.lo + g.w ≤ f.lo)

/-- What a bit of a field of type `ty` holds when `new` is written over `old`. -/
def FTy.written (ty : FTy) (old new : Bool) : Bool :=
  match ty with
  | .rw => new
  | .rw1c => old && !new
  | .rw1s => old || new
  | .ro | .wo | .rc => old

namespace Machine

theorem getLsbD_writeField (old v : Word) (f : FSpec) {k : Nat} (hk : k < 64) :
    (writeField old v allBytes f).getLsbD k =
      if f.lo ≤ k ∧ k < f.lo + f.w then f.ty.written (old.getLsbD k) (v.getLsbD k) else old.getLsbD k := by
  have hm : (fieldMask f.lo f.w &&& allBytes).getLsbD k = decide (f.lo ≤ k ∧ k < f.lo + f.w) := by
    rw [BitVec.getLsbD_and, getLsbD_fieldMask, allBytes, BitVec.getLsbD_allOnes]
    simp only [hk, decide_true, Bool.true_and, Bool.and_true, Bool.decide_and]
  unfold writeField FTy.written
  dsimp only
  generalize fieldMask f.lo f.w &&& allBytes = e at hm
  by_cases h : f.lo ≤ k ∧ k < f.lo + f.w <;> cases f.ty <;>
    simp only [h, hm, hk, BitVec.getLsbD_or, BitVec.getLsbD_and, BitVec.getLsbD_not] <;> simp

theorem getLsbD_writeFields_beside (l : List FSpec) (old v : Word) {k : Nat} (hk : k < 64)
    (h : ∀ f ∈ l, ¬ (f.lo ≤ k ∧ k < f.lo + f.w)) :
    (l.foldl (fun a f => writeField a v allBytes f) old).getLsbD k = old.getLsbD k := by
  induction l generalizing old with
  | nil => rfl
  | cons f l ih =>
    rw [List.foldl_cons, ih _ (fun g hg => h g (List.mem_cons_of_mem _ hg)), getLsbD_writeField _ _ _ hk,
      if_neg (h f List.mem_cons_self)]

/-- A bit of a field that shares no bit with the register's other fields follows its own type. -/
theorem getLsbD_writeFields {r : Reg} {f : FSpec} (hf : f ∈ r.fields) (hp : r.fields.Pairwise (FSpec.apart · · = true)) (old v : Word)
    {k : Nat} (hk : k < 64) (hlo : f.lo ≤ k) (hhi : k < f.lo + f.w) :
    (writeFields r old v allBytes).getLsbD k = f.ty.written (old.getLsbD k) (v.getLsbD k) := by
  unfold writeFields
  generalize r.fields = l at hf hp
  induction l generalizing old with
  | nil => cases hf
  | cons g l ih =>
    obtain ⟨hg, hl⟩ := List.pairwise_cons.mp hp
    rw [List.foldl_cons]
    rcases List.mem_cons.mp hf with rfl | hm
    · rw [getLsbD_writeFields_beside l _ _ hk, getLsbD_writeField _ _ _ hk, if_pos ⟨hlo, hhi⟩]
      intro q hq
      have := hg q hq
      simp only [FSpec.apart, Bool.or_eq_true, decide_eq_true_eq] at this
      omega
    · rw [ih _ hm hl, getLsbD_writeField _ _ _ hk, if_neg]
      have := hg f hm
      simp only [FSpec.apart, Bool.or_eq_true, decide_eq_true_eq] at this
      omega

/-- A RW field takes what is written. -/
theorem bits_writeFields_rw {r : Reg} {lo w : Nat} (old v : Word) (hf : ⟨lo, w, .rw⟩ ∈ r.fields)
    (hp : r.fields.Pairwise (FSpec.apart · · = true)) (h : lo + w ≤ 64) :
    bits (writeFields r old v allBytes) lo w = bits v lo w := by
  apply Nat.eq_of_testBit_eq
  intro k
  rw [testBit_bits, testBit_bits]
  by_cases hk : k < w
  · rw [getLsbD_writeFields hf hp old v (by omega) (by simp) (by simpa using hk)]
    rfl
  · simp [hk]

/-- A field that software only reads stays as it is. -/
theorem bits_writeFields_ro {r : Reg} {lo w : Nat} (old v : Word) (hf : ⟨lo, w, .ro⟩ ∈ r.fields)
    (hp : r.fields.Pairwise (FSpec.apart · · = true)) (h : lo + w ≤ 64) :
    bits (writeFields r old v allBytes) lo w = bits old lo w := by
  apply Nat.eq_of_testBit_eq
  intro k
  rw [testBit_bits, testBit_bits]
  by_cases hk : k < w
  · rw [getLsbD_writeFields hf hp old v (by omega) (by simp) (by simpa using hk)]
    rfl
  · simp [hk]

/-! ### Fields around masks and single bits -/

theorem bits_one_eq_bit (v : Word) (k : Nat) : bits v k 1 = b2n (bit v k) := by
  apply Nat.eq_of_testBit_eq
  intro i
  rw [testBit_bits]
  cases h : v.getLsbD k <;> rcases i with _ | i <;> simp [bit, b2n, h, Nat.testBit_succ]

theorem bit_eq_isOn (s : State) (r : Reg) (k i : Nat) : bit (s.rd r i) k = s.isOn ⟨r, k, 1⟩ i := by
  unfold State.isOn State.get
  rw [bits_one_eq_bit]
  cases bit (s.rd r i) k <;> rfl

theorem bit_setBits_same (v : Word) {k : Nat} (n : Nat) (hk : k < 64) : bit (setBits v k 1 n) k = n.testBit 0 := by
  unfold bit
  rw [getLsbD_setBits, if_pos (by omega), decide_eq_true hk, Nat.sub_self, Bool.true_and]

theorem bit_setBits_other (v : Word) {k j : Nat} (n : Nat) (h : j ≠ k) : bit (setBits v k 1 n) j = bit v j := by
  unfold bit
  rw [getLsbD_setBits, if_neg (by omega)]
  by_cases hj : j < 64
  · simp [hj]
  · simp [hj, BitVec.getLsbD_of_ge v j (by omega)]

/-- A field that a mask's zeros cover is not cleared by its complement. -/
theorem bits_and_not {v m : Word} {lo w : Nat} (h : bits m lo w = 0) : bits (v &&& ~~~m) lo w = bits v lo w := by
  apply Nat.eq_of_testBit_eq
  intro k
  have hk := congrArg (·.testBit k) h
  simp only [testBit_bits, Nat.zero_testBit, Bool.and_eq_false_iff] at hk
  rw [testBit_bits, testBit_bits, BitVec.getLsbD_and, BitVec.getLsbD_not]
  rcases hk with hk | hk
  · simp [hk]
  · by_cases h64 : lo + k < 64
    · simp only [hk, h64, decide_true, Bool.not_false, Bool.and_true]
    · simp [BitVec.getLsbD_of_ge v _ (Nat.le_of_not_lt h64)]

theorem bits_or_mask {v m : Word} {lo w : Nat} (h : bits m lo w = 0) : bits (v ||| m) lo w = bits v lo w := by
  apply Nat.eq_of_testBit_eq
  intro k
  have hk := congrArg (·.testBit k) h
  simp only [testBit_bits, Nat.zero_testBit, Bool.and_eq_false_iff] at hk
  rw [testBit_bits, testBit_bits, BitVec.getLsbD_or]
  rcases hk with hk | hk <;> simp [hk]

theorem getLsbD_field (lo w n k : Nat) : (field lo w n).getLsbD k =
    (decide (k < 64) && decide (lo ≤ k) && decide (k < lo + w) && n.testBit (k - lo)) := by
  unfold field
  rw [BitVec.getLsbD_shiftLeft, BitVec.getLsbD_ofNat, Nat.testBit_mod_two_pow]
  by_cases h2 : lo ≤ k
  · simp only [show (k - lo < w) = (k < lo + w) by rw [Nat.sub_lt_iff_lt_add' h2], Nat.not_lt.mpr h2, h2]
    by_cases h1 : k < 64
    · simp [h1, show k - lo < 64 by omega]
    · simp [h1]
  · simp [h2, Nat.lt_of_not_le h2]

/-- A word's own field. -/
theorem bits_field_same (lo w n : Nat) (h : lo + w ≤ 64) : bits (field lo w n) lo w = n % 2 ^ w := by
  apply Nat.eq_of_testBit_eq
  intro k
  rw [testBit_bits, getLsbD_field, Nat.testBit_mod_two_pow]
  by_cases hk : k < w
  · simp [hk, show lo + k < 64 by omega]
  · simp [hk]

theorem bits_field_apart {lo w lo' w' : Nat} (n : Nat) (h : lo' + w' ≤ lo ∨ lo + w ≤ lo') : bits (field lo w n) lo' w' = 0 := by
  apply Nat.eq_of_testBit_eq
  intro k
  rw [testBit_bits, getLsbD_field, Nat.zero_testBit]
  by_cases hk : k < w'
  · rcases h with h | h
    · simp [show ¬ lo ≤ lo' + k by omega]
    · simp [show ¬ lo' + k < lo + w by omega]
  · simp [hk]

theorem bits_or_zero {v m : Word} {lo w : Nat} (h : bits v lo w = 0) : bits (v ||| m) lo w = bits m lo w := by
  rw [BitVec.or_comm]
  exact bits_or_mask h

/-! ### The record of a stall and of a lane -/

section Records

variable (s : State)

@[simp] theorem stall_modStall_same (n : Nat) (f : Stall → Stall) : (s.modStall n f).stall n = f (s.stall n) := by
  simp [State.stall, State.modStall, State.setStall]

theorem stall_modStall_other {n m : Nat} (f : Stall → Stall) (h : m ≠ n) : (s.modStall n f).stall m = s.stall m := by
  simp [State.stall, State.modStall, State.setStall, Tab.get_set_other _ _ _ _ h]

@[simp] theorem lane_modLane_same (l : Nat) (f : Lane → Lane) : (s.modLane l f).lane l = f (s.lane l) := by
  simp [State.lane, State.modLane]

theorem lane_modLane_other {l k : Nat} (f : Lane → Lane) (h : k ≠ l) : (s.modLane l f).lane k = s.lane k := by
  simp [State.lane, State.modLane, Tab.get_set_other _ _ _ _ h]

end Records

theorem stall_congr {s t : State} (h : t.stalls = s.stalls) (n : Nat) : t.stall n = s.stall n := by
  unfold State.stall
  rw [h]

theorem lane_congr {s t : State} (h : t.lanes = s.lanes) (l : Nat) : t.lane l = s.lane l := by
  unfold State.lane
  rw [h]

/-- A field of a register that no listed key belongs to. -/
theorem RegsBut.get_eq {l : List (Reg × Nat)} {s t : State} (h : RegsBut l s t) (f : Fld) {i : Nat} (hi : i < 2 ^ 20)
    (hl : ∀ p ∈ l, f.r ≠ p.1 ∧ p.2 < 2 ^ 20) : t.get f i = s.get f i :=
  get_congr (h.rd_eq hi hl)

end Machine
end Sys2Proof

/-! SUPPORT. What frames, control requests, troughs and the pair leave of the lane layer: its registers and lanes, a stall's link
management, what a stall has shown of its camera, and whatever was sent before. One lemma for each operation. -/

namespace Sys2Proof

/-- A register of the lane layer's tables: STALL_LINK_* to LANE_PAT_ERR stand together in the order of registers. -/
def Reg.ofLanes (r : Reg) : Bool := decide (130 ≤ r.ctorIdx) && decide (r.ctorIdx < 148)

/-- A register that stands after those of the lane layer and STALL_PROTO_STATUS. -/
def Reg.pastLanes (r : Reg) : Bool := decide (149 < r.ctorIdx)

/-- A register that stands before those of the lane layer. -/
def Reg.foreLanes (r : Reg) : Bool := decide (r.ctorIdx < 130)

namespace Machine

/-- The link management of a stall's record. -/
structure LinkPart where
  lm : Option LmReq
  nextMsg : Nat
  goal : Option (Nat × LmSource)
  switch : Option (Nat × Nat × LmSource)
  retrainDue : Bool
  rxSeq : Nat
  txSeq : Nat
  wakeAt : Nat
  waited : Bool
  camRetrain : Bool
  quietPeer : Bool
  hbRx : Option Nat

def Stall.link (x : Stall) : LinkPart :=
  ⟨x.lm, x.nextMsg, x.goal, x.switch, x.retrainDue, x.rxSeq, x.txSeq, x.wakeAt, x.waited, x.camRetrain, x.quietPeer, x.hbRx⟩

/-- Register `r`, number `i`, lies outside the lane layer, wherever its number leads. -/
def OffLanes (r : Reg) (i : Nat) : Prop := r.pastLanes = true ∨ r.foreLanes = true ∧ i < 2 ^ 20

/-- `t` shows of the lane layer what `s` does, and has sent what `s` has and perhaps more. -/
structure LinkSafe (s t : State) : Prop where
  regs : ∀ r i, r.ofLanes = true → i < 2 ^ 20 → t.rd r i = s.rd r i
  camera : ∀ i lo w, i < 2 ^ 20 → lo + w ≤ 2 ∨ 3 ≤ lo →
    bits (t.rd .STALL_PROTO_STATUS i) lo w = bits (s.rd .STALL_PROTO_STATUS i) lo w
  lanes : t.lanes = s.lanes
  stalls : ∀ n, (t.stall n).link = (s.stall n).link
  sent : s.sent <+: t.sent

theorem LinkSafe.refl (s : State) : LinkSafe s s :=
  ⟨fun _ _ _ _ => rfl, fun _ _ _ _ _ => rfl, rfl, fun _ => rfl, List.prefix_rfl⟩

theorem LinkSafe.trans {s t u : State} (h : LinkSafe s t) (k : LinkSafe t u) : LinkSafe s u :=
  ⟨fun r i hr hi => (k.regs r i hr hi).trans (h.regs r i hr hi), fun i lo w hi hw => (k.camera i lo w hi hw).trans (h.camera i lo w hi hw),
    k.lanes.trans h.lanes, fun n => (k.stalls n).trans (h.stalls n), h.sent.trans k.sent⟩

/-- A state that differs in none of the registers, lanes, stalls and sendings. -/
theorem LinkSafe.of_eq {s t : State} (hr : t.regs = s.regs) (hl : t.lanes = s.lanes) (hs : t.stalls = s.stalls) (ho : t.sent = s.sent) :
    LinkSafe s t :=
  ⟨fun r i _ _ => rd_congr hr r i, fun i _ _ _ _ => by rw [rd_congr hr], hl, fun n => congrArg Stall.link (stall_congr hs n),
    ho ▸ List.prefix_rfl⟩

theorem LinkSafe.ite {s a b : State} {p : Prop} [Decidable p] (ha : LinkSafe s a) (hb : LinkSafe s b) : LinkSafe s (if p then a else b) := by
  split <;> assumption

theorem regKey_ne_of_offLanes {r q : Reg} {i j : Nat} (h : OffLanes r i) (hq : q.ofLanes = true ∨ q = .STALL_PROTO_STATUS)
    (hj : j < 2 ^ 20) : regKey q j ≠ regKey r i := by
  have hidx : 130 ≤ q.ctorIdx ∧ q.ctorIdx ≤ 149 := by
    rcases hq with hq | rfl
    · simp only [Reg.ofLanes, Bool.and_eq_true, decide_eq_true_eq] at hq
      omega
    · decide
  simp only [OffLanes, Reg.pastLanes, Reg.foreLanes, decide_eq_true_eq] at h
  unfold regKey
  omega

theorem LinkSafe.wr {s t : State} (h : LinkSafe s t) {r : Reg} {i : Nat} (v : Word) (hr : OffLanes r i) : LinkSafe s (t.wr r i v) :=
  h.trans ⟨fun _ _ hq hj => rd_wr_key _ _ _ _ _ _ (regKey_ne_of_offLanes hr (.inl hq) hj),
    fun _ _ _ hj _ => by rw [rd_wr_key _ _ _ _ _ _ (regKey_ne_of_offLanes hr (.inr rfl) hj)], rfl, fun _ => rfl, List.prefix_rfl⟩

theorem LinkSafe.put {s t : State} (h : LinkSafe s t) (f : Fld) {i : Nat} (n : Nat) (hr : OffLanes f.r i) : LinkSafe s (t.put f i n) :=
  h.wr _ hr

theorem LinkSafe.inc {s t : State} (h : LinkSafe s t) (f : Fld) {i : Nat} (hr : OffLanes f.r i) : LinkSafe s (t.inc f i) := h.wr _ hr

theorem LinkSafe.incWrap {s t : State} (h : LinkSafe s t) (f : Fld) {i : Nat} (hr : OffLanes f.r i) : LinkSafe s (t.incWrap f i) :=
  h.wr _ hr

theorem LinkSafe.addSat {s t : State} (h : LinkSafe s t) (f : Fld) {i : Nat} (n : Nat) (hr : OffLanes f.r i) : LinkSafe s (t.addSat f i n) :=
  h.wr _ hr

/-- A fold whose steps are each safe is safe. -/
theorem LinkSafe.foldl {β : Type} {f : State → β → State} {s t : State} {l : List β} (h : LinkSafe s t)
    (hf : ∀ a, ∀ b ∈ l, LinkSafe a (f a b)) : LinkSafe s (l.foldl f t) :=
  List.foldlRecOn (motive := LinkSafe s) l f h fun _ ha b hb => ha.trans (hf _ b hb)

/-- The same of a fold that carries a value beside the state. -/
theorem LinkSafe.foldl_snd {α β : Type} {f : α × State → β → α × State} {s : State} {l : List β} {x : α × State} (h : LinkSafe s x.2)
    (hf : ∀ a, ∀ b ∈ l, LinkSafe a.2 (f a b).2) : LinkSafe s (l.foldl f x).2 :=
  List.foldlRecOn (motive := fun a : α × State => LinkSafe s a.2) l f h fun _ ha b hb => ha.trans (hf _ b hb)

/-- An answer and a state, whichever a condition picks. -/
theorem LinkSafe.snd_ite {α : Type} {s : State} {p : Prop} [Decidable p] {x y : α × State} (hx : LinkSafe s x.2) (hy : LinkSafe s y.2) :
    LinkSafe s (if p then x else y).2 := by
  split <;> assumption

section Walk

variable {s t : State}

/-! ### Messages, alarms and events -/

theorem LinkSafe.emit (h : LinkSafe s t) (o : Out) : LinkSafe s (t.emit o) :=
  h.trans ⟨fun _ _ _ _ => rfl, fun _ _ _ _ _ => rfl, rfl, fun _ => rfl, List.prefix_append _ _⟩

theorem LinkSafe.sendVector (h : LinkSafe s t) (fn v : Nat) (c : MsgClass) : LinkSafe s (t.sendVector fn v c) := by
  unfold State.sendVector
  exact .ite h (h.trans (.of_eq rfl rfl rfl rfl))

theorem LinkSafe.raiseYard (h : LinkSafe s t) (p u : Nat) : LinkSafe s (t.raiseYard p u) := by
  unfold State.raiseYard
  exact .ite h (.ite (h.inc _ (.inr ⟨rfl, by decide⟩)) (h.trans (.of_eq rfl rfl rfl rfl)))

theorem LinkSafe.countEvent (h : LinkSafe s t) (code : Nat) : LinkSafe s (t.countEvent code) := h.trans (.of_eq rfl rfl rfl rfl)

theorem LinkSafe.placeRequest (h : LinkSafe s t) (r : ModeReq) : LinkSafe s (t.placeRequest r) := by
  unfold State.placeRequest
  exact .ite h (h.trans (.of_eq rfl rfl rfl rfl))

theorem LinkSafe.alarm (h : LinkSafe s t) {code : Nat} (data : Word) (hc : code < 256) : LinkSafe s (t.alarm code data) := by
  unfold State.alarm
  extract_lets hold seq s1 s2 m s3
  have h2 : LinkSafe s s2 := (h.put F.ALARM_STATUS_NEXT_SEQ _ (.inr ⟨rfl, by decide⟩)).inc ⟨.ALARM_SUMMARY, _, 16⟩ (.inr ⟨rfl, by omega⟩)
  have h3 : LinkSafe s s3 := h2.trans (.of_eq rfl rfl rfl rfl)
  exact .ite (h3.placeRequest _) h3

/-! ### The fen -/

theorem LinkSafe.fenStore (h : LinkSafe s t) (a : Nat) (w : Word) (poison : Bool) : LinkSafe s (t.fenStore a w poison) :=
  h.trans (.of_eq rfl rfl rfl rfl)

theorem LinkSafe.fenUe (h : LinkSafe s t) (a : Nat) : LinkSafe s (t.fenUe a) := by
  have h1 : LinkSafe s (t.inc F.FEN_ECC_UE) := h.inc _ (.inr ⟨rfl, by decide⟩)
  unfold State.fenUe
  exact .alarm (.ite h1 ((h1.put F.FEN_UE_ADDR_ADDR _ (.inr ⟨rfl, by decide⟩)).put F.FEN_UE_ADDR_VALID _ (.inr ⟨rfl, by decide⟩))) _
    (by decide)

theorem LinkSafe.engineRead (h : LinkSafe s t) (a : Nat) : LinkSafe s (t.engineRead a).2.2 := by
  unfold State.engineRead
  split
  · exact h.inc _ (.inr ⟨rfl, by decide⟩)
  · split
    · exact h
    · exact h.inc _ (.inr ⟨rfl, by decide⟩)
    · exact h.fenUe a

theorem LinkSafe.engineWrite (h : LinkSafe s t) (a : Nat) (w : Word) (poison : Bool) : LinkSafe s (t.engineWrite a w poison) := by
  unfold State.engineWrite
  exact .ite (h.fenStore _ _ _) (h.inc _ (.inr ⟨rfl, by decide⟩))

theorem LinkSafe.engineWriteWords (h : LinkSafe s t) (a : Nat) (ws : List Word) : LinkSafe s (t.engineWriteWords a ws) := by
  induction ws generalizing t a with
  | nil => exact h
  | cons w ws ih => exact ih (h.engineWrite a w false) _

theorem LinkSafe.fenMerge (h : LinkSafe s t) (a : Nat) (w : Word) (be : BitVec 8) (poison : Bool) : LinkSafe s (t.fenMerge a w be poison) := by
  unfold State.fenMerge
  dsimp only
  split
  · exact h.fenStore _ _ _
  · split
    · exact h.fenStore _ _ _
    · exact (h.inc F.FEN_ECC_STORED_POISON (.inr ⟨rfl, by decide⟩)).fenStore _ _ _
    · exact (h.fenUe a).fenStore _ _ _

theorem LinkSafe.engineWriteBytes (h : LinkSafe s t) (fuel a : Nat) (bs : List Byte) : LinkSafe s (State.engineWriteBytes fuel t a bs) := by
  induction fuel generalizing t a bs with
  | zero => exact h
  | succ fuel ih =>
    cases bs with
    | nil => exact h
    | cons b bs => exact ih (.ite (h.fenMerge _ _ _ _) (h.inc _ (.inr ⟨rfl, by decide⟩))) _ _

/-! ### Troughs -/

theorem LinkSafe.setTrg (h : LinkSafe s t) (k : Nat) (x : Trough) : LinkSafe s (t.setTrg k x) := h.trans (.of_eq rfl rfl rfl rfl)

theorem LinkSafe.writeSlot (h : LinkSafe s t) (k i : Nat) (w : TWord) : LinkSafe s (t.writeSlot k i w) := by
  unfold State.writeSlot
  exact .ite ((h.fenStore _ _ _).fenStore _ _ _) (h.trans (.of_eq rfl rfl rfl rfl))

theorem LinkSafe.putWords (h : LinkSafe s t) (k i : Nat) (ws : List TWord) : LinkSafe s (t.putWords k i ws) := by
  induction ws generalizing t i with
  | nil => exact h
  | cons w ws ih => exact ih (h.writeSlot k _ w) _

section Trough

variable {k : Nat} (hk : k < 2 ^ 20)
include hk

theorem LinkSafe.trgThresh (h : LinkSafe s t) (before : Nat) : LinkSafe s (t.trgThresh k before) :=
  trgThresh_rec (P := LinkSafe s) k before h (fun _ f _ hf ha => ha.put f _ (.inr ⟨by rw [hf]; rfl, hk⟩))
    (fun _ _ _ _ ha => ha.sendVector _ _ _) fun _ _ _ ha => ha.raiseYard _ _

theorem LinkSafe.markDrops (h : LinkSafe s t) (n tick : Nat) : LinkSafe s (t.markDrops k n tick) := by
  unfold State.markDrops
  exact .ite h (.ite (h.writeSlot _ _ _) (((h.writeSlot _ _ _).setTrg _ _).incWrap _ (.inr ⟨rfl, hk⟩)))

theorem LinkSafe.dropItem (h : LinkSafe s t) : LinkSafe s (t.dropItem k) :=
  (h.inc F.TRG_DROPS_DROPPED (.inr ⟨rfl, hk⟩)).markDrops hk _ _

theorem LinkSafe.dropPending (h : LinkSafe s t) : LinkSafe s (t.dropPending k) :=
  (h.inc F.TRG_DROPS_DROPPED (.inr ⟨rfl, hk⟩)).setTrg _ _

theorem LinkSafe.pushBurst (h : LinkSafe s t) (ws : List TWord) : LinkSafe s (t.pushBurst k ws) := by
  have hm (a : State) (ha : LinkSafe s a) : LinkSafe s (a.mirrorNote k ws) := by
    unfold State.mirrorNote
    exact .ite (ha.trans (.of_eq rfl rfl rfl rfl)) ha
  unfold State.pushBurst
  exact .ite (hm _ ((h.putWords _ _ _).setTrg _ _)) (h.dropItem hk)

theorem LinkSafe.pushItem (h : LinkSafe s t) (ws : List Word) : LinkSafe s (t.pushItem k ws) := by
  unfold State.pushItem
  exact .ite (h.inc _ (.inr ⟨rfl, by decide⟩)) (.ite (h.dropPending hk) (.ite (h.setTrg _ _) ((h.pushBurst hk _).trgThresh hk _)))

theorem LinkSafe.dropHead (h : LinkSafe s t) : LinkSafe s (t.dropHead k) := by
  have hn : LinkSafe s (t.noteHead k) := by
    unfold State.noteHead State.noteTaken State.raiseMark
    exact .ite (.ite (.ite (.ite (h.wr _ (.inl rfl)) h) (.ite (h.wr _ (.inl rfl)) h)) h) h
  exact (((hn.setTrg _ _).addSat F.TRG_COUNT_POISON_POPS _ (.inr ⟨rfl, hk⟩)).addSat F.TRG_ECC_POISON_POPS _
    (.inr ⟨rfl, by decide⟩)).trgThresh hk _

end Trough

/-! ### Pools and blocks -/

section Pool

variable {p : Nat} (hp : p < 256)
include hp

theorem LinkSafe.poolWatch (h : LinkSafe s t) : LinkSafe s (t.poolWatch p) := by
  have hr : OffLanes .FEN_POOL_STATUS p := .inr ⟨rfl, by omega⟩
  unfold State.poolWatch
  extract_lets free low was s1 s2
  have h1 : LinkSafe s s1 := h.put F.FEN_POOL_STATUS_LOW _ hr
  have h2 : LinkSafe s s2 := .ite ((h1.inc F.FEN_POOL_COUNT_LOW_EVENTS (.inr ⟨rfl, by omega⟩)).alarm _ (by decide)) h1
  exact .ite (h2.put F.FEN_POOL_STATUS_MIN_FREE _ hr) h2

theorem LinkSafe.allocBlock (h : LinkSafe s t) : LinkSafe s (t.allocBlock p).2 := by
  have hr : OffLanes .FEN_POOL_COUNT p := .inr ⟨rfl, by omega⟩
  unfold State.allocBlock
  split
  · exact .ite (h.inc F.FEN_POOL_COUNT_EMPTY_POPS hr) h
  · next it _ =>
    extract_lets a s1 s2
    have h1 : LinkSafe s s1 := h.dropHead (by omega)
    have h2 : LinkSafe s s2 := h1.trans (.of_eq rfl rfl rfl rfl)
    exact (h2.incWrap F.FEN_POOL_COUNT_ALLOCS hr).poolWatch hp

theorem LinkSafe.of_allocBlock {b : Option Nat} {u : State} (h : LinkSafe s t) (he : t.allocBlock p = (b, u)) : LinkSafe s u := by
  have ha := h.allocBlock hp
  rw [he] at ha
  exact ha

end Pool

theorem LinkSafe.releaseBlock (h : LinkSafe s t) (a : Nat) : LinkSafe s (t.releaseBlock a) := by
  have hr : OffLanes .FEN_RELEASE_STATUS 0 := .inr ⟨rfl, by decide⟩
  unfold State.releaseBlock
  split
  · exact h.inc _ hr
  · next p hp =>
    have hp : p < 256 := List.mem_range.mp (List.mem_of_find?_eq_some hp)
    have ho (b : Tab Bool) : LinkSafe s { t with outBits := b } := h.trans (.of_eq rfl rfl rfl rfl)
    exact .ite (h.inc _ hr) (.ite (h.inc _ hr) (((ho _).pushItem (k := 144 + p) (by omega) _).poolWatch hp))

theorem LinkSafe.abandon (h : LinkSafe s t) (c : Nat) (p : Prod) : LinkSafe s (t.abandon c p).2 :=
  (h.foldl fun a b _ => (LinkSafe.refl a).releaseBlock b).inc _ (.inl rfl)

end Walk

end Machine
end Sys2Proof

/-! SUPPORT. What a frame leaves of the lane layer: rows, products, stacks, herds, and a frame's close. -/

namespace Sys2Proof.Machine

/-- A copy names one of 256 pools. -/
theorem cPool_lt (t : Tab Word) : cPool t < 256 := bits_lt _ _ _

section Frames

variable {s t : State}

/-! ### Contexts, products and host writes -/

theorem LinkSafe.modCtx (h : LinkSafe s t) (c : Nat) (f : Ctx → Ctx) : LinkSafe s (t.modCtx c f) := h.trans (.of_eq rfl rfl rfl rfl)

theorem LinkSafe.queueTags (h : LinkSafe s t) (c : Nat) (l : List (Option TagDue)) : LinkSafe s (t.queueTags c l) := h.modCtx c _

theorem LinkSafe.mapWords (h : LinkSafe s t) (n a : Nat) : LinkSafe s (State.mapWords n a t).2 := by
  induction n generalizing t a with
  | zero => exact h
  | succ n ih => exact ih (h.engineRead a) _

theorem LinkSafe.read32 (h : LinkSafe s t) (a n : Nat) : LinkSafe s (t.read32 a n).2.2 := by
  unfold State.read32 State.mapVals
  split
  · exact h
  · exact h.mapWords _ _

theorem LinkSafe.write32 (h : LinkSafe s t) (a : Nat) (l : List Int) : LinkSafe s (t.write32 a l) := h.engineWriteBytes _ a _

theorem LinkSafe.sendWrites (h : LinkSafe s t) (fuel a : Nat) (bs : List Byte) (rel : Bool) :
    LinkSafe s (State.sendWrites fuel t a bs rel) := by
  induction fuel generalizing t a bs with
  | zero => exact h
  | succ fuel ih =>
    cases bs with
    | nil => exact h
    | cons b bs =>
      have h1 : LinkSafe s t.fromL1 := h.trans (.of_eq rfl rfl rfl rfl)
      exact ih (h1.emit _) _ _

section Pool

variable {pool : Nat} (hp : pool < 256)
include hp

theorem LinkSafe.fillBlocks (h : LinkSafe s t) (c fuel : Nat) (p : Prod) (q : List Byte) :
    LinkSafe s (State.fillBlocks c pool fuel p q t).2 := by
  induction fuel generalizing t p q with
  | zero => exact h
  | succ fuel ih =>
    unfold State.fillBlocks
    split
    · split
      · exact h
      · split
        · next he => exact (h.of_allocBlock hp he).abandon c p
        · next he => exact ih (h.of_allocBlock hp he) _ _
    · extract_lets off room s1 rest p1
      have h1 : LinkSafe s s1 := h.engineWriteBytes _ _ _
      split
      · exact h1
      · split
        · next he => exact (h1.of_allocBlock hp he).abandon c p1
        · next he => exact ih ((h1.of_allocBlock hp he).engineWrite _ _ _) _ _

theorem LinkSafe.prodAppend (h : LinkSafe s t) (c : Nat) (relaxed : Bool) (p : Prod) (bs : List Byte) :
    LinkSafe s (t.prodAppend c pool relaxed p bs).2 := by
  unfold State.prodAppend
  split
  · exact h
  · split
    · exact .snd_ite (h.sendWrites _ _ _ _) h
    · exact h.fillBlocks hp _ _ _ _

theorem LinkSafe.openChunk (h : LinkSafe s t) (c : Nat) (k : Chunks) : LinkSafe s (t.openChunk c pool k).2 := by
  unfold State.openChunk
  split
  · exact h
  · split
    · next he => exact h.of_allocBlock hp he
    · next he => exact (h.of_allocBlock hp he).inc _ (.inl rfl)

end Pool

theorem LinkSafe.prodEnd (h : LinkSafe s t) (p : Prod) : LinkSafe s (t.prodEnd p).2 := by
  unfold State.prodEnd
  split
  · exact .snd_ite h (h.engineWriteBytes _ _ _)
  · exact h

theorem LinkSafe.endProds (h : LinkSafe s t) (l : List Prod) : LinkSafe s (t.endProds l).2 := by
  unfold State.endProds
  refine LinkSafe.foldl_snd (x := (_, t)) h fun a p _ => ?_
  exact (LinkSafe.refl a.2).prodEnd p

/-! ### Event chunks and window results -/

theorem LinkSafe.endChunk (h : LinkSafe s t) (c seq : Nat) (k : Chunks) (last : Bool) : LinkSafe s (t.endChunk c seq k last).2 := by
  unfold State.endChunk
  dsimp only
  split
  · exact h
  · exact h.engineWriteWords _ _

theorem LinkSafe.addEvent {pool : Nat} (hp : pool < 256) (c seq : Nat) (a : Chunks × State) (e : Word) :
    LinkSafe a.2 (addEvent c pool seq a e).2 := by
  unfold Machine.addEvent
  extract_lets o s1 k
  have ho : LinkSafe a.2 o.2 := (LinkSafe.refl _).openChunk hp c _
  have h1 : LinkSafe a.2 s1 := by
    unfold s1
    split
    · exact ho.engineWrite _ _ _
    · exact ho
  exact .snd_ite (h1.endChunk _ _ _ _) h1

theorem LinkSafe.formResults (h : LinkSafe s t) (f : Frame) (atClose : Bool) : LinkSafe s (t.formResults f atClose).2 := by
  unfold State.formResults
  split
  · exact h
  · refine LinkSafe.foldl_snd (x := (f, t)) h fun a k _ => ?_
    dsimp only
    split
    · exact .refl _
    · exact LinkSafe.of_eq rfl rfl rfl rfl

/-! ### Rows -/

theorem LinkSafe.showStack (h : LinkSafe s t) (c : Nat) : LinkSafe s (t.showStack c) :=
  ((h.put F.RED_CTX_STATE_STACK_OPEN _ (.inl rfl)).put F.RED_CTX_STATE_STAGE_BUSY _ (.inl rfl)).put F.RED_CTX_STATE_STACK_FRAMES _
    (.inl rfl)

theorem LinkSafe.sumRow (h : LinkSafe s t) (f : Frame) (r oy : Nat) (row : List Px) : LinkSafe s (t.sumRow f r oy row).2 := by
  unfold State.sumRow
  extract_lets c a u first last read rd f1 reg zero tag head p bs q
  have hrd : LinkSafe s rd.2.2 := by
    unfold rd
    split
    · exact h
    · exact h.read32 _ _
  exact .snd_ite (hrd.write32 _ _) (hrd.prodAppend (cPool_lt _) _ _ _ _)

theorem LinkSafe.regionRow (h : LinkSafe s t) (f : Frame) (r : Nat) (reg : Region) (oy : Nat) :
    LinkSafe s (t.regionRow f r reg oy).2 := by
  unfold State.regionRow
  extract_lets c row all f1 relaxed p bs q k1
  have h1 : LinkSafe s k1.2 := .snd_ite h (h.prodAppend (cPool_lt _) _ _ _ _)
  split
  · exact h1.sumRow _ _ _ _
  · exact .snd_ite (h1.write32 _ _) h1
  · exact h1

theorem LinkSafe.routeRow (h : LinkSafe s t) (f : Frame) (y : Nat) : LinkSafe s (t.routeRow f y).2 := by
  unfold State.routeRow
  extract_lets c rs a b hh ys evs r
  have ha : LinkSafe s a.2 := by
    refine LinkSafe.foldl_snd (x := (f, t)) h fun a r _ => ?_
    split
    · exact .refl _
    · exact .snd_ite ((LinkSafe.refl a.2).regionRow _ _ _ _) (.refl _)
  have hb : LinkSafe s b.2 := ha.formResults _ _
  split
  · exact hb
  · exact LinkSafe.foldl_snd (x := (_, b.2)) hb fun a e _ => LinkSafe.addEvent (cPool_lt _) _ _ a e

theorem LinkSafe.passRow (h : LinkSafe s t) (f : Frame) : LinkSafe s (t.passRow f).2 := by
  unfold State.passRow
  extract_lets w y raw f1 p r need m d o row s1 f2
  split
  · exact h.prodAppend (cPool_lt _) _ _ _ _
  · have h1 : LinkSafe s s1 := .ite h (h.engineWriteBytes _ _ _)
    exact .snd_ite (h1.routeRow _ _) h1

theorem LinkSafe.passRows (h : LinkSafe s t) (n : Nat) (f : Frame) : LinkSafe s (State.passRows n t f).2 := by
  induction n generalizing t f with
  | zero => exact h
  | succ n ih =>
    unfold State.passRows
    split
    · exact ih (h.passRow f) _
    · exact h

/-! ### Stacks and the end of a route -/

theorem LinkSafe.shortProduct (h : LinkSafe s t) (c kind : Nat) (k : Stack) (r : Nat) (reg : Region) :
    LinkSafe s (t.shortProduct c kind k r reg).2.2 := by
  unfold State.shortProduct
  extract_lets u s0 a e
  have ha : LinkSafe s a.2.2 := by
    refine List.foldlRecOn (motive := fun a : Prod × Bool × State => LinkSafe s a.2.2) _ _ (h.prodAppend (cPool_lt _) _ _ _ _)
      fun a ha oy _ => ?_
    refine LinkSafe.prodAppend (cPool_lt _) ?_ _ _ _ _
    split
    · exact ha
    · exact ha.read32 _ _
  exact ha.prodEnd _

theorem LinkSafe.closeStack (h : LinkSafe s t) (c : Nat) : LinkSafe s (t.closeStack c) := by
  unfold State.closeStack
  split
  · exact h
  · extract_lets s1 eng kind rs a s2
    have h1 : LinkSafe s s1 := h.modCtx c _
    have ha : LinkSafe s a.2 := by
      refine LinkSafe.foldl_snd (x := (_, s1)) h1 fun a r _ => ?_
      dsimp only
      split
      · exact .refl _
      · exact (LinkSafe.refl a.2).shortProduct _ _ _ _ _
    exact LinkSafe.showStack (.ite h1 (ha.queueTags _ _)) _

theorem LinkSafe.routeFinish (h : LinkSafe s t) (f : Frame) : LinkSafe s (t.routeFinish f) := by
  unfold State.routeFinish
  extract_lets u c flags herd tag e w pr frames chunkTag o e1 early sm q st
  have he : LinkSafe s e.2 := h.endProds f.prods
  have hw : LinkSafe s w.2 := h.formResults f true
  have hpr : LinkSafe s pr.2 := hw.endProds w.1.prods
  have ho : LinkSafe s o.2 := hpr.openChunk (cPool_lt _) _ _
  have he1 : LinkSafe s e1.2 := ho.endChunk _ _ _ _
  have hsm : LinkSafe s sm.2 := hpr.endProds w.1.sums
  split
  · exact he.queueTags c _
  · split
    · exact (he1.put F.RED_CTX_STATE_LAST_EVENTS _ (.inl rfl)).queueTags c _
    · exact hpr.queueTags c _
    · split
      · exact LinkSafe.queueTags (hsm.foldl fun a p _ => (LinkSafe.refl a).foldl fun b x _ => (LinkSafe.refl b).releaseBlock x) c _
      · have hclose {p : Prop} [Decidable p] {a : State} (ha : LinkSafe s a) : LinkSafe s (if p then a.closeStack c else a) :=
          .ite (ha.closeStack c) ha
        exact (hclose ((hsm.queueTags c _).modCtx c _)).showStack c
    · exact ((hpr.queueTags c _).modCtx c _).showStack c
    · exact hpr.queueTags c _

/-! ### Herds -/

theorem LinkSafe.setHerd (h : LinkSafe s t) (k : Nat) (x : Herd) : LinkSafe s (t.setHerd k x) := h.trans (.of_eq rfl rfl rfl rfl)

theorem LinkSafe.herdRelease (h : LinkSafe s t) (k : Nat) (x : HerdSlot) : LinkSafe s (t.herdRelease k x) := by
  unfold State.herdRelease
  extract_lets y ms gap s1 s2
  have h2 : LinkSafe s s2 := ((h.setHerd k _).incWrap F.HERD_COUNT_RECORDS (.inl rfl)).put F.HERD_STATUS_LAST_SLOT _ (.inl rfl)
  exact .ite ((h2.inc F.HERD_COUNT_INCOMPLETE (.inl rfl)).countEvent _) h2

theorem LinkSafe.herdGo (h : LinkSafe s t) (k : Nat) : LinkSafe s (t.herdGo k) := by
  have hs (n : Nat) : ∀ a : State, LinkSafe s a → LinkSafe s (a.herdSettle k n) := by
    induction n with
    | zero => exact fun _ ha => ha
    | succ n ih =>
      intro a ha
      unfold State.herdSettle
      split
      · exact ha
      · split
        · exact ha
        · exact ih _ (ha.herdRelease k _)
  exact hs _ t h

theorem LinkSafe.herdPassAll (h : LinkSafe s t) (c : Nat) : LinkSafe s (t.herdPassAll c) :=
  h.foldl fun a k _ => .ite (((LinkSafe.refl a).setHerd k _).herdGo k) (.refl a)

theorem LinkSafe.herdFlags (h : LinkSafe s t) (c seq flags : Nat) (copy : Tab Word) : LinkSafe s (t.herdFlags c seq flags copy) := by
  unfold State.herdFlags
  split
  · exact h
  · exact h.setHerd _ _

theorem LinkSafe.herdCount (h : LinkSafe s t) (c stall start seq flags : Nat) (copy : Tab Word) :
    LinkSafe s (t.herdCount c stall start seq flags copy).2 := by
  unfold State.herdCount
  split
  · exact h
  · next k _ =>
    split
    · exact h
    · split
      · exact h.inc F.HERD_COUNT_MISALIGNED (.inl rfl)
      · extract_lets slot y s1
        have h1 : LinkSafe s s1 := .ite h (h.setHerd k _)
        refine .snd_ite (h.inc F.HERD_COUNT2_LATE_DROPPED (.inl rfl)) ?_
        split
        · exact h1
        · refine .snd_ite (h1.inc F.HERD_COUNT2_DOUBLE (.inl rfl)) (.snd_ite h1 ?_)
          extract_lets late e s2 s3 s4
          have h2 : LinkSafe s s2 := h1.setHerd k _
          have h3 : LinkSafe s s3 := .ite (h2.inc F.HERD_COUNT2_LATE_INCLUDED (.inl rfl)) h2
          have h4 : LinkSafe s s4 := h3.setHerd k _
          exact h4.herdGo k

/-! ### The close of a frame -/

/-- A change of a stall's record beside its link management. -/
theorem LinkSafe.modStall (h : LinkSafe s t) (n : Nat) {f : Stall → Stall} (hf : (f (t.stall n)).link = (t.stall n).link) :
    LinkSafe s (t.modStall n f) := by
  refine h.trans ⟨fun _ _ _ _ => rfl, fun _ _ _ _ _ => rfl, rfl, fun m => ?_, List.prefix_rfl⟩
  by_cases hm : m = n
  · rw [hm, stall_modStall_same, hf]
  · rw [stall_modStall_other _ _ hm]

theorem LinkSafe.endGroup (h : LinkSafe s t) (c : Nat) : LinkSafe s (t.endGroup c) := by
  unfold State.endGroup
  split
  · exact h
  · exact .ite h (((h.modCtx c _).put F.CTX_STATUS_MERGE_OPEN _ (.inl rfl)).queueTags c _)

theorem LinkSafe.finishFrame (h : LinkSafe s t) (n : Nat) (f : Frame) : LinkSafe s (t.finishFrame n f) := by
  unfold State.finishFrame
  extract_lets c u leaves s1 set s2 s3 s4 s5 s6
  have h1 : LinkSafe s s1 := .ite (h.routeFinish f) h
  have h2 : LinkSafe s s2 := .ite h1 (h1.modCtx c _)
  have h3 : LinkSafe s s3 := .ite (h2.herdFlags _ _ _ _) h2
  have h4 : LinkSafe s s4 := .ite (.ite ((h3.modCtx c _).put F.CTX_STATUS_MERGE_OPEN _ (.inl rfl)) (h3.modCtx c _)) h3
  have h5 : LinkSafe s s5 := .ite (h4.put F.CTX_DEST_STATUS_CUR_VALID _ (.inl rfl)) h4
  have h6 : LinkSafe s s6 := .ite h5 ((h5.put F.CTX_STATUS_IN_FRAME _ (.inl rfl)).wr _ (.inl rfl))
  exact h6.modStall n rfl

theorem LinkSafe.advanceFrame (h : LinkSafe s t) (n : Nat) : LinkSafe s (t.advanceFrame n) := by
  unfold State.advanceFrame
  split
  · exact h
  · have h1 (f : Frame) (k : Nat) (g : Frame) : LinkSafe s ((State.passRows k t f).2.modStall n fun x => { x with frame := some g }) :=
      (h.passRows k f).modStall n rfl
    exact .ite ((h1 _ _ _).finishFrame _ _) (h1 _ _ _)

/-- FRAME_OPEN is the one field of STALL_PROTO_STATUS that a frame's close writes. -/
theorem LinkSafe.putFrameOpen (h : LinkSafe s t) {n : Nat} (hn : n < 16) (v : Nat) : LinkSafe s (t.put F.STALL_PROTO_STATUS_FRAME_OPEN n v) := by
  refine h.trans ⟨fun r i hr hi => ?_, fun i lo w _ hw => ?_, rfl, fun _ => rfl, List.prefix_rfl⟩
  · exact rd_wr_reg _ _ (by rintro rfl; exact absurd hr (by decide)) (by omega) hi
  · by_cases hi : i = n
    · rw [hi, State.put, rd_wr_same, bits_setBits_other _ _ _ _ _ _ (by simpa using hw)]
    · rw [State.put, rd_wr_inst _ _ hi]

theorem LinkSafe.closeFrame (h : LinkSafe s t) {n : Nat} (hn : n < 16) (inc : Bool) : LinkSafe s (t.closeFrame n inc) := by
  unfold State.closeFrame
  split
  · exact h
  · split
    · exact h
    · extract_lets bad f1 c s1 s2 s3 leaves tag k s4 s5
      have h1 : LinkSafe s s1 := .ite (h.putFrameOpen hn _) h
      have h2 : LinkSafe s s2 := .ite (h1.inc F.STALL_FRAME_ERR_INCOMPLETE (.inl rfl)) h1
      have h3 : LinkSafe s s3 := (h2.raiseYard _ _).modCtx c _
      have hk : LinkSafe s k.2 := .snd_ite (h3.herdCount _ _ _ _ _ _) h3
      have h4 : LinkSafe s s4 := hk.modStall n rfl
      have h5 : LinkSafe s s5 := h4.advanceFrame n
      exact .ite (h5.endGroup c) h5

end Frames

end Sys2Proof.Machine

/-! SUPPORT. A stall's state and what follows from it (R123, R162, R178, R703): what a change of it leaves of the lane layer, and which
state a link's lanes give it. -/

namespace Sys2Proof.Machine

section Followers

variable {s t : State}

/-! ### Control requests (R173 to R179) and the pair (R703, R709, R714) -/

theorem LinkSafe.showIds (h : LinkSafe s t) (n : Nat) : LinkSafe s (t.showIds n) :=
  ((h.put F.STALL_CTRL_STATUS_OUTSTANDING _ (.inl rfl)).put F.STALL_CTRL_STATUS_QUARANTINED _ (.inl rfl)).put
    F.STALL_CTRL_STATUS_QUARANTINE_ALL _ (.inl rfl)

theorem LinkSafe.ctlComplete (h : LinkSafe s t) (n : Nat) (head : Word) (result id : Nat) (data : List Word) :
    LinkSafe s (t.ctlComplete n head result id data) := by
  have ht : t.get F.STALL_CTRL_CFG_CRESP_TROUGH n < 2 ^ 20 := (get_lt t F.STALL_CTRL_CFG_CRESP_TROUGH n).trans (by decide)
  unfold State.ctlComplete
  exact .ite (h.inc F.STALL_PATH_ERR_CRESP_DISCARDS (.inl rfl)) (h.pushItem ht _)

theorem LinkSafe.ctlAbort (h : LinkSafe s t) (n result : Nat) : LinkSafe s (t.ctlAbort n result) := by
  refine LinkSafe.showIds (LinkSafe.foldl (h.modStall n rfl) fun a r _ => LinkSafe.ctlComplete ?_ _ _ _ _ _) n
  exact .ite ((LinkSafe.refl a).inc F.STALL_CTRL_ERR_LINK_LOST (.inl rfl)) (.refl a)

theorem LinkSafe.pair (h : LinkSafe s t) (p : Pair) : LinkSafe s { t with pair := p } :=
  h.trans (.of_eq (s := t) (t := { t with pair := p }) rfl rfl rfl rfl)

theorem LinkSafe.pairView (h : LinkSafe s t) : LinkSafe s t.pairView := by
  unfold State.pairView
  extract_lets on keeper split s1 s2
  have h2 : LinkSafe s s2 := (h.put F.PAIR_STATUS_RIGHTS _ (.inl rfl)).put F.PAIR_STATUS_SPLIT _ (.inl rfl)
  exact .ite (h2.alarm _ (by decide)) h2

theorem LinkSafe.setPair (h : LinkSafe s t) (st : Nat) (why : ReqReason) : LinkSafe s (t.setPair st why) := by
  have h1 := (h.put F.PAIR_STATUS_STATE (i := 0) st (.inl rfl)).put F.PAIR_CTRL_HANDOVER (i := 0) (b2n (st == psHanding)) (.inl rfl)
  unfold State.setPair State.askShadow
  exact LinkSafe.pairView (.ite (h1.placeRequest _) h1)

theorem LinkSafe.pairLines (h : LinkSafe s t) : LinkSafe s t.pairLines := by
  have hshadow : LinkSafe s t.takesShadow := (h.raiseYard _ _).setPair _ _
  have hdown : LinkSafe s t.standDown := by
    have h1 := ((h.raiseYard 450 t.now).alarm (field 0 32 t.epoch) (code := 0x31) (by decide)).inc F.PAIR_COUNT_STANDDOWNS (i := 0) (.inl rfl)
    exact (h1.pair _).setPair _ _
  unfold State.pairLines
  exact .ite h (.ite hshadow (.ite hdown h))

theorem LinkSafe.linkDown (h : LinkSafe s t) {n : Nat} (hn : n < 16) : LinkSafe s (t.linkDown n) := by
  have h1 := (((h.raiseYard (64 + 4 * n + 3) t.now).countEvent 3).closeFrame hn true).ctlAbort n crLinkLost
  unfold State.linkDown
  exact LinkSafe.modStall h1 n rfl

end Followers

/-! ### What a link's change of state may touch -/

/-- A stall's requests and marker counts. -/
def Stall.requests (x : Stall) : Option LmReq × Nat × Option (Nat × LmSource) × Option (Nat × Nat × LmSource) × Nat × Nat :=
  (x.lm, x.nextMsg, x.goal, x.switch, x.rxSeq, x.txSeq)

/-- From `s` to `t` links have changed their states: STATE and FAULT_CAUSE of STALL_LINK_STATUS, STALL_LM_CTRL and what supervision
keeps may differ, the rest of the lane layer is as before, and nothing sent is unsent. -/
structure LinkMoves (s t : State) : Prop where
  regs : ∀ r i, r.ofLanes = true → r ≠ .STALL_LINK_STATUS → r ≠ .STALL_LM_CTRL → i < 2 ^ 20 → t.rd r i = s.rd r i
  shown : ∀ i lo w, i < 2 ^ 20 → 4 ≤ lo → lo + w ≤ 9 ∨ 13 ≤ lo →
    bits (t.rd .STALL_LINK_STATUS i) lo w = bits (s.rd .STALL_LINK_STATUS i) lo w
  camera : ∀ i lo w, i < 2 ^ 20 → lo + w ≤ 2 ∨ 3 ≤ lo →
    bits (t.rd .STALL_PROTO_STATUS i) lo w = bits (s.rd .STALL_PROTO_STATUS i) lo w
  lanes : t.lanes = s.lanes
  stalls : ∀ n, (t.stall n).requests = (s.stall n).requests
  sent : s.sent <+: t.sent

theorem Stall.requests_of_link {x y : Stall} (h : x.link = y.link) : x.requests = y.requests :=
  congrArg (fun p : LinkPart => (p.lm, p.nextMsg, p.goal, p.switch, p.rxSeq, p.txSeq)) h

theorem LinkSafe.moves {s t : State} (h : LinkSafe s t) : LinkMoves s t :=
  ⟨fun r i hr _ _ hi => h.regs r i hr hi, fun i _ _ hi _ _ => by rw [h.regs _ i (by decide) hi], h.camera, h.lanes,
    fun n => Stall.requests_of_link (h.stalls n), h.sent⟩

section Moves

variable {s t u : State}

theorem LinkMoves.refl (s : State) : LinkMoves s s := (LinkSafe.refl s).moves

theorem LinkMoves.trans (h : LinkMoves s t) (k : LinkMoves t u) : LinkMoves s u :=
  ⟨fun r i hr h1 h2 hi => (k.regs r i hr h1 h2 hi).trans (h.regs r i hr h1 h2 hi),
    fun i lo w hi h4 hw => (k.shown i lo w hi h4 hw).trans (h.shown i lo w hi h4 hw),
    fun i lo w hi hw => (k.camera i lo w hi hw).trans (h.camera i lo w hi hw), k.lanes.trans h.lanes,
    fun n => (k.stalls n).trans (h.stalls n), h.sent.trans k.sent⟩

theorem LinkMoves.ite {a b : State} {p : Prop} [Decidable p] (ha : LinkMoves s a) (hb : LinkMoves s b) : LinkMoves s (if p then a else b) := by
  split <;> assumption

theorem LinkMoves.laneSt (h : LinkMoves s t) {l : Nat} (hl : l < 2 ^ 20) : t.laneSt l = s.laneSt l :=
  get_congr (f := F.LANE_STATUS_STATE) (h.regs .LANE_STATUS l rfl (by decide) (by decide) hl)

theorem LinkMoves.get (h : LinkMoves s t) (f : Fld) {i : Nat} (hf : f.r.ofLanes = true) (h1 : f.r ≠ .STALL_LINK_STATUS)
    (h2 : f.r ≠ .STALL_LM_CTRL) (hi : i < 2 ^ 20) : t.get f i = s.get f i :=
  get_congr (h.regs f.r i hf h1 h2 hi)

theorem LinkMoves.lane (h : LinkMoves s t) (l : Nat) : t.lane l = s.lane l := lane_congr h.lanes l

theorem LinkMoves.lm (h : LinkMoves s t) (n : Nat) : (t.stall n).lm = (s.stall n).lm := congrArg (·.1) (h.stalls n)

theorem LinkMoves.goal (h : LinkMoves s t) (n : Nat) : (t.stall n).goal = (s.stall n).goal := congrArg (·.2.2.1) (h.stalls n)

theorem LinkMoves.switch (h : LinkMoves s t) (n : Nat) : (t.stall n).switch = (s.stall n).switch := congrArg (·.2.2.2.1) (h.stalls n)

theorem LinkMoves.rxSeq (h : LinkMoves s t) (n : Nat) : (t.stall n).rxSeq = (s.stall n).rxSeq := congrArg (·.2.2.2.2.1) (h.stalls n)

/-- STATE and FAULT_CAUSE are free to change. -/
theorem LinkMoves.putStatus (h : LinkMoves s t) (f : Fld) {n : Nat} (v : Nat) (hn : n < 2 ^ 20)
    (hf : f = F.STALL_LINK_STATUS_STATE ∨ f = F.STALL_LINK_STATUS_FAULT_CAUSE) : LinkMoves s (t.put f n v) := by
  have hr : f.r = .STALL_LINK_STATUS := by rcases hf with rfl | rfl <;> rfl
  have hrd {q : Reg} {i : Nat} (hq : q ≠ .STALL_LINK_STATUS) (hi : i < 2 ^ 20) : (t.put f n v).rd q i = t.rd q i :=
    rd_wr_reg _ _ (by rwa [hr]) hn hi
  refine h.trans ⟨fun r i _ h1 _ hi => hrd h1 hi, fun i lo w hi h4 hw => ?_, fun i lo w hi _ => by rw [hrd (by decide) hi], rfl,
    fun _ => rfl, List.prefix_rfl⟩
  by_cases hin : i = n
  · rw [hin, State.put, hr, rd_wr_same, bits_setBits_other]
    rcases hf with rfl | rfl
    · exact .inr h4
    · exact hw
  · rw [State.put, hr, rd_wr_inst _ _ hin]

/-- So is STALL_LM_CTRL. -/
theorem LinkMoves.putControl (h : LinkMoves s t) (f : Fld) {n : Nat} (v : Nat) (hn : n < 2 ^ 20) (hf : f.r = .STALL_LM_CTRL) :
    LinkMoves s (t.put f n v) := by
  have hrd {q : Reg} {i : Nat} (hq : q ≠ .STALL_LM_CTRL) (hi : i < 2 ^ 20) : (t.put f n v).rd q i = t.rd q i :=
    rd_wr_reg _ _ (by rwa [hf]) hn hi
  exact h.trans ⟨fun r i _ _ h2 hi => hrd h2 hi, fun i lo w hi _ _ => by rw [hrd (by decide) hi],
    fun i lo w hi _ => by rw [hrd (by decide) hi], rfl, fun _ => rfl, List.prefix_rfl⟩

theorem LinkMoves.modStall (h : LinkMoves s t) (n : Nat) {f : Stall → Stall} (hf : (f (t.stall n)).requests = (t.stall n).requests) :
    LinkMoves s (t.modStall n f) := by
  refine h.trans ⟨fun _ _ _ _ _ _ => rfl, fun _ _ _ _ _ _ => rfl, fun _ _ _ _ _ => rfl, rfl, fun m => ?_, List.prefix_rfl⟩
  by_cases hm : m = n
  · rw [hm, stall_modStall_same, hf]
  · rw [stall_modStall_other _ _ hm]

theorem LinkMoves.lmResult (h : LinkMoves s t) (n : Nat) (src : LmSource) (r : Nat) : LinkMoves s (t.lmResult n src r) := by
  unfold State.lmResult
  split
  · next hn => exact (h.putControl _ _ (by omega) rfl).putControl _ _ (by omega) rfl
  · exact h

end Moves

/-! ### A stall becomes UP (R123) -/

/-- The state with UP's event raised and counted and the latency's sample forgotten. -/
def State.upShown (s : State) (n : Nat) : State :=
  ((((s.raiseYard (64 + 4 * n + 2) s.now).countEvent 2).put F.STALL_LINK_STATUS_FAULT_CAUSE n 0).put F.STALL_LATENCY_ONE_WAY n 0).put
    F.STALL_LATENCY_VALID n 0

theorem upShown_moves (s : State) {n : Nat} (hn : n < 2 ^ 20) : LinkMoves s (s.upShown n) := by
  have h1 : LinkMoves s _ := (((LinkSafe.refl s).raiseYard (64 + 4 * n + 2) s.now).countEvent 2).moves
  have h2 := h1.putStatus F.STALL_LINK_STATUS_FAULT_CAUSE (n := n) 0 hn (.inr rfl)
  exact h2.trans (((LinkSafe.refl _).put F.STALL_LATENCY_ONE_WAY 0 (.inl rfl)).put F.STALL_LATENCY_VALID 0 (.inl rfl)).moves

theorem lmResult_sent (s : State) (n : Nat) (src : LmSource) (r : Nat) : (s.lmResult n src r).sent = s.sent := by
  unfold State.lmResult
  split <;> rfl

theorem linkUp_moves (s : State) {n : Nat} (hn : n < 2 ^ 20) : LinkMoves s (s.linkUp n) := by
  have h2 : LinkMoves s (s.upShown n) := upShown_moves s hn
  have h3 : LinkMoves s (if ((s.upShown n).stall n).retrainDue then (s.upShown n).lmResult n .software lrDone else s.upShown n) :=
    .ite (h2.lmResult _ _ _) h2
  unfold State.linkUp
  refine .ite (h3.modStall n rfl) ?_
  refine LinkMoves.modStall (h3.modStall n rfl) n ?_
  split <;> rfl

theorem linkUp_sent (s : State) (n : Nat) : (s.linkUp n).sent = s.sent := by
  unfold State.linkUp
  simp only [apply_ite State.sent, State.quarRun, modStall_sent, lmResult_sent, put_sent, countEvent_sent, raiseYard_sent, ite_self]

/-- The registers as UP leaves them: a RETRAIN that waited for it is DONE. -/
theorem linkUp_regs (s : State) (n : Nat) : (s.linkUp n).regs =
    (if ((s.upShown n).stall n).retrainDue then (s.upShown n).lmResult n .software lrDone else s.upShown n).regs := by
  unfold State.linkUp State.upShown
  simp only [apply_ite State.regs, State.quarRun, modStall_regs, ite_self]

theorem linkUp_stState (s : State) {n : Nat} (hn : n < 2 ^ 20) : (s.linkUp n).stState n = s.stState n := by
  have hbeside {a : State} {f : Fld} (v : Nat) (hf : f.r ≠ .STALL_LINK_STATUS) : (a.put f n v).stState n = a.stState n :=
    get_put_reg _ _ F.STALL_LINK_STATUS_STATE _ _ _ (Ne.symm hf) hn hn
  have hyard : (s.raiseYard (64 + 4 * n + 2) s.now).stState n = s.stState n :=
    (raiseYard_regsBut s _ _).get_eq F.STALL_LINK_STATUS_STATE hn (by decide)
  have hshown : (s.upShown n).stState n = s.stState n := by
    unfold State.upShown
    rw [hbeside _ (by decide), hbeside _ (by decide)]
    exact (get_put_beside _ F.STALL_LINK_STATUS_FAULT_CAUSE F.STALL_LINK_STATUS_STATE _ _ rfl (by decide)).trans hyard
  have hresult (a : State) : (a.lmResult n .software lrDone).stState n = a.stState n := by
    unfold State.lmResult
    split
    · rw [hbeside _ (by decide), hbeside _ (by decide)]
    · rfl
  refine (get_congr (rd_congr (linkUp_regs s n) _ _)).trans ?_
  split
  · exact (hresult _).trans hshown
  · exact hshown

/-! ### A stall's state changes (R123, R162, R178) -/

theorem setLink_same {s : State} {n new : Nat} (h : s.stState n = new) : s.setLink n new = s := if_pos h

theorem setLink_up {s : State} {n : Nat} (h : s.stState n ≠ lsUp) : s.setLink n lsUp = (s.put F.STALL_LINK_STATUS_STATE n lsUp).linkUp n := by
  unfold State.setLink
  dsimp only
  rw [if_neg h, if_pos rfl, if_neg (by simp), if_neg (by simp [h])]
  split
  · rw [if_neg h]
  · rfl

/-- Only a stall that was UP or IDLE has anything to give up. -/
theorem setLink_of_resting {s : State} {n new : Nat} (h : s.stState n ≠ new) (hu : s.stState n ≠ lsUp) (hi : s.stState n ≠ lsIdle)
    (hnew : new ≠ lsUp) : s.setLink n new = s.put F.STALL_LINK_STATUS_STATE n new := by
  unfold State.setLink
  dsimp only
  rw [if_neg h, if_neg hnew, if_neg (by simp [hu, hi]), if_neg (by simp [hu])]
  split
  · rw [if_neg hu]
  · rfl

/-- A stall that does not become UP takes its state; its frames, requests and herds follow. -/
theorem setLink_not_up {s : State} {n new : Nat} (hn : n < 16) (h : s.stState n ≠ new) (hnew : new ≠ lsUp) :
    LinkSafe (s.put F.STALL_LINK_STATUS_STATE n new) (s.setLink n new) := by
  unfold State.setLink
  extract_lets old live s1 s2 s3
  have h2 : LinkSafe s1 s2 := .ite ((LinkSafe.refl s1).linkDown hn) (.ite ((LinkSafe.refl s1).ctlAbort n _) (.refl s1))
  have h3 : LinkSafe s1 s3 := by
    unfold s3
    split
    · exact .ite (h2.herdPassAll _) h2
    · exact h2
  rw [if_neg h, if_neg hnew]
  exact h3

theorem setLink_moves (s : State) {n : Nat} (hn : n < 16) (new : Nat) : LinkMoves s (s.setLink n new) := by
  have hp (v : Nat) : LinkMoves s (s.put F.STALL_LINK_STATUS_STATE n v) := (LinkMoves.refl s).putStatus _ _ (by omega) (.inl rfl)
  by_cases h : s.stState n = new
  · rw [setLink_same h]
    exact .refl s
  · by_cases hu : new = lsUp
    · rw [hu] at h ⊢
      rw [setLink_up h]
      exact (hp _).trans (linkUp_moves _ (by omega))
    · exact (hp _).trans (setLink_not_up hn h hu).moves

theorem setLink_stState (s : State) {n new : Nat} (hn : n < 16) (hv : new < 16) : (s.setLink n new).stState n = new := by
  have hp : (s.put F.STALL_LINK_STATUS_STATE n new).stState n = new :=
    (get_put_same _ _ _ _ (by decide)).trans (Nat.mod_eq_of_lt hv)
  by_cases h : s.stState n = new
  · rw [setLink_same h, h]
  · by_cases hu : new = lsUp
    · rw [hu] at h hp ⊢
      rw [setLink_up h, linkUp_stState _ (by omega), hp]
    · exact (get_congr ((setLink_not_up hn h hu).regs _ _ (by decide) (by omega))).trans hp

/-! ### A link's state follows its lanes (R103, R104, R123, R703) -/

/-- The state that the lanes of the width in use give their stall. -/
def State.linkTarget (s : State) (n : Nat) : Nat :=
  let all := fun (st : Nat) => (s.widthLanes n).all fun l => s.laneSt l == st
  if all lnActive then lsUp else if all lnIdle then lsIdle else if all lnDeep then lsDeep
  else if s.get F.STALL_LINK_STATUS_FAULT_CAUSE n ≠ 0 then lsFault else lsDown

theorem linkTarget_lt (s : State) (n : Nat) : s.linkTarget n < 16 := by
  unfold State.linkTarget
  dsimp only
  repeat' split
  all_goals decide

theorem linkOn_lt {s : State} {n : Nat} (h : s.linkOn n = true) (hn : n ≠ cwLink) : n < 16 := by
  unfold State.linkOn at h
  rw [if_neg hn] at h
  simp only [Bool.and_eq_true, decide_eq_true_eq] at h
  exact h.1.1.1

theorem evalLink_on {s : State} {n : Nat} (hn : n < 16) (h : s.linkOn n = true) : s.evalLink n = s.setLink n (s.linkTarget n) := by
  unfold State.evalLink
  dsimp only
  rw [if_neg (by unfold cwLink; omega), h, if_neg (by decide)]
  rfl

theorem evalLink_off {s : State} {n : Nat} (hn : n < 16) (h : s.linkOn n = false) : s.evalLink n = s := by
  unfold State.evalLink
  dsimp only
  rw [if_neg (by unfold cwLink; omega), h]
  rfl

theorem causewayDown_moves (s : State) (loss : Bool) : LinkMoves s (s.causewayDown loss) := by
  unfold State.causewayDown
  extract_lets s1 s2
  have h1 : LinkSafe s s1 := ((LinkSafe.refl s).put F.PAIR_STATUS_CAUSEWAY_UP 0 (.inl rfl)).raiseYard _ _
  have h2 : LinkSafe s s2 := .ite ((h1.inc F.PAIR_COUNT_CW_LOSSES (.inl rfl)).alarm _ (by decide)) h1
  have h3 : LinkMoves s (s2.fwdStalls false) := by
    refine List.foldlRecOn (motive := LinkMoves s) _ _ h2.moves fun a ha n hn => ?_
    exact .ite (ha.trans (setLink_moves a (List.mem_range.mp hn) _)) ha
  exact .ite (.refl s) (h3.trans (LinkSafe.pairLines (LinkSafe.pairView (.refl _))).moves)

theorem evalLink_moves (s : State) (n : Nat) : LinkMoves s (s.evalLink n) := by
  unfold State.evalLink
  dsimp only
  split
  · refine .ite (.refl s) ?_
    exact ((LinkSafe.refl s).pair _).moves.trans (causewayDown_moves _ _)
  · next hn =>
    cases h : s.linkOn n with
    | false => exact .refl s
    | true => exact setLink_moves s (linkOn_lt h hn) _

/-- A link whose width is not all ACTIVE is left as it is, or takes its new state and nothing of its management changes. -/
theorem evalLink_not_up {s : State} {n l : Nat} (hn : n < 16) (hl : l ∈ s.widthLanes n) (ha : s.laneSt l ≠ lnActive) :
    s.evalLink n = s ∨ ∃ v, LinkSafe (s.put F.STALL_LINK_STATUS_STATE n v) (s.evalLink n) := by
  cases h : s.linkOn n with
  | false => exact .inl (evalLink_off hn h)
  | true =>
    rw [evalLink_on hn h]
    have hv : s.linkTarget n ≠ lsUp := by
      unfold State.linkTarget
      dsimp only
      rw [if_neg (by simpa using ⟨l, hl, ha⟩)]
      repeat' split
      all_goals decide
    by_cases hs : s.stState n = s.linkTarget n
    · exact .inl (setLink_same hs)
    · exact .inr ⟨_, setLink_not_up hn hs hv⟩

end Sys2Proof.Machine

/-! SUPPORT. The links as their lanes see them (R84 to R90), and the moves of lanes between their states (Tables 3.9 and 3.10): what a move
changes and leaves, moves of all the lanes of a link, and what follows for the link. -/

namespace Sys2Proof

/-- A register that says which lanes a link has and whether they run. -/
def Reg.ofLinks (r : Reg) : Bool :=
  r == .STALL_LINK_CFG || r == .STALL_LINK_STATUS || r == .LANE_CTRL || r == .PAIR_CFG || r == .DEV_HOLD_CAUSE

namespace Machine

/-! ### Links -/

/-- `t` has the links, widths and mode of `s`, and the same widths are sought. -/
structure SameLinks (s t : State) : Prop where
  cfg : ∀ n, n < 2 ^ 20 → t.rd .STALL_LINK_CFG n = s.rd .STALL_LINK_CFG n
  width : ∀ n, n < 2 ^ 20 → t.get F.STALL_LINK_STATUS_WIDTH n = s.get F.STALL_LINK_STATUS_WIDTH n
  spare : ∀ l, l < 2 ^ 20 → t.rd .LANE_CTRL l = s.rd .LANE_CTRL l
  pair : t.rd .PAIR_CFG = s.rd .PAIR_CFG
  cause : t.rd .DEV_HOLD_CAUSE = s.rd .DEV_HOLD_CAUSE
  mode : t.modeAhead = s.modeAhead
  goal : ∀ n, (t.stall n).goal = (s.stall n).goal

theorem SameLinks.of_regsBut {l : List (Reg × Nat)} {s t : State} (h : RegsBut l s t) (hl : ∀ p ∈ l, p.1.ofLinks = false ∧ p.2 < 2 ^ 20)
    (hc : t.ctl = s.ctl) (hg : ∀ n, (t.stall n).goal = (s.stall n).goal) : SameLinks s t := by
  have hrd {r : Reg} {i : Nat} (hr : r.ofLinks = true) (hi : i < 2 ^ 20) : t.rd r i = s.rd r i :=
    h.rd_eq hi fun p hp => ⟨fun e => (by rw [e, (hl p hp).1] at hr; cases hr), (hl p hp).2⟩
  exact ⟨fun _ => hrd rfl, fun _ hn => get_congr (hrd rfl hn), fun _ => hrd rfl, hrd rfl (by decide), hrd rfl (by decide),
    by unfold State.modeAhead; rw [hc], hg⟩

theorem SameLinks.refl (s : State) : SameLinks s s :=
  ⟨fun _ _ => rfl, fun _ _ => rfl, fun _ _ => rfl, rfl, rfl, rfl, fun _ => rfl⟩

theorem SameLinks.trans {s t u : State} (h : SameLinks s t) (k : SameLinks t u) : SameLinks s u :=
  ⟨fun n hn => (k.cfg n hn).trans (h.cfg n hn), fun n hn => (k.width n hn).trans (h.width n hn),
    fun n hn => (k.spare n hn).trans (h.spare n hn), k.pair.trans h.pair, k.cause.trans h.cause, k.mode.trans h.mode,
    fun n => (k.goal n).trans (h.goal n)⟩

theorem SameLinks.of_congr {s t : State} (hr : t.regs = s.regs) (hc : t.ctl = s.ctl) (hg : ∀ n, (t.stall n).goal = (s.stall n).goal) :
    SameLinks s t :=
  SameLinks.of_regsBut (l := []) (fun q j _ => rd_congr hr q j) (fun _ h => nomatch h) hc hg

theorem ownerOf_le (s : State) (l : Nat) : s.ownerOf l ≤ 20 := by
  unfold State.ownerOf cwLink
  split
  · exact Nat.le_refl _
  · split <;> omega

theorem ownerOf_lt {s : State} {l : Nat} (h : l < 32) : s.ownerOf l < 16 := by
  unfold State.ownerOf
  rw [if_neg (by omega)]
  split <;> omega

namespace SameLinks

variable {s t : State} (h : SameLinks s t)
include h

theorem isOn (f : Fld) {n : Nat} (hf : f.r = .STALL_LINK_CFG) (hn : n < 2 ^ 20) : t.isOn f n = s.isOn f n := by
  unfold State.isOn
  rw [get_congr (s := s) (f := f) (by rw [hf]; exact h.cfg n hn)]

theorem borrows {n : Nat} (hn : n < 2 ^ 20) : t.borrows n = s.borrows n := by
  unfold State.borrows
  rw [h.isOn _ rfl hn, get_congr (f := F.STALL_LINK_CFG_MAX_WIDTH) (h.cfg n hn)]

theorem ownerOf (l : Nat) : t.ownerOf l = s.ownerOf l := by
  unfold State.ownerOf
  by_cases hl : 32 ≤ l
  · rw [if_pos hl, if_pos hl]
  · rw [if_neg hl, if_neg hl, h.borrows (by omega)]

theorem laneIdx (l : Nat) : t.laneIdx l = s.laneIdx l := by
  unfold State.laneIdx
  rw [h.ownerOf]

theorem fwdIn (n : Nat) : t.fwdIn n = s.fwdIn n := by
  unfold State.fwdIn State.isOn
  rw [get_congr (f := F.PAIR_CFG_ENABLE) h.pair, h.pair]

theorem linkOn (n : Nat) : t.linkOn n = s.linkOn n := by
  unfold State.linkOn
  split
  · unfold State.isOn
    rw [get_congr (f := F.PAIR_CFG_ENABLE) h.pair]
  · by_cases hn : n < 16
    · rw [h.isOn _ rfl (by omega), h.isOn _ rfl (by omega), h.fwdIn]
    · simp [hn]

theorem maxCode {n : Nat} (hn : n < 2 ^ 20) : t.maxCode n = s.maxCode n := by
  unfold State.maxCode
  rw [get_congr (f := F.STALL_LINK_CFG_MAX_WIDTH) (h.cfg n hn)]

theorem linkLanes {n : Nat} (hn : n < 2 ^ 20) : t.linkLanes n = s.linkLanes n := by
  unfold State.linkLanes
  rw [h.maxCode hn]

theorem widthCode {n : Nat} (hn : n < 2 ^ 20) : t.widthCode n = s.widthCode n := by
  unfold State.widthCode
  rw [h.width n hn]

theorem widthLanes {n : Nat} (hn : n < 2 ^ 20) : t.widthLanes n = s.widthLanes n := by
  unfold State.widthLanes
  rw [h.linkLanes hn, h.widthCode hn]

theorem linkRate {n : Nat} (hn : n < 2 ^ 20) : t.linkRate n = s.linkRate n := by
  unfold State.linkRate
  rw [get_congr (f := F.STALL_LINK_CFG_RATE) (h.cfg n hn)]

theorem fecOn {n : Nat} (hn : n < 2 ^ 20) : t.fecOn n = s.fecOn n := by
  unfold State.fecOn
  rw [h.linkRate hn, h.isOn _ rfl hn]

theorem lanesOpen : t.lanesOpen = s.lanesOpen := by
  unfold State.lanesOpen
  rw [h.mode, get_congr (f := F.DEV_HOLD_CAUSE_HOLD_CODE) h.cause]

theorem laneWanted {l : Nat} (hl : l < 2 ^ 20) : t.laneWanted l = s.laneWanted l := by
  have ho := ownerOf_le s l
  unfold State.laneWanted State.isOn
  dsimp only
  rw [h.ownerOf, h.goal, h.widthCode (by omega), h.laneIdx, get_congr (f := F.LANE_CTRL_KEEP_SPARE) (h.spare l hl)]

end SameLinks

/-! ### The lanes of a link -/

theorem linkLanes_cw (s : State) : s.linkLanes 20 = (List.range 8).map (32 + ·) := if_pos rfl

theorem linkLanes_stall (s : State) {n : Nat} (hn : n < 20) :
    s.linkLanes n = (List.range (if s.maxCode n = 2 then 4 else 2)).map (2 * n + ·) :=
  if_neg (by unfold cwLink; omega)

theorem linkLanes_lt {s : State} {n l : Nat} (hn : n < 21) (h : l ∈ s.linkLanes n) : l < 2 ^ 20 := by
  unfold State.linkLanes at h
  split at h
  · obtain ⟨k, hk, rfl⟩ := List.mem_map.mp h
    have := List.mem_range.mp hk
    omega
  · obtain ⟨k, hk, rfl⟩ := List.mem_map.mp h
    have hk := List.mem_range.mp hk
    split at hk <;> omega

theorem linkLanes_nodup (s : State) (n : Nat) : (s.linkLanes n).Nodup := by
  unfold State.linkLanes
  split <;> exact (List.nodup_range).map fun _ _ h => Nat.add_left_cancel h

theorem widthLanes_subset (s : State) (n : Nat) : s.widthLanes n ⊆ s.linkLanes n := List.take_subset _ _

/-- The first lane of a stall is in every width. -/
theorem mem_widthLanes (s : State) {n : Nat} (hn : n < 20) : 2 * n ∈ s.widthLanes n := by
  have hpos : 0 < 2 ^ s.widthCode n := Nat.two_pow_pos _
  unfold State.widthLanes
  rw [linkLanes_stall s hn, ← List.map_take, List.take_range]
  refine List.mem_map.mpr ⟨0, List.mem_range.mpr ?_, rfl⟩
  split <;> omega

/-! ### A move of lanes -/

/-- Of the registers, LANE_STATUS of the lanes `ls` alone may differ between `s` and `t`, beside them those lanes' own records. -/
structure LanesOnly (ls : List Nat) (s t : State) : Prop where
  regs : RegsBut (ls.map fun l => (.LANE_STATUS, l)) s t
  rest : { t with regs := s.regs, lanes := s.lanes } = s
  lane : ∀ k, k ∉ ls → t.lane k = s.lane k

namespace LanesOnly

variable {ls ms : List Nat} {s t u : State}

theorem refl (ls : List Nat) (s : State) : LanesOnly ls s s := ⟨RegsBut.refl _ _, rfl, fun _ _ => rfl⟩

theorem trans (h : LanesOnly ls s t) (k : LanesOnly ls t u) : LanesOnly ls s u := by
  refine ⟨h.regs.trans k.regs, ?_, fun i hi => (k.lane i hi).trans (h.lane i hi)⟩
  exact (congrArg (fun a : State => { a with regs := s.regs, lanes := s.lanes }) k.rest).trans h.rest

theorem mono (h : LanesOnly ls s t) (hm : ls ⊆ ms) : LanesOnly ms s t := by
  refine ⟨h.regs.mono fun p hp => ?_, h.rest, fun k hk => h.lane k fun hl => hk (hm hl)⟩
  obtain ⟨l, hl, rfl⟩ := List.mem_map.mp hp
  exact List.mem_map.mpr ⟨l, hm hl, rfl⟩

theorem ite {p : Prop} [Decidable p] (h : LanesOnly ls s t) (k : LanesOnly ls s u) : LanesOnly ls s (if p then t else u) := by
  split <;> assumption

/-- A register beside LANE_STATUS. -/
theorem rd (h : LanesOnly ls s t) (hls : ∀ l ∈ ls, l < 2 ^ 20) {q : Reg} {j : Nat} (hq : q ≠ .LANE_STATUS) (hj : j < 2 ^ 20) :
    t.rd q j = s.rd q j := by
  refine h.regs.rd_eq hj fun p hp => ?_
  obtain ⟨l, hl, rfl⟩ := List.mem_map.mp hp
  exact ⟨hq, hls l hl⟩

/-- LANE_STATUS of a lane beside `ls`. -/
theorem status (h : LanesOnly ls s t) {k : Nat} (hk : k ∉ ls) : t.rd .LANE_STATUS k = s.rd .LANE_STATUS k := by
  refine h.regs _ _ fun p hp => ?_
  obtain ⟨l, hl, rfl⟩ := List.mem_map.mp hp
  exact regKey_ne_of_inst fun e => hk (e ▸ hl)

theorem laneSt (h : LanesOnly ls s t) {k : Nat} (hk : k ∉ ls) : t.laneSt k = s.laneSt k := get_congr (f := F.LANE_STATUS_STATE) (h.status hk)

theorem ctl (h : LanesOnly ls s t) : t.ctl = s.ctl := (congrArg State.ctl h.rest :)

theorem stalls (h : LanesOnly ls s t) : t.stalls = s.stalls := (congrArg State.stalls h.rest :)

theorem stall (h : LanesOnly ls s t) (n : Nat) : t.stall n = s.stall n := stall_congr h.stalls n

theorem sent (h : LanesOnly ls s t) : t.sent = s.sent := (congrArg State.sent h.rest :)

theorem sameLinks (h : LanesOnly ls s t) (hls : ∀ l ∈ ls, l < 2 ^ 20) : SameLinks s t := by
  refine .of_regsBut h.regs (fun p hp => ?_) h.ctl fun n => congrArg Stall.goal (h.stall n)
  obtain ⟨l, hl, rfl⟩ := List.mem_map.mp hp
  exact ⟨rfl, hls l hl⟩

theorem stState (h : LanesOnly ls s t) (hls : ∀ l ∈ ls, l < 2 ^ 20) {n : Nat} (hn : n < 2 ^ 20) : t.stState n = s.stState n :=
  get_congr (f := F.STALL_LINK_STATUS_STATE) (h.rd hls (by decide) hn)

theorem modLane (h : LanesOnly ls s t) {l : Nat} (hl : l ∈ ls) (f : Lane → Lane) : LanesOnly ls s (t.modLane l f) :=
  h.trans ⟨RegsBut.of_regs rfl _, rfl, fun _ hk => lane_modLane_other _ _ fun e => hk (e ▸ hl)⟩

theorem wr (h : LanesOnly ls s t) {l : Nat} (hl : l ∈ ls) (v : Word) : LanesOnly ls s (t.wr .LANE_STATUS l v) :=
  h.trans ⟨(RegsBut.refl _ t).wr v (List.mem_map.mpr ⟨l, hl, rfl⟩), rfl, fun _ _ => rfl⟩

theorem put (h : LanesOnly ls s t) (f : Fld) {l : Nat} (n : Nat) (hf : f.r = .LANE_STATUS) (hl : l ∈ ls) : LanesOnly ls s (t.put f l n) := by
  unfold State.put
  rw [hf]
  exact h.wr hl _

end LanesOnly

/-! ### Entering a lane state (Tables 3.9, 3.10) -/

/-- Lane `l` has entered state `st`, and nothing but it has changed. -/
structure Enters (l st : Nat) (s t : State) : Prop where
  only : LanesOnly [l] s t
  state : t.laneSt l = st

namespace Enters

variable {l st : Nat} {s t : State}

theorem modLane (h : Enters l st s t) (f : Lane → Lane) : Enters l st s (t.modLane l f) :=
  ⟨h.only.modLane List.mem_cons_self f, h.state⟩

theorem put (h : Enters l st s t) (f : Fld) (n : Nat) (hf : f.r = .LANE_STATUS) (hlo : 4 ≤ f.lo) : Enters l st s (t.put f l n) :=
  ⟨h.only.put f n hf List.mem_cons_self,
    (get_put_beside t f F.LANE_STATUS_STATE l n (by rw [hf]) (.inl hlo)).trans h.state⟩

theorem laneSt_other (h : Enters l st s t) {k : Nat} (hk : k ≠ l) : t.laneSt k = s.laneSt k := h.only.laneSt (by simpa using hk)

end Enters

section Entries

variable (s : State) (l : Nat)

theorem laneEnter_enters {st : Nat} (clear : Nat) (hst : st < 16) : Enters l st s (s.laneEnter l st clear) :=
  have hput (a : State) : (a.put F.LANE_STATUS_STATE l st).laneSt l = st :=
    (get_put_same _ F.LANE_STATUS_STATE _ _ (by decide)).trans (Nat.mod_eq_of_lt hst)
  have hwr := (LanesOnly.refl [l] s).wr List.mem_cons_self (s.rd .LANE_STATUS l &&& ~~~ BitVec.ofNat 64 clear)
  Enters.modLane ⟨hwr.put F.LANE_STATUS_STATE st rfl List.mem_cons_self, hput _⟩ _

/-- A field of LANE_STATUS that an entry does not clear. -/
theorem get_laneEnter {st clear : Nat} (f : Fld) (hf : f.r = .LANE_STATUS) (hlo : 4 ≤ f.lo) (hc : bits (BitVec.ofNat 64 clear) f.lo f.w = 0) :
    (s.laneEnter l st clear).get f l = s.get f l := by
  have h1 : (s.laneEnter l st clear).get f l = (s.wr .LANE_STATUS l (s.rd .LANE_STATUS l &&& ~~~ BitVec.ofNat 64 clear)).get f l :=
    get_put_beside _ F.LANE_STATUS_STATE f l st hf (.inr hlo)
  rw [h1, State.get, State.get, hf, rd_wr_same, bits_and_not hc]

theorem toDisabled_enters : Enters l lnDisabled s (s.toDisabled l) := (laneEnter_enters s l _ (by decide)).modLane _

theorem toDeep_enters : Enters l lnDeep s (s.toDeep l) := (laneEnter_enters s l _ (by decide)).modLane _

theorem toWake_enters : Enters l lnWake s (s.toWake l) := (laneEnter_enters s l _ (by decide)).modLane _

theorem toTrain_enters (retrain : Bool) : Enters l lnTrain s (s.toTrain l retrain) := (laneEnter_enters s l _ (by decide)).modLane _

theorem toWait_enters (fail : Nat) : Enters l lnWait s (s.toWait l fail) := (laneEnter_enters s l _ (by decide)).put _ _ rfl (by decide)

theorem toHandoff_enters : Enters l lnHandoff s (s.toHandoff l) := (laneEnter_enters s l _ (by decide)).modLane _

theorem toActive_enters : Enters l lnActive s (s.toActive l) :=
  ((laneEnter_enters s l _ (by decide)).put F.LANE_STATUS_BLOCK_LOCK 1 rfl (by decide)).modLane _

theorem toIdle_enters : Enters l lnIdle s (s.toIdle l) := laneEnter_enters s l _ (by decide)

theorem toFault_enters (fail : Nat) : Enters l lnFault s (s.toFault l fail) := (laneEnter_enters s l _ (by decide)).put _ _ rfl (by decide)

/-! ### Lanes starting (R120, R122) -/

theorem laneStart_only : LanesOnly [l] s (s.laneStart l) := by
  unfold State.laneStart
  exact .ite (.refl _ s) (.ite (toWake_enters s l).only (.ite (toDeep_enters s l).only (.refl _ s)))

theorem followSpare_only : LanesOnly [l] s (s.followSpare l) := by
  unfold State.followSpare
  exact .ite (.ite (laneStart_only s l) (.refl _ s)) (.ite (toDeep_enters s l).only (.refl _ s))

variable {s l} in
theorem laneStart_wakes (hon : s.linkOn (s.ownerOf l) = true) (hw : s.laneWanted l = true) (ho : s.lanesOpen = true) :
    s.laneStart l = s.toWake l := by
  unfold State.laneStart
  simp [hon, hw, ho]

variable {s l} in
theorem laneStart_rests (hon : s.linkOn (s.ownerOf l) = true) (hw : s.laneWanted l = true) (hq : s.modeAhead = .quiet) :
    s.laneStart l = s.toDeep l := by
  unfold State.laneStart State.lanesOpen
  simp [hon, hw, hq]

variable {s l} in
theorem laneStart_off (hon : s.linkOn (s.ownerOf l) = false) : s.laneStart l = s := by
  unfold State.laneStart
  simp [hon]

end Entries

/-! ### Moves of all the lanes of a link -/

section Folds

variable {s : State} {ls : List Nat} {f : State → Nat → State}

theorem foldl_only (hf : ∀ a l, LanesOnly [l] a (f a l)) : LanesOnly ls s (ls.foldl f s) :=
  List.foldlRecOn (motive := LanesOnly ls s) ls f (.refl ls s) fun a ha l hl => ha.trans ((hf a l).mono (by simpa using hl))

/-- The step of one lane, with the steps of the others before and after it. -/
theorem foldl_at (hf : ∀ a l, LanesOnly [l] a (f a l)) (hnd : ls.Nodup) {l : Nat} (hl : l ∈ ls) :
    ∃ a, LanesOnly (ls.erase l) s a ∧ LanesOnly (ls.erase l) (f a l) (ls.foldl f s) := by
  induction ls generalizing s with
  | nil => cases hl
  | cons k ks ih =>
    obtain ⟨hk, hks⟩ := List.nodup_cons.mp hnd
    by_cases he : l = k
    · rw [he, List.erase_cons_head]
      exact ⟨s, .refl _ s, foldl_only hf⟩
    · have hlk : l ∈ ks := (List.mem_cons.mp hl).resolve_left he
      obtain ⟨a, h1, h2⟩ := ih (s := f s k) hks hlk
      have herase : (k :: ks).erase l = k :: ks.erase l := List.erase_cons_tail (by simpa using fun e => he e.symm)
      rw [herase]
      exact ⟨a, ((hf s k).mono (by simp)).trans (h1.mono (List.subset_cons_self _ _)), h2.mono (List.subset_cons_self _ _)⟩

variable {from' : List Nat}

theorem eachLane_only (hf : ∀ a l, LanesOnly [l] a (f a l)) : LanesOnly ls s (s.eachLane ls from' f) :=
  foldl_only fun a l => .ite (hf a l) (.refl _ a)

theorem eachLane_at (hf : ∀ a l, LanesOnly [l] a (f a l)) (hnd : ls.Nodup) {l : Nat} (hl : l ∈ ls) :
    ∃ a, LanesOnly (ls.erase l) s a ∧ a.laneSt l = s.laneSt l ∧
      LanesOnly (ls.erase l) (if s.laneSt l ∈ from' then f a l else a) (s.eachLane ls from' f) := by
  obtain ⟨a, h1, h2⟩ := foldl_at (s := s) (f := fun a l => if from'.contains (a.laneSt l) then f a l else a)
    (fun a l => .ite (hf a l) (.refl _ a)) hnd hl
  have hst : a.laneSt l = s.laneSt l := h1.laneSt hnd.not_mem_erase
  refine ⟨a, h1, hst, ?_⟩
  unfold State.eachLane
  simpa only [List.contains_iff_mem, hst] using h2

/-- Each lane whose state is among `from'` enters `st`, the others stay. -/
theorem eachLane_laneSt {st : Nat} (hf : ∀ a l, Enters l st a (f a l)) (hnd : ls.Nodup) {l : Nat} (hl : l ∈ ls) :
    (s.eachLane ls from' f).laneSt l = if s.laneSt l ∈ from' then st else s.laneSt l := by
  obtain ⟨a, -, hst, h2⟩ := eachLane_at (s := s) (from' := from') (fun a l => (hf a l).only) hnd hl
  rw [h2.laneSt hnd.not_mem_erase]
  split
  · exact (hf a l).state
  · exact hst

theorem eachLane_none (h : ∀ l ∈ ls, s.laneSt l ∉ from') : s.eachLane ls from' f = s := by
  unfold State.eachLane
  induction ls with
  | nil => rfl
  | cons k ks ih =>
    rw [List.foldl_cons, if_neg (by simpa using h k List.mem_cons_self)]
    exact ih fun l hl => h l (List.mem_cons_of_mem _ hl)

end Folds

/-! ### A link that its lanes bring to a state -/

theorem linkTarget_all {s : State} {n : Nat} (st v : Nat) (hn : n < 20)
    (hv : (st, v) ∈ [(lnActive, lsUp), (lnIdle, lsIdle), (lnDeep, lsDeep)]) (h : ∀ l ∈ s.widthLanes n, s.laneSt l = st) :
    s.linkTarget n = v := by
  have hall (x : Nat) : ((s.widthLanes n).all fun l => s.laneSt l == x) = decide (st = x) := by
    by_cases hx : st = x
    · simpa [hx] using fun l hl => (h l hl).trans hx
    · have h0 := h _ (mem_widthLanes s hn)
      simp only [hx, decide_false, List.all_eq_false]
      exact ⟨_, mem_widthLanes s hn, by simpa [h0] using hx⟩
  unfold State.linkTarget
  simp only [hall]
  simp only [List.mem_cons, List.not_mem_nil, or_false] at hv
  rcases hv with ⟨rfl, rfl⟩ | ⟨rfl, rfl⟩ | ⟨rfl, rfl⟩ <;> rfl

/-- A lane that is neither ACTIVE, IDLE nor DEEP keeps its stall DOWN, or in FAULT while a cause is shown. -/
theorem linkTarget_of_training {s : State} {n l : Nat} (hl : l ∈ s.widthLanes n) (h : s.laneSt l ∉ [lnActive, lnIdle, lnDeep]) :
    s.linkTarget n = if s.get F.STALL_LINK_STATUS_FAULT_CAUSE n ≠ 0 then lsFault else lsDown := by
  simp only [List.mem_cons, List.not_mem_nil, or_false, not_or] at h
  have hall {x : Nat} (hx : s.laneSt l ≠ x) : ((s.widthLanes n).all fun l => s.laneSt l == x) = false :=
    List.all_eq_false.mpr ⟨l, hl, by simpa using hx⟩
  unfold State.linkTarget
  simp only [hall h.1, hall h.2.1, hall h.2.2, Bool.false_eq_true, if_false]

theorem evalLink_stState {s : State} {n : Nat} (hn : n < 16) (h : s.linkOn n = true) : (s.evalLink n).stState n = s.linkTarget n := by
  rw [evalLink_on hn h]
  exact setLink_stState s hn (linkTarget_lt s n)

/-- A link whose width is not all ACTIVE keeps its requests, their result and the cause of its fault. -/
theorem evalLink_not_up_keeps {s : State} {n l : Nat} (hn : n < 16) (hl : l ∈ s.widthLanes n) (ha : s.laneSt l ≠ lnActive) :
    (s.evalLink n).rd .STALL_LM_CTRL n = s.rd .STALL_LM_CTRL n ∧ ((s.evalLink n).stall n).link = (s.stall n).link ∧
      (s.evalLink n).get F.STALL_LINK_STATUS_FAULT_CAUSE n = s.get F.STALL_LINK_STATUS_FAULT_CAUSE n := by
  rcases evalLink_not_up hn hl ha with h | ⟨v, h⟩
  · rw [h]
    exact ⟨rfl, rfl, rfl⟩
  · refine ⟨(h.regs _ _ (by decide) (by omega)).trans (rd_wr_reg _ _ (by decide) (by omega) (by omega)), h.stalls n,
      (get_congr (h.regs _ _ (by decide) (by omega))).trans (get_put_beside _ F.STALL_LINK_STATUS_STATE _ _ _ rfl (by decide))⟩

/-! ### Retraining (R120, R130, R133) -/

theorem countRetrain_regsBut (s : State) (n : Nat) : RegsBut [(.STALL_LINK_COUNT, n)] s (s.countRetrain n) := by
  unfold State.countRetrain
  split
  · exact (RegsBut.refl _ s).inc _ (by simp)
  · exact .refl _ s

theorem countRetrain_frame (s : State) (n : Nat) : { s.countRetrain n with regs := s.regs } = s := by
  unfold State.countRetrain
  split <;> rfl

theorem countRetrain_stalls (s : State) (n : Nat) : (s.countRetrain n).stalls = s.stalls := (congrArg State.stalls (countRetrain_frame s n) :)

theorem countRetrain_sent (s : State) (n : Nat) : (s.countRetrain n).sent = s.sent := (congrArg State.sent (countRetrain_frame s n) :)

theorem countRetrain_laneSt (s : State) {n l : Nat} (hn : n < 2 ^ 20) (hl : l < 2 ^ 20) : (s.countRetrain n).laneSt l = s.laneSt l :=
  (countRetrain_regsBut s n).get_eq F.LANE_STATUS_STATE hl (by simpa using hn)

theorem countRetrain_sameLinks (s : State) {n : Nat} (hn : n < 2 ^ 20) : SameLinks s (s.countRetrain n) :=
  .of_regsBut (countRetrain_regsBut s n) (by simpa [Reg.ofLinks] using hn) (congrArg State.ctl (countRetrain_frame s n) :)
    fun m => congrArg Stall.goal (stall_congr (countRetrain_stalls s n) m)

end Machine
end Sys2Proof

/-! SUPPORT. Link management (R125 to R133, Table 3.18): what a write of STALL_LM_CTRL, a request, its result and its action do, and the
statement O7. -/

namespace Sys2Proof.Machine

/-! ### A write of STALL_LM_CTRL (Table 3.18) -/

/-- The state with `v` written to STALL_LM_CTRL, before GO acts. -/
def State.lmWritten (s : State) (n : Nat) (v : Word) : State :=
  s.wr .STALL_LM_CTRL n (writeFields .STALL_LM_CTRL (s.rd .STALL_LM_CTRL n) v allBytes)

/-- What a GO with the OP `op` does when no request is under way. -/
def State.goBy (s : State) (n : Nat) : Nat → State
  | 1 => s.goRetrain n
  | 3 => s.goWidth n
  | 4 => s.goRest n opIdle
  | 5 => s.goRest n opDeep
  | 6 => s.goExit n
  | _ => s.lmResult n .software lrIllegal

theorem bit_allBytes (v : Word) {k : Nat} (hk : k < 64) : bit (v &&& allBytes) k = bit v k := by
  unfold bit allBytes
  rw [BitVec.getLsbD_and, BitVec.getLsbD_allOnes, decide_eq_true hk, Bool.and_true]

section Written

variable (s : State) (n : Nat) (v : Word)

theorem lmWritten_regsBut : RegsBut [(.STALL_LM_CTRL, n)] s (s.lmWritten n v) := (RegsBut.refl _ s).wr _ List.mem_cons_self

theorem lmWritten_op : (s.lmWritten n v).get F.STALL_LM_CTRL_OP n = bits v 0 4 := by
  rw [State.get, State.lmWritten, rd_wr_same]
  exact bits_writeFields_rw _ _ (by decide) (by decide) (by decide)

theorem lmWritten_width : (s.lmWritten n v).get F.STALL_LM_CTRL_WIDTH n = bits v 4 2 := by
  rw [State.get, State.lmWritten, rd_wr_same]
  exact bits_writeFields_rw _ _ (by decide) (by decide) (by decide)

/-- GO is set by writing a 1. -/
theorem lmWritten_go (h : bit v 8 = true) : (s.lmWritten n v).get F.STALL_LM_CTRL_GO n = 1 := by
  have hw : bit (writeFields .STALL_LM_CTRL (s.rd .STALL_LM_CTRL n) v allBytes) 8 = true := by
    refine (getLsbD_writeFields (r := .STALL_LM_CTRL) (f := ⟨8, 1, .rw1s⟩) (by decide) (by decide) _ _ (by decide) (by decide)
      (by decide)).trans ?_
    have hv : v.getLsbD 8 = true := h
    simp [FTy.written, hv]
  rw [State.get, State.lmWritten, rd_wr_same, bits_one_eq_bit, hw]
  rfl

theorem bit_lmGo (op : Nat) : bit (lmGo v op) 8 = true := bit_setBits_same _ 1 (by decide)

theorem bits_lmGo_op {op : Nat} (h : op < 16) : bits (lmGo v op) 0 4 = op := by
  unfold lmGo
  rw [bits_setBits_other _ _ _ _ _ _ (by decide), bits_setBits_same _ _ _ _ (by decide)]
  exact Nat.mod_eq_of_lt h

theorem bits_lmGo_width (op : Nat) : bits (lmGo v op) 4 2 = bits v 4 2 := by
  unfold lmGo
  rw [bits_setBits_other _ _ _ _ _ _ (by decide), bits_setBits_other _ _ _ _ _ _ (by decide)]

variable {s n v}

theorem lmCtrlWrite_busy (hg : bit v 8 = true) (h : (s.stall n).lmBusy = true) :
    s.lmCtrlWrite n v allBytes = (s.lmWritten n v).lmResult n .software lrIllegal := by
  unfold State.lmCtrlWrite
  dsimp only
  rw [bit_allBytes v (by decide), hg, if_neg (by decide), if_pos h]
  rfl

/-- With no request under way GO acts by its OP. -/
theorem lmCtrlWrite_free (hg : bit v 8 = true) (h : (s.stall n).lmBusy = false) :
    s.lmCtrlWrite n v allBytes = (s.lmWritten n v).goBy n (bits v 0 4) := by
  unfold State.lmCtrlWrite
  dsimp only
  rw [bit_allBytes v (by decide), hg, if_neg (by decide), h, if_neg (by decide), ← lmWritten_op s n v]
  rfl

end Written

theorem lmWritten_sameLinks (s : State) {n : Nat} (hn : n < 2 ^ 20) (v : Word) : SameLinks s (s.lmWritten n v) :=
  .of_regsBut (lmWritten_regsBut s n v) (by simpa [Reg.ofLinks] using hn) rfl fun _ => rfl

theorem lmWritten_laneSt (s : State) {n l : Nat} (hn : n < 2 ^ 20) (hl : l < 2 ^ 20) (v : Word) : (s.lmWritten n v).laneSt l = s.laneSt l :=
  (lmWritten_regsBut s n v).get_eq F.LANE_STATUS_STATE hl (by simpa using hn)

theorem lmWritten_stState (s : State) {n : Nat} (hn : n < 2 ^ 20) (v : Word) : (s.lmWritten n v).stState n = s.stState n :=
  (lmWritten_regsBut s n v).get_eq F.STALL_LINK_STATUS_STATE hn (by simpa using hn)

/-! ### Results (R127, Table 3.18) -/

section Results

variable (s : State) {n : Nat} (r : Nat)

theorem lmResult_software (hn : n < 16) :
    s.lmResult n .software r = (s.put F.STALL_LM_CTRL_RESULT n r).put F.STALL_LM_CTRL_GO n 0 := if_pos ⟨rfl, hn⟩

theorem lmResult_regsBut (src : LmSource) : RegsBut [(.STALL_LM_CTRL, n)] s (s.lmResult n src r) := by
  unfold State.lmResult
  split
  · exact ((RegsBut.refl _ s).put F.STALL_LM_CTRL_RESULT _ List.mem_cons_self).put F.STALL_LM_CTRL_GO _ List.mem_cons_self
  · exact .refl _ s

theorem lmResult_frame (src : LmSource) : { s.lmResult n src r with regs := s.regs } = s := by
  unfold State.lmResult
  split <;> rfl

theorem lmResult_stall (src : LmSource) (m : Nat) : (s.lmResult n src r).stall m = s.stall m :=
  stall_congr (congrArg State.stalls (lmResult_frame s r src) :) m

theorem lmResult_result (hn : n < 16) (hr : r < 16) : (s.lmResult n .software r).get F.STALL_LM_CTRL_RESULT n = r := by
  rw [lmResult_software s r hn, get_put_beside _ F.STALL_LM_CTRL_GO F.STALL_LM_CTRL_RESULT _ _ rfl (by decide),
    get_put_same _ _ _ _ (by decide)]
  exact Nat.mod_eq_of_lt hr

theorem lmResult_go (hn : n < 16) : (s.lmResult n .software r).get F.STALL_LM_CTRL_GO n = 0 := by
  rw [lmResult_software s r hn]
  exact get_put_same _ _ _ _ (by decide)

theorem lmResult_laneSt (src : LmSource) {l : Nat} (hn : n < 2 ^ 20) (hl : l < 2 ^ 20) : (s.lmResult n src r).laneSt l = s.laneSt l :=
  (lmResult_regsBut s r src).get_eq F.LANE_STATUS_STATE hl (by simpa using hn)

theorem lmResult_stState (src : LmSource) (hn : n < 2 ^ 20) : (s.lmResult n src r).stState n = s.stState n :=
  (lmResult_regsBut s r src).get_eq F.STALL_LINK_STATUS_STATE hn (by simpa using hn)

theorem lmResult_sameLinks (src : LmSource) (hn : n < 2 ^ 20) : SameLinks s (s.lmResult n src r) :=
  .of_regsBut (lmResult_regsBut s r src) (by simpa [Reg.ofLinks] using hn) (congrArg State.ctl (lmResult_frame s r src) :)
    fun m => congrArg Stall.goal (lmResult_stall s r src m)

end Results

/-- A GO refused: RESULT is ILLEGAL, GO is 0, and nothing else has changed. -/
theorem lmWritten_illegal (s : State) {n : Nat} (hn : n < 16) (v : Word) :
    let t := (s.lmWritten n v).lmResult n .software lrIllegal
    t.get F.STALL_LM_CTRL_RESULT n = 6 ∧ t.get F.STALL_LM_CTRL_GO n = 0 ∧ OnlyRegs [(.STALL_LM_CTRL, n)] s t :=
  ⟨lmResult_result _ _ hn (by decide), lmResult_go _ _ hn,
    (congrArg (fun a : State => { a with regs := s.regs }) (lmResult_frame (s.lmWritten n v) lrIllegal .software) :),
    (lmWritten_regsBut s n v).trans (lmResult_regsBut _ _ _)⟩

/-! ### A request is sent (R127) -/

section Sends

variable (s : State) (n op width seq : Nat) (src : LmSource)

theorem lmSend_stalls : (s.lmSend n op width seq src).stalls = (s.modStall n fun x =>
    { x with nextMsg := ((s.stall n).nextMsg + 1) % 256, lm := some ⟨op, (s.stall n).nextMsg, width, seq, src, 1, s.now⟩ }).stalls := rfl

theorem lmSend_stall_same : (s.lmSend n op width seq src).stall n =
    { s.stall n with nextMsg := ((s.stall n).nextMsg + 1) % 256, lm := some ⟨op, (s.stall n).nextMsg, width, seq, src, 1, s.now⟩ } :=
  (stall_congr (lmSend_stalls ..) n).trans (stall_modStall_same s n _)

theorem lmSend_stall_other {m : Nat} (h : m ≠ n) : (s.lmSend n op width seq src).stall m = s.stall m :=
  (stall_congr (lmSend_stalls ..) m).trans (stall_modStall_other s _ h)

theorem lmSend_sent : (s.lmSend n op width seq src).sent = s.sent ++ [.linkMsg n (lmMsg op (s.stall n).nextMsg seq width 0)] := rfl

theorem lmSend_regs : (s.lmSend n op width seq src).regs = s.regs := rfl

theorem lmSend_lanes : (s.lmSend n op width seq src).lanes = s.lanes := rfl

end Sends

/-- GO with an OP that is sent at once: the request is outstanding and RESULT is PENDING. -/
theorem lmGo_sends (s : State) {n op : Nat} (v : Word) (hop : op < 16) :
    let t := ((s.lmWritten n (lmGo v op)).put F.STALL_LM_CTRL_RESULT n lrPending).lmSend n op 0 0 .software
    (t.stall n).lm = some ⟨op, (s.stall n).nextMsg, 0, 0, .software, 1, s.now⟩ ∧
      (t.stall n).nextMsg = ((s.stall n).nextMsg + 1) % 256 ∧ (∀ m, m ≠ n → t.stall m = s.stall m) ∧
      t.sent = s.sent ++ [.linkMsg n (lmMsg op (s.stall n).nextMsg 0 0 0)] ∧
      t.get F.STALL_LM_CTRL_RESULT n = 1 ∧ t.get F.STALL_LM_CTRL_GO n = 1 ∧ t.get F.STALL_LM_CTRL_OP n = op ∧
      RegsBut [(.STALL_LM_CTRL, n)] s t ∧ { t with regs := s.regs, stalls := s.stalls, sent := s.sent } = s := by
  intro t
  have hregs : t.regs = ((s.lmWritten n (lmGo v op)).put F.STALL_LM_CTRL_RESULT n lrPending).regs := lmSend_regs ..
  have hget : ∀ f : Fld, t.get f n = ((s.lmWritten n (lmGo v op)).put F.STALL_LM_CTRL_RESULT n lrPending).get f n := fun f =>
    get_congr (rd_congr hregs _ _)
  refine ⟨congrArg Stall.lm (lmSend_stall_same ..), congrArg Stall.nextMsg (lmSend_stall_same ..),
    fun m hm => lmSend_stall_other _ _ _ _ _ _ hm, lmSend_sent .., ?_, ?_, ?_, ?_, rfl⟩
  · rw [hget, get_put_same _ _ _ _ (by decide)]
    rfl
  · rw [hget, get_put_beside _ F.STALL_LM_CTRL_RESULT F.STALL_LM_CTRL_GO n _ rfl (by decide), lmWritten_go s n _ (bit_lmGo v op)]
  · rw [hget, get_put_beside _ F.STALL_LM_CTRL_RESULT F.STALL_LM_CTRL_OP n _ rfl (by decide), lmWritten_op, bits_lmGo_op v hop]
  · exact ((lmWritten_regsBut s n _).put F.STALL_LM_CTRL_RESULT _ List.mem_cons_self).trans (RegsBut.of_regs hregs _)

/-- With no request outstanding there is nothing to cancel. -/
theorem lmCancel_none {s : State} {n : Nat} (h : (s.stall n).lm = none) : s.lmCancel n = s := by
  unfold State.lmCancel
  rw [h]

/-! ### Widths sought (R131) -/

theorem tryWidth_ready {s : State} {n : Nat} {g : Nat × LmSource} (hg : (s.stall n).goal = some g) (hl : (s.stall n).lm = none)
    (hs : (s.stall n).switch = none) (hu : s.stUp n = true) (ha : ∀ l ∈ (s.linkLanes n).take (2 ^ g.1), s.laneSt l = lnActive) :
    s.tryWidth n = s.lmSend n opWidthChange g.1 (((s.stall n).rxSeq + 2) % 65536) g.2 := by
  have hall : ((s.linkLanes n).take (2 ^ g.1)).all (fun l => s.laneSt l == lnActive) = true := by simpa using ha
  unfold State.tryWidth
  rw [hg]
  dsimp only
  rw [hl, hs, hu, hall]
  rfl

/-- A width whose lanes are all ACTIVE on an UP stall is asked for at once. -/
theorem seekWidth_ready {s : State} {n w : Nat} (src : LmSource) (hl : (s.stall n).lm = none) (hs : (s.stall n).switch = none)
    (hu : s.stUp n = true) (ha : ∀ l ∈ (s.linkLanes n).take (2 ^ w), s.laneSt l = lnActive) :
    s.seekWidth n w src = (s.modStall n fun x => { x with goal := some (w, src) }).lmSend n opWidthChange w
      (((s.stall n).rxSeq + 2) % 65536) src := by
  unfold State.seekWidth
  dsimp only
  rw [eachLane_none fun l hl => ?_, tryWidth_ready (g := (w, src))]
  · rw [stall_modStall_same]
  · rw [stall_modStall_same]
  · rw [stall_modStall_same]
    exact hl
  · rw [stall_modStall_same]
    exact hs
  · exact hu
  · exact ha
  · have h5 : s.laneSt l = lnActive := ha l hl
    change s.laneSt l ∉ _
    rw [h5]
    decide

/-! ### Waking and opening a stall (R120, R132) -/

theorem setLink_up_sent (s : State) (n : Nat) : (s.setLink n lsUp).sent = s.sent := by
  by_cases h : s.stState n = lsUp
  · rw [setLink_same h]
  · rw [setLink_up h, linkUp_sent, put_sent]

/-- A DEEP stall that leaves DEEP sends nothing. -/
theorem evalLink_sent_of_deep {s : State} {n : Nat} (hn : n < 16) (h : s.stState n = lsDeep) : (s.evalLink n).sent = s.sent := by
  cases hon : s.linkOn n with
  | false => rw [evalLink_off hn hon]
  | true =>
    rw [evalLink_on hn hon]
    by_cases hu : s.linkTarget n = lsUp
    · rw [hu, setLink_up_sent]
    · by_cases he : s.stState n = s.linkTarget n
      · rw [setLink_same he]
      · rw [setLink_of_resting he (by rw [h]; decide) (by rw [h]; decide) hu, put_sent]

/-- An IDLE link's lanes become ACTIVE and its stall UP; nothing is sent. -/
theorem openPath_idle {s : State} {n : Nat} (hn : n < 16) (hon : s.linkOn n = true) (hi : ∀ l ∈ s.linkLanes n, s.laneSt l = lnIdle) :
    (s.openPath n).stState n = lsUp ∧ (∀ l ∈ s.linkLanes n, (s.openPath n).laneSt l = lnActive) ∧ (s.openPath n).sent = s.sent := by
  have hlt : ∀ l ∈ s.linkLanes n, l < 2 ^ 20 := fun l => linkLanes_lt (by omega)
  have honly : LanesOnly (s.linkLanes n) s (s.eachLane (s.linkLanes n) [lnIdle] State.toActive) :=
    eachLane_only fun a l => (toActive_enters a l).only
  have hact : ∀ l ∈ s.linkLanes n, (s.eachLane (s.linkLanes n) [lnIdle] State.toActive).laneSt l = lnActive := fun l hl => by
    rw [eachLane_laneSt toActive_enters (linkLanes_nodup s n) hl, hi l hl]
    rfl
  have hlinks := honly.sameLinks hlt
  have htarget : (s.eachLane (s.linkLanes n) [lnIdle] State.toActive).linkTarget n = lsUp :=
    linkTarget_all lnActive lsUp (by omega) (by decide) fun l hl => hact l (widthLanes_subset s n (hlinks.widthLanes (n := n) (by omega) ▸ hl))
  have hon' := (hlinks.linkOn n).trans hon
  unfold State.openPath
  refine ⟨(evalLink_stState hn hon').trans htarget, fun l hl => ?_, ?_⟩
  · exact ((evalLink_moves _ n).laneSt (hlt l hl)).trans (hact l hl)
  · rw [evalLink_on hn hon', htarget, setLink_up_sent, honly.sent]

/-- The resting lanes of a link that run wake when it starts. -/
theorem linkStart_wakes {s : State} {n l : Nat} (hn : n < 21) (hon : s.linkOn n = true) (ho : s.lanesOpen = true)
    (hl : l ∈ s.linkLanes n) (hst : s.laneSt l = lnDeep ∨ s.laneSt l = lnDisabled) (hown : s.ownerOf l = n) (hw : s.laneWanted l = true) :
    (s.linkStart n).laneSt l = lnWake := by
  have hl20 := linkLanes_lt hn hl
  obtain ⟨a, ha, -, ha2⟩ := eachLane_at (s := s) (from' := [lnDisabled, lnDeep]) laneStart_only (linkLanes_nodup s n) hl
  have hsame := ha.sameLinks fun k hk => linkLanes_lt hn (List.mem_of_mem_erase hk)
  have hwake : a.laneStart l = a.toWake l :=
    laneStart_wakes (by rw [hsame.ownerOf, hown, hsame.linkOn, hon]) (by rw [hsame.laneWanted hl20, hw]) (by rw [hsame.lanesOpen, ho])
  unfold State.linkStart
  rw [(evalLink_moves _ n).laneSt hl20]
  change (s.eachLane (s.linkLanes n) [lnDisabled, lnDeep] State.laneStart).laneSt l = lnWake
  rw [if_pos (by rcases hst with h | h <;> simp [h]), hwake] at ha2
  rw [ha2.laneSt (linkLanes_nodup s n).not_mem_erase, (toWake_enters a l).state]

theorem linkStart_sent_of_deep {s : State} {n : Nat} (hn : n < 16) (h : s.stState n = lsDeep) : (s.linkStart n).sent = s.sent := by
  have honly : LanesOnly (s.linkLanes n) s (s.eachLane (s.linkLanes n) [lnDisabled, lnDeep] State.laneStart) := eachLane_only laneStart_only
  unfold State.linkStart
  rw [evalLink_sent_of_deep hn, modStall_sent, honly.sent]
  exact (honly.stState (fun l => linkLanes_lt (by omega)) (by omega)).trans h

/-! ### Retraining and its spares (R130, R131) -/

/-- A retrain trains the ACTIVE lanes that its mask selects, all of them where it selects none. -/
theorem retrain_laneSt {s : State} {n l : Nat} (mask : Nat) (hn : n < 21) (hl : l ∈ s.linkLanes n) :
    (s.retrain n mask).laneSt l =
      if s.laneSt l = lnActive ∧ (mask = 0 ∨ mask.testBit (s.laneIdx l) = true) then lnTrain else s.laneSt l := by
  have hl20 := linkLanes_lt hn hl
  have hsel : ((mask == 0 || (mask >>> s.laneIdx l) % 2 == 1) = true) = (mask = 0 ∨ mask.testBit (s.laneIdx l) = true) := by
    simp [Nat.testBit_eq_decide_div_mod_eq, Nat.shiftRight_eq_div_pow]
  unfold State.retrain
  dsimp only
  rw [(evalLink_moves _ n).laneSt hl20, countRetrain_laneSt _ (by omega) hl20]
  by_cases hm : mask = 0 ∨ mask.testBit (s.laneIdx l) = true
  · rw [eachLane_laneSt (fun a k => toTrain_enters a k true) ((linkLanes_nodup s n).filter _) (List.mem_filter.mpr ⟨hl, by rw [hsel]; exact hm⟩)]
    simp [hm]
  · have honly := eachLane_only (s := s) (ls := (s.linkLanes n).filter fun l => mask == 0 || (mask >>> s.laneIdx l) % 2 == 1)
      (from' := [lnActive]) fun a k => (toTrain_enters a k true).only
    rw [if_neg (fun h => hm h.2), honly.laneSt fun h => hm (hsel ▸ (List.mem_filter.mp h).2)]

/-- A retrain of every lane leaves no lane of the width ACTIVE, and so keeps the stall's management and its result. -/
theorem retrain_all_keeps {s : State} {n : Nat} (hn : n < 16) :
    (s.retrain n 0).rd .STALL_LM_CTRL n = s.rd .STALL_LM_CTRL n ∧ ((s.retrain n 0).stall n).link = (s.stall n).link := by
  have hlanes : ((s.linkLanes n).filter fun l => (0 == 0 || (0 >>> s.laneIdx l) % 2 == 1)) = s.linkLanes n := by simp
  have honly : LanesOnly (s.linkLanes n) s (s.eachLane (s.linkLanes n) [lnActive] fun a l => a.toTrain l true) :=
    eachLane_only fun a k => (toTrain_enters a k true).only
  have hlt : ∀ l ∈ s.linkLanes n, l < 2 ^ 20 := fun l => linkLanes_lt (by omega)
  have hmem := mem_widthLanes s (n := n) (by omega)
  have hsame : SameLinks s ((s.eachLane (s.linkLanes n) [lnActive] fun a l => a.toTrain l true).countRetrain n) :=
    (honly.sameLinks hlt).trans (countRetrain_sameLinks _ (by omega))
  obtain ⟨hrd, hlink, -⟩ := evalLink_not_up_keeps (l := 2 * n)
    (s := (s.eachLane (s.linkLanes n) [lnActive] fun a l => a.toTrain l true).countRetrain n) hn
    (by rw [hsame.widthLanes (by omega)]; exact hmem) (by
      rw [countRetrain_laneSt _ (by omega) (by omega), eachLane_laneSt (fun a k => toTrain_enters a k true) (linkLanes_nodup s n)
        (widthLanes_subset s n hmem)]
      split
      · decide
      · next h => exact fun e => h (by simp [e]))
  unfold State.retrain
  rw [hlanes]
  refine ⟨hrd.trans ?_, hlink.trans ?_⟩
  · rw [(countRetrain_regsBut _ n).rd_eq (by omega) (by simp; omega), honly.rd hlt (by decide) (by omega)]
  · rw [stall_congr (countRetrain_stalls _ n), honly.stall]

theorem foldl_followSpare_only (s : State) (ls : List Nat) : LanesOnly ls s (ls.foldl State.followSpare s) := foldl_only followSpare_only

end Sys2Proof.Machine

/-! SUPPORT. The statement O7: what GO does for each OP, and what silence does to a request (R127, R130 to R132, R140). -/

namespace Sys2Proof.Machine

theorem lmBusy_eq_false {x : Stall} : x.lmBusy = false ↔ x.lm = none ∧ x.goal = none ∧ x.switch = none ∧ x.retrainDue = false := by
  simp [Stall.lmBusy, and_assoc]

/-- A GO with the OP `op` that meets no request under way. -/
theorem lmCtrlWrite_lmGo {s : State} {n op : Nat} (v : Word) (hop : op < 16) (h : (s.stall n).lmBusy = false) :
    s.lmCtrlWrite n (lmGo v op) allBytes = (s.lmWritten n (lmGo v op)).goBy n op := by
  rw [lmCtrlWrite_free (bit_lmGo v op) h, bits_lmGo_op v hop]

/-! ### GO with WIDTH_CHANGE (R131) -/

section WidthChange

variable {s : State} {n : Nat} {v : Word} (hn : n < 16)
include hn

theorem lmWritten_maxCode (v : Word) : (s.lmWritten n v).maxCode n = s.get F.STALL_LINK_CFG_MAX_WIDTH n :=
  ((lmWritten_sameLinks s (by omega) v).maxCode (by omega)).trans (if_neg (by unfold cwLink; omega))

/-- The width that a GO names. -/
theorem goWidth_lmWritten : (s.lmWritten n (lmGo v 3)).goWidth n =
    if s.get F.STALL_LINK_CFG_MAX_WIDTH n < bits v 4 2 then (s.lmWritten n (lmGo v 3)).lmResult n .software lrIllegal
    else ((s.lmWritten n (lmGo v 3)).put F.STALL_LM_CTRL_RESULT n lrPending).seekWidth n (bits v 4 2) .software := by
  unfold State.goWidth
  rw [lmWritten_width, bits_lmGo_width, lmWritten_maxCode hn]

/-- A width whose lanes are all ACTIVE is asked for at once, two markers ahead. -/
theorem goWidth_sends (hbusy : (s.stall n).lmBusy = false) (hmax : bits v 4 2 ≤ s.get F.STALL_LINK_CFG_MAX_WIDTH n) (hup : s.stUp n = true)
    (hact : ∀ l ∈ (s.linkLanes n).take (2 ^ bits v 4 2), s.laneSt l = lnActive) :
    let t := (s.lmWritten n (lmGo v 3)).goWidth n
    (t.stall n).lm = some ⟨3, (s.stall n).nextMsg, bits v 4 2, ((s.stall n).rxSeq + 2) % 65536, .software, 1, s.now⟩ ∧
      t.sent = s.sent ++ [.linkMsg n (lmMsg 3 (s.stall n).nextMsg (((s.stall n).rxSeq + 2) % 65536) (bits v 4 2) 0)] ∧
      t.get F.STALL_LM_CTRL_RESULT n = 1 ∧ RegsBut [(.STALL_LM_CTRL, n)] s t ∧
      { t with regs := s.regs, stalls := s.stalls, sent := s.sent } = s := by
  obtain ⟨hlm, -, hsw, -⟩ := lmBusy_eq_false.1 hbusy
  let p := (s.lmWritten n (lmGo v 3)).put F.STALL_LM_CTRL_RESULT n lrPending
  have hregs : RegsBut [(.STALL_LM_CTRL, n)] s p := (lmWritten_regsBut s n _).put F.STALL_LM_CTRL_RESULT _ List.mem_cons_self
  have hlinks : SameLinks s p := .of_regsBut hregs (by simpa [Reg.ofLinks] using by omega) rfl fun _ => rfl
  have hlane : ∀ l, l < 2 ^ 20 → p.laneSt l = s.laneSt l := fun l hl => hregs.get_eq F.LANE_STATUS_STATE hl (by simpa using by omega)
  have hst : p.stUp n = s.stUp n := congrArg (· == lsUp) (hregs.get_eq F.STALL_LINK_STATUS_STATE (by omega) (by simpa using by omega))
  have hseek := seekWidth_ready (s := p) (w := bits v 4 2) .software hlm hsw (hst.trans hup) fun l hl => by
    rw [hlinks.linkLanes (by omega)] at hl
    exact (hlane l (linkLanes_lt (by omega) (List.mem_of_mem_take hl))).trans (hact l hl)
  have ht : (s.lmWritten n (lmGo v 3)).goWidth n = (p.modStall n fun x => { x with goal := some (bits v 4 2, .software) }).lmSend n
      opWidthChange (bits v 4 2) (((s.stall n).rxSeq + 2) % 65536) .software := by
    rw [goWidth_lmWritten hn, if_neg (by omega)]
    exact hseek
  have hid : ((p.modStall n fun x => { x with goal := some (bits v 4 2, .software) }).stall n).nextMsg = (s.stall n).nextMsg :=
    (congrArg Stall.nextMsg (stall_modStall_same p n _)).trans rfl
  intro t
  have htr : t.regs = p.regs := (congrArg State.regs ht).trans (lmSend_regs ..)
  refine ⟨?_, ?_, ?_, hregs.trans (.of_regs htr _), ?_⟩
  · rw [show t = _ from ht, lmSend_stall_same, hid]
    rfl
  · rw [show t = _ from ht, lmSend_sent, hid]
    rfl
  · rw [get_congr (rd_congr htr _ _), get_put_same _ _ _ _ (by decide)]
    rfl
  · rw [show t = _ from ht]
    rfl

end WidthChange

/-! ### GO with EXIT (R132) -/

/-- From IDLE the notice goes out and the stall opens. -/
theorem goExit_idle {s : State} {n : Nat} (hn : n < 16) (hon : s.linkOn n = true) (hst : s.stState n = lsIdle)
    (hidle : ∀ l ∈ s.linkLanes n, s.laneSt l = lnIdle) :
    (s.goExit n).stState n = lsUp ∧ (∀ l ∈ s.linkLanes n, (s.goExit n).laneSt l = lnActive) ∧
      (s.goExit n).sent = s.sent ++ [.linkMsg n (lmMsg 6 (s.stall n).nextMsg 0 0 0)] ∧
      (s.goExit n).get F.STALL_LM_CTRL_RESULT n = 2 ∧ (s.goExit n).get F.STALL_LM_CTRL_GO n = 0 := by
  obtain ⟨hup, hact, hsent⟩ := openPath_idle (s := (s.modStall n fun x => { x with nextMsg := ((s.stall n).nextMsg + 1) % 256 }).emit
    (.linkMsg n (lmMsg opExit (s.stall n).nextMsg 0 0 0))) hn hon hidle
  unfold State.goExit
  rw [hst, if_neg (by decide)]
  refine ⟨(lmResult_stState _ _ _ (by omega)).trans hup, fun l hl => ?_, (lmResult_sent ..).trans hsent,
    lmResult_result _ _ hn (by decide), lmResult_go _ _ hn⟩
  exact (lmResult_laneSt _ _ _ (by omega) (linkLanes_lt (by omega) hl)).trans (hact l hl)

/-- From DEEP nothing is sent and the lanes that run wake. -/
theorem goExit_deep {s : State} {n : Nat} (hn : n < 16) (hon : s.linkOn n = true) (hst : s.stState n = lsDeep) (hopen : s.lanesOpen = true) :
    (s.goExit n).get F.STALL_LM_CTRL_RESULT n = 2 ∧ (s.goExit n).sent = s.sent ∧
      ∀ l ∈ s.linkLanes n, s.laneSt l = lnDeep → s.ownerOf l = n → s.laneWanted l = true → (s.goExit n).laneSt l = lnWake := by
  unfold State.goExit
  rw [if_pos hst]
  refine ⟨lmResult_result _ _ hn (by decide), (lmResult_sent ..).trans (linkStart_sent_of_deep hn hst), fun l hl hd ho hw => ?_⟩
  exact (lmResult_laneSt _ _ _ (by omega) (linkLanes_lt (by omega) hl)).trans (linkStart_wakes (by omega) hon hopen hl (.inl hd) ho hw)

/-! ### Silence (R127) -/

/-- The state once a request that was not answered has ended with the result `res`. -/
def State.lmEnded (s : State) (n res : Nat) : State := (s.modStall n fun x => { x with lm := none, goal := none }).lmResult n .software res

section Ended

variable (s : State) {n : Nat} (res : Nat)

theorem lmEnded_stall : (s.lmEnded n res).stall n = { s.stall n with lm := none, goal := none } := by
  rw [State.lmEnded, lmResult_stall, stall_modStall_same]

theorem lmEnded_linkLanes (hn : n < 16) : (s.lmEnded n res).linkLanes n = s.linkLanes n :=
  (lmResult_sameLinks _ _ _ (by omega)).linkLanes (by omega)

theorem lmEnded_laneSt (hn : n < 16) {l : Nat} (hl : l < 2 ^ 20) : (s.lmEnded n res).laneSt l = s.laneSt l :=
  lmResult_laneSt _ _ _ (by omega) hl

variable {s res}

/-- What leaves STALL_LM_CTRL and the stall's management as the end left them shows the result. -/
theorem lmEnded_shows {t : State} (hn : n < 16) (hres : res < 16) (hr : t.rd .STALL_LM_CTRL n = (s.lmEnded n res).rd .STALL_LM_CTRL n)
    (hk : (t.stall n).link = ((s.lmEnded n res).stall n).link) :
    (t.stall n).lm = none ∧ (t.stall n).goal = none ∧ t.get F.STALL_LM_CTRL_RESULT n = res ∧ t.get F.STALL_LM_CTRL_GO n = 0 := by
  rw [lmEnded_stall] at hk
  exact ⟨congrArg LinkPart.lm hk, congrArg LinkPart.goal hk,
    (get_congr (f := F.STALL_LM_CTRL_RESULT) hr).trans (lmResult_result _ _ hn hres),
    (get_congr (f := F.STALL_LM_CTRL_GO) hr).trans (lmResult_go _ _ hn)⟩

end Ended

/-- Lanes that follow KEEP_SPARE leave STALL_LM_CTRL and every stall's management. -/
theorem followSpares_keep (s : State) {n : Nat} (hn : n < 16) :
    (((s.linkLanes n).foldl State.followSpare s).rd .STALL_LM_CTRL n = s.rd .STALL_LM_CTRL n) ∧
      ((((s.linkLanes n).foldl State.followSpare s).stall n).link = (s.stall n).link) := by
  have h := foldl_followSpare_only s (s.linkLanes n)
  exact ⟨h.rd (fun l => linkLanes_lt (by omega)) (by decide) (by omega), congrArg Stall.link (h.stall n)⟩

/-- A request that has been sent three times ends TIMEOUT, and a RETRAIN is carried out. -/
theorem lmResponseTimeout_ends {s : State} {n : Nat} {r : LmReq} (hn : n < 16) :
    let t := if r.op = opRetrain then (s.lmEnded n lrTimeout).retrain n 0
      else ((s.lmEnded n lrTimeout).linkLanes n).foldl State.followSpare (s.lmEnded n lrTimeout)
    (t.stall n).lm = none ∧ (t.stall n).goal = none ∧ t.get F.STALL_LM_CTRL_RESULT n = 4 ∧ t.get F.STALL_LM_CTRL_GO n = 0 ∧
      (r.op = 1 → ∀ l ∈ s.linkLanes n, s.laneSt l = lnActive → t.laneSt l = lnTrain) := by
  by_cases hop : r.op = opRetrain
  · obtain ⟨hr, hk⟩ := retrain_all_keeps (s := s.lmEnded n lrTimeout) hn
    obtain ⟨h1, h2, h3, h4⟩ := lmEnded_shows hn (by decide) hr hk
    rw [if_pos hop]
    refine ⟨h1, h2, h3, h4, fun _ l hl ha => ?_⟩
    rw [retrain_laneSt 0 (by omega) (by rwa [lmEnded_linkLanes s _ hn]), lmEnded_laneSt s _ hn (linkLanes_lt (by omega) hl), ha]
    rfl
  · obtain ⟨hr, hk⟩ := followSpares_keep (s.lmEnded n lrTimeout) hn
    obtain ⟨h1, h2, h3, h4⟩ := lmEnded_shows hn (by decide) hr hk
    rw [if_neg hop]
    exact ⟨h1, h2, h3, h4, fun h => absurd h hop⟩

/-! ### The statement O7 -/

/-- Each GO that meets no request under way acts by its OP. -/
theorem exec_lmGo (n : Fin 16) (v : Word) {s : State} (hbusy : (s.stall n).lmBusy = false) :
    ∀ p ∈ ([(.lmRetrain n v, 1), (.lmWidthChange n v, 3), (.lmEnterIdle n v, 4), (.lmEnterDeep n v, 5), (.lmExit n v, 6)] :
      List (Instr × Nat)), exec p.1 s = .next ((s.lmWritten n (lmGo v p.2)).goBy n p.2) := by
  have hgo (op : Nat) (h : op < 16) := congrArg (fun a : State => (.next a : Result)) (lmCtrlWrite_lmGo v h hbusy)
  simp only [List.mem_cons, List.not_mem_nil, or_false, forall_eq_or_imp, forall_eq]
  exact ⟨hgo 1 (by decide), hgo 3 (by decide), hgo 4 (by decide), hgo 5 (by decide), hgo 6 (by decide)⟩

/-- RETRAIN, ENTER_IDLE and ENTER_DEEP are sent at once, RETRAIN unless a camera's is being carried out. -/
theorem goBy_sends {s : State} {n op : Nat} (hop : op = 1 ∨ op = 4 ∨ op = 5) (hc : op = 1 → (s.stall n).camRetrain = false) :
    s.goBy n op = (s.put F.STALL_LM_CTRL_RESULT n lrPending).lmSend n op 0 0 .software := by
  rcases hop with rfl | rfl | rfl
  · exact if_neg (by simp [hc rfl])
  · rfl
  · rfl

/-- A RETRAIN waits for the camera's. -/
theorem goRetrain_waits {s : State} {n : Nat} (hc : (s.stall n).camRetrain = true) :
    s.goRetrain n = (s.put F.STALL_LM_CTRL_RESULT n lrPending).modStall n fun x => { x with retrainDue := true } := if_pos hc

/-- A GO whose OP has no meaning. -/
theorem goBy_illegal (s : State) (n : Nat) {op : Nat} (h : op ∉ [1, 3, 4, 5, 6]) : s.goBy n op = s.lmResult n .software lrIllegal := by
  unfold State.goBy
  split
  case h_6 => rfl
  all_goals simp at h

/-- A camera's RETRAIN under way: RESULT is PENDING and nothing is sent. -/
theorem lmRetrain_waits (n : Fin 16) (v : Word) {s : State} (hbusy : (s.stall n).lmBusy = false) (hc : (s.stall n).camRetrain = true) :
    ∃ t, exec (.lmRetrain n v) s = .next t ∧ (t.stall n).retrainDue = true ∧ (t.stall n).lm = none ∧ t.sent = s.sent ∧
      t.get F.STALL_LM_CTRL_RESULT n = 1 ∧ t.get F.STALL_LM_CTRL_GO n = 1 ∧ RegsBut [(.STALL_LM_CTRL, n.val)] s t := by
  obtain ⟨hlm, -, -, -⟩ := lmBusy_eq_false.1 hbusy
  let p := (s.lmWritten n (lmGo v 1)).put F.STALL_LM_CTRL_RESULT n lrPending
  have hexec : exec (.lmRetrain n v) s = .next (p.modStall n fun x => { x with retrainDue := true }) :=
    (exec_lmGo n v hbusy (_, 1) List.mem_cons_self).trans (congrArg _ (goRetrain_waits hc))
  have hst : p.stall n = s.stall n := rfl
  have hget (f : Fld) : (p.modStall n fun x => { x with retrainDue := true }).get f n = p.get f n := rfl
  refine ⟨_, hexec, by rw [stall_modStall_same], by rw [stall_modStall_same, hst, hlm], rfl, ?_, ?_, ?_⟩
  · rw [hget, get_put_same _ _ _ _ (by decide)]
    rfl
  · rw [hget, get_put_beside _ F.STALL_LM_CTRL_RESULT F.STALL_LM_CTRL_GO _ _ rfl (by decide), lmWritten_go _ _ _ (bit_lmGo v 1)]
  · exact ((lmWritten_regsBut s n _).put F.STALL_LM_CTRL_RESULT _ List.mem_cons_self).trans (.of_regs (modStall_regs ..) _)

/-- An EXIT of an IDLE stall. -/
theorem lmExit_idle (n : Fin 16) (v : Word) {s : State} (hbusy : (s.stall n).lmBusy = false) (hon : s.linkOn n = true)
    (hst : s.stState n = lsIdle) (hidle : ∀ l ∈ s.linkLanes n, s.laneSt l = lnIdle) :
    ∃ t, exec (.lmExit n v) s = .next t ∧ t.stState n = lsUp ∧ (∀ l ∈ s.linkLanes n, t.laneSt l = lnActive) ∧
      t.sent = s.sent ++ [.linkMsg n (lmMsg 6 (s.stall n).nextMsg 0 0 0)] ∧
      t.get F.STALL_LM_CTRL_RESULT n = 2 ∧ t.get F.STALL_LM_CTRL_GO n = 0 := by
  have hn : n.val < 2 ^ 20 := by omega
  have hlinks := lmWritten_sameLinks s hn (lmGo v 6)
  obtain ⟨h1, h2, h3, h4, h5⟩ := goExit_idle (s := s.lmWritten n (lmGo v 6)) n.isLt ((hlinks.linkOn n).trans hon)
    ((lmWritten_stState s hn _).trans hst) fun l hl => by
      rw [hlinks.linkLanes hn] at hl
      exact (lmWritten_laneSt s hn (linkLanes_lt (by omega) hl) _).trans (hidle l hl)
  rw [hlinks.linkLanes hn] at h2
  exact ⟨_, exec_lmGo n v hbusy (_, 6) (by simp), h1, h2, h3, h4, h5⟩

/-- An EXIT of a DEEP stall. -/
theorem lmExit_deep (n : Fin 16) (v : Word) {s : State} (hbusy : (s.stall n).lmBusy = false) (hon : s.linkOn n = true)
    (hst : s.stState n = lsDeep) (hopen : s.lanesOpen = true) :
    ∃ t, exec (.lmExit n v) s = .next t ∧ t.get F.STALL_LM_CTRL_RESULT n = 2 ∧ t.sent = s.sent ∧
      ∀ l ∈ s.linkLanes n, s.laneSt l = lnDeep → s.ownerOf l = n → s.laneWanted l = true → t.laneSt l = lnWake := by
  have hn : n.val < 2 ^ 20 := by omega
  have hlinks := lmWritten_sameLinks s hn (lmGo v 6)
  obtain ⟨h1, h2, h3⟩ := goExit_deep (s := s.lmWritten n (lmGo v 6)) n.isLt ((hlinks.linkOn n).trans hon)
    ((lmWritten_stState s hn _).trans hst) (hlinks.lanesOpen.trans hopen)
  refine ⟨_, exec_lmGo n v hbusy (_, 6) (by simp), h1, h2, fun l hl hd ho hw => ?_⟩
  have hl20 := linkLanes_lt (by omega) hl
  exact h3 l (by rwa [hlinks.linkLanes hn]) ((lmWritten_laneSt s hn hl20 _).trans hd) ((hlinks.ownerOf l).trans ho)
    ((hlinks.laneWanted hl20).trans hw)

/-- Every GO while a request is under way is refused. -/
theorem exec_lmGo_busy (n : Fin 16) (v : Word) {s : State} (hbusy : (s.stall n).lmBusy = true) :
    ∀ c ∈ ([.lmIllegalOp n v, .lmRetrain n v, .lmWidthChange n v, .lmEnterIdle n v, .lmEnterDeep n v, .lmExit n v] : List Instr),
      ∃ w, exec c s = .next ((s.lmWritten n w).lmResult n .software lrIllegal) := by
  have hgo {w : Word} (h : bit w 8 = true) := congrArg (fun a : State => (.next a : Result)) (lmCtrlWrite_busy h hbusy)
  simp only [List.mem_cons, List.not_mem_nil, or_false, forall_eq_or_imp, forall_eq]
  exact ⟨⟨_, hgo (bit_setBits_same _ 1 (by decide))⟩, ⟨_, hgo (bit_lmGo v 1)⟩, ⟨_, hgo (bit_lmGo v 3)⟩, ⟨_, hgo (bit_lmGo v 4)⟩,
    ⟨_, hgo (bit_lmGo v 5)⟩, ⟨_, hgo (bit_lmGo v 6)⟩⟩

/-- An unanswered request goes out again, at the time it is due. -/
def State.lmAgain (s : State) (n : Nat) (r : LmReq) (due : Nat) : State :=
  ((s.reach due).modStall n fun x => { x with lm := some { r with sent := r.sent + 1, since := (s.reach due).now } }).emit
    (.linkMsg n (lmMsg r.op r.id r.seq r.width 0))

theorem lmAgain_stall (s : State) (n : Nat) (r : LmReq) (due : Nat) :
    ((s.lmAgain n r due).stall n).lm = some { r with sent := r.sent + 1, since := max s.now due } := by
  rw [stall_congr (t := s.lmAgain n r due) (emit_stalls ..), stall_modStall_same]
  rfl

theorem lmAgain_sent (s : State) (n : Nat) (r : LmReq) (due : Nat) :
    (s.lmAgain n r due).sent = s.sent ++ [.linkMsg n (lmMsg r.op r.id r.seq r.width 0)] := rfl

theorem lmAgain_now (s : State) (n : Nat) (r : LmReq) (due : Nat) : (s.lmAgain n r due).now = max s.now due := rfl

theorem lmAgain_frame (s : State) (n : Nat) (r : LmReq) (due : Nat) :
    { s.lmAgain n r due with stalls := s.stalls, sent := s.sent, tb := s.tb } = s := by
  unfold State.lmAgain State.emit State.modStall State.reach
  rfl

theorem exec_lmResponseTimeout (n : Fin 21) {r : LmReq} {s : State} (hr : (s.stall n).lm = some r) :
    exec (.lmResponseTimeout n) s = .next (if r.sent < 3 then s.lmAgain n r (r.since + 16000) else
      let s2 := ((s.reach (r.since + 16000)).modStall n fun x => { x with lm := none, goal := none }).lmResult n r.src lrTimeout
      if r.op = opRetrain then s2.retrain n 0
      else if r.src = .modes then s2.linkDeep n drivenLanes
      else (s2.linkLanes n).foldl State.followSpare s2) := by
  change execLmResponseTimeout n s = _
  unfold execLmResponseTimeout
  rw [hr]
  dsimp only
  generalize r.since + 16000 = due
  rfl

/-- Settles O7 (R125 to R133, Table 3.18): GO acts by its OP on the state with STALL_LM_CTRL written (`exec_lmGo`), or is refused; an
unanswered request is sent again or ends (`lmResponseTimeout_ends`). -/
theorem linkManagementRequestsAreSentAndRepeated : Obligations.LinkManagementRequestsAreSentAndRepeated := by
  refine ⟨fun n v s hbusy => ⟨fun p hp hc => ?_, lmRetrain_waits n v hbusy, fun hmax => ?_, fun hmax hup hact => ?_, lmExit_idle n v hbusy,
    lmExit_deep n v hbusy, fun hop => ?_⟩, fun n v s hbusy c hc => ?_, fun n s hr => ?_, fun n r s hr h3 => ?_, fun n r s hr h3 hsrc => ?_⟩
  · have hgo := exec_lmGo n v hbusy p (by simp only [List.mem_cons] at hp ⊢; tauto)
    have hop : p.2 = 1 ∨ p.2 = 4 ∨ p.2 = 5 := by
      simp only [List.mem_cons, List.not_mem_nil, or_false] at hp
      rcases hp with rfl | rfl | rfl <;> simp
    rw [goBy_sends (s := s.lmWritten n (lmGo v p.2)) hop hc] at hgo
    exact ⟨_, hgo, lmGo_sends s v (by omega)⟩
  · have hgo := exec_lmGo n v hbusy (.lmWidthChange n v, 3) (by simp)
    exact ⟨_, hgo.trans (congrArg _ ((goWidth_lmWritten n.isLt).trans (if_pos hmax))), lmWritten_illegal s n.isLt _⟩
  · exact ⟨_, exec_lmGo n v hbusy (.lmWidthChange n v, 3) (by simp), goWidth_sends n.isLt hbusy hmax hup hact⟩
  · have hbits : bits (setBits v 8 1 1) 0 4 = bits v 0 4 := bits_setBits_other _ _ _ _ _ _ (by decide)
    have hgo := lmCtrlWrite_free (s := s) (n := n) (bit_setBits_same v 1 (k := 8) (by decide)) hbusy
    rw [hbits, goBy_illegal _ _ hop] at hgo
    exact ⟨_, congrArg (fun a : State => (.next a : Result)) hgo, lmWritten_illegal s n.isLt _⟩
  · obtain ⟨w, hw⟩ := exec_lmGo_busy n v hbusy c hc
    exact ⟨_, hw, lmWritten_illegal s n.isLt w⟩
  · change execLmResponseTimeout n s = .next s
    unfold execLmResponseTimeout
    rw [hr]
  · exact ⟨_, (exec_lmResponseTimeout n hr).trans (congrArg _ (if_pos h3)), lmAgain_stall .., lmAgain_sent .., lmAgain_now ..,
      lmAgain_frame ..⟩
  · have hx := exec_lmResponseTimeout (n.castLE (by decide)) hr
    rw [if_neg (by omega), hsrc] at hx
    exact ⟨_, hx, lmResponseTimeout_ends (s := s.reach (r.since + 16000)) n.isLt⟩

end Sys2Proof.Machine

/-! SUPPORT. Link-management messages received (R126 to R133, R701, R702): what a message that passes its checks does, and the
statements O8 and O9. -/

namespace Sys2Proof.Machine

/-! ### A message and its checks -/

section Checked

variable {s u : State} {n : Nat} {msg : Word} {crc : BitVec 32} {e : Bool}

theorem lmTake_refused (h : s.lmCheck n msg crc.toNat e = (false, u)) (f : State → State) : s.lmTake n msg crc e f = .next u := by
  unfold State.lmTake
  rw [h]
  rfl

theorem lmTake_taken (h : s.lmCheck n msg crc.toNat e = (true, u)) (f : State → State) : s.lmTake n msg crc e f = .next (f u) := by
  unfold State.lmTake
  rw [h]
  rfl

end Checked

/-! ### Answers (R126, R128, R141) -/

/-- What STALL_LM_CAMREQ shows of a request. -/
def camReqWord (msg : Word) (reason : Nat) : Word :=
  field 0 8 (bits msg 0 8) ||| field 8 2 (bits msg 32 2) ||| field 16 8 reason ||| field 31 1 1

section CamReq

variable (msg : Word) {reason : Nat}

theorem bits_camReqWord_op : bits (camReqWord msg reason) 0 8 = bits msg 0 8 := by
  unfold camReqWord
  rw [bits_or_mask (bits_field_apart _ (by decide)), bits_or_mask (bits_field_apart _ (by decide)),
    bits_or_mask (bits_field_apart _ (by decide)), bits_field_same _ _ _ (by decide)]
  exact Nat.mod_eq_of_lt (bits_lt msg 0 8)

theorem bits_camReqWord_width : bits (camReqWord msg reason) 8 2 = bits msg 32 2 := by
  unfold camReqWord
  rw [bits_or_mask (bits_field_apart _ (by decide)), bits_or_mask (bits_field_apart _ (by decide)),
    bits_or_zero (bits_field_apart _ (by decide)), bits_field_same _ _ _ (by decide)]
  exact Nat.mod_eq_of_lt (bits_lt msg 32 2)

theorem bits_camReqWord_reason (h : reason < 256) : bits (camReqWord msg reason) 16 8 = reason := by
  unfold camReqWord
  rw [bits_or_mask (bits_field_apart _ (by decide)),
    bits_or_zero ((bits_or_mask (bits_field_apart _ (by decide))).trans (bits_field_apart _ (by decide))), bits_field_same _ _ _ (by decide)]
  exact Nat.mod_eq_of_lt h

theorem bit_camReqWord_valid : bit (camReqWord msg reason) 31 = true := by
  unfold camReqWord bit
  rw [BitVec.getLsbD_or, getLsbD_field 31 1 1]
  simp

theorem camReq_eq (s : State) {n : Nat} (hn : n < 16) (reason : Nat) :
    s.camReq n msg reason = s.wr .STALL_LM_CAMREQ n (camReqWord msg reason) := if_pos hn

/-- A NAK is sent and recorded. -/
theorem camReq_naks (s : State) {n : Nat} (hn : n < 16) (hr : reason < 256) :
    let t := (s.lmReply n opNak (bits msg 8 8) reason).camReq n msg reason
    t.sent = s.sent ++ [.linkMsg n (lmMsg 0x81 (bits msg 8 8) 0 0 reason)] ∧ bits (t.rd .STALL_LM_CAMREQ n) 16 8 = reason ∧
      RegsBut [(.STALL_LM_CAMREQ, n)] s t ∧ { t with regs := s.regs, sent := s.sent } = s := by
  rw [camReq_eq msg _ hn]
  refine ⟨rfl, by rw [rd_wr_same, bits_camReqWord_reason msg hr], ?_, rfl⟩
  exact (RegsBut.of_regs (s := s) (t := s.lmReply n opNak (bits msg 8 8) reason) rfl _).wr _ List.mem_cons_self

/-- A collision is answered, counted and recorded. -/
theorem collide_effect (s : State) {n : Nat} (hn : n < 16) :
    let t := s.collide n msg
    t.sent = s.sent ++ [.linkMsg n (lmMsg 0x82 (bits msg 8 8) 0 0 0)] ∧
      t.get F.STALL_LINK_COUNT_SUPERSEDED n = min (s.get F.STALL_LINK_COUNT_SUPERSEDED n + 1) 65535 ∧
      t.rd .STALL_LM_CAMREQ n = camReqWord msg 0 ∧
      RegsBut [(.STALL_LINK_COUNT, n), (.STALL_LM_CAMREQ, n)] s t ∧ { t with regs := s.regs, sent := s.sent } = s := by
  have ht : s.collide n msg = ((s.inc F.STALL_LINK_COUNT_SUPERSEDED n).lmReply n opSuperseded (bits msg 8 8) 0).wr .STALL_LM_CAMREQ n
      (camReqWord msg 0) := by
    unfold State.collide
    rw [if_pos hn]
    exact camReq_eq msg _ hn 0
  rw [ht]
  refine ⟨rfl, ?_, rd_wr_same .., ?_, rfl⟩
  · rw [get_congr (rd_wr_reg _ _ (by decide) (by omega) (by omega))]
    exact get_inc_same s F.STALL_LINK_COUNT_SUPERSEDED n (by decide)
  · exact (((RegsBut.refl _ s).inc F.STALL_LINK_COUNT_SUPERSEDED List.mem_cons_self).trans
      (RegsBut.of_regs (t := (s.inc F.STALL_LINK_COUNT_SUPERSEDED n).lmReply n opSuperseded (bits msg 8 8) 0) rfl _)).wr _ (by simp)

end CamReq

/-- A stall of the FG-16 always keeps its request. -/
theorem keepsRole_stall (s : State) {n : Nat} (hn : n < 16) : s.keepsRole n = true := by
  have h : (n != cwLink) = true := by
    rw [bne_iff_ne]
    unfold cwLink
    omega
  rw [State.keepsRole, h, Bool.true_or]

/-- A camera's RETRAIN that meets a request of the FG-16. -/
theorem exec_lmRetrainReceived_collides {n : Fin 21} (hn : n.val < 16) {msg : Word} {crc : BitVec 32} {e : Bool} {r : LmReq} {s u : State}
    (h : s.lmCheck n msg crc.toNat e = (true, u)) (hr : (u.stall n).lm = some r) :
    exec (.lmRetrainReceived n msg crc e) s = .next (u.collide n msg) := by
  change execLmRetrainReceived n msg crc e s = _
  unfold execLmRetrainReceived
  rw [lmTake_taken h, hr]
  exact congrArg _ (if_pos (keepsRole_stall u hn))

/-- A camera's WIDTH_REQ that meets a request of the FG-16. -/
theorem exec_lmWidthReqReceived_collides {n : Fin 21} (hn : n.val < 16) {msg : Word} {crc : BitVec 32} {e : Bool} {r : LmReq} {s u : State}
    (h : s.lmCheck n msg crc.toNat e = (true, u)) (hr : (u.stall n).lm = some r) :
    exec (.lmWidthReqReceived n msg crc e) s = .next (u.collide n msg) := by
  change execLmWidthReqReceived n msg crc e s = _
  unfold execLmWidthReqReceived
  rw [lmTake_taken h, if_neg (by omega), hr]
  rfl

/-- Settles O8 (R128): either request takes the branch of a collision, whose effect is `collide_effect`. -/
theorem cameraRequestMeetingARequestIsACollision : Obligations.CameraRequestMeetingARequestIsACollision := by
  intro n msg crc e r s u h hr c hc
  obtain ⟨hsent, hcount, hreq, hregs, hframe⟩ := collide_effect msg u n.isLt
  have hexec : exec c s = .next (u.collide n msg) := by
    simp only [List.mem_cons, List.not_mem_nil, or_false] at hc
    rcases hc with rfl | rfl
    · exact exec_lmRetrainReceived_collides (n := n.castLE _) n.isLt h hr
    · exact exec_lmWidthReqReceived_collides (n := n.castLE _) n.isLt h hr
  refine ⟨_, hexec, hsent, hcount, ?_, ?_, ?_, ?_, hregs, hframe⟩
  · rw [hreq, bits_camReqWord_op]
  · rw [hreq, bits_camReqWord_width]
  · rw [hreq, bits_camReqWord_reason msg (by decide)]
  · rw [hreq, bit_camReqWord_valid]

end Sys2Proof.Machine

/-! SUPPORT. The statement O9: what an answer does to the request it answers, and what the far end's requests do (R126 to R133, R701, R702). -/

namespace Sys2Proof.Machine

/-! ### An answer to the request outstanding (R127) -/

section Answers

variable {s u : State} {n : Nat} {r : LmReq}

/-- A NAK ends the request. -/
theorem nak_ends (s : State) (hn : n < 16) :
    let t := ((s.lmEnded n lrNak).linkLanes n).foldl State.followSpare (s.lmEnded n lrNak)
    (t.stall n).lm = none ∧ (t.stall n).goal = none ∧ t.get F.STALL_LM_CTRL_RESULT n = 3 ∧ t.get F.STALL_LM_CTRL_GO n = 0 := by
  obtain ⟨hr, hk⟩ := followSpares_keep (s.lmEnded n lrNak) hn
  exact lmEnded_shows hn (by decide) hr hk

/-- The state with the request answered. -/
def State.lmFreed (s : State) (n : Nat) : State := s.modStall n fun x => { x with lm := none }

theorem lmFreed_stall (s : State) (n : Nat) : (s.lmFreed n).stall n = { s.stall n with lm := none } := stall_modStall_same ..

theorem lmFreed_linkLanes (s : State) (n m : Nat) : (s.lmFreed n).linkLanes m = s.linkLanes m := rfl

theorem lmFreed_laneSt (s : State) (n l : Nat) : (s.lmFreed n).laneSt l = s.laneSt l := rfl

/-- RETRAIN acknowledged: the ACTIVE lanes train. -/
theorem ack_retrain (hn : n < 16) (hop : r.op = 1) (hsrc : r.src = .software) :
    ((s.lmAcked n r).stall n).lm = none ∧
      ∀ l ∈ s.linkLanes n, (s.lmAcked n r).laneSt l = if s.laneSt l = lnActive then lnTrain else s.laneSt l := by
  obtain ⟨-, hk⟩ := retrain_all_keeps (s := s.lmFreed n) hn
  have hlm : (((s.lmFreed n).retrain n 0).stall n).lm = none := (congrArg LinkPart.lm hk :).trans (congrArg Stall.lm (lmFreed_stall s n))
  have hlane : ∀ l ∈ s.linkLanes n, ((s.lmFreed n).retrain n 0).laneSt l = if s.laneSt l = lnActive then lnTrain else s.laneSt l :=
    fun l hl => (retrain_laneSt (s := s.lmFreed n) 0 (by omega) hl).trans (by simp [lmFreed_laneSt])
  have ht : s.lmAcked n r = if ((s.lmFreed n).retrain n 0).stUp n || ((s.lmFreed n).retrain n 0).stState n == lsIdle then
      ((s.lmFreed n).retrain n 0).lmResult n .software lrDone
      else ((s.lmFreed n).retrain n 0).modStall n fun x => { x with retrainDue := true } := by
    obtain ⟨op, id, width, seq, src, count, since⟩ := r
    obtain rfl : op = 1 := hop
    obtain rfl : src = .software := hsrc
    rfl
  rw [ht]
  split
  · exact ⟨(congrArg Stall.lm (lmResult_stall ..)).trans hlm,
      fun l hl => (lmResult_laneSt _ _ _ (by omega) (linkLanes_lt (by omega) hl)).trans (hlane l hl)⟩
  · exact ⟨(congrArg Stall.lm (stall_modStall_same ..)).trans hlm, hlane⟩

/-- WIDTH_CHANGE acknowledged: the width waits for its MARK row. -/
theorem ack_width (hop : r.op = 3) (hsrc : r.src = .software) :
    ((s.lmAcked n r).stall n).lm = none ∧ ((s.lmAcked n r).stall n).switch = some (r.seq, r.width, .software) ∧
      { s.lmAcked n r with stalls := s.stalls } = s := by
  have ht : s.lmAcked n r = (s.lmFreed n).modStall n fun x => { x with switch := some (r.seq, r.width, .software) } := by
    obtain ⟨op, id, width, seq, src, count, since⟩ := r
    obtain rfl : op = 3 := hop
    obtain rfl : src = .software := hsrc
    rfl
  rw [ht, stall_modStall_same, lmFreed_stall]
  exact ⟨rfl, rfl, rfl⟩

/-- A change of a stall's record beside the width it seeks. -/
theorem sameLinks_modStall (s : State) (n : Nat) {f : Stall → Stall} (hf : (f (s.stall n)).goal = (s.stall n).goal) :
    SameLinks s (s.modStall n f) := by
  refine .of_congr rfl rfl fun m => ?_
  by_cases hm : m = n
  · rw [hm, stall_modStall_same, hf]
  · exact congrArg Stall.goal (stall_modStall_other s _ hm)

/-- ENTER_IDLE acknowledged: the ACTIVE lanes rest, and with all of them the stall. -/
theorem ack_idle (hn : n < 16) (hop : r.op = 4) (hsrc : r.src = .software) :
    ((s.lmAcked n r).stall n).lm = none ∧ (s.lmAcked n r).get F.STALL_LM_CTRL_RESULT n = 2 ∧
      ((s.lmAcked n r).stall n).quietPeer = true ∧
      (∀ l ∈ s.linkLanes n, (s.lmAcked n r).laneSt l = if s.laneSt l = lnActive then lnIdle else s.laneSt l) ∧
      (s.linkOn n = true → (∀ l ∈ s.linkLanes n, s.laneSt l = lnActive) → (s.lmAcked n r).stState n = lsIdle) := by
  let a := (s.lmFreed n).eachLane (s.linkLanes n) [lnActive] State.toIdle
  let b := a.modStall n fun x => { x with quietPeer := true }
  have ht : s.lmAcked n r = (b.evalLink n).lmResult n .software lrDone := by
    obtain ⟨op, id, width, seq, src, count, since⟩ := r
    obtain rfl : op = 4 := hop
    obtain rfl : src = .software := hsrc
    rfl
  have hlt : ∀ l ∈ s.linkLanes n, l < 2 ^ 20 := fun l => linkLanes_lt (by omega)
  have honly : LanesOnly (s.linkLanes n) (s.lmFreed n) a := eachLane_only fun c l => (toIdle_enters c l).only
  have hlane : ∀ l ∈ s.linkLanes n, b.laneSt l = if s.laneSt l = lnActive then lnIdle else s.laneSt l := fun l hl => by
    have hst := eachLane_laneSt (s := s.lmFreed n) (from' := [lnActive]) toIdle_enters (linkLanes_nodup s n) hl
    simp only [List.mem_singleton] at hst
    exact hst
  have hlinks : SameLinks s b := ((sameLinks_modStall s n rfl).trans (honly.sameLinks hlt)).trans (sameLinks_modStall a n rfl)
  have hwidth : b.widthLanes n = s.widthLanes n := hlinks.widthLanes (by omega)
  have hfirst := mem_widthLanes s (n := n) (by omega)
  have hst : b.stall n = { s.stall n with lm := none, quietPeer := true } := by
    rw [stall_modStall_same, honly.stall, lmFreed_stall]
  obtain ⟨-, hk, -⟩ := evalLink_not_up_keeps (s := b) hn (hwidth ▸ hfirst) (by
    rw [hlane _ (widthLanes_subset s n hfirst)]
    split
    · decide
    · assumption)
  rw [hst] at hk
  rw [ht, lmResult_stall]
  refine ⟨congrArg LinkPart.lm hk, lmResult_result _ _ hn (by decide), congrArg LinkPart.quietPeer hk, fun l hl => ?_, fun hon hall => ?_⟩
  · rw [lmResult_laneSt _ _ _ (by omega) (hlt l hl), (evalLink_moves b n).laneSt (hlt l hl), hlane l hl]
  · rw [lmResult_stState _ _ _ (by omega), evalLink_stState hn ((hlinks.linkOn n).trans hon)]
    refine linkTarget_all lnIdle lsIdle (by omega) (by decide) fun l hl => ?_
    have hl' := widthLanes_subset s n (hwidth ▸ hl)
    rw [hlane l hl', if_pos (hall l hl')]

/-- DEEP carried out on the lanes of a link: those whose state is among `from'` rest. -/
theorem linkDeep_laneSt (s : State) (from' : List Nat) (hn : n < 21) {l : Nat} (hl : l ∈ s.linkLanes n) :
    (s.linkDeep n from').laneSt l = if s.laneSt l ∈ from' then lnDeep else s.laneSt l := by
  unfold State.linkDeep
  exact ((evalLink_moves _ n).laneSt (linkLanes_lt hn hl)).trans (eachLane_laneSt toDeep_enters (linkLanes_nodup s n) hl)

theorem linkDeep_lm (s : State) (n : Nat) (from' : List Nat) : ((s.linkDeep n from').stall n).lm = (s.stall n).lm := by
  have honly : LanesOnly (s.linkLanes n) s (s.eachLane (s.linkLanes n) from' State.toDeep) := eachLane_only fun c l => (toDeep_enters c l).only
  unfold State.linkDeep
  rw [(evalLink_moves _ n).lm, stall_modStall_same, honly.stall]

theorem linkDeep_sent (s : State) (n : Nat) (from' : List Nat) : s.sent <+: (s.linkDeep n from').sent := by
  have honly : LanesOnly (s.linkLanes n) s (s.eachLane (s.linkLanes n) from' State.toDeep) := eachLane_only fun c l => (toDeep_enters c l).only
  unfold State.linkDeep
  have h := (evalLink_moves ((s.eachLane (s.linkLanes n) from' State.toDeep).modStall n fun x => { x with quietPeer := true }) n).sent
  rw [modStall_sent, honly.sent] at h
  exact h

/-- ENTER_DEEP acknowledged: the ACTIVE and IDLE lanes rest. -/
theorem ack_deep (hn : n < 16) (hop : r.op = 5) (hsrc : r.src = .software) :
    ((s.lmAcked n r).stall n).lm = none ∧ (s.lmAcked n r).get F.STALL_LM_CTRL_RESULT n = 2 ∧
      ∀ l ∈ s.linkLanes n, (s.lmAcked n r).laneSt l = if s.laneSt l ∈ [lnActive, lnIdle] then lnDeep else s.laneSt l := by
  have ht : s.lmAcked n r = ((s.lmFreed n).linkDeep n liveLanes).lmResult n .software lrDone := by
    obtain ⟨op, id, width, seq, src, count, since⟩ := r
    obtain rfl : op = 5 := hop
    obtain rfl : src = .software := hsrc
    rfl
  rw [ht, lmResult_stall, linkDeep_lm, lmFreed_stall]
  refine ⟨rfl, lmResult_result _ _ hn (by decide), fun l hl => ?_⟩
  exact (lmResult_laneSt _ _ _ (by omega) (linkLanes_lt (by omega) hl)).trans (linkDeep_laneSt (s.lmFreed n) _ (by omega) hl)

end Answers

/-! ### Requests of the far end (R126, R130 to R132, R701, R702) -/

/-- What is sent first stays first. -/
theorem sent_then {s t : State} {o : Out} (h : s.sent ++ [o] <+: t.sent) : ∃ r, t.sent = s.sent ++ o :: r := by
  obtain ⟨r, hr⟩ := h
  exact ⟨r, by rw [← hr, List.append_assoc, List.singleton_append]⟩

section FarRequests

variable {s : State} {n : Nat}

theorem retrain_sent (s : State) (n mask : Nat) : s.sent <+: (s.retrain n mask).sent := by
  have honly : LanesOnly _ s (s.eachLane ((s.linkLanes n).filter fun l => mask == 0 || (mask >>> s.laneIdx l) % 2 == 1) [lnActive]
      fun a l => a.toTrain l true) := eachLane_only fun a k => (toTrain_enters a k true).only
  unfold State.retrain
  dsimp only
  have h := (evalLink_moves ((s.eachLane ((s.linkLanes n).filter fun l => mask == 0 || (mask >>> s.laneIdx l) % 2 == 1) [lnActive]
      fun a l => a.toTrain l true).countRetrain n) n).sent
  rw [countRetrain_sent, honly.sent] at h
  exact h

/-- A far RETRAIN is ACKed, and the lanes it selects train. -/
theorem farRetrain_effect (hn : n < 16) (msg : Word) :
    (∃ r, (s.farRetrain n msg).sent = s.sent ++ .linkMsg n (lmMsg 0x80 (bits msg 8 8) 0 0 0) :: r) ∧
      ∀ l ∈ s.linkLanes n, (s.farRetrain n msg).laneSt l =
        if s.laneSt l = lnActive ∧ (bits msg 34 4 = 0 ∨ (bits msg 34 4).testBit (s.laneIdx l) = true) then lnTrain else s.laneSt l := by
  have hsent := retrain_sent (s.lmReply n opAck (bits msg 8 8) 0) n (bits msg 34 4)
  have hlane : ∀ l ∈ s.linkLanes n, ((s.lmReply n opAck (bits msg 8 8) 0).retrain n (bits msg 34 4)).laneSt l = _ :=
    fun l hl => retrain_laneSt (s := s.lmReply n opAck (bits msg 8 8) 0) (bits msg 34 4) (by omega) hl
  unfold State.farRetrain
  dsimp only
  split
  · exact ⟨sent_then hsent, hlane⟩
  · exact ⟨sent_then hsent, hlane⟩

/-- A width sought is kept, whether it is asked for at once or not. -/
theorem seekWidth_effect (s : State) (n w : Nat) (src : LmSource) :
    ((s.seekWidth n w src).stall n).goal = some (w, src) ∧ s.sent <+: (s.seekWidth n w src).sent := by
  let p := s.modStall n fun x => { x with goal := some (w, src) }
  let a := p.eachLane ((p.linkLanes n).take (2 ^ w)) [lnDisabled, lnDeep] State.laneStart
  have honly : LanesOnly ((p.linkLanes n).take (2 ^ w)) p a := eachLane_only laneStart_only
  have hgoal : (a.stall n).goal = some (w, src) := by rw [honly.stall, stall_modStall_same]
  have hsent : a.sent = s.sent := honly.sent
  change ((a.tryWidth n).stall n).goal = _ ∧ s.sent <+: (a.tryWidth n).sent
  unfold State.tryWidth
  rw [hgoal]
  dsimp only
  split
  · rw [lmSend_stall_same, lmSend_sent, hsent]
    exact ⟨hgoal, List.prefix_append ..⟩
  · exact ⟨hgoal, hsent ▸ List.prefix_rfl⟩

end FarRequests

/-! ### The commands that receive a message -/

section Received

variable {n : Fin 21} {msg : Word} {crc : BitVec 32} {e : Bool} {r : LmReq} {s u : State} (h : s.lmCheck n msg crc.toNat e = (true, u))
include h

theorem exec_lmAckReceived (hr : (u.stall n).lm = some r) :
    exec (.lmAckReceived n msg crc e) s = .next (if r.id = bits msg 8 8 then u.lmAcked n r else u) := by
  change execLmAckReceived n msg crc e s = _
  unfold execLmAckReceived
  rw [lmTake_taken h, hr]

/-- A NAK of the request outstanding ends it; of another it changes nothing. -/
theorem exec_lmNakReceived (hr : (u.stall n).lm = some r) (hsrc : r.src = .software) :
    exec (.lmNakReceived n msg crc e) s =
      .next (if r.id = bits msg 8 8 then ((u.lmEnded n lrNak).linkLanes n).foldl State.followSpare (u.lmEnded n lrNak) else u) := by
  change execLmNakReceived n msg crc e s = _
  unfold execLmNakReceived
  rw [lmTake_taken h, hr]
  dsimp only
  rw [hsrc]
  rfl

theorem exec_lmRetrainReceived (hr : (u.stall n).lm = none) : exec (.lmRetrainReceived n msg crc e) s = .next (u.farRetrain n msg) := by
  change execLmRetrainReceived n msg crc e s = _
  unfold execLmRetrainReceived
  rw [lmTake_taken h, hr]

theorem exec_lmExitReceived : exec (.lmExitReceived n msg crc e) s = .next (u.openPath n) := by
  change execLmExitReceived n msg crc e s = _
  exact lmTake_taken h _

/-- A WIDTH_REQ of a stall without a request of its own (R131). -/
theorem exec_lmWidthReqReceived (hn : n.val < 16) (hr : (u.stall n).lm = none) :
    exec (.lmWidthReqReceived n msg crc e) s = .next (
      if !u.isOn F.STALL_LM_CTRL_AUTO_GRANT_WIDTH n then (u.lmReply n opNak (bits msg 8 8) 1).camReq n msg 1
      else if u.get F.STALL_LINK_CFG_MAX_WIDTH n < bits msg 32 2 then (u.lmReply n opNak (bits msg 8 8) 2).camReq n msg 2
      else if (u.stall n).lmBusy then (u.lmReply n opNak (bits msg 8 8) 4).camReq n msg 4
      else (u.lmReply n opAck (bits msg 8 8) 0).seekWidth n (bits msg 32 2) .engine) := by
  have hmax : u.maxCode n = u.get F.STALL_LINK_CFG_MAX_WIDTH n := if_neg (by unfold cwLink; omega)
  change execLmWidthReqReceived n msg crc e s = _
  unfold execLmWidthReqReceived
  rw [lmTake_taken h, if_neg (by omega), hr, ← hmax]
  rfl

/-- On a stall an opcode that only the FG-16 sends is NAKed. -/
theorem exec_lmDisallowedReceived_stall (hn : n.val < 16) (hop : bits msg 0 8 ∈ [3, 4, 5, 0x82]) :
    exec (.lmDisallowedReceived n msg crc e) s = .next (u.lmReply n opNak (bits msg 8 8) 1) := by
  have hlink : n.val ≠ cwLink := by
    unfold cwLink
    omega
  have hsent : [opRetrain, opWidthReq, opExit, opAck, opNak].contains (bits msg 0 8) = false := by
    simp only [List.mem_cons, List.not_mem_nil, or_false] at hop
    rcases hop with h | h | h | h <;> rw [h] <;> rfl
  change execLmDisallowedReceived n msg crc e s = _
  refine (lmTake_taken h _).trans (congrArg _ ?_)
  dsimp only
  rw [hsent, if_neg (by decide), if_neg fun h => hlink h.1, if_neg fun h => hlink h.1, if_neg fun h => hlink h.1]

end Received

section CausewayRequests

variable {n : Fin 21} (hn : n.val = cwLink) {msg : Word} {crc : BitVec 32} {e : Bool} {s u : State}
  (h : s.lmCheck n msg crc.toNat e = (true, u))
include hn h

theorem exec_lmDisallowedReceived_idle (hop : bits msg 0 8 = 4) : exec (.lmDisallowedReceived n msg crc e) s =
    .next (((u.lmReply n opAck (bits msg 8 8) 0).eachLane (u.linkLanes n) [lnActive] State.toIdle).evalLink n) := by
  change execLmDisallowedReceived n msg crc e s = _
  refine (lmTake_taken h _).trans (congrArg _ ?_)
  dsimp only
  rw [hop, if_neg (by decide), if_pos ⟨hn, rfl⟩]

theorem exec_lmDisallowedReceived_deep (hop : bits msg 0 8 = 5) : exec (.lmDisallowedReceived n msg crc e) s =
    .next ((u.lmReply n opAck (bits msg 8 8) 0).linkDeep n liveLanes) := by
  change execLmDisallowedReceived n msg crc e s = _
  refine (lmTake_taken h _).trans (congrArg _ ?_)
  dsimp only
  rw [hop, if_neg (by decide), if_neg (fun h => absurd h.2 (by decide)), if_pos ⟨hn, rfl⟩]

end CausewayRequests

/-- The lanes of the causeway. -/
theorem mem_linkLanes_cw {s : State} {l : Nat} (h1 : 32 ≤ l) (h2 : l < 40) : l ∈ s.linkLanes 20 := by
  rw [linkLanes_cw]
  exact List.mem_map.mpr ⟨l - 32, List.mem_range.mpr (by omega), by omega⟩

/-- Lanes of a link that rest IDLE, and the link after them. -/
theorem idleLanes_effect (s : State) {n : Nat} (hn : n < 21) :
    s.sent <+: ((s.eachLane (s.linkLanes n) [lnActive] State.toIdle).evalLink n).sent ∧
      ∀ l ∈ s.linkLanes n, ((s.eachLane (s.linkLanes n) [lnActive] State.toIdle).evalLink n).laneSt l =
        if s.laneSt l = lnActive then lnIdle else s.laneSt l := by
  have honly : LanesOnly (s.linkLanes n) s (s.eachLane (s.linkLanes n) [lnActive] State.toIdle) :=
    eachLane_only fun c l => (toIdle_enters c l).only
  have hmoves := evalLink_moves (s.eachLane (s.linkLanes n) [lnActive] State.toIdle) n
  refine ⟨honly.sent ▸ hmoves.sent, fun l hl => ?_⟩
  rw [hmoves.laneSt (linkLanes_lt hn hl), eachLane_laneSt toIdle_enters (linkLanes_nodup s n) hl]
  simp only [List.mem_singleton]

/-! ### The statement O9 -/

/-- What an answer does on a stall of the FG-16. -/
theorem answers_settle (n : Fin 16) (msg : Word) (crc : BitVec 32) (e : Bool) (r : LmReq) (s u : State)
    (h : s.lmCheck n msg crc.toNat e = (true, u)) (hr : (u.stall n).lm = some r) (hsrc : r.src = .software) :
    (r.id ≠ bits msg 8 8 →
      exec (.lmAckReceived (n.castLE (by decide)) msg crc e) s = .next u ∧
      exec (.lmNakReceived (n.castLE (by decide)) msg crc e) s = .next u) ∧
    (r.id = bits msg 8 8 →
      exec (.lmAckReceived (n.castLE (by decide)) msg crc e) s = .next (u.lmAcked n r) ∧
      exec (.lmNakReceived (n.castLE (by decide)) msg crc e) s =
        .next (((u.lmEnded n lrNak).linkLanes n).foldl State.followSpare (u.lmEnded n lrNak))) := by
  have hack := exec_lmAckReceived (n := n.castLE (by decide)) h hr
  have hnak := exec_lmNakReceived (n := n.castLE (by decide)) h hr hsrc
  refine ⟨fun hid => ?_, fun hid => ?_⟩
  · rw [if_neg hid] at hack hnak
    exact ⟨hack, hnak⟩
  · rw [if_pos hid] at hack hnak
    exact ⟨hack, hnak⟩

/-- Settles O9 (Table 3.13, R126 to R133, R701, R702): the message's checks first (`lmTake_refused`), then an answer, a camera's request,
or one of the causeway's. -/
theorem linkManagementMessagesActOnTheLanes : Obligations.LinkManagementMessagesActOnTheLanes := by
  refine ⟨fun n msg crc e s u h c hc => ?_, fun n msg crc e r s u h hr hsrc => ?_, fun n msg crc e s u h hr => ?_,
    fun msg crc e s u h => ⟨fun hop => ?_, fun hop => ?_⟩⟩
  · simp only [List.mem_cons, List.not_mem_nil, or_false] at hc
    have hrefused := lmTake_refused h
    rcases hc with rfl | rfl | rfl | rfl | rfl | rfl
    · exact (show exec _ s = execLmRetrainReceived n msg crc e s from rfl).trans (hrefused _)
    · exact (show exec _ s = execLmWidthReqReceived n msg crc e s from rfl).trans (hrefused _)
    · exact (show exec _ s = execLmExitReceived n msg crc e s from rfl).trans (hrefused _)
    · exact (show exec _ s = execLmDisallowedReceived n msg crc e s from rfl).trans (hrefused _)
    · exact (show exec _ s = execLmAckReceived n msg crc e s from rfl).trans (hrefused _)
    · exact (show exec _ s = execLmNakReceived n msg crc e s from rfl).trans (hrefused _)
  · obtain ⟨hother, hthis⟩ := answers_settle n msg crc e r s u h hr hsrc
    refine ⟨hother, fun hid => ?_⟩
    obtain ⟨hack, hnak⟩ := hthis hid
    exact ⟨⟨_, hnak, nak_ends u n.isLt⟩, fun hop => ⟨_, hack, ack_retrain n.isLt hop hsrc⟩, fun hop => ⟨_, hack, ack_width hop hsrc⟩,
      fun hop => ⟨_, hack, ack_idle n.isLt hop hsrc⟩, fun hop => ⟨_, hack, ack_deep n.isLt hop hsrc⟩⟩
  · have hwidth := exec_lmWidthReqReceived (n := n.castLE (by decide)) h n.isLt hr
    refine ⟨⟨_, exec_lmRetrainReceived (n := n.castLE (by decide)) h hr, farRetrain_effect n.isLt msg⟩, fun hauto => ?_,
      fun hauto hmax => ?_, fun hauto hmax hbusy => ?_, fun hon hall => ?_, fun hop => ?_⟩
    · rw [if_pos (by simp [hauto])] at hwidth
      obtain ⟨hsent, hreason, hregs, hframe⟩ := camReq_naks (reason := 1) msg u n.isLt (by decide)
      exact ⟨_, hwidth, hsent, hreason, hregs, hframe⟩
    · rw [if_neg (by simp [hauto]), if_pos (by exact hmax)] at hwidth
      obtain ⟨hsent, hreason, hregs, hframe⟩ := camReq_naks (reason := 2) msg u n.isLt (by decide)
      exact ⟨_, hwidth, hsent, hreason, hregs, hframe⟩
    · rw [if_neg (by simp [hauto]), if_neg (by exact Nat.not_lt.mpr hmax), if_neg (by simp [hbusy])] at hwidth
      obtain ⟨hgoal, hsent⟩ := seekWidth_effect (u.lmReply n opAck (bits msg 8 8) 0) n (bits msg 32 2) .engine
      exact ⟨_, hwidth, sent_then hsent, hgoal⟩
    · obtain ⟨hup, hact, -⟩ := openPath_idle n.isLt hon hall
      exact ⟨_, exec_lmExitReceived (n := n.castLE (by decide)) h, hup, hact⟩
    · exact ⟨_, exec_lmDisallowedReceived_stall (n := n.castLE (by decide)) h n.isLt hop, rfl, rfl⟩
  · obtain ⟨hsent, hlane⟩ := idleLanes_effect (u.lmReply 20 opAck (bits msg 8 8) 0) (n := 20) (by decide)
    exact ⟨_, exec_lmDisallowedReceived_idle (n := 20) rfl h hop, sent_then hsent, fun l h1 h2 => hlane l (mem_linkLanes_cw h1 h2)⟩
  · refine ⟨_, exec_lmDisallowedReceived_deep (n := 20) rfl h hop,
      sent_then (linkDeep_sent (u.lmReply 20 opAck (bits msg 8 8) 0) 20 liveLanes), fun l h1 h2 => ?_⟩
    exact linkDeep_laneSt (u.lmReply 20 opAck (bits msg 8 8) 0) liveLanes (by decide) (mem_linkLanes_cw h1 h2)

end Sys2Proof.Machine

/-! SUPPORT. A write of STALL_LINK_CFG (R85 to R87, Table 3.16): the word it leaves, a stall enabled and disabled, and the statement O10. -/

namespace Sys2Proof.Machine

/-! ### The word written (Table 3.16) -/

/-- STALL_LINK_CFG of stall `n` once software has written `w`: PPORT_SEL is kept by the stalls that have a parallel port only. -/
def State.cfgNew (s : State) (n : Nat) (w : Word) : Word :=
  if 14 ≤ n then writeFields .STALL_LINK_CFG (s.rd .STALL_LINK_CFG n) w allBytes
  else setBits (writeFields .STALL_LINK_CFG (s.rd .STALL_LINK_CFG n) w allBytes) 8 1 0

section CfgNew

variable (s : State) (n : Nat) (w : Word)

theorem bits_cfgNew {lo len : Nat} (hf : ⟨lo, len, .rw⟩ ∈ Reg.fields .STALL_LINK_CFG) (h8 : lo + len ≤ 8 ∨ 9 ≤ lo) (h : lo + len ≤ 64) :
    bits (s.cfgNew n w) lo len = bits w lo len := by
  unfold State.cfgNew
  split
  · exact bits_writeFields_rw _ _ hf (by decide) h
  · rw [bits_setBits_other _ _ _ _ _ _ h8]
    exact bits_writeFields_rw _ _ hf (by decide) h

theorem cfgNew_rate : bits (s.cfgNew n w) 0 2 = bits w 0 2 := bits_cfgNew s n w (by decide) (by decide) (by decide)

theorem cfgNew_fec : bits (s.cfgNew n w) 2 1 = bits w 2 1 := bits_cfgNew s n w (by decide) (by decide) (by decide)

theorem cfgNew_width : bits (s.cfgNew n w) 4 2 = bits w 4 2 := bits_cfgNew s n w (by decide) (by decide) (by decide)

theorem cfgNew_enable : bit (s.cfgNew n w) 9 = bit w 9 := by
  have h := bits_cfgNew s n w (lo := 9) (len := 1) (by decide) (by decide) (by decide)
  rw [bits_one_eq_bit, bits_one_eq_bit] at h
  cases h1 : bit (s.cfgNew n w) 9 <;> cases h2 : bit w 9 <;> simp [h1, h2, b2n] at h ⊢

theorem cfgNew_pport : bit (s.cfgNew n w) 8 = (decide (14 ≤ n) && bit w 8) := by
  unfold State.cfgNew
  split
  · next h =>
    have hb := bits_writeFields_rw (r := .STALL_LINK_CFG) (lo := 8) (w := 1) (s.rd .STALL_LINK_CFG n) w (by decide) (by decide) (by decide)
    rw [bits_one_eq_bit, bits_one_eq_bit] at hb
    simp only [h, decide_true, Bool.true_and]
    generalize bit (writeFields .STALL_LINK_CFG (s.rd .STALL_LINK_CFG n) w allBytes) 8 = a at hb ⊢
    cases a <;> cases h2 : bit w 8 <;> simp [h2, b2n] at hb ⊢
  · next h =>
    rw [bit_setBits_same _ _ (by decide)]
    simp [h]

end CfgNew

/-- What STALL_ENABLE and STALL_DISABLE write beside ENABLE. -/
theorem bits_setEnable (v : Word) (e : Nat) {lo w : Nat} (h : lo + w ≤ 9) : bits (setBits v 9 1 e) lo w = bits v lo w :=
  bits_setBits_other _ _ _ _ _ _ (.inl h)

theorem bits_rate_fec {a b : Word} (h : ∀ k < 3, a.getLsbD k = b.getLsbD k) : bits a 0 3 = bits b 0 3 := by
  apply Nat.eq_of_testBit_eq
  intro k
  rw [testBit_bits, testBit_bits]
  by_cases hk : k < 3
  · rw [Nat.zero_add, h k hk]
  · simp [hk]

/-- Words that agree under R87's mask agree in RATE, FEC_EN and MAX_WIDTH. -/
theorem bits_of_lock {a b : Word} (h : a &&& (0x137 : Word) = b &&& (0x137 : Word)) : bits a 0 3 = bits b 0 3 ∧ bits a 4 2 = bits b 4 2 := by
  have hk {k : Nat} (hm : (0x137 : Word).getLsbD k = true) : a.getLsbD k = b.getLsbD k := by
    have := congrArg (·.getLsbD k) h
    simpa only [BitVec.getLsbD_and, hm, Bool.and_true] using this
  refine ⟨bits_rate_fec fun k hk3 => hk ?_, Nat.eq_of_testBit_eq fun i => ?_⟩
  · interval_cases k <;> decide
  · rw [testBit_bits, testBit_bits]
    by_cases hi : i < 2
    · rw [hk (by interval_cases i <;> decide)]
    · simp [hi]

/-! ### The counters (R143) -/

/-- The state with the counters cleared where a write of `w` to STALL_LINK_CFG asks for it. -/
def State.cntCleared (s : State) (n : Nat) (w : Word) : State := if bit (w &&& allBytes) 15 then s.linkCntClear n else s

section Cleared

variable (s : State) (n : Nat) (w : Word)

theorem cntCleared_regsBut : RegsBut [(.STALL_LINK_COUNT, n)] s (s.cntCleared n w) := by
  unfold State.cntCleared State.linkCntClear State.rst
  split
  · exact (RegsBut.refl _ s).wr _ List.mem_cons_self
  · exact .refl _ s

theorem cntCleared_frame : { s.cntCleared n w with regs := s.regs } = s := by
  unfold State.cntCleared
  split <;> rfl

theorem cntCleared_stall (m : Nat) : (s.cntCleared n w).stall m = s.stall m := stall_congr (congrArg State.stalls (cntCleared_frame s n w) :) m

theorem cntCleared_ctl : (s.cntCleared n w).ctl = s.ctl := (congrArg State.ctl (cntCleared_frame s n w) :)

theorem cntCleared_sameLinks (hn : n < 2 ^ 20) : SameLinks s (s.cntCleared n w) :=
  .of_regsBut (cntCleared_regsBut s n w) (by simpa [Reg.ofLinks] using hn) (cntCleared_ctl s n w) fun m => congrArg Stall.goal (cntCleared_stall ..)

end Cleared

/-! ### A write of STALL_LINK_CFG, by ENABLE before and after (R87) -/

section CfgWrite

variable {s : State} {n : Nat} {w : Word}

/-- A stall that stays enabled keeps what R87 locks. -/
theorem linkCfgWrite_locked (h : s.isOn F.STALL_LINK_CFG_ENABLE n = true) (hw : bit w 9 = true) : s.linkCfgWrite n w allBytes =
    if s.rd .STALL_LINK_CFG n &&& 0x137 = s.cfgNew n w &&& 0x137 then s.cntCleared n w
    else (s.cntCleared n w).put F.STALL_LINK_STATUS_CFG_REJECTED n 1 := by
  have hold : bit (s.rd .STALL_LINK_CFG n) 9 = true := (bit_eq_isOn s .STALL_LINK_CFG 9 n).trans h
  have hnew : bit (s.cfgNew n w) 9 = true := (cfgNew_enable s n w).trans hw
  change (if bit (s.rd .STALL_LINK_CFG n) 9 then
    if !bit (s.cfgNew n w) 9 then _ else if s.rd .STALL_LINK_CFG n &&& 0x137 = s.cfgNew n w &&& 0x137 then s.cntCleared n w
      else (s.cntCleared n w).put F.STALL_LINK_STATUS_CFG_REJECTED n 1 else _) = _
  rw [if_pos hold, if_neg (by simp [hnew])]

/-- ENABLE written 0 disables the stall. -/
theorem linkCfgWrite_disables (h : s.isOn F.STALL_LINK_CFG_ENABLE n = true) (hw : bit w 9 = false) :
    s.linkCfgWrite n w allBytes = ((s.cntCleared n w).stallDisable n).wr .STALL_LINK_CFG n (s.cfgNew n w) := by
  have hold : bit (s.rd .STALL_LINK_CFG n) 9 = true := (bit_eq_isOn s .STALL_LINK_CFG 9 n).trans h
  have hnew : bit (s.cfgNew n w) 9 = false := (cfgNew_enable s n w).trans hw
  change (if bit (s.rd .STALL_LINK_CFG n) 9 then
    if !bit (s.cfgNew n w) 9 then ((s.cntCleared n w).stallDisable n).wr .STALL_LINK_CFG n (s.cfgNew n w) else _ else _) = _
  rw [if_pos hold, if_pos (by simp [hnew])]

/-- The state with STALL_LINK_CFG written and ENABLE still 0. -/
def State.cfgWritten (s : State) (n : Nat) (w : Word) : State :=
  (s.cntCleared n w).wr .STALL_LINK_CFG n (setBits (s.cfgNew n w) 9 1 0)

/-- ENABLE written 1 on a disabled stall enables it, unless R87 refuses. -/
theorem linkCfgWrite_enables (h : s.isOn F.STALL_LINK_CFG_ENABLE n = false) (hw : bit w 9 = true) : s.linkCfgWrite n w allBytes =
    if (s.cfgWritten n w).linkRefused n (bits w 0 2) (bits w 4 2) (decide (14 ≤ n) && bit w 8) then
      (s.cfgWritten n w).put F.STALL_LINK_STATUS_CFG_REJECTED n 1
    else (s.cfgWritten n w).stallEnable n := by
  have hold : bit (s.rd .STALL_LINK_CFG n) 9 = false := (bit_eq_isOn s .STALL_LINK_CFG 9 n).trans h
  have hnew : bit (s.cfgNew n w) 9 = true := (cfgNew_enable s n w).trans hw
  rw [← cfgNew_rate s n w, ← cfgNew_width s n w, ← cfgNew_pport s n w]
  change (if bit (s.rd .STALL_LINK_CFG n) 9 then _ else if !bit (s.cfgNew n w) 9 then _ else
    if (s.cfgWritten n w).linkRefused n (bits (s.cfgNew n w) 0 2) (bits (s.cfgNew n w) 4 2) (bit (s.cfgNew n w) 8) then
      (s.cfgWritten n w).put F.STALL_LINK_STATUS_CFG_REJECTED n 1
    else (s.cfgWritten n w).stallEnable n) = _
  rw [if_neg (by simp [hold]), if_neg (by simp [hnew])]

end CfgWrite

/-! ### What an enable is refused for (R87) -/

section Refused

variable (s : State) (n : Nat) (w : Word)

theorem cfgWritten_regsBut : RegsBut [(.STALL_LINK_CFG, n), (.STALL_LINK_COUNT, n)] s (s.cfgWritten n w) :=
  ((cntCleared_regsBut s n w).mono (by simp)).wr _ List.mem_cons_self

theorem cfgWritten_frame : { s.cfgWritten n w with regs := s.regs } = s := cntCleared_frame s n w

theorem cfgWritten_rd : (s.cfgWritten n w).rd .STALL_LINK_CFG n = setBits (s.cfgNew n w) 9 1 0 := rd_wr_same ..

/-- The configuration of another stall. -/
theorem cfgWritten_rd_other {m : Nat} (hn : n < 2 ^ 20) (hm : m < 2 ^ 20) (h : m ≠ n) :
    (s.cfgWritten n w).rd .STALL_LINK_CFG m = s.rd .STALL_LINK_CFG m := by
  refine cfgWritten_regsBut s n w _ _ fun p hp e => ?_
  simp only [List.mem_cons, List.not_mem_nil, or_false] at hp
  rcases hp with rfl | rfl
  · exact h (regKey_inj hm hn e).2
  · exact absurd (show Reg.STALL_LINK_CFG = .STALL_LINK_COUNT from (regKey_inj hm hn e).1) (by decide)

variable {s n w} (hn : n < 16)
include hn

theorem cfgWritten_enabled {m : Nat} (hm : m < 2 ^ 20) (h : m ≠ n) :
    (s.cfgWritten n w).isOn F.STALL_LINK_CFG_ENABLE m = s.isOn F.STALL_LINK_CFG_ENABLE m :=
  congrArg (fun x => decide (x = 1)) (get_congr (f := F.STALL_LINK_CFG_ENABLE) (cfgWritten_rd_other s n w (by omega) hm h))

theorem cfgWritten_borrows {m : Nat} (hm : m < 2 ^ 20) (h : m ≠ n) : (s.cfgWritten n w).borrows m = s.borrows m := by
  unfold State.borrows
  rw [cfgWritten_enabled hn hm h, get_congr (f := F.STALL_LINK_CFG_MAX_WIDTH) (cfgWritten_rd_other s n w (by omega) hm h)]

/-- The refusals of R87. -/
theorem linkRefused_iff {a b : Nat} {pp : Bool} : (s.cfgWritten n w).linkRefused n a b pp = true ↔
    a = 3 ∨ b = 3 ∨ b = 2 ∧ (n % 2 = 1 ∨ pp = true ∨ s.isOn F.STALL_LINK_CFG_ENABLE (n + 1) = true) ∨
      n % 2 = 1 ∧ s.isOn F.STALL_LINK_CFG_ENABLE (n - 1) = true ∧ s.get F.STALL_LINK_CFG_MAX_WIDTH (n - 1) = 2 := by
  unfold State.linkRefused
  rw [cfgWritten_enabled hn (by omega) (by omega)]
  by_cases hodd : n % 2 = 1
  · rw [cfgWritten_borrows hn (by omega) (by omega), State.borrows]
    simp [hodd, or_assoc]
  · simp [hodd, or_assoc]

end Refused

/-- An enable that is refused. -/
theorem stallEnable_refused (n : Fin 16) (v : Word) {s : State} (h : s.isOn F.STALL_LINK_CFG_ENABLE n = false)
    (hr : bits v 0 2 = 3 ∨ bits v 4 2 = 3 ∨
      bits v 4 2 = 2 ∧ (n.val % 2 = 1 ∨ 14 ≤ n.val ∧ bit v 8 = true ∨ s.isOn F.STALL_LINK_CFG_ENABLE (n.val + 1) = true) ∨
      n.val % 2 = 1 ∧ s.isOn F.STALL_LINK_CFG_ENABLE (n.val - 1) = true ∧ s.get F.STALL_LINK_CFG_MAX_WIDTH (n.val - 1) = 2) :
    ∃ t, exec (.stallEnable n v) s = .next t ∧ t.isOn F.STALL_LINK_CFG_ENABLE n = false ∧
      t.get F.STALL_LINK_STATUS_CFG_REJECTED n = 1 ∧
      OnlyRegs [(.STALL_LINK_CFG, n.val), (.STALL_LINK_STATUS, n.val), (.STALL_LINK_COUNT, n.val)] s t := by
  have hbit8 : bit (setBits v 9 1 1) 8 = bit v 8 := bit_setBits_other v 1 (by decide)
  have hw := linkCfgWrite_enables h (bit_setBits_same v 1 (k := 9) (by decide))
  rw [bits_setEnable v 1 (by decide), bits_setEnable v 1 (by decide), hbit8, if_pos ((linkRefused_iff n.isLt).2 (by simpa using hr))] at hw
  refine ⟨_, congrArg (fun a : State => (.next a : Result)) hw, ?_, get_put_same _ _ _ _ (by decide),
    cfgWritten_frame s n (setBits v 9 1 1), ?_⟩
  · have hcfg : ((s.cfgWritten n (setBits v 9 1 1)).put F.STALL_LINK_STATUS_CFG_REJECTED n 1).rd .STALL_LINK_CFG n = _ :=
      (rd_wr_reg _ _ (by decide) (by omega) (by omega)).trans (cfgWritten_rd s n _)
    rw [← bit_eq_isOn _ .STALL_LINK_CFG, hcfg]
    exact bit_setBits_same _ _ (by decide)
  · exact ((cfgWritten_regsBut s n _).mono (by simp)).put F.STALL_LINK_STATUS_CFG_REJECTED _ (by simp)

/-- A write that would change what R87 locks. -/
theorem stallEnable_locked (n : Fin 16) (v : Word) {s : State} (h : s.isOn F.STALL_LINK_CFG_ENABLE n = true)
    (hd : bits v 0 3 ≠ bits (s.rd .STALL_LINK_CFG n) 0 3 ∨ bits v 4 2 ≠ s.get F.STALL_LINK_CFG_MAX_WIDTH n) :
    ∃ t, exec (.stallEnable n v) s = .next t ∧ t.rd .STALL_LINK_CFG n = s.rd .STALL_LINK_CFG n ∧
      t.get F.STALL_LINK_STATUS_CFG_REJECTED n = 1 ∧
      OnlyRegs [(.STALL_LINK_STATUS, n.val), (.STALL_LINK_COUNT, n.val)] s t := by
  have hw := linkCfgWrite_locked h (bit_setBits_same v 1 (k := 9) (by decide))
  have hne : ¬ (s.rd .STALL_LINK_CFG n &&& (0x137 : Word) = s.cfgNew n (setBits v 9 1 1) &&& 0x137) := fun e => by
    obtain ⟨h1, h2⟩ := bits_of_lock e
    rw [cfgNew_width, bits_setEnable v 1 (by decide)] at h2
    have h3 : bits (s.cfgNew n (setBits v 9 1 1)) 0 3 = bits v 0 3 := by
      have hsplit (a : Word) : bits a 0 3 = bits a 0 2 + 4 * bits a 2 1 := by
        simp only [bits, Nat.shiftRight_eq_div_pow]
        omega
      rw [hsplit, hsplit, cfgNew_rate, cfgNew_fec, bits_setEnable v 1 (by decide), bits_setEnable v 1 (by decide)]
    rcases hd with hd | hd
    · exact hd (h3.symm.trans h1.symm)
    · exact hd h2.symm
  rw [if_neg hne] at hw
  refine ⟨_, congrArg (fun a : State => (.next a : Result)) hw, ?_, get_put_same _ _ _ _ (by decide),
    cntCleared_frame s n (setBits v 9 1 1), ?_⟩
  · exact (rd_wr_reg _ _ (by decide) (by omega) (by omega)).trans
      ((cntCleared_regsBut s n _).rd_eq (by omega) (by simp; omega))
  · exact ((cntCleared_regsBut s n _).mono (by simp)).put F.STALL_LINK_STATUS_CFG_REJECTED _ (by simp)

end Sys2Proof.Machine

/-! SUPPORT. A stall enabled and disabled (R85, R87, R120, R138), and the statement O10. -/

namespace Sys2Proof.Machine

/-! ### A link's lanes start -/

/-- The state with a link's resting lanes started, before its state follows them. -/
def State.lanesStarted (s : State) (n : Nat) : State :=
  (s.eachLane (s.linkLanes n) [lnDisabled, lnDeep] State.laneStart).modStall n fun x => { x with wakeAt := s.now, waited := false }

theorem linkStart_eq (s : State) (n : Nat) : s.linkStart n = (s.lanesStarted n).evalLink n := rfl

section Starts

variable (s : State) {n l : Nat}

theorem lanesStarted_only (n : Nat) : LanesOnly (s.linkLanes n) s (s.eachLane (s.linkLanes n) [lnDisabled, lnDeep] State.laneStart) :=
  eachLane_only laneStart_only

theorem lanesStarted_rd (hn : n < 21) {q : Reg} {j : Nat} (hq : q ≠ .LANE_STATUS) (hj : j < 2 ^ 20) :
    (s.lanesStarted n).rd q j = s.rd q j := (lanesStarted_only s n).rd (fun _ => linkLanes_lt hn) hq hj

theorem lanesStarted_sameLinks (hn : n < 21) : SameLinks s (s.lanesStarted n) :=
  ((lanesStarted_only s n).sameLinks fun _ => linkLanes_lt hn).trans (sameLinks_modStall _ n rfl)

theorem linkStart_laneSt (hl : l < 2 ^ 20) : (s.linkStart n).laneSt l = (s.lanesStarted n).laneSt l := (evalLink_moves _ n).laneSt hl

variable {s}

/-- A lane that starts is not ACTIVE. -/
theorem laneStart_resting {a : State} (h : a.laneSt l = lnDisabled ∨ a.laneSt l = lnDeep) : (a.laneStart l).laneSt l ≠ lnActive := by
  unfold State.laneStart
  split
  · rcases h with h | h <;> rw [h] <;> decide
  · split
    · rw [(toWake_enters a l).state]
      decide
    · split
      · rw [(toDeep_enters a l).state]
        decide
      · rcases h with h | h <;> rw [h] <;> decide

/-- What becomes of a resting lane. -/
theorem lanesStarted_at (hn : n < 21) (hl : l ∈ s.linkLanes n) (hst : s.laneSt l = lnDisabled ∨ s.laneSt l = lnDeep) :
    ∃ a, SameLinks s a ∧ a.laneSt l = s.laneSt l ∧ (s.lanesStarted n).laneSt l = (a.laneStart l).laneSt l := by
  obtain ⟨a, ha, has, ha2⟩ := eachLane_at (s := s) (from' := [lnDisabled, lnDeep]) laneStart_only (linkLanes_nodup s n) hl
  refine ⟨a, ha.sameLinks fun k hk => linkLanes_lt hn (List.mem_of_mem_erase hk), has, ?_⟩
  rw [if_pos (by rcases hst with h | h <;> simp [h])] at ha2
  exact ha2.laneSt (linkLanes_nodup s n).not_mem_erase

/-- The resting lanes of a link stay in DEEP in QUIET. -/
theorem lanesStarted_rests (hn : n < 21) (hon : s.linkOn n = true) (hq : s.modeAhead = .quiet) (hl : l ∈ s.linkLanes n)
    (hst : s.laneSt l = lnDisabled ∨ s.laneSt l = lnDeep) (hown : s.ownerOf l = n) (hw : s.laneWanted l = true) :
    (s.lanesStarted n).laneSt l = lnDeep := by
  obtain ⟨a, hsame, -, ha⟩ := lanesStarted_at hn hl hst
  rw [ha, laneStart_rests (by rw [hsame.ownerOf, hown, hsame.linkOn, hon]) (by rw [hsame.laneWanted (linkLanes_lt hn hl), hw])
    (by rw [hsame.mode, hq]), (toDeep_enters a l).state]

/-- A link with a resting lane in its width does not become UP as its lanes start; it keeps the registers of the other stalls. -/
theorem linkStart_keeps (hn : n < 16) (hst : s.laneSt (2 * n) = lnDisabled) {m : Nat} (hm : m < 2 ^ 20) (hne : m ≠ n) :
    (s.linkStart n).rd .STALL_LINK_STATUS m = s.rd .STALL_LINK_STATUS m := by
  have hfirst := mem_widthLanes s (n := n) (by omega)
  obtain ⟨a, -, has, ha⟩ := lanesStarted_at (by omega) (widthLanes_subset s n hfirst) (.inl hst)
  have hact : (s.lanesStarted n).laneSt (2 * n) ≠ lnActive := ha ▸ laneStart_resting (.inl (has.trans hst))
  rw [linkStart_eq, ← lanesStarted_rd s (n := n) (by omega) (q := .STALL_LINK_STATUS) (by decide) hm]
  rcases evalLink_not_up hn (by rwa [(lanesStarted_sameLinks s (by omega)).widthLanes (by omega)]) hact with h | ⟨v, h⟩
  · rw [h]
  · exact (h.regs _ _ (by decide) hm).trans (rd_wr_inst _ _ hne)

end Starts

/-! ### A stall enabled -/

/-- The registers of stall `n` and of stall n + 1 as an enable leaves them, before the lanes start. -/
def State.enableShown (s : State) (n : Nat) : State :=
  let s1 := ((s.put F.STALL_LINK_CFG_ENABLE n 1).put F.STALL_LINK_STATUS_WIDTH n (s.get F.STALL_LINK_CFG_MAX_WIDTH n)).showBorrow n true
  let s2 := ((s1.put F.STALL_LINK_STATUS_FAULT_CAUSE n 0).put F.STALL_PROTO_STATUS_CAM_STATE n 0).modStall n fun x =>
    { x with ref := none, skip := none, gapPend := false, ppOpen := none, ppLines := 0, ppBad := false, ppId := 0 }
  s2.put F.STALL_LINK_STATUS_STATE n lsDown

theorem stallEnable_starts {s : State} {n : Nat} (hf : (s.enableShown n).fwdIn n = false) (hon : (s.enableShown n).linkOn n = true) :
    s.stallEnable n = (s.enableShown n).linkStart n := by
  change (if (s.enableShown n).fwdIn n then _ else if (s.enableShown n).linkOn n then (s.enableShown n).linkStart n else _) = _
  rw [if_neg (by simp [hf]), if_pos hon]

theorem showBorrow_regsBut (s : State) (n : Nat) (on : Bool) : RegsBut [(.STALL_LINK_STATUS, n + 1)] s (s.showBorrow n on) := by
  unfold State.showBorrow
  split
  · exact ((RegsBut.refl _ s).put F.STALL_LINK_STATUS_STATE _ List.mem_cons_self).put F.STALL_LINK_STATUS_BORROWED _ List.mem_cons_self
  · exact .refl _ s

theorem showBorrow_frame (s : State) (n : Nat) (on : Bool) : { s.showBorrow n on with regs := s.regs } = s := by
  unfold State.showBorrow
  split <;> rfl

/-- The fields of stall `n` itself. -/
theorem get_showBorrow_same (s : State) (n : Nat) (on : Bool) (f : Fld) (hn : n < 16) : (s.showBorrow n on).get f n = s.get f n :=
  get_congr (showBorrow_regsBut s n on _ _ fun p hp e => by
    rw [List.mem_singleton] at hp
    subst hp
    exact absurd (regKey_inj (by omega) (by omega) e).2 (by omega))

/-- Stall n + 1 while its lanes are held. -/
theorem showBorrow_shows {s : State} {n : Nat} (on : Bool) (hw : s.get F.STALL_LINK_CFG_MAX_WIDTH n = 2) (he : n % 2 = 0) :
    (s.showBorrow n on).stState (n + 1) = (if on then lsBorrowed else lsDisabled) ∧
      (s.showBorrow n on).get F.STALL_LINK_STATUS_BORROWED (n + 1) = b2n on := by
  unfold State.showBorrow
  rw [if_pos ⟨hw, he⟩]
  constructor
  · refine (get_put_beside _ F.STALL_LINK_STATUS_BORROWED F.STALL_LINK_STATUS_STATE _ _ rfl (by decide)).trans
      ((get_put_same _ _ _ _ (by decide)).trans ?_)
    cases on <;> decide
  · rw [get_put_same _ _ _ _ (by decide)]
    cases on <;> decide

section Shown

variable (s : State) {n : Nat} (hn : n < 16)

theorem enableShown_regsBut (n : Nat) :
    RegsBut [(.STALL_LINK_CFG, n), (.STALL_LINK_STATUS, n), (.STALL_LINK_STATUS, n + 1), (.STALL_PROTO_STATUS, n)] s (s.enableShown n) := by
  unfold State.enableShown
  dsimp only
  refine RegsBut.put ?_ F.STALL_LINK_STATUS_STATE _ (by simp)
  refine RegsBut.trans ?_ (.of_regs (modStall_regs ..) _)
  refine RegsBut.put (RegsBut.put (RegsBut.trans ?_ ((showBorrow_regsBut _ n true).mono (by simp))) F.STALL_LINK_STATUS_FAULT_CAUSE _ (by simp))
    F.STALL_PROTO_STATUS_CAM_STATE _ (by simp)
  exact ((RegsBut.refl _ s).put F.STALL_LINK_CFG_ENABLE _ (by simp)).put F.STALL_LINK_STATUS_WIDTH _ (by simp)

theorem enableShown_ctl (n : Nat) : (s.enableShown n).ctl = s.ctl :=
  (congrArg State.ctl (showBorrow_frame ((s.put F.STALL_LINK_CFG_ENABLE n 1).put F.STALL_LINK_STATUS_WIDTH n _) n true) :)

/-- A register that an enable does not write. -/
theorem enableShown_rd {q : Reg} {j : Nat} (hq : q ∉ [.STALL_LINK_CFG, .STALL_LINK_STATUS, .STALL_PROTO_STATUS]) (hj : j < 2 ^ 20) (hn : n < 16) :
    (s.enableShown n).rd q j = s.rd q j := by
  simp only [List.mem_cons, List.not_mem_nil, or_false, not_or] at hq
  exact (enableShown_regsBut s n).rd_eq hj (by simp [hq]; omega)

include hn

theorem enableShown_cfg : (s.enableShown n).rd .STALL_LINK_CFG n = setBits (s.rd .STALL_LINK_CFG n) 9 1 1 := by
  have hb : RegsBut [(.STALL_LINK_STATUS, n), (.STALL_LINK_STATUS, n + 1), (.STALL_PROTO_STATUS, n)] (s.put F.STALL_LINK_CFG_ENABLE n 1)
      (s.enableShown n) := by
    unfold State.enableShown
    dsimp only
    refine RegsBut.put ?_ F.STALL_LINK_STATUS_STATE _ (by simp)
    refine RegsBut.trans ?_ (.of_regs (modStall_regs ..) _)
    refine RegsBut.put (RegsBut.put (RegsBut.trans ?_ ((showBorrow_regsBut _ n true).mono (by simp))) F.STALL_LINK_STATUS_FAULT_CAUSE _ (by simp))
      F.STALL_PROTO_STATUS_CAM_STATE _ (by simp)
    exact (RegsBut.refl _ _).put F.STALL_LINK_STATUS_WIDTH _ (by simp)
  exact (hb.rd_eq (by omega) (by simp; omega)).trans (rd_wr_same ..)

/-- The configuration of another stall. -/
theorem enableShown_cfg_other {m : Nat} (hm : m < 2 ^ 20) (h : m ≠ n) : (s.enableShown n).rd .STALL_LINK_CFG m = s.rd .STALL_LINK_CFG m := by
  refine enableShown_regsBut s n _ _ fun p hp e => ?_
  simp only [List.mem_cons, List.not_mem_nil, or_false] at hp
  have hkey := regKey_inj hm (show p.2 < 2 ^ 20 by rcases hp with rfl | rfl | rfl | rfl <;> simp <;> omega) e
  rcases hp with rfl | rfl | rfl | rfl
  · exact h hkey.2
  all_goals cases hkey.1

theorem enableShown_width : (s.enableShown n).get F.STALL_LINK_STATUS_WIDTH n = s.get F.STALL_LINK_CFG_MAX_WIDTH n := by
  unfold State.enableShown
  dsimp only
  rw [get_put_beside _ F.STALL_LINK_STATUS_STATE F.STALL_LINK_STATUS_WIDTH _ _ rfl (by decide), get_congr (rd_congr (modStall_regs ..) _ _),
    get_put_reg _ _ _ _ _ _ (by decide) (by omega) (by omega),
    get_put_beside _ F.STALL_LINK_STATUS_FAULT_CAUSE F.STALL_LINK_STATUS_WIDTH _ _ rfl (by decide), get_showBorrow_same _ _ _ _ hn,
    get_put_same _ _ _ _ (by decide)]
  exact Nat.mod_eq_of_lt (get_lt s F.STALL_LINK_CFG_MAX_WIDTH n)

theorem enableShown_cause : (s.enableShown n).get F.STALL_LINK_STATUS_FAULT_CAUSE n = 0 := by
  unfold State.enableShown
  dsimp only
  rw [get_put_beside _ F.STALL_LINK_STATUS_STATE F.STALL_LINK_STATUS_FAULT_CAUSE _ _ rfl (by decide), get_congr (rd_congr (modStall_regs ..) _ _),
    get_put_reg _ _ _ _ _ _ (by decide) (by omega) (by omega), get_put_same _ _ _ _ (by decide)]
  rfl

/-- Stall n + 1 shows BORROWED. -/
theorem enableShown_borrowed (hw : s.get F.STALL_LINK_CFG_MAX_WIDTH n = 2) (he : n % 2 = 0) :
    (s.enableShown n).stState (n + 1) = lsBorrowed ∧ (s.enableShown n).get F.STALL_LINK_STATUS_BORROWED (n + 1) = 1 := by
  let p := (s.put F.STALL_LINK_CFG_ENABLE n 1).put F.STALL_LINK_STATUS_WIDTH n (s.get F.STALL_LINK_CFG_MAX_WIDTH n)
  have hp : p.get F.STALL_LINK_CFG_MAX_WIDTH n = 2 := by
    refine (get_congr (rd_wr_reg _ _ (by decide) (by omega) (by omega))).trans ?_
    exact (get_put_beside s F.STALL_LINK_CFG_ENABLE F.STALL_LINK_CFG_MAX_WIDTH _ _ rfl (by decide)).trans hw
  obtain ⟨h1, h2⟩ := showBorrow_shows true hp he
  have hrd : (s.enableShown n).rd .STALL_LINK_STATUS (n + 1) = (p.showBorrow n true).rd .STALL_LINK_STATUS (n + 1) := by
    unfold State.enableShown
    dsimp only
    refine (rd_wr_inst _ _ (by omega)).trans ((rd_congr (modStall_regs ..) _ _).trans ?_)
    exact (rd_wr_reg _ _ (by decide) (by omega) (by omega)).trans (rd_wr_inst _ _ (by omega))
  exact ⟨(get_congr (f := F.STALL_LINK_STATUS_STATE) hrd).trans h1, (get_congr (f := F.STALL_LINK_STATUS_BORROWED) hrd).trans h2⟩

end Shown

/-! ### The lanes of a stall being enabled (R84, R85) -/

section Lanes

variable {s : State} {n w : Nat} (hn : n < 16) (hmax : s.get F.STALL_LINK_CFG_MAX_WIDTH n = w) (hw : w < 3)
include hn hmax hw

theorem mem_linkLanes_width {k : Nat} (hk : k < 2 ^ w) : 2 * n + k ∈ s.linkLanes n := by
  rw [linkLanes_stall s (by omega)]
  refine List.mem_map.mpr ⟨k, List.mem_range.mpr ?_, rfl⟩
  have hm : s.maxCode n = w := (if_neg (by unfold cwLink; omega)).trans hmax
  rw [hm]
  interval_cases w <;> simp at hk ⊢ <;> omega

omit hmax hw in
theorem widthLanes_width (hwidth : s.get F.STALL_LINK_STATUS_WIDTH n = w) {l : Nat} (hl : l ∈ s.widthLanes n) :
    ∃ k, k < 2 ^ w ∧ l = 2 * n + k := by
  have hc : s.widthCode n = w := (if_neg (by unfold cwLink; omega)).trans hwidth
  unfold State.widthLanes at hl
  rw [linkLanes_stall s (by omega), hc, ← List.map_take, List.take_range] at hl
  obtain ⟨k, hk, rfl⟩ := List.mem_map.mp hl
  exact ⟨k, by have := List.mem_range.mp hk; omega, rfl⟩

theorem ownerOf_width (hon : s.isOn F.STALL_LINK_CFG_ENABLE n = true) (heven : w = 2 → n % 2 = 0)
    (hodd : n % 2 = 1 → s.isOn F.STALL_LINK_CFG_ENABLE (n - 1) = false) {k : Nat} (hk : k < 2 ^ w) : s.ownerOf (2 * n + k) = n := by
  have hk4 : k < 2 ∨ w = 2 ∧ k < 4 := by interval_cases w <;> simp at hk ⊢ <;> omega
  unfold State.ownerOf State.borrows
  rw [if_neg (by rcases hk4 with h | h <;> omega)]
  by_cases hlow : k < 2
  · have hdiv : (2 * n + k) / 2 = n := by omega
    rw [hdiv]
    refine if_neg fun h => ?_
    rw [hodd h.1] at h
    simp at h
  · obtain ⟨rfl, -⟩ := hk4.resolve_left hlow
    have he := heven rfl
    have hdiv : (2 * n + k) / 2 = n + 1 := by omega
    rw [hdiv, Nat.add_sub_cancel, if_pos ⟨by omega, by simp [hon, hmax]⟩]

omit hmax hw in
theorem laneWanted_width (hwidth : s.get F.STALL_LINK_STATUS_WIDTH n = w) {k : Nat} (hk : k < 2 ^ w) (hw : 2 * n + k < 32)
    (hown : s.ownerOf (2 * n + k) = n) : s.laneWanted (2 * n + k) = true := by
  have hc : s.widthCode n = w := (if_neg (by unfold cwLink; omega)).trans hwidth
  have hidx : s.laneIdx (2 * n + k) = k := by
    unfold State.laneIdx
    rw [if_neg (by omega), hown]
    omega
  unfold State.laneWanted
  dsimp only
  rw [hown, hidx, hc, Bool.or_eq_true]
  left
  rw [decide_eq_true_eq]
  split
  · exact hk.trans_le (Nat.pow_le_pow_right (by decide) (Nat.le_max_right _ _))
  · exact hk

end Lanes

/-- The lanes of the width, at rest, start as the mode has it. -/
theorem linkStart_width {s : State} {n w : Nat} (hn : n < 16) (hmax : s.get F.STALL_LINK_CFG_MAX_WIDTH n = w) (hw : w < 3)
    (hwidth : s.get F.STALL_LINK_STATUS_WIDTH n = w) (hcause : s.get F.STALL_LINK_STATUS_FAULT_CAUSE n = 0)
    (hon : s.linkOn n = true) (hen : s.isOn F.STALL_LINK_CFG_ENABLE n = true) (heven : w = 2 → n % 2 = 0)
    (hodd : n % 2 = 1 → s.isOn F.STALL_LINK_CFG_ENABLE (n - 1) = false) (hst : ∀ k, k < 2 ^ w → s.laneSt (2 * n + k) = lnDisabled) :
    (s.lanesOpen = true → (s.linkStart n).stState n = lsDown ∧ ∀ k, k < 2 ^ w → (s.linkStart n).laneSt (2 * n + k) = lnWake) ∧
      (s.modeAhead = .quiet → (s.linkStart n).stState n = lsDeep ∧ ∀ k, k < 2 ^ w → (s.linkStart n).laneSt (2 * n + k) = lnDeep) := by
  have hk8 : ∀ k, k < 2 ^ w → k < 2 ∨ w = 2 ∧ k < 4 := fun k hk => by interval_cases w <;> simp at hk ⊢ <;> omega
  have hbound : ∀ k, k < 2 ^ w → 2 * n + k < 32 := fun k hk => by
    rcases hk8 k hk with h | ⟨h2, h⟩
    · omega
    · have := heven h2
      omega
  have hmem : ∀ k, k < 2 ^ w → 2 * n + k ∈ s.linkLanes n := fun k => mem_linkLanes_width hn hmax hw
  have hown : ∀ k, k < 2 ^ w → s.ownerOf (2 * n + k) = n := fun k => ownerOf_width hn hmax hw hen heven hodd
  have hwant : ∀ k, k < 2 ^ w → s.laneWanted (2 * n + k) = true := fun k hk => laneWanted_width hn hwidth hk (hbound k hk) (hown k hk)
  have hlinks := lanesStarted_sameLinks s (n := n) (by omega)
  have hwl : (s.lanesStarted n).widthLanes n = s.widthLanes n := hlinks.widthLanes (by omega)
  have hstate : (s.linkStart n).stState n = (s.lanesStarted n).linkTarget n := by
    rw [linkStart_eq]
    exact evalLink_stState hn ((hlinks.linkOn n).trans hon)
  constructor
  · intro hopen
    have hwake : ∀ k, k < 2 ^ w → (s.linkStart n).laneSt (2 * n + k) = lnWake := fun k hk =>
      linkStart_wakes (by omega) hon hopen (hmem k hk) (.inr (hst k hk)) (hown k hk) (hwant k hk)
    refine ⟨?_, hwake⟩
    have h0 := hwake 0 (by positivity)
    rw [Nat.add_zero, linkStart_laneSt s (by omega)] at h0
    rw [hstate, linkTarget_of_training (hwl ▸ mem_widthLanes s (by omega)) (by rw [h0]; decide),
      get_congr (lanesStarted_rd s (by omega) (by decide) (by omega)), hcause]
    rfl
  · intro hq
    have hdeep : ∀ k, k < 2 ^ w → (s.lanesStarted n).laneSt (2 * n + k) = lnDeep := fun k hk =>
      lanesStarted_rests (by omega) hon hq (hmem k hk) (.inl (hst k hk)) (hown k hk) (hwant k hk)
    refine ⟨?_, fun k hk => (linkStart_laneSt s (by have := hbound k hk; omega)).trans (hdeep k hk)⟩
    rw [hstate]
    refine linkTarget_all lnDeep lsDeep (by omega) (by decide) fun l hl => ?_
    obtain ⟨k, hk, rfl⟩ := widthLanes_width hn hwidth (hwl ▸ hl)
    exact hdeep k hk

end Sys2Proof.Machine

/-! SUPPORT. The statement O10: an enable that R87 allows, a disable, and the counters cleared. -/

namespace Sys2Proof.Machine

/-! ### An enable that is allowed -/

section Allowed

variable (s : State) {n : Nat} (w : Word) (hn : n < 16)
include hn

/-- STALL_LINK_CFG of a stall that a write of `w` enables. -/
theorem enabled_cfg : ((s.cfgWritten n w).enableShown n).rd .STALL_LINK_CFG n = setBits (setBits (s.cfgNew n w) 9 1 0) 9 1 1 := by
  rw [enableShown_cfg _ hn, cfgWritten_rd]

theorem enabled_rate : ((s.cfgWritten n w).enableShown n).get F.STALL_LINK_CFG_RATE n = bits w 0 2 := by
  rw [State.get, enabled_cfg s w hn, bits_setEnable _ _ (by decide), bits_setEnable _ _ (by decide), cfgNew_rate]

omit hn in
theorem cfgWritten_width : (s.cfgWritten n w).get F.STALL_LINK_CFG_MAX_WIDTH n = bits w 4 2 := by
  rw [State.get, cfgWritten_rd, bits_setEnable _ _ (by decide), cfgNew_width]

theorem enabled_max : ((s.cfgWritten n w).enableShown n).get F.STALL_LINK_CFG_MAX_WIDTH n = bits w 4 2 := by
  rw [State.get, enabled_cfg s w hn, bits_setEnable _ _ (by decide), bits_setEnable _ _ (by decide), cfgNew_width]

theorem enabled_on : ((s.cfgWritten n w).enableShown n).isOn F.STALL_LINK_CFG_ENABLE n = true := by
  rw [← bit_eq_isOn _ .STALL_LINK_CFG, enabled_cfg s w hn]
  exact bit_setBits_same _ _ (by decide)

theorem enabled_pport : ((s.cfgWritten n w).enableShown n).isOn F.STALL_LINK_CFG_PPORT_SEL n = (decide (14 ≤ n) && bit w 8) := by
  rw [← bit_eq_isOn _ .STALL_LINK_CFG, enabled_cfg s w hn, bit_setBits_other _ _ (by decide), bit_setBits_other _ _ (by decide), cfgNew_pport]

theorem enabled_other {m : Nat} (hm : m < 2 ^ 20) (h : m ≠ n) :
    ((s.cfgWritten n w).enableShown n).isOn F.STALL_LINK_CFG_ENABLE m = s.isOn F.STALL_LINK_CFG_ENABLE m :=
  (congrArg (fun x => decide (x = 1)) (get_congr (f := F.STALL_LINK_CFG_ENABLE) (enableShown_cfg_other _ hn hm h))).trans
    (cfgWritten_enabled hn hm h)

/-- A register that the write does not touch. -/
theorem enabled_rd {q : Reg} {j : Nat} (hq : q ∉ [.STALL_LINK_CFG, .STALL_LINK_COUNT, .STALL_LINK_STATUS, .STALL_PROTO_STATUS])
    (hj : j < 2 ^ 20) : ((s.cfgWritten n w).enableShown n).rd q j = s.rd q j := by
  simp only [List.mem_cons, List.not_mem_nil, or_false, not_or] at hq
  obtain ⟨h1, h2, h3, h4⟩ := hq
  exact (enableShown_rd _ (by simp [h1, h3, h4]) hj hn).trans ((cfgWritten_regsBut s n w).rd_eq hj (by simp [h1, h2]; omega))

omit hn in
theorem enabled_ctl : ((s.cfgWritten n w).enableShown n).ctl = s.ctl :=
  (enableShown_ctl _ n).trans (congrArg State.ctl (cfgWritten_frame s n w) :)

theorem enabled_fwdIn (m : Nat) : ((s.cfgWritten n w).enableShown n).fwdIn m = s.fwdIn m := by
  unfold State.fwdIn State.isOn State.get
  rw [enabled_rd s w hn (by decide) (by decide)]

omit hn in
theorem enabled_mode : ((s.cfgWritten n w).enableShown n).modeAhead = s.modeAhead := by
  unfold State.modeAhead
  rw [enabled_ctl]

theorem enabled_open : ((s.cfgWritten n w).enableShown n).lanesOpen = s.lanesOpen := by
  unfold State.lanesOpen State.get
  rw [enabled_mode, enabled_rd s w hn (by decide) (by decide)]

theorem enabled_laneSt {l : Nat} (hl : l < 2 ^ 20) : ((s.cfgWritten n w).enableShown n).laneSt l = s.laneSt l :=
  get_congr (f := F.LANE_STATUS_STATE) (enabled_rd s w hn (by decide) hl)

end Allowed

/-- An enable that R87 allows. -/
theorem stallEnable_allowed (n : Fin 16) (v : Word) {s : State} (h : s.isOn F.STALL_LINK_CFG_ENABLE n = false)
    (hr : bits v 0 2 < 3) (hw : bits v 4 2 < 3) (hf : s.fwdIn n = false) (hp : bits v 8 1 = 0)
    (h2 : bits v 4 2 = 2 → n.val % 2 = 0 ∧ s.isOn F.STALL_LINK_CFG_ENABLE (n.val + 1) = false)
    (h1 : n.val % 2 = 1 → s.isOn F.STALL_LINK_CFG_ENABLE (n.val - 1) = false)
    (hst : ∀ k, k < 2 * 2 ^ (bits v 4 2 / 2) → s.laneSt (2 * n.val + k) = lnDisabled) :
    ∃ t, exec (.stallEnable n v) s = .next t ∧ t.isOn F.STALL_LINK_CFG_ENABLE n = true ∧
      t.get F.STALL_LINK_STATUS_WIDTH n = bits v 4 2 ∧ t.get F.STALL_LINK_CFG_RATE n = bits v 0 2 ∧
      (s.lanesOpen = true → t.stState n = lsDown ∧ ∀ k, k < 2 ^ bits v 4 2 → t.laneSt (2 * n.val + k) = lnWake) ∧
      (s.modeAhead = .quiet → t.stState n = lsDeep ∧ ∀ k, k < 2 ^ bits v 4 2 → t.laneSt (2 * n.val + k) = lnDeep) ∧
      (bits v 4 2 = 2 → t.stState (n.val + 1) = lsBorrowed ∧ t.get F.STALL_LINK_STATUS_BORROWED (n.val + 1) = 1) := by
  let w := setBits v 9 1 1
  let q := (s.cfgWritten n w).enableShown n
  have hw2 : bits w 4 2 = bits v 4 2 := bits_setEnable v 1 (by decide)
  have hw0 : bits w 0 2 = bits v 0 2 := bits_setEnable v 1 (by decide)
  have hpp : (decide (14 ≤ n.val) && bit w 8) = false := by
    rw [bits_one_eq_bit] at hp
    rw [show bit w 8 = bit v 8 from bit_setBits_other v 1 (by decide)]
    cases hb : bit v 8
    · exact Bool.and_false _
    · rw [hb] at hp
      cases hp
  have hon : q.linkOn n = true := by
    unfold State.linkOn
    rw [if_neg (by unfold cwLink; omega), enabled_on s w n.isLt, enabled_pport s w n.isLt, enabled_fwdIn s w n.isLt, hpp, hf]
    simp
  have hq : q.fwdIn n = false := (enabled_fwdIn s w n.isLt n).trans hf
  have hexec := linkCfgWrite_enables h (bit_setBits_same v 1 (k := 9) (by decide))
  rw [if_neg fun e => ?_, stallEnable_starts hq hon] at hexec
  · have hpow : 2 ^ bits v 4 2 ≤ 2 * 2 ^ (bits v 4 2 / 2) := by interval_cases bits v 4 2 <;> decide
    have hbound : ∀ k, k < 2 ^ bits v 4 2 → k < 8 := fun k hk => hk.trans_le (by interval_cases bits v 4 2 <;> decide)
    obtain ⟨hopen, hquiet⟩ := linkStart_width (s := q) n.isLt ((enabled_max s w n.isLt).trans hw2) hw
      (((enableShown_width _ n.isLt).trans (cfgWritten_width s w)).trans hw2) (enableShown_cause _ n.isLt) hon (enabled_on s w n.isLt)
      (fun e => (h2 e).1) (fun e => (enabled_other s w n.isLt (by omega) (by omega)).trans (h1 e)) fun k hk =>
        (enabled_laneSt s w n.isLt (by have := hbound k hk; omega)).trans (hst k (hk.trans_le hpow))
    have hmoves : LinkMoves (q.lanesStarted n) (q.linkStart n) := evalLink_moves _ n
    have hcfg : (q.linkStart n).rd .STALL_LINK_CFG n = q.rd .STALL_LINK_CFG n :=
      (hmoves.regs _ _ (by decide) (by decide) (by decide) (by omega)).trans (lanesStarted_rd q (by omega) (by decide) (by omega))
    refine ⟨_, congrArg (fun a : State => (.next a : Result)) hexec, ?_, ?_, ?_, fun e => hopen ((enabled_open s w n.isLt).trans e),
      fun e => hquiet ((enabled_mode s w).trans e), fun e => ?_⟩
    · rw [← bit_eq_isOn _ .STALL_LINK_CFG, hcfg, bit_eq_isOn]
      exact enabled_on s w n.isLt
    · refine (hmoves.shown n 4 2 (by omega) (by decide) (by decide)).trans ?_
      rw [lanesStarted_rd q (by omega) (by decide) (by omega)]
      exact ((enableShown_width _ n.isLt).trans (cfgWritten_width s w)).trans hw2
    · exact (get_congr (f := F.STALL_LINK_CFG_RATE) hcfg).trans ((enabled_rate s w n.isLt).trans hw0)
    · obtain ⟨hb1, hb2⟩ := enableShown_borrowed (s.cfgWritten n w) n.isLt ((cfgWritten_width s w).trans (hw2.trans e)) (h2 e).1
      have hkeep : (q.linkStart n).rd .STALL_LINK_STATUS (n + 1) = q.rd .STALL_LINK_STATUS (n + 1) :=
        linkStart_keeps n.isLt ((enabled_laneSt s w n.isLt (by omega)).trans (hst 0 (by positivity))) (by omega) (by omega)
      exact ⟨(get_congr (f := F.STALL_LINK_STATUS_STATE) hkeep).trans hb1, (get_congr (f := F.STALL_LINK_STATUS_BORROWED) hkeep).trans hb2⟩
  · rw [show bits (setBits v 9 1 1) 0 2 = bits v 0 2 from hw0, show bits (setBits v 9 1 1) 4 2 = bits v 4 2 from hw2,
      show (decide (14 ≤ n.val) && bit (setBits v 9 1 1) 8) = false from hpp, linkRefused_iff n.isLt] at e
    rcases e with e | e | ⟨e, he⟩ | ⟨e, he, -⟩
    · omega
    · omega
    · rcases he with he | he | he
      · have := (h2 e).1
        omega
      · cases he
      · exact Bool.false_ne_true ((h2 e).2.symm.trans he)
    · exact Bool.false_ne_true ((h1 e).symm.trans he)

/-! ### A disable (R138) -/

/-- The lanes of a link once it has stopped. -/
theorem linkStop_laneSt (s : State) {n l : Nat} (hl : l ∈ s.linkLanes n) : (s.linkStop n).laneSt l = lnDisabled := by
  obtain ⟨a, -, ha⟩ := foldl_at (s := s) (f := State.toDisabled) (fun a k => (toDisabled_enters a k).only) (linkLanes_nodup s n) hl
  exact (ha.laneSt (linkLanes_nodup s n).not_mem_erase).trans (toDisabled_enters a l).state

/-- The state of a stall being disabled, once its lanes have stopped. -/
def State.stallStopped (s : State) (n : Nat) : State := (if s.linkOn n then s.linkStop n else s).setLink n lsDisabled

/-- What a disable does once the stall has stopped. -/
def State.stallCleared (s : State) (n : Nat) (pend : Bool) : State :=
  let s3 := s.modStall n fun x => { x with goal := none, switch := none, camRetrain := false, retrainDue := false, wakeAt := 0, waited := false }
  (((if pend then s3.lmResult n .software lrRetrained else s3).put
    F.STALL_LINK_STATUS_FAULT_CAUSE n 0).showBorrow n false).put F.STALL_LINK_CFG_ENABLE n 0

theorem stallDisable_eq {s : State} {n : Nat} (h : (s.stall n).lm = none) : s.stallDisable n =
    (s.stallStopped n).stallCleared n ((s.stall n).retrainDue || (s.stall n).goal.any (fun g => g.2 == .software)) := by
  unfold State.stallDisable
  rw [lmCancel_none h]
  rfl

section Disabled

variable (s : State) {n : Nat} (hn : n < 16) (pend : Bool)
include hn

theorem stallCleared_laneSt {l : Nat} (hl : l < 2 ^ 20) : (s.stallCleared n pend).laneSt l = s.laneSt l := by
  unfold State.stallCleared State.laneSt
  dsimp only
  rw [get_put_reg _ _ _ _ _ _ (by decide) (by omega) hl, (showBorrow_regsBut _ n false).get_eq _ hl (by simp; omega),
    get_put_reg _ _ _ _ _ _ (by decide) (by omega) hl]
  split
  · exact (lmResult_regsBut _ _ _).get_eq F.LANE_STATUS_STATE hl (by simp; omega)
  · rfl

theorem stallCleared_stState : (s.stallCleared n pend).stState n = s.stState n := by
  unfold State.stallCleared State.stState
  dsimp only
  rw [get_put_reg _ _ _ _ _ _ (by decide) (by omega) (by omega), get_showBorrow_same _ _ _ _ hn,
    get_put_beside _ F.STALL_LINK_STATUS_FAULT_CAUSE F.STALL_LINK_STATUS_STATE _ _ rfl (by decide)]
  split
  · exact (lmResult_regsBut _ _ _).get_eq F.STALL_LINK_STATUS_STATE (by omega) (by simp; omega)
  · rfl

omit hn in
theorem stallCleared_stall : ((s.stallCleared n pend).stall n).goal = none ∧ ((s.stallCleared n pend).stall n).switch = none := by
  have hst : (s.stallCleared n pend).stall n = { s.stall n with
      goal := none, switch := none, camRetrain := false, retrainDue := false, wakeAt := 0, waited := false } := by
    unfold State.stallCleared
    dsimp only
    refine (stall_congr (congrArg State.stalls (showBorrow_frame _ n false) :) n).trans ?_
    split
    · exact (lmResult_stall ..).trans (stall_modStall_same ..)
    · exact (stall_congr (put_stalls _ F.STALL_LINK_STATUS_FAULT_CAUSE n 0) n).trans (stall_modStall_same ..)
  exact ⟨congrArg Stall.goal hst, congrArg Stall.switch hst⟩

end Disabled

/-- A disable of a stall without a request outstanding. -/
theorem stallDisable_effect (n : Fin 16) (v : Word) {s : State} (h : s.isOn F.STALL_LINK_CFG_ENABLE n = true) (hlm : (s.stall n).lm = none) :
    ∃ t, exec (.stallDisable n v) s = .next t ∧ t.isOn F.STALL_LINK_CFG_ENABLE n = false ∧ t.stState n = lsDisabled ∧
      t.get F.STALL_LINK_CFG_RATE n = bits v 0 2 ∧ t.get F.STALL_LINK_CFG_MAX_WIDTH n = bits v 4 2 ∧
      (s.linkOn n = true → ∀ l ∈ s.linkLanes n, t.laneSt l = lnDisabled) ∧ (t.stall n).goal = none ∧ (t.stall n).switch = none := by
  let w := setBits v 9 1 0
  have hw9 : bit w 9 = false := bit_setBits_same v 0 (by decide)
  have hexec := linkCfgWrite_disables h hw9
  rw [stallDisable_eq ((congrArg Stall.lm (cntCleared_stall s n w n)).trans hlm)] at hexec
  have hlinks := cntCleared_sameLinks s n w (by omega)
  obtain ⟨hgoal, hswitch⟩ := stallCleared_stall ((s.cntCleared n w).stallStopped n) (n := n)
    (((s.cntCleared n w).stall n).retrainDue || ((s.cntCleared n w).stall n).goal.any (fun g => g.2 == .software))
  refine ⟨_, congrArg (fun a : State => (.next a : Result)) hexec, ?_, ?_, ?_, ?_, fun hon l hl => ?_, hgoal, hswitch⟩
  · rw [← bit_eq_isOn _ .STALL_LINK_CFG, rd_wr_same, cfgNew_enable]
    exact hw9
  · refine (get_congr (f := F.STALL_LINK_STATUS_STATE) (rd_wr_reg _ _ (by decide) (by omega) (by omega))).trans
      ((stallCleared_stState _ n.isLt _).trans ?_)
    exact setLink_stState _ n.isLt (by decide)
  · rw [State.get, rd_wr_same, cfgNew_rate]
    exact bits_setEnable v 0 (by decide)
  · rw [State.get, rd_wr_same, cfgNew_width]
    exact bits_setEnable v 0 (by decide)
  · have hl20 := linkLanes_lt (by omega) hl
    refine (get_congr (f := F.LANE_STATUS_STATE) (rd_wr_reg _ _ (by decide) (by omega) hl20)).trans
      ((stallCleared_laneSt _ n.isLt _ hl20).trans ?_)
    unfold State.stallStopped
    rw [(setLink_moves _ n.isLt _).laneSt hl20, if_pos ((hlinks.linkOn n).trans hon)]
    exact linkStop_laneSt _ (by rwa [hlinks.linkLanes (by omega)])

/-- Settles O10 (R85 to R87, R138, R143): an enable refused, allowed or of an enabled stall, a disable, and CNT_CLEAR. -/
theorem stallsAreEnabledAndDisabled : Obligations.StallsAreEnabledAndDisabled := by
  refine ⟨fun n v s h => ⟨fun hr => stallEnable_refused n v h hr, fun hr hw hf hp h2 h1 hst => stallEnable_allowed n v h hr hw hf hp h2 h1 hst⟩,
    fun n v s h => ⟨fun hd => stallEnable_locked n v h hd, fun hlm => stallDisable_effect n v h hlm⟩, fun n s => ?_⟩
  exact ⟨_, rfl, rd_wr_same .., rfl, (RegsBut.refl _ s).wr _ List.mem_cons_self⟩

end Sys2Proof.Machine

/-! SUPPORT. Lane tests (R134 to R136, R144 to R149): TEST entered and left, injections, the checker and its counters, and the statement
O13. -/

namespace Sys2Proof.Machine

/-! ### Counters and links beside a lane's own registers -/

/-- A saturating counter after `k` more. -/
theorem get_addSat_same (s : State) (f : Fld) (i k : Nat) (h : f.lo + f.w ≤ 64) : (s.addSat f i k).get f i = min (s.get f i + k) (2 ^ f.w - 1) := by
  unfold State.addSat
  rw [get_put_same _ _ _ _ h, satAdd, Nat.mod_eq_of_lt]
  have : 0 < 2 ^ f.w := by positivity
  omega

theorem isOn_congr {s t : State} {f g : Fld} {i j : Nat} (h : t.get f i = s.get g j) : t.isOn f i = s.isOn g j :=
  congrArg (fun x => decide (x = 1)) h

/-- States with one set of link configurations have one owner for each lane. -/
theorem ownerOf_congr {s t : State} {l : Nat} (hl : l < 40) (h : ∀ n, n < 2 ^ 20 → t.rd .STALL_LINK_CFG n = s.rd .STALL_LINK_CFG n) :
    t.ownerOf l = s.ownerOf l := by
  have hb : t.borrows (l / 2 - 1) = s.borrows (l / 2 - 1) := by
    unfold State.borrows State.isOn State.get
    rw [h _ (by omega)]
  unfold State.ownerOf
  rw [hb]

/-- A stall that is not enabled runs no lane. -/
theorem linkOn_of_disabled {s : State} {n : Nat} (hn : n < 16) (h : s.isOn F.STALL_LINK_CFG_ENABLE n = false) : s.linkOn n = false := by
  unfold State.linkOn
  rw [if_neg (by unfold cwLink; omega), h]
  simp

/-! ### LANE_CTRL (Table 3.19) -/

/-- The state with `w` written to LANE_CTRL and the counters cleared where `w` asks for it, before TEST_EN acts. -/
def State.laneWritten (s : State) (l : Nat) (w : Word) : State :=
  let s1 := s.wr .LANE_CTRL l (writeFields .LANE_CTRL (s.rd .LANE_CTRL l) w allBytes)
  if bit (w &&& allBytes) 15 then s1.laneCntClear l else s1

theorem laneCntClear_regsBut (s : State) (l : Nat) :
    RegsBut [(.LANE_FEC_CW_CORR, l), (.LANE_FEC_CW_UNCORR, l), (.LANE_FEC_SYM_CORR, l), (.LANE_BLOCK_ERR, l)] s (s.laneCntClear l) := by
  unfold State.laneCntClear State.rst
  exact ((((RegsBut.refl _ s).wr _ (by simp)).wr _ (by simp)).wr _ (by simp)).wr _ (by simp)

section LaneWritten

variable (s : State) (l : Nat) (w : Word)

theorem laneWritten_regsBut : RegsBut [(.LANE_CTRL, l), (.LANE_FEC_CW_CORR, l), (.LANE_FEC_CW_UNCORR, l), (.LANE_FEC_SYM_CORR, l),
    (.LANE_BLOCK_ERR, l)] s (s.laneWritten l w) := by
  have h1 : RegsBut [(.LANE_CTRL, l), (.LANE_FEC_CW_CORR, l), (.LANE_FEC_CW_UNCORR, l), (.LANE_FEC_SYM_CORR, l), (.LANE_BLOCK_ERR, l)] s
      (s.wr .LANE_CTRL l (writeFields .LANE_CTRL (s.rd .LANE_CTRL l) w allBytes)) := (RegsBut.refl _ s).wr _ List.mem_cons_self
  unfold State.laneWritten
  dsimp only
  split
  · exact h1.trans ((laneCntClear_regsBut _ l).mono fun p hp => List.mem_cons_of_mem _ hp)
  · exact h1

theorem laneWritten_frame : { s.laneWritten l w with regs := s.regs } = s := by
  unfold State.laneWritten
  dsimp only
  split <;> rfl

theorem laneWritten_ctl : (s.laneWritten l w).ctl = s.ctl := (congrArg State.ctl (laneWritten_frame s l w) :)

variable {l} (hl : l < 40)
include hl

theorem laneWritten_rd {q : Reg} {j : Nat} (hq : q ∉ [.LANE_CTRL, .LANE_FEC_CW_CORR, .LANE_FEC_CW_UNCORR, .LANE_FEC_SYM_CORR, .LANE_BLOCK_ERR])
    (hj : j < 2 ^ 20) : (s.laneWritten l w).rd q j = s.rd q j := by
  simp only [List.mem_cons, List.not_mem_nil, or_false, not_or] at hq
  obtain ⟨h1, h2, h3, h4, h5⟩ := hq
  exact (laneWritten_regsBut s l w).rd_eq hj (by simp [h1, h2, h3, h4, h5]; omega)

/-- TEST_EN takes what is written. -/
theorem laneWritten_test : (s.laneWritten l w).isOn F.LANE_CTRL_TEST_EN l = bit w 6 := by
  have h1 : (s.laneWritten l w).rd .LANE_CTRL l = writeFields .LANE_CTRL (s.rd .LANE_CTRL l) w allBytes := by
    unfold State.laneWritten
    dsimp only
    split
    · rw [(laneCntClear_regsBut _ l).rd_eq (by omega) (by simp; omega), rd_wr_same]
    · rw [rd_wr_same]
  unfold State.isOn State.get
  rw [h1, bits_writeFields_rw _ _ (by decide) (by decide) (by decide), bits_one_eq_bit]
  cases bit w 6 <;> rfl

theorem laneWritten_laneSt {k : Nat} (hk : k < 2 ^ 20) : (s.laneWritten l w).laneSt k = s.laneSt k :=
  get_congr (f := F.LANE_STATUS_STATE) (laneWritten_rd s w hl (by decide) hk)

theorem laneWritten_owner : (s.laneWritten l w).ownerOf l = s.ownerOf l :=
  ownerOf_congr hl fun n hn => laneWritten_rd s w hl (by decide) hn

theorem laneWritten_enable {n : Nat} (hn : n < 2 ^ 20) :
    (s.laneWritten l w).isOn F.STALL_LINK_CFG_ENABLE n = s.isOn F.STALL_LINK_CFG_ENABLE n :=
  isOn_congr (get_congr (f := F.STALL_LINK_CFG_ENABLE) (laneWritten_rd s w hl (by decide) hn))

end LaneWritten

/-! ### TEST (R120, R134) -/

/-- A lane of a stall that is not enabled runs for no link. -/
theorem laneOff_congr {s t : State} {l : Nat} (hl : l < 32) (hoff : s.isOn F.STALL_LINK_CFG_ENABLE (s.ownerOf l) = false)
    (h : ∀ n, n < 2 ^ 20 → t.rd .STALL_LINK_CFG n = s.rd .STALL_LINK_CFG n) : t.linkOn (t.ownerOf l) = false := by
  have hlt := ownerOf_lt (s := s) hl
  rw [ownerOf_congr (by omega) h]
  exact linkOn_of_disabled hlt ((isOn_congr (get_congr (f := F.STALL_LINK_CFG_ENABLE) (h _ (by omega)))).trans hoff)

/-- TEST_EN followed by a lane's state. -/
def State.testFollowed (s : State) (l : Nat) : State :=
  let test := s.isOn F.LANE_CTRL_TEST_EN l
  if test && s.laneSt l == lnDisabled && s.testAllowed l && !(s.ctl.mode == .reset || s.ctl.mode == .boot) then s.laneEnter l lnTest 0
  else if !test && s.laneSt l == lnTest then ((s.toDisabled l).put F.LANE_PAT_CTRL_CHK_LOCK l 0).laneStart l
  else s

/-- On a lane that runs for no link TEST_EN and the taps in use are all that a write of LANE_CTRL moves. -/
theorem laneCtrlWrite_off {s : State} {l : Nat} (w : Word)
    (hoff : ((s.laneWritten l w).testFollowed l).linkOn (((s.laneWritten l w).testFollowed l).ownerOf l) = false) :
    s.laneCtrlWrite l w allBytes = ((s.laneWritten l w).testFollowed l).heldTaps l := by
  change (if ((s.laneWritten l w).testFollowed l).linkOn (((s.laneWritten l w).testFollowed l).ownerOf l) && decide (l < 32) then _ else
    (s.laneWritten l w).testFollowed l).heldTaps l = _
  rw [hoff]
  rfl

theorem testFollowed_enters {s : State} {l : Nat} (ht : s.isOn F.LANE_CTRL_TEST_EN l = true) (hst : s.laneSt l = lnDisabled)
    (ha : s.testAllowed l = true) (hr : s.ctl.mode ≠ .reset) (hb : s.ctl.mode ≠ .boot) : s.testFollowed l = s.laneEnter l lnTest 0 := by
  unfold State.testFollowed
  dsimp only
  rw [if_pos (by simp [ht, hst, ha, hr, hb])]

theorem testFollowed_exits {s : State} {l : Nat} (ht : s.isOn F.LANE_CTRL_TEST_EN l = false) (hst : s.laneSt l = lnTest) :
    s.testFollowed l = ((s.toDisabled l).put F.LANE_PAT_CTRL_CHK_LOCK l 0).laneStart l := by
  unfold State.testFollowed
  dsimp only
  rw [if_neg (by simp [ht]), if_pos (by simp [ht, hst])]

theorem heldTaps_regsBut (s : State) (l : Nat) : RegsBut [(.LANE_TX_FIR, l)] s (s.heldTaps l) := by
  unfold State.heldTaps
  split
  · exact (RegsBut.refl _ s).wr _ List.mem_cons_self
  · exact .refl _ s

/-- A lane in TEST uses the taps of LANE_TX_FIR_SET. -/
theorem heldTaps_test {s : State} {l : Nat} (hl : l < 2 ^ 20) (h : s.laneSt l = lnTest) :
    (s.heldTaps l).rd .LANE_TX_FIR l = (s.heldTaps l).rd .LANE_TX_FIR_SET l := by
  have hset : (s.heldTaps l).rd .LANE_TX_FIR_SET l = s.rd .LANE_TX_FIR_SET l := (heldTaps_regsBut s l).rd_eq hl (by simpa using hl)
  rw [hset]
  unfold State.heldTaps
  rw [if_pos (by simp [h]), rd_wr_same]

/-- LANE_TEST_ENTER. -/
theorem laneTestEnter_effect (l : Fin 32) (v : Word) {s : State} (hst : s.laneSt l = lnDisabled)
    (hoff : s.isOn F.STALL_LINK_CFG_ENABLE (s.ownerOf l) = false) (hr : s.ctl.mode ≠ .reset) (hb : s.ctl.mode ≠ .boot) :
    let t := s.laneCtrlWrite l (setBits v 6 1 1) allBytes
    t.laneSt l = lnTest ∧ t.rd .LANE_TX_FIR l = t.rd .LANE_TX_FIR_SET l ∧ ∀ k, k < 40 → k ≠ l.val → t.laneSt k = s.laneSt k := by
  have hl : l.val < 40 := by omega
  let w := setBits v 6 1 1
  have hcfg : ∀ n, n < 2 ^ 20 → (s.laneWritten l w).rd .STALL_LINK_CFG n = s.rd .STALL_LINK_CFG n := fun n =>
    laneWritten_rd s w hl (by decide)
  have hallowed : (s.laneWritten l w).testAllowed l = true := by
    have hlt := ownerOf_lt (s := s) l.isLt
    unfold State.testAllowed
    rw [if_neg (by omega), laneWritten_owner s w hl, laneWritten_enable s w hl (by omega), hoff]
    rfl
  have hen := laneEnter_enters (s.laneWritten l w) l (st := lnTest) 0 (by decide)
  have hfollow : (s.laneWritten l w).testFollowed l = (s.laneWritten l w).laneEnter l lnTest 0 :=
    testFollowed_enters ((laneWritten_test s w hl).trans (bit_setBits_same v 1 (by decide))) ((laneWritten_laneSt s w hl (by omega)).trans hst)
      hallowed (by rw [laneWritten_ctl]; exact hr) (by rw [laneWritten_ctl]; exact hb)
  have ht : s.laneCtrlWrite l w allBytes = ((s.laneWritten l w).laneEnter l lnTest 0).heldTaps l := by
    rw [laneCtrlWrite_off, hfollow]
    rw [hfollow]
    exact laneOff_congr l.isLt hoff fun n hn => (hen.only.rd (by simp; omega) (by decide) hn).trans (hcfg n hn)
  have hlane {k : Nat} (hk : k < 40) : (s.laneCtrlWrite l w allBytes).laneSt k = ((s.laneWritten l w).laneEnter l lnTest 0).laneSt k := by
    rw [ht]
    exact (heldTaps_regsBut _ _).get_eq F.LANE_STATUS_STATE (by omega) (by simp; omega)
  refine ⟨(hlane hl).trans hen.state, ?_, fun k hk hkl => ?_⟩
  · change (s.laneCtrlWrite l w allBytes).rd _ _ = _
    rw [ht]
    exact heldTaps_test (by omega) hen.state
  · rw [hlane hk, hen.laneSt_other hkl]
    exact laneWritten_laneSt s w hl (by omega)

/-- LANE_TEST_EXIT. -/
theorem laneTestExit_effect (l : Fin 32) (v : Word) {s : State} (hst : s.laneSt l = lnTest)
    (hoff : s.isOn F.STALL_LINK_CFG_ENABLE (s.ownerOf l) = false) :
    let t := s.laneCtrlWrite l (setBits v 6 1 0) allBytes
    t.laneSt l = lnDisabled ∧ t.get F.LANE_PAT_CTRL_CHK_LOCK l = 0 := by
  have hl : l.val < 40 := by omega
  let w := setBits v 6 1 0
  let p := ((s.laneWritten l w).toDisabled l).put F.LANE_PAT_CTRL_CHK_LOCK l 0
  have hen := toDisabled_enters (s.laneWritten l w) l
  have hpoff : p.linkOn (p.ownerOf l) = false := laneOff_congr l.isLt hoff fun n hn =>
    ((rd_wr_reg _ _ (by decide) (by omega) hn).trans (hen.only.rd (by simp; omega) (by decide) hn)).trans (laneWritten_rd s w hl (by decide) hn)
  have hfollow : (s.laneWritten l w).testFollowed l = p :=
    (testFollowed_exits ((laneWritten_test s w hl).trans (bit_setBits_same v 0 (by decide)))
      ((laneWritten_laneSt s w hl (by omega)).trans hst)).trans (laneStart_off hpoff)
  have ht : s.laneCtrlWrite l w allBytes = p.heldTaps l := by
    rw [laneCtrlWrite_off, hfollow]
    rw [hfollow]
    exact hpoff
  change (s.laneCtrlWrite l w allBytes).laneSt l = _ ∧ (s.laneCtrlWrite l w allBytes).get _ _ = _
  rw [ht]
  have hkeep := heldTaps_regsBut p l
  constructor
  · refine (hkeep.get_eq F.LANE_STATUS_STATE (by omega) (by simp; omega)).trans ?_
    exact (get_put_reg _ F.LANE_PAT_CTRL_CHK_LOCK F.LANE_STATUS_STATE _ _ _ (by decide) (by omega) (by omega)).trans hen.state
  · refine (hkeep.get_eq F.LANE_PAT_CTRL_CHK_LOCK (by omega) (by simp; omega)).trans ?_
    exact get_put_same _ _ _ _ (by decide)

/-! ### Counters cleared (R148) and read (R149) -/

theorem laneCntClear_effect (s : State) {l : Nat} (hl : l < 40) :
    let t := s.laneCntClear l
    t.rd .LANE_FEC_CW_CORR l = 0 ∧ t.rd .LANE_FEC_CW_UNCORR l = 0 ∧ t.rd .LANE_FEC_SYM_CORR l = 0 ∧ t.rd .LANE_BLOCK_ERR l = 0 ∧
      OnlyRegs [(.LANE_FEC_CW_CORR, l), (.LANE_FEC_CW_UNCORR, l), (.LANE_FEC_SYM_CORR, l), (.LANE_BLOCK_ERR, l)] s t := by
  refine ⟨?_, ?_, ?_, rd_wr_same .., rfl, laneCntClear_regsBut s l⟩
  · refine (rd_wr_reg _ _ (by decide) (by omega) (by omega)).trans ((rd_wr_reg _ _ (by decide) (by omega) (by omega)).trans
      ((rd_wr_reg _ _ (by decide) (by omega) (by omega)).trans (rd_wr_same ..)))
  · exact (rd_wr_reg _ _ (by decide) (by omega) (by omega)).trans ((rd_wr_reg _ _ (by decide) (by omega) (by omega)).trans (rd_wr_same ..))
  · exact (rd_wr_reg _ _ (by decide) (by omega) (by omega)).trans (rd_wr_same ..)

/-! ### Injection (R136) -/

/-- The state with `w` written to LANE_PAT_CTRL and a checker that does not run unlocked. -/
def State.patWritten (s : State) (l : Nat) (w : Word) : State :=
  let s1 := s.wr .LANE_PAT_CTRL l (writeFields .LANE_PAT_CTRL (s.rd .LANE_PAT_CTRL l) w allBytes)
  if s1.patternOn l && s1.isOn F.LANE_PAT_CTRL_CHK_EN l then s1 else s1.put F.LANE_PAT_CTRL_CHK_LOCK l 0

/-- What a GO of the injector sends. -/
def State.injects (s : State) (l : Nat) : Bool := (s.patternOn l && s.isOn F.LANE_PAT_CTRL_GEN_EN l) || s.laneSt l == lnActive

/-- The argument of an injection, by its mode. -/
def State.injectArg (s : State) (l : Nat) : Nat :=
  if s.get F.LANE_PAT_CTRL_INJ_MODE l = 1 then 1
  else if s.get F.LANE_PAT_CTRL_INJ_MODE l = 2 then s.get F.LANE_PAT_CTRL_INJ_BURST_LEN l + 1
  else max 3 (min 12 (s.get F.LANE_PAT_CTRL_INJ_RATE_EXP l))

/-- What GO of the injector does once LANE_PAT_CTRL is written. -/
def State.injected (s : State) (l : Nat) : State :=
  let q := if s.get F.LANE_PAT_CTRL_INJ_MODE l != 0 && s.injects l then
    s.emit (.inject l (s.get F.LANE_PAT_CTRL_INJ_MODE l) (s.injectArg l)) else s
  if s.get F.LANE_PAT_CTRL_INJ_MODE l = 3 then q else q.put F.LANE_PAT_CTRL_INJ_GO l 0

section Injection

variable (s : State) (l : Nat) (w : Word)

theorem patWritten_regsBut : RegsBut [(.LANE_PAT_CTRL, l)] s (s.patWritten l w) := by
  have h1 := (RegsBut.refl [(.LANE_PAT_CTRL, l)] s).wr (writeFields .LANE_PAT_CTRL (s.rd .LANE_PAT_CTRL l) w allBytes) List.mem_cons_self
  unfold State.patWritten
  dsimp only
  split
  · exact h1
  · exact h1.put F.LANE_PAT_CTRL_CHK_LOCK _ List.mem_cons_self

theorem patWritten_frame : { s.patWritten l w with regs := s.regs } = s := by
  unfold State.patWritten
  dsimp only
  split <;> rfl

variable {l w}

theorem patWritten_laneSt (hl : l < 40) : (s.patWritten l w).laneSt l = s.laneSt l :=
  (patWritten_regsBut s l w).get_eq F.LANE_STATUS_STATE (by omega) (by simp; omega)

variable {s}

/-- A write of LANE_PAT_CTRL with GO. -/
theorem patCtrlWrite_go (hw : bit w 8 = true) : s.patCtrlWrite l w allBytes = (s.patWritten l w).injected l := by
  have hb : bit (w &&& allBytes) 8 = true := (bit_allBytes w (by decide)).trans hw
  unfold State.patCtrlWrite
  dsimp only
  rw [hb, Bool.true_and]
  rfl

end Injection

section Injected

variable (s : State) (l : Nat)

theorem injected_regsBut : RegsBut [(.LANE_PAT_CTRL, l)] s (s.injected l) := by
  unfold State.injected
  split <;> split
  · exact .of_regs rfl _
  · exact (RegsBut.of_regs (emit_regs s _) _).put F.LANE_PAT_CTRL_INJ_GO _ List.mem_cons_self
  · exact .refl _ s
  · exact (RegsBut.refl _ s).put F.LANE_PAT_CTRL_INJ_GO _ List.mem_cons_self

theorem injected_frame : { s.injected l with regs := s.regs, sent := s.sent } = s := by
  unfold State.injected
  split <;> split <;> rfl

theorem injected_sent : (s.injected l).sent = s.sent ++ if s.get F.LANE_PAT_CTRL_INJ_MODE l != 0 && s.injects l then
    [.inject l (s.get F.LANE_PAT_CTRL_INJ_MODE l) (s.injectArg l)] else [] := by
  unfold State.injected
  split <;> split <;> simp [State.emit]

/-- INJ_GO is the one field that an injection writes. -/
theorem get_injected {f : Fld} (hr : f.r = .LANE_PAT_CTRL) (hlo : f.lo + f.w ≤ 8 ∨ 9 ≤ f.lo) : (s.injected l).get f l = s.get f l := by
  unfold State.injected
  split <;> split
  · rfl
  · exact get_put_beside (s.emit _) F.LANE_PAT_CTRL_INJ_GO f l 0 hr hlo
  · rfl
  · exact get_put_beside s F.LANE_PAT_CTRL_INJ_GO f l 0 hr hlo

end Injected

/-- What GO of the injector sends and leaves. -/
theorem patCtrlWrite_effect (s : State) {l : Nat} {w : Word} (hl : l < 40) (hw : bit w 8 = true) :
    let t := s.patCtrlWrite l w allBytes
    RegsBut [(.LANE_PAT_CTRL, l)] s t ∧ { t with regs := s.regs, sent := s.sent } = s ∧
      (s.laneSt l = lnActive → t.get F.LANE_PAT_CTRL_INJ_MODE l = 1 → t.sent = s.sent ++ [.inject l 1 1]) ∧
      (s.laneSt l = lnActive → t.get F.LANE_PAT_CTRL_INJ_MODE l = 2 →
        t.sent = s.sent ++ [.inject l 2 (t.get F.LANE_PAT_CTRL_INJ_BURST_LEN l + 1)]) ∧
      (s.laneSt l ≠ lnActive → s.laneSt l ≠ lnTest → t.sent = s.sent) := by
  have hst : (s.patWritten l w).laneSt l = s.laneSt l := patWritten_laneSt s hl
  have hps : (s.patWritten l w).sent = s.sent := (congrArg State.sent (patWritten_frame s l w) :)
  have hframe : { s.patWritten l w with regs := s.regs, sent := s.sent } = s :=
    congrArg (fun a : State => { a with sent := s.sent }) (patWritten_frame s l w)
  have hregs := patWritten_regsBut s l w
  rw [patCtrlWrite_go hw]
  generalize s.patWritten l w = p at hst hps hframe hregs
  have hact : s.laneSt l = lnActive → p.injects l = true := fun h => by
    unfold State.injects
    rw [hst, h]
    exact Bool.or_true _
  refine ⟨hregs.trans (injected_regsBut p l), ?_, fun ha hm => ?_, fun ha hm => ?_, fun ha hx => ?_⟩
  · exact (congrArg (fun a : State => { a with regs := s.regs, sent := s.sent }) (injected_frame p l)).trans hframe
  · rw [get_injected p l rfl (by decide)] at hm
    rw [injected_sent, hps, State.injectArg, hact ha, hm]
    rfl
  · rw [get_injected p l rfl (by decide)] at hm
    rw [injected_sent, hps, State.injectArg, hact ha, hm, get_injected p l rfl (by decide)]
    rfl
  · have hno : p.injects l = false := by
      unfold State.injects State.patternOn
      rw [hst]
      simp [ha, hx]
    rw [injected_sent, hps, hno]
    simp

/-! ### The checker (R135) -/

/-- The bits that one UI carries. -/
def State.uiBits (s : State) (l : Nat) : Nat := if s.linkRate (s.ownerOf l) = 2 then 1 else 2

section Checker

variable {s : State} {l : Fin 40} {ui bad : Fin 1025} {errs : Nat}

/-- A checker that does not run. -/
theorem checkerLock_off (h : s.patternOn l = false ∨ s.isOn F.LANE_PAT_CTRL_CHK_EN l = false) :
    exec (.checkerLock l ui bad errs) s = .next s := by
  change execCheckerLock l ui bad errs s = _
  unfold execCheckerLock
  rw [if_pos (by rcases h with h | h <;> simp [h])]

section Runs

variable (hp : s.patternOn l = true) (hc : s.isOn F.LANE_PAT_CTRL_CHK_EN l = true)
include hp hc

theorem checkerLock_on : exec (.checkerLock l ui bad errs) s = .next (
    if s.isOn F.LANE_PAT_CTRL_CHK_LOCK l then
      let s1 := (s.addSat F.LANE_PAT_BITS_COUNT l (s.uiBits l * ui)).addSat F.LANE_PAT_ERR_COUNT l errs
      if 256 < bad.val then s1.put F.LANE_PAT_CTRL_CHK_LOCK l 0 else s1
    else if bad.val = 0 ∧ 64 ≤ ui.val then
      (s.put F.LANE_PAT_CTRL_CHK_LOCK l 1).addSat F.LANE_PAT_BITS_COUNT l (s.uiBits l * (ui - 64))
    else s) := by
  change execCheckerLock l ui bad errs s = _
  unfold execCheckerLock
  rw [if_neg (by simp [hp, hc])]
  rfl

/-- Enough UI without an error lock it. -/
theorem checkerLock_locks (hu : s.isOn F.LANE_PAT_CTRL_CHK_LOCK l = false) (hb : bad = 0) (h64 : 64 ≤ ui.val) :
    ∃ t, exec (.checkerLock l ui bad errs) s = .next t ∧ t.isOn F.LANE_PAT_CTRL_CHK_LOCK l = true ∧
      t.get F.LANE_PAT_ERR_COUNT l = s.get F.LANE_PAT_ERR_COUNT l := by
  have hx := checkerLock_on (ui := ui) (bad := bad) (errs := errs) hp hc
  rw [if_neg (by simp [hu]), if_pos ⟨congrArg Fin.val hb, h64⟩] at hx
  refine ⟨_, hx, ?_, ?_⟩
  · refine decide_eq_true ?_
    unfold State.addSat
    rw [get_put_reg _ _ _ _ _ _ (by decide) (by omega) (by omega), get_put_same _ _ _ _ (by decide)]
    rfl
  · unfold State.addSat
    rw [get_put_reg _ _ _ _ _ _ (by decide) (by omega) (by omega), get_put_reg _ _ _ _ _ _ (by decide) (by omega) (by omega)]

/-- Fewer, or one in error, do not. -/
theorem checkerLock_waits (hu : s.isOn F.LANE_PAT_CTRL_CHK_LOCK l = false) (h : bad ≠ 0 ∨ ui.val < 64) :
    exec (.checkerLock l ui bad errs) s = .next s := by
  rw [checkerLock_on hp hc, if_neg (by simp [hu]), if_neg]
  rintro ⟨hb, h64⟩
  rcases h with h | h
  · exact h (Fin.ext hb)
  · omega

/-- A locked checker counts, and loses lock above 256 errored UI. -/
theorem checkerLock_counts (hu : s.isOn F.LANE_PAT_CTRL_CHK_LOCK l = true) :
    ∃ t, exec (.checkerLock l ui bad errs) s = .next t ∧ t.isOn F.LANE_PAT_CTRL_CHK_LOCK l = decide (bad.val ≤ 256) ∧
      t.get F.LANE_PAT_ERR_COUNT l = min (s.get F.LANE_PAT_ERR_COUNT l + errs) (2 ^ 64 - 1) ∧
      (s.linkRate (s.ownerOf l) ≠ 2 → t.get F.LANE_PAT_BITS_COUNT l = min (s.get F.LANE_PAT_BITS_COUNT l + 2 * ui.val) (2 ^ 64 - 1)) ∧
      OnlyRegs [(.LANE_PAT_CTRL, l.val), (.LANE_PAT_BITS, l.val), (.LANE_PAT_ERR, l.val)] s t := by
  let a := s.addSat F.LANE_PAT_BITS_COUNT l (s.uiBits l * ui)
  let b := a.addSat F.LANE_PAT_ERR_COUNT l errs
  have hx := checkerLock_on (ui := ui) (bad := bad) (errs := errs) hp hc
  rw [if_pos hu] at hx
  have hlock : b.get F.LANE_PAT_CTRL_CHK_LOCK l = 1 := by
    refine Eq.trans ?_ (of_decide_eq_true hu)
    exact (get_put_reg a _ _ _ _ _ (by decide) (by omega) (by omega)).trans (get_put_reg s _ _ _ _ _ (by decide) (by omega) (by omega))
  have herr : b.get F.LANE_PAT_ERR_COUNT l = min (s.get F.LANE_PAT_ERR_COUNT l + errs) (2 ^ 64 - 1) := by
    have ha : a.get F.LANE_PAT_ERR_COUNT l = s.get F.LANE_PAT_ERR_COUNT l := get_put_reg s _ _ _ _ _ (by decide) (by omega) (by omega)
    exact (get_addSat_same a F.LANE_PAT_ERR_COUNT l errs (by decide)).trans (by rw [ha])
  have hbits : s.linkRate (s.ownerOf l) ≠ 2 →
      b.get F.LANE_PAT_BITS_COUNT l = min (s.get F.LANE_PAT_BITS_COUNT l + 2 * ui.val) (2 ^ 64 - 1) := fun hr => by
    have hper : s.uiBits l = 2 := if_neg hr
    refine (get_put_reg a _ _ _ _ _ (by decide) (by omega) (by omega)).trans ((get_addSat_same s F.LANE_PAT_BITS_COUNT l _ (by decide)).trans ?_)
    rw [hper]
  have hregs : RegsBut [(.LANE_PAT_CTRL, l.val), (.LANE_PAT_BITS, l.val), (.LANE_PAT_ERR, l.val)] s b :=
    ((RegsBut.refl _ s).put F.LANE_PAT_BITS_COUNT _ (by simp)).put F.LANE_PAT_ERR_COUNT _ (by simp)
  by_cases h256 : 256 < bad.val
  · refine ⟨_, hx.trans (congrArg _ (if_pos h256)), ?_, ?_, fun hr => ?_, rfl, hregs.put F.LANE_PAT_CTRL_CHK_LOCK _ (by simp)⟩
    · have hz : (b.put F.LANE_PAT_CTRL_CHK_LOCK l 0).get F.LANE_PAT_CTRL_CHK_LOCK l = 0 := get_put_same _ _ _ _ (by decide)
      rw [decide_eq_false (by omega)]
      exact decide_eq_false (by rw [hz]; decide)
    · exact (get_put_reg b _ _ _ _ _ (by decide) (by omega) (by omega)).trans herr
    · exact (get_put_reg b _ _ _ _ _ (by decide) (by omega) (by omega)).trans (hbits hr)
  · refine ⟨_, hx.trans (congrArg _ (if_neg h256)), ?_, herr, hbits, rfl, hregs⟩
    rw [decide_eq_true (by omega)]
    exact decide_eq_true hlock

end Runs

end Checker

/-- A counter that a read clears. -/
theorem counterRead_effect (s : State) (fn i : Nat) {r : Reg} (hr : r.rst i = 0) :
    let t := (s.rst r i).answer fn (s.rd r i)
    t.rd r i = 0 ∧ RegsBut [(r, i)] s t ∧ t.sent = s.sent ++ [.completion fn 0 (bytesOfNat 8 (s.rd r i).toNat) false] ∧
      { t with regs := s.regs, sent := s.sent } = s := by
  have hregs : ((s.rst r i).answer fn (s.rd r i)).regs = (s.rst r i).regs := rfl
  refine ⟨(rd_congr hregs r i).trans ((rd_wr_same ..).trans hr), ?_, rfl, rfl⟩
  exact ((RegsBut.refl _ s).wr _ List.mem_cons_self).trans (.of_regs hregs _)

/-- Settles O13 (R134 to R136, R144 to R149): TEST entered and left, counters cleared, injections, the checker, and a counter read. -/
theorem laneTestsCountAndAreCleared : Obligations.LaneTestsCountAndAreCleared := by
  refine ⟨fun l v s hst hoff hr hb => ⟨_, rfl, laneTestEnter_effect l v hst hoff hr hb⟩,
    fun l v s hst hoff => ⟨_, rfl, laneTestExit_effect l v hst hoff⟩, fun l s => ⟨_, rfl, laneCntClear_effect s l.isLt⟩,
    fun l v s => ⟨_, rfl, patCtrlWrite_effect s l.isLt (bit_setBits_same v 1 (by decide))⟩,
    fun l ui bad errs s => ⟨checkerLock_off, fun hp hc => ⟨checkerLock_locks hp hc, checkerLock_waits hp hc, checkerLock_counts hp hc⟩⟩,
    fun l err s => ?_⟩
  cases err
  · exact ⟨_, rfl, counterRead_effect s (if 32 ≤ l.val then 1 else 0) l (r := .LANE_PAT_BITS) rfl⟩
  · exact ⟨_, rfl, counterRead_effect s (if 32 ≤ l.val then 1 else 0) l (r := .LANE_PAT_ERR) rfl⟩

end Sys2Proof.Machine

/-! SUPPORT. Lanes waking and training (R107 to R117, R120): the fields of LANE_STATUS that a lane's entry into a state leaves, and the
commands of Table 3.10 that wait, time out or wake. -/

namespace Sys2Proof.Machine

/-! ### LANE_STATUS (Table 3.20) as a lane enters a state -/

section Fields

variable (s : State) (l : Nat) {f : Fld} (hr : f.r = .LANE_STATUS)
include hr

/-- Fields that bits set elsewhere leave. -/
theorem get_orStatus {m : Word} (hm : bits m f.lo f.w = 0) : (s.wr .LANE_STATUS l (s.rd .LANE_STATUS l ||| m)).get f l = s.get f l := by
  rw [State.get, State.get, hr, rd_wr_same, bits_or_mask hm]

theorem get_toTrain (hlo : 4 ≤ f.lo) (hc : bits (BitVec.ofNat 64 0x18C0) f.lo f.w = 0) : (s.toTrain l true).get f l = s.get f l :=
  (get_congr (rd_congr (modLane_regs ..) _ _)).trans (get_laneEnter s l f hr hlo hc)

theorem get_toWait (fail : Nat) (hlo : 4 ≤ f.lo) (hf : f.lo + f.w ≤ 16 ∨ 20 ≤ f.lo) (hc : bits (BitVec.ofNat 64 0x1800) f.lo f.w = 0) :
    (s.toWait l fail).get f l = s.get f l :=
  (get_put_beside _ F.LANE_STATUS_LAST_FAIL f l fail hr hf).trans (get_laneEnter s l f hr hlo hc)

theorem get_toHandoff (hlo : 4 ≤ f.lo) : (s.toHandoff l).get f l = s.get f l :=
  (get_congr (rd_congr (modLane_regs ..) _ _)).trans
    (get_laneEnter s l f hr hlo (by unfold bits; simp))

end Fields

theorem toWait_fail (s : State) (l : Nat) {fail : Nat} (h : fail < 16) : (s.toWait l fail).get F.LANE_STATUS_LAST_FAIL l = fail := by
  unfold State.toWait
  rw [get_put_same _ _ _ _ (by decide)]
  exact Nat.mod_eq_of_lt h

/-! ### Moves of one lane at a time (Table 3.10) -/

/-- A move of lanes once time has passed. -/
theorem LanesOnly.of_reach {s t : State} {ls : List Nat} {due : Nat} (h : LanesOnly ls (s.reach due) t) :
    t.now = max s.now due ∧ RegsBut (ls.map fun l => (.LANE_STATUS, l)) s t ∧ { t with regs := s.regs, lanes := s.lanes, tb := s.tb } = s :=
  ⟨(congrArg State.now h.rest :), h.regs, congrArg (fun a : State => { a with tb := s.tb }) h.rest⟩

section Waking

variable {l : Fin 40} {s : State}

theorem frameLock_other (inv : Bool) (h : s.laneSt l ≠ lnWake) : exec (.frameLock l inv) s = .next s := by
  change execFrameLock l inv s = _
  exact congrArg _ (if_pos h)

theorem wakeTimeout_other (sig : Bool) (h : s.laneSt l ≠ lnWake) : exec (.wakeTimeout l sig) s = .next s := by
  change execWakeTimeout l sig s = _
  exact congrArg _ (if_pos h)

/-- FRAME_LOCK in WAKE. -/
theorem frameLock_wake (inv : Bool) (h : s.laneSt l = lnWake) :
    ∃ t, exec (.frameLock l inv) s = .next t ∧ t.laneSt l = lnTrain ∧ t.get F.LANE_STATUS_RX_INVERTED l = b2n inv ∧
      RegsBut [(.LANE_STATUS, l.val)] s t ∧ { t with regs := s.regs, lanes := s.lanes } = s := by
  let a := s.toTrain l false
  let b := a.wr .LANE_STATUS l (a.rd .LANE_STATUS l ||| 0x70)
  have ha := toTrain_enters s l false
  have hb : Enters l lnTrain s b :=
    ⟨ha.only.wr List.mem_cons_self _, (get_orStatus a l (f := F.LANE_STATUS_STATE) rfl (by decide)).trans ha.state⟩
  have ht := hb.put F.LANE_STATUS_RX_INVERTED (b2n inv) rfl (by decide)
  have hexec : exec (.frameLock l inv) s = .next (b.put F.LANE_STATUS_RX_INVERTED l (b2n inv)) := by
    change execFrameLock l inv s = _
    exact congrArg _ (if_neg (not_not_intro h))
  refine ⟨_, hexec, ht.state, ?_, ht.only.regs, ht.only.rest⟩
  rw [get_put_same _ _ _ _ (by decide)]
  cases inv <;> rfl

/-- WAKE_TIMEOUT in WAKE. -/
theorem wakeTimeout_wake (sig : Bool) (h : s.laneSt l = lnWake) :
    ∃ t, exec (.wakeTimeout l sig) s = .next t ∧ t.laneSt l = lnWait ∧ t.get F.LANE_STATUS_LAST_FAIL l = (if sig then 2 else 1) ∧
      t.now = max s.now ((s.lane l).since + 1000000) ∧ RegsBut [(.LANE_STATUS, l.val)] s t ∧
      { t with regs := s.regs, lanes := s.lanes, tb := s.tb } = s := by
  have hexec : exec (.wakeTimeout l sig) s = .next (((s.reach ((s.lane l).since + 1000000)).toWait l (if sig then 2 else 1)).put
      F.LANE_STATUS_SIGNAL_DETECT l (b2n sig)) := by
    change execWakeTimeout l sig s = _
    exact congrArg _ (if_neg (not_not_intro h))
  generalize (s.lane l).since + 1000000 = due at hexec
  have ht := (toWait_enters (s.reach due) l (if sig then 2 else 1)).put F.LANE_STATUS_SIGNAL_DETECT (b2n sig) rfl (by decide)
  refine ⟨_, hexec, ht.state, ?_, ht.only.of_reach⟩
  rw [get_put_beside _ F.LANE_STATUS_SIGNAL_DETECT F.LANE_STATUS_LAST_FAIL _ _ rfl (by decide)]
  exact toWait_fail _ _ (by split <;> decide)

theorem trainTimeout_other (h : s.laneSt l ≠ lnTrain) : exec (.trainTimeout l) s = .next s := by
  change execTrainTimeout l s = _
  exact congrArg _ (if_pos h)

/-- TRAIN_TIMEOUT in TRAIN. -/
theorem trainTimeout_train (h : s.laneSt l = lnTrain) :
    ∃ t, exec (.trainTimeout l) s = .next t ∧ t.laneSt l = lnWait ∧ t.get F.LANE_STATUS_LAST_FAIL l = 3 ∧
      (l < 32 → t.get F.STALL_LINK_COUNT_TRAIN_FAILS (s.ownerOf l) = min (s.get F.STALL_LINK_COUNT_TRAIN_FAILS (s.ownerOf l) + 1) 65535) ∧
      RegsBut [(.LANE_STATUS, l.val), (.STALL_LINK_COUNT, s.ownerOf l)] s t := by
  have hexec : exec (.trainTimeout l) s = .next (if s.ownerOf l < 16 then
      ((s.reach ((s.lane l).since + 6200000)).toWait l 3).inc F.STALL_LINK_COUNT_TRAIN_FAILS (s.ownerOf l)
      else (s.reach ((s.lane l).since + 6200000)).toWait l 3) := by
    change execTrainTimeout l s = _
    exact congrArg _ (if_neg (not_not_intro h))
  generalize (s.lane l).since + 6200000 = due at hexec
  have howner := ownerOf_le s l
  have hw := toWait_enters (s.reach due) l 3
  have hregs : RegsBut [(.LANE_STATUS, l.val), (.STALL_LINK_COUNT, s.ownerOf l)] s ((s.reach due).toWait l 3) :=
    RegsBut.mono (l := [(.LANE_STATUS, l.val)]) hw.only.regs (by simp)
  have hfail := toWait_fail (s.reach due) l (fail := 3) (by decide)
  by_cases hn : s.ownerOf l < 16
  · rw [if_pos hn] at hexec
    refine ⟨_, hexec, (get_put_reg _ _ _ _ _ _ (by decide) (by omega) (by omega)).trans hw.state,
      (get_put_reg _ _ _ _ _ _ (by decide) (by omega) (by omega)).trans hfail, fun _ => ?_, hregs.inc F.STALL_LINK_COUNT_TRAIN_FAILS (by simp)⟩
    have hcount : ((s.reach due).toWait l 3).get F.STALL_LINK_COUNT_TRAIN_FAILS (s.ownerOf l) =
        s.get F.STALL_LINK_COUNT_TRAIN_FAILS (s.ownerOf l) := get_congr (hw.only.rd (by simp; omega) (by decide) (by omega))
    exact (get_inc_same _ F.STALL_LINK_COUNT_TRAIN_FAILS _ (by decide)).trans (by rw [hcount]; rfl)
  · rw [if_neg hn] at hexec
    exact ⟨_, hexec, hw.state, hfail, fun h32 => absurd (ownerOf_lt h32) hn, hregs⟩

theorem trainWaitExpiry_other (h : s.laneSt l ≠ lnWait) : exec (.trainWaitExpiry l) s = .next s := by
  change execTrainWaitExpiry l s = _
  exact congrArg _ (if_pos h)

/-- TRAIN_WAIT_EXPIRY in TRAIN_WAIT. -/
theorem trainWaitExpiry_wait (h : s.laneSt l = lnWait) :
    ∃ t, exec (.trainWaitExpiry l) s = .next t ∧ t.laneSt l = lnWake ∧ t.now = max s.now ((s.lane l).since + 400000) ∧
      RegsBut [(.LANE_STATUS, l.val)] s t := by
  have hexec : exec (.trainWaitExpiry l) s = .next ((s.reach ((s.lane l).since + 400000)).toWake l) := by
    change execTrainWaitExpiry l s = _
    exact congrArg _ (if_neg (not_not_intro h))
  generalize (s.lane l).since + 400000 = due at hexec
  have hw := toWake_enters (s.reach due) l
  obtain ⟨hnow, hregs, -⟩ := hw.only.of_reach
  exact ⟨_, hexec, hw.state, hnow, hregs⟩

/-! ### A camera's wake (R120) -/

theorem cameraWakeDetect_other (h : s.linkOn (s.ownerOf l) = false ∨ s.laneSt l ≠ lnDeep) : exec (.cameraWakeDetect l) s = .next s := by
  change execCameraWakeDetect l s = _
  exact congrArg _ (if_pos (by rcases h with h | h <;> simp [h]))

/-- A DEEP lane of an enabled link. -/
theorem cameraWakeDetect_deep (hon : s.linkOn (s.ownerOf l) = true) (hst : s.laneSt l = lnDeep) : exec (.cameraWakeDetect l) s = .next (
    if s.lanesOpen then
      (if s.ownerOf l = cwLink ∨ s.isOn F.STALL_LM_CTRL_CAM_WAKE_EN (s.ownerOf l) = true then (s.toWake l).evalLink (s.ownerOf l) else s)
    else if s.modeAhead = Mode.quiet ∧ s.ownerOf l < 16 then s.put F.STALL_LINK_STATUS_CAM_WAKE_SEEN (s.ownerOf l) 1
    else s) := by
  change execCameraWakeDetect l s = _
  exact congrArg _ (if_neg (by simp [hon, hst]))

/-- QUIET keeps lanes closed. -/
theorem lanesOpen_of_quiet (h : s.modeAhead = .quiet) : s.lanesOpen = false := by
  unfold State.lanesOpen
  rw [h]

theorem cameraWakeDetect_wakes (hon : s.linkOn (s.ownerOf l) = true) (hst : s.laneSt l = lnDeep) (ho : s.lanesOpen = true)
    (he : s.isOn F.STALL_LM_CTRL_CAM_WAKE_EN (s.ownerOf l) = true) :
    ∃ t, exec (.cameraWakeDetect l) s = .next t ∧ t.laneSt l = lnWake ∧ ∀ k, k < 40 → k ≠ l.val → t.laneSt k = s.laneSt k := by
  have hexec := cameraWakeDetect_deep hon hst
  rw [if_pos ho, if_pos (.inr he)] at hexec
  have hw := toWake_enters s l
  have hmoves := evalLink_moves (s.toWake l) (s.ownerOf l)
  exact ⟨_, hexec, (hmoves.laneSt (by omega)).trans hw.state,
    fun k hk hkl => (hmoves.laneSt (by omega)).trans (hw.laneSt_other hkl)⟩

theorem cameraWakeDetect_seen (hl : l < 32) (hon : s.linkOn (s.ownerOf l) = true) (hst : s.laneSt l = lnDeep) (hq : s.modeAhead = .quiet) :
    ∃ t, exec (.cameraWakeDetect l) s = .next t ∧ t.get F.STALL_LINK_STATUS_CAM_WAKE_SEEN (s.ownerOf l) = 1 ∧
      OnlyRegs [(.STALL_LINK_STATUS, s.ownerOf l)] s t := by
  have hexec := cameraWakeDetect_deep hon hst
  rw [lanesOpen_of_quiet hq, if_neg (by decide), if_pos ⟨hq, ownerOf_lt hl⟩] at hexec
  exact ⟨_, hexec, get_put_same _ _ _ _ (by decide), rfl, (RegsBut.refl _ s).put F.STALL_LINK_STATUS_CAM_WAKE_SEEN _ List.mem_cons_self⟩

end Waking

/-! ### The eye (R147) -/

theorem bits_and (v m : Word) (lo w : Nat) : bits (v &&& m) lo w = bits v lo w &&& bits m lo w := by
  apply Nat.eq_of_testBit_eq
  intro k
  rw [Nat.testBit_and, testBit_bits, testBit_bits, testBit_bits, BitVec.getLsbD_and]
  cases decide (k < w) <;> simp

/-- A field under a mask that covers it. -/
theorem bits_and_cover (v : Word) {m : Word} {lo w : Nat} (h : bits m lo w = 2 ^ w - 1) : bits (v &&& m) lo w = bits v lo w := by
  rw [bits_and, h, Nat.and_two_pow_sub_one_eq_mod]
  exact Nat.mod_eq_of_lt (bits_lt _ _ _)

theorem setEye_regsBut (s : State) (l : Nat) (eye : Word) : RegsBut [(.LANE_EYE, l)] s (s.setEye l eye) :=
  (RegsBut.refl _ s).wr _ List.mem_cons_self

theorem setEye_shows (s : State) (l : Nat) (eye : Word) :
    bits ((s.setEye l eye).rd .LANE_EYE l) 8 8 = bits eye 8 8 ∧ bits ((s.setEye l eye).rd .LANE_EYE l) 24 24 = bits eye 24 24 ∧
      bits ((s.setEye l eye).rd .LANE_EYE l) 0 8 = if s.linkRate (s.ownerOf l) = 2 then 0 else bits eye 0 8 := by
  unfold State.setEye
  rw [rd_wr_same]
  split
  · refine ⟨bits_and_cover _ (by decide), bits_and_cover _ (by decide), ?_⟩
    rw [bits_and, show bits (0x0000FFFFFF00FF00 : Word) 0 8 = 0 by decide, Nat.and_zero]
  · exact ⟨bits_and_cover _ (by decide), bits_and_cover _ (by decide), bits_and_cover _ (by decide)⟩

theorem laneEyeUpdate_effect (l : Fin 40) (eye : Word) (s : State) :
    (s.laneSt l ∈ [lnActive, lnIdle] → ∃ t, exec (.laneEyeUpdate l eye) s = .next t ∧ OnlyRegs [(.LANE_EYE, l.val)] s t ∧
      bits (t.rd .LANE_EYE l) 8 8 = bits eye 8 8 ∧ bits (t.rd .LANE_EYE l) 24 24 = bits eye 24 24 ∧
      bits (t.rd .LANE_EYE l) 0 8 = (if s.linkRate (s.ownerOf l) = 2 then 0 else bits eye 0 8)) ∧
    (s.laneSt l ∉ [lnActive, lnIdle] → exec (.laneEyeUpdate l eye) s = .next s) := by
  have hexec : exec (.laneEyeUpdate l eye) s = .next (if liveLanes.contains (s.laneSt l) then s.setEye l eye else s) := rfl
  refine ⟨fun h => ?_, fun h => ?_⟩
  · rw [if_pos (by exact List.contains_iff_mem.mpr h)] at hexec
    exact ⟨_, hexec, ⟨rfl, setEye_regsBut s l eye⟩, setEye_shows s l eye⟩
  · rw [if_neg (by exact fun e => h (List.contains_iff_mem.mp e))] at hexec
    exact hexec

end Sys2Proof.Machine

/-! SUPPORT. Training frames received (R107 to R117): taps and requests, the handoff, and what a frame leaves of its lane. -/

namespace Sys2Proof.Machine

/-! ### Taps (R113, R114) -/

/-- Taps within the limits and the sum rule of R113. -/
def TapsOk (taps : Word) : Prop :=
  bits taps 0 5 ≤ 16 ∧ 32 ≤ bits taps 8 7 ∧ bits taps 16 5 ≤ 24 ∧ bits taps 0 5 + bits taps 8 7 + bits taps 16 5 ≤ 64

/-- The fields of LANE_TX_FIR (R146). -/
theorem bits_firWord {a b d : Nat} (ha : a < 32) (hb : b < 128) (hd : d < 32) :
    bits (firWord a b d) 0 5 = a ∧ bits (firWord a b d) 8 7 = b ∧ bits (firWord a b d) 16 5 = d := by
  unfold firWord
  refine ⟨?_, ?_, ?_⟩
  · rw [bits_or_mask (bits_field_apart _ (by decide)), bits_or_mask (bits_field_apart _ (by decide)), bits_field_same _ _ _ (by decide)]
    exact Nat.mod_eq_of_lt ha
  · rw [bits_or_mask (bits_field_apart _ (by decide)), bits_or_zero (bits_field_apart _ (by decide)), bits_field_same _ _ _ (by decide)]
    exact Nat.mod_eq_of_lt hb
  · rw [bits_or_zero ((bits_or_mask (bits_field_apart _ (by decide))).trans (bits_field_apart _ (by decide))),
      bits_field_same _ _ _ (by decide)]
    exact Nat.mod_eq_of_lt hd

theorem tapsOk_firWord {a b d : Nat} (ha : a ≤ 16) (hb : 32 ≤ b) (hd : d ≤ 24) (hs : a + b + d ≤ 64) : TapsOk (firWord a b d) := by
  obtain ⟨h1, h2, h3⟩ := bits_firWord (a := a) (b := b) (d := d) (by omega) (by omega) (by omega)
  exact ⟨by omega, by omega, by omega, by omega⟩

/-- A step keeps its tap's limits and the sum rule. -/
theorem tapStep_bounds (req : Nat) {v lo hi rest : Nat} (h1 : lo ≤ v) (h2 : v ≤ hi) (h3 : v + rest ≤ 64) :
    lo ≤ (tapStep req v lo hi rest).1 ∧ (tapStep req v lo hi rest).1 ≤ hi ∧ (tapStep req v lo hi rest).1 + rest ≤ 64 := by
  unfold tapStep
  split
  · split <;> simp <;> omega
  · split <;> simp <;> omega
  · exact ⟨h1, h2, h3⟩

/-- A preset is within the limits. -/
theorem presetTaps_ok {k a b d : Nat} (h : presetTaps k = some (a, b, d)) : TapsOk (firWord a b d) := by
  unfold presetTaps at h
  split at h
  case h_4 => cases h
  all_goals
    cases h
    exact tapsOk_firWord (by decide) (by decide) (by decide) (by decide)

/-- Whatever a request asks for, the taps stay within their limits. -/
theorem applyRequest_ok {taps : Word} (held : Bool) (c stats : Nat) (h : TapsOk taps) : TapsOk (applyRequest taps held c stats).1 := by
  obtain ⟨hpre, hmain, hpost, hsum⟩ := h
  unfold applyRequest
  cases held with
  | true => exact ⟨hpre, hmain, hpost, hsum⟩
  | false =>
    rw [if_neg (by decide)]
    split
    · next a b d hp => exact presetTaps_ok hp
    · have hm64 : bits taps 8 7 ≤ 64 := by omega
      dsimp only
      generalize bits taps 0 5 = x at *
      generalize bits taps 8 7 = y at *
      generalize bits taps 16 5 = z at *
      obtain ⟨-, ha2, ha3⟩ := tapStep_bounds (c % 4) (v := x) (lo := 0) (hi := 16) (rest := y + z) (by omega) hpre (by omega)
      generalize tapStep (c % 4) x 0 16 (y + z) = a at *
      obtain ⟨hb1, -, hb3⟩ := tapStep_bounds (c / 4 % 4) (v := y) (lo := 32) (hi := 64) (rest := a.1 + z) hmain hm64 (by omega)
      generalize tapStep (c / 4 % 4) y 32 64 (a.1 + z) = b at *
      obtain ⟨-, hd2, hd3⟩ := tapStep_bounds (c / 16 % 4) (v := z) (lo := 0) (hi := 24) (rest := a.1 + b.1) (by omega) hpost (by omega)
      exact tapsOk_firWord ha2 hb1 hd2 (by omega)

theorem applyRequest_preset {taps : Word} {c stats : Nat} {x : Nat × Nat × Nat} (h : presetTaps (c / 64 % 8) = some x) :
    (applyRequest taps false c stats).1 = firWord x.1 x.2.1 x.2.2 := by
  unfold applyRequest
  rw [if_neg (by decide), h]

/-! ### A good control field (R112 to R114) -/

section Control

variable (s : State) {l : Nat} (c : Nat)

/-- The transmitter's state once it shows its precoding. -/
def State.precodeShown (s : State) (l c : Nat) : State :=
  s.put F.LANE_STATUS_TX_PRECODE_ON l (if s.linkRate (s.ownerOf l) = 2 then 0 else c / 512 % 2)

theorem testBit_eq_beq (c k : Nat) : c.testBit k = (c / 2 ^ k % 2 == 1) := by
  rw [Nat.testBit_eq_decide_div_mod_eq]
  by_cases h : c / 2 ^ k % 2 = 1 <;> simp [h]

theorem takeControl_eq : s.takeControl l c = if (s.lane l).acted = c.testBit 14 then s.precodeShown l c
    else
      let r := applyRequest ((s.precodeShown l c).rd .LANE_TX_FIR l) ((s.precodeShown l c).isOn F.LANE_CTRL_TX_FIR_OVERRIDE l) c (s.lane l).stats
      ((s.precodeShown l c).wr .LANE_TX_FIR l r.1).modLane l fun x => { x with acted := c.testBit 14, stats := r.2 } := by
  rw [testBit_eq_beq]
  rfl

theorem takeControl_regsBut : RegsBut [(.LANE_STATUS, l), (.LANE_TX_FIR, l)] s (s.takeControl l c) := by
  have hp : RegsBut [(.LANE_STATUS, l), (.LANE_TX_FIR, l)] s (s.precodeShown l c) :=
    (RegsBut.refl _ s).put F.LANE_STATUS_TX_PRECODE_ON _ List.mem_cons_self
  rw [takeControl_eq]
  split
  · exact hp
  · exact (hp.wr _ (by simp)).trans (.of_regs (modLane_regs ..) _)

/-- The fields of LANE_STATUS beside the precoding. -/
theorem get_takeControl {f : Fld} (hl : l < 2 ^ 20) (hr : f.r = .LANE_STATUS) (hf : f.lo + f.w ≤ 10 ∨ 11 ≤ f.lo) :
    (s.takeControl l c).get f l = s.get f l := by
  have hp : (s.precodeShown l c).get f l = s.get f l := get_put_beside s F.LANE_STATUS_TX_PRECODE_ON f l _ hr hf
  rw [takeControl_eq]
  split
  · exact hp
  · exact (get_congr (f := f) (rd_wr_reg _ _ (by rw [hr]; decide) hl hl)).trans hp

theorem takeControl_sameLinks (hl : l < 2 ^ 20) : SameLinks s (s.takeControl l c) := by
  refine .of_regsBut (takeControl_regsBut s c) (by simpa [Reg.ofLinks] using hl) ?_ fun n => ?_
  · rw [takeControl_eq]
    split <;> rfl
  · rw [takeControl_eq]
    split <;> rfl

theorem takeControl_goodReady : ((s.takeControl l c).lane l).goodReady = (s.lane l).goodReady := by
  rw [takeControl_eq]
  split
  · rfl
  · rw [lane_modLane_same]
    rfl

variable (hl : l < 2 ^ 20)
include hl

theorem precodeShown_taps : (s.precodeShown l c).rd .LANE_TX_FIR l = s.rd .LANE_TX_FIR l := rd_wr_reg _ _ (by decide) hl hl

theorem takeControl_taps (h : TapsOk (s.rd .LANE_TX_FIR l)) : TapsOk ((s.takeControl l c).rd .LANE_TX_FIR l) := by
  rw [takeControl_eq]
  split
  · rwa [precodeShown_taps s c hl]
  · rw [rd_congr (modLane_regs ..), rd_wr_same, precodeShown_taps s c hl]
    exact applyRequest_ok _ c _ h

/-- A new request for a preset is acted upon. -/
theorem takeControl_preset {x : Nat × Nat × Nat} (hx : presetTaps (c / 64 % 8) = some x)
    (ho : s.isOn F.LANE_CTRL_TX_FIR_OVERRIDE l = false) (hnew : c.testBit 14 ≠ (s.lane l).acted) :
    (s.takeControl l c).rd .LANE_TX_FIR l = firWord x.1 x.2.1 x.2.2 ∧ ((s.takeControl l c).lane l).acted = c.testBit 14 := by
  have hover : (s.precodeShown l c).isOn F.LANE_CTRL_TX_FIR_OVERRIDE l = false :=
    (isOn_congr (get_put_reg s _ _ _ _ _ (by decide) hl hl)).trans ho
  rw [takeControl_eq, if_neg (Ne.symm hnew), hover]
  exact ⟨(rd_congr (modLane_regs ..) _ _).trans ((rd_wr_same ..).trans (applyRequest_preset hx)), by rw [lane_modLane_same]⟩

end Control

/-! ### A good status field (R110, R117, R120) -/

/-- The lane with a status field noted. -/
def State.statusNoted (s : State) (l f : Nat) : State :=
  ((s.put F.LANE_STATUS_RX_PRECODE_ON l (f / 512)).put F.LANE_STATUS_FAR_RX_READY l (b2n (f.testBit 10))).modLane l fun x =>
    { x with goodReady := if f.testBit 10 then x.goodReady + 1 else 0 }

section Status

variable (s : State) {l : Nat} (f : Nat)

theorem takeStatus_eq : s.takeStatus l f =
    if (s.statusNoted l f).laneSt l = lnTrain ∧
        (f.testBit 11 != (s.statusNoted l f).fecOn (s.ownerOf l) || f / 4096 % 4 != (s.statusNoted l f).linkRate (s.ownerOf l)) = true then
      (s.statusNoted l f).toWait l 4
    else (s.statusNoted l f).tryHandoff l := by
  unfold State.statusNoted
  rw [testBit_eq_beq, testBit_eq_beq]
  rfl

theorem statusNoted_only : LanesOnly [l] s (s.statusNoted l f) :=
  (((LanesOnly.refl [l] s).put F.LANE_STATUS_RX_PRECODE_ON _ rfl List.mem_cons_self).put F.LANE_STATUS_FAR_RX_READY _ rfl
    List.mem_cons_self).modLane List.mem_cons_self _

/-- The fields of LANE_STATUS that a status field leaves. -/
theorem get_statusNoted {g : Fld} (hr : g.r = .LANE_STATUS) (hg : g.lo + g.w ≤ 9 ∨ 12 ≤ g.lo) : (s.statusNoted l f).get g l = s.get g l :=
  (get_congr (rd_congr (modLane_regs ..) _ _)).trans
    ((get_put_beside _ F.LANE_STATUS_FAR_RX_READY g l _ hr (hg.imp (by dsimp only; omega) (by dsimp only; omega))).trans
      (get_put_beside _ F.LANE_STATUS_RX_PRECODE_ON g l _ hr (hg.imp (by dsimp only; omega) (by dsimp only; omega))))

theorem statusNoted_lane : (s.statusNoted l f).lane l = { s.lane l with goodReady := if f.testBit 10 then (s.lane l).goodReady + 1 else 0 } :=
  lane_modLane_same ..

theorem tryHandoff_only : LanesOnly [l] s (s.tryHandoff l) := .ite (toHandoff_enters s l).only (.refl _ s)

theorem get_tryHandoff {g : Fld} (hr : g.r = .LANE_STATUS) (hg : 4 ≤ g.lo) : (s.tryHandoff l).get g l = s.get g l := by
  unfold State.tryHandoff
  split
  · exact get_toHandoff s l hr hg
  · rfl

theorem takeStatus_only : LanesOnly [l] s (s.takeStatus l f) := by
  rw [takeStatus_eq]
  exact (statusNoted_only s f).trans (.ite (toWait_enters _ _ _).only (tryHandoff_only _))

theorem takeStatus_inverted : (s.takeStatus l f).get F.LANE_STATUS_RX_INVERTED l = s.get F.LANE_STATUS_RX_INVERTED l := by
  rw [takeStatus_eq]
  split
  · exact (get_toWait _ l (f := F.LANE_STATUS_RX_INVERTED) rfl 4 (by decide) (by decide) (by decide)).trans (get_statusNoted s f rfl (by decide))
  · exact (get_tryHandoff _ (g := F.LANE_STATUS_RX_INVERTED) rfl (by decide)).trans (get_statusNoted s f rfl (by decide))

theorem takeStatus_acted : ((s.takeStatus l f).lane l).acted = (s.lane l).acted := by
  have hn : ((s.statusNoted l f).lane l).acted = (s.lane l).acted := by rw [statusNoted_lane]
  rw [takeStatus_eq]
  split
  · refine Eq.trans ?_ hn
    unfold State.toWait State.laneEnter
    rw [lane_congr (put_lanes ..), lane_modLane_same]
    rfl
  · unfold State.tryHandoff
    split
    · refine Eq.trans ?_ hn
      unfold State.toHandoff State.laneEnter
      rw [lane_modLane_same, lane_modLane_same]
      rfl
    · exact hn

variable {s f} (hl : l < 2 ^ 20) (hst : s.laneSt l = lnTrain)
include hl hst

/-- A far end with another FEC_ON or RATE. -/
theorem takeStatus_mismatch (h : f.testBit 11 ≠ s.fecOn (s.ownerOf l) ∨ f / 4096 % 4 ≠ s.linkRate (s.ownerOf l)) :
    (s.takeStatus l f).laneSt l = lnWait ∧ (s.takeStatus l f).get F.LANE_STATUS_LAST_FAIL l = 4 := by
  have hlinks := (statusNoted_only s f (l := l)).sameLinks (by simpa using hl)
  have hown := ownerOf_le s l
  have hcond : (f.testBit 11 != (s.statusNoted l f).fecOn (s.ownerOf l) || f / 4096 % 4 != (s.statusNoted l f).linkRate (s.ownerOf l)) = true := by
    rw [hlinks.fecOn (by omega), hlinks.linkRate (by omega)]
    rcases h with h | h <;> simp [h]
  rw [takeStatus_eq, if_pos ⟨(get_statusNoted s f (g := F.LANE_STATUS_STATE) rfl (by decide)).trans hst, hcond⟩]
  exact ⟨(toWait_enters _ l 4).state, toWait_fail _ l (by decide)⟩

/-- The third good field in a row with RX_READY hands off. -/
theorem takeStatus_handoff (h1 : f.testBit 11 = s.fecOn (s.ownerOf l)) (h2 : f / 4096 % 4 = s.linkRate (s.ownerOf l))
    (hready : f.testBit 10 = true) (hlocal : s.isOn F.LANE_STATUS_LOCAL_RX_READY l = true) (hgood : 2 ≤ (s.lane l).goodReady) :
    (s.takeStatus l f).laneSt l = lnHandoff := by
  have hlinks := (statusNoted_only s f (l := l)).sameLinks (by simpa using hl)
  have hown := ownerOf_le s l
  have hcond : (f.testBit 11 != (s.statusNoted l f).fecOn (s.ownerOf l) || f / 4096 % 4 != (s.statusNoted l f).linkRate (s.ownerOf l)) = false := by
    rw [hlinks.fecOn (by omega), hlinks.linkRate (by omega), h1, h2]
    simp
  have hthird : 3 ≤ ((s.statusNoted l f).lane l).goodReady := by
    rw [statusNoted_lane, hready]
    change 3 ≤ (s.lane l).goodReady + 1
    omega
  rw [takeStatus_eq, if_neg fun e => Bool.false_ne_true (hcond.symm.trans e.2), State.tryHandoff,
    if_pos ⟨(get_statusNoted s f (g := F.LANE_STATUS_STATE) rfl (by decide)).trans hst,
      (isOn_congr (get_statusNoted s f (g := F.LANE_STATUS_LOCAL_RX_READY) rfl (by decide))).trans hlocal, hthird⟩]
  exact (toHandoff_enters _ l).state

end Status

end Sys2Proof.Machine

/-! SUPPORT. The commands that receive and send training frames (R107 to R117, R120), and the statement O11. -/

namespace Sys2Proof.Machine

/-! ### A training frame received -/

/-- The lane once its receiver has taken a frame's marker. -/
def State.frameHeard (s : State) (l : Nat) (inv : Bool) (eye : Word) : State :=
  ((s.wr .LANE_STATUS l (s.rd .LANE_STATUS l ||| 0x70)).put F.LANE_STATUS_RX_INVERTED l (b2n inv)).setEye l eye

/-- The lane once it has taken a frame's fields as well, those whose CRC8 is good. -/
def State.frameTaken (s : State) (l : Nat) (c st : Nat) : State :=
  let s1 := if trainGood c then s.takeControl l c else s
  if trainGood st then s1.takeStatus l st else s1

section Heard

variable (s : State) {l : Nat} (inv : Bool) (eye : Word)

theorem frameHeard_regsBut : RegsBut [(.LANE_STATUS, l), (.LANE_EYE, l)] s (s.frameHeard l inv eye) :=
  (((RegsBut.refl _ s).wr _ List.mem_cons_self).put F.LANE_STATUS_RX_INVERTED _ List.mem_cons_self).wr _ (by simp)

variable (hl : l < 40)
include hl

theorem frameHeard_rd {q : Reg} (hq : q ≠ .LANE_STATUS) (hq2 : q ≠ .LANE_EYE) : (s.frameHeard l inv eye).rd q l = s.rd q l :=
  (frameHeard_regsBut s inv eye).rd_eq (by omega) (by simp [hq, hq2]; omega)

/-- The fields of LANE_STATUS beside the locks and the order of the marker's halves. -/
theorem get_frameHeard {f : Fld} (hr : f.r = .LANE_STATUS) (hm : bits (0x70 : Word) f.lo f.w = 0) (hf : f.lo + f.w ≤ 8 ∨ 9 ≤ f.lo) :
    (s.frameHeard l inv eye).get f l = s.get f l :=
  (get_congr (f := f) (rd_wr_reg _ _ (by rw [hr]; decide) (by omega) (by omega))).trans
    ((get_put_beside _ F.LANE_STATUS_RX_INVERTED f l _ hr hf).trans (get_orStatus s l hr hm))

theorem frameHeard_inverted : (s.frameHeard l inv eye).get F.LANE_STATUS_RX_INVERTED l = b2n inv := by
  refine (get_congr (f := F.LANE_STATUS_RX_INVERTED) (rd_wr_reg _ _ (by decide) (by omega) (by omega))).trans ?_
  rw [get_put_same _ _ _ _ (by decide)]
  cases inv <;> rfl

theorem frameHeard_sameLinks : SameLinks s (s.frameHeard l inv eye) :=
  .of_regsBut (frameHeard_regsBut s inv eye) (by simp [Reg.ofLinks]; omega) rfl fun _ => rfl

end Heard

section Taken

variable (s : State) {l : Nat} (c st : Nat) (hl : l < 40)
include hl

/-- The control field leaves the order of the marker's halves, the status field the taps. -/
theorem frameTaken_inverted : (s.frameTaken l c st).get F.LANE_STATUS_RX_INVERTED l = s.get F.LANE_STATUS_RX_INVERTED l := by
  have hc : (if trainGood c then s.takeControl l c else s).get F.LANE_STATUS_RX_INVERTED l = s.get F.LANE_STATUS_RX_INVERTED l := by
    split
    · exact get_takeControl s c (by omega) rfl (by decide)
    · rfl
  unfold State.frameTaken
  dsimp only
  split
  · exact (takeStatus_inverted _ st).trans hc
  · exact hc

theorem frameTaken_taps : (s.frameTaken l c st).rd .LANE_TX_FIR l = (if trainGood c then s.takeControl l c else s).rd .LANE_TX_FIR l := by
  unfold State.frameTaken
  dsimp only
  split
  · exact (takeStatus_only _ st).rd (by simp; omega) (by decide) (by omega)
  · rfl

omit hl in
theorem frameTaken_acted : ((s.frameTaken l c st).lane l).acted = ((if trainGood c then s.takeControl l c else s).lane l).acted := by
  unfold State.frameTaken
  dsimp only
  split
  · exact takeStatus_acted _ st
  · rfl

variable {c st}

theorem frameTaken_badStatus (h : trainGood st = false) : (s.frameTaken l c st).laneSt l = s.laneSt l := by
  unfold State.frameTaken
  dsimp only
  rw [if_neg (by simp [h])]
  split
  · exact get_takeControl s c (f := F.LANE_STATUS_STATE) (by omega) rfl (by decide)
  · rfl

theorem frameTaken_ok (h : TapsOk (s.rd .LANE_TX_FIR l)) : TapsOk ((s.frameTaken l c st).rd .LANE_TX_FIR l) := by
  rw [frameTaken_taps s c st hl]
  split
  · exact takeControl_taps s c (by omega) h
  · exact h

/-- A good status field in TRAIN. -/
theorem frameTaken_status (hst : s.laneSt l = lnTrain) (h : trainGood st = true) :
    (st.testBit 11 ≠ s.fecOn (s.ownerOf l) ∨ st / 4096 % 4 ≠ s.linkRate (s.ownerOf l) →
      (s.frameTaken l c st).laneSt l = lnWait ∧ (s.frameTaken l c st).get F.LANE_STATUS_LAST_FAIL l = 4) ∧
    (st.testBit 11 = s.fecOn (s.ownerOf l) → st / 4096 % 4 = s.linkRate (s.ownerOf l) →
      st.testBit 10 = true → s.isOn F.LANE_STATUS_LOCAL_RX_READY l = true → 2 ≤ (s.lane l).goodReady →
      (s.frameTaken l c st).laneSt l = lnHandoff) := by
  have hown := ownerOf_le s l
  have ht : s.frameTaken l c st = (if trainGood c then s.takeControl l c else s).takeStatus l st := if_pos h
  rw [ht]
  by_cases hc : trainGood c = true
  · have hlinks := takeControl_sameLinks s c (l := l) (by omega)
    have hstate : (s.takeControl l c).laneSt l = lnTrain := (get_takeControl s c (f := F.LANE_STATUS_STATE) (by omega) rfl (by decide)).trans hst
    have hlocal : (s.takeControl l c).isOn F.LANE_STATUS_LOCAL_RX_READY l = s.isOn F.LANE_STATUS_LOCAL_RX_READY l :=
      isOn_congr (get_takeControl s c (by omega) rfl (by decide))
    have hgood := takeControl_goodReady s c (l := l)
    rw [if_pos hc, ← hlinks.fecOn (n := s.ownerOf l) (by omega), ← hlinks.linkRate (n := s.ownerOf l) (by omega), ← hlocal, ← hgood,
      ← hlinks.ownerOf l]
    exact ⟨takeStatus_mismatch (by omega) hstate, takeStatus_handoff (by omega) hstate⟩
  · rw [if_neg hc]
    exact ⟨takeStatus_mismatch (by omega) hst, takeStatus_handoff (by omega) hst⟩

end Taken

section Received

variable {l : Fin 40} (c st : BitVec 32) (inv : Bool) (eye : Word) {s : State}

theorem trainingFrameReceived_other (h : s.laneSt l ∉ [lnTrain, lnHandoff, lnActive]) :
    exec (.trainingFrameReceived l c st inv eye) s = .next s := by
  simp only [List.mem_cons, List.not_mem_nil, or_false, not_or] at h
  obtain ⟨h1, h2, h3⟩ := h
  change execTrainingFrameReceived l c st inv eye s = _
  exact congrArg _ ((if_neg h3).trans (if_neg (not_or.mpr ⟨h1, h2⟩)))

theorem trainingFrameReceived_training (h : s.laneSt l ∈ [lnTrain, lnHandoff]) : exec (.trainingFrameReceived l c st inv eye) s =
    .next ((s.frameHeard l inv eye).frameTaken l c.toNat st.toNat) := by
  simp only [List.mem_cons, List.not_mem_nil, or_false] at h
  have hact : s.laneSt l ≠ lnActive := by rcases h with h | h <;> rw [h] <;> decide
  change execTrainingFrameReceived l c st inv eye s = _
  exact congrArg _ ((if_neg hact).trans (if_pos h))

theorem trainingFrameReceived_active (h : s.laneSt l = lnActive) : exec (.trainingFrameReceived l c st inv eye) s =
    .next (if 3 ≤ (s.lane l).markers + 1 then (s.modLane l fun x => { x with markers := x.markers + 1 }).lockLost l
      else s.modLane l fun x => { x with markers := x.markers + 1 }) := by
  have hm : ((s.modLane l fun x => { x with markers := x.markers + 1 }).lane l).markers = (s.lane l).markers + 1 := by rw [lane_modLane_same]
  change execTrainingFrameReceived l c st inv eye s = _
  refine congrArg _ ((if_pos h).trans ?_)
  rw [← hm]

/-- A lane of a link without a request of its own that loses lock trains again. -/
theorem lockLost_effect {a : State} {k : Nat} (hk : k < 40) (hlm : (a.stall (a.ownerOf k)).lm = none) :
    (a.lockLost k).laneSt k = lnTrain ∧ (a.lockLost k).get F.LANE_STATUS_LAST_FAIL k = 5 := by
  have hown := ownerOf_le a k
  let b := (a.toTrain k true).put F.LANE_STATUS_LAST_FAIL k 5
  have hb : Enters k lnTrain a b := (toTrain_enters a k true).put F.LANE_STATUS_LAST_FAIL 5 rfl (by decide)
  have hcancel : (b.countRetrain (a.ownerOf k)).lmCancel (a.ownerOf k) = b.countRetrain (a.ownerOf k) := lmCancel_none (by
    rw [stall_congr (countRetrain_stalls ..), hb.only.stall, hlm])
  have hmoves : LinkMoves (b.countRetrain (a.ownerOf k)) (a.lockLost k) := by
    unfold State.lockLost
    dsimp only
    rw [show ((((a.toTrain k true).put F.LANE_STATUS_LAST_FAIL k 5).countRetrain (a.ownerOf k)).lmCancel (a.ownerOf k)) = _ from hcancel]
    exact evalLink_moves _ _
  constructor
  · rw [hmoves.laneSt (by omega), countRetrain_laneSt _ (by omega) (by omega), hb.state]
  · refine (hmoves.get F.LANE_STATUS_LAST_FAIL rfl (by decide) (by decide) (by omega)).trans ?_
    refine ((countRetrain_regsBut b _).get_eq F.LANE_STATUS_LAST_FAIL (by omega) (by simp; omega)).trans ?_
    exact get_put_same _ _ _ _ (by decide)

end Received

end Sys2Proof.Machine

/-! SUPPORT. Training frames sent (R109 to R111, R115, R117), and the statement O11. -/

namespace Sys2Proof.Machine

/-! ### A frame received in ACTIVE or in training -/

/-- In ACTIVE only the markers count, and the third loses lock. -/
theorem trainingFrameReceived_marks (l : Fin 40) (c st : BitVec 32) (inv : Bool) (eye : Word) {s : State} (h : s.laneSt l = lnActive) :
    ((s.lane l).markers < 2 → ∃ t, exec (.trainingFrameReceived l c st inv eye) s = .next t ∧
      (t.lane l).markers = (s.lane l).markers + 1 ∧ { t with lanes := s.lanes } = s) ∧
    (2 ≤ (s.lane l).markers → ∃ t, exec (.trainingFrameReceived l c st inv eye) s = .next t ∧
      ((s.stall (s.ownerOf l)).lm = none → t.laneSt l = lnTrain ∧ t.get F.LANE_STATUS_LAST_FAIL l = 5)) := by
  have hexec := trainingFrameReceived_active c st inv eye h
  refine ⟨fun hm => ?_, fun hm => ?_⟩
  · rw [if_neg (by omega)] at hexec
    exact ⟨_, hexec, by rw [lane_modLane_same], rfl⟩
  · rw [if_pos (by omega)] at hexec
    exact ⟨_, hexec, fun hlm => lockLost_effect l.isLt hlm⟩

/-- In TRAIN and HANDOFF both fields are taken where their CRC8 is good. -/
theorem trainingFrameReceived_takes (l : Fin 40) (c st : BitVec 32) (inv : Bool) (eye : Word) {s : State} (h : s.laneSt l ∈ [lnTrain, lnHandoff]) :
    ∃ t, exec (.trainingFrameReceived l c st inv eye) s = .next t ∧ t.get F.LANE_STATUS_RX_INVERTED l = b2n inv ∧
      (trainGood c.toNat = false → t.rd .LANE_TX_FIR l = s.rd .LANE_TX_FIR l) ∧
      (trainGood st.toNat = false → t.laneSt l = s.laneSt l) ∧
      (∀ x, presetTaps (c.toNat / 64 % 8) = some x → trainGood c.toNat = true → s.isOn F.LANE_CTRL_TX_FIR_OVERRIDE l = false →
        c.toNat.testBit 14 ≠ (s.lane l).acted →
        t.rd .LANE_TX_FIR l = firWord x.1 x.2.1 x.2.2 ∧ (t.lane l).acted = c.toNat.testBit 14) ∧
      (TapsOk (s.rd .LANE_TX_FIR l) → TapsOk (t.rd .LANE_TX_FIR l)) ∧
      (s.laneSt l = lnTrain → trainGood st.toNat = true →
        (st.toNat.testBit 11 ≠ s.fecOn (s.ownerOf l) ∨ st.toNat / 4096 % 4 ≠ s.linkRate (s.ownerOf l) →
          t.laneSt l = lnWait ∧ t.get F.LANE_STATUS_LAST_FAIL l = 4) ∧
        (st.toNat.testBit 11 = s.fecOn (s.ownerOf l) → st.toNat / 4096 % 4 = s.linkRate (s.ownerOf l) →
          st.toNat.testBit 10 = true → s.isOn F.LANE_STATUS_LOCAL_RX_READY l = true → 2 ≤ (s.lane l).goodReady →
          t.laneSt l = lnHandoff)) := by
  have hl : l.val < 40 := l.isLt
  have hown := ownerOf_le s l
  let a := s.frameHeard l inv eye
  have hlinks : SameLinks s a := frameHeard_sameLinks s inv eye hl
  have hstate : a.laneSt l = s.laneSt l := get_frameHeard s inv eye hl (f := F.LANE_STATUS_STATE) rfl (by decide) (by decide)
  have hlocal : a.isOn F.LANE_STATUS_LOCAL_RX_READY l = s.isOn F.LANE_STATUS_LOCAL_RX_READY l :=
    isOn_congr (get_frameHeard s inv eye hl rfl (by decide) (by decide))
  have htaps : a.rd .LANE_TX_FIR l = s.rd .LANE_TX_FIR l := frameHeard_rd s inv eye hl (by decide) (by decide)
  have hover : a.isOn F.LANE_CTRL_TX_FIR_OVERRIDE l = s.isOn F.LANE_CTRL_TX_FIR_OVERRIDE l :=
    isOn_congr (get_congr (f := F.LANE_CTRL_TX_FIR_OVERRIDE) (frameHeard_rd s inv eye hl (by decide) (by decide)))
  have hlane : a.lane l = s.lane l := rfl
  refine ⟨_, trainingFrameReceived_training c st inv eye h, (frameTaken_inverted a _ _ hl).trans (frameHeard_inverted s inv eye hl),
    fun hc => ?_, fun hs => (frameTaken_badStatus a hl hs).trans hstate, fun x hx hc ho hnew => ?_,
    fun hok => frameTaken_ok a hl (by rwa [htaps]), fun hst hs => ?_⟩
  · rw [frameTaken_taps a _ _ hl, if_neg (by simp [hc]), htaps]
  · obtain ⟨h1, h2⟩ := takeControl_preset a c.toNat (by omega) hx (hover.trans ho) hnew
    rw [frameTaken_taps a _ _ hl, frameTaken_acted a, if_pos hc]
    exact ⟨h1, h2⟩
  · have hstatus := frameTaken_status a (c := c.toNat) (st := st.toNat) hl (hstate.trans hst) hs
    rw [hlinks.ownerOf, hlinks.fecOn (by omega), hlinks.linkRate (by omega), hlocal, hlane] at hstatus
    exact hstatus

/-! ### The fields of a frame (R110, R111) -/

theorem bytesOfNat_congr {a b : Nat} (n : Nat) (h : a % 256 ^ n = b % 256 ^ n) : bytesOfNat n a = bytesOfNat n b := by
  induction n generalizing a b with
  | zero => rfl
  | succ n ih =>
    have hlow : a % 256 = b % 256 := by
      have h1 := congrArg (· % 256) h
      simpa only [Nat.pow_succ, Nat.mod_mod_of_dvd _ (Dvd.intro_left _ rfl)] using h1
    have hhigh : a / 256 % 256 ^ n = b / 256 % 256 ^ n := by
      have h1 := congrArg (· / 256) h
      simpa only [Nat.pow_succ, Nat.mul_comm _ 256, Nat.mod_mul_right_div_self] using h1
    unfold bytesOfNat
    rw [ih hhigh]
    congr 1
    exact BitVec.eq_of_toNat_eq (by simpa using hlow)

/-- A field that is sent carries a good CRC8. -/
theorem trainGood_trainField (f : Nat) : trainGood (trainField f) = true := by
  have hcrc : trainCrc (trainField f) = trainCrc f := by
    unfold trainCrc
    rw [bytesOfNat_congr 3]
    unfold trainField
    omega
  have hdiv : trainField f / 2 ^ 24 = trainCrc f := by
    unfold trainField
    omega
  unfold trainGood
  rw [hcrc, hdiv]
  exact beq_self_eq_true _

/-- What a lane's status field says, before its CRC8. -/
def statusField (stats precode ready fec rate acted hand idx : Nat) : Nat :=
  stats % 512 + 512 * precode + 1024 * ready + 2048 * fec + 4096 * rate + 16384 * acted + 65536 * hand + 1048576 * idx

/-- The far end reads FEC_ON, RATE and HANDOFF back from a status field. -/
theorem statusField_reads (stats idx : Nat) {precode ready rate hand : Nat} (fec acted : Bool) (hp : precode < 2) (hr : ready < 2)
    (hk : rate < 4) :
    let st := trainField (statusField stats precode ready (b2n fec) rate (b2n acted) hand idx)
    st.testBit 11 = fec ∧ st / 4096 % 4 = rate ∧ st.testBit 15 = false ∧ st / 65536 % 16 = hand % 16 := by
  have hb : ∀ b : Bool, b2n b < 2 := fun b => by cases b <;> decide
  have hf := hb fec
  have ha := hb acted
  have hs : stats % 512 < 512 := Nat.mod_lt _ (by decide)
  dsimp only
  rw [Nat.testBit_eq_decide_div_mod_eq, Nat.testBit_eq_decide_div_mod_eq]
  unfold trainField statusField
  generalize trainCrc _ = crc
  refine ⟨?_, by omega, decide_eq_false (by omega), by omega⟩
  have h11 : (stats % 512 + 512 * precode + 1024 * ready + 2048 * b2n fec + 4096 * rate + 16384 * b2n acted + 65536 * hand + 1048576 * idx) %
      2 ^ 24 / 2 ^ 11 % 2 = b2n fec := by omega
  rw [show ∀ x : Nat, (x % 2 ^ 24 + crc * 2 ^ 24) / 2 ^ 11 % 2 = x % 2 ^ 24 / 2 ^ 11 % 2 from fun x => by omega, h11]
  cases fec <;> rfl

/-! ### A training frame sent -/

/-- The lane once it has made its request and shown whether its receiver is ready. -/
def State.frameAsked (s : State) (l : Nat) (req : Option (Fin 64)) (ready : Bool) : State :=
  if s.laneSt l = lnTrain then (s.nextRequest l req).put F.LANE_STATUS_LOCAL_RX_READY l (b2n ready) else s

/-- The frame that a lane sends. -/
def State.trainOut (s : State) (l n hand : Nat) : Out :=
  .trainFrame l (trainField ((s.lane l).ask % 512 + 512 * s.get F.LANE_CTRL_RX_PRECODE_REQ l + 16384 * b2n (s.lane l).reqToggle))
    (trainField (statusField (s.lane l).stats (s.get F.LANE_STATUS_TX_PRECODE_ON l) (s.get F.LANE_STATUS_LOCAL_RX_READY l) (b2n (s.fecOn n))
      (s.linkRate n) (b2n (s.lane l).acted) hand (s.laneIdx l)))

theorem nextRequest_only (s : State) (l : Nat) (req : Option (Fin 64)) : LanesOnly [l] s (s.nextRequest l req) := by
  unfold State.nextRequest
  dsimp only
  split
  · exact .ite ((LanesOnly.refl [l] s).modLane List.mem_cons_self _) (.refl _ s)
  · exact .refl _ s

theorem frameAsked_only (s : State) (l : Nat) (req : Option (Fin 64)) (ready : Bool) : LanesOnly [l] s (s.frameAsked l req ready) :=
  .ite ((nextRequest_only s l req).put F.LANE_STATUS_LOCAL_RX_READY _ rfl List.mem_cons_self) (.refl _ s)

section Send

variable {l : Fin 40} (req : Option (Fin 64)) (ready : Bool) {s : State}

theorem trainingFrameSend_silent (h : s.laneSt l ∈ [lnDisabled, lnDeep, lnActive, lnIdle, lnTest]) :
    exec (.trainingFrameSend l req ready) s = .next s := by
  have hno : [lnWake, lnTrain, lnHandoff, lnWait, lnFault].contains (s.laneSt l) = false := by
    simp only [List.mem_cons, List.not_mem_nil, or_false] at h
    rcases h with h | h | h | h | h <;> rw [h] <;> rfl
  change execTrainingFrameSend l req ready s = _
  exact congrArg _ (if_pos (by rw [hno]; rfl))

/-- A lane that trains or waits sends no countdown. -/
theorem trainingFrameSend_trains (h : s.laneSt l ∈ [lnWake, lnTrain, lnWait, lnFault]) :
    exec (.trainingFrameSend l req ready) s =
      .next (((s.frameAsked l req ready).emit ((s.frameAsked l req ready).trainOut l (s.ownerOf l) 0)).tryHandoff l) := by
  have hyes : [lnWake, lnTrain, lnHandoff, lnWait, lnFault].contains (s.laneSt l) = true := by
    rw [List.contains_iff_mem]
    simp only [List.mem_cons, List.not_mem_nil, or_false] at h ⊢
    tauto
  have hne : s.laneSt l ≠ lnHandoff := by
    simp only [List.mem_cons, List.not_mem_nil, or_false] at h
    rcases h with h | h | h | h <;> rw [h] <;> decide
  change execTrainingFrameSend l req ready s = _
  refine congrArg _ ((if_neg ?_).trans ((if_neg hne).trans ?_))
  · rw [hyes]
    simp [hne]
  · rw [if_neg hne]
    rfl

/-- A lane whose countdown runs sends it. -/
theorem trainingFrameSend_counts (hst : s.laneSt l = lnHandoff) (hh : 0 < (s.lane l).hand) :
    exec (.trainingFrameSend l req ready) s =
      .next ((s.emit (s.trainOut l (s.ownerOf l) ((s.lane l).hand - 1))).modLane l fun y =>
        { y with hand := if (s.lane l).hand - 1 ≤ 1 then 0 else (s.lane l).hand - 1 }) := by
  have htrain : s.laneSt l ≠ lnTrain := by
    rw [hst]
    decide
  change execTrainingFrameSend l req ready s = _
  refine congrArg _ ((if_neg ?_).trans ((if_pos hst).trans ?_))
  · rw [hst]
    simpa [lnHandoff, lnWake, lnTrain, lnWait, lnFault] using by omega
  · rw [if_pos hst, if_neg htrain]
    rfl

/-- A frame sent carries good CRC8s, its link's FEC_ON and RATE, and the countdown. -/
theorem trainOut_reads (s : State) (l n hand : Nat) :
    ∃ c st, s.trainOut l n hand = .trainFrame l c st ∧ trainGood c = true ∧ trainGood st = true ∧ st.testBit 11 = s.fecOn n ∧
      st / 4096 % 4 = s.linkRate n ∧ st.testBit 15 = false ∧ st / 65536 % 16 = hand % 16 := by
  have hrate : s.linkRate n < 4 := by
    unfold State.linkRate
    split
    · decide
    · exact get_lt s F.STALL_LINK_CFG_RATE n
  exact ⟨_, _, rfl, trainGood_trainField _, trainGood_trainField _, statusField_reads _ _ (s.fecOn n) (s.lane l).acted
    (get_lt s F.LANE_STATUS_TX_PRECODE_ON l) (get_lt s F.LANE_STATUS_LOCAL_RX_READY l) hrate⟩

theorem trainingFrameSend_effect (h : s.laneSt l ∈ [lnWake, lnTrain, lnWait, lnFault] ∨ s.laneSt l = lnHandoff ∧ 0 < (s.lane l).hand) :
    ∃ t, exec (.trainingFrameSend l req ready) s = .next t ∧
      (∃ c st, t.sent = s.sent ++ [.trainFrame l c st] ∧ trainGood c = true ∧ trainGood st = true ∧
        st.testBit 11 = s.fecOn (s.ownerOf l) ∧ st / 4096 % 4 = s.linkRate (s.ownerOf l) ∧ st.testBit 15 = false ∧
        (s.laneSt l = lnHandoff → (s.lane l).hand ≤ 9 → st / 65536 % 16 = (s.lane l).hand - 1) ∧
        (s.laneSt l ≠ lnHandoff → st / 65536 % 16 = 0)) ∧
      (s.laneSt l = lnTrain → t.get F.LANE_STATUS_LOCAL_RX_READY l = b2n ready) := by
  rcases h with h | ⟨hst, hh⟩
  · have hne : s.laneSt l ≠ lnHandoff := by
      simp only [List.mem_cons, List.not_mem_nil, or_false] at h
      rcases h with h | h | h | h <;> rw [h] <;> decide
    have honly := frameAsked_only s l req ready
    have hlinks := honly.sameLinks (by simp; omega)
    obtain ⟨c, st, hout, hc, hg, h11, hrate, h15, hhand⟩ := trainOut_reads (s.frameAsked l req ready) l (s.ownerOf l) 0
    have hown := ownerOf_le s l
    rw [hlinks.fecOn (by omega)] at h11
    rw [hlinks.linkRate (by omega)] at hrate
    refine ⟨_, trainingFrameSend_trains req ready h, ⟨c, st, ?_, hc, hg, h11, hrate, h15, fun e => absurd e hne, fun _ => hhand⟩,
      fun htr => ?_⟩
    · rw [(tryHandoff_only _).sent, emit_sent, honly.sent, hout]
    · rw [get_tryHandoff _ (g := F.LANE_STATUS_LOCAL_RX_READY) rfl (by decide)]
      change (s.frameAsked l req ready).get F.LANE_STATUS_LOCAL_RX_READY l = _
      unfold State.frameAsked
      rw [if_pos htr, get_put_same _ _ _ _ (by decide)]
      cases ready <;> rfl
  · obtain ⟨c, st, hout, hc, hg, h11, hrate, h15, hhand⟩ := trainOut_reads s l (s.ownerOf l) ((s.lane l).hand - 1)
    refine ⟨_, trainingFrameSend_counts req ready hst hh, ⟨c, st, ?_, hc, hg, h11, hrate, h15, fun _ h9 => by omega, fun e => absurd hst e⟩,
      fun e => absurd (hst.symm.trans e) (by decide)⟩
    rw [modLane_sent, emit_sent, hout]

end Send

/-- Settles O11 (Table 3.10, R107 to R117, R147): lanes that wake, time out and lock, frames received and sent,
and the eye. -/
theorem lanesTrainAsTheirTableSays : Obligations.LanesTrainAsTheirTableSays := by
  refine ⟨fun l inv s => ⟨fun h => ⟨frameLock_other inv h, wakeTimeout_other inv h⟩,
      fun h => ⟨frameLock_wake inv h, wakeTimeout_wake inv h⟩⟩,
    fun l s => ⟨trainTimeout_other, trainTimeout_train, trainWaitExpiry_other, trainWaitExpiry_wait, cameraWakeDetect_other,
      fun hl hon hst => ⟨cameraWakeDetect_wakes hon hst, fun ho he => ?_, cameraWakeDetect_seen hl hon hst⟩⟩,
    fun l c st inv eye s => ⟨trainingFrameReceived_other c st inv eye, trainingFrameReceived_marks l c st inv eye, fun h => ?_⟩,
    fun l req ready s => ⟨trainingFrameSend_silent req ready, trainingFrameSend_effect req ready⟩, laneEyeUpdate_effect⟩
  · have hcw : s.ownerOf l ≠ cwLink := by
      have := ownerOf_lt (s := s) hl
      unfold cwLink
      omega
    have hexec := cameraWakeDetect_deep hon hst
    rw [if_pos ho, if_neg (by simp [hcw, he])] at hexec
    exact hexec
  · obtain ⟨t, hexec, hinv, hbad, hstay, hpreset, hok, hstatus⟩ := trainingFrameReceived_takes l c st inv eye h
    exact ⟨t, hexec, hinv, hbad, hstay, hpreset, fun h1 h2 h3 h4 => hok ⟨h1, h2, h3, h4⟩, hstatus⟩

end Sys2Proof.Machine

/-! SUPPORT. MARK rows (R101 to R104, R117, R123): a row in order brings a stall UP, skew and a wrong order are faults. -/

namespace Sys2Proof.Machine

/-! ### Rows sent (R101, R102, R105) -/

theorem markRowTransmit_effect {n : Fin 21} {s : State} (h : (s.linkOn n && (s.widthLanes n).any s.mission) = true) :
    ∃ t, exec (.markRowTransmit n) s = .next t ∧ t.sent = s.sent ++ [.laneRow n 0 (s.stall n).txSeq] ∧
      (t.stall n).txSeq = ((s.stall n).txSeq + 1) % 65536 ∧ { t with stalls := s.stalls, sent := s.sent } = s := by
  have hexec : exec (.markRowTransmit n) s =
      .next ((s.modStall n fun x => { x with txSeq := ((s.stall n).txSeq + 1) % 65536 }).emit (.laneRow n 0 (s.stall n).txSeq)) := by
    change execMarkRowTransmit n s = _
    exact congrArg _ (if_pos h)
  exact ⟨_, hexec, rfl, (congrArg Stall.txSeq (stall_congr (emit_stalls _ _) _)).trans (congrArg Stall.txSeq (stall_modStall_same ..)), rfl⟩

theorem fillRowTransmit_effect {n : Fin 21} {s : State} (h : (s.linkOn n && (s.widthLanes n).any s.mission) = true) :
    ∃ t, exec (.fillRowTransmit n) s = .next t ∧ t.sent = s.sent ++ [.laneRow n 1 0] ∧ { t with sent := s.sent } = s := by
  have hexec : exec (.fillRowTransmit n) s = .next (s.emit (.laneRow n 1 0)) := by
    change execFillRowTransmit n s = _
    exact congrArg _ (if_pos h)
  exact ⟨_, hexec, rfl, rfl⟩

theorem rowTransmit_none {n : Fin 21} {s : State} (h : (s.linkOn n && (s.widthLanes n).any s.mission) = false) :
    exec (.markRowTransmit n) s = .next s ∧ exec (.fillRowTransmit n) s = .next s := by
  constructor
  · change execMarkRowTransmit n s = _
    exact congrArg _ (if_neg (by rw [h]; decide))
  · change execFillRowTransmit n s = _
    exact congrArg _ (if_neg (by rw [h]; decide))

/-! ### A stall of two lanes -/

/-- The lanes of a stall whose width in use and largest width are two. -/
theorem twoLanes {s : State} {n : Nat} (hn : n < 16) (hw : s.widthCode n = 1) (hm : s.maxCode n = 1) :
    s.linkLanes n = [2 * n, 2 * n + 1] ∧ s.widthLanes n = [2 * n, 2 * n + 1] := by
  have h : s.linkLanes n = [2 * n, 2 * n + 1] := by
    rw [linkLanes_stall s (by omega), hm]
    rfl
  refine ⟨h, ?_⟩
  rw [State.widthLanes, h, hw]
  rfl

/-- A lane out of its countdown is in mission. -/
theorem mission_of_handoff {s : State} {l : Nat} (h : s.laneSt l = lnHandoff ∧ (s.lane l).hand = 0) : s.mission l = true := by
  obtain ⟨h1, h2⟩ := h
  unfold State.mission
  rw [h1, h2]
  rfl

/-- A row on two lanes in mission: its order first, then its skew. -/
theorem markRowReceived_two {n : Fin 21} (hn : n.val < 16) (seq : Fin 65536) (i j : Fin 8) (a b : Nat) {s : State} (hon : s.linkOn n = true)
    (hw : s.widthCode n = 1) (hm : s.maxCode n = 1) (hst : ∀ l ∈ s.linkLanes n, s.laneSt l = lnHandoff ∧ (s.lane l).hand = 0) :
    exec (.markRowReceived n seq [i, j] [a, b]) s = .next (
      if (([i, j] : List (Fin 8)).zip (List.range 2)).any (fun p => p.1.val != p.2) then s.linkFault n 6
      else if [a - min a b, b - min a b].any (fun d => decide (200 < d)) then s.linkFault n 7
      else s.markGood n seq [a - min a b, b - min a b]) := by
  obtain ⟨hll, hwl⟩ := twoLanes hn hw hm
  have hall : (s.widthLanes n).all s.mission = true := by
    rw [hwl, ← hll, List.all_eq_true]
    exact fun l hl => mission_of_handoff (hst l hl)
  have hmin : [a, b].foldl min a = min a b := by simp
  change execMarkRowReceived n seq [i, j] [a, b] s = _
  unfold execMarkRowReceived
  dsimp only
  rw [hall, hon, hwl]
  simp only [List.length_cons, List.length_nil, List.take_succ_cons, List.take_zero, List.head?_cons, Option.getD_some, hmin, List.map_cons,
    List.map_nil]
  rfl

/-! ### A row in order (R103, R117) -/

/-- STALL_SKEW of two lanes. -/
theorem skewWord_two {d : Nat} (hd : d ≤ 200) :
    (List.range [0, d].length).foldl (fun a k => setBits a (8 * k) 8 (min 255 (([0, d][k]?).getD 0))) 0 = field 8 8 d := by
  change setBits (setBits (0 : Word) 0 8 0) 8 8 (min 255 d) = field 8 8 d
  apply BitVec.eq_of_getLsbD_eq
  intro k hk
  rw [getLsbD_setBits, getLsbD_setBits, getLsbD_field, Nat.min_eq_right (by omega)]
  by_cases h8 : 8 ≤ k ∧ k < 16
  · simp [h8, hk]
  · by_cases h0 : k < 8
    · simp [h0, hk]
    · simp [h0, hk]

/-- A change of several lanes' records. -/
theorem foldl_modLane_frame (s : State) (ls : List Nat) (f : Lane → Lane) :
    { ls.foldl (fun a l => a.modLane l f) s with lanes := s.lanes } = s := by
  induction ls generalizing s with
  | nil => rfl
  | cons l ls ih => exact congrArg (fun a : State => { a with lanes := s.lanes }) (ih (s.modLane l f))

theorem tryWidth_regs (s : State) (n : Nat) : (s.tryWidth n).regs = s.regs := by
  unfold State.tryWidth
  split
  · rfl
  · dsimp only
    split
    · exact lmSend_regs ..
    · rfl

theorem tryWidth_rxSeq (s : State) (n : Nat) : ((s.tryWidth n).stall n).rxSeq = (s.stall n).rxSeq := by
  unfold State.tryWidth
  split
  · rfl
  · dsimp only
    split
    · rw [lmSend_stall_same]
    · rfl

/-- The state in which a row in order has made its lanes ACTIVE. -/
def State.markTaken (s : State) (n seq : Nat) (skew : List Nat) : State :=
  let s1 := s.wr .STALL_SKEW n ((List.range skew.length).foldl (fun a k => setBits a (8 * k) 8 (min 255 ((skew[k]?).getD 0))) 0)
  let s2 := s1.eachLane ((s1.linkLanes n).filter s1.mission) [lnHandoff] State.toActive
  ((s2.linkLanes n).foldl (fun a l => a.modLane l fun x => { x with missed := 0, markers := 0 }) s2).modStall n fun x => { x with rxSeq := seq }

section MarkTaken

variable {s : State} {n : Nat} (seq : Nat) (skew : List Nat) (hn : n < 16)
include hn

/-- The lanes once they have become ACTIVE, and what they leave. -/
theorem markTaken_after (s : State) : ∃ a : State, LanesOnly (s.linkLanes n)
      (s.wr .STALL_SKEW n ((List.range skew.length).foldl (fun a k => setBits a (8 * k) 8 (min 255 ((skew[k]?).getD 0))) 0)) a ∧
    (∀ l ∈ s.linkLanes n, s.mission l = true → a.laneSt l = if s.laneSt l = lnHandoff then lnActive else s.laneSt l) ∧
    (s.markTaken n seq skew).regs = a.regs ∧ (s.markTaken n seq skew).ctl = a.ctl ∧
    ∀ m, (s.markTaken n seq skew).stall m = if m = n then { s.stall n with rxSeq := seq } else s.stall m := by
  let p := s.wr .STALL_SKEW n ((List.range skew.length).foldl (fun a k => setBits a (8 * k) 8 (min 255 ((skew[k]?).getD 0))) 0)
  let a := p.eachLane ((p.linkLanes n).filter p.mission) [lnHandoff] State.toActive
  have hlinks : SameLinks s p := .of_regsBut (l := [(.STALL_SKEW, n)]) ((RegsBut.refl _ s).wr _ List.mem_cons_self)
    (by simp [Reg.ofLinks]; omega) rfl fun _ => rfl
  have hll : p.linkLanes n = s.linkLanes n := hlinks.linkLanes (by omega)
  have hst : ∀ l, l < 2 ^ 20 → p.laneSt l = s.laneSt l := fun l hl => get_congr (rd_wr_reg _ _ (by decide) (by omega) hl)
  have hmis : ∀ l, l < 2 ^ 20 → p.mission l = s.mission l := fun l hl => by
    unfold State.mission
    rw [hst l hl]
    rfl
  have honly : LanesOnly (s.linkLanes n) p a :=
    hll ▸ (eachLane_only fun b l => (toActive_enters b l).only).mono fun _ => List.mem_of_mem_filter
  have hframe := foldl_modLane_frame a (a.linkLanes n) fun x => { x with missed := 0, markers := 0 }
  refine ⟨a, honly, fun l hl hm => ?_, (congrArg State.regs hframe :), (congrArg State.ctl hframe :), fun m => ?_⟩
  · have hl20 := linkLanes_lt (by omega) hl
    have h := eachLane_laneSt (s := p) (from' := [lnHandoff]) toActive_enters ((linkLanes_nodup p n).filter p.mission)
      (List.mem_filter.mpr ⟨hll.symm ▸ hl, (hmis l hl20).trans hm⟩)
    simp only [List.mem_singleton, hst l hl20] at h
    exact h
  · have hkeep : ∀ k, ((a.linkLanes n).foldl (fun b l => b.modLane l fun x => { x with missed := 0, markers := 0 }) a).stall k = s.stall k :=
      fun k => (stall_congr (congrArg State.stalls hframe :) k).trans (honly.stall k)
    unfold State.markTaken
    split
    · next h =>
      rw [h, stall_modStall_same]
      exact congrArg (fun x : Stall => { x with rxSeq := seq }) (hkeep n)
    · next h => exact (stall_modStall_other _ _ h).trans (hkeep m)

end MarkTaken

theorem markGood_eq {s : State} {n seq : Nat} {skew : List Nat} (hn : n < 16) (h : (s.stall n).switch = none) :
    s.markGood n seq skew = ((s.markTaken n seq skew).evalLink n).tryWidth n := by
  obtain ⟨a, -, -, -, -, hstall⟩ := markTaken_after seq skew hn s
  have hsw : ((s.markTaken n seq skew).stall n).switch = none := by
    rw [hstall, if_pos rfl]
    exact h
  unfold State.markGood
  rw [if_pos hn]
  change ((match ((s.markTaken n seq skew).stall n).switch with
    | some (q, w, src) => _
    | none => s.markTaken n seq skew).evalLink n).tryWidth n = _
  rw [hsw]

/-- A row in order on lanes whose countdown is over brings the stall UP. -/
theorem markGood_up {s : State} {n seq : Nat} {skew : List Nat} (hn : n < 16) (hon : s.linkOn n = true) (hsw : (s.stall n).switch = none)
    (hst : ∀ l ∈ s.linkLanes n, s.laneSt l = lnHandoff ∧ (s.lane l).hand = 0) :
    (∀ l ∈ s.linkLanes n, (s.markGood n seq skew).laneSt l = lnActive) ∧ (s.markGood n seq skew).stState n = lsUp ∧
      (s.markGood n seq skew).rd .STALL_SKEW n =
        (List.range skew.length).foldl (fun a k => setBits a (8 * k) 8 (min 255 ((skew[k]?).getD 0))) 0 ∧
      ((s.markGood n seq skew).stall n).rxSeq = seq := by
  obtain ⟨a, honly, hact, hregs, hctl, hstall⟩ := markTaken_after seq skew hn s
  have hlt : ∀ l ∈ s.linkLanes n, l < 2 ^ 20 := fun l => linkLanes_lt (by omega)
  have hlane : ∀ l ∈ s.linkLanes n, (s.markTaken n seq skew).laneSt l = lnActive := fun l hl =>
    (get_congr (f := F.LANE_STATUS_STATE) (rd_congr hregs _ l)).trans
      ((hact l hl (mission_of_handoff (hst l hl))).trans (if_pos (hst l hl).1))
  have hlinks : SameLinks s (s.markTaken n seq skew) := by
    have h1 : SameLinks s a := (SameLinks.of_regsBut (l := [(.STALL_SKEW, n)]) ((RegsBut.refl _ s).wr _ List.mem_cons_self)
      (by simp [Reg.ofLinks]; omega) rfl fun _ => rfl).trans (honly.sameLinks hlt)
    refine h1.trans (.of_congr hregs hctl fun m => ?_)
    rw [hstall, honly.stall]
    split
    · next h => rw [h]; rfl
    · rfl
  have htarget : (s.markTaken n seq skew).linkTarget n = lsUp := linkTarget_all lnActive lsUp (by omega) (by decide) fun l hl =>
    hlane l (widthLanes_subset s n (hlinks.widthLanes (n := n) (by omega) ▸ hl))
  have hmoves := evalLink_moves (s.markTaken n seq skew) n
  have hr := tryWidth_regs ((s.markTaken n seq skew).evalLink n) n
  rw [markGood_eq hn hsw]
  refine ⟨fun l hl => ?_, ?_, ?_, ?_⟩
  · exact (get_congr (f := F.LANE_STATUS_STATE) (rd_congr hr _ _)).trans ((hmoves.laneSt (hlt l hl)).trans (hlane l hl))
  · refine (get_congr (f := F.STALL_LINK_STATUS_STATE) (rd_congr hr _ _)).trans ?_
    exact (evalLink_stState hn ((hlinks.linkOn n).trans hon)).trans htarget
  · refine (rd_congr hr _ _).trans ((hmoves.regs _ _ (by decide) (by decide) (by decide) (by omega)).trans ((rd_congr hregs _ _).trans ?_))
    rw [honly.rd hlt (by decide) (by omega), rd_wr_same]
  · rw [tryWidth_rxSeq, hmoves.rxSeq, hstall, if_pos rfl]

/-! ### Faults of a row (R103, R104) -/

theorem LinkSafe.fault {s t : State} (h : LinkSafe s t) (code : Nat) (data : Word) : LinkSafe s (t.fault code data) := by
  unfold State.fault
  extract_lets l
  refine LinkSafe.put ?_ F.LOG_STATUS_FAULTS_PENDING _ (.inr ⟨rfl, by decide⟩)
  exact h.trans (.of_eq rfl rfl rfl rfl)

/-- The state with a fault of stall `n` reported and its cause shown, before its lanes follow. -/
def State.faultShown (s : State) (n cause : Nat) : State :=
  (s.fault 3 (field 0 8 n ||| field 8 8 cause)).put F.STALL_LINK_STATUS_FAULT_CAUSE n cause

/-- What a faulted row does to a lane. -/
def State.faultLane (cause : Nat) (a : State) (l : Nat) : State :=
  if cause = 7 then (a.toTrain l true).put F.LANE_STATUS_LAST_FAIL l 7 else a.toFault l cause

theorem linkFault_eq (s : State) {n : Nat} (hn : n < 16) (cause : Nat) : s.linkFault n cause =
    ((s.faultShown n cause).eachLane ((s.faultShown n cause).linkLanes n) (drivenLanes.drop 1) (State.faultLane cause)).evalLink n := by
  unfold State.linkFault
  dsimp only
  rw [if_pos hn]
  rfl

section Fault

variable (s : State) {n : Nat} (cause : Nat)

theorem faultShown_regsBut : RegsBut [(.LOG_STATUS, 0), (.STALL_LINK_STATUS, n)] s (s.faultShown n cause) := by
  have h1 : RegsBut [(.LOG_STATUS, 0), (.STALL_LINK_STATUS, n)] s (s.fault 3 (field 0 8 n ||| field 8 8 cause)) :=
    (RegsBut.of_regs rfl _).trans ((RegsBut.refl _ _).put F.LOG_STATUS_FAULTS_PENDING _ List.mem_cons_self)
  exact h1.put F.STALL_LINK_STATUS_FAULT_CAUSE _ (by simp)

theorem faultLane_enters (a : State) (l : Nat) : Enters l (if cause = 7 then lnTrain else lnFault) a (State.faultLane cause a l) := by
  unfold State.faultLane
  split
  · exact (toTrain_enters a l true).put F.LANE_STATUS_LAST_FAIL 7 rfl (by decide)
  · exact toFault_enters a l cause

theorem faultLane_fail (a : State) (l : Nat) : (State.faultLane 7 a l).get F.LANE_STATUS_LAST_FAIL l = 7 := get_put_same _ _ _ _ (by decide)

variable (hn : n < 16)
include hn

theorem faultShown_rd {q : Reg} {j : Nat} (hq : q ∉ [.LOG_STATUS, .STALL_LINK_STATUS]) (hj : j < 2 ^ 20) :
    (s.faultShown n cause).rd q j = s.rd q j := by
  simp only [List.mem_cons, List.not_mem_nil, or_false, not_or] at hq
  exact (faultShown_regsBut s cause).rd_eq hj (by simp [hq.1, hq.2]; omega)

theorem faultShown_sameLinks : SameLinks s (s.faultShown n cause) where
  cfg _ := faultShown_rd s cause hn (by decide)
  width m hm := by
    have hlog : (s.fault 3 (field 0 8 n ||| field 8 8 cause)).get F.STALL_LINK_STATUS_WIDTH m = s.get F.STALL_LINK_STATUS_WIDTH m :=
      get_put_reg _ F.LOG_STATUS_FAULTS_PENDING _ _ _ _ (by decide) (by decide) hm
    refine Eq.trans ?_ hlog
    by_cases h : m = n
    · subst h
      exact get_put_beside _ F.STALL_LINK_STATUS_FAULT_CAUSE F.STALL_LINK_STATUS_WIDTH _ _ rfl (by decide)
    · exact get_put_inst _ F.STALL_LINK_STATUS_FAULT_CAUSE F.STALL_LINK_STATUS_WIDTH _ _ _ rfl h
  spare _ := faultShown_rd s cause hn (by decide)
  pair := faultShown_rd s cause hn (by decide) (by decide)
  cause := faultShown_rd s cause hn (by decide) (by decide)
  mode := rfl
  goal _ := rfl

variable {s cause} (hc : cause = 6 ∨ cause = 7) (hst : ∀ l ∈ s.linkLanes n, s.laneSt l = lnHandoff)
include hc hst

/-- The lanes once they have followed a fault. -/
theorem faultLanes_effect : ∃ a : State, s.linkFault n cause = a.evalLink n ∧ SameLinks s a ∧
    a.get F.STALL_LINK_STATUS_FAULT_CAUSE n = cause ∧
    ∀ l ∈ s.linkLanes n, a.laneSt l = (if cause = 7 then lnTrain else lnFault) ∧ (cause = 7 → a.get F.LANE_STATUS_LAST_FAIL l = 7) := by
  let p := s.faultShown n cause
  let a := p.eachLane (p.linkLanes n) (drivenLanes.drop 1) (State.faultLane cause)
  have hlinks := faultShown_sameLinks s cause hn
  have hll : p.linkLanes n = s.linkLanes n := hlinks.linkLanes (by omega)
  have hlt : ∀ l ∈ p.linkLanes n, l < 2 ^ 20 := fun l => linkLanes_lt (by omega)
  have honly : LanesOnly (p.linkLanes n) p a := eachLane_only fun b l => (faultLane_enters cause b l).only
  refine ⟨a, linkFault_eq s hn cause, hlinks.trans (honly.sameLinks hlt), ?_, fun l hl => ?_⟩
  · rw [get_congr (f := F.STALL_LINK_STATUS_FAULT_CAUSE) (honly.rd hlt (by decide) (by omega))]
    refine (get_put_same _ F.STALL_LINK_STATUS_FAULT_CAUSE _ _ (by decide)).trans ?_
    rcases hc with rfl | rfl <;> rfl
  · have hlp : l ∈ p.linkLanes n := hll.symm ▸ hl
    have hlane : p.laneSt l = lnHandoff :=
      (get_congr (f := F.LANE_STATUS_STATE) (faultShown_rd s cause hn (by decide) (hlt l hlp))).trans (hst l hl)
    obtain ⟨b, -, -, hb⟩ := eachLane_at (s := p) (from' := drivenLanes.drop 1) (fun b l => (faultLane_enters cause b l).only)
      (linkLanes_nodup p n) hlp
    rw [if_pos (by rw [hlane]; decide)] at hb
    have hstatus := hb.status (linkLanes_nodup p n).not_mem_erase
    refine ⟨(get_congr (f := F.LANE_STATUS_STATE) hstatus).trans (faultLane_enters cause b l).state, fun h7 => ?_⟩
    subst h7
    exact (get_congr (f := F.LANE_STATUS_LAST_FAIL) hstatus).trans (faultLane_fail b l)

/-- A fault leaves the stall in FAULT with its cause, and its lanes where the cause has them. -/
theorem linkFault_effect (hon : s.linkOn n = true) :
    (∀ l ∈ s.linkLanes n, (s.linkFault n cause).laneSt l = (if cause = 7 then lnTrain else lnFault) ∧
      (cause = 7 → (s.linkFault n cause).get F.LANE_STATUS_LAST_FAIL l = 7)) ∧
    (s.linkFault n cause).stState n = lsFault ∧ (s.linkFault n cause).get F.STALL_LINK_STATUS_FAULT_CAUSE n = cause := by
  obtain ⟨a, ht, hlinks, hcause, hlane⟩ := faultLanes_effect hn hc hst
  have hfirst := mem_widthLanes a (n := n) (by omega)
  have hstate : a.laneSt (2 * n) = if cause = 7 then lnTrain else lnFault :=
    (hlane _ (widthLanes_subset s n (mem_widthLanes s (by omega)))).1
  have hrest : a.laneSt (2 * n) ∉ [lnActive, lnIdle, lnDeep] := by
    rw [hstate]
    rcases hc with rfl | rfl <;> decide
  have hmoves := evalLink_moves a n
  rw [ht]
  refine ⟨fun l hl => ?_, ?_, ?_⟩
  · obtain ⟨h1, h2⟩ := hlane l hl
    have hl20 := linkLanes_lt (by omega) hl
    exact ⟨(hmoves.laneSt hl20).trans h1,
      fun h7 => (hmoves.get F.LANE_STATUS_LAST_FAIL rfl (by decide) (by decide) hl20).trans (h2 h7)⟩
  · rw [evalLink_stState hn ((hlinks.linkOn n).trans hon), linkTarget_of_training hfirst hrest, hcause,
      if_pos (by rcases hc with rfl | rfl <;> decide)]
  · obtain ⟨-, -, hkeep⟩ := evalLink_not_up_keeps hn hfirst fun e => hrest (by rw [e]; decide)
    exact hkeep.trans hcause

end Fault

end Sys2Proof.Machine

/-! SUPPORT. Missing MARK blocks, codewords, blocks and a silent camera (R92 to R98, R120, R148, R155, R182), and the statement O12. -/

namespace Sys2Proof.Machine

/-! ### Missing MARK blocks (R120, R148) -/

section Missing

variable {l : Fin 40} {s : State}

theorem markRowMissing_none (h : s.mission l = false) : exec (.markRowMissing l) s = .next s := by
  change execMarkRowMissing l s = _
  exact congrArg _ (if_pos (by simp [h]))

/-- The lane once a missing MARK has been counted. -/
def State.markMissed (s : State) (l : Nat) : State := (s.inc F.LANE_BLOCK_ERR_MARK_ERR l).modLane l fun x => { x with missed := x.missed + 1 }

theorem markMissed_lane (s : State) (l : Nat) : (s.markMissed l).lane l = { s.lane l with missed := (s.lane l).missed + 1 } := lane_modLane_same ..

theorem markMissed_laneSt (s : State) {l : Nat} (hl : l < 40) : (s.markMissed l).laneSt l = s.laneSt l :=
  get_put_reg s F.LANE_BLOCK_ERR_MARK_ERR F.LANE_STATUS_STATE _ _ _ (by decide) (by omega) (by omega)

/-- States with one set of registers and stalls have one owner for each lane, and its requests. -/
theorem owner_lm_congr {s t : State} {k : Nat} (hk : k < 40) (hc : ∀ n, n < 2 ^ 20 → t.rd .STALL_LINK_CFG n = s.rd .STALL_LINK_CFG n)
    (hs : t.stalls = s.stalls) : (t.stall (t.ownerOf k)).lm = (s.stall (s.ownerOf k)).lm := by
  rw [ownerOf_congr hk hc, stall_congr hs]

theorem markMissed_lm (s : State) {l : Nat} (hl : l < 40) :
    ((s.markMissed l).stall ((s.markMissed l).ownerOf l)).lm = (s.stall (s.ownerOf l)).lm := by
  refine owner_lm_congr hl (fun n hn => ?_) rfl
  exact (rd_congr (modLane_regs ..) _ _).trans (rd_wr_reg _ _ (by decide) (by omega) hn)

theorem markRowMissing_counts (h : s.mission l = true) : exec (.markRowMissing l) s =
    .next (if s.laneSt l = lnActive ∧ 2 ≤ (s.lane l).missed + 1 then (s.markMissed l).lockLost l else s.markMissed l) := by
  have hm : ((s.markMissed l).lane l).missed = (s.lane l).missed + 1 := by rw [markMissed_lane]
  change execMarkRowMissing l s = _
  rw [← hm, ← markMissed_laneSt s l.isLt]
  exact congrArg _ (if_neg (by simp [h]))

/-- The first in a row is counted. -/
theorem markRowMissing_first (h : s.mission l = true) (h0 : s.laneSt l = lnActive → (s.lane l).missed = 0) :
    ∃ t, exec (.markRowMissing l) s = .next t ∧
      t.get F.LANE_BLOCK_ERR_MARK_ERR l = min (s.get F.LANE_BLOCK_ERR_MARK_ERR l + 1) 65535 ∧
      (t.lane l).missed = (s.lane l).missed + 1 ∧ RegsBut [(.LANE_BLOCK_ERR, l.val)] s t ∧ { t with regs := s.regs, lanes := s.lanes } = s := by
  have hexec := markRowMissing_counts h
  rw [if_neg fun e => by have := h0 e.1; omega] at hexec
  refine ⟨_, hexec, get_inc_same s F.LANE_BLOCK_ERR_MARK_ERR l (by decide), by rw [markMissed_lane], ?_, rfl⟩
  exact ((RegsBut.refl _ s).inc F.LANE_BLOCK_ERR_MARK_ERR List.mem_cons_self).trans (.of_regs (modLane_regs ..) _)

/-- The second in a row in ACTIVE loses lock. -/
theorem markRowMissing_second (h : s.laneSt l = lnActive) (h1 : 1 ≤ (s.lane l).missed) (hlm : (s.stall (s.ownerOf l)).lm = none) :
    ∃ t, exec (.markRowMissing l) s = .next t ∧ t.laneSt l = lnTrain ∧ t.get F.LANE_STATUS_LAST_FAIL l = 5 := by
  have hm : s.mission l = true := by
    unfold State.mission
    rw [h]
    rfl
  have hexec := markRowMissing_counts hm
  rw [if_pos ⟨h, by omega⟩] at hexec
  exact ⟨_, hexec, lockLost_effect l.isLt ((markMissed_lm s l.isLt).trans hlm)⟩

end Missing

/-! ### Codewords (R97, R98, R148) -/

section Codewords

variable {l : Fin 40} {e : Nat} {s : State}

theorem codewordDecode_none (h : s.fecOn (s.ownerOf l) = false ∨ s.mission l = false) : exec (.codewordDecode l e) s = .next s := by
  change execCodewordDecode l e s = _
  exact congrArg _ (if_pos (by rcases h with h | h <;> simp [h]))

/-- The lane once an uncorrectable codeword has been counted. -/
def State.codewordLost (s : State) (l : Nat) : State :=
  (s.inc F.LANE_FEC_CW_UNCORR_COUNT l).modLane l fun x => { x with uncorr := x.uncorr + 1, badBlocks := 20 }

theorem codewordLost_uncorr (s : State) (l : Nat) : ((s.codewordLost l).lane l).uncorr = (s.lane l).uncorr + 1 := by
  rw [State.codewordLost, lane_modLane_same]
  rfl

theorem codewordLost_laneSt (s : State) {l : Nat} (hl : l < 40) : (s.codewordLost l).laneSt l = s.laneSt l :=
  get_put_reg s F.LANE_FEC_CW_UNCORR_COUNT F.LANE_STATUS_STATE _ _ _ (by decide) (by omega) (by omega)

theorem codewordLost_lm (s : State) {l : Nat} (hl : l < 40) :
    ((s.codewordLost l).stall ((s.codewordLost l).ownerOf l)).lm = (s.stall (s.ownerOf l)).lm := by
  refine owner_lm_congr hl (fun n hn => ?_) rfl
  exact (rd_congr (modLane_regs ..) _ _).trans (rd_wr_reg _ _ (by decide) (by omega) hn)

variable (hf : s.fecOn (s.ownerOf l) = true) (hm : s.mission l = true)
include hf hm

/-- A codeword that is corrected. -/
theorem codewordDecode_corrects (h1 : 1 ≤ e) (h15 : e ≤ 15) : ∃ t, exec (.codewordDecode l e) s = .next t ∧
    t.get F.LANE_FEC_CW_CORR_COUNT l = min (s.get F.LANE_FEC_CW_CORR_COUNT l + 1) (2 ^ 64 - 1) ∧
    t.get F.LANE_FEC_SYM_CORR_COUNT l = min (s.get F.LANE_FEC_SYM_CORR_COUNT l + e) (2 ^ 64 - 1) ∧ (t.lane l).uncorr = 0 ∧
    RegsBut [(.LANE_FEC_CW_CORR, l.val), (.LANE_FEC_SYM_CORR, l.val)] s t ∧ { t with regs := s.regs, lanes := s.lanes } = s := by
  let a := s.inc F.LANE_FEC_CW_CORR_COUNT l
  have hexec : exec (.codewordDecode l e) s = .next ((a.addSat F.LANE_FEC_SYM_CORR_COUNT l e).modLane l fun x => { x with uncorr := 0 }) := by
    change execCodewordDecode l e s = _
    exact congrArg _ ((if_neg (by simp [hf, hm])).trans ((if_neg (by omega)).trans (if_pos h15)))
  have hsym : a.get F.LANE_FEC_SYM_CORR_COUNT l = s.get F.LANE_FEC_SYM_CORR_COUNT l :=
    get_put_reg s F.LANE_FEC_CW_CORR_COUNT F.LANE_FEC_SYM_CORR_COUNT _ _ _ (by decide) (by omega) (by omega)
  refine ⟨_, hexec, ?_, ?_, by rw [lane_modLane_same], ?_, rfl⟩
  · refine (get_congr (f := F.LANE_FEC_CW_CORR_COUNT) (rd_congr (modLane_regs ..) _ _)).trans ?_
    exact (get_put_reg a F.LANE_FEC_SYM_CORR_COUNT F.LANE_FEC_CW_CORR_COUNT _ _ _ (by decide) (by omega) (by omega)).trans
      (get_inc_same s F.LANE_FEC_CW_CORR_COUNT l (by decide))
  · refine (get_congr (f := F.LANE_FEC_SYM_CORR_COUNT) (rd_congr (modLane_regs ..) _ _)).trans ?_
    rw [get_addSat_same a F.LANE_FEC_SYM_CORR_COUNT l e (by decide), hsym]
  · exact (((RegsBut.refl _ s).inc F.LANE_FEC_CW_CORR_COUNT List.mem_cons_self).put F.LANE_FEC_SYM_CORR_COUNT _ (by simp)).trans
      (.of_regs (modLane_regs ..) _)

/-- A codeword above the code's reach. -/
theorem codewordDecode_loses (h16 : 16 ≤ e) : exec (.codewordDecode l e) s =
    .next (if s.laneSt l = lnActive ∧ 8 ≤ (s.lane l).uncorr + 1 then (s.codewordLost l).lockLost l else s.codewordLost l) := by
  change execCodewordDecode l e s = _
  rw [← codewordLost_uncorr, ← codewordLost_laneSt s l.isLt]
  exact congrArg _ ((if_neg (by simp [hf, hm])).trans ((if_neg (by omega)).trans (if_neg (by omega))))

/-- Fewer than eight in a row are counted. -/
theorem codewordDecode_counts (h16 : 16 ≤ e) (h7 : (s.lane l).uncorr < 7) : ∃ t, exec (.codewordDecode l e) s = .next t ∧
    t.get F.LANE_FEC_CW_UNCORR_COUNT l = min (s.get F.LANE_FEC_CW_UNCORR_COUNT l + 1) (2 ^ 64 - 1) ∧
    (t.lane l).uncorr = (s.lane l).uncorr + 1 ∧ t.laneSt l = s.laneSt l := by
  have hexec := codewordDecode_loses hf hm h16
  rw [if_neg (by omega)] at hexec
  exact ⟨_, hexec, get_inc_same s F.LANE_FEC_CW_UNCORR_COUNT l (by decide), codewordLost_uncorr s l, codewordLost_laneSt s l.isLt⟩

/-- The eighth in a row in ACTIVE loses lock. -/
theorem codewordDecode_eighth (h16 : 16 ≤ e) (hst : s.laneSt l = lnActive) (h7 : 7 ≤ (s.lane l).uncorr)
    (hlm : (s.stall (s.ownerOf l)).lm = none) :
    ∃ t, exec (.codewordDecode l e) s = .next t ∧ t.laneSt l = lnTrain ∧ t.get F.LANE_STATUS_LAST_FAIL l = 5 := by
  have hexec := codewordDecode_loses hf hm h16
  rw [if_pos ⟨hst, by omega⟩] at hexec
  exact ⟨_, hexec, lockLost_effect l.isLt ((codewordLost_lm s l.isLt).trans hlm)⟩

end Codewords

/-! ### Blocks (R92 to R96, R150, R155) -/

/-- From `s` to `t` only stall `n`'s packet errors have counted, and stalls' records changed. -/
def PacketStep (n : Nat) (s t : State) : Prop := RegsBut [(.STALL_PKT_ERR, n)] s t ∧ { t with regs := s.regs, stalls := s.stalls } = s

section PacketSteps

variable {n : Nat} {s t u : State}

theorem PacketStep.refl (n : Nat) (s : State) : PacketStep n s s := ⟨.refl _ s, rfl⟩

theorem PacketStep.trans (h : PacketStep n s t) (k : PacketStep n t u) : PacketStep n s u :=
  ⟨h.1.trans k.1, (congrArg (fun a : State => { a with regs := s.regs, stalls := s.stalls }) k.2 :).trans h.2⟩

theorem PacketStep.ite {a b : State} {p : Prop} [Decidable p] (ha : PacketStep n s a) (hb : PacketStep n s b) :
    PacketStep n s (if p then a else b) := by
  split <;> assumption

theorem PacketStep.modStall (h : PacketStep n s t) (m : Nat) (f : Stall → Stall) : PacketStep n s (t.modStall m f) :=
  h.trans ⟨.of_regs (modStall_regs ..) _, rfl⟩

theorem PacketStep.inc (h : PacketStep n s t) (f : Fld) (hf : f.r = .STALL_PKT_ERR) : PacketStep n s (t.inc f n) :=
  h.trans ⟨(RegsBut.refl _ t).inc f (by simp [hf]), rfl⟩

theorem packetEnds_step (n : Nat) (s : State) : PacketStep n s (s.packetEnds n) := by
  have h := (PacketStep.refl n s).modStall n fun y => { y with need := 0, rxBytes := [], rxErr := false }
  unfold State.packetEnds
  dsimp only
  exact .ite h (.ite (h.inc _ rfl) (.ite (h.inc _ rfl) (h.inc _ rfl)))

theorem loseAlign_step (n : Nat) (s : State) : PacketStep n s (s.loseAlign n) := ((PacketStep.refl n s).modStall n _).inc _ rfl

theorem dataBlock_step (n : Nat) (s : State) (body : List Byte) (bad : Bool) : PacketStep n s (s.dataBlock n body bad) := by
  have h (f : Stall → Stall) := (PacketStep.refl n s).modStall n f
  unfold State.dataBlock
  dsimp only
  exact .ite (.refl n s) (.ite (.ite (loseAlign_step n s) (.ite ((h _).trans (packetEnds_step n _)) (h _)))
    (.ite ((h _).trans (packetEnds_step n _)) (h _)))

theorem fillBlock_step (n : Nat) (s : State) : PacketStep n s (s.fillBlock n) := by
  unfold State.fillBlock
  dsimp only
  exact .ite ((PacketStep.refl n s).modStall n _) (.ite (.refl n s) ((loseAlign_step n s).modStall n _))

/-- What a block leaves of its lane. -/
theorem PacketStep.keeps (h : PacketStep n s t) (hn : n ≤ 20) {l : Nat} (hl : l < 40) :
    t.get F.LANE_BLOCK_ERR_CTRL_TYPE_ERR l = s.get F.LANE_BLOCK_ERR_CTRL_TYPE_ERR l ∧ t.laneSt l = s.laneSt l ∧ t.fen = s.fen ∧
      t.sent = s.sent :=
  ⟨h.1.get_eq F.LANE_BLOCK_ERR_CTRL_TYPE_ERR (by omega) (by simp; omega), h.1.get_eq F.LANE_STATUS_STATE (by omega) (by simp; omega),
    (congrArg State.fen h.2 :), (congrArg State.sent h.2 :)⟩

end PacketSteps

/-- A block counts one control type error at most, and none as DATA or after an uncorrectable codeword; the rest of it goes to its
stall's packets. -/
theorem blockReceive_counts (l : Fin 40) (h : Bool) (b : List Byte) (s : State) :
    ∃ a t, exec (.blockReceive l h b) s = .next t ∧ PacketStep (s.ownerOf l) a t ∧
      a.laneSt l = s.laneSt l ∧ a.fen = s.fen ∧ a.sent = s.sent ∧
      (a.get F.LANE_BLOCK_ERR_CTRL_TYPE_ERR l = s.get F.LANE_BLOCK_ERR_CTRL_TYPE_ERR l ∨
        a.get F.LANE_BLOCK_ERR_CTRL_TYPE_ERR l = min (s.get F.LANE_BLOCK_ERR_CTRL_TYPE_ERR l + 1) 65535 ∧ h = false ∧
          (s.lane l).badBlocks = 0) := by
  change ∃ a t, execBlockReceive l h b s = .next t ∧ _
  unfold execBlockReceive
  extract_lets n x d plain s1 errored type odd s2
  by_cases hr : (!s.linkOn n || !(liveLanes.contains (s.laneSt l) || s.laneSt l == lnHandoff)) = true
  · exact ⟨s, s, congrArg _ (if_pos hr), .refl _ s, rfl, rfl, rfl, .inl rfl⟩
  · refine ⟨s2, _, congrArg _ (if_neg hr), ?_, ?_⟩
    · exact .ite (.refl _ _) (.ite (dataBlock_step ..) (.ite (dataBlock_step ..) (.ite (fillBlock_step ..) (.refl _ _))))
    · by_cases ho : odd = true
      · have hs2 : s2 = s1.inc F.LANE_BLOCK_ERR_CTRL_TYPE_ERR l := if_pos ho
        have hodd : h = false ∧ x.badBlocks = 0 := by
          unfold odd errored at ho
          simp only [Bool.and_eq_true, Bool.not_eq_true', bne_eq_false_iff_eq] at ho
          exact ⟨ho.1.1.1, ho.1.1.2⟩
        rw [hs2]
        refine ⟨get_put_reg s1 F.LANE_BLOCK_ERR_CTRL_TYPE_ERR F.LANE_STATUS_STATE _ _ _ (by decide) (by omega) (by omega), rfl, rfl,
          .inr ⟨?_, hodd⟩⟩
        exact get_inc_same s1 F.LANE_BLOCK_ERR_CTRL_TYPE_ERR l (by decide)
      · have hs2 : s2 = s1 := if_neg ho
        rw [hs2]
        exact ⟨rfl, rfl, rfl, .inl rfl⟩

theorem blockReceive_effect (l : Fin 40) (h : Bool) (b : List Byte) (s : State) : ∃ t, exec (.blockReceive l h b) s = .next t ∧
    (t.get F.LANE_BLOCK_ERR_CTRL_TYPE_ERR l ≤ s.get F.LANE_BLOCK_ERR_CTRL_TYPE_ERR l + 1) ∧
    (h = true ∨ (s.lane l).badBlocks ≠ 0 → t.get F.LANE_BLOCK_ERR_CTRL_TYPE_ERR l = s.get F.LANE_BLOCK_ERR_CTRL_TYPE_ERR l) ∧
    t.laneSt l = s.laneSt l ∧ t.fen = s.fen ∧ t.sent = s.sent := by
  obtain ⟨a, t, hexec, hstep, hst, hfen, hsent, hcount⟩ := blockReceive_counts l h b s
  obtain ⟨k1, k2, k3, k4⟩ := hstep.keeps (ownerOf_le s l) l.isLt
  refine ⟨t, hexec, ?_, fun hno => ?_, k2.trans hst, k3.trans hfen, k4.trans hsent⟩
  · rw [k1]
    rcases hcount with hc | ⟨hc, -⟩
    · omega
    · rw [hc]
      exact Nat.min_le_left _ _
  · rw [k1]
    rcases hcount with hc | ⟨-, hh, hb⟩
    · exact hc
    · rcases hno with hno | hno
      · rw [hh] at hno
        cases hno
      · exact absurd hb hno

end Sys2Proof.Machine

/-! SUPPORT. A silent camera (R182), the wait of R122, and the statement O12. -/

namespace Sys2Proof.Machine

/-! ### The wait in QUIET (R122) -/

theorem quietReadyTimeout_ends (n : Fin 16) {s : State} (hon : s.linkOn n = true) (hw : (s.stall n).waited = false) :
    ∃ t, exec (.quietReadyTimeout n) s = .next t ∧ (t.stall n).waited = true ∧
      t.now = max s.now ((s.stall n).wakeAt + 8000000) ∧ { t with stalls := s.stalls, tb := s.tb } = s := by
  have hexec : exec (.quietReadyTimeout n) s =
      .next ((s.reach ((s.stall n).wakeAt + 8000000)).modStall n fun x => { x with waited := true }) := by
    change execQuietReadyTimeout n s = _
    exact congrArg _ (if_neg (by simp [hon, hw]))
  generalize (s.stall n).wakeAt + 8000000 = due at hexec
  exact ⟨_, hexec, by rw [stall_modStall_same], rfl, rfl⟩

/-! ### A silent camera (R182) -/

/-- The state in which a camera is shown lost. -/
def State.cameraShown (s : State) (n due : Nat) : State :=
  ((s.reach due).put F.STALL_PROTO_STATUS_CAM_STATE n 2).put F.STALL_PROTO_STATUS_CAM_LOST_SEEN n 1

/-- The state in which its open frame has closed and its control requests have ended. -/
def State.cameraGone (s : State) (n due : Nat) : State :=
  (((s.cameraShown n due).fault 4 (field 0 8 n)).closeFrame n true).ctlAbort n crLinkLost

/-- The state in which RETRAIN has gone out. -/
def State.retrainSent (s : State) (n : Nat) : State :=
  (s.modStall n fun x => { x with nextMsg := ((s.stall n).nextMsg + 1) % 256, hbRx := none }).emit
    (.linkMsg n (lmMsg opRetrain (s.stall n).nextMsg 0 0 0))

/-- The state in which the ACTIVE lanes of the width train. -/
def State.widthTrains (s : State) (n : Nat) : State :=
  (s.eachLane (s.widthLanes n) [lnActive] fun a l => a.toTrain l true).countRetrain n

section CameraShown

variable (s : State) {n : Nat} (due : Nat)

theorem cameraShown_regsBut : RegsBut [(.STALL_PROTO_STATUS, n)] s (s.cameraShown n due) :=
  ((RegsBut.of_regs (reach_regs s due) _).put F.STALL_PROTO_STATUS_CAM_STATE _ List.mem_cons_self).put F.STALL_PROTO_STATUS_CAM_LOST_SEEN _
    List.mem_cons_self

theorem cameraShown_seen : (s.cameraShown n due).get F.STALL_PROTO_STATUS_CAM_STATE n = 2 ∧
    (s.cameraShown n due).get F.STALL_PROTO_STATUS_CAM_LOST_SEEN n = 1 := by
  constructor
  · refine (get_put_beside _ F.STALL_PROTO_STATUS_CAM_LOST_SEEN F.STALL_PROTO_STATUS_CAM_STATE _ _ rfl (by decide)).trans ?_
    exact get_put_same _ _ _ _ (by decide)
  · exact get_put_same _ _ _ _ (by decide)

variable (hn : n < 16)
include hn

theorem cameraGone_safe : LinkSafe (s.cameraShown n due) (s.cameraGone n due) :=
  (((LinkSafe.refl _).fault 4 _).closeFrame hn true).ctlAbort n crLinkLost

theorem cameraGone_rd {q : Reg} {j : Nat} (hq : q.ofLanes = true) (hj : j < 2 ^ 20) : (s.cameraGone n due).rd q j = s.rd q j :=
  ((cameraGone_safe s due hn).regs q j hq hj).trans ((cameraShown_regsBut s due).rd_eq hj (by
    have hne : q ≠ .STALL_PROTO_STATUS := fun e => by
      rw [e] at hq
      cases hq
    simp [hne]
    omega))

theorem cameraGone_link : ((s.cameraGone n due).stall n).link = (s.stall n).link := (cameraGone_safe s due hn).stalls n

theorem cameraGone_widthLanes : (s.cameraGone n due).widthLanes n = s.widthLanes n := by
  have hcfg := cameraGone_rd s due hn (q := .STALL_LINK_CFG) (j := n) rfl (by omega)
  have hstatus := cameraGone_rd s due hn (q := .STALL_LINK_STATUS) (j := n) rfl (by omega)
  unfold State.widthLanes State.linkLanes State.widthCode State.maxCode State.get
  rw [hcfg, hstatus]

theorem cameraGone_laneSt {l : Nat} (hl : l < 2 ^ 20) : (s.cameraGone n due).laneSt l = s.laneSt l :=
  get_congr (f := F.LANE_STATUS_STATE) (cameraGone_rd s due hn rfl hl)

end CameraShown

theorem retrainSent_stall (s : State) (n : Nat) :
    (s.retrainSent n).stall n = { s.stall n with nextMsg := ((s.stall n).nextMsg + 1) % 256, hbRx := none } :=
  (stall_congr (emit_stalls _ _) n).trans (stall_modStall_same ..)

section WidthTrains

variable (s : State) {n : Nat} (hn : n < 16)
include hn

omit hn in
theorem widthTrains_only : LanesOnly (s.widthLanes n) s (s.eachLane (s.widthLanes n) [lnActive] fun a l => a.toTrain l true) :=
  eachLane_only fun a l => (toTrain_enters a l true).only

theorem widthTrains_laneSt {l : Nat} (hl : l ∈ s.widthLanes n) :
    (s.widthTrains n).laneSt l = if s.laneSt l = lnActive then lnTrain else s.laneSt l := by
  have h := eachLane_laneSt (s := s) (from' := [lnActive]) (fun a l => toTrain_enters a l true)
    ((linkLanes_nodup s n).sublist (List.take_sublist _ _)) hl
  simp only [List.mem_singleton] at h
  exact (countRetrain_laneSt _ (by omega) (linkLanes_lt (by omega) (widthLanes_subset s n hl))).trans h

/-- A register beside LANE_STATUS and the counters. -/
theorem widthTrains_rd {q : Reg} {j : Nat} (hq : q ∉ [.LANE_STATUS, .STALL_LINK_COUNT]) (hj : j < 2 ^ 20) :
    (s.widthTrains n).rd q j = s.rd q j := by
  simp only [List.mem_cons, List.not_mem_nil, or_false, not_or] at hq
  refine ((countRetrain_regsBut _ n).rd_eq hj (by simp [hq.2]; omega)).trans ?_
  exact (widthTrains_only s).rd (fun l hl => linkLanes_lt (by omega) (widthLanes_subset s n hl)) hq.1 hj

omit hn in
theorem widthTrains_sent : (s.widthTrains n).sent = s.sent := (countRetrain_sent _ n).trans (widthTrains_only s).sent

omit hn in
theorem widthTrains_stall (m : Nat) : (s.widthTrains n).stall m = s.stall m :=
  (stall_congr (countRetrain_stalls _ n) m).trans ((widthTrains_only s).stall m)

/-- No lane of the width is left ACTIVE. -/
theorem widthTrains_keeps : (((s.widthTrains n).evalLink n).stall n).link = (s.stall n).link := by
  have hsame : SameLinks s (s.widthTrains n) :=
    ((widthTrains_only s).sameLinks fun l hl => linkLanes_lt (by omega) (widthLanes_subset s n hl)).trans (countRetrain_sameLinks _ (by omega))
  have hfirst := mem_widthLanes s (n := n) (by omega)
  obtain ⟨-, hlink, -⟩ := evalLink_not_up_keeps (s := s.widthTrains n) hn (hsame.widthLanes (n := n) (by omega) ▸ hfirst) (by
    rw [widthTrains_laneSt s hn hfirst]
    split
    · decide
    · assumption)
  exact hlink.trans (congrArg Stall.link (widthTrains_stall s n))

end WidthTrains

section CameraLost

variable {n : Fin 16} {s : State}

/-- CAMERA_LOST of a stall under supervision. -/
theorem cameraLost_eq {x : Nat} (hx : (s.stall n).hbRx = some x) (hon : s.linkOn n = true) (hup : s.stUp n = true)
    (hq : (s.stall n).quietPeer = false) (hlm : (s.stall n).lm = none) :
    exec (.cameraLost n) s = .next ((((s.cameraGone n (x + 40000)).retrainSent n).widthTrains n).evalLink n) := by
  have hlm' : ((s.cameraGone n (x + 40000)).stall n).lm = none := (congrArg LinkPart.lm (cameraGone_link s _ n.isLt) :).trans hlm
  have hcancel := lmCancel_none hlm'
  change execCameraLost n s = _
  unfold execCameraLost
  rw [hx]
  dsimp only
  generalize x + 40000 = due at hcancel ⊢
  refine congrArg _ ((if_neg (by simp [hon, hup, hq])).trans ?_)
  change ((((s.cameraGone n due).lmCancel n).retrainSent n).widthTrains n).evalLink n = _
  rw [hcancel]

/-- A camera that has fallen silent is shown lost, asked to retrain, and its lanes train. -/
theorem cameraLost_effect {x : Nat} (hx : (s.stall n).hbRx = some x) (hon : s.linkOn n = true) (hup : s.stUp n = true)
    (hq : (s.stall n).quietPeer = false) (hlm : (s.stall n).lm = none) :
    ∃ t, exec (.cameraLost n) s = .next t ∧ t.get F.STALL_PROTO_STATUS_CAM_STATE n = 2 ∧
      t.get F.STALL_PROTO_STATUS_CAM_LOST_SEEN n = 1 ∧ (t.stall n).hbRx = none ∧
      .linkMsg n (lmMsg 1 (s.stall n).nextMsg 0 0 0) ∈ t.sent ∧ ∀ l ∈ s.widthLanes n, s.laneSt l = lnActive → t.laneSt l = lnTrain := by
  have hexec := cameraLost_eq hx hon hup hq hlm
  generalize x + 40000 = due at hexec
  have hsafe := cameraGone_safe s due n.isLt
  obtain ⟨hstate, hseen⟩ := cameraShown_seen s (n := n) due
  let r := (s.cameraGone n due).retrainSent n
  have hmoves := evalLink_moves (r.widthTrains n) n
  have hwl : r.widthLanes n = s.widthLanes n := cameraGone_widthLanes s due n.isLt
  have hproto (lo w : Nat) (h : lo + w ≤ 2 ∨ 3 ≤ lo) : bits (((r.widthTrains n).evalLink n).rd .STALL_PROTO_STATUS n) lo w =
      bits ((s.cameraShown n due).rd .STALL_PROTO_STATUS n) lo w := by
    rw [hmoves.camera n lo w (by omega) h, widthTrains_rd r n.isLt (by decide) (by omega)]
    exact hsafe.camera n lo w (by omega) h
  have hid : ((s.cameraGone n due).stall n).nextMsg = (s.stall n).nextMsg := congrArg LinkPart.nextMsg (cameraGone_link s due n.isLt)
  refine ⟨_, hexec, (hproto 0 2 (by decide)).trans hstate, (hproto 8 1 (by decide)).trans hseen, ?_, ?_, fun l hl ha => ?_⟩
  · have hlink := widthTrains_keeps r n.isLt
    rw [retrainSent_stall] at hlink
    exact congrArg LinkPart.hbRx hlink
  · refine hmoves.sent.subset ?_
    rw [widthTrains_sent r]
    change _ ∈ (s.cameraGone n due).sent ++ [.linkMsg n (lmMsg opRetrain ((s.cameraGone n due).stall n).nextMsg 0 0 0)]
    rw [hid]
    exact List.mem_append_right _ List.mem_cons_self
  · have hl20 : l < 2 ^ 20 := linkLanes_lt (by omega) (widthLanes_subset s n hl)
    rw [hmoves.laneSt hl20, widthTrains_laneSt r n.isLt (hwl.symm ▸ hl), if_pos]
    exact (cameraGone_laneSt s due n.isLt hl20).trans ha

/-- A stall that is not supervised loses no camera. -/
theorem cameraLost_none (h : (s.stall n).hbRx = none ∨ s.stUp n = false ∨ (s.stall n).quietPeer = true) :
    exec (.cameraLost n) s = .next s := by
  change execCameraLost n s = _
  unfold execCameraLost
  cases hx : (s.stall n).hbRx with
  | none => rfl
  | some x =>
    dsimp only
    refine congrArg _ (if_pos ?_)
    rcases h with h | h | h
    · rw [hx] at h
      cases h
    · simp [h]
    · simp [h]

end CameraLost

/-! ### The statement O12 -/

/-- A row on two lanes whose countdown is over, by its order and its skew. -/
theorem markRowReceived_settles (n : Fin 16) (seq : Fin 65536) (a b : Nat) {s : State} (hon : s.linkOn n = true) (hw : s.widthCode n = 1)
    (hm : s.maxCode n = 1) (hst : ∀ l ∈ s.linkLanes n, s.laneSt l = lnHandoff ∧ (s.lane l).hand = 0) :
    (a ≤ b → b ≤ a + 200 → exec (.markRowReceived (n.castLE (by decide)) seq [0, 1] [a, b]) s = .next (s.markGood n seq [0, b - a])) ∧
    (a + 200 < b → exec (.markRowReceived (n.castLE (by decide)) seq [0, 1] [a, b]) s = .next (s.linkFault n 7)) ∧
    exec (.markRowReceived (n.castLE (by decide)) seq [1, 0] [a, b]) s = .next (s.linkFault n 6) := by
  have hrow (i j : Fin 8) := markRowReceived_two (n := n.castLE (by decide)) n.isLt seq i j a b hon hw hm hst
  refine ⟨fun hab hb => (hrow 0 1).trans (congrArg _ ((if_neg (by decide)).trans ?_)),
    fun hb => (hrow 0 1).trans (congrArg _ ((if_neg (by decide)).trans (if_pos ?_))), (hrow 1 0).trans (congrArg _ (if_pos (by decide)))⟩
  · rw [Nat.min_eq_left hab, Nat.sub_self]
    refine if_neg ?_
    simp only [List.any_cons, List.any_nil, Bool.or_false, Bool.or_eq_true, decide_eq_true_eq]
    omega
  · rw [Nat.min_eq_left (by omega), Nat.sub_self]
    simp only [List.any_cons, List.any_nil, Bool.or_false, Bool.or_eq_true, decide_eq_true_eq]
    omega

/-- Settles O12 (R92 to R98, R101 to R106, R122, R155, R182): rows sent and received, missing MARK blocks, codewords, blocks, the wait of
QUIET and a silent camera. -/
theorem rowsCodewordsAndBlocksAreReceived : Obligations.RowsCodewordsAndBlocksAreReceived := by
  refine ⟨fun n s hon hany => ?_, fun n s h => rowTransmit_none h, fun n seq a b s hon hw hm hst => ?_,
    fun l s => ⟨markRowMissing_none, markRowMissing_first, markRowMissing_second⟩,
    fun l e s hf hm => ⟨codewordDecode_corrects hf hm, codewordDecode_counts hf hm, codewordDecode_eighth hf hm⟩,
    fun l e s h => codewordDecode_none h, blockReceive_effect, fun n s hon hw => quietReadyTimeout_ends n hon hw,
    fun n x s hx hon hup hq hlm => cameraLost_effect hx hon hup hq hlm, fun n s h => cameraLost_none h⟩
  · have hrow : (s.linkOn n && (s.widthLanes n).any s.mission) = true := by rw [hon, hany]; rfl
    exact ⟨markRowTransmit_effect hrow, fillRowTransmit_effect hrow⟩
  · obtain ⟨hgood, hskew, horder⟩ := markRowReceived_settles n seq a b hon hw hm hst
    have hhand : ∀ l ∈ s.linkLanes n, s.laneSt l = lnHandoff := fun l hl => (hst l hl).1
    refine ⟨fun hab hb hsw => ?_, fun hb => ?_, ?_⟩
    · obtain ⟨hact, hup, hshown, hseq⟩ := markGood_up (seq := seq) (skew := [0, b - a]) n.isLt hon hsw hst
      exact ⟨_, hgood hab hb, hact, hup, hshown.trans (skewWord_two (by omega)), hseq⟩
    · obtain ⟨hlane, hstate, hcause⟩ := linkFault_effect n.isLt (.inr rfl) hhand hon
      exact ⟨_, hskew hb, fun l hl => ⟨(hlane l hl).1, (hlane l hl).2 rfl⟩, hstate, hcause⟩
    · obtain ⟨hlane, hstate, hcause⟩ := linkFault_effect n.isLt (.inl rfl) hhand hon
      exact ⟨_, horder, fun l hl => (hlane l hl).1, hstate, hcause⟩

end Sys2Proof.Machine

/-! SUPPORT. The steps of which the frame path is made, away from the stalls: what is written to the registers of other blocks, events
raised, and stores. Every operation of the fen, the troughs, the pools, the bays, the route units and the herds is a chain of such steps, so
whatever each step keeps, every operation keeps. -/

namespace Sys2Proof

/-- A register of the stalls' tables, lanes and parallel ports included: STALL_LINK_CFG to PPORT_DESKEW stand together. -/
def Reg.ofStalls (r : Reg) : Bool := decide (130 ≤ r.ctorIdx) && decide (r.ctorIdx < 166)

/-- A register that stands after those of the stalls. -/
def Reg.pastStalls (r : Reg) : Bool := decide (166 ≤ r.ctorIdx)

namespace Machine

/-- Register `r`, number `i`, lies outside the stalls' tables, wherever its number leads. -/
def OffStalls (r : Reg) (i : Nat) : Prop := r.pastStalls = true ∨ r.foreLanes = true ∧ i < 2 ^ 20

/-- `t` comes from `s` by steps that touch no stall and no time: registers outside the stalls' tables written, events raised, and changes
of what is neither register, stall, yard nor time base. -/
inductive Flows : State → State → Prop
  | refl (s : State) : Flows s s
  | wr {s t : State} (h : Flows s t) {r : Reg} {i : Nat} (v : Word) (hr : OffStalls r i) : Flows s (t.wr r i v)
  | raise {s t : State} (h : Flows s t) (e : YEvent) : Flows s { t with yard := { t.yard with raised := t.yard.raised ++ [e] } }
  | store {s t u : State} (h : Flows s t) (hr : u.regs = t.regs) (hs : u.stalls = t.stalls) (hy : u.yard = t.yard) (ht : u.tb = t.tb) : Flows s u

theorem regKey_ne_of_offStalls {r q : Reg} {i j : Nat} (h : OffStalls r i) (hq : q.ofStalls = true) (hj : j < 2 ^ 20) :
    regKey q j ≠ regKey r i := by
  simp only [Reg.ofStalls, Bool.and_eq_true, decide_eq_true_eq] at hq
  simp only [OffStalls, Reg.pastStalls, Reg.foreLanes, decide_eq_true_eq] at h
  unfold regKey
  omega

namespace Flows

variable {s t u : State}

theorem trans (h : Flows s t) (k : Flows t u) : Flows s u := by
  induction k with
  | refl => exact h
  | wr _ v hr ih => exact ih.wr v hr
  | raise _ e ih => exact ih.raise e
  | store _ hr hs hy ht ih => exact ih.store hr hs hy ht

theorem rd (h : Flows s t) {r : Reg} {i : Nat} (hr : r.ofStalls = true) (hi : i < 2 ^ 20) : t.rd r i = s.rd r i := by
  induction h with
  | refl => rfl
  | wr _ v hw ih => exact (rd_wr_key _ _ _ _ _ _ (regKey_ne_of_offStalls hw hr hi)).trans ih
  | raise _ e ih => exact ih
  | store _ hregs _ _ _ ih => exact (rd_congr hregs r i).trans ih

theorem get (h : Flows s t) (f : Fld) {i : Nat} (hr : f.r.ofStalls = true) (hi : i < 2 ^ 20) : t.get f i = s.get f i :=
  get_congr (h.rd hr hi)

theorem stalls (h : Flows s t) : t.stalls = s.stalls := by
  induction h with
  | refl => rfl
  | wr _ _ _ ih => exact ih
  | raise _ _ ih => exact ih
  | store _ _ hs _ _ ih => exact hs.trans ih

theorem stall (h : Flows s t) (n : Nat) : t.stall n = s.stall n := stall_congr h.stalls n

theorem tb (h : Flows s t) : t.tb = s.tb := by
  induction h with
  | refl => rfl
  | wr _ _ _ ih => exact ih
  | raise _ _ ih => exact ih
  | store _ _ _ _ ht ih => exact ht.trans ih

theorem raised (h : Flows s t) : s.yard.raised <+: t.yard.raised := by
  induction h with
  | refl => exact List.prefix_rfl
  | wr _ _ _ ih => exact ih
  | raise _ _ ih => exact ih.trans (List.prefix_append _ _)
  | store _ _ _ hy _ ih => exact hy ▸ ih

theorem ite {a b : State} {p : Prop} [Decidable p] (ha : Flows s a) (hb : Flows s b) : Flows s (if p then a else b) := by
  split <;> assumption

theorem put (h : Flows s t) (f : Fld) {i : Nat} (n : Nat) (hr : OffStalls f.r i) : Flows s (t.put f i n) := h.wr _ hr

theorem inc (h : Flows s t) (f : Fld) {i : Nat} (hr : OffStalls f.r i) : Flows s (t.inc f i) := h.wr _ hr

theorem incWrap (h : Flows s t) (f : Fld) {i : Nat} (hr : OffStalls f.r i) : Flows s (t.incWrap f i) := h.wr _ hr

theorem addSat (h : Flows s t) (f : Fld) {i : Nat} (n : Nat) (hr : OffStalls f.r i) : Flows s (t.addSat f i n) := h.wr _ hr

/-- A fold of flows. -/
theorem foldl {β : Type} {f : State → β → State} {l : List β} (h : Flows s t) (hf : ∀ a, ∀ b ∈ l, Flows a (f a b)) :
    Flows s (l.foldl f t) :=
  List.foldlRecOn (motive := Flows s) l f h fun _ ha b hb => ha.trans (hf _ b hb)

/-- The same of a fold that carries a value beside the state. -/
theorem foldl_snd {α β : Type} {f : α × State → β → α × State} {l : List β} {x : α × State} (h : Flows s x.2)
    (hf : ∀ a, ∀ b ∈ l, Flows a.2 (f a b).2) : Flows s (l.foldl f x).2 :=
  List.foldlRecOn (motive := fun a : α × State => Flows s a.2) l f h fun _ ha b hb => ha.trans (hf _ b hb)

/-- An answer and a state, whichever a condition picks. -/
theorem snd_ite {α : Type} {p : Prop} [Decidable p] {x y : α × State} (hx : Flows s x.2) (hy : Flows s y.2) :
    Flows s (if p then x else y).2 := by
  split <;> assumption

/-! ### Messages, alarms and events -/

theorem emit (h : Flows s t) (o : Out) : Flows s (t.emit o) :=
  h.store rfl rfl rfl rfl

theorem sendVector (h : Flows s t) (fn v : Nat) (c : MsgClass) : Flows s (t.sendVector fn v c) := by
  unfold State.sendVector
  exact .ite h (h.store rfl rfl rfl rfl)

theorem raiseYard (h : Flows s t) (p u : Nat) : Flows s (t.raiseYard p u) := by
  unfold State.raiseYard
  exact .ite h (.ite (h.inc _ (.inr ⟨rfl, by decide⟩)) (h.raise ⟨p, u⟩))

theorem countEvent (h : Flows s t) (code : Nat) : Flows s (t.countEvent code) := h.store rfl rfl rfl rfl

theorem placeRequest (h : Flows s t) (r : ModeReq) : Flows s (t.placeRequest r) := by
  unfold State.placeRequest
  exact .ite h (h.store rfl rfl rfl rfl)

theorem alarm (h : Flows s t) {code : Nat} (data : Word) (hc : code < 256) : Flows s (t.alarm code data) := by
  unfold State.alarm
  extract_lets hold seq s1 s2 m s3
  have h2 : Flows s s2 := (h.put F.ALARM_STATUS_NEXT_SEQ _ (.inr ⟨rfl, by decide⟩)).inc ⟨.ALARM_SUMMARY, _, 16⟩ (.inr ⟨rfl, by omega⟩)
  have h3 : Flows s s3 := h2.store rfl rfl rfl rfl
  exact .ite (h3.placeRequest _) h3

/-! ### The fen -/

theorem fenStore (h : Flows s t) (a : Nat) (w : Word) (poison : Bool) : Flows s (t.fenStore a w poison) :=
  h.store rfl rfl rfl rfl

theorem fenUe (h : Flows s t) (a : Nat) : Flows s (t.fenUe a) := by
  have h1 : Flows s (t.inc F.FEN_ECC_UE) := h.inc _ (.inr ⟨rfl, by decide⟩)
  unfold State.fenUe
  exact .alarm (.ite h1 ((h1.put F.FEN_UE_ADDR_ADDR _ (.inr ⟨rfl, by decide⟩)).put F.FEN_UE_ADDR_VALID _ (.inr ⟨rfl, by decide⟩))) _
    (by decide)

theorem engineRead (h : Flows s t) (a : Nat) : Flows s (t.engineRead a).2.2 := by
  unfold State.engineRead
  split
  · exact h.inc _ (.inr ⟨rfl, by decide⟩)
  · split
    · exact h
    · exact h.inc _ (.inr ⟨rfl, by decide⟩)
    · exact h.fenUe a

theorem engineWrite (h : Flows s t) (a : Nat) (w : Word) (poison : Bool) : Flows s (t.engineWrite a w poison) := by
  unfold State.engineWrite
  exact .ite (h.fenStore _ _ _) (h.inc _ (.inr ⟨rfl, by decide⟩))

theorem engineWriteWords (h : Flows s t) (a : Nat) (ws : List Word) : Flows s (t.engineWriteWords a ws) := by
  induction ws generalizing t a with
  | nil => exact h
  | cons w ws ih => exact ih (h.engineWrite a w false) _

theorem fenMerge (h : Flows s t) (a : Nat) (w : Word) (be : BitVec 8) (poison : Bool) : Flows s (t.fenMerge a w be poison) := by
  unfold State.fenMerge
  dsimp only
  split
  · exact h.fenStore _ _ _
  · split
    · exact h.fenStore _ _ _
    · exact (h.inc F.FEN_ECC_STORED_POISON (.inr ⟨rfl, by decide⟩)).fenStore _ _ _
    · exact (h.fenUe a).fenStore _ _ _

theorem engineWriteBytes (h : Flows s t) (fuel a : Nat) (bs : List Byte) : Flows s (State.engineWriteBytes fuel t a bs) := by
  induction fuel generalizing t a bs with
  | zero => exact h
  | succ fuel ih =>
    cases bs with
    | nil => exact h
    | cons b bs => exact ih (.ite (h.fenMerge _ _ _ _) (h.inc _ (.inr ⟨rfl, by decide⟩))) _ _

/-! ### Troughs -/

theorem setTrg (h : Flows s t) (k : Nat) (x : Trough) : Flows s (t.setTrg k x) := h.store rfl rfl rfl rfl

theorem writeSlot (h : Flows s t) (k i : Nat) (w : TWord) : Flows s (t.writeSlot k i w) := by
  unfold State.writeSlot
  exact .ite ((h.fenStore _ _ _).fenStore _ _ _) (h.store rfl rfl rfl rfl)

theorem putWords (h : Flows s t) (k i : Nat) (ws : List TWord) : Flows s (t.putWords k i ws) := by
  induction ws generalizing t i with
  | nil => exact h
  | cons w ws ih => exact ih (h.writeSlot k _ w) _

theorem noteHead (h : Flows s t) (k : Nat) : Flows s (t.noteHead k) := by
  unfold State.noteHead State.noteTaken State.raiseMark
  exact .ite (.ite (.ite (.ite (h.wr _ (.inl rfl)) h) (.ite (h.wr _ (.inl rfl)) h)) h) h

section Trough

variable {k : Nat} (hk : k < 2 ^ 20)
include hk

theorem trgThresh (h : Flows s t) (before : Nat) : Flows s (t.trgThresh k before) :=
  trgThresh_rec (P := Flows s) k before h (fun _ f _ hf ha => ha.put f _ (.inr ⟨by rw [hf]; rfl, hk⟩))
    (fun _ _ _ _ ha => ha.sendVector _ _ _) fun _ _ _ ha => ha.raiseYard _ _

theorem markDrops (h : Flows s t) (n tick : Nat) : Flows s (t.markDrops k n tick) := by
  unfold State.markDrops
  exact .ite h (.ite (h.writeSlot _ _ _) (((h.writeSlot _ _ _).setTrg _ _).incWrap _ (.inr ⟨rfl, hk⟩)))

theorem dropItem (h : Flows s t) : Flows s (t.dropItem k) :=
  (h.inc F.TRG_DROPS_DROPPED (.inr ⟨rfl, hk⟩)).markDrops hk _ _

theorem dropPending (h : Flows s t) : Flows s (t.dropPending k) :=
  (h.inc F.TRG_DROPS_DROPPED (.inr ⟨rfl, hk⟩)).setTrg _ _

theorem pushBurst (h : Flows s t) (ws : List TWord) : Flows s (t.pushBurst k ws) := by
  have hm (a : State) (ha : Flows s a) : Flows s (a.mirrorNote k ws) := by
    unfold State.mirrorNote
    exact .ite (ha.store rfl rfl rfl rfl) ha
  unfold State.pushBurst
  exact .ite (hm _ ((h.putWords _ _ _).setTrg _ _)) (h.dropItem hk)

theorem pushItem (h : Flows s t) (ws : List Word) : Flows s (t.pushItem k ws) := by
  unfold State.pushItem
  exact .ite (h.inc _ (.inr ⟨rfl, by decide⟩)) (.ite (h.dropPending hk) (.ite (h.setTrg _ _) ((h.pushBurst hk _).trgThresh hk _)))

theorem dropHead (h : Flows s t) : Flows s (t.dropHead k) :=
  ((((h.noteHead k).setTrg _ _).addSat F.TRG_COUNT_POISON_POPS _ (.inr ⟨rfl, hk⟩)).addSat F.TRG_ECC_POISON_POPS _
    (.inr ⟨rfl, by decide⟩)).trgThresh hk _

end Trough

/-! ### Pools and blocks -/

section Pool

variable {p : Nat} (hp : p < 256)
include hp

theorem poolWatch (h : Flows s t) : Flows s (t.poolWatch p) := by
  have hr : OffLanes .FEN_POOL_STATUS p := .inr ⟨rfl, by omega⟩
  unfold State.poolWatch
  extract_lets free low was s1 s2
  have h1 : Flows s s1 := h.put F.FEN_POOL_STATUS_LOW _ hr
  have h2 : Flows s s2 := .ite ((h1.inc F.FEN_POOL_COUNT_LOW_EVENTS (.inr ⟨rfl, by omega⟩)).alarm _ (by decide)) h1
  exact .ite (h2.put F.FEN_POOL_STATUS_MIN_FREE _ hr) h2

theorem allocBlock (h : Flows s t) : Flows s (t.allocBlock p).2 := by
  have hr : OffLanes .FEN_POOL_COUNT p := .inr ⟨rfl, by omega⟩
  unfold State.allocBlock
  split
  · exact .ite (h.inc F.FEN_POOL_COUNT_EMPTY_POPS hr) h
  · next it _ =>
    extract_lets a s1 s2
    have h1 : Flows s s1 := h.dropHead (by omega)
    have h2 : Flows s s2 := h1.store rfl rfl rfl rfl
    exact (h2.incWrap F.FEN_POOL_COUNT_ALLOCS hr).poolWatch hp

theorem of_allocBlock {b : Option Nat} {u : State} (h : Flows s t) (he : t.allocBlock p = (b, u)) : Flows s u := by
  have ha := h.allocBlock hp
  rw [he] at ha
  exact ha

end Pool

theorem releaseBlock (h : Flows s t) (a : Nat) : Flows s (t.releaseBlock a) := by
  have hr : OffLanes .FEN_RELEASE_STATUS 0 := .inr ⟨rfl, by decide⟩
  unfold State.releaseBlock
  split
  · exact h.inc _ hr
  · next p hp =>
    have hp : p < 256 := List.mem_range.mp (List.mem_of_find?_eq_some hp)
    have ho (b : Tab Bool) : Flows s { t with outBits := b } := h.store rfl rfl rfl rfl
    exact .ite (h.inc _ hr) (.ite (h.inc _ hr) (((ho _).pushItem (k := 144 + p) (by omega) _).poolWatch hp))

theorem abandon (h : Flows s t) (c : Nat) (p : Prod) : Flows s (t.abandon c p).2 :=
  (h.foldl fun a b _ => (refl a).releaseBlock b).inc _ (.inl rfl)

end Flows

end Machine
end Sys2Proof

/-! SUPPORT. The frame path's own operations as chains of such steps: rows, products, stacks, herds, shift-and-add, and what an accepted
Frame Start does beside its stall. -/

namespace Sys2Proof.Machine.Flows

variable {s t : State}

/-! ### Contexts, products and host writes -/

theorem modCtx (h : Flows s t) (c : Nat) (f : Ctx → Ctx) : Flows s (t.modCtx c f) := h.store rfl rfl rfl rfl

theorem queueTags (h : Flows s t) (c : Nat) (l : List (Option TagDue)) : Flows s (t.queueTags c l) := h.modCtx c _

theorem mapWords (h : Flows s t) (n a : Nat) : Flows s (State.mapWords n a t).2 := by
  induction n generalizing t a with
  | zero => exact h
  | succ n ih => exact ih (h.engineRead a) _

theorem read32 (h : Flows s t) (a n : Nat) : Flows s (t.read32 a n).2.2 := by
  unfold State.read32 State.mapVals
  split
  · exact h
  · exact h.mapWords _ _

theorem write32 (h : Flows s t) (a : Nat) (l : List Int) : Flows s (t.write32 a l) := h.engineWriteBytes _ a _

theorem sendWrites (h : Flows s t) (fuel a : Nat) (bs : List Byte) (rel : Bool) :
    Flows s (State.sendWrites fuel t a bs rel) := by
  induction fuel generalizing t a bs with
  | zero => exact h
  | succ fuel ih =>
    cases bs with
    | nil => exact h
    | cons b bs =>
      have h1 : Flows s t.fromL1 := h.store rfl rfl rfl rfl
      exact ih (h1.emit _) _ _

section Pool

variable {pool : Nat} (hp : pool < 256)
include hp

theorem fillBlocks (h : Flows s t) (c fuel : Nat) (p : Prod) (q : List Byte) :
    Flows s (State.fillBlocks c pool fuel p q t).2 := by
  induction fuel generalizing t p q with
  | zero => exact h
  | succ fuel ih =>
    unfold State.fillBlocks
    split
    · split
      · exact h
      · split
        · next he => exact (h.of_allocBlock hp he).abandon c p
        · next he => exact ih (h.of_allocBlock hp he) _ _
    · extract_lets off room s1 rest p1
      have h1 : Flows s s1 := h.engineWriteBytes _ _ _
      split
      · exact h1
      · split
        · next he => exact (h1.of_allocBlock hp he).abandon c p1
        · next he => exact ih ((h1.of_allocBlock hp he).engineWrite _ _ _) _ _

theorem prodAppend (h : Flows s t) (c : Nat) (relaxed : Bool) (p : Prod) (bs : List Byte) :
    Flows s (t.prodAppend c pool relaxed p bs).2 := by
  unfold State.prodAppend
  split
  · exact h
  · split
    · exact .snd_ite (h.sendWrites _ _ _ _) h
    · exact h.fillBlocks hp _ _ _ _

theorem openChunk (h : Flows s t) (c : Nat) (k : Chunks) : Flows s (t.openChunk c pool k).2 := by
  unfold State.openChunk
  split
  · exact h
  · split
    · next he => exact h.of_allocBlock hp he
    · next he => exact (h.of_allocBlock hp he).inc _ (.inl rfl)

end Pool

theorem prodEnd (h : Flows s t) (p : Prod) : Flows s (t.prodEnd p).2 := by
  unfold State.prodEnd
  split
  · exact .snd_ite h (h.engineWriteBytes _ _ _)
  · exact h

theorem endProds (h : Flows s t) (l : List Prod) : Flows s (t.endProds l).2 := by
  unfold State.endProds
  refine Flows.foldl_snd (x := (_, t)) h fun a p _ => ?_
  exact (Flows.refl a.2).prodEnd p

/-! ### Event chunks and window results -/

theorem endChunk (h : Flows s t) (c seq : Nat) (k : Chunks) (last : Bool) : Flows s (t.endChunk c seq k last).2 := by
  unfold State.endChunk
  dsimp only
  split
  · exact h
  · exact h.engineWriteWords _ _

theorem addEvent {pool : Nat} (hp : pool < 256) (c seq : Nat) (a : Chunks × State) (e : Word) :
    Flows a.2 (addEvent c pool seq a e).2 := by
  unfold Machine.addEvent
  extract_lets o s1 k
  have ho : Flows a.2 o.2 := (Flows.refl _).openChunk hp c _
  have h1 : Flows a.2 s1 := by
    unfold s1
    split
    · exact ho.engineWrite _ _ _
    · exact ho
  exact .snd_ite (h1.endChunk _ _ _ _) h1

theorem formResults (h : Flows s t) (f : Frame) (atClose : Bool) : Flows s (t.formResults f atClose).2 := by
  unfold State.formResults
  split
  · exact h
  · refine Flows.foldl_snd (x := (f, t)) h fun a k _ => ?_
    dsimp only
    split
    · exact .refl _
    · exact (Flows.refl _).store rfl rfl rfl rfl

/-! ### Rows -/

theorem showStack (h : Flows s t) (c : Nat) : Flows s (t.showStack c) :=
  ((h.put F.RED_CTX_STATE_STACK_OPEN _ (.inl rfl)).put F.RED_CTX_STATE_STAGE_BUSY _ (.inl rfl)).put F.RED_CTX_STATE_STACK_FRAMES _
    (.inl rfl)

theorem sumRow (h : Flows s t) (f : Frame) (r oy : Nat) (row : List Px) : Flows s (t.sumRow f r oy row).2 := by
  unfold State.sumRow
  extract_lets c a u first last read rd f1 reg zero tag head p bs q
  have hrd : Flows s rd.2.2 := by
    unfold rd
    split
    · exact h
    · exact h.read32 _ _
  exact .snd_ite (hrd.write32 _ _) (hrd.prodAppend (cPool_lt _) _ _ _ _)

theorem regionRow (h : Flows s t) (f : Frame) (r : Nat) (reg : Region) (oy : Nat) :
    Flows s (t.regionRow f r reg oy).2 := by
  unfold State.regionRow
  extract_lets c row all f1 relaxed p bs q k1
  have h1 : Flows s k1.2 := .snd_ite h (h.prodAppend (cPool_lt _) _ _ _ _)
  split
  · exact h1.sumRow _ _ _ _
  · exact .snd_ite (h1.write32 _ _) h1
  · exact h1

theorem routeRow (h : Flows s t) (f : Frame) (y : Nat) : Flows s (t.routeRow f y).2 := by
  unfold State.routeRow
  extract_lets c rs a b hh ys evs r
  have ha : Flows s a.2 := by
    refine Flows.foldl_snd (x := (f, t)) h fun a r _ => ?_
    split
    · exact .refl _
    · exact .snd_ite ((Flows.refl a.2).regionRow _ _ _ _) (.refl _)
  have hb : Flows s b.2 := ha.formResults _ _
  split
  · exact hb
  · exact Flows.foldl_snd (x := (_, b.2)) hb fun a e _ => Flows.addEvent (cPool_lt _) _ _ a e

theorem passRow (h : Flows s t) (f : Frame) : Flows s (t.passRow f).2 := by
  unfold State.passRow
  extract_lets w y raw f1 p r need m d o row s1 f2
  split
  · exact h.prodAppend (cPool_lt _) _ _ _ _
  · have h1 : Flows s s1 := .ite h (h.engineWriteBytes _ _ _)
    exact .snd_ite (h1.routeRow _ _) h1

theorem passRows (h : Flows s t) (n : Nat) (f : Frame) : Flows s (State.passRows n t f).2 := by
  induction n generalizing t f with
  | zero => exact h
  | succ n ih =>
    unfold State.passRows
    split
    · exact ih (h.passRow f) _
    · exact h

/-! ### Stacks and the end of a route -/

theorem shortProduct (h : Flows s t) (c kind : Nat) (k : Stack) (r : Nat) (reg : Region) :
    Flows s (t.shortProduct c kind k r reg).2.2 := by
  unfold State.shortProduct
  extract_lets u s0 a e
  have ha : Flows s a.2.2 := by
    refine List.foldlRecOn (motive := fun a : Prod × Bool × State => Flows s a.2.2) _ _ (h.prodAppend (cPool_lt _) _ _ _ _)
      fun a ha oy _ => ?_
    refine Flows.prodAppend (cPool_lt _) ?_ _ _ _ _
    split
    · exact ha
    · exact ha.read32 _ _
  exact ha.prodEnd _

theorem closeStack (h : Flows s t) (c : Nat) : Flows s (t.closeStack c) := by
  unfold State.closeStack
  split
  · exact h
  · extract_lets s1 eng kind rs a s2
    have h1 : Flows s s1 := h.modCtx c _
    have ha : Flows s a.2 := by
      refine Flows.foldl_snd (x := (_, s1)) h1 fun a r _ => ?_
      dsimp only
      split
      · exact .refl _
      · exact (Flows.refl a.2).shortProduct _ _ _ _ _
    exact Flows.showStack (.ite h1 (ha.queueTags _ _)) _

theorem routeFinish (h : Flows s t) (f : Frame) : Flows s (t.routeFinish f) := by
  unfold State.routeFinish
  extract_lets u c flags herd tag e w pr frames chunkTag o e1 early sm q st
  have he : Flows s e.2 := h.endProds f.prods
  have hw : Flows s w.2 := h.formResults f true
  have hpr : Flows s pr.2 := hw.endProds w.1.prods
  have ho : Flows s o.2 := hpr.openChunk (cPool_lt _) _ _
  have he1 : Flows s e1.2 := ho.endChunk _ _ _ _
  have hsm : Flows s sm.2 := hpr.endProds w.1.sums
  split
  · exact he.queueTags c _
  · split
    · exact (he1.put F.RED_CTX_STATE_LAST_EVENTS _ (.inl rfl)).queueTags c _
    · exact hpr.queueTags c _
    · split
      · exact queueTags (hsm.foldl fun a p _ => (Flows.refl a).foldl fun b x _ => (Flows.refl b).releaseBlock x) c _
      · have hclose {p : Prop} [Decidable p] {a : State} (ha : Flows s a) : Flows s (if p then a.closeStack c else a) :=
          .ite (ha.closeStack c) ha
        exact (hclose ((hsm.queueTags c _).modCtx c _)).showStack c
    · exact ((hpr.queueTags c _).modCtx c _).showStack c
    · exact hpr.queueTags c _

/-! ### Herds -/

theorem setHerd (h : Flows s t) (k : Nat) (x : Herd) : Flows s (t.setHerd k x) := h.store rfl rfl rfl rfl

theorem herdRelease (h : Flows s t) (k : Nat) (x : HerdSlot) : Flows s (t.herdRelease k x) := by
  unfold State.herdRelease
  extract_lets y ms gap s1 s2
  have h2 : Flows s s2 := ((h.setHerd k _).incWrap F.HERD_COUNT_RECORDS (.inl rfl)).put F.HERD_STATUS_LAST_SLOT _ (.inl rfl)
  exact .ite ((h2.inc F.HERD_COUNT_INCOMPLETE (.inl rfl)).countEvent _) h2

theorem herdGo (h : Flows s t) (k : Nat) : Flows s (t.herdGo k) := by
  have hs (n : Nat) : ∀ a : State, Flows s a → Flows s (a.herdSettle k n) := by
    induction n with
    | zero => exact fun _ ha => ha
    | succ n ih =>
      intro a ha
      unfold State.herdSettle
      split
      · exact ha
      · split
        · exact ha
        · exact ih _ (ha.herdRelease k _)
  exact hs _ t h

theorem herdPassAll (h : Flows s t) (c : Nat) : Flows s (t.herdPassAll c) :=
  h.foldl fun a k _ => .ite (((Flows.refl a).setHerd k _).herdGo k) (.refl a)

theorem herdFlags (h : Flows s t) (c seq flags : Nat) (copy : Tab Word) : Flows s (t.herdFlags c seq flags copy) := by
  unfold State.herdFlags
  split
  · exact h
  · exact h.setHerd _ _

theorem herdCount (h : Flows s t) (c stall start seq flags : Nat) (copy : Tab Word) :
    Flows s (t.herdCount c stall start seq flags copy).2 := by
  unfold State.herdCount
  split
  · exact h
  · next k _ =>
    split
    · exact h
    · split
      · exact h.inc F.HERD_COUNT_MISALIGNED (.inl rfl)
      · extract_lets slot y s1
        have h1 : Flows s s1 := .ite h (h.setHerd k _)
        refine .snd_ite (h.inc F.HERD_COUNT2_LATE_DROPPED (.inl rfl)) ?_
        split
        · exact h1
        · refine .snd_ite (h1.inc F.HERD_COUNT2_DOUBLE (.inl rfl)) (.snd_ite h1 ?_)
          extract_lets late e s2 s3 s4
          have h2 : Flows s s2 := h1.setHerd k _
          have h3 : Flows s s3 := .ite (h2.inc F.HERD_COUNT2_LATE_INCLUDED (.inl rfl)) h2
          have h4 : Flows s s4 := h3.setHerd k _
          exact h4.herdGo k

theorem endGroup (h : Flows s t) (c : Nat) : Flows s (t.endGroup c) := by
  unfold State.endGroup
  split
  · exact h
  · exact .ite h (((h.modCtx c _).put F.CTX_STATUS_MERGE_OPEN _ (.inl rfl)).queueTags c _)

theorem herdAccept (h : Flows s t) (c u : Nat) (copy : Tab Word) : Flows s (t.herdAccept c u copy) := by
  unfold State.herdAccept
  split
  · exact h
  · exact .ite h (((h.setHerd _ _).setHerd _ _).herdGo _)

/-! ### Shift-and-add (R289 to R292) -/

theorem stagedImage (h : Flows s t) (copy : Tab Word) (half : Nat) (reg : Region) : Flows s (t.stagedImage copy half reg).2.2 :=
  List.foldlRecOn (motive := fun a : List (List Int) × Bool × State => Flows s a.2.2) _ _ h fun _ ha _ _ => ha.read32 _ _

theorem saaProduct (h : Flows s t) (c : Nat) (k : Stack) (short : Bool) (reg : Region) (prior : Nat) (u : Option (List (List Int))) :
    Flows s (t.saaProduct c k short reg prior u).2.2 := by
  unfold State.saaProduct
  extract_lets copy s0 a e
  have ha : Flows s a.2.2 := by
    refine List.foldlRecOn (motive := fun a : Prod × Bool × State => Flows s a.2.2) _ _ (h.prodAppend (cPool_lt _) _ _ _ _)
      fun a ha oy _ => ?_
    refine prodAppend (cPool_lt _) ?_ _ _ _ _
    split
    · exact ha
    · exact ha.read32 _ _
  exact ha.prodEnd _

theorem resampleEnd (h : Flows s t) (c : Nat) : Flows s (t.resampleEnd c) := by
  unfold State.resampleEnd
  split
  · extract_lets copy reg im d s1 flags src k1 u s2 s3 k2 s4 p q3
    have h1 : Flows s s1 := (h.stagedImage _ _ _).modCtx c _
    have h2 : Flows s s2 := by
      unfold s2
      split
      · exact ((h1.put F.RED_CTX_OFFSET_DX _ (.inl rfl)).put F.RED_CTX_OFFSET_DY _ (.inl rfl)).put F.RED_CTX_OFFSET_VALID _ (.inl rfl)
      · exact h1.inc _ (.inl rfl)
    have h3 : Flows s s3.1 := by
      unfold s3
      clear_value u
      cases u with
      | none => exact h2
      | some m =>
        refine List.foldlRecOn (motive := fun a : State × Bool => Flows s a.1) _ _ h2 fun a ha oy _ => ?_
        dsimp only
        split
        · exact ha.write32 _ _
        · exact (ha.read32 _ _).write32 _ _
    have h4 : Flows s s4 := h3.modCtx c _
    split
    · exact (Flows.ite (h4.closeStack c) h4).showStack c
    · exact (((h2.saaProduct _ _ _ _ _ _).modCtx c _).queueTags c _).showStack c
  · exact h

theorem endStack (h : Flows s t) (c : Nat) : Flows s (t.endStack c) :=
  (h.foldl fun a _ _ => .ite (.refl a) ((Flows.refl a).resampleEnd c)).closeStack c

/-! ### What an accepted Frame Start does beside its stall (R213, R225, R243, R284, R290, R433) -/

theorem activate (h : Flows s t) (c : Nat) (b : Bool) (frame seq : Nat) : Flows s (t.activate c b frame seq) := by
  unfold State.activate
  extract_lets s1 s2 s3
  have h2 : Flows s s2 := (((h.put F.CTX_STATUS_ACTIVE_COPY _ (.inl rfl)).put F.CTX_STATUS_PENDING_COPY _ (.inl rfl)).put
    F.CTX_APPLIED_APPLIED_FRAME_ID _ (.inl rfl)).put F.CTX_APPLIED_ACTIVE_SEQUENCE _ (.inl rfl)
  have h3 : Flows s s3 := (((h2.modCtx c _).put F.CTX_COMMIT_RESULT _ (.inl rfl)).put F.CTX_COMMIT_BAD_OFFSET _ (.inl rfl)).put
    F.CTX_COMMIT_GO _ (.inl rfl)
  refine (h3.countEvent 4).foldl fun a g _ => ?_
  dsimp only
  split
  · exact .ite ((Flows.refl a).store rfl rfl rfl rfl) (.refl a)
  · exact .refl a

theorem takeCopy (h : Flows s t) (c : Nat) (b : Option Bool) (frame seq : Nat) : Flows s (t.takeCopy c b frame seq) := by
  unfold State.takeCopy
  split
  · exact h
  · exact activate (.ite h (h.endStack c)) _ _ _ _

theorem joinStack (h : Flows s t) (c : Nat) (copy : Tab Word) : Flows s (t.joinStack c copy).2 := (h.modCtx c _).showStack c

theorem popWord (h : Flows s t) (a : Agent) {k : Nat} (hk : k < 2 ^ 20) (e : Ecc) : Flows s (t.popWord a k e).2 := by
  unfold State.popWord
  extract_lets x none' w poison s1 src s2 s3
  have h2 : Flows s s2 := ((h.noteHead k).setTrg _ _).setTrg _ _
  have h3 : Flows s s3 := .ite ((h2.inc F.TRG_COUNT_POISON_POPS (.inr ⟨rfl, hk⟩)).inc F.TRG_ECC_POISON_POPS (.inr ⟨rfl, by decide⟩))
    (.ite ((h2.inc F.TRG_COUNT_ECC_CORR (.inr ⟨rfl, hk⟩)).inc F.TRG_ECC_CORR (.inr ⟨rfl, by decide⟩)) h2)
  exact .snd_ite (h.put F.TRG_STATUS_REFUSED_ACCESS _ (.inr ⟨rfl, hk⟩))
    (.snd_ite h (.snd_ite h (.snd_ite h (h3.trgThresh hk _))))

theorem popOffset (h : Flows s t) (c : Nat) (copy : Tab Word) : Flows s (t.popOffset c copy).2 := by
  have hp := h.popWord .engine (k := cfield copy 0x130 16 16) ((bits_lt _ _ _).trans (by decide)) .clean
  exact .snd_ite hp (hp.inc _ (.inl rfl))

theorem joinGroup (h : Flows s t) (c n : Nat) (hdr : FrameHdr) (tag : FrameTag) : Flows s (t.joinGroup c n hdr tag) :=
  (h.modCtx c _).put F.CTX_STATUS_MERGE_OPEN _ (.inl rfl)

theorem bayTakes (h : Flows s t) (c k b : Nat) : Flows s (t.bayTakes c k b) := by
  unfold State.bayTakes
  extract_lets s1 s2 s3
  have h2 : Flows s s2 := (h.wr _ (.inl rfl)).incWrap F.CHUTE_COUNT_FRAMES (.inl rfl)
  have h3 : Flows s s3 := (h2.inc F.CHUTE_COUNT_SWITCHES (.inl rfl)).raiseYard _ _
  exact .ite h2 (h3.store rfl rfl rfl rfl)

theorem destGone (h : Flows s t) (c result : Nat) : Flows s (t.destGone c result) :=
  (((h.modCtx c _).put F.CTX_DEST_CTRL_RESULT _ (.inl rfl)).put F.CTX_DEST_CTRL_COMMIT _ (.inl rfl)).put F.CTX_DEST_STATUS_PENDING _ (.inl rfl)

theorem destLatch (h : Flows s t) (c frameId : Nat) (copy : Tab Word) (stream : Bool) :
    Flows s (t.destLatch c frameId copy stream).2.2 := by
  unfold State.destLatch
  dsimp only
  split
  · exact h
  · split
    · exact h.inc _ (.inl rfl)
    · have h1 := h.put F.CTX_DEST_STATUS_LATCH_FRAME_ID (i := c) frameId (.inl rfl)
      split
      · exact h.inc _ (.inl rfl)
      · split
        · exact (h1.destGone c dsSmall).inc _ (.inl rfl)
        · exact ((h1.destGone c dsLatched).put F.CTX_DEST_STATUS_CUR_VALID _ (.inl rfl)).incWrap F.CTX_DEST_COUNT_PLACED (.inl rfl)

end Sys2Proof.Machine.Flows

/-! SUPPORT. What the commands of chapter 4 leave of a stall and of the other stalls, and a frame's way from its acceptance to its last
pixel (R160 to R163, R207). -/

namespace Sys2Proof.Machine

/-! ### Moves of one stall -/

/-- From `s` to `t` only stall `n` has moved: of the stalls' registers only those of `l` may differ, what `keep` reads of the stall's record
and the records of the other stalls are as before, no event raised is lost, and no time has passed. -/
structure StallMoves {α : Type} (l : List Reg) (keep : Stall → α) (n : Nat) (s t : State) : Prop where
  regs : ∀ r i, r.ofStalls = true → r ∉ l → i < 2 ^ 20 → t.rd r i = s.rd r i
  record : keep (t.stall n) = keep (s.stall n)
  others : ∀ m, m ≠ n → t.stall m = s.stall m
  raised : s.yard.raised <+: t.yard.raised
  tb : t.tb = s.tb

namespace StallMoves

variable {α β : Type} {l : List Reg} {keep : Stall → α} {n : Nat} {s t u : State}

theorem refl (l : List Reg) (keep : Stall → α) (n : Nat) (s : State) : StallMoves l keep n s s :=
  ⟨fun _ _ _ _ _ => rfl, rfl, fun _ _ => rfl, List.prefix_rfl, rfl⟩

theorem trans (h : StallMoves l keep n s t) (k : StallMoves l keep n t u) : StallMoves l keep n s u :=
  ⟨fun r i hr hl hi => (k.regs r i hr hl hi).trans (h.regs r i hr hl hi), k.record.trans h.record,
    fun m hm => (k.others m hm).trans (h.others m hm), h.raised.trans k.raised, k.tb.trans h.tb⟩

theorem flows (h : StallMoves l keep n s t) (k : Flows t u) : StallMoves l keep n s u :=
  h.trans ⟨fun _ _ hr _ hi => k.rd hr hi, congrArg keep (k.stall n), fun m _ => k.stall m, k.raised, k.tb⟩

/-- A wider list of registers, and less kept of the record. -/
theorem mono (h : StallMoves l keep n s t) {m : List Reg} (hm : l ⊆ m) (f : α → β) : StallMoves m (fun x => f (keep x)) n s t :=
  ⟨fun r i hr hl hi => h.regs r i hr (fun hrl => hl (hm hrl)) hi, congrArg f h.record, h.others, h.raised, h.tb⟩

theorem modStall (h : StallMoves l keep n s t) {f : Stall → Stall} (hf : keep (f (t.stall n)) = keep (t.stall n)) :
    StallMoves l keep n s (t.modStall n f) := by
  refine h.trans ⟨fun _ _ _ _ _ => rfl, ?_, fun m hm => stall_modStall_other _ _ hm, List.prefix_rfl, rfl⟩
  rw [stall_modStall_same, hf]

theorem wr (h : StallMoves l keep n s t) {r : Reg} {i : Nat} (v : Word) (hr : r ∈ l) (hi : i < 2 ^ 20) :
    StallMoves l keep n s (t.wr r i v) := by
  refine h.trans ⟨fun q j _ hq hj => rd_wr_reg _ _ (fun e => hq (e ▸ hr)) hi hj, rfl, fun _ _ => rfl, List.prefix_rfl, rfl⟩

theorem put (h : StallMoves l keep n s t) (f : Fld) {i : Nat} (v : Nat) (hr : f.r ∈ l) (hi : i < 2 ^ 20) :
    StallMoves l keep n s (t.put f i v) := h.wr _ hr hi

theorem inc (h : StallMoves l keep n s t) (f : Fld) {i : Nat} (hr : f.r ∈ l) (hi : i < 2 ^ 20) : StallMoves l keep n s (t.inc f i) :=
  h.wr _ hr hi

theorem ite {a b : State} {p : Prop} [Decidable p] (ha : StallMoves l keep n s a) (hb : StallMoves l keep n s b) :
    StallMoves l keep n s (if p then a else b) := by
  split <;> assumption

/-- A virtual stall has no such registers. -/
theorem stPut (h : StallMoves l keep n s t) (f : Fld) {i : Nat} (v : Nat) (hr : f.r ∈ l) : StallMoves l keep n s (t.stPut f i v) := by
  unfold State.stPut
  split
  · exact h.put f v hr (by omega)
  · exact h

theorem stAdd (h : StallMoves l keep n s t) (f : Fld) {i : Nat} (v : Nat) (hr : f.r ∈ l) : StallMoves l keep n s (t.stAdd f i v) := by
  unfold State.stAdd
  split
  · exact h.wr _ hr (by omega)
  · exact h

theorem get (h : StallMoves l keep n s t) (f : Fld) {i : Nat} (hf : f.r.ofStalls = true) (hl : f.r ∉ l) (hi : i < 2 ^ 20) :
    t.get f i = s.get f i := get_congr (h.regs f.r i hf hl hi)

theorem now (h : StallMoves l keep n s t) : t.now = s.now := congrArg TimeBase.count h.tb

end StallMoves

theorem Flows.moves {s t : State} (h : Flows s t) {α : Type} (l : List Reg) (keep : Stall → α) (n : Nat) : StallMoves l keep n s t :=
  (StallMoves.refl l keep n s).flows h

/-! ### Events raised -/

/-- A producer of the table has an event at its crossing once it has raised one (R597): its own, or the held one it was merged into. -/
theorem raiseYard_mem (s : State) {p : Nat} (u : Nat) (hp : prodExists p = true) : ∃ v ∈ (s.raiseYard p u).yard.raised, v.id = p := by
  unfold State.raiseYard
  rw [if_neg (by simp [hp])]
  split
  · next h =>
    simp only [Bool.and_eq_true, decide_eq_true_eq] at h
    obtain ⟨v, hv⟩ := List.exists_mem_of_length_pos (l := s.yard.raised.filter fun e => e.id == p) (by omega)
    obtain ⟨hmem, hid⟩ := List.mem_filter.mp hv
    exact ⟨v, hmem, beq_iff_eq.mp hid⟩
  · exact ⟨⟨p, u⟩, List.mem_append_right _ List.mem_cons_self, rfl⟩

/-! ### Rows keep a frame open or closed -/

section Rows

variable (s : State) (f : Frame)

theorem sumRow_closed (r oy : Nat) (row : List Px) : (s.sumRow f r oy row).1.closed = f.closed := by
  unfold State.sumRow
  extract_lets copy a u first last read rd f1
  have h1 : f1.closed = f.closed := by
    unfold f1
    split <;> rfl
  split <;> exact h1

theorem regionRow_closed (r : Nat) (reg : Region) (oy : Nat) : (s.regionRow f r reg oy).1.closed = f.closed := by
  unfold State.regionRow
  extract_lets c row all f1 relaxed p bs q k1
  have h1 : k1.1.closed = f.closed := by
    unfold k1
    split <;> rfl
  split
  · exact (sumRow_closed ..).trans h1
  · split <;> exact h1
  · exact h1

theorem formResults_closed (atClose : Bool) : (s.formResults f atClose).1.closed = f.closed := by
  unfold State.formResults
  split
  · rfl
  · refine List.foldlRecOn (motive := fun a : Frame × State => a.1.closed = f.closed) _ _ rfl fun a ha k _ => ?_
    dsimp only
    split <;> exact ha

theorem routeRow_closed (y : Nat) : (s.routeRow f y).1.closed = f.closed := by
  unfold State.routeRow
  extract_lets copy rs a b h ys evs r
  have ha : a.1.closed = f.closed := by
    refine List.foldlRecOn (motive := fun a : Frame × State => a.1.closed = f.closed) _ _ rfl fun a ha k _ => ?_
    split
    · exact ha
    · split
      · exact (regionRow_closed ..).trans ha
      · exact ha
  have hb : b.1.closed = f.closed := (formResults_closed ..).trans ha
  split <;> exact hb

theorem passRow_closed : (s.passRow f).1.closed = f.closed := by
  unfold State.passRow
  extract_lets w y raw f1 p r need m d o row s1 f2
  split
  · rfl
  · split
    · exact routeRow_closed s1 f2 y
    · rfl

theorem passRows_closed (k : Nat) : (State.passRows k s f).1.closed = f.closed := by
  induction k generalizing s f with
  | zero => rfl
  | succ k ih =>
    unfold State.passRows
    split
    · exact (ih _ _).trans (passRow_closed s f)
    · rfl

end Rows

/-! ### A frame advances (R160, R205, R239) -/

/-- A stall's record but for its frame. -/
def Stall.frameless (x : Stall) : Stall := { x with frame := none }

section Advance

variable (s : State) (n : Nat)

theorem finishFrame_moves (f : Frame) : StallMoves [] Stall.frameless n s (s.finishFrame n f) := by
  unfold State.finishFrame
  extract_lets c copy leaves s1 set s2 s3 s4 s5 s6
  have h0 : Flows s s := .refl s
  have h1 : Flows s s1 := .ite (h0.routeFinish f) h0
  have h2 : Flows s s2 := .ite h1 (h1.modCtx c _)
  have h3 : Flows s s3 := .ite (h2.herdFlags _ _ _ _) h2
  have h4 : Flows s s4 := .ite (.ite ((h3.modCtx c _).put F.CTX_STATUS_MERGE_OPEN _ (.inl rfl)) (h3.modCtx c _)) h3
  have h5 : Flows s s5 := .ite (h4.put F.CTX_DEST_STATUS_CUR_VALID _ (.inl rfl)) h4
  have h6 : Flows s s6 := .ite h5 ((h5.put F.CTX_STATUS_IN_FRAME _ (.inl rfl)).wr _ (.inl rfl))
  exact (h6.moves _ _ n).modStall rfl

theorem finishFrame_frame (f : Frame) : ((s.finishFrame n f).stall n).frame = none := by
  unfold State.finishFrame
  exact congrArg Stall.frame (stall_modStall_same _ _ _)

theorem advanceFrame_moves : StallMoves [] Stall.frameless n s (s.advanceFrame n) := by
  unfold State.advanceFrame
  split
  · exact .refl _ _ _ _
  · extract_lets total f1 r s1
    have h1 : StallMoves [] Stall.frameless n s s1 := (((Flows.refl s).passRows _ _).moves _ _ n).modStall rfl
    exact .ite (h1.trans (finishFrame_moves s1 n _)) h1

/-- A closed frame that advances is gone or still closed. -/
theorem advanceFrame_openFrame {f : Frame} (hf : (s.stall n).frame = some f) (hc : f.closed.isSome = true) :
    (s.advanceFrame n).openFrame n = none := by
  unfold State.advanceFrame
  rw [hf]
  dsimp only
  generalize hg : (if (f.closed.isSome && (s.stall n).buf.isEmpty) = true then f.fillTo _ else f) = g
  have hgc : g.closed = f.closed := by
    rw [← hg]
    split <;> rfl
  unfold State.openFrame
  split
  · rw [finishFrame_frame]
    rfl
  · obtain ⟨u, hu⟩ := Option.isSome_iff_exists.mp hc
    simp [passRows_closed, hgc, hu]

end Advance

/-! ### A frame closes (R160 to R163, R226, R426) -/

/-- The tables that a stall's frames write. -/
def frameRegs : List Reg := [.STALL_PROTO_STATUS, .STALL_FRAME_ID, .STALL_PKT_ERR, .STALL_FRAME_ERR]

/-- A stall's record without its frame, its buffer, the packets held back and what it remembers of Frame Starts. -/
def Stall.unframed (x : Stall) : Stall := { x with skip := none, ref := none, gapPend := false, frame := none, heldPkts := [], buf := [] }

theorem openFrame_eq_some {s : State} {n : Nat} {f : Frame} : s.openFrame n = some f ↔ (s.stall n).frame = some f ∧ f.closed = none := by
  simp [State.openFrame, Option.filter_eq_some_iff]

/-- Without a frame in progress none is open. -/
theorem openFrame_of_none {s : State} {n : Nat} (h : (s.stall n).frame = none) : s.openFrame n = none := by
  rw [State.openFrame, h]
  rfl

/-- The registers as a close leaves them (R161, R162). -/
def State.closeShown (s : State) (n : Nat) (bad : Bool) : State :=
  let s1 := s.stPut F.STALL_PROTO_STATUS_FRAME_OPEN n 0
  if bad then (if n < 16 then s1.inc F.STALL_FRAME_ERR_INCOMPLETE n else s1.inc F.VST_COUNT_INCOMPLETE (n - 16)) else s1

theorem StallMoves.weaken {n : Nat} {s t : State} (h : StallMoves [] Stall.frameless n s t) :
    StallMoves frameRegs Stall.unframed n s t := h.mono (List.nil_subset _) Stall.unframed

section Close

variable (s : State) {n : Nat}

theorem closeFrame_none (h : s.openFrame n = none) (inc : Bool) : s.closeFrame n inc = s := by
  unfold State.closeFrame
  split
  · rfl
  · next f hf =>
    refine if_pos ?_
    cases hc : f.closed with
    | none => rw [openFrame_eq_some.mpr ⟨hf, hc⟩] at h; cases h
    | some u => rfl

variable {s}

/-- An open frame is shown closed, its producer raises, and what follows stays within the frame. -/
theorem closeFrame_open {f : Frame} (hf : s.openFrame n = some f) (inc : Bool) :
    StallMoves [] Stall.frameless n ((s.closeShown n (f.incomplete || inc || f.line != f.hdr.height)).raiseYard (64 + 4 * n + 1) s.now)
      (s.closeFrame n inc) ∧ (s.closeFrame n inc).openFrame n = none := by
  obtain ⟨hframe, hclosed⟩ := openFrame_eq_some.mp hf
  unfold State.closeFrame
  split
  · next h => rw [hframe] at h; cases h
  next g hg =>
  obtain rfl : f = g := Option.some.inj (hframe.symm.trans hg)
  rw [if_neg (by rw [hclosed]; decide)]
  extract_lets bad f1 c s1 s2 s3 leaves tag k s4 s5
  have h3 : Flows (s2.raiseYard (64 + 4 * n + 1) s.now) s3 := (Flows.refl _).modCtx c _
  have hk : Flows (s2.raiseYard (64 + 4 * n + 1) s.now) k.2 := .snd_ite (h3.herdCount _ _ _ _ _ _) h3
  have h4 : StallMoves [] Stall.frameless n (s2.raiseYard (64 + 4 * n + 1) s.now) s4 := (hk.moves _ _ n).modStall rfl
  have h5 : StallMoves [] Stall.frameless n (s2.raiseYard (64 + 4 * n + 1) s.now) s5 := h4.trans (advanceFrame_moves s4 n)
  have ho : s5.openFrame n = none := advanceFrame_openFrame s4 n (congrArg Stall.frame (stall_modStall_same _ _ _)) rfl
  have hg : Flows s5 (s5.endGroup c) := (Flows.refl s5).endGroup c
  refine ⟨.ite (h5.flows hg) h5, ?_⟩
  split
  · rw [State.openFrame, hg.stall]
    exact ho
  · exact ho

variable (s)

theorem closeShown_moves (hn : n < 2 ^ 20) (bad : Bool) : StallMoves frameRegs Stall.unframed n s (s.closeShown n bad) := by
  have h1 : StallMoves frameRegs Stall.unframed n s (s.stPut F.STALL_PROTO_STATUS_FRAME_OPEN n 0) :=
    (StallMoves.refl ..).stPut _ _ (by decide)
  unfold State.closeShown
  refine .ite (.ite (h1.inc _ (by decide) hn) (h1.flows ?_)) h1
  exact (Flows.refl _).inc F.VST_COUNT_INCOMPLETE (.inr ⟨rfl, by omega⟩)

theorem closeFrame_moves (hn : n < 2 ^ 20) (inc : Bool) : StallMoves frameRegs Stall.unframed n s (s.closeFrame n inc) := by
  cases hf : s.openFrame n with
  | none =>
    rw [closeFrame_none s hf]
    exact .refl ..
  | some f =>
    have hshown := closeShown_moves s hn (f.incomplete || inc || f.line != f.hdr.height)
    exact (hshown.flows ((Flows.refl _).raiseYard _ _)).trans (closeFrame_open hf inc).1.weaken

theorem closeFrame_openFrame (inc : Bool) : (s.closeFrame n inc).openFrame n = none := by
  cases hf : s.openFrame n with
  | none => rw [closeFrame_none s hf, hf]
  | some f => exact (closeFrame_open hf inc).2

variable {s}

/-- What a camera's stall shows of the close of its open frame. -/
theorem closeFrame_effect (hn : n < 16) {f : Frame} (hf : s.openFrame n = some f) (inc : Bool) :
    (s.closeFrame n inc).openFrame n = none ∧ (s.closeFrame n inc).get F.STALL_PROTO_STATUS_FRAME_OPEN n = 0 ∧
    (∃ v ∈ (s.closeFrame n inc).yard.raised, v.id = 64 + 4 * n + 1) ∧
    (s.closeFrame n inc).get F.STALL_FRAME_ERR_INCOMPLETE n =
      if (f.incomplete || inc || f.line != f.hdr.height) = true then min (s.get F.STALL_FRAME_ERR_INCOMPLETE n + 1) 65535
      else s.get F.STALL_FRAME_ERR_INCOMPLETE n := by
  obtain ⟨hmoves, hopen⟩ := closeFrame_open hf inc
  generalize (f.incomplete || inc || f.line != f.hdr.height) = bad at hmoves ⊢
  have hget (g : Fld) (hg : g.r.ofStalls = true) : (s.closeFrame n inc).get g n = (s.closeShown n bad).get g n :=
    (hmoves.get g hg List.not_mem_nil (by omega)).trans (((Flows.refl _).raiseYard _ _).get g hg (by omega))
  have hput (r : Reg) (hr : r ≠ .STALL_PROTO_STATUS) :
      (s.put F.STALL_PROTO_STATUS_FRAME_OPEN n 0).rd r n = s.rd r n := rd_wr_reg _ _ hr (by omega) (by omega)
  obtain ⟨v, hv, hid⟩ := raiseYard_mem (s.closeShown n bad) (p := 64 + 4 * n + 1) s.now (by simp [prodExists]; omega)
  refine ⟨hopen, (hget _ rfl).trans ?_, ⟨v, hmoves.raised.subset hv, hid⟩, (hget _ rfl).trans ?_⟩
  · have h0 : (s.put F.STALL_PROTO_STATUS_FRAME_OPEN n 0).get F.STALL_PROTO_STATUS_FRAME_OPEN n = 0 := get_put_same _ _ _ _ (by decide)
    simp only [State.closeShown, State.stPut, if_pos hn]
    split
    · exact (get_put_reg _ _ _ _ _ _ (by decide) (by omega) (by omega)).trans h0
    · exact h0
  · have h0 : (s.put F.STALL_PROTO_STATUS_FRAME_OPEN n 0).get F.STALL_FRAME_ERR_INCOMPLETE n = s.get F.STALL_FRAME_ERR_INCOMPLETE n :=
      get_congr (hput _ (by decide))
    simp only [State.closeShown, State.stPut, if_pos hn]
    split
    · rw [get_inc_same _ _ _ (by decide), h0]
      rfl
    · exact h0

end Close

/-! ### A Frame Start is judged (R162 to R165, R207, R208) -/

/-- A stall's record as it accepts a frame. -/
def Stall.accept (f : Frame) (x : Stall) : Stall := { x with frame := some f, skip := none, ref := some f.hdr.id, gapPend := false }

section Judge

variable (s : State) (n : Nat)

/-- An acceptance: FRAME_IDs skipped and the last one are shown, the record takes the frame, FRAME_OPEN is set, and the producer raises. -/
theorem acceptFrame_steps (c : Nat) (h : FrameHdr) : ∃ a b d f k, Flows s a ∧
    Flows ((a.stAdd F.STALL_FRAME_ID_GAP_TOTAL n k).stPut F.STALL_FRAME_ID_LAST_FRAME_ID n h.id) b ∧
    (f.hdr.id = h.id ∧ f.ctx = c ∧ f.closed = none ∧ f.pkts = 0) ∧
    Flows ((b.modStall n (Stall.accept f)).stPut F.STALL_PROTO_STATUS_FRAME_OPEN n 1) d ∧
    s.acceptFrame n c h = d.raiseYard (64 + 4 * n) s.now := by
  unfold State.acceptFrame
  extract_lets cp copy epoch seq s1 x skipped s2 s3 s4 enc f0 byp s5 s6 leaves dest joins s7 j o regs f s8 s9 start
  have h2 : Flows s s2 := .ite (((Flows.refl s).takeCopy _ _ _ _).modCtx c _) ((Flows.refl s).takeCopy _ _ _ _)
  have h4 : Flows s3 s4 := ((Flows.refl s3).modCtx c _).incWrap _ (.inl rfl)
  have h5 : Flows s3 s5 := .ite h4 ((h4.bayTakes _ _ _).put _ _ (.inl rfl))
  have h6 : Flows s3 s6 := .ite (h5.joinGroup _ _ _ _) h5
  have hdest : Flows s3 dest.2.2 := by
    unfold dest
    split
    · exact h6.destLatch _ _ _ _
    · exact h6
  have h7 : Flows s3 s7 := .ite (hdest.endStack c) hdest
  have hj : Flows s3 j.2 := .snd_ite (h7.joinStack _ _) h7
  have ho : Flows s3 o.2 := .snd_ite (hj.popOffset _ _) hj
  have h8 : Flows s3 s8 := .ite (ho.modCtx c _) ho
  exact ⟨s2, s8, _, f, skipped, h2, h8, ⟨rfl, rfl, rfl, rfl⟩, (Flows.refl _).herdAccept _ _ _, rfl⟩

theorem acceptFrame_moves (c : Nat) (h : FrameHdr) : StallMoves frameRegs Stall.unframed n s (s.acceptFrame n c h) := by
  obtain ⟨a, b, d, f, k, ha, hb, -, hd, he⟩ := acceptFrame_steps s n c h
  have h1 := ((ha.moves frameRegs Stall.unframed n).stAdd F.STALL_FRAME_ID_GAP_TOTAL (i := n) k (by decide)).stPut
    F.STALL_FRAME_ID_LAST_FRAME_ID (i := n) h.id (by decide)
  have h2 : StallMoves frameRegs Stall.unframed n s (b.modStall n (Stall.accept f)) := (h1.flows hb).modStall rfl
  rw [he]
  exact ((h2.stPut _ _ (by decide)).flows hd).flows ((Flows.refl d).raiseYard _ _)

theorem fsDiscard_moves (fseq : Nat) : StallMoves frameRegs Stall.unframed n s (s.fsDiscard n fseq) :=
  ((StallMoves.refl _ _ n s).modStall rfl).stAdd _ _ (by decide)

theorem refuseFrame_moves (c k fseq : Nat) (geom : Bool) : StallMoves frameRegs Stall.unframed n s (s.refuseFrame n c k fseq geom) := by
  unfold State.refuseFrame
  extract_lets s1 s2
  have h1 : StallMoves frameRegs Stall.unframed n s s1 := (StallMoves.refl ..).modStall rfl
  have h2 : Flows s1 s2 := (Flows.refl s1).modCtx c _
  exact h1.flows (.ite (h2.inc _ (.inl rfl)) (((h2.inc _ (.inl rfl)).inc _ (.inl rfl)).raiseYard _ _))

theorem judgeFrame_moves (h : FrameHdr) : StallMoves frameRegs Stall.unframed n s (s.judgeFrame n h) := by
  unfold State.judgeFrame
  dsimp only
  split
  · exact fsDiscard_moves ..
  · next c _ =>
    split
    · exact fsDiscard_moves ..
    · split
      · exact acceptFrame_moves ..
      · generalize hm : cMergeEn (s.copyFor c h.expIndex).1 = m
        have h1 : Flows s (match (s.ctx c).merge with
            | some g => if !(m && h.expCount != 0) || h.expIndex == 0 || h.expCount != g.count then s.endGroup c else s
            | none => s) := by
          split
          · exact .ite ((Flows.refl s).endGroup c) (.refl s)
          · exact .refl s
        have hrefuse (k : Nat) (geom : Bool) := (h1.moves frameRegs Stall.unframed n).trans (refuseFrame_moves _ n c k (h.id % 256) geom)
        exact .ite (hrefuse _ _) (.ite (hrefuse _ _) (.ite (hrefuse _ _) (.ite (hrefuse _ _)
          ((h1.moves frameRegs Stall.unframed n).trans (acceptFrame_moves _ n c h)))))

end Judge

/-! ### Segments and packets of a frame (R159 to R162, R209) -/

section Packet

variable (s : State) {n : Nat}

theorem takeSegment_moves (f : Frame) (line x : Nat) (px : List Nat) (bytes : Nat) :
    StallMoves frameRegs Stall.unframed n s (s.takeSegment n f line x px bytes) := by
  unfold State.takeSegment
  extract_lets w lineErr px1 s0 s1 s2 gap e f1 g r
  have hr : StallMoves frameRegs Stall.unframed n s s := .refl ..
  have h0 : StallMoves frameRegs Stall.unframed n s s0 := .ite (hr.stAdd _ _ (by decide)) hr
  have h1 : StallMoves frameRegs Stall.unframed n s s1 := h0.flows ((Flows.refl s0).inc F.CTX_COUNT2_PIXEL_OVERRUN (.inl rfl))
  have h2 : StallMoves frameRegs Stall.unframed n s s2 := .ite h1 (h1.flows ((Flows.refl s1).raiseYard _ _))
  exact .ite (hr.stAdd _ _ (by decide)) (.ite (h2.modStall rfl)
    (.ite ((h0.flows ((Flows.refl s0).passRows _ _)).modStall rfl) (h0.modStall rfl)))

theorem orphan_moves (fseq : Nat) : StallMoves frameRegs Stall.unframed n s (s.orphan n fseq) := by
  have hr : StallMoves frameRegs Stall.unframed n s s := .refl ..
  unfold State.orphan
  split
  · exact .ite hr (hr.stAdd _ _ (by decide))
  · exact hr.stAdd _ _ (by decide)

theorem linePacket_moves (p : Rx) : StallMoves frameRegs Stall.unframed n s (s.linePacket n p) := by
  unfold State.linePacket
  split
  · exact .ite (takeSegment_moves s ..) (orphan_moves ..)
  · exact orphan_moves ..

theorem frameEnd_moves (hn : n < 2 ^ 20) (p : Rx) : StallMoves frameRegs Stall.unframed n s (s.frameEnd n p) := by
  have hbad : StallMoves frameRegs Stall.unframed n s (s.stAdd F.STALL_PKT_ERR_BAD_FIELD n 1) := (StallMoves.refl ..).stAdd _ _ (by decide)
  unfold State.frameEnd
  extract_lets other
  have hother : StallMoves frameRegs Stall.unframed n s other := by
    unfold other
    split
    · exact .ite (orphan_moves ..) hbad
    · exact hbad
  split
  · exact .ite (closeFrame_moves s hn _) (.ite hbad hother)
  · exact hother

/-- A Line or a Frame End, waiting or acting. -/
theorem framePacket_moves (hn : n < 2 ^ 20) {p : Rx} (hp : p.type ≠ 1) : StallMoves frameRegs Stall.unframed n s (s.framePacket n p) := by
  unfold State.framePacket
  rw [if_neg hp]
  exact .ite ((StallMoves.refl ..).modStall rfl) (.ite (linePacket_moves s p) (frameEnd_moves s hn p))

end Packet

end Sys2Proof.Machine

/-! SUPPORT. The statement O14: a packet's checks, and what a Frame Start, a Line and a Frame End do (R154 to R166, R207 to R210). -/

namespace Sys2Proof.Machine

theorem stall_inc (s : State) (f : Fld) (i n : Nat) : (s.inc f i).stall n = s.stall n := rfl

/-! ### The checks of a packet (R154 to R158) -/

/-- A length outside the range of the packet's type (Table 4.2). -/
def Rx.badLength (p : Rx) : Bool :=
  match lenRange p.type with
  | none => false
  | some (lo, hi) => decide (p.body.length < lo) || decide (hi < p.body.length)

/-- The counter of a packet whose length is right: ERRORED, then CRC_ERR, then BAD_FIELD. -/
def Rx.errCount (p : Rx) : Fld :=
  if p.errored then F.STALL_PKT_ERR_ERRORED else if p.good then F.STALL_PKT_ERR_BAD_FIELD else F.STALL_PKT_ERR_CRC_ERR

theorem Rx.errCount_reg (p : Rx) : p.errCount.r = .STALL_PKT_ERR := by
  unfold Rx.errCount
  split
  · rfl
  · split <;> rfl

section Checks

variable {s u : State} {n : Nat} {p : Rx}

/-- A packet that is not passed on: its path is closed or lost, or its length is wrong and alignment is lost, or it is counted. -/
theorem rxCheck_refused (h : s.rxCheck n p = (false, u)) :
    u = s ∧ (s.pathOpen n p.type = false ∨ (s.stall n).lost = true) ∨
    s.pathOpen n p.type = true ∧ (s.stall n).lost = false ∧ u = State.lostStart (if p.badLength then s.loseAlign n else s.inc p.errCount n) n p := by
  unfold State.rxCheck at h
  change (if (!s.pathOpen n p.type || (s.stall n).lost) = true then (false, s) else if p.badLength = true then _ else _) = _ at h
  split at h
  · next hc =>
    simp only [Bool.or_eq_true, Bool.not_eq_true'] at hc
    exact .inl ⟨(congrArg Prod.snd h).symm, hc⟩
  next hc =>
  simp only [Bool.or_eq_true, Bool.not_eq_true', not_or, Bool.not_eq_false, Bool.not_eq_true] at hc
  refine .inr ⟨hc.1, hc.2, ?_⟩
  unfold Rx.errCount
  split at h
  · next hb =>
    rw [if_pos hb]
    exact (congrArg Prod.snd h).symm
  next hb =>
  rw [if_neg hb]
  split at h
  · next he =>
    rw [if_pos he]
    exact (congrArg Prod.snd h).symm
  next he =>
  rw [if_neg he]
  split at h
  · next hg =>
    rw [if_neg (by simpa using hg)]
    exact (congrArg Prod.snd h).symm
  next hg =>
  rw [if_pos (by simpa using hg)]
  split at h
  · exact (congrArg Prod.snd h).symm
  · exact absurd (congrArg Prod.fst h) (by simp)

theorem lostStart_regs (s : State) (n : Nat) (p : Rx) : (s.lostStart n p).regs = s.regs := by
  unfold State.lostStart
  split <;> rfl

theorem lostStart_frame (s : State) (n : Nat) (p : Rx) : { s.lostStart n p with stalls := s.stalls } = s := by
  unfold State.lostStart
  split <;> rfl

theorem lostStart_stall (s : State) (n : Nat) (p : Rx) : (s.lostStart n p).stall n =
    if p.type = 1 then { s.stall n with gapPend := true, skip := some (p.fseq, true) } else s.stall n := by
  unfold State.lostStart
  split
  · exact stall_modStall_same _ _ _
  · rfl

/-- A packet that fails its checks touches the packet counters and the stall's record beside its frame, and nothing else. -/
theorem rxCheck_refused_keeps (h : s.rxCheck n p = (false, u)) : RegsBut [(.STALL_PKT_ERR, n)] s u ∧
    { u with regs := s.regs, stalls := s.stalls } = s ∧ (u.stall n).frame = (s.stall n).frame ∧
    (s.pathOpen n p.type = false → u = s) := by
  rcases rxCheck_refused h with ⟨rfl, -⟩ | ⟨hp, -, rfl⟩
  · exact ⟨.refl _ _, rfl, rfl, fun _ => rfl⟩
  generalize ha : (if p.badLength then s.loseAlign n else s.inc p.errCount n) = a
  have hregs : RegsBut [(.STALL_PKT_ERR, n)] s a := by
    rw [← ha]
    split
    · exact (RegsBut.of_regs rfl _).inc F.STALL_PKT_ERR_RESYNC List.mem_cons_self
    · exact (RegsBut.refl _ s).inc _ (by rw [p.errCount_reg]; exact List.mem_cons_self)
  have hrest : { a with regs := s.regs, stalls := s.stalls } = s := by
    rw [← ha]
    split <;> rfl
  have hframe : (a.stall n).frame = (s.stall n).frame := by
    rw [← ha]
    split
    · rw [State.loseAlign, stall_inc, stall_modStall_same]
    · rfl
  refine ⟨hregs.trans (.of_regs (lostStart_regs a n p) _), ?_, ?_, fun hc => by rw [hp] at hc; cases hc⟩
  · have hl := lostStart_frame a n p
    exact (congrArg (fun t : State => { t with regs := s.regs, stalls := s.stalls }) hl :).trans hrest
  · rw [lostStart_stall]
    split <;> exact hframe

/-- A Frame Start of the right length that fails its checks is counted once and remembered. -/
theorem rxCheck_refused_counts (h : s.rxCheck n p = (false, u)) (hp : s.pathOpen n p.type = true) (hl : (s.stall n).lost = false)
    (ht : p.type = 1) (hb : p.badLength = false) :
    u.get p.errCount n = min (s.get p.errCount n + 1) 65535 ∧ (u.stall n).skip = some (p.fseq, true) ∧ (u.stall n).gapPend = true := by
  rcases rxCheck_refused h with ⟨-, hc⟩ | ⟨-, -, rfl⟩
  · simp [hp, hl] at hc
  have hfld : p.errCount.lo + p.errCount.w ≤ 64 ∧ 2 ^ p.errCount.w - 1 = 65535 := by
    unfold Rx.errCount
    split
    · decide
    · split <;> decide
  rw [hb, if_neg (by decide), lostStart_stall, if_pos ht]
  exact ⟨((get_congr (rd_congr (lostStart_regs _ n p) _ _)).trans (get_inc_same s p.errCount n hfld.1)).trans (by rw [hfld.2]), rfl, rfl⟩

/-- One of a wrong length loses alignment. -/
theorem rxCheck_refused_length (h : s.rxCheck n p = (false, u)) (hp : s.pathOpen n p.type = true) (hl : (s.stall n).lost = false)
    (hb : p.badLength = true) :
    u.get F.STALL_PKT_ERR_RESYNC n = min (s.get F.STALL_PKT_ERR_RESYNC n + 1) 65535 ∧ (u.stall n).lost = true := by
  rcases rxCheck_refused h with ⟨-, hc⟩ | ⟨-, -, rfl⟩
  · simp [hp, hl] at hc
  rw [hb, if_pos rfl, lostStart_stall]
  have hlost : ((s.loseAlign n).stall n).lost = true := by
    rw [State.loseAlign, stall_inc, stall_modStall_same]
  refine ⟨(get_congr (rd_congr (lostStart_regs _ n p) _ _)).trans (get_inc_same (s.modStall n _) F.STALL_PKT_ERR_RESYNC n (by decide)), ?_⟩
  split <;> exact hlost

/-! ### A packet passed on (R706) -/

theorem forward_off (s : State) (p : Rx) (room : Bool) (h : bit (s.rd .PAIR_CFG) (32 + n) = false) : s.forward n p room = s := by
  unfold State.forward
  rw [h]
  rfl

theorem rxFrame_refused (h : s.rxCheck n p = (false, u)) (room : Bool) : s.rxFrame n p room = u := by
  unfold State.rxFrame
  rw [h]
  rfl

theorem rxFrame_passed (h : s.rxCheck n p = (true, u)) (hb : bit (u.rd .PAIR_CFG) (32 + n) = false) (room : Bool) :
    s.rxFrame n p room = u.framePacket n p := by
  unfold State.rxFrame
  rw [h]
  exact congrArg (·.framePacket n p) (forward_off u p room hb)

/-- With no Frame Start held, a packet acts by its type. -/
theorem framePacket_free (h : (s.stall n).held = none) :
    s.framePacket n p = if p.type = 1 then s.frameStart n p else if p.type = 2 then s.linePacket n p else s.frameEnd n p := by
  unfold State.framePacket
  rw [h]
  rfl

end Checks

/-! ### A Frame Start (R162 to R166, R207, R208, R210) -/

section Start

variable {u : State} {n : Nat} {h : FrameHdr}

theorem frameStart_idle {p : Rx} (hf : (u.stall n).frame = none) : u.frameStart n p = u.judgeFrame n (u.headerOf n p) := by
  unfold State.frameStart
  dsimp only
  rw [closeFrame_none u (openFrame_of_none hf), hf]
  rfl

/-- No armed context or no capture: the Frame Start is discarded. -/
theorem judgeFrame_discards (hc : u.ctxOfStall n = none ∨ u.capturing = false) : u.judgeFrame n h = u.fsDiscard n (h.id % 256) := by
  unfold State.judgeFrame
  dsimp only
  split
  · rfl
  · next c hs =>
    refine if_pos ?_
    rcases hc with hc | hc
    · rw [hc] at hs
      cases hs
    · simp [hc]

theorem fsDiscard_effect (hn : n < 16) (fseq : Nat) :
    (u.fsDiscard n fseq).get F.STALL_FRAME_ERR_FS_DISCARDED n = min (u.get F.STALL_FRAME_ERR_FS_DISCARDED n + 1) 65535 ∧
    ((u.fsDiscard n fseq).stall n).frame = (u.stall n).frame ∧ ((u.fsDiscard n fseq).stall n).skip = some (fseq, false) ∧
    RegsBut [(.STALL_FRAME_ERR, n)] u (u.fsDiscard n fseq) ∧ { u.fsDiscard n fseq with regs := u.regs, stalls := u.stalls } = u := by
  unfold State.fsDiscard State.stAdd
  rw [if_pos hn]
  have hstall : (u.modStall n fun x => { x with skip := some (fseq, false) }).stall n = { u.stall n with skip := some (fseq, false) } :=
    stall_modStall_same _ _ _
  exact ⟨get_inc_same (u.modStall n _) F.STALL_FRAME_ERR_FS_DISCARDED n (by decide), (congrArg Stall.frame hstall :), (congrArg Stall.skip hstall :),
    (RegsBut.of_regs rfl _).inc F.STALL_FRAME_ERR_FS_DISCARDED List.mem_cons_self, rfl⟩

/-- An armed context whose copy neither bypasses its bay nor merges nor shifts and adds, with no commit pending and no group open. -/
structure PlainCtx (u : State) (n c : Nat) : Prop where
  bound : u.ctxOfStall n = some c
  armed : u.isOn F.CTX_STATUS_ARMED c = true
  capturing : u.capturing = true
  noPending : u.get F.CTX_STATUS_PENDING_COPY c = 0
  noMerge : (u.ctx c).merge = none
  noBypass : cBypass ((u.active c).getD []) = false
  single : cMergeEn ((u.active c).getD []) = false
  engine : cEngine ((u.active c).getD []) ≠ 4

namespace PlainCtx

variable {c : Nat} (k : PlainCtx u n c)
include k

theorem lt : c < 64 := List.mem_range.mp (List.mem_of_find?_eq_some k.bound)

theorem copyFor (idx : Nat) : u.copyFor c idx = ((u.active c).getD [], none) := by
  unfold State.copyFor
  rw [k.noPending]
  rfl

/-- The checks that are left: the bay, then the geometry (R207, R208, R210). -/
theorem judgeFrame : u.judgeFrame n h =
    if u.bayBusy (cChute ((u.active c).getD [])) (cBay ((u.active c).getD [])) then
      u.refuseFrame n c (cChute ((u.active c).getD [])) (h.id % 256) false
    else if h.width ≠ cWidth ((u.active c).getD []) ∨ h.height ≠ cHeight ((u.active c).getD []) ∨
        h.depth ≠ cfield ((u.active c).getD []) 0x010 32 3 then
      u.refuseFrame n c (cChute ((u.active c).getD [])) (h.id % 256) true
    else u.acceptFrame n c h := by
  unfold State.judgeFrame
  rw [k.bound]
  simp only [k.armed, k.capturing, k.copyFor, k.noBypass, k.single, k.noMerge, k.engine, Bool.and_self, Bool.not_true, Bool.false_eq_true,
    if_false, Bool.false_and, false_and]

end PlainCtx

/-- A refusal counts at its context. -/
theorem refuseFrame_effect {c k : Nat} (hc : c < 2 ^ 20) (hk : k < 2 ^ 20) (fseq : Nat) :
    (u.refuseFrame n c k fseq false).get F.CTX_COUNT_OVERRUN c = min (u.get F.CTX_COUNT_OVERRUN c + 1) 65535 ∧
    (u.refuseFrame n c k fseq true).get F.CTX_COUNT_GEOM_MISMATCH c = min (u.get F.CTX_COUNT_GEOM_MISMATCH c + 1) 65535 ∧
    ∀ geom, ((u.refuseFrame n c k fseq geom).stall n).frame = (u.stall n).frame := by
  unfold State.refuseFrame
  extract_lets s1 s2
  have hframe : (s2.stall n).frame = (u.stall n).frame := by
    change (s1.stall n).frame = _
    rw [stall_modStall_same]
  have hcount : ((s2.inc F.CTX_COUNT_OVERRUN c).inc F.CHUTE_COUNT_OVERRUNS k).get F.CTX_COUNT_OVERRUN c =
      min (u.get F.CTX_COUNT_OVERRUN c + 1) 65535 :=
    (get_put_reg _ F.CHUTE_COUNT_OVERRUNS _ _ _ _ (by decide) hk hc).trans (get_inc_same s2 _ _ (by decide))
  refine ⟨((raiseYard_regsBut _ _ _).get_eq _ hc (by decide)).trans hcount, get_inc_same s2 _ _ (by decide), fun geom => ?_⟩
  split
  · exact hframe
  · rw [stall_congr (raiseYard_stalls ..)]
    exact hframe

/-- What a stall shows of the frame that it has accepted. -/
theorem acceptFrame_effect (hn : n < 16) (c : Nat) (hid : h.id < 2 ^ 32) :
    (∃ f, ((u.acceptFrame n c h).stall n).frame = some f ∧ f.hdr.id = h.id ∧ f.ctx = c ∧ f.closed = none ∧ f.pkts = 0) ∧
    ((u.acceptFrame n c h).stall n).ref = some h.id ∧ (u.acceptFrame n c h).get F.STALL_PROTO_STATUS_FRAME_OPEN n = 1 ∧
    (u.acceptFrame n c h).get F.STALL_FRAME_ID_LAST_FRAME_ID n = h.id ∧ ∃ v ∈ (u.acceptFrame n c h).yard.raised, v.id = 64 + 4 * n := by
  obtain ⟨a, b, d, f, k, -, hb, ⟨hfid, hctx, hclosed, hpkts⟩, hd, he⟩ := acceptFrame_steps u n c h
  have hflow : Flows ((b.modStall n (Stall.accept f)).stPut F.STALL_PROTO_STATUS_FRAME_OPEN n 1) (u.acceptFrame n c h) := by
    rw [he]
    exact hd.raiseYard _ _
  have hstall : (u.acceptFrame n c h).stall n = (b.stall n).accept f := by
    rw [hflow.stall, State.stPut, if_pos hn]
    exact stall_modStall_same _ _ _
  have hopen : (u.acceptFrame n c h).get F.STALL_PROTO_STATUS_FRAME_OPEN n = 1 := by
    rw [hflow.get _ rfl (by omega), State.stPut, if_pos hn]
    exact get_put_same _ _ _ _ (by decide)
  have hlast : (u.acceptFrame n c h).get F.STALL_FRAME_ID_LAST_FRAME_ID n = h.id := by
    rw [hflow.get _ rfl (by omega), State.stPut, if_pos hn, get_put_reg _ _ _ _ _ _ (by decide) (by omega) (by omega)]
    refine (hb.get F.STALL_FRAME_ID_LAST_FRAME_ID (i := n) rfl (by omega)).trans ?_
    rw [State.stPut, if_pos hn, get_put_same _ _ _ _ (by decide)]
    exact Nat.mod_eq_of_lt hid
  rw [hstall]
  refine ⟨⟨f, rfl, hfid, hctx, hclosed, hpkts⟩, congrArg some hfid, hopen, hlast, ?_⟩
  rw [he]
  exact raiseYard_mem d _ (by simp [prodExists]; omega)

end Start

/-! ### Lines (R159, R160, R209) -/

section Line

variable {u : State} {n : Nat} {f : Frame} {line x bytes : Nat} {px : List Nat}

/-- A segment behind the next position, or outside the frame. -/
theorem takeSegment_lineErr (h : line < f.line ∨ line = f.line ∧ x < f.col ∨ f.hdr.height ≤ line ∨ f.hdr.width ≤ x) :
    u.takeSegment n f line x px bytes = u.stAdd F.STALL_FRAME_ERR_LINE_ERR n 1 := if_pos h

/-- A counter of a camera's stall. -/
theorem stAdd_effect (hn : n < 16) {g : Fld} (hg : g.lo + g.w ≤ 64) :
    (u.stAdd g n 1).get g n = min (u.get g n + 1) (2 ^ g.w - 1) ∧ OnlyRegs [(g.r, n)] u (u.stAdd g n 1) := by
  unfold State.stAdd
  rw [if_pos hn]
  exact ⟨get_inc_same u g n hg, put_onlyRegs ..⟩

/-- The state after LINE_ERR has counted pixels beyond the line's end, if there are any. -/
def State.lineCut (u : State) (n : Nat) (f : Frame) (x : Nat) (px : List Nat) : State :=
  if (px.take (f.hdr.width - x)).length < px.length then u.stAdd F.STALL_FRAME_ERR_LINE_ERR n 1 else u

theorem lineCut_regsBut (u : State) (n : Nat) (f : Frame) (x : Nat) (px : List Nat) : RegsBut [(.STALL_FRAME_ERR, n)] u (u.lineCut n f x px) := by
  unfold State.lineCut State.stAdd
  split
  · split
    · exact (RegsBut.refl _ u).wr _ List.mem_cons_self
    · exact .refl _ _
  · exact .refl _ _

theorem lineCut_frame (u : State) (n : Nat) (f : Frame) (x : Nat) (px : List Nat) : { u.lineCut n f x px with regs := u.regs } = u := by
  unfold State.lineCut State.stAdd
  split
  · split <;> rfl
  · rfl

variable (hin : ¬ (line < f.line ∨ line = f.line ∧ x < f.col ∨ f.hdr.height ≤ line ∨ f.hdr.width ≤ x)) (hby : cBypass f.copy = false)
include hin hby

/-- A segment that finds the buffer full. -/
theorem takeSegment_overrun (hfull : 65536 < (u.stall n).heldBytes + bytes) (hn : n < 2 ^ 20) :
    ((u.takeSegment n f line x px bytes).stall n).buf = (u.stall n).buf ∧
    (u.takeSegment n f line x px bytes).get F.CTX_COUNT2_PIXEL_OVERRUN f.ctx = min (u.get F.CTX_COUNT2_PIXEL_OVERRUN f.ctx + 1) 65535 := by
  have hkey {r : Reg} {i : Nat} (hr : r.ctorIdx < 172) (hi : i < 2 ^ 20) : regKey .CTX_COUNT2 f.ctx ≠ regKey r i := by
    have : Reg.CTX_COUNT2.ctorIdx = 172 := rfl
    unfold regKey
    omega
  unfold State.takeSegment
  extract_lets w lineErr px1 s0 s1 s2 gap e f1 g r
  rw [if_neg hin, if_pos ⟨by rw [hby]; decide, hfull⟩]
  have h0 : s0.get F.CTX_COUNT2_PIXEL_OVERRUN f.ctx = u.get F.CTX_COUNT2_PIXEL_OVERRUN f.ctx :=
    get_congr (lineCut_regsBut u n f x px _ _ (List.forall_mem_singleton.mpr (hkey (r := .STALL_FRAME_ERR) (by decide) hn)))
  have hyard : RegsBut [(.YARD_GLOBAL, 0)] s1 s2 := by
    unfold s2
    split
    · exact .refl _ _
    · exact raiseYard_regsBut s1 _ _
  have h2 : s2.get F.CTX_COUNT2_PIXEL_OVERRUN f.ctx = s1.get F.CTX_COUNT2_PIXEL_OVERRUN f.ctx :=
    get_congr (hyard _ _ (List.forall_mem_singleton.mpr (hkey (r := .YARD_GLOBAL) (by decide) (by decide))))
  have hstalls : s2.stalls = u.stalls := by
    unfold s2
    simp only [apply_ite State.stalls, raiseYard_stalls, ite_self]
    exact (congrArg State.stalls (lineCut_frame u n f x px) :)
  constructor
  · rw [stall_modStall_same]
    exact (congrArg Stall.buf (stall_congr hstalls n) :)
  · exact h2.trans ((get_inc_same s0 _ _ (by decide)).trans (by rw [h0]; rfl))

/-- The frame with `k` pixels taken at column `x` of `line`. -/
def Frame.grown (f : Frame) (line x k now : Nat) : Frame :=
  { f with
    line := if x + k = f.hdr.width then line + 1 else line, col := if x + k = f.hdr.width then 0 else x + k
    pkts := f.pkts + 1, incomplete := f.incomplete || (line != f.line || x != f.col), lastPkt := now }

/-- A segment that fits joins the buffer. -/
theorem takeSegment_fits (hroom : (u.stall n).heldBytes + bytes ≤ 65536) :
    u.takeSegment n f line x px bytes = (u.lineCut n f x px).modStall n fun y =>
      { y with frame := some (f.grown line x (px.take (f.hdr.width - x)).length u.now)
               buf := y.buf ++ [⟨line, x, px.take (f.hdr.width - x), bytes⟩] } := by
  unfold State.takeSegment
  extract_lets w lineErr px1 s0 s1 s2 gap e f1 g r
  rw [if_neg hin, if_neg (by omega), hby, if_neg (by decide)]
  rfl

/-- A gap before it marks the frame. -/
theorem takeSegment_fits_effect (hroom : (u.stall n).heldBytes + bytes ≤ 65536) :
    ((u.takeSegment n f line x px bytes).stall n).buf = (u.stall n).buf ++ [⟨line, x, px.take (f.hdr.width - x), bytes⟩] ∧
    (∃ g, ((u.takeSegment n f line x px bytes).stall n).frame = some g ∧ g.pkts = f.pkts + 1 ∧ g.hdr = f.hdr ∧ g.lastPkt = u.now ∧
      (f.line ≠ line ∨ f.col ≠ x → g.incomplete = true)) ∧
    RegsBut [(.STALL_FRAME_ERR, n)] u (u.takeSegment n f line x px bytes) ∧
    { u.takeSegment n f line x px bytes with regs := u.regs, stalls := u.stalls } = u := by
  have hcut := lineCut_frame u n f x px
  have hstall : (u.lineCut n f x px).stall n = u.stall n := stall_congr (congrArg State.stalls hcut :) n
  rw [takeSegment_fits hin hby hroom, stall_modStall_same, hstall]
  refine ⟨rfl, ⟨_, rfl, rfl, rfl, rfl, fun hgap => ?_⟩, (lineCut_regsBut u n f x px).trans (.of_regs rfl _),
    (congrArg (fun t : State => { t with stalls := u.stalls }) hcut :)⟩
  have : (line != f.line || x != f.col) = true := by
    simp only [Bool.or_eq_true, bne_iff_ne]
    omega
  simp [Frame.grown, this]

end Line

/-! ### The packets of a frame act -/

section Settle

variable {n : Fin 16} {fseq : Fin 256} {param : BitVec 32} {body : List Byte} {crc : BitVec 32} {e : Bool} {tick : Nat} {room : Bool} {s u : State}

/-- A Frame Start that is passed on while no frame is in progress is judged. -/
theorem frameStartReceived_judged (hc : (s.reach tick).rxCheck n (rxOf 1 fseq param body crc e tick) = (true, u))
    (hb : bit (u.rd .PAIR_CFG) (32 + n.val) = false) (hf : (u.stall n).frame = none) (hh : (u.stall n).held = none) :
    exec (.frameStartReceived n fseq param body crc e tick room) s =
      .next (u.judgeFrame n (u.headerOf n (rxOf 1 fseq param body crc e tick))) := by
  refine congrArg Host.Outcome.next ((rxFrame_passed hc hb room).trans ?_)
  rw [framePacket_free hh]
  exact frameStart_idle hf

theorem lineReceived_acts (hc : (s.reach tick).rxCheck n (rxOf 2 fseq param body crc e tick) = (true, u))
    (hb : bit (u.rd .PAIR_CFG) (32 + n.val) = false) (hh : (u.stall n).held = none) :
    exec (.lineReceived n fseq param body crc e tick room) s = .next (u.linePacket n (rxOf 2 fseq param body crc e tick)) := by
  refine congrArg Host.Outcome.next ((rxFrame_passed hc hb room).trans ?_)
  rw [framePacket_free hh]
  rfl

theorem frameEndReceived_acts (hc : (s.reach tick).rxCheck n (rxOf 3 fseq param body crc e tick) = (true, u))
    (hb : bit (u.rd .PAIR_CFG) (32 + n.val) = false) (hh : (u.stall n).held = none) :
    exec (.frameEndReceived n fseq param body crc e tick room) s = .next (u.frameEnd n (rxOf 3 fseq param body crc e tick)) := by
  refine congrArg Host.Outcome.next ((rxFrame_passed hc hb room).trans ?_)
  rw [framePacket_free hh]
  rfl

/-- A Line of the open frame is taken as a segment. -/
theorem linePacket_open {f : Frame} {p : Rx} (hf : u.openFrame n = some f) (hid : f.hdr.id % 256 = p.fseq) :
    u.linePacket n p = u.takeSegment n f (p.param % 65536) (p.param / 65536) (linePixels f.hdr p.body) p.body.length := by
  unfold State.linePacket
  rw [hf]
  exact if_pos hid

theorem linePacket_none {p : Rx} (hf : u.openFrame n = none) : u.linePacket n p = u.orphan n p.fseq := by
  unfold State.linePacket
  rw [hf]

theorem frameEnd_open {f : Frame} {p : Rx} (hf : u.openFrame n = some f) (hid : f.hdr.id = p.param) :
    u.frameEnd n p = u.closeFrame n (p.num 0 4 != f.pkts || p.num 4 4 % 4 != 0) := by
  unfold State.frameEnd
  rw [hf]
  exact if_pos hid

theorem frameEnd_none {p : Rx} (hf : u.openFrame n = none) (hs : (u.stall n).skip = none) :
    u.frameEnd n p = u.stAdd F.STALL_PKT_ERR_BAD_FIELD n 1 := by
  unfold State.frameEnd
  rw [hf, hs]

theorem orphan_counted {q : Nat} (hs : (u.stall n).skip = none) : u.orphan n q = u.stAdd F.STALL_FRAME_ERR_ORPHAN_LINE n 1 := by
  unfold State.orphan
  rw [hs]

theorem orphan_skipped {q : Nat} (hs : (u.stall n).skip = some (q, false)) : u.orphan n q = u := by
  unfold State.orphan
  rw [hs]
  exact if_pos ⟨rfl, rfl⟩

end Settle

end Sys2Proof.Machine

/-! SUPPORT. The statement O14, clause by clause (R154 to R166, R207 to R210). -/

namespace Sys2Proof.Machine

/-! ### The clauses of O14 -/

/-- The one length of a Frame Start. -/
theorem Rx.badLength_start {p : Rx} (ht : p.type = 1) : p.badLength = false ↔ p.body.length = 12 := by
  have h : p.badLength = (decide (p.body.length < 12) || decide (12 < p.body.length)) := by
    unfold Rx.badLength
    rw [ht]
    rfl
  rw [h, Bool.or_eq_false_iff, decide_eq_false_iff_not, decide_eq_false_iff_not]
  omega

/-- A lost Frame Start: the first check that it fails is counted, and its packets will be known by its FSEQ. -/
theorem rxCheck_lostStart {n : Nat} {p : Rx} {s u : State} (h : s.rxCheck n p = (false, u)) (hp : s.pathOpen n p.type = true)
    (hl : (s.stall n).lost = false) (ht : p.type = 1) (hlen : p.body.length = 12) :
    (p.errored = true → u.get F.STALL_PKT_ERR_ERRORED n = min (s.get F.STALL_PKT_ERR_ERRORED n + 1) 65535) ∧
    (p.errored = false → p.good = false → u.get F.STALL_PKT_ERR_CRC_ERR n = min (s.get F.STALL_PKT_ERR_CRC_ERR n + 1) 65535) ∧
    (p.errored = false → p.good = true → u.get F.STALL_PKT_ERR_BAD_FIELD n = min (s.get F.STALL_PKT_ERR_BAD_FIELD n + 1) 65535) ∧
    (u.stall n).skip = some (p.fseq, true) ∧ (u.stall n).gapPend = true := by
  obtain ⟨hcount, hskip, hgap⟩ := rxCheck_refused_counts h hp hl ht ((Rx.badLength_start ht).mpr hlen)
  refine ⟨fun he => ?_, fun he hg => ?_, fun he hg => ?_, hskip, hgap⟩
  · simpa [Rx.errCount, he] using hcount
  · simpa [Rx.errCount, he, hg] using hcount
  · simpa [Rx.errCount, he, hg] using hcount

section Clauses

variable {n : Fin 16} {fseq : Fin 256} {param : BitVec 32} {body : List Byte} {crc : BitVec 32} {e : Bool} {tick : Nat} {room : Bool} {s u : State}

section Start

variable (hc : (s.reach tick).rxCheck n (rxOf 1 fseq param body crc e tick) = (true, u)) (hb : bit (u.rd .PAIR_CFG) (32 + n.val) = false)
  (hf : (u.stall n).frame = none) (hh : (u.stall n).held = none)
include hc hb hf hh

/-- A Frame Start that nothing takes. -/
theorem frameStartReceived_discarded (hx : u.ctxOfStall n = none ∨ u.capturing = false) :
    ∃ t, exec (.frameStartReceived n fseq param body crc e tick room) s = .next t ∧
      t.get F.STALL_FRAME_ERR_FS_DISCARDED n = min (u.get F.STALL_FRAME_ERR_FS_DISCARDED n + 1) 65535 ∧
      (t.stall n).frame = none ∧ (t.stall n).skip = some (param.toNat % 256, false) ∧
      RegsBut [(.STALL_FRAME_ERR, n.val)] u t ∧ { t with regs := u.regs, stalls := u.stalls } = u := by
  obtain ⟨hcount, hframe, hskip, hregs, hrest⟩ := fsDiscard_effect (u := u) n.isLt (param.toNat % 256)
  refine ⟨_, (frameStartReceived_judged hc hb hf hh).trans (congrArg _ (judgeFrame_discards hx)), hcount, hframe.trans hf, hskip, hregs, hrest⟩

variable {c : Nat} (k : PlainCtx u n c)
include k

/-- A Frame Start for a busy bay. -/
theorem frameStartReceived_overrun (hbusy : u.bayBusy (cChute ((u.active c).getD [])) (cBay ((u.active c).getD [])) = true) :
    ∃ t, exec (.frameStartReceived n fseq param body crc e tick room) s = .next t ∧ (t.stall n).frame = none ∧
      t.get F.CTX_COUNT_OVERRUN c = min (u.get F.CTX_COUNT_OVERRUN c + 1) 65535 := by
  have hk := k.lt
  obtain ⟨hover, -, hframe⟩ := refuseFrame_effect (u := u) (n := n.val) (c := c) (k := cChute ((u.active c).getD [])) (by omega)
    ((bits_lt _ _ _).trans (by decide)) (param.toNat % 256)
  exact ⟨_, (frameStartReceived_judged hc hb hf hh).trans (congrArg _ (k.judgeFrame.trans (if_pos hbusy))), (hframe _).trans hf, hover⟩

variable (hfree : u.bayBusy (cChute ((u.active c).getD [])) (cBay ((u.active c).getD [])) = false)
include hfree

/-- A Frame Start of another width than its context's. -/
theorem frameStartReceived_mismatch (hw : (u.headerOf n (rxOf 1 fseq param body crc e tick)).width ≠ cWidth ((u.active c).getD [])) :
    ∃ t, exec (.frameStartReceived n fseq param body crc e tick room) s = .next t ∧ (t.stall n).frame = none ∧
      t.get F.CTX_COUNT_GEOM_MISMATCH c = min (u.get F.CTX_COUNT_GEOM_MISMATCH c + 1) 65535 := by
  have hk := k.lt
  obtain ⟨-, hgeom, hframe⟩ := refuseFrame_effect (u := u) (n := n.val) (c := c) (k := cChute ((u.active c).getD [])) (by omega)
    ((bits_lt _ _ _).trans (by decide)) (param.toNat % 256)
  exact ⟨_, (frameStartReceived_judged hc hb hf hh).trans
    (congrArg _ (k.judgeFrame.trans ((if_neg (by simp [hfree])).trans (if_pos (.inl hw))))), (hframe _).trans hf, hgeom⟩

/-- A Frame Start of the right geometry opens its frame. -/
theorem frameStartReceived_opens (hw : (u.headerOf n (rxOf 1 fseq param body crc e tick)).width = cWidth ((u.active c).getD []))
    (hht : (u.headerOf n (rxOf 1 fseq param body crc e tick)).height = cHeight ((u.active c).getD []))
    (hd : (u.headerOf n (rxOf 1 fseq param body crc e tick)).depth = cfield ((u.active c).getD []) 0x010 32 3) :
    ∃ t, exec (.frameStartReceived n fseq param body crc e tick room) s = .next t ∧
      (∃ f, (t.stall n).frame = some f ∧ f.hdr.id = param.toNat ∧ f.ctx = c ∧ f.closed = none ∧ f.pkts = 0) ∧
      (t.stall n).ref = some param.toNat ∧ t.get F.STALL_PROTO_STATUS_FRAME_OPEN n = 1 ∧
      t.get F.STALL_FRAME_ID_LAST_FRAME_ID n = param.toNat ∧ (∃ v ∈ t.yard.raised, v.id = 64 + 4 * n.val) :=
  ⟨_, (frameStartReceived_judged hc hb hf hh).trans
    (congrArg _ (k.judgeFrame.trans ((if_neg (by simp [hfree])).trans (if_neg (by simp [hw, hht, hd]))))),
    acceptFrame_effect (h := u.headerOf n (rxOf 1 fseq param body crc e tick)) n.isLt c param.isLt⟩

end Start

section Line

variable (hc : (s.reach tick).rxCheck n (rxOf 2 fseq param body crc e tick) = (true, u)) (hb : bit (u.rd .PAIR_CFG) (32 + n.val) = false)
  (hh : (u.stall n).held = none)
include hc hb hh

theorem lineReceived_segment {f : Frame} (hf : u.openFrame n = some f) (hid : f.hdr.id % 256 = fseq.val) :
    exec (.lineReceived n fseq param body crc e tick room) s =
      .next (u.takeSegment n f (param.toNat % 65536) (param.toNat / 65536) (linePixels f.hdr body) body.length) :=
  (lineReceived_acts hc hb hh).trans (congrArg _ (linePacket_open (p := rxOf 2 fseq param body crc e tick) hf hid))

/-- A Line without a frame is an orphan, unless its Frame Start was discarded. -/
theorem lineReceived_orphan (hf : u.openFrame n = none) :
    ((u.stall n).skip = none → ∃ t, exec (.lineReceived n fseq param body crc e tick room) s = .next t ∧
      t.get F.STALL_FRAME_ERR_ORPHAN_LINE n = min (u.get F.STALL_FRAME_ERR_ORPHAN_LINE n + 1) 65535 ∧
      OnlyRegs [(.STALL_FRAME_ERR, n.val)] u t) ∧
    ((u.stall n).skip = some (fseq.val, false) → exec (.lineReceived n fseq param body crc e tick room) s = .next u) := by
  have hexec := (lineReceived_acts (room := room) hc hb hh).trans (congrArg _ (linePacket_none (p := rxOf 2 fseq param body crc e tick) hf))
  exact ⟨fun hs => ⟨_, hexec.trans (congrArg _ (orphan_counted hs)), stAdd_effect n.isLt (g := F.STALL_FRAME_ERR_ORPHAN_LINE) (by decide)⟩,
    fun hs => hexec.trans (congrArg _ (orphan_skipped hs))⟩

/-- A Line of the open frame, by its place in the frame and the room in the buffer. -/
theorem lineReceived_open {f : Frame} (hf : u.openFrame n = some f) (hid : f.hdr.id % 256 = fseq.val) (hby : cBypass f.copy = false) :
    (param.toNat % 65536 < f.line ∨ param.toNat % 65536 = f.line ∧ param.toNat / 65536 < f.col ∨
        f.hdr.height ≤ param.toNat % 65536 ∨ f.hdr.width ≤ param.toNat / 65536 →
      ∃ t, exec (.lineReceived n fseq param body crc e tick room) s = .next t ∧
        t.get F.STALL_FRAME_ERR_LINE_ERR n = min (u.get F.STALL_FRAME_ERR_LINE_ERR n + 1) 65535 ∧ OnlyRegs [(.STALL_FRAME_ERR, n.val)] u t) ∧
    (f.line < param.toNat % 65536 ∨ f.line = param.toNat % 65536 ∧ f.col ≤ param.toNat / 65536 → param.toNat % 65536 < f.hdr.height →
      param.toNat / 65536 < f.hdr.width →
      (65536 < (u.stall n).heldBytes + body.length →
        ∃ t, exec (.lineReceived n fseq param body crc e tick room) s = .next t ∧ (t.stall n).buf = (u.stall n).buf ∧
          t.get F.CTX_COUNT2_PIXEL_OVERRUN f.ctx = min (u.get F.CTX_COUNT2_PIXEL_OVERRUN f.ctx + 1) 65535) ∧
      ((u.stall n).heldBytes + body.length ≤ 65536 →
        ∃ t, exec (.lineReceived n fseq param body crc e tick room) s = .next t ∧
          (t.stall n).buf = (u.stall n).buf ++ [⟨param.toNat % 65536, param.toNat / 65536,
            (linePixels f.hdr body).take (f.hdr.width - param.toNat / 65536), body.length⟩] ∧
          (∃ g, (t.stall n).frame = some g ∧ g.pkts = f.pkts + 1 ∧ g.hdr = f.hdr ∧ g.lastPkt = u.now ∧
            (f.line ≠ param.toNat % 65536 ∨ f.col ≠ param.toNat / 65536 → g.incomplete = true)) ∧
          RegsBut [(.STALL_FRAME_ERR, n.val)] u t ∧ { t with regs := u.regs, stalls := u.stalls } = u)) := by
  have hexec := lineReceived_segment (room := room) hc hb hh hf hid
  refine ⟨fun herr => ?_, fun hpos hy hx => ?_⟩
  · exact ⟨_, hexec.trans (congrArg _ (takeSegment_lineErr herr)), stAdd_effect n.isLt (g := F.STALL_FRAME_ERR_LINE_ERR) (by decide)⟩
  · have hin : ¬ (param.toNat % 65536 < f.line ∨ param.toNat % 65536 = f.line ∧ param.toNat / 65536 < f.col ∨
        f.hdr.height ≤ param.toNat % 65536 ∨ f.hdr.width ≤ param.toNat / 65536) := by omega
    exact ⟨fun hfull => ⟨_, hexec, takeSegment_overrun hin hby hfull (by omega)⟩,
      fun hroom => ⟨_, hexec, takeSegment_fits_effect hin hby hroom⟩⟩

end Line

/-- A Frame End of the open frame closes it; one without a frame counts. -/
theorem frameEndReceived_effect (hc : (s.reach tick).rxCheck n (rxOf 3 fseq param body crc e tick) = (true, u))
    (hb : bit (u.rd .PAIR_CFG) (32 + n.val) = false) (hh : (u.stall n).held = none) :
    (∀ f, u.openFrame n = some f → f.hdr.id = param.toNat →
      ∃ t, exec (.frameEndReceived n fseq param body crc e tick room) s = .next t ∧ t.openFrame n = none ∧
        t.get F.STALL_PROTO_STATUS_FRAME_OPEN n = 0 ∧ (∃ v ∈ t.yard.raised, v.id = 64 + 4 * n.val + 1) ∧
        t.get F.STALL_FRAME_ERR_INCOMPLETE n =
          (if f.incomplete = true ∨ natOfBytes (body.take 4) ≠ f.pkts ∨ natOfBytes ((body.drop 4).take 4) % 4 ≠ 0 ∨ f.line ≠ f.hdr.height
           then min (u.get F.STALL_FRAME_ERR_INCOMPLETE n + 1) 65535 else u.get F.STALL_FRAME_ERR_INCOMPLETE n)) ∧
    (u.openFrame n = none → (u.stall n).skip = none →
      ∃ t, exec (.frameEndReceived n fseq param body crc e tick room) s = .next t ∧
        t.get F.STALL_PKT_ERR_BAD_FIELD n = min (u.get F.STALL_PKT_ERR_BAD_FIELD n + 1) 65535 ∧ OnlyRegs [(.STALL_PKT_ERR, n.val)] u t) := by
  have hexec := frameEndReceived_acts (room := room) hc hb hh
  refine ⟨fun f hf hid => ?_, fun hf hs => ?_⟩
  · have hclose := hexec.trans (congrArg _ (frameEnd_open (p := rxOf 3 fseq param body crc e tick) hf hid))
    obtain ⟨hopen, hshown, hraised, hcount⟩ := closeFrame_effect n.isLt hf
      (natOfBytes (body.take 4) != f.pkts || natOfBytes ((body.drop 4).take 4) % 4 != 0)
    refine ⟨_, hclose, hopen, hshown, hraised, hcount.trans (if_congr ?_ rfl rfl)⟩
    simp only [Bool.or_eq_true, bne_iff_ne, or_assoc]
  · exact ⟨_, hexec.trans (congrArg _ (frameEnd_none hf hs)), stAdd_effect n.isLt (g := F.STALL_PKT_ERR_BAD_FIELD) (by decide)⟩

end Clauses

/-- A held Frame Start waits for the frame before it, and is then judged (R207). -/
theorem heldFrameStartRelease_effect (n : Fin 20) (s : State) :
    ((s.stall n).held = none ∨ (s.stall n).frame.isSome = true → exec (.heldFrameStartRelease n) s = .next s) ∧
    (∀ h, (s.stall n).held = some h → (s.stall n).frame = none → (s.stall n).heldPkts = [] →
      ∃ t, exec (.heldFrameStartRelease n) s = .next t ∧
        t = (s.modStall n fun x => { x with held := none, heldPkts := [] }).judgeFrame n h ∧ (t.stall n).held = none) := by
  have hexec : exec (.heldFrameStartRelease n) s = execHeldFrameStartRelease n s := rfl
  rw [hexec]
  unfold execHeldFrameStartRelease
  constructor
  · intro h
    split
    · next hh hf =>
      rcases h with h | h
      · rw [h] at hh; cases hh
      · rw [hf] at h; cases h
    · rfl
  · intro h hh hf hq
    rw [hh, hf]
    dsimp only
    rw [hq]
    refine ⟨_, rfl, rfl, ?_⟩
    have hmoves := judgeFrame_moves (s.modStall n fun x => { x with held := none, heldPkts := [] }) n h
    refine (congrArg Stall.held hmoves.record :).trans ?_
    rw [stall_modStall_same]
    rfl

/-- FRAME_TIMEOUT closes the open frame INCOMPLETE (R162). -/
theorem frameTimeout_effect (n : Fin 16) (s : State) :
    (s.openFrame n = none ∨ s.get F.STALL_PROTO_CFG_FRAME_TIMEOUT n = 0 → exec (.frameTimeout (n.castLE (by decide))) s = .next s) ∧
    (∀ f, s.openFrame n = some f → s.get F.STALL_PROTO_CFG_FRAME_TIMEOUT n ≠ 0 →
      ∃ t, exec (.frameTimeout (n.castLE (by decide))) s = .next t ∧ t.openFrame n = none ∧
        t.get F.STALL_FRAME_ERR_INCOMPLETE n = min (s.get F.STALL_FRAME_ERR_INCOMPLETE n + 1) 65535 ∧
        t.now = max s.now (f.lastPkt + 4000 * s.get F.STALL_PROTO_CFG_FRAME_TIMEOUT n)) := by
  have hexec : exec (.frameTimeout (n.castLE (by decide))) s = execFrameTimeout (n.castLE (by decide)) s := rfl
  rw [hexec]
  unfold execFrameTimeout
  constructor
  · intro h
    dsimp only [Fin.val_castLE]
    split
    · rfl
    · next f hf =>
      rcases h with h | h
      · rw [h] at hf; cases hf
      · exact congrArg _ (if_pos (.inl h))
  · intro f hf ht
    dsimp only [Fin.val_castLE]
    rw [hf]
    let r := s.reach (f.lastPkt + 4000 * s.get F.STALL_PROTO_CFG_FRAME_TIMEOUT n)
    obtain ⟨hopen, -, -, hcount⟩ := closeFrame_effect (s := r) n.isLt (f := f) hf true
    refine ⟨_, congrArg _ (if_neg (by omega)), hopen, ?_, (closeFrame_moves r (by omega) true).now⟩
    exact hcount.trans (if_pos (by simp))

/-! ### The statement O14 -/

/-- Settles O14 (R154 to R166, R207 to R210): packets that fail their checks, Frame Starts, Lines, Frame Ends, a held Frame Start and the
frame time-out. -/
theorem framePacketsOpenFillAndCloseFrames : Obligations.FramePacketsOpenFillAndCloseFrames := by
  refine ⟨fun n fseq param body crc e tick room s u => ⟨fun h => ?_, fun h => ?_, fun h => ?_⟩, fun n p s u h => ?_,
    fun n fseq param body crc e tick room s u hc hb hf hh => ⟨frameStartReceived_discarded hc hb hf hh,
      fun c h1 h2 h3 h4 h5 h6 h7 h8 => ?_⟩,
    fun n fseq param body crc e tick room s u hc hb hh => ⟨fun f => lineReceived_open hc hb hh, lineReceived_orphan hc hb hh⟩,
    fun n fseq param body crc e tick room s u => frameEndReceived_effect, heldFrameStartRelease_effect, frameTimeout_effect⟩
  · exact congrArg Host.Outcome.next (rxFrame_refused h room)
  · exact congrArg Host.Outcome.next (rxFrame_refused h room)
  · exact congrArg Host.Outcome.next (rxFrame_refused h room)
  · obtain ⟨hregs, hrest, hframe, hclosed⟩ := rxCheck_refused_keeps h
    exact ⟨hregs, hrest, hframe, hclosed, fun hp hl ht hlen => rxCheck_lostStart h hp hl ht hlen,
      fun hp hl ht hlen => rxCheck_refused_length h hp hl (by simpa using mt (Rx.badLength_start ht).mp hlen)⟩
  · have k : PlainCtx u n c := ⟨h1, h2, h3, h4, h5, h6, h7, h8⟩
    exact ⟨frameStartReceived_overrun hc hb hf hh k, fun hfree => ⟨frameStartReceived_mismatch hc hb hf hh k hfree,
      frameStartReceived_opens hc hb hf hh k hfree⟩⟩

end Sys2Proof.Machine

/-! SUPPORT. Triggers (R167 to R170, R521, R604): an event that asks for one, and a commit that counts it unsent or sends it. -/

namespace Sys2Proof.Machine

/-! ### YARD_CAMERA_TRIGGER (R604) -/

section Requested

variable {n : Fin 16} {s u : State}

/-- The Trigger that an event of tick `tk` asks for, with a free ARG. -/
def State.yardTrig (u : State) (n tk : Nat) : Trig :=
  ⟨tk + u.get F.STALL_TRIG_CFG_YARD_DELAY n, u.get F.STALL_PROTO_CFG_YARD_TRIG_ACTION n, bits u.fresh.1 0 8, true, none⟩

theorem yardCameraTrigger_none (h : s.takeEvent (288 + n.val) = none) : exec (.yardCameraTrigger n) s = .next s := by
  change execYardCameraTrigger n s = _
  unfold execYardCameraTrigger
  rw [h]

theorem yardCameraTrigger_some {tk : Nat} (h : s.takeEvent (288 + n.val) = some (tk, u)) :
    exec (.yardCameraTrigger n) s = .next (if 4 ≤ ((u.stall n).trigs.filter (·.yard)).length then u
      else u.fresh.2.trigRequest n (u.yardTrig n tk)) := by
  change execYardCameraTrigger n s = _
  unfold execYardCameraTrigger
  rw [h]
  rfl

theorem trigRequest_queued (g : Trig) (h : u.trigOk n = true) :
    u.trigRequest n g = u.modStall n fun x => { x with trigs := x.trigs ++ [g] } := if_pos h

theorem trigRequest_unsent (g : Trig) (h : u.trigOk n = false) : u.trigRequest n g = u.inc F.STALL_TRIG_COUNT_TRIG_UNSENT n :=
  if_neg (by simp [h])

/-- An event is dropped, queued as a Trigger, or counted unsent. -/
theorem yardCameraTrigger_effect (n : Fin 16) (s : State) :
    (s.takeEvent (288 + n.val) = none → exec (.yardCameraTrigger n) s = .next s) ∧
    (∀ tk u, s.takeEvent (288 + n.val) = some (tk, u) →
      (4 ≤ ((u.stall n).trigs.filter (·.yard)).length → exec (.yardCameraTrigger n) s = .next u) ∧
      (((u.stall n).trigs.filter (·.yard)).length < 4 → u.trigOk n = true →
        ∃ t g, exec (.yardCameraTrigger n) s = .next t ∧ (t.stall n).trigs = (u.stall n).trigs ++ [g] ∧
          g.target = tk + u.get F.STALL_TRIG_CFG_YARD_DELAY n ∧ g.action = u.get F.STALL_PROTO_CFG_YARD_TRIG_ACTION n ∧
          g.yard = true ∧ { t with stalls := u.stalls, frees := u.frees } = u) ∧
      (((u.stall n).trigs.filter (·.yard)).length < 4 → u.trigOk n = false →
        ∃ t, exec (.yardCameraTrigger n) s = .next t ∧ (t.stall n).trigs = (u.stall n).trigs ∧
          t.get F.STALL_TRIG_COUNT_TRIG_UNSENT n = min (u.get F.STALL_TRIG_COUNT_TRIG_UNSENT n + 1) 65535)) := by
  refine ⟨yardCameraTrigger_none, fun tk u h => ?_⟩
  have hexec := yardCameraTrigger_some h
  refine ⟨fun hfull => hexec.trans (congrArg _ (if_pos hfull)), fun hroom hok => ?_, fun hroom hok => ?_⟩
  · have ht := hexec.trans (congrArg _ (if_neg (by omega)))
    refine ⟨_, u.yardTrig n tk, ht.trans (congrArg _ (trigRequest_queued (u := u.fresh.2) _ hok)), ?_, rfl, rfl, rfl, rfl⟩
    exact (congrArg Stall.trigs (stall_modStall_same u.fresh.2 n _) :)
  · have ht := hexec.trans (congrArg _ (if_neg (by omega)))
    exact ⟨_, ht.trans (congrArg _ (trigRequest_unsent (u := u.fresh.2) _ hok)), rfl, get_inc_same u.fresh.2 _ _ (by decide)⟩

end Requested

/-! ### TRIGGER_COMMIT (R168 to R170, R521) -/

/-- The state as Trigger `g` is committed: its lead has come, and it leaves its queue. -/
def State.trigTaken (s : State) (n : Nat) (g : Trig) : State :=
  (s.reach (s.trigLead n g).toNat).modStall n fun x => { x with trigs := x.trigs.erase g }

/-- It takes the next TRIG_ID. -/
def State.trigNumbered (s : State) (n : Nat) : State := s.modStall n fun x => { x with trigId := (x.trigId + 1) % 2 ^ 32 }

/-- It is counted as sent, and as late where its delay is negative. -/
def State.trigCounted (s : State) (n : Nat) (late : Prop) [Decidable late] : State :=
  if late then (s.incWrap F.STALL_TRIG_COUNT_TRIG_SENT n).inc F.STALL_TRIG_COUNT_TRIG_LATE n else s.incWrap F.STALL_TRIG_COUNT_TRIG_SENT n

/-- An EXPOSE Trigger is remembered with its target (R166). -/
def State.trigFired (s : State) (n : Nat) (g : Trig) (id : Nat) (target : Int) : State :=
  if g.action = 1 then s.modStall n fun x => { x with fired := (id, target.toNat) :: x.fired.take 15 } else s

/-- When a Trigger sent now arrives at the camera (R168). -/
def State.trigArrival (s : State) (n tx : Nat) (g : Trig) : Int :=
  (max tx (s.trigTaken n g).now : Nat) + (s.get F.STALL_LATENCY_ONE_WAY n : Int)

/-- The instant that the Trigger aims at: its target, or its own arrival where it asks for none. -/
def State.trigTarget (s : State) (n tx : Nat) (g : Trig) : Int :=
  if g.target = 0 ∧ g.yard = false then s.trigArrival n tx g + signed 16 (s.get F.STALL_TRIG_CFG_COMP n) else g.target

/-- Its ACT_DELAY before it is cut at 0 (R168). -/
def State.trigDelay (s : State) (n tx : Nat) (g : Trig) : Int :=
  s.trigTarget n tx g - signed 16 (s.get F.STALL_TRIG_CFG_COMP n) - s.trigArrival n tx g

/-- The packet of a Trigger (Table 4.6). -/
def trigPacket (id : Nat) (delay : Int) (g : Trig) : List Byte :=
  packetWhole 0x20 0 id (bytesOfNat 2 (delay.toNat % 65536) ++ bytesOfNat 1 g.action ++ bytesOfNat 1 g.arg)

/-- The Trigger is numbered, counted and remembered, before its packet leaves. -/
def State.trigReady (s : State) (n tx : Nat) (g : Trig) : State :=
  (((s.trigTaken n g).trigNumbered n).trigCounted n (s.trigDelay n tx g < 0)).trigFired n g (s.stall n).trigId (s.trigTarget n tx g)

theorem State.trigDelay_of_target {s : State} {n tx : Nat} {g : Trig} (hg : g.target ≠ 0) :
    s.trigDelay n tx g = (g.target : Int) - signed 16 (s.get F.STALL_TRIG_CFG_COMP n) - (max tx (s.trigTaken n g).now : Nat) -
      s.get F.STALL_LATENCY_ONE_WAY n := by
  have htarget : s.trigTarget n tx g = g.target := if_neg fun h => hg h.1
  unfold State.trigDelay State.trigArrival
  omega

section Commit

variable {n : Fin 16} {tx : Nat} {gone : Bool} {s : State} {g : Trig}

theorem triggerCommit_none (h : s.trigNext n = none) : exec (.triggerCommit n tx gone) s = .next s := by
  change execTriggerCommit n tx gone s = _
  unfold execTriggerCommit
  rw [h]

theorem triggerCommit_unsent (h : s.trigNext n = some g) (hok : s.trigOk n = false) :
    exec (.triggerCommit n tx gone) s = .next ((s.trigTaken n g).inc F.STALL_TRIG_COUNT_TRIG_UNSENT n) := by
  have hok' : (s.trigTaken n g).trigOk n = false := hok
  change execTriggerCommit n tx gone s = _
  unfold execTriggerCommit
  rw [h]
  exact congrArg _ (if_pos (by rw [← State.trigTaken, hok']; rfl))

theorem triggerCommit_gone (h : s.trigNext n = some g) (hok : s.trigOk n = true) :
    exec (.triggerCommit n tx true) s = .next (((s.trigTaken n g).trigNumbered n).inc F.STALL_TRIG_COUNT_TRIG_UNSENT n) := by
  have hok' : (s.trigTaken n g).trigOk n = true := hok
  change execTriggerCommit n tx true s = _
  unfold execTriggerCommit
  rw [h]
  exact congrArg _ (if_neg (by rw [← State.trigTaken, hok']; decide))

/-- A Trigger that may be sent is sent with what is left of its delay. -/
theorem triggerCommit_sent (h : s.trigNext n = some g) (hok : s.trigOk n = true) :
    exec (.triggerCommit n tx false) s =
      .next ((s.trigReady n tx g).emit (.camPacket n (trigPacket (s.stall n).trigId (s.trigDelay n tx g) g))) := by
  have hok' : (s.trigTaken n g).trigOk n = true := hok
  have hid : ((s.trigTaken n g).stall n).trigId = (s.stall n).trigId :=
    (congrArg Stall.trigId (stall_modStall_same (s.reach (s.trigLead n g).toNat) n _) :)
  change execTriggerCommit n tx false s = _
  unfold execTriggerCommit
  rw [h]
  refine congrArg _ ((if_neg (by rw [← State.trigTaken, hok']; decide)).trans ?_)
  extract_lets x s2 comp ow t now0 target delay s3 s4 s5
  rw [if_neg (by decide)]
  have hx : x.trigId = (s.stall n).trigId := hid
  unfold s5
  rw [hx]
  rfl

end Commit

/-! ### What a commit leaves -/

section Left

variable {n tx id : Nat} {s : State} {g : Trig} {late : Prop} [Decidable late] {target : Int}

theorem trigTaken_trigs : ((s.trigTaken n g).stall n).trigs = (s.stall n).trigs.erase g :=
  (congrArg Stall.trigs (stall_modStall_same (s.reach (s.trigLead n g).toNat) n _) :)

theorem trigTaken_trigId : ((s.trigTaken n g).stall n).trigId = (s.stall n).trigId :=
  (congrArg Stall.trigId (stall_modStall_same (s.reach (s.trigLead n g).toNat) n _) :)

theorem trigNumbered_trigs : ((s.trigNumbered n).stall n).trigs = (s.stall n).trigs :=
  (congrArg Stall.trigs (stall_modStall_same s n _) :)

theorem trigNumbered_trigId : ((s.trigNumbered n).stall n).trigId = ((s.stall n).trigId + 1) % 2 ^ 32 :=
  (congrArg Stall.trigId (stall_modStall_same s n _) :)

theorem trigCounted_stall : (s.trigCounted n late).stall n = s.stall n := by
  unfold State.trigCounted
  split <;> rfl

theorem trigCounted_sent : (s.trigCounted n late).sent = s.sent := by
  unfold State.trigCounted
  split <;> rfl

theorem trigCounted_now : (s.trigCounted n late).now = s.now := by
  unfold State.trigCounted
  split <;> rfl

theorem trigCounted_count :
    (s.trigCounted n late).get F.STALL_TRIG_COUNT_TRIG_SENT n = (s.get F.STALL_TRIG_COUNT_TRIG_SENT n + 1) % 2 ^ 32 := by
  have hsent : (s.incWrap F.STALL_TRIG_COUNT_TRIG_SENT n).get F.STALL_TRIG_COUNT_TRIG_SENT n =
      (s.get F.STALL_TRIG_COUNT_TRIG_SENT n + 1) % 2 ^ 32 := get_put_same _ _ _ _ (by decide)
  unfold State.trigCounted
  split
  · exact (get_put_beside _ F.STALL_TRIG_COUNT_TRIG_LATE F.STALL_TRIG_COUNT_TRIG_SENT _ _ rfl (by decide)).trans hsent
  · exact hsent

theorem trigCounted_late : (s.trigCounted n late).get F.STALL_TRIG_COUNT_TRIG_LATE n =
    if late then min (s.get F.STALL_TRIG_COUNT_TRIG_LATE n + 1) 65535 else s.get F.STALL_TRIG_COUNT_TRIG_LATE n := by
  have hkeep : (s.incWrap F.STALL_TRIG_COUNT_TRIG_SENT n).get F.STALL_TRIG_COUNT_TRIG_LATE n = s.get F.STALL_TRIG_COUNT_TRIG_LATE n :=
    get_put_beside _ _ _ _ _ rfl (by decide)
  unfold State.trigCounted
  split
  · rw [get_inc_same _ _ _ (by decide), hkeep]
    rfl
  · exact hkeep

theorem trigFired_regs : (s.trigFired n g id target).regs = s.regs := by
  unfold State.trigFired
  split <;> rfl

theorem trigFired_sent : (s.trigFired n g id target).sent = s.sent := by
  unfold State.trigFired
  split <;> rfl

theorem trigFired_now : (s.trigFired n g id target).now = s.now := by
  unfold State.trigFired
  split <;> rfl

theorem trigFired_trigs : ((s.trigFired n g id target).stall n).trigs = (s.stall n).trigs := by
  unfold State.trigFired
  split
  · exact (congrArg Stall.trigs (stall_modStall_same s n _) :)
  · rfl

theorem trigFired_trigId : ((s.trigFired n g id target).stall n).trigId = (s.stall n).trigId := by
  unfold State.trigFired
  split
  · exact (congrArg Stall.trigId (stall_modStall_same s n _) :)
  · rfl

theorem trigReady_trigs : ((s.trigReady n tx g).stall n).trigs = (s.stall n).trigs.erase g := by
  unfold State.trigReady
  rw [trigFired_trigs, trigCounted_stall, trigNumbered_trigs, trigTaken_trigs]

theorem trigReady_trigId : ((s.trigReady n tx g).stall n).trigId = ((s.stall n).trigId + 1) % 2 ^ 32 := by
  unfold State.trigReady
  rw [trigFired_trigId, trigCounted_stall, trigNumbered_trigId, trigTaken_trigId]

theorem trigReady_now : (s.trigReady n tx g).now = max s.now (s.trigLead n g).toNat := by
  unfold State.trigReady
  rw [trigFired_now, trigCounted_now]
  rfl

theorem trigReady_sent : (s.trigReady n tx g).sent = s.sent := by
  unfold State.trigReady
  rw [trigFired_sent, trigCounted_sent]
  rfl

theorem trigReady_count :
    (s.trigReady n tx g).get F.STALL_TRIG_COUNT_TRIG_SENT n = (s.get F.STALL_TRIG_COUNT_TRIG_SENT n + 1) % 2 ^ 32 :=
  (get_congr (rd_congr trigFired_regs _ _)).trans (trigCounted_count)

theorem trigReady_late : (s.trigReady n tx g).get F.STALL_TRIG_COUNT_TRIG_LATE n =
    if s.trigDelay n tx g < 0 then min (s.get F.STALL_TRIG_COUNT_TRIG_LATE n + 1) 65535 else s.get F.STALL_TRIG_COUNT_TRIG_LATE n :=
  (get_congr (rd_congr trigFired_regs _ _)).trans (trigCounted_late)

end Left

/-- A commit takes the Trigger from its queue at its lead, and counts it unsent or sends it (R168 to R170, R521). -/
theorem triggerCommit_effect (n : Fin 16) (tx : Nat) (gone : Bool) (s : State) {g : Trig} (h : s.trigNext n = some g) :
    ∃ t, exec (.triggerCommit n tx gone) s = .next t ∧ (t.stall n).trigs = (s.stall n).trigs.erase g ∧
      t.now = max s.now (s.trigLead n g).toNat ∧
      (s.trigOk n = false → t.sent = s.sent ∧ (t.stall n).trigId = (s.stall n).trigId ∧
        t.get F.STALL_TRIG_COUNT_TRIG_UNSENT n = min (s.get F.STALL_TRIG_COUNT_TRIG_UNSENT n + 1) 65535) ∧
      (s.trigOk n = true → gone = true → t.sent = s.sent ∧ (t.stall n).trigId = ((s.stall n).trigId + 1) % 2 ^ 32 ∧
        t.get F.STALL_TRIG_COUNT_TRIG_UNSENT n = min (s.get F.STALL_TRIG_COUNT_TRIG_UNSENT n + 1) 65535) ∧
      (s.trigOk n = true → gone = false → g.target ≠ 0 → ∀ d : Int,
        d = (g.target : Int) - signed 16 (s.get F.STALL_TRIG_CFG_COMP n) - (max tx t.now : Nat) - s.get F.STALL_LATENCY_ONE_WAY n →
        t.sent = s.sent ++ [.camPacket n (packetWhole 0x20 0 (s.stall n).trigId
          (bytesOfNat 2 (d.toNat % 65536) ++ bytesOfNat 1 g.action ++ bytesOfNat 1 g.arg))] ∧
        (t.stall n).trigId = ((s.stall n).trigId + 1) % 2 ^ 32 ∧
        t.get F.STALL_TRIG_COUNT_TRIG_SENT n = (s.get F.STALL_TRIG_COUNT_TRIG_SENT n + 1) % 2 ^ 32 ∧
        t.get F.STALL_TRIG_COUNT_TRIG_LATE n =
          (if d < 0 then min (s.get F.STALL_TRIG_COUNT_TRIG_LATE n + 1) 65535 else s.get F.STALL_TRIG_COUNT_TRIG_LATE n)) := by
  cases hok : s.trigOk n with
  | false =>
    refine ⟨_, triggerCommit_unsent h hok, trigTaken_trigs, rfl, fun _ => ?_, nofun, nofun⟩
    exact ⟨rfl, trigTaken_trigId, get_inc_same (s.trigTaken n g) _ _ (by decide)⟩
  | true =>
    cases gone with
    | true =>
      refine ⟨_, triggerCommit_gone h hok, trigNumbered_trigs.trans trigTaken_trigs, rfl, nofun, fun _ _ => ?_, nofun⟩
      refine ⟨rfl, ?_, get_inc_same ((s.trigTaken n g).trigNumbered n) _ _ (by decide)⟩
      exact trigNumbered_trigId.trans (by rw [trigTaken_trigId])
    | false =>
      refine ⟨_, triggerCommit_sent h hok, trigReady_trigs, trigReady_now, nofun, nofun, fun _ _ htarget d hd => ?_⟩
      have hdelay : d = s.trigDelay n tx g := by
        rw [hd, State.trigDelay_of_target htarget]
        change _ - ((max tx (s.trigReady n tx g).now : Nat) : Int) - _ = _
        rw [trigReady_now]
        rfl
      subst hdelay
      refine ⟨?_, trigReady_trigId, trigReady_count, trigReady_late⟩
      exact congrArg (· ++ _) trigReady_sent

end Sys2Proof.Machine

/-! SUPPORT. Parallel ports (R185 to R187, R200 to R202): their registers and their open frame, beside the stall's frame that they fill. -/

namespace Sys2Proof.Machine

/-! ### What a link's change of state leaves (R123, R162, R178) -/

/-- The registers of a stall that may follow its link's state. -/
def linkRegs : List Reg :=
  frameRegs ++ [.STALL_LINK_STATUS, .STALL_LM_CTRL, .STALL_LATENCY, .STALL_CTRL_STATUS, .STALL_CTRL_ERR, .STALL_PATH_ERR]

theorem StallMoves.foldl {α β : Type} {l : List Reg} {keep : Stall → α} {n : Nat} {s t : State} (h : StallMoves l keep n s t) {xs : List β}
    {f : State → β → State} (hf : ∀ a, ∀ x ∈ xs, StallMoves l keep n a (f a x)) : StallMoves l keep n s (xs.foldl f t) :=
  List.foldlRecOn (motive := fun a => StallMoves l keep n s a) xs f h fun a ha x hx => ha.trans (hf a x hx)

theorem openFrame_congr {s t : State} {n : Nat} (h : (t.stall n).frame = (s.stall n).frame) : t.openFrame n = s.openFrame n := by
  unfold State.openFrame
  rw [h]

section Link

variable (s : State) {n : Nat} (hn : n < 2 ^ 20)
include hn

theorem showIds_moves : StallMoves linkRegs Stall.frame n s (s.showIds n) :=
  (((StallMoves.refl _ _ n s).put _ _ (by decide) hn).put _ _ (by decide) hn).put _ _ (by decide) hn

/-- A completion is counted or pushed; the stall's record stands. -/
theorem ctlComplete_moves (head : Word) (result id : Nat) (data : List Word) :
    StallMoves [.STALL_PATH_ERR] (fun x => x) n s (s.ctlComplete n head result id data) := by
  have h : StallMoves [.STALL_PATH_ERR] (fun x => x) n s s := .refl ..
  have ht : s.get F.STALL_CTRL_CFG_CRESP_TROUGH n < 2 ^ 20 := (get_lt s F.STALL_CTRL_CFG_CRESP_TROUGH n).trans (by decide)
  unfold State.ctlComplete
  exact .ite (h.inc _ (by decide) hn) (h.flows ((Flows.refl s).pushItem ht _))

theorem ctlAbort_moves (result : Nat) : StallMoves linkRegs Stall.frame n s (s.ctlAbort n result) := by
  unfold State.ctlAbort
  extract_lets q s1 s2
  have h1 : StallMoves linkRegs Stall.frame n s s1 := (StallMoves.refl ..).modStall rfl
  have h2 : StallMoves linkRegs Stall.frame n s s2 := h1.foldl fun a r _ =>
    (StallMoves.ite ((StallMoves.refl _ _ n a).inc _ (by decide) hn) (.refl ..)).trans
      ((ctlComplete_moves _ hn _ _ _ _).mono (by decide) Stall.frame)
  exact h2.trans (showIds_moves s2 hn)

theorem linkDown_moves : StallMoves linkRegs (fun _ => ()) n s (s.linkDown n) ∧ (s.linkDown n).openFrame n = none := by
  unfold State.linkDown
  extract_lets s1
  have h0 : Flows s ((s.raiseYard (64 + 4 * n + 3) s.now).countEvent 3) := ((Flows.refl s).raiseYard _ _).countEvent 3
  have h1 : StallMoves linkRegs (fun _ => ()) n s s1 :=
    (h0.moves linkRegs (fun _ => ()) n).trans ((closeFrame_moves _ hn true).mono (List.subset_append_left ..) fun _ => ())
  have h2 := ctlAbort_moves s1 hn crLinkLost
  have hclosed : s1.openFrame n = none := closeFrame_openFrame _ true
  refine ⟨(h1.trans (h2.mono (List.Subset.refl _) fun _ => ())).modStall rfl, ?_⟩
  exact (openFrame_congr (congrArg Stall.frame (stall_modStall_same _ n _) :)).trans ((openFrame_congr h2.record).trans hclosed)

theorem linkUp_portMoves : StallMoves linkRegs (fun _ => ()) n s (s.linkUp n) := by
  unfold State.linkUp
  extract_lets s1 s2 s3 s4
  have h0 : Flows s ((s.raiseYard (64 + 4 * n + 2) s.now).countEvent 2) := ((Flows.refl s).raiseYard _ _).countEvent 2
  have h2 : StallMoves linkRegs (fun _ => ()) n s s2 :=
    (((h0.moves linkRegs (fun _ => ()) n).put _ _ (by decide) hn).put _ _ (by decide) hn).put _ _ (by decide) hn
  have h3 : StallMoves linkRegs (fun _ => ()) n s s3 := by
    unfold s3 State.lmResult
    exact .ite (.ite ((h2.put _ _ (by decide) hn).put _ _ (by decide) hn) h2) h2
  exact .ite (h3.modStall rfl) ((h3.modStall rfl).modStall rfl)

theorem setLink_portMoves (new : Nat) : StallMoves linkRegs (fun _ => ()) n s (s.setLink n new) := by
  have h0 : StallMoves linkRegs (fun _ => ()) n s s := .refl ..
  unfold State.setLink
  extract_lets old live s1 s2 s3
  have h1 : StallMoves linkRegs (fun _ => ()) n s s1 := h0.put _ _ (by decide) hn
  have h2 : StallMoves linkRegs (fun _ => ()) n s s2 := .ite (h1.trans (linkDown_moves s1 hn).1)
    (.ite (h1.trans ((ctlAbort_moves s1 hn _).mono (List.Subset.refl _) fun _ => ())) h1)
  have h3 : StallMoves linkRegs (fun _ => ()) n s s3 := by
    unfold s3
    split
    · exact .ite (h2.flows ((Flows.refl s2).herdPassAll _)) h2
    · exact h2
  exact .ite h0 (.ite (h3.trans (linkUp_portMoves s3 hn)) h3)

/-- A stall that goes DOWN from UP has no frame open. -/
theorem setLink_down_openFrame (h : s.stUp n = true) : (s.setLink n lsDown).openFrame n = none := by
  have hup : s.stState n = lsUp := beq_iff_eq.mp h
  unfold State.setLink
  extract_lets old live s1 s2 s3
  have hold : old = lsUp := hup
  have h2 : s2.openFrame n = none := by
    have hs2 : s2 = s1.linkDown n := if_pos (by rw [hold]; decide)
    rw [hs2]
    exact (linkDown_moves s1 hn).2
  have h3 : Flows s2 s3 := by
    unfold s3
    split
    · exact .ite ((Flows.refl s2).herdPassAll _) (.refl s2)
    · exact .refl s2
  rw [if_neg (by rw [hold]; decide), if_neg (by decide)]
  exact (openFrame_congr (congrArg Stall.frame (h3.stall n))).trans h2

end Link

end Sys2Proof.Machine

namespace Sys2Proof.Machine

/-! ### FRAME_V asserted (R162, R165, R186) -/

/-- A port's open frame, its next FRAME_ID and its lines. -/
def Stall.ppFrame (x : Stall) : Option Nat × Nat × Nat := (x.ppOpen, x.ppId, x.ppLines)

/-- FRAME_V is seen asserted at `tick`. -/
def State.ppAsserted (s : State) (p tick : Nat) : State := (s.reach tick).put F.PPORT_STATUS_IN_FRAME p 1

/-- The stall's frame before it closes, and the port's frame opens with its FRAME_ID. -/
def State.ppStart (s : State) (p tick : Nat) : State :=
  ((s.ppAsserted p tick).closeFrame (14 + p) true).modStall (14 + p) fun y =>
    { y with ppId := (y.ppId + 1) % 2 ^ 32, ppOpen := some (s.stall (14 + p)).ppId, ppLines := 0, ppBad := false }

section Asserted

variable (p : Fin 2) (tick : Nat) (s : State)

theorem pportFrameVAssert_off (h : s.ppOn p = false) : exec (.pportFrameVAssert p tick) s = .next (s.ppAsserted p tick) := by
  change execPportFrameVAssert p tick s = _
  exact congrArg Host.Outcome.next (if_pos (by rw [h]; rfl))

/-- The header that a port makes is held behind a frame in progress, or judged. -/
theorem pportFrameVAssert_on (h : s.ppOn p = true) : ∃ hdr, exec (.pportFrameVAssert p tick) s =
    .next (if ((s.ppStart p tick).stall (14 + p)).frame.isSome = true then
      (s.ppStart p tick).modStall (14 + p) fun y => { y with held := some hdr, heldPkts := [] }
    else (s.ppStart p tick).judgeFrame (14 + p) hdr) := by
  change ∃ hdr, execPportFrameVAssert p tick s = _
  exact ⟨_, congrArg Host.Outcome.next (if_neg (by rw [h]; decide))⟩

theorem ppStart_frame : ((s.ppStart p tick).stall (14 + p)).ppFrame =
    (some (s.stall (14 + p)).ppId, ((s.stall (14 + p)).ppId + 1) % 2 ^ 32, 0) := by
  have hclose := closeFrame_moves (s.ppAsserted p tick) (n := 14 + p.val) (by omega) true
  have hid : (((s.ppAsserted p tick).closeFrame (14 + p) true).stall (14 + p)).ppId = (s.stall (14 + p)).ppId :=
    (congrArg Stall.ppId hclose.record :)
  exact (congrArg Stall.ppFrame (stall_modStall_same _ (14 + p.val) _)).trans (congrArg (fun i => (_, (i + 1) % 2 ^ 32, 0)) hid)

theorem ppStart_inFrame : (s.ppStart p tick).get F.PPORT_STATUS_IN_FRAME p = 1 :=
  ((closeFrame_moves (s.ppAsserted p tick) (n := 14 + p.val) (by omega) true).get F.PPORT_STATUS_IN_FRAME rfl (by decide) (by omega)).trans
    (get_put_same _ F.PPORT_STATUS_IN_FRAME _ _ (by decide))

/-- Without a frame in progress nothing closes. -/
theorem ppStart_idle (h : (s.stall (14 + p)).frame = none) :
    ((s.ppStart p tick).stall (14 + p)).frame = none ∧
    (s.ppStart p tick).get F.STALL_FRAME_ERR_FS_DISCARDED (14 + p) = s.get F.STALL_FRAME_ERR_FS_DISCARDED (14 + p) ∧
    (s.ppStart p tick).capturing = s.capturing := by
  have hclose : (s.ppAsserted p tick).closeFrame (14 + p) true = s.ppAsserted p tick :=
    closeFrame_none (s.ppAsserted p tick) (openFrame_of_none h) true
  unfold State.ppStart
  rw [hclose]
  refine ⟨?_, get_put_reg (s.reach tick) F.PPORT_STATUS_IN_FRAME F.STALL_FRAME_ERR_FS_DISCARDED _ _ _ (by decide) (by omega) (by omega), rfl⟩
  exact (congrArg Stall.frame (stall_modStall_same _ (14 + p.val) _)).trans h

theorem pportFrameVAssert_effect :
    (s.ppOn p = false → ∃ t, exec (.pportFrameVAssert p tick) s = .next t ∧ t.get F.PPORT_STATUS_IN_FRAME p = 1 ∧
      RegsBut [(.PPORT_STATUS, p.val)] s t ∧ t.stalls = s.stalls) ∧
    (s.ppOn p = true → ∃ t, exec (.pportFrameVAssert p tick) s = .next t ∧ t.get F.PPORT_STATUS_IN_FRAME p = 1 ∧
      (t.stall (14 + p.val)).ppOpen = some (s.stall (14 + p.val)).ppId ∧
      (t.stall (14 + p.val)).ppId = ((s.stall (14 + p.val)).ppId + 1) % 2 ^ 32 ∧ (t.stall (14 + p.val)).ppLines = 0 ∧
      (s.capturing = false → (s.stall (14 + p.val)).frame = none →
        t.get F.STALL_FRAME_ERR_FS_DISCARDED (14 + p.val) = min (s.get F.STALL_FRAME_ERR_FS_DISCARDED (14 + p.val) + 1) 65535)) := by
  refine ⟨fun hoff => ⟨_, pportFrameVAssert_off p tick s hoff, get_put_same _ F.PPORT_STATUS_IN_FRAME _ _ (by decide), ?_, rfl⟩, fun hon => ?_⟩
  · exact (RegsBut.of_regs (t := s.reach tick) rfl _).put F.PPORT_STATUS_IN_FRAME 1 List.mem_cons_self
  · obtain ⟨hdr, hexec⟩ := pportFrameVAssert_on p tick s hon
    refine ⟨_, hexec, ?_⟩
    generalize ht : (if ((s.ppStart p tick).stall (14 + p)).frame.isSome = true then
      (s.ppStart p tick).modStall (14 + p) fun y => { y with held := some hdr, heldPkts := [] }
      else (s.ppStart p tick).judgeFrame (14 + p) hdr) = t
    have hmoves : StallMoves frameRegs Stall.ppFrame (14 + p) (s.ppStart p tick) t := by
      rw [← ht]
      exact .ite ((StallMoves.refl ..).modStall rfl) ((judgeFrame_moves _ _ hdr).mono (List.Subset.refl _) Stall.ppFrame)
    have hframe := hmoves.record.trans (ppStart_frame p tick s)
    refine ⟨(hmoves.get F.PPORT_STATUS_IN_FRAME rfl (by decide) (by omega)).trans (ppStart_inFrame p tick s), congrArg (·.1) hframe,
      congrArg (·.2.1) hframe, congrArg (·.2.2) hframe, fun hcap hnone => ?_⟩
    obtain ⟨hidle, hcount, hmode⟩ := ppStart_idle p tick s hnone
    rw [← ht, if_neg (by simp [hidle]), judgeFrame_discards (.inr (hmode.trans hcap)), ← hcount]
    exact (fsDiscard_effect (u := s.ppStart p tick) (n := 14 + p) (by omega) _).1

end Asserted

/-! ### A line ends (R185, R186, R201) -/

section Line

variable (p : Fin 2) (rise fall : List (BitVec 16)) (s : State)

theorem pportLineEnd_off (h : (s.stall (14 + p.val)).ppOpen = none ∨ s.ppOn p = false) : exec (.pportLineEnd p rise fall) s = .next s := by
  change execPportLineEnd p rise fall s = _
  unfold execPportLineEnd
  extract_lets n
  split
  · rfl
  · next id hid =>
    rcases h with h | h
    · exact absurd (hid.symm.trans h) (by simp)
    · exact congrArg _ (if_pos (by rw [h]; rfl))

/-- A line of the port's frame is counted. -/
def State.ppLine (s : State) (p : Nat) : State :=
  s.modStall (14 + p) fun y => { y with ppLines := (s.stall (14 + p)).ppLines + 1 }

/-- Its length is compared with WIDTH (R201). -/
def State.ppMeasured (s : State) (p len : Nat) : State :=
  if len < s.ppWidth p then ((s.ppLine p).ppErr p).inc F.PPORT_COUNT_SHORT_LINES p
  else if s.ppWidth p < len then ((s.ppLine p).ppErr p).inc F.PPORT_COUNT_LONG_LINES p else s.ppLine p

theorem pportLineEnd_beyond {id : Nat} (h : (s.stall (14 + p.val)).ppOpen = some id) (hon : s.ppOn p = true)
    (hl : s.ppHeight p ≤ (s.stall (14 + p.val)).ppLines) : exec (.pportLineEnd p rise fall) s = .next ((s.ppLine p).ppErr p) := by
  change execPportLineEnd p rise fall s = _
  unfold execPportLineEnd
  extract_lets n
  split
  · next hnone => exact absurd (h.symm.trans hnone) (by simp)
  · exact congrArg _ ((if_neg (by rw [hon]; decide)).trans (if_pos hl))

theorem pportLineEnd_inside {id : Nat} (h : (s.stall (14 + p.val)).ppOpen = some id) (hon : s.ppOn p = true)
    (hl : (s.stall (14 + p.val)).ppLines < s.ppHeight p) : ∃ r : Rx, r.type = 2 ∧
    exec (.pportLineEnd p rise fall) s = .next ((s.ppMeasured p (s.ppPixels p rise fall).length).framePacket (14 + p) r) := by
  change ∃ r : Rx, _ ∧ execPportLineEnd p rise fall s = _
  unfold execPportLineEnd
  extract_lets n
  split
  · next hnone => exact absurd (h.symm.trans hnone) (by simp)
  · exact ⟨_, rfl, congrArg _ ((if_neg (by rw [hon]; decide)).trans (if_neg (Nat.not_le.mpr hl)))⟩

theorem ppErr_error (u : State) : (u.ppErr p).get F.PPORT_STATUS_GEOM_ERR p = 1 := get_put_same u F.PPORT_STATUS_GEOM_ERR _ _ (by decide)

theorem ppErr_inFrame (u : State) : (u.ppErr p).get F.PPORT_STATUS_IN_FRAME p = u.get F.PPORT_STATUS_IN_FRAME p :=
  get_put_beside u F.PPORT_STATUS_GEOM_ERR F.PPORT_STATUS_IN_FRAME p 1 rfl (by decide)

theorem ppErr_count (u : State) : (u.ppErr p).rd .PPORT_COUNT p = u.rd .PPORT_COUNT p := by
  have hp : p.val < 2 ^ 20 := by omega
  exact rd_wr_reg u _ (by decide) hp hp

theorem ppLine_stall : ((s.ppLine p).stall (14 + p.val)) = { s.stall (14 + p.val) with ppLines := (s.stall (14 + p.val)).ppLines + 1 } :=
  stall_modStall_same ..

theorem ppErr_stall (u : State) : ((u.ppErr p).stall (14 + p.val)) = { u.stall (14 + p.val) with ppBad := true } :=
  stall_modStall_same (u.put F.PPORT_STATUS_GEOM_ERR p 1) ..

/-- A counter of the port's lines beside GEOM_ERR. -/
theorem ppErr_inc (u : State) {f : Fld} (hf : f.r = .PPORT_COUNT) (hw : f.lo + f.w ≤ 64) :
    ((u.ppErr p).inc f p).get F.PPORT_STATUS_GEOM_ERR p = 1 ∧ ((u.ppErr p).inc f p).get f p = min (u.get f p + 1) (2 ^ f.w - 1) := by
  have hp : p.val < 2 ^ 20 := by omega
  refine ⟨(get_put_reg _ f F.PPORT_STATUS_GEOM_ERR _ _ _ (by rw [hf]; decide) hp hp).trans (ppErr_error p u), ?_⟩
  rw [get_inc_same _ _ _ hw, get_congr (s := u) (hf ▸ ppErr_count p u)]

theorem ppMeasured_lines (len : Nat) : ((s.ppMeasured p len).stall (14 + p.val)).ppLines = (s.stall (14 + p.val)).ppLines + 1 := by
  have hline : ((s.ppLine p).stall (14 + p.val)).ppLines = (s.stall (14 + p.val)).ppLines + 1 := congrArg Stall.ppLines (ppLine_stall p s)
  have herr : (((s.ppLine p).ppErr p).stall (14 + p.val)).ppLines = (s.stall (14 + p.val)).ppLines + 1 :=
    (congrArg Stall.ppLines (ppErr_stall p _)).trans hline
  unfold State.ppMeasured
  split
  · exact herr
  · split
    · exact herr
    · exact hline

theorem pportLineEnd_effect {id : Nat} (h : (s.stall (14 + p.val)).ppOpen = some id) (hon : s.ppOn p = true) :
    ∃ t, exec (.pportLineEnd p rise fall) s = .next t ∧
      (t.stall (14 + p.val)).ppLines = (s.stall (14 + p.val)).ppLines + 1 ∧
      (max 1 (s.get F.PPORT_GEOM_HEIGHT p) ≤ (s.stall (14 + p.val)).ppLines →
        t.get F.PPORT_STATUS_GEOM_ERR p = 1 ∧ (t.stall (14 + p.val)).buf = (s.stall (14 + p.val)).buf ∧
        t.rd .PPORT_COUNT p = s.rd .PPORT_COUNT p) ∧
      ((s.stall (14 + p.val)).ppLines < max 1 (s.get F.PPORT_GEOM_HEIGHT p) →
        ((s.ppPixels p rise fall).length < max 1 (s.get F.PPORT_GEOM_WIDTH p) → t.get F.PPORT_STATUS_GEOM_ERR p = 1 ∧
          t.get F.PPORT_COUNT_SHORT_LINES p = min (s.get F.PPORT_COUNT_SHORT_LINES p + 1) 65535) ∧
        (max 1 (s.get F.PPORT_GEOM_WIDTH p) < (s.ppPixels p rise fall).length → t.get F.PPORT_STATUS_GEOM_ERR p = 1 ∧
          t.get F.PPORT_COUNT_LONG_LINES p = min (s.get F.PPORT_COUNT_LONG_LINES p + 1) 65535) ∧
        ((s.ppPixels p rise fall).length = max 1 (s.get F.PPORT_GEOM_WIDTH p) →
          t.get F.PPORT_STATUS_GEOM_ERR p = s.get F.PPORT_STATUS_GEOM_ERR p)) := by
  by_cases hl : s.ppHeight p ≤ (s.stall (14 + p.val)).ppLines
  · have hstall : ((s.ppLine p).ppErr p).stall (14 + p.val) =
        { s.stall (14 + p.val) with ppLines := (s.stall (14 + p.val)).ppLines + 1, ppBad := true } :=
      (ppErr_stall p _).trans (by rw [ppLine_stall])
    exact ⟨_, pportLineEnd_beyond p rise fall s h hon hl, congrArg Stall.ppLines hstall,
      fun _ => ⟨ppErr_error p _, (congrArg Stall.buf hstall :), ppErr_count p (s.ppLine p)⟩, fun hlt => absurd hl (Nat.not_le.mpr hlt)⟩
  · obtain ⟨r, hr, hexec⟩ := pportLineEnd_inside p rise fall s h hon (by omega)
    have hmoves := framePacket_moves (s.ppMeasured p (s.ppPixels p rise fall).length) (n := 14 + p.val) (by omega) (p := r) (by omega)
    have hget (f : Fld) (hf : f.r.ofStalls = true) (hl : f.r ∉ frameRegs) := hmoves.get f (i := p) hf hl (by omega)
    refine ⟨_, hexec, (congrArg Stall.ppLines hmoves.record :).trans (ppMeasured_lines p s _), fun hge => absurd hge hl, fun _ => ?_⟩
    rw [hget _ rfl (by decide), hget _ rfl (by decide), hget _ rfl (by decide)]
    refine ⟨fun hlt => ?_, fun hgt => ?_, fun heq => ?_⟩
    · have hm : s.ppMeasured p (s.ppPixels p rise fall).length = _ := if_pos hlt
      rw [hm]
      exact ppErr_inc p (s.ppLine p) rfl (by decide)
    · have hm : s.ppMeasured p (s.ppPixels p rise fall).length = _ := (if_neg (Nat.not_lt.mpr hgt.le)).trans (if_pos hgt)
      rw [hm]
      exact ppErr_inc p (s.ppLine p) rfl (by decide)
    · have hm : s.ppMeasured p (s.ppPixels p rise fall).length = s.ppLine p :=
        (if_neg (Nat.not_lt.mpr heq.ge)).trans (if_neg (Nat.not_lt.mpr heq.le))
      rw [hm]
      rfl

end Line

/-! ### FRAME_V released (R186) -/

section Released

variable (p : Fin 2) (s : State)

/-- Fewer lines than HEIGHT were seen (R201). -/
def State.ppShort (s : State) (p : Nat) : State :=
  if (s.stall (14 + p)).ppLines < s.ppHeight p then (s.put F.PPORT_STATUS_IN_FRAME p 0).ppErr p else s.put F.PPORT_STATUS_IN_FRAME p 0

/-- The port's frame ends and is counted. -/
def State.ppEnd (s : State) (p : Nat) : State :=
  ((s.ppShort p).incWrap F.PPORT_COUNT_FRAMES p).modStall (14 + p) fun y => { y with ppOpen := none }

theorem pportFrameVRelease_none (h : (s.stall (14 + p.val)).ppOpen = none) :
    exec (.pportFrameVRelease p) s = .next (s.put F.PPORT_STATUS_IN_FRAME p 0) := by
  change execPportFrameVRelease p s = _
  unfold execPportFrameVRelease
  extract_lets n s0
  split
  · rfl
  · next id hid => exact absurd (hid.symm.trans h) (by simp)

/-- The Frame End that the port makes for its frame. -/
def State.ppFrameEnd (s : State) (p id : Nat) : Rx :=
  let x := s.stall (14 + p)
  ⟨3, id % 256, id, bytesOfNat 4 (min x.ppLines (s.ppHeight p)) ++ bytesOfNat 4 (b2n (x.ppBad || decide (x.ppLines < s.ppHeight p))), 0, false,
    s.now⟩

theorem pportFrameVRelease_some {id : Nat} (h : (s.stall (14 + p.val)).ppOpen = some id) : exec (.pportFrameVRelease p) s =
    .next (if s.ppOn p = true then (s.ppEnd p).framePacket (14 + p) (s.ppFrameEnd p id) else s.ppEnd p) := by
  change execPportFrameVRelease p s = _
  unfold execPportFrameVRelease
  extract_lets n s0
  split
  · next hnone => exact absurd (h.symm.trans hnone) (by simp)
  · next j hj =>
    obtain rfl := Option.some.inj (h.symm.trans hj)
    rfl

theorem ppShort_regs : (s.ppShort p).get F.PPORT_STATUS_IN_FRAME p = 0 ∧ (s.ppShort p).get F.PPORT_COUNT_FRAMES p = s.get F.PPORT_COUNT_FRAMES p ∧
    ((s.stall (14 + p.val)).ppLines < s.ppHeight p → (s.ppShort p).get F.PPORT_STATUS_GEOM_ERR p = 1) := by
  have hp : p.val < 2 ^ 20 := by omega
  have hin : (s.put F.PPORT_STATUS_IN_FRAME p 0).get F.PPORT_STATUS_IN_FRAME p = 0 := get_put_same _ F.PPORT_STATUS_IN_FRAME _ _ (by decide)
  have hcount : (s.put F.PPORT_STATUS_IN_FRAME p 0).get F.PPORT_COUNT_FRAMES p = s.get F.PPORT_COUNT_FRAMES p :=
    get_put_reg _ F.PPORT_STATUS_IN_FRAME F.PPORT_COUNT_FRAMES _ _ _ (by decide) hp hp
  unfold State.ppShort
  split
  · exact ⟨(ppErr_inFrame p _).trans hin,
      (get_congr (ppErr_count p _)).trans hcount, fun _ => ppErr_error p _⟩
  · next hl => exact ⟨hin, hcount, fun hlt => absurd hlt hl⟩

theorem ppEnd_regs : (s.ppEnd p).get F.PPORT_STATUS_IN_FRAME p = 0 ∧
    (s.ppEnd p).get F.PPORT_COUNT_FRAMES p = (s.get F.PPORT_COUNT_FRAMES p + 1) % 2 ^ 32 ∧
    ((s.stall (14 + p.val)).ppLines < s.ppHeight p → (s.ppEnd p).get F.PPORT_STATUS_GEOM_ERR p = 1) := by
  have hp : p.val < 2 ^ 20 := by omega
  obtain ⟨hin, hcount, herr⟩ := ppShort_regs p s
  have hbeside (f : Fld) (hf : f.r = .PPORT_STATUS) : (s.ppEnd p).get f p = (s.ppShort p).get f p :=
    get_put_reg (s.ppShort p) F.PPORT_COUNT_FRAMES f _ _ _ (by rw [hf]; decide) hp hp
  refine ⟨(hbeside _ rfl).trans hin, ?_, fun hl => (hbeside _ rfl).trans (herr hl)⟩
  exact (get_put_same (s.ppShort p) F.PPORT_COUNT_FRAMES _ _ (by decide)).trans (by rw [hcount])

theorem ppEnd_stall : (s.ppEnd p).stall (14 + p.val) = { (s.ppShort p).stall (14 + p.val) with ppOpen := none } :=
  stall_modStall_same ((s.ppShort p).incWrap F.PPORT_COUNT_FRAMES p) ..

theorem ppShort_stall : ((s.ppShort p).stall (14 + p.val)).frame = (s.stall (14 + p.val)).frame ∧
    ((s.ppShort p).stall (14 + p.val)).held = (s.stall (14 + p.val)).held := by
  unfold State.ppShort
  split
  · have hstall := ppErr_stall p (s.put F.PPORT_STATUS_IN_FRAME p 0)
    exact ⟨(congrArg Stall.frame hstall :), (congrArg Stall.held hstall :)⟩
  · exact ⟨rfl, rfl⟩

/-- The frame that the port's frame fills closes with it. -/
theorem ppEnd_closes {f : Frame} {r : Rx} (hh : (s.stall (14 + p.val)).held = none) (hf : s.openFrame (14 + p.val) = some f) (ht : r.type = 3)
    (hid : f.hdr.id = r.param) : ((s.ppEnd p).framePacket (14 + p) r).openFrame (14 + p) = none := by
  obtain ⟨hframe, hheld⟩ := ppShort_stall p s
  have hfree : ((s.ppEnd p).stall (14 + p)).held = none := ((congrArg Stall.held (ppEnd_stall p s)).trans hheld).trans hh
  have hopen : (s.ppEnd p).openFrame (14 + p) = some f := (openFrame_congr ((congrArg Stall.frame (ppEnd_stall p s)).trans hframe)).trans hf
  rw [framePacket_free hfree, if_neg (by omega), if_neg (by omega), frameEnd_open (n := ⟨14 + p.val, by omega⟩) hopen hid]
  exact closeFrame_openFrame _ _

theorem pportFrameVRelease_effect :
    ((s.stall (14 + p.val)).ppOpen = none → ∃ t, exec (.pportFrameVRelease p) s = .next t ∧ t.get F.PPORT_STATUS_IN_FRAME p = 0 ∧
      OnlyRegs [(.PPORT_STATUS, p.val)] s t) ∧
    (∀ id, (s.stall (14 + p.val)).ppOpen = some id →
      ∃ t, exec (.pportFrameVRelease p) s = .next t ∧ t.get F.PPORT_STATUS_IN_FRAME p = 0 ∧
        (t.stall (14 + p.val)).ppOpen = none ∧ t.get F.PPORT_COUNT_FRAMES p = (s.get F.PPORT_COUNT_FRAMES p + 1) % 2 ^ 32 ∧
        ((s.stall (14 + p.val)).ppLines < max 1 (s.get F.PPORT_GEOM_HEIGHT p) → t.get F.PPORT_STATUS_GEOM_ERR p = 1) ∧
        (∀ f, s.ppOn p = true → (s.stall (14 + p.val)).held = none → s.openFrame (14 + p.val) = some f → f.hdr.id = id →
          t.openFrame (14 + p.val) = none)) := by
  refine ⟨fun h => ⟨_, pportFrameVRelease_none p s h, get_put_same _ _ _ _ (by decide), put_onlyRegs ..⟩, fun id h => ?_⟩
  have hmoves : StallMoves frameRegs Stall.unframed (14 + p) (s.ppEnd p)
      (if s.ppOn p = true then (s.ppEnd p).framePacket (14 + p) (s.ppFrameEnd p id) else s.ppEnd p) :=
    .ite (framePacket_moves _ (by omega) (show (3 : Nat) ≠ 1 by decide)) (.refl ..)
  have hget (f : Fld) (hf : f.r.ofStalls = true) (hl : f.r ∉ frameRegs) := hmoves.get f (i := p) hf hl (by omega)
  obtain ⟨hin, hcount, herr⟩ := ppEnd_regs p s
  refine ⟨_, pportFrameVRelease_some p s h, (hget _ rfl (by decide)).trans hin, ?_, (hget _ rfl (by decide)).trans hcount,
    fun hl => (hget _ rfl (by decide)).trans (herr hl), fun f hon hh hf hfid => ?_⟩
  · exact (congrArg Stall.ppOpen hmoves.record :).trans (congrArg Stall.ppOpen (ppEnd_stall p s))
  · rw [if_pos hon]
    exact ppEnd_closes p s hh hf rfl hfid

end Released

/-! ### The port's clock (R162, R187, R201) -/

section Clock

variable (p : Fin 2) (s : State)

/-- The clock is gone, and with it the port's frame. -/
def State.ppStopped (s : State) (p : Nat) : State :=
  ((s.put F.PPORT_STATUS_CLK_PRESENT p 0).put F.PPORT_STATUS_CLK_LOST p 1).modStall (14 + p) fun y => { y with ppOpen := none }

/-- The stall of a port that is used takes state `new`. -/
def State.ppLink (s u : State) (p new : Nat) : State :=
  if (s.isOn F.STALL_LINK_CFG_ENABLE (14 + p) && s.isOn F.STALL_LINK_CFG_PPORT_SEL (14 + p)) = true then u.setLink (14 + p) new else u

theorem ppLink_moves (u : State) (new : Nat) : StallMoves linkRegs (fun _ => ()) (14 + p) u (s.ppLink u p new) :=
  .ite (setLink_portMoves u (by omega) new) (.refl ..)

theorem ppLink_get (u : State) (new : Nat) {f : Fld} (hf : f.r = .PPORT_STATUS) : (s.ppLink u p new).get f p = u.get f p :=
  (ppLink_moves p s u new).get f (by rw [hf]; rfl) (by rw [hf]; decide) (by omega)

variable {s} in
theorem ppLink_used (u : State) (new : Nat) (he : s.isOn F.STALL_LINK_CFG_ENABLE (14 + p.val) = true)
    (hs : s.isOn F.STALL_LINK_CFG_PPORT_SEL (14 + p.val) = true) : s.ppLink u p new = u.setLink (14 + p) new :=
  if_pos (by rw [he, hs]; rfl)

theorem pportClockUp_effect : ∃ t, exec (.pportClockUp p) s = .next t ∧ t.get F.PPORT_STATUS_CLK_PRESENT p = 1 ∧
    (s.isOn F.STALL_LINK_CFG_ENABLE (14 + p.val) = true → s.isOn F.STALL_LINK_CFG_PPORT_SEL (14 + p.val) = true →
      t.stState (14 + p.val) = lsUp) := by
  refine ⟨s.ppLink (s.put F.PPORT_STATUS_CLK_PRESENT p 1) p lsUp, rfl, (ppLink_get p s _ _ rfl).trans (get_put_same _ _ _ _ (by decide)),
    fun he hs => ?_⟩
  rw [ppLink_used p _ _ he hs]
  exact setLink_stState _ (by omega) (by decide)

theorem ppStopped_regs : (s.ppStopped p).get F.PPORT_STATUS_CLK_PRESENT p = 0 ∧ (s.ppStopped p).get F.PPORT_STATUS_CLK_LOST p = 1 ∧
    (s.ppStopped p).stUp (14 + p.val) = s.stUp (14 + p.val) := by
  have hp : p.val < 2 ^ 20 := by omega
  have hn : 14 + p.val < 2 ^ 20 := by omega
  let u := s.put F.PPORT_STATUS_CLK_PRESENT p 0
  have hclock : u.get F.PPORT_STATUS_CLK_PRESENT p = 0 := get_put_same s F.PPORT_STATUS_CLK_PRESENT _ _ (by decide)
  have hlink : u.stState (14 + p.val) = s.stState (14 + p.val) :=
    get_put_reg s F.PPORT_STATUS_CLK_PRESENT F.STALL_LINK_STATUS_STATE _ _ _ (by decide) hp hn
  have hlost : (s.ppStopped p).stState (14 + p.val) = u.stState (14 + p.val) :=
    get_put_reg u F.PPORT_STATUS_CLK_LOST F.STALL_LINK_STATUS_STATE _ _ _ (by decide) hp hn
  refine ⟨?_, get_put_same u F.PPORT_STATUS_CLK_LOST _ _ (by decide), congrArg (· == lsUp) (hlost.trans hlink)⟩
  exact (get_put_beside u F.PPORT_STATUS_CLK_LOST F.PPORT_STATUS_CLK_PRESENT p 1 rfl (by decide)).trans hclock

theorem pportClockLost_effect : ∃ t, exec (.pportClockLost p) s = .next t ∧ t.get F.PPORT_STATUS_CLK_PRESENT p = 0 ∧
    t.get F.PPORT_STATUS_CLK_LOST p = 1 ∧
    (s.isOn F.STALL_LINK_CFG_ENABLE (14 + p.val) = true → s.isOn F.STALL_LINK_CFG_PPORT_SEL (14 + p.val) = true →
      s.stUp (14 + p.val) = true → t.stState (14 + p.val) = lsDown ∧ t.openFrame (14 + p.val) = none) := by
  obtain ⟨hpresent, hlost, hup⟩ := ppStopped_regs p s
  refine ⟨s.ppLink (s.ppStopped p) p lsDown, rfl, (ppLink_get p s _ _ rfl).trans hpresent, (ppLink_get p s _ _ rfl).trans hlost,
    fun he hs hu => ?_⟩
  rw [ppLink_used p _ _ he hs]
  exact ⟨setLink_stState _ (by omega) (by decide), setLink_down_openFrame _ (by omega) (hup.trans hu)⟩

end Clock

/-! ### The statement O16 -/

/-- Settles O16 (R167 to R170, R185 to R187, R200 to R202, R604). The reading of logs 65 and 68 is the model's: a port's frame is counted as
FRAME_V is released and measured line by line, and a stall that may not send counts a Trigger TRIG_UNSENT. -/
theorem triggersAreTimedAndParallelPortsMakeFrames : Obligations.TriggersAreTimedAndParallelPortsMakeFrames :=
  ⟨yardCameraTrigger_effect, fun n tx gone s => ⟨triggerCommit_none, fun _ => triggerCommit_effect n tx gone s⟩, pportFrameVAssert_effect,
    fun p rise fall s => ⟨pportLineEnd_off p rise fall s, fun _ => pportLineEnd_effect p rise fall s⟩, pportFrameVRelease_effect,
    fun p s => ⟨pportClockUp_effect p s, pportClockLost_effect p s⟩⟩

end Sys2Proof.Machine

/-! SUPPORT. Items in a trough's queue (R370, R371, R375): what a write to a ring slot reads back as, what a push of an item that has room
leaves, and what another trough's pop leaves of a queue. -/

namespace Sys2Proof.Machine

/-- The data of a ring slot does not depend on its sideband (R370, R390). -/
theorem readSlot_data (s : State) (k i : Nat) : (s.readSlot k i).data =
    if s.trgFar k then s.fenWord (s.trgBase k + 8 * i) else (Tab.get TWord.zero s.near (s.trgBase k + i)).data := by
  unfold State.readSlot
  split
  · dsimp only
    split <;> rfl
  · rfl

theorem fenWord_congr {s t : State} (h : t.fen = s.fen) (a : Nat) : t.fenWord a = s.fenWord a := by
  unfold State.fenWord State.fenBytes State.fenByte
  rw [h]

/-- A visible word follows its queue's head, its trough's place and the words stored. -/
theorem visWord_data_congr {s t : State} {k : Nat} (hcfg : t.rd .TRG_CFG k = s.rd .TRG_CFG k) (hbase : t.rd .TRG_BASE k = s.rd .TRG_BASE k)
    (hhead : (t.trg k).head = (s.trg k).head) (hnear : t.near = s.near) (hfen : t.fen = s.fen) (j : Nat) :
    (t.visWord k j).data = (s.visWord k j).data := by
  have hfar : t.trgFar k = s.trgFar k := isOn_congr (get_congr (f := F.TRG_CFG_LOCATION) hcfg)
  have hsize : t.trgSize k = s.trgSize k := congrArg (2 ^ ·) (get_congr (f := F.TRG_CFG_SIZE_LOG2) hcfg)
  have hplace : t.trgBase k = s.trgBase k := get_congr (f := F.TRG_BASE_BASE) hbase
  unfold State.visWord
  rw [readSlot_data, readSlot_data, hfar, hsize, hhead, hnear, hplace, fenWord_congr hfen]

/-! ### A queue that stands still -/

/-- From `s` to `t` trough `k` stands still: its enable, size, place and queue and all words stored are as before, the mode is, and
nothing has been sent. -/
structure QueueKept (k : Nat) (s t : State) : Prop where
  cfg : t.rd .TRG_CFG k = s.rd .TRG_CFG k
  base : t.rd .TRG_BASE k = s.rd .TRG_BASE k
  queue : t.trg k = s.trg k
  near : t.near = s.near
  fen : t.fen = s.fen
  ctl : t.ctl = s.ctl
  sent : t.sent = s.sent

namespace QueueKept

variable {k : Nat} {s t u : State}

theorem refl (k : Nat) (s : State) : QueueKept k s s := ⟨rfl, rfl, rfl, rfl, rfl, rfl, rfl⟩

theorem trans (h : QueueKept k s t) (g : QueueKept k t u) : QueueKept k s u :=
  ⟨g.cfg.trans h.cfg, g.base.trans h.base, g.queue.trans h.queue, g.near.trans h.near, g.fen.trans h.fen, g.ctl.trans h.ctl,
    g.sent.trans h.sent⟩

theorem wr (h : QueueKept k s t) {r : Reg} {i : Nat} (v : Word) (hr : r ≠ .TRG_CFG ∧ r ≠ .TRG_BASE) (hi : i < 2 ^ 20) (hk : k < 2 ^ 20) :
    QueueKept k s (t.wr r i v) :=
  h.trans ⟨rd_wr_reg _ _ hr.1.symm hi hk, rd_wr_reg _ _ hr.2.symm hi hk, rfl, rfl, rfl, rfl, rfl⟩

theorem put (h : QueueKept k s t) (f : Fld) {i : Nat} (v : Nat) (hr : f.r ≠ .TRG_CFG ∧ f.r ≠ .TRG_BASE) (hi : i < 2 ^ 20) (hk : k < 2 ^ 20) :
    QueueKept k s (t.put f i v) := h.wr _ hr hi hk

theorem sendVector (h : QueueKept k s t) (fn v : Nat) (c : MsgClass) : QueueKept k s (t.sendVector fn v c) := by
  refine h.trans ⟨?_, ?_, ?_, sendVector_near .., sendVector_fen .., sendVector_ctl .., sendVector_sent ..⟩
  · exact rd_congr (sendVector_regs ..) _ _
  · exact rd_congr (sendVector_regs ..) _ _
  · unfold State.trg
    rw [sendVector_troughs]

theorem raiseYard (h : QueueKept k s t) (p v : Nat) (hk : k < 2 ^ 20) : QueueKept k s (t.raiseYard p v) := by
  refine h.trans ⟨?_, ?_, ?_, raiseYard_near .., raiseYard_fen .., raiseYard_ctl .., raiseYard_sent ..⟩
  · exact (raiseYard_regsBut t p v).rd_eq hk (by simp)
  · exact (raiseYard_regsBut t p v).rd_eq hk (by simp)
  · unfold State.trg
    rw [raiseYard_troughs]

theorem ite {a b : State} {p : Prop} [Decidable p] (ha : QueueKept k s a) (hb : QueueKept k s b) : QueueKept k s (if p then a else b) := by
  split <;> assumption

theorem trgThresh (h : QueueKept k s t) {m : Nat} (before : Nat) (hm : m < 2 ^ 20) (hk : k < 2 ^ 20) : QueueKept k s (t.trgThresh m before) :=
  trgThresh_rec (P := QueueKept k s) m before h (fun _ _ _ hf ha => ha.put _ _ (by rw [hf]; decide) hm hk) (fun _ _ _ _ ha => ha.sendVector ..)
    fun _ _ _ ha => ha.raiseYard _ _ hk

theorem noteHead (h : QueueKept k s t) (m : Nat) (hk : k < 2 ^ 20) : QueueKept k s (t.noteHead m) := by
  have hmark {r : Reg} {i v : Nat} (hr : r ≠ .TRG_CFG ∧ r ≠ .TRG_BASE) (hi : i < 2 ^ 20) : QueueKept k s (t.raiseMark r i v) := h.wr _ hr hi hk
  unfold State.noteHead State.noteTaken
  refine .ite (.ite (.ite (.ite (hmark (by decide) ((bits_lt _ _ _).trans (by decide))) h) ?_) h) h
  split
  · next htag =>
    obtain ⟨-, hm, -⟩ := htag
    exact hmark (by decide) (by omega)
  · exact h

/-- The item at the head of another trough is taken. -/
theorem dropHead (h : QueueKept k s t) {m : Nat} (hm : m < 2 ^ 20) (hk : k < 2 ^ 20) (hne : k ≠ m) : QueueKept k s (t.dropHead m) := by
  have h1 : QueueKept k s (t.noteHead m) := h.noteHead m hk
  have h2 (n : Nat) : QueueKept k s ((t.noteHead m).advance m n) := h1.trans ⟨rfl, rfl, trg_setTrg_other _ _ _ _ hne, rfl, rfl, rfl, rfl⟩
  unfold State.dropHead State.dropQuiet
  extract_lets x n bad
  exact (((h2 n).wr _ (by decide) hm hk).wr _ (by decide) (by decide) hk).trgThresh _ hm hk

theorem get (h : QueueKept k s t) {f : Fld} (hf : f.r = .TRG_CFG ∨ f.r = .TRG_BASE) : t.get f k = s.get f k := by
  rcases hf with hf | hf
  · exact get_congr (hf ▸ h.cfg)
  · exact get_congr (hf ▸ h.base)

theorem size (h : QueueKept k s t) : t.trgSize k = s.trgSize k := congrArg (2 ^ ·) (h.get (.inl rfl))

theorem on (h : QueueKept k s t) : t.trgOn k = s.trgOn k := isOn_congr (h.get (.inl rfl))

theorem far (h : QueueKept k s t) : t.trgFar k = s.trgFar k := isOn_congr (h.get (.inl rfl))

/-- The words visible are the same. -/
theorem visData (h : QueueKept k s t) (j : Nat) : (t.visWord k j).data = (s.visWord k j).data :=
  visWord_data_congr h.cfg h.base (congrArg Trough.head h.queue) h.near h.fen j

theorem hasRoom (h : QueueKept k s t) {m : Nat} (hs : s.hasRoom k m) : t.hasRoom k m := by
  obtain ⟨hon, hawake, hopen, hfit⟩ := hs
  refine ⟨h.on.trans hon, ?_, ?_, ?_⟩
  · unfold State.trgAsleep at hawake ⊢
    rw [h.far, h.ctl]
    exact hawake
  · rw [h.queue, hopen]
  · rw [h.queue, h.size]
    exact hfit

end QueueKept

/-! ### Slots written (R370, R371) -/

section Slots

variable {k i j : Nat} {s : State} {w : TWord}

theorem fenWord_fenStore_apart {a b : Nat} (v : Word) (poison : Bool) (h : b + 8 ≤ a ∨ a + 8 ≤ b) :
    (s.fenStore a v poison).fenWord b = s.fenWord b := by
  unfold State.fenWord State.fenBytes
  refine congrArg wordOfBytes (List.map_congr_left fun x hx => ?_)
  have hx := List.mem_range.mp hx
  exact fenByte_fenStore_other s a (b + x) v poison (by omega)

/-- The sideband of a trough lies behind its last slot. -/
theorem slot_before_side (hi : i < s.trgSize k) (m : Nat) : s.trgBase k + 8 * i + 8 ≤ s.sideAddr k m := by
  unfold State.sideAddr
  omega

theorem writeSlot_frame (s : State) (k i : Nat) (w : TWord) :
    { s.writeSlot k i w with near := s.near, fen := s.fen, fenChk := s.fenChk, fenFix := s.fenFix } = s := by
  unfold State.writeSlot
  split <;> rfl

theorem writeSlot_regs : (s.writeSlot k i w).regs = s.regs :=
  (congrArg State.regs (writeSlot_frame s k i w) :)

theorem writeSlot_troughs : (s.writeSlot k i w).troughs = s.troughs :=
  (congrArg State.troughs (writeSlot_frame s k i w) :)

/-- Where a slot's data lies does not depend on what is stored. -/
theorem readSlot_data_of_regs {t : State} (h : t.regs = s.regs) : (t.readSlot k j).data =
    if s.trgFar k then t.fenWord (s.trgBase k + 8 * j) else (Tab.get TWord.zero t.near (s.trgBase k + j)).data := by
  have hfar : t.trgFar k = s.trgFar k := isOn_congr (get_congr (rd_congr h _ _))
  have hbase : t.trgBase k = s.trgBase k := get_congr (rd_congr h _ _)
  rw [readSlot_data, hfar, hbase]

theorem readSlot_writeSlot_same (hi : i < s.trgSize k) : ((s.writeSlot k i w).readSlot k i).data = w.data := by
  rw [readSlot_data_of_regs writeSlot_regs]
  unfold State.writeSlot
  split
  · exact (fenWord_fenStore_apart _ _ (.inl (slot_before_side hi _))).trans (fenWord_fenStore_same ..)
  · exact congrArg TWord.data (Tab.get_set_same ..)

theorem readSlot_writeSlot_other (hj : j < s.trgSize k) (hne : j ≠ i) : ((s.writeSlot k i w).readSlot k j).data = (s.readSlot k j).data := by
  rw [readSlot_data_of_regs writeSlot_regs, readSlot_data]
  unfold State.writeSlot
  split
  · exact (fenWord_fenStore_apart _ _ (.inl (slot_before_side hj _))).trans (fenWord_fenStore_apart _ _ (by omega))
  · exact congrArg TWord.data (Tab.get_set_other _ _ _ _ (by omega))

/-! ### A row of words written -/

theorem putWords_frame (k o : Nat) (ws : List TWord) (s : State) :
    { s.putWords k o ws with near := s.near, fen := s.fen, fenChk := s.fenChk, fenFix := s.fenFix } = s := by
  induction ws generalizing o s with
  | nil => rfl
  | cons w ws ih =>
    exact (congrArg (fun a : State => { a with near := s.near, fen := s.fen, fenChk := s.fenChk, fenFix := s.fenFix }) (ih (o + 1) _)).trans
      (writeSlot_frame s k _ w)

/-- Two offsets within the ring are two slots. -/
theorem ring_slot_ne {h a b m : Nat} (hab : a < b) (hb : b < m) : (h + a) % m ≠ (h + b) % m := fun he => by
  have h1 : a % m = b % m := Nat.ModEq.add_left_cancel' h he
  rw [Nat.mod_eq_of_lt (hab.trans hb), Nat.mod_eq_of_lt hb] at h1
  omega

theorem visWord_writeSlot (o : Nat) (ho : o < s.trgSize k) (hj : j < s.trgSize k) :
    ((s.writeSlot k (((s.trg k).head + o) % s.trgSize k) w).visWord k j).data = if j = o then w.data else (s.visWord k j).data := by
  have hpos : 0 < s.trgSize k := by omega
  have hvis (t : State) (ht : t = s.writeSlot k (((s.trg k).head + o) % s.trgSize k) w) :
      t.visWord k j = t.readSlot k (((s.trg k).head + j) % s.trgSize k) := by
    have hq : t.trg k = s.trg k := by
      unfold State.trg
      rw [ht, writeSlot_troughs]
    have hsize : t.trgSize k = s.trgSize k := congrArg (2 ^ ·) (get_congr (rd_congr (ht ▸ writeSlot_regs) _ _))
    unfold State.visWord
    rw [hq, hsize]
  rw [hvis _ rfl]
  split
  · next h =>
    rw [h]
    exact readSlot_writeSlot_same (Nat.mod_lt _ hpos)
  · next h =>
    refine readSlot_writeSlot_other (Nat.mod_lt _ hpos) ?_
    rcases Nat.lt_or_gt_of_ne h with h | h
    · exact ring_slot_ne h ho
    · exact (ring_slot_ne h hj).symm

theorem visWord_putWords (ws : List TWord) (o : Nat) (s : State) (ho : o + ws.length ≤ s.trgSize k) (hj : j < s.trgSize k) :
    ((s.putWords k o ws).visWord k j).data =
      if h : o ≤ j ∧ j - o < ws.length then (ws[j - o]'h.2).data else (s.visWord k j).data := by
  induction ws generalizing o s with
  | nil => simp [State.putWords]
  | cons w ws ih =>
    rw [List.length_cons] at ho
    have hsize (v : TWord) (i : Nat) : (s.writeSlot k i v).trgSize k = s.trgSize k := congrArg (2 ^ ·) (get_congr (rd_congr writeSlot_regs _ _))
    refine (ih (o + 1) _ (by rw [hsize]; omega) (by rw [hsize]; exact hj)).trans ?_
    rw [visWord_writeSlot o (by omega) hj]
    by_cases h0 : j = o
    · subst h0
      simp
    · by_cases h1 : o + 1 ≤ j ∧ j - (o + 1) < ws.length
      · have hidx : j - o = j - (o + 1) + 1 := by omega
        rw [dif_pos h1, dif_pos (by simp; omega)]
        simp [hidx]
      · rw [dif_neg h1, if_neg h0, dif_neg (by simp; omega)]

end Slots

/-! ### An item pushed with room for it (R375, R376, R380) -/

theorem itemWords_length (ws : List Word) : (itemWords ws).length = ws.length := by simp [itemWords]

theorem itemWords_data (ws : List Word) {j : Nat} (h : j < ws.length) : ((itemWords ws)[j]'(by rwa [itemWords_length])).data = ws[j] := by
  simp [itemWords]

section Push

variable {k m : Nat} {s : State} {ws : List Word}

theorem pushItem_room (h : s.hasRoom k m) (hlen : ws.length ≤ m) (hmax : ws.length ≤ 4096) :
    s.pushItem k ws = (s.commitItem k (itemWords ws)).trgThresh k (s.trg k).vis := by
  obtain ⟨hon, hawake, hopen, hfit⟩ := h
  unfold State.pushItem State.pushBurst
  extract_lets before x
  rw [if_neg (by simp [hon]), if_neg (by simp [hawake]), if_neg (by rw [show x.openBy = none from hopen]; decide),
    if_pos (by rw [itemWords_length]; omega)]

theorem mirrorNote_frame (s : State) (k : Nat) (ws : List TWord) : { s.mirrorNote k ws with mirrorQ := s.mirrorQ } = s := by
  unfold State.mirrorNote
  split <;> rfl

/-- The words of an item stand behind those that were visible. -/
theorem commitItem_visible {ws : List TWord} (hfit : (s.trg k).vis + ws.length ≤ s.trgSize k) :
    ((s.commitItem k ws).trg k).vis = (s.trg k).vis + ws.length ∧ (s.commitItem k ws).sent = s.sent ∧
    ∀ j (hj : j < ws.length), ((s.commitItem k ws).visWord k ((s.trg k).vis + j)).data = ws[j].data := by
  unfold State.commitItem
  extract_lets x s1
  let s2 := s1.setTrg k { s1.trg k with vis := x.vis + ws.length }
  have hmirror := mirrorNote_frame s2 k ws
  have hregs : (s2.mirrorNote k ws).regs = s1.regs := (congrArg State.regs hmirror :)
  have hqueue : (s2.mirrorNote k ws).trg k = { s1.trg k with vis := x.vis + ws.length } :=
    (congrArg (Tab.get Trough.zero · k) (congrArg State.troughs hmirror :)).trans (trg_setTrg_same ..)
  refine ⟨congrArg Trough.vis hqueue, (congrArg State.sent hmirror :).trans (congrArg State.sent (putWords_frame k x.vis ws s) :), fun j hj => ?_⟩
  refine (visWord_data_congr (rd_congr hregs _ _) (rd_congr hregs _ _) (congrArg Trough.head hqueue :) (congrArg State.near hmirror :)
    (congrArg State.fen hmirror :) _).trans ?_
  rw [visWord_putWords ws x.vis s hfit (Nat.lt_of_lt_of_le (Nat.add_lt_add_left hj _) hfit),
    dif_pos ⟨Nat.le_add_right .., (Nat.add_sub_cancel_left ..).trans_lt hj⟩]
  exact congrArg TWord.data (getElem_congr_idx (Nat.add_sub_cancel_left ..))

theorem pushItem_visible (hk : k < 2 ^ 20) (h : s.hasRoom k m) (hlen : ws.length ≤ m) (hmax : ws.length ≤ 4096) :
    ((s.pushItem k ws).trg k).vis = (s.trg k).vis + ws.length ∧ (s.pushItem k ws).sent = s.sent ∧
    ∀ j (hj : j < ws.length), ((s.pushItem k ws).visWord k ((s.trg k).vis + j)).data = ws[j] := by
  have hfit := h.2.2.2
  obtain ⟨hvis, hsent, hwords⟩ := commitItem_visible (s := s) (k := k) (ws := itemWords ws) (by rw [itemWords_length]; omega)
  have hkept := (QueueKept.refl k (s.commitItem k (itemWords ws))).trgThresh (s.trg k).vis hk hk
  rw [pushItem_room h hlen hmax]
  refine ⟨?_, hkept.sent.trans hsent, fun j hj => ?_⟩
  · rw [hkept.queue, hvis, itemWords_length]
  · exact (hkept.visData _).trans ((hwords j (by rwa [itemWords_length])).trans (itemWords_data ws hj))

end Push

end Sys2Proof.Machine

/-! SUPPORT. Events and control requests (R172 to R179): what reaches the troughs, and what becomes of the control IDs. -/

namespace Sys2Proof.Machine

/-! ### Words pushed -/

theorem natOfBytes_lt (bs : List Byte) : natOfBytes bs < 256 ^ bs.length := by
  induction bs with
  | nil => simp [natOfBytes]
  | cons b bs ih =>
    have hb : b.toNat < 256 := b.isLt
    rw [natOfBytes, List.length_cons, pow_succ]
    omega

theorem natOfBytes_take_lt (bs : List Byte) (n : Nat) : natOfBytes (bs.take n) < 256 ^ n :=
  (natOfBytes_lt _).trans_le (Nat.pow_le_pow_right (by decide) (List.length_take_le ..))

/-- The low fields of a word made of three. -/
theorem bits_three_fields {lo w lo' w' lo'' w'' : Nat} (a b c : Nat) (h : lo + w ≤ lo') (h' : lo' + w' ≤ lo'') (h'' : lo'' + w'' ≤ 64) :
    bits (field lo w a ||| field lo' w' b ||| field lo'' w'' c) lo w = a % 2 ^ w ∧
    bits (field lo w a ||| field lo' w' b ||| field lo'' w'' c) lo' w' = b % 2 ^ w' ∧
    bits (field lo w a ||| field lo' w' b ||| field lo'' w'' c) lo'' w'' = c % 2 ^ w'' := by
  refine ⟨?_, ?_, ?_⟩
  · rw [bits_or_mask (bits_field_apart c (.inl (by omega))), bits_or_mask (bits_field_apart b (.inl h)), bits_field_same _ _ _ (by omega)]
  · rw [bits_or_mask (bits_field_apart c (.inl h')), bits_or_zero (bits_field_apart a (.inr h)), bits_field_same _ _ _ (by omega)]
  · rw [bits_or_zero, bits_field_same _ _ _ h'']
    rw [bits_or_zero (bits_field_apart a (.inr (by omega))), bits_field_apart b (.inr h')]

/-! ### Events (R172, R193, R199) -/

section Events

variable {n : Fin 16} {param : BitVec 32} {body : List Byte} {crc : BitVec 32} {e : Bool} {tick : Nat} {room : Bool} {s u : State}

theorem eventPacketReceived_refused (h : (s.reach tick).rxCheck n (rxOf 0x21 0 param body crc e tick) = (false, u)) :
    exec (.eventPacketReceived n param body crc e tick room) s = .next u := by
  change Host.Outcome.next ((s.reach tick).rxEvent n (rxOf 0x21 0 param body crc e tick) room) = _
  unfold State.rxEvent
  rw [h]
  rfl

/-- The word of an Event behind its tick (R193). -/
def eventWord (n param : Nat) (body : List Byte) : Word :=
  field 0 16 (param % 65536) ||| field 16 5 n ||| field 32 32 (natOfBytes (body.take 4))

variable (h : (s.reach tick).rxCheck n (rxOf 0x21 0 param body crc e tick) = (true, u)) (hb : bit (u.rd .PAIR_CFG) (32 + n.val) = false)
include h hb

theorem eventPacketReceived_passed : exec (.eventPacketReceived n param body crc e tick room) s =
    .next (if u.isOn F.STALL_PROTO_CFG_EVT_EN n = false then u
      else if u.get F.STALL_CTRL_CFG_EVT_TROUGH n < 400 then u.inc F.STALL_PATH_ERR_EVT_DISCARDS n
      else u.pushItem (u.get F.STALL_CTRL_CFG_EVT_TROUGH n) [word tick, eventWord n param.toNat body]) := by
  change Host.Outcome.next ((s.reach tick).rxEvent n (rxOf 0x21 0 param body crc e tick) room) = _
  unfold State.rxEvent
  rw [h]
  dsimp only
  rw [forward_off u _ room hb]
  refine congrArg _ ((if_neg (by decide)).trans ?_)
  cases u.isOn F.STALL_PROTO_CFG_EVT_EN n <;> rfl

/-- An Event that passed is dropped, counted, or pushed. -/
theorem eventPacketReceived_effect :
    (u.isOn F.STALL_PROTO_CFG_EVT_EN n = false → exec (.eventPacketReceived n param body crc e tick room) s = .next u) ∧
    (u.isOn F.STALL_PROTO_CFG_EVT_EN n = true → u.get F.STALL_CTRL_CFG_EVT_TROUGH n < 400 →
      ∃ t, exec (.eventPacketReceived n param body crc e tick room) s = .next t ∧ OnlyRegs [(.STALL_PATH_ERR, n.val)] u t ∧
        t.get F.STALL_PATH_ERR_EVT_DISCARDS n = min (u.get F.STALL_PATH_ERR_EVT_DISCARDS n + 1) 65535) ∧
    (∀ k, u.get F.STALL_CTRL_CFG_EVT_TROUGH n = k → 400 ≤ k → u.isOn F.STALL_PROTO_CFG_EVT_EN n = true → u.hasRoom k 2 →
      ∃ t, exec (.eventPacketReceived n param body crc e tick room) s = .next t ∧ (t.trg k).vis = (u.trg k).vis + 2 ∧
        (t.visWord k (u.trg k).vis).data = BitVec.ofNat 64 tick ∧
        bits (t.visWord k ((u.trg k).vis + 1)).data 0 16 = param.toNat % 65536 ∧
        bits (t.visWord k ((u.trg k).vis + 1)).data 16 5 = n.val ∧
        bits (t.visWord k ((u.trg k).vis + 1)).data 32 32 = natOfBytes (body.take 4)) := by
  have hexec := eventPacketReceived_passed (room := room) h hb
  refine ⟨fun hoff => hexec.trans (congrArg _ (if_pos hoff)), fun hon hlow => ?_, fun k hk hhigh hon hroom => ?_⟩
  · refine ⟨_, hexec.trans (congrArg _ ((if_neg (by simp [hon])).trans (if_pos hlow))), put_onlyRegs .., ?_⟩
    exact get_inc_same u F.STALL_PATH_ERR_EVT_DISCARDS n (by decide)
  · subst hk
    have hlt : u.get F.STALL_CTRL_CFG_EVT_TROUGH n < 2 ^ 20 := (get_lt u F.STALL_CTRL_CFG_EVT_TROUGH n).trans (by decide)
    obtain ⟨hvis, -, hwords⟩ := pushItem_visible (ws := [word tick, eventWord n param.toNat body]) hlt hroom (by simp) (by simp)
    obtain ⟨hp, hs, hd⟩ := bits_three_fields (lo := 0) (w := 16) (lo' := 16) (w' := 5) (lo'' := 32) (w'' := 32) (param.toNat % 65536) n
      (natOfBytes (body.take 4)) (by decide) (by decide) (by decide)
    refine ⟨_, hexec.trans (congrArg _ ((if_neg (by simp [hon])).trans (if_neg (by omega)))), hvis, hwords 0 (by simp), ?_⟩
    rw [hwords 1 (by simp)]
    have hn := n.isLt
    refine ⟨hp.trans (by omega), hs.trans (by omega), hd.trans (Nat.mod_eq_of_lt ?_)⟩
    exact natOfBytes_take_lt body 4

end Events

/-! ### Completions (R175, R193) -/

section Completions

variable {n m : Nat} {s : State}

/-- A completion that its trough has room for. -/
theorem ctlComplete_pushed {k : Nat} (hcfg : s.get F.STALL_CTRL_CFG_CRESP_TROUGH n = k) (ht : 400 ≤ k) (h : s.hasRoom k m) (hm : m ≤ 4096)
    (head : Word) (result id : Nat) {data : List Word} (hlen : data.length + 2 ≤ m) :
    ((s.ctlComplete n head result id data).trg k).vis = (s.trg k).vis + (data.length + 2) ∧
    (s.ctlComplete n head result id data).sent = s.sent ∧
    ((s.ctlComplete n head result id data).visWord k (s.trg k).vis).data = head ∧
    bits ((s.ctlComplete n head result id data).visWord k ((s.trg k).vis + 1)).data 0 8 = result % 256 ∧
    bits ((s.ctlComplete n head result id data).visWord k ((s.trg k).vis + 1)).data 8 8 = id % 256 := by
  subst hcfg
  let ws : List Word := head :: (field 0 8 result ||| field 8 8 id ||| field 32 32 (s.now % 2 ^ 32)) :: data
  have hk : s.get F.STALL_CTRL_CFG_CRESP_TROUGH n < 2 ^ 20 := (get_lt s F.STALL_CTRL_CFG_CRESP_TROUGH n).trans (by decide)
  have hpush : s.ctlComplete n head result id data = s.pushItem (s.get F.STALL_CTRL_CFG_CRESP_TROUGH n) ws := if_neg (by omega)
  have hws : ws.length = data.length + 2 := rfl
  obtain ⟨hvis, hsent, hwords⟩ := pushItem_visible (ws := ws) hk h (by omega) (by omega)
  obtain ⟨hr, hi, -⟩ := bits_three_fields (lo := 0) (w := 8) (lo' := 8) (w' := 8) (lo'' := 32) (w'' := 32) result id (s.now % 2 ^ 32)
    (by decide) (by decide) (by decide)
  have h1 := hwords 1 (by simp [ws])
  rw [hpush]
  exact ⟨hvis, hsent, hwords 0 (by simp [ws]), by rw [h1]; exact hr, by rw [h1]; exact hi⟩

end Completions

/-! ### The control IDs in STALL_CTRL_STATUS (R194) -/

section Ids

variable {n : Nat} {s : State}

theorem showIds_stall : (s.showIds n).stall n = s.stall n := rfl

theorem showIds_regs (s : State) (n : Nat) : RegsBut [(.STALL_CTRL_STATUS, n)] s (s.showIds n) :=
  (((RegsBut.refl _ s).put F.STALL_CTRL_STATUS_OUTSTANDING _ List.mem_cons_self).put F.STALL_CTRL_STATUS_QUARANTINED _ List.mem_cons_self).put
    F.STALL_CTRL_STATUS_QUARANTINE_ALL _ List.mem_cons_self

/-- Where one register changed the others of its number read as before. -/
theorem RegsBut.rd_beside {s t : State} {r q : Reg} {i : Nat} (h : RegsBut [(r, i)] s t) (hi : i < 2 ^ 20) (hq : q ≠ r) : t.rd q i = s.rd q i :=
  h.rd_eq hi fun p hp => by
    obtain rfl := List.mem_singleton.mp hp
    exact ⟨hq, hi⟩

theorem showIds_get (s : State) {f : Fld} (hn : n < 2 ^ 20) (hf : f.r ≠ .STALL_CTRL_STATUS) : (s.showIds n).get f n = s.get f n :=
  get_congr ((showIds_regs s n).rd_beside hn hf)

theorem showIds_outstanding : (s.showIds n).get F.STALL_CTRL_STATUS_OUTSTANDING n = (s.stall n).reqs.length % 512 := by
  unfold State.showIds
  extract_lets x
  rw [get_put_beside _ F.STALL_CTRL_STATUS_QUARANTINE_ALL F.STALL_CTRL_STATUS_OUTSTANDING _ _ rfl (by decide),
    get_put_beside _ F.STALL_CTRL_STATUS_QUARANTINED F.STALL_CTRL_STATUS_OUTSTANDING _ _ rfl (by decide)]
  exact get_put_same s F.STALL_CTRL_STATUS_OUTSTANDING n _ (by decide)

theorem showIds_all : (s.showIds n).get F.STALL_CTRL_STATUS_QUARANTINE_ALL n = b2n (s.stall n).quarAll.isSome := by
  unfold State.showIds
  extract_lets x
  rw [get_put_same _ F.STALL_CTRL_STATUS_QUARANTINE_ALL n _ (by decide)]
  exact Nat.mod_eq_of_lt (by cases x.quarAll.isSome <;> decide)

theorem modStall_queueKept (s : State) {k : Nat} (n : Nat) (f : Stall → Stall) : QueueKept k s (s.modStall n f) :=
  ⟨rfl, rfl, rfl, rfl, rfl, rfl, rfl⟩

theorem showIds_queueKept (s : State) {k n : Nat} (hn : n < 2 ^ 20) (hk : k < 2 ^ 20) : QueueKept k s (s.showIds n) :=
  (((QueueKept.refl k s).put _ _ (by decide) hn hk).put _ _ (by decide) hn hk).put _ _ (by decide) hn hk

end Ids

/-! ### CONTROL_REQUEST_POP (R173, R174, R176, R193) -/

/-- With no words behind it an item can only be a READ. -/
theorem requestOk_single {h : Word} (hok : requestOk [h] = true) : bits h 32 8 = 1 := by
  by_contra hop
  simp only [requestOk, if_neg hop, Bool.and_eq_true, decide_eq_true_eq] at hok
  obtain ⟨⟨⟨-, hlow⟩, -⟩, hshape⟩ := hok
  split at hshape
  · simp only [List.length_nil, beq_iff_eq] at hshape
    omega
  · simp at hshape

theorem trgThresh_sent (s : State) (k before : Nat) : (s.trgThresh k before).sent = s.sent :=
  (congrArg State.sent (trgThresh_blankTroughs s k before) :)

theorem noteHead_sent (s : State) (k : Nat) : (s.noteHead k).sent = s.sent := by
  unfold State.noteHead State.noteTaken
  simp only [apply_ite State.sent, State.raiseMark, wr_sent, ite_self]

theorem dropHead_sent (s : State) (k : Nat) : (s.dropHead k).sent = s.sent :=
  (trgThresh_sent ..).trans (noteHead_sent s k)

section Pop

variable {n : Fin 16} {s : State}

theorem controlRequestPop_waits (h : s.stUp n = false ∨ s.inHold = true ∨ s.get F.STALL_CTRL_CFG_CREQ_TROUGH n < 400 ∨
    (s.stall n).nextId = none ∨ s.headItem (s.get F.STALL_CTRL_CFG_CREQ_TROUGH n) = none) : exec (.controlRequestPop n) s = .next s := by
  change execControlRequestPop n s = _
  unfold execControlRequestPop
  extract_lets t x s1 f
  refine congrArg Host.Outcome.next ?_
  split
  · rfl
  next hready =>
  simp only [Bool.or_eq_true, Bool.not_eq_true', decide_eq_true_eq, not_or, Bool.not_eq_false] at hready
  obtain ⟨⟨⟨⟨hup, -⟩, hhold⟩, -⟩, hlow⟩ := hready
  split
  · next hid hit =>
    rcases h with h | h | h | h | h
    · exact absurd (hup.symm.trans h) (by decide)
    · exact absurd h hhold
    · exact absurd h hlow
    · exact absurd (hid.symm.trans h) (by simp)
    · exact absurd (hit.symm.trans h) (by simp)
  · rfl

/-- The conditions of R176: the stall may send, an ID is free, and an item that is no gap marker waits at its trough's head. -/
structure PopReady (n : Fin 16) (s : State) (id : Nat) (h : Word) (it : Item) : Prop where
  up : s.stUp n = true
  own : s.fwdIn n = false
  live : s.inHold = false
  running : s.ctl.mode ≠ .reset
  trough : 400 ≤ s.get F.STALL_CTRL_CFG_CREQ_TROUGH n
  free : (s.stall n).nextId = some id
  head : s.headItem (s.get F.STALL_CTRL_CFG_CREQ_TROUGH n) = some it
  noGap : it.gap = false
  first : it.words.head? = some h

/-- The item has left its trough. -/
def State.creqTaken (s : State) (n : Nat) : State := s.dropHead (s.get F.STALL_CTRL_CFG_CREQ_TROUGH n)

/-- The request is outstanding under its ID. -/
def State.reqIssued (s : State) (n id : Nat) (h : Word) : State :=
  ((s.creqTaken n).modStall n fun y => { y with reqs := y.reqs ++ [⟨id, h, s.now⟩], lastCid := id }).showIds n

/-- The request's words as bytes (R174). -/
def requestBody (h : Word) (ws : List Word) : List Byte :=
  bytesOfNat 4 (bits h 32 8 + 256 * bits h 40 7) ++
    if bits h 32 8 = 1 then [] else (unpackPairs (bits h 40 7) (ws.drop 1)).flatMap fun v => bytesOfNat 4 v

variable {id : Nat} {h : Word} {it : Item}

theorem creqTaken_flows (s : State) (n : Nat) : Flows s (s.creqTaken n) :=
  (Flows.refl s).dropHead ((get_lt s F.STALL_CTRL_CFG_CREQ_TROUGH n).trans (by decide))

theorem creqTaken_sent (s : State) (n : Nat) : (s.creqTaken n).sent = s.sent := dropHead_sent s (s.get F.STALL_CTRL_CFG_CREQ_TROUGH n)

theorem creqTaken_queueKept {k : Nat} (hk : k < 2 ^ 20) (hne : k ≠ s.get F.STALL_CTRL_CFG_CREQ_TROUGH n) : QueueKept k s (s.creqTaken n) :=
  (QueueKept.refl k s).dropHead ((get_lt s F.STALL_CTRL_CFG_CREQ_TROUGH n).trans (by decide)) hk hne

theorem reqIssued_stall : (s.reqIssued n id h).stall n =
    { s.stall n with reqs := (s.stall n).reqs ++ [⟨id, h, s.now⟩], lastCid := id } := by
  rw [← (creqTaken_flows s n).stall n]
  exact (showIds_stall (n := n.val)).trans (stall_modStall_same (s.creqTaken n) n _)

theorem showIds_sent (s : State) (n : Nat) : (s.showIds n).sent = s.sent := rfl

theorem reqIssued_sent : (s.reqIssued n id h).sent = s.sent := by
  unfold State.reqIssued
  rw [showIds_sent, modStall_sent, creqTaken_sent]

theorem reqIssued_outstanding : (s.reqIssued n id h).get F.STALL_CTRL_STATUS_OUTSTANDING n = ((s.reqIssued n id h).stall n).reqs.length % 512 := by
  unfold State.reqIssued
  rw [showIds_outstanding, showIds_stall]

theorem fresh_flows (a : State) : Flows a a.fresh.2 := (Flows.refl a).store rfl rfl rfl rfl

theorem fresh_queueKept (k : Nat) (a : State) : QueueKept k a a.fresh.2 := ⟨rfl, rfl, rfl, rfl, rfl, rfl, rfl⟩

theorem controlRequestPop_taken (r : PopReady n s id h it) : exec (.controlRequestPop n) s =
    .next (if (it.poison || !requestOk it.words) = true then
      (s.creqTaken n).fresh.2.ctlComplete n h crBadRequest (bits (s.creqTaken n).fresh.1 0 8) []
    else (s.reqIssued n id h).emit (.camPacket n (packetWhole 0x10 id (bits h 0 32) (requestBody h it.words)))) := by
  change execControlRequestPop n s = _
  unfold execControlRequestPop
  extract_lets t x s1 f
  refine congrArg Host.Outcome.next ((if_neg (by simp [r.up, r.own, r.live, r.running, t, r.trough])).trans ?_)
  split
  · next i j hid hit =>
    obtain rfl := Option.some.inj (r.free.symm.trans hid)
    obtain rfl := Option.some.inj (r.head.symm.trans hit)
    extract_lets g op k body s2
    have hg : g = h := by
      unfold g
      rw [r.first]
      rfl
    rw [if_neg (by simp [r.noGap])]
    unfold s2 body op k
    rw [hg]
    rfl
  · next hnone => exact absurd r.head (hnone _ _ r.free)

/-- A READ item is sent under the next free ID. -/
theorem controlRequestPop_sends (r : PopReady n s id h it) (hp : it.poison = false) (hw : it.words = [h]) (hok : requestOk [h] = true) :
    ∃ t, exec (.controlRequestPop n) s = .next t ∧ (t.stall n).reqs = (s.stall n).reqs ++ [⟨id, h, s.now⟩] ∧
      (t.stall n).lastCid = id ∧ t.sent = s.sent ++ [.camPacket n (packetWhole 0x10 id (bits h 0 32)
        (bytesOfNat 4 (bits h 32 8 + 256 * bits h 40 7)))] ∧
      t.get F.STALL_CTRL_STATUS_OUTSTANDING n = ((s.stall n).reqs.length + 1) % 512 := by
  have hreqs : ((s.reqIssued n id h).stall n).reqs = (s.stall n).reqs ++ [⟨id, h, s.now⟩] := (congrArg Stall.reqs reqIssued_stall :)
  have hbody : requestBody h it.words = bytesOfNat 4 (bits h 32 8 + 256 * bits h 40 7) := by
    unfold requestBody
    rw [if_pos (requestOk_single hok), List.append_nil]
  have hexec := (controlRequestPop_taken r).trans (congrArg _ (if_neg (by simp [hp, hw, hok])))
  have hlast : ((s.reqIssued n id h).stall n).lastCid = id := (congrArg Stall.lastCid reqIssued_stall :)
  have hsent : (s.reqIssued n id h).sent = s.sent := reqIssued_sent
  have hout : (s.reqIssued n id h).get F.STALL_CTRL_STATUS_OUTSTANDING n = ((s.stall n).reqs.length + 1) % 512 := by
    rw [reqIssued_outstanding, hreqs, List.length_append, List.length_singleton]
  rw [hbody] at hexec
  generalize s.reqIssued n id h = u at hexec hreqs hlast hsent hout
  exact ⟨_, hexec, hreqs, hlast, congrArg (· ++ _) hsent, hout⟩

/-- An item that breaks the layout completes BAD_REQUEST. -/
theorem controlRequestPop_refuses (r : PopReady n s id h it) (hbad : it.poison = true ∨ requestOk it.words = false) {k : Nat}
    (hcfg : s.get F.STALL_CTRL_CFG_CRESP_TROUGH n = k) (ht : 400 ≤ k) (hne : k ≠ s.get F.STALL_CTRL_CFG_CREQ_TROUGH n) (hroom : s.hasRoom k 2) :
    ∃ t, exec (.controlRequestPop n) s = .next t ∧ t.sent = s.sent ∧ (t.stall n).reqs = (s.stall n).reqs ∧
      (t.trg k).vis = (s.trg k).vis + 2 ∧ (t.visWord k (s.trg k).vis).data = h ∧
      bits (t.visWord k ((s.trg k).vis + 1)).data 0 8 = 0x83 := by
  have hk : k < 2 ^ 20 := hcfg ▸ (get_lt s F.STALL_CTRL_CFG_CRESP_TROUGH n).trans (by decide)
  have hexec := (controlRequestPop_taken r).trans (congrArg _ (if_pos (by simpa using hbad)))
  have hflows : Flows s (s.creqTaken n).fresh.2 := (creqTaken_flows s n).trans (fresh_flows _)
  have hkept : QueueKept k s (s.creqTaken n).fresh.2 := (creqTaken_queueKept hk hne).trans (fresh_queueKept k _)
  generalize (s.creqTaken n).fresh.1 = v at hexec
  generalize (s.creqTaken n).fresh.2 = u at hexec hflows hkept
  have htrough : u.get F.STALL_CTRL_CFG_CRESP_TROUGH n = k := (hflows.get F.STALL_CTRL_CFG_CRESP_TROUGH rfl (by omega)).trans hcfg
  have hmoves := ctlComplete_moves u (n := n.val) (by omega) h crBadRequest (bits v 0 8) []
  have hpush := ctlComplete_pushed htrough ht (hkept.hasRoom hroom) (by decide) h crBadRequest (bits v 0 8) (data := []) (by decide)
  rw [hkept.queue] at hpush
  obtain ⟨hvis, hsent, hhead, hresult, -⟩ := hpush
  exact ⟨_, hexec, hsent.trans hkept.sent, congrArg Stall.reqs (hmoves.record.trans (hflows.stall n)), hvis, hhead, hresult⟩

end Pop

/-! ### Responses (R174, R175, R177, R179) -/

theorem packPairs_length : ∀ xs : List Nat, (packPairs xs).length = (xs.length + 1) / 2
  | [] => rfl
  | [_] => by simp [packPairs]
  | _ :: _ :: xs => by
    simp only [packPairs, List.length_cons, packPairs_length xs]
    omega

/-- A packet that passed its checks has the length of its type (Table 4.2). -/
theorem rxCheck_passed_length {s u : State} {n : Nat} {p : Rx} (h : s.rxCheck n p = (true, u)) : p.badLength = false := by
  unfold State.rxCheck at h
  change (if _ then (false, s) else if p.badLength = true then _ else _) = _ at h
  split at h
  · exact absurd (congrArg Prod.fst h) (by simp)
  · split at h
    · exact absurd (congrArg Prod.fst h) (by simp)
    · next hb => simpa using hb

/-- A response carries at most 64 words of 32 bits. -/
theorem Rx.length_of_response {p : Rx} (h : p.badLength = false) (hp : p.type = 0x11) : p.body.length ≤ 260 := by
  have hb : p.badLength = (decide (p.body.length < 4) || decide (260 < p.body.length)) := by
    unfold Rx.badLength
    rw [hp]
    rfl
  rw [hb, Bool.or_eq_false_iff, decide_eq_false_iff_not, decide_eq_false_iff_not] at h
  omega

/-- The data words of a completion (R175): those of a READ that fits and succeeded. -/
def responseData (head : Word) (p : Rx) : List Word :=
  if (bits head 32 8 == 1 && p.num 0 1 == 0) = true then p.data (bits head 40 7) else []

theorem responseData_length {head : Word} {p : Rx} (hfit : fitsRequest head p = true) (hlen : p.body.length ≤ 260) :
    (responseData head p).length ≤ 32 := by
  unfold responseData
  split
  · next hread =>
    rw [Bool.and_eq_true, beq_iff_eq, beq_iff_eq] at hread
    simp only [fitsRequest, if_pos hread, Bool.and_eq_true, beq_iff_eq] at hfit
    have hn := hfit.2.2
    rw [Rx.data, packPairs_length, List.length_map, List.length_range]
    omega
  · exact Nat.zero_le _

section Responses

variable {n : Fin 16} {id : Fin 256} {param : BitVec 32} {body : List Byte} {crc : BitVec 32} {e : Bool} {tick : Nat} {s u : State}

theorem controlResponseReceived_refused (h : (s.reach tick).rxCheck n (rxOf 0x11 id param body crc e tick) = (false, u)) :
    exec (.controlResponseReceived n id param body crc e tick) s = .next u := by
  change execControlResponseReceived n id param body crc e tick s = _
  unfold execControlResponseReceived
  extract_lets p r x
  have hr : r = (false, u) := h
  rw [hr]
  rfl

/-- The request is no longer outstanding. -/
def State.reqEnded (u : State) (n id : Nat) : State := (u.modStall n fun y => { y with reqs := y.reqs.filter fun z => z.id != id }).showIds n

theorem reqEnded_reqs (u : State) (n id : Nat) : ((u.reqEnded n id).stall n).reqs = (u.stall n).reqs.filter fun z => z.id != id := by
  unfold State.reqEnded
  rw [showIds_stall, stall_modStall_same]

theorem reqEnded_queueKept (u : State) {n k : Nat} (id : Nat) (hn : n < 2 ^ 20) (hk : k < 2 ^ 20) : QueueKept k u (u.reqEnded n id) :=
  (modStall_queueKept u n _).trans (showIds_queueKept _ hn hk)

theorem reqEnded_trough (u : State) {n : Nat} (id : Nat) (hn : n < 2 ^ 20) :
    (u.reqEnded n id).get F.STALL_CTRL_CFG_CRESP_TROUGH n = u.get F.STALL_CTRL_CFG_CRESP_TROUGH n :=
  showIds_get _ hn (by decide)

variable (h : (s.reach tick).rxCheck n (rxOf 0x11 id param body crc e tick) = (true, u))
include h

theorem controlResponseReceived_passed : exec (.controlResponseReceived n id param body crc e tick) s =
    .next (match (u.stall n).reqs.find? fun q => q.id == id.val with
    | some q =>
        if fitsRequest q.head (rxOf 0x11 id param body crc e tick) = true then
          (u.reqEnded n id).ctlComplete n q.head (natOfBytes (body.take 1)) id (responseData q.head (rxOf 0x11 id param body crc e tick))
        else (u.reqEnded n id).ctlComplete n q.head crBadResponse id []
    | none =>
        if ((u.stall n).quarAll.isSome || (u.stall n).quar.any (fun q => q.1 == id.val)) = true then u.inc F.STALL_CTRL_ERR_LATE_RESP n
        else u.inc F.STALL_CTRL_ERR_UNEXPECTED_RESP n) := by
  change execControlResponseReceived n id param body crc e tick s = _
  unfold execControlResponseReceived
  extract_lets p r x
  have hr : r = (true, u) := h
  clear_value r
  subst hr
  refine congrArg Host.Outcome.next ((if_neg (by simp)).trans ?_)
  change (match (u.stall n).reqs.find? fun q => q.id == id.val with | some q => _ | none => _) = _
  cases (u.stall n).reqs.find? fun q => q.id == id.val <;> rfl

/-- A response to an outstanding request ends it and completes it with its STATUS, or as BAD_RESPONSE. -/
theorem controlResponseReceived_completes {q : CtlReq} {k : Nat} (hq : (u.stall n).reqs.find? (fun x => x.id == id.val) = some q)
    (hcfg : u.get F.STALL_CTRL_CFG_CRESP_TROUGH n = k) (ht : 400 ≤ k) (hroom : u.hasRoom k 34) :
    ∃ t, exec (.controlResponseReceived n id param body crc e tick) s = .next t ∧
      (t.stall n).reqs = (u.stall n).reqs.filter (fun x => x.id != id.val) ∧
      (t.visWord k (u.trg k).vis).data = q.head ∧ bits (t.visWord k ((u.trg k).vis + 1)).data 8 8 = id.val ∧
      bits (t.visWord k ((u.trg k).vis + 1)).data 0 8 =
        (if fitsRequest q.head (rxOf 0x11 id param body crc e tick) = true then natOfBytes (body.take 1) else 0x84) := by
  have hn : n.val < 2 ^ 20 := by omega
  have hid := id.isLt
  have hk : k < 2 ^ 20 := hcfg ▸ (get_lt u F.STALL_CTRL_CFG_CRESP_TROUGH n).trans (by decide)
  have hkept := reqEnded_queueKept u id.val hn hk
  have hdone (result : Nat) {data : List Word} (hlen : data.length + 2 ≤ 34) :
      let t := (u.reqEnded n id).ctlComplete n q.head result id data
      (t.stall n).reqs = (u.stall n).reqs.filter (fun x => x.id != id.val) ∧ (t.visWord k (u.trg k).vis).data = q.head ∧
        bits (t.visWord k ((u.trg k).vis + 1)).data 8 8 = id.val ∧ bits (t.visWord k ((u.trg k).vis + 1)).data 0 8 = result % 256 := by
    have hpush := ctlComplete_pushed ((reqEnded_trough u id.val hn).trans hcfg) ht (hkept.hasRoom hroom) (by decide) q.head result id.val hlen
    rw [hkept.queue] at hpush
    obtain ⟨-, -, hhead, hresult, hids⟩ := hpush
    have hmoves := ctlComplete_moves (u.reqEnded n id) hn q.head result id data
    exact ⟨(congrArg Stall.reqs hmoves.record).trans (reqEnded_reqs u n id), hhead, hids.trans (Nat.mod_eq_of_lt hid), hresult⟩
  have hexec := controlResponseReceived_passed h
  rw [hq] at hexec
  by_cases hfit : fitsRequest q.head (rxOf 0x11 id param body crc e tick) = true
  · have hlen := responseData_length hfit (Rx.length_of_response (rxCheck_passed_length h) rfl)
    obtain ⟨hreqs, hhead, hids, hresult⟩ := hdone (natOfBytes (body.take 1)) (Nat.add_le_add_right hlen 2)
    rw [if_pos hfit]
    exact ⟨_, hexec.trans (congrArg _ (if_pos hfit)), hreqs, hhead, hids, hresult.trans (Nat.mod_eq_of_lt (natOfBytes_take_lt body 1))⟩
  · obtain ⟨hreqs, hhead, hids, hresult⟩ := hdone crBadResponse (data := []) (by decide)
    rw [if_neg hfit]
    exact ⟨_, hexec.trans (congrArg _ (if_neg hfit)), hreqs, hhead, hids, hresult⟩

/-- A response to no outstanding request only counts. -/
theorem controlResponseReceived_counts (hq : (u.stall n).reqs.find? (fun x => x.id == id.val) = none) :
    ∃ t, exec (.controlResponseReceived n id param body crc e tick) s = .next t ∧ OnlyRegs [(.STALL_CTRL_ERR, n.val)] u t ∧
      (if (u.stall n).quarAll.isSome = true ∨ (∃ q ∈ (u.stall n).quar, q.1 = id.val) then
        t.get F.STALL_CTRL_ERR_LATE_RESP n = min (u.get F.STALL_CTRL_ERR_LATE_RESP n + 1) 65535
       else t.get F.STALL_CTRL_ERR_UNEXPECTED_RESP n = min (u.get F.STALL_CTRL_ERR_UNEXPECTED_RESP n + 1) 65535) := by
  have hexec := controlResponseReceived_passed h
  rw [hq] at hexec
  by_cases hlate : (u.stall n).quarAll.isSome = true ∨ (∃ q ∈ (u.stall n).quar, q.1 = id.val)
  · refine ⟨_, hexec.trans (congrArg _ (if_pos (by simpa using hlate))), put_onlyRegs .., ?_⟩
    rw [if_pos hlate]
    exact get_inc_same u F.STALL_CTRL_ERR_LATE_RESP n (by decide)
  · refine ⟨_, hexec.trans (congrArg _ (if_neg (by simpa using hlate))), put_onlyRegs .., ?_⟩
    rw [if_neg hlate]
    exact get_inc_same u F.STALL_CTRL_ERR_UNEXPECTED_RESP n (by decide)

end Responses

/-! ### Time-outs and quarantine (R177, R178) -/

section Quarantine

variable {n : Fin 16} {s : State}

theorem controlTimeout_none (h : (s.stall n).reqs = []) : exec (.controlTimeout n) s = .next s := by
  change execControlTimeout n s = _
  unfold execControlTimeout
  rw [h]

/-- The oldest request `q` has waited for its time: its ID is quarantined for one more period. -/
def State.reqExpired (s : State) (n : Nat) (q : CtlReq) (rest : List CtlReq) : State :=
  (s.reach (q.since + s.ctlTimeout n)).modStall n fun x =>
    { x with reqs := rest, quar := x.quar ++ [(q.id, (s.reach (q.since + s.ctlTimeout n)).now + s.ctlTimeout n)] }

theorem reqExpired_stall (s : State) (n : Nat) (q : CtlReq) (rest : List CtlReq) : (s.reqExpired n q rest).stall n =
    { s.stall n with reqs := rest, quar := (s.stall n).quar ++ [(q.id, (s.reach (q.since + s.ctlTimeout n)).now + s.ctlTimeout n)] } :=
  stall_modStall_same (s.reach (q.since + s.ctlTimeout n)) n _

theorem controlTimeout_some {q : CtlReq} {rest : List CtlReq} (h : (s.stall n).reqs = q :: rest) : exec (.controlTimeout n) s =
    .next ((((s.reqExpired n q rest).showIds n).inc F.STALL_CTRL_ERR_TIMEOUTS n).ctlComplete n q.head crTimeout q.id []) := by
  change execControlTimeout n s = _
  unfold execControlTimeout
  rw [h]
  rfl

theorem controlTimeout_effect {q : CtlReq} {rest : List CtlReq} (h : (s.stall n).reqs = q :: rest) :
    ∃ t, exec (.controlTimeout n) s = .next t ∧ (t.stall n).reqs = rest ∧
      t.now = max s.now (q.since + 4000 * max 1 (s.get F.STALL_CTRL_CFG_TIMEOUT n)) ∧
      (t.stall n).quar = (s.stall n).quar ++ [(q.id, t.now + 4000 * max 1 (s.get F.STALL_CTRL_CFG_TIMEOUT n))] ∧
      t.get F.STALL_CTRL_ERR_TIMEOUTS n = min (s.get F.STALL_CTRL_ERR_TIMEOUTS n + 1) 65535 := by
  have hn : n.val < 2 ^ 20 := by omega
  have hmoves := ctlComplete_moves (((s.reqExpired n q rest).showIds n).inc F.STALL_CTRL_ERR_TIMEOUTS n) hn q.head crTimeout q.id []
  have hrecord : _ = (s.reqExpired n q rest).stall n := hmoves.record.trans ((stall_inc ..).trans showIds_stall)
  have hcount : ((s.reqExpired n q rest).showIds n).get F.STALL_CTRL_ERR_TIMEOUTS n = s.get F.STALL_CTRL_ERR_TIMEOUTS n :=
    showIds_get _ hn (by decide)
  rw [reqExpired_stall] at hrecord
  refine ⟨_, controlTimeout_some h, (congrArg Stall.reqs hrecord :), hmoves.now, ?_, ?_⟩
  · rw [hmoves.now]
    exact (congrArg Stall.quar hrecord :)
  · refine (hmoves.get F.STALL_CTRL_ERR_TIMEOUTS rfl (by decide) hn).trans ((get_inc_same _ _ _ (by decide)).trans ?_)
    rw [hcount]
    rfl

theorem controlIdQuarantineEnd_all {b : Nat} (h : (s.stall n).quarAll = some (some b)) :
    ∃ t, exec (.controlIdQuarantineEnd n) s = .next t ∧ (t.stall n).quarAll = none ∧ t.now = max s.now b ∧
      t.get F.STALL_CTRL_STATUS_QUARANTINE_ALL n = 0 := by
  have hexec : exec (.controlIdQuarantineEnd n) s = .next (((s.reach b).modStall n fun y =>
      { y with quarAll := none, quar := y.quar.filter fun q => b < q.2 }).showIds n) := by
    change execControlIdQuarantineEnd n s = _
    unfold execControlIdQuarantineEnd
    extract_lets x
    unfold x
    rw [h]
  have hall : (((s.reach b).modStall n fun y => { y with quarAll := none, quar := y.quar.filter fun q => b < q.2 }).stall n).quarAll = none :=
    (congrArg Stall.quarAll (stall_modStall_same (s.reach b) n _) :)
  exact ⟨_, hexec, hall, rfl, showIds_all.trans (by rw [hall]; rfl)⟩

theorem controlIdQuarantineEnd_one {q : Nat × Nat} {rest : List (Nat × Nat)} (hall : (s.stall n).quarAll = none)
    (h : (s.stall n).quar = q :: rest) :
    ∃ t, exec (.controlIdQuarantineEnd n) s = .next t ∧ (t.stall n).quar = rest ∧ t.now = max s.now q.2 := by
  have hexec : exec (.controlIdQuarantineEnd n) s = .next (((s.reach q.2).modStall n fun y => { y with quar := rest }).showIds n) := by
    change execControlIdQuarantineEnd n s = _
    unfold execControlIdQuarantineEnd
    extract_lets x
    unfold x
    rw [hall, h]
  refine ⟨_, hexec, ?_, rfl⟩
  rw [showIds_stall, stall_modStall_same]

theorem controlIdQuarantineEnd_none (h : (s.stall n).quarAll = some none ∨ (s.stall n).quarAll = none ∧ (s.stall n).quar = []) :
    exec (.controlIdQuarantineEnd n) s = .next s := by
  change execControlIdQuarantineEnd n s = _
  unfold execControlIdQuarantineEnd
  extract_lets x
  unfold x
  rcases h with h | ⟨hall, hquar⟩
  · rw [h]
  · rw [hall, hquar]

end Quarantine

end Sys2Proof.Machine

/-! SUPPORT. Heartbeats, the latency they give, and CNT_CLEAR (R171, R180, R181, R191, R192, R198). -/

namespace Sys2Proof.Machine

/-! ### A latency sample (R171) -/

section Sample

variable {n : Nat} {s : State}

theorem rttSample_regs (s : State) (n : Nat) (d : Int) : RegsBut [(.STALL_LATENCY, n)] s (s.rttSample n d) := by
  unfold State.rttSample
  split
  · exact .refl _ _
  · extract_lets x l s1
    exact ((RegsBut.of_regs (t := s1) rfl _).put F.STALL_LATENCY_ONE_WAY _ List.mem_cons_self).put F.STALL_LATENCY_VALID _ List.mem_cons_self

theorem rttSample_frame (s : State) (n : Nat) (d : Int) : { s.rttSample n d with regs := s.regs, stalls := s.stalls } = s := by
  unfold State.rttSample
  split <;> rfl

theorem rttSample_hbRx (s : State) (n : Nat) (d : Int) : ((s.rttSample n d).stall n).hbRx = (s.stall n).hbRx := by
  unfold State.rttSample
  split
  · rfl
  · extract_lets x l s1
    exact (congrArg Stall.hbRx (stall_modStall_same s n fun y => { y with rtt := l, rttCount := min 16 (y.rttCount + 1) }) :)

/-- A round trip between 0 and 40,000 ticks enters the mean. -/
theorem rttSample_taken {d : Nat} (hd : d ≤ 40000) :
    ((s.rttSample n d).stall n).rtt = d :: (s.stall n).rtt.take 15 ∧
    (s.rttSample n d).get F.STALL_LATENCY_ONE_WAY n =
      ((s.rttSample n d).stall n).rtt.foldl (· + ·) 0 / (2 * ((s.rttSample n d).stall n).rtt.length) % 2 ^ 20 ∧
    (s.rttSample n d).get F.STALL_LATENCY_VALID n = b2n (decide (16 ≤ (s.stall n).rttCount + 1)) := by
  have hin : ¬ ((d : Int) < 0 ∨ 40000 < (d : Int)) := by omega
  unfold State.rttSample
  rw [if_neg hin]
  extract_lets x l s1
  have hrtt : (s1.stall n).rtt = l :=
    (congrArg Stall.rtt (stall_modStall_same s n fun y => { y with rtt := l, rttCount := min 16 (y.rttCount + 1) }) :)
  refine ⟨hrtt, ?_, ?_⟩
  · refine (get_put_beside _ F.STALL_LATENCY_VALID F.STALL_LATENCY_ONE_WAY _ _ rfl (by decide)).trans ?_
    refine (get_put_same s1 F.STALL_LATENCY_ONE_WAY n _ (by decide)).trans ?_
    rw [← hrtt]
    rfl
  · refine (get_put_same _ F.STALL_LATENCY_VALID n _ (by decide)).trans (Nat.mod_eq_of_lt ?_)
    cases decide (16 ≤ x.rttCount + 1) <;> decide

end Sample

/-! ### HEARTBEAT_RECEIVED (R180, R192, R198) -/

/-- What a Heartbeat says of its camera is shown. -/
def State.hbShown (u : State) (n seq st : Nat) : State :=
  (((((u.put F.STALL_HB_HB_RX_SEQ n seq).put F.STALL_HB_CAM_STATUS n st).put F.STALL_PROTO_STATUS_CAM_ORPHAN n (st / 2)).put
    F.STALL_PROTO_STATUS_CAM_FOLLOWS n st).put F.STALL_PROTO_STATUS_CAM_DUAL_PORT n (st / 8))

/-- The camera is ALIVE, unless its mode is QUIET (R182). -/
def State.hbAlive (s : State) (n : Nat) : State :=
  if (s.stall n).quietPeer then s else (s.put F.STALL_PROTO_STATUS_CAM_STATE n 1).modStall n fun x => { x with hbRx := some s.now }

section Received

variable {n : Nat} {u : State} {seq st : Nat}

theorem hbShown_regs : RegsBut [(.STALL_HB, n), (.STALL_PROTO_STATUS, n)] u (u.hbShown n seq st) :=
  (((((RegsBut.refl _ u).put F.STALL_HB_HB_RX_SEQ _ (by simp)).put F.STALL_HB_CAM_STATUS _ (by simp)).put F.STALL_PROTO_STATUS_CAM_ORPHAN _
    (by simp)).put F.STALL_PROTO_STATUS_CAM_FOLLOWS _ (by simp)).put F.STALL_PROTO_STATUS_CAM_DUAL_PORT _ (by simp)

theorem hbShown_frame : { u.hbShown n seq st with regs := u.regs } = u := rfl

theorem hbShown_stall : (u.hbShown n seq st).stall n = u.stall n := rfl

/-- STALL_HB stands once it is written. -/
theorem hbShown_hb (hn : n < 2 ^ 20) (f : Fld) (hf : f.r = .STALL_HB) :
    (u.hbShown n seq st).get f n = ((u.put F.STALL_HB_HB_RX_SEQ n seq).put F.STALL_HB_CAM_STATUS n st).get f n := by
  have hr {a : State} {g : Fld} (v : Nat) (hg : g.r = .STALL_PROTO_STATUS) : (a.put g n v).get f n = a.get f n :=
    get_put_reg a g f n n v (by rw [hf, hg]; decide) hn hn
  unfold State.hbShown
  rw [hr _ rfl, hr _ rfl, hr _ rfl]

theorem hbShown_seq (hn : n < 2 ^ 20) (hseq : seq < 2 ^ 32) : (u.hbShown n seq st).get F.STALL_HB_HB_RX_SEQ n = seq := by
  rw [hbShown_hb hn _ rfl, get_put_beside _ F.STALL_HB_CAM_STATUS F.STALL_HB_HB_RX_SEQ _ _ rfl (by decide),
    get_put_same _ F.STALL_HB_HB_RX_SEQ _ _ (by decide)]
  exact Nat.mod_eq_of_lt hseq

theorem hbShown_status (hn : n < 2 ^ 20) (hst : st < 2 ^ 16) : (u.hbShown n seq st).get F.STALL_HB_CAM_STATUS n = st := by
  rw [hbShown_hb hn _ rfl, get_put_same _ F.STALL_HB_CAM_STATUS _ _ (by decide)]
  exact Nat.mod_eq_of_lt hst

theorem hbShown_orphan : (u.hbShown n seq st).get F.STALL_PROTO_STATUS_CAM_ORPHAN n = st / 2 % 2 := by
  unfold State.hbShown
  rw [get_put_beside _ F.STALL_PROTO_STATUS_CAM_DUAL_PORT F.STALL_PROTO_STATUS_CAM_ORPHAN _ _ rfl (by decide),
    get_put_beside _ F.STALL_PROTO_STATUS_CAM_FOLLOWS F.STALL_PROTO_STATUS_CAM_ORPHAN _ _ rfl (by decide)]
  exact get_put_same _ F.STALL_PROTO_STATUS_CAM_ORPHAN _ _ (by decide)

theorem hbAlive_regs (s : State) (n : Nat) : RegsBut [(.STALL_PROTO_STATUS, n)] s (s.hbAlive n) := by
  unfold State.hbAlive
  split
  · exact .refl _ _
  · exact ((RegsBut.refl _ s).put F.STALL_PROTO_STATUS_CAM_STATE 1 List.mem_cons_self).trans (.of_regs rfl _)

theorem hbAlive_frame (s : State) (n : Nat) : { s.hbAlive n with regs := s.regs, stalls := s.stalls } = s := by
  unfold State.hbAlive
  split <;> rfl

theorem hbAlive_orphan (s : State) (n : Nat) :
    (s.hbAlive n).get F.STALL_PROTO_STATUS_CAM_ORPHAN n = s.get F.STALL_PROTO_STATUS_CAM_ORPHAN n := by
  unfold State.hbAlive
  split
  · rfl
  · exact get_put_beside s F.STALL_PROTO_STATUS_CAM_STATE F.STALL_PROTO_STATUS_CAM_ORPHAN n 1 rfl (by decide)

theorem hbAlive_samples (s : State) (n : Nat) :
    ((s.hbAlive n).stall n).rtt = (s.stall n).rtt ∧ ((s.hbAlive n).stall n).rttCount = (s.stall n).rttCount := by
  unfold State.hbAlive
  split
  · exact ⟨rfl, rfl⟩
  · have hstall := stall_modStall_same (s.put F.STALL_PROTO_STATUS_CAM_STATE n 1) n fun x => { x with hbRx := some s.now }
    exact ⟨(congrArg Stall.rtt hstall :), (congrArg Stall.rttCount hstall :)⟩

theorem hbAlive_awake {s : State} {n : Nat} (h : (s.stall n).quietPeer = false) :
    (s.hbAlive n).get F.STALL_PROTO_STATUS_CAM_STATE n = 1 ∧ ((s.hbAlive n).stall n).hbRx = some s.now := by
  unfold State.hbAlive
  rw [if_neg (by simp [h])]
  refine ⟨get_put_same s F.STALL_PROTO_STATUS_CAM_STATE n 1 (by decide), ?_⟩
  exact (congrArg Stall.hbRx (stall_modStall_same (s.put F.STALL_PROTO_STATUS_CAM_STATE n 1) n fun x => { x with hbRx := some s.now }) :)

end Received

/-- A Heartbeat without a time stamp gives no sample. -/
def State.hbTimed (s : State) (n stamp : Nat) (d : Int) : State := if stamp = 0 then s else s.rttSample n d

theorem hbTimed_regs (s : State) (n stamp : Nat) (d : Int) : RegsBut [(.STALL_LATENCY, n)] s (s.hbTimed n stamp d) := by
  unfold State.hbTimed
  split
  · exact .refl _ _
  · exact rttSample_regs s n d

theorem hbTimed_frame (s : State) (n stamp : Nat) (d : Int) : { s.hbTimed n stamp d with regs := s.regs, stalls := s.stalls } = s := by
  unfold State.hbTimed
  split
  · rfl
  · exact rttSample_frame s n d

theorem hbTimed_hbRx (s : State) (n stamp : Nat) (d : Int) : ((s.hbTimed n stamp d).stall n).hbRx = (s.stall n).hbRx := by
  unfold State.hbTimed
  split
  · rfl
  · exact rttSample_hbRx s n d

/-- Registers and stalls aside, two steps that keep the rest keep it together. -/
theorem frame_trans {s t u : State} (h : { t with regs := s.regs, stalls := s.stalls } = s) (k : { u with regs := t.regs, stalls := t.stalls } = t) :
    { u with regs := s.regs, stalls := s.stalls } = s :=
  (congrArg (fun b : State => { b with regs := s.regs, stalls := s.stalls }) k).trans h

section Heartbeat

variable {n : Fin 16} {param : BitVec 32} {body : List Byte} {crc : BitVec 32} {e : Bool} {tick : Nat} {s u : State}

theorem heartbeatReceived_refused (h : (s.reach tick).rxCheck n (rxOf 0x30 0 param body crc e tick) = (false, u)) :
    exec (.heartbeatReceived n param body crc e tick) s = .next u := by
  change execHeartbeatReceived n param body crc e tick s = _
  unfold execHeartbeatReceived
  extract_lets p r
  have hr : r = (false, u) := h
  rw [hr]
  rfl

theorem heartbeatReceived_passed (h : (s.reach tick).rxCheck n (rxOf 0x30 0 param body crc e tick) = (true, u)) :
    exec (.heartbeatReceived n param body crc e tick) s =
      .next (((u.hbShown n param.toNat (natOfBytes ((body.drop 12).take 2))).hbAlive n).hbTimed n (natOfBytes (body.take 8))
        ((tick : Int) - natOfBytes (body.take 8) - natOfBytes ((body.drop 8).take 4))) := by
  change execHeartbeatReceived n param body crc e tick s = _
  unfold execHeartbeatReceived
  extract_lets p r
  have hr : r = (true, u) := h
  clear_value r
  subst hr
  exact congrArg Host.Outcome.next (if_neg (by simp))

theorem heartbeatReceived_effect (h : (s.reach tick).rxCheck n (rxOf 0x30 0 param body crc e tick) = (true, u)) :
    ∃ t, exec (.heartbeatReceived n param body crc e tick) s = .next t ∧ t.get F.STALL_HB_HB_RX_SEQ n = param.toNat ∧
      t.get F.STALL_HB_CAM_STATUS n = natOfBytes ((body.drop 12).take 2) ∧
      t.get F.STALL_PROTO_STATUS_CAM_ORPHAN n = natOfBytes ((body.drop 12).take 2) / 2 % 2 ∧
      ((u.stall n).quietPeer = false → t.get F.STALL_PROTO_STATUS_CAM_STATE n = 1 ∧ (t.stall n).hbRx = some u.now) ∧
      RegsBut [(.STALL_HB, n.val), (.STALL_PROTO_STATUS, n.val), (.STALL_LATENCY, n.val)] u t ∧
      { t with regs := u.regs, stalls := u.stalls } = u ∧
      (natOfBytes (body.take 8) = 0 → t.rd .STALL_LATENCY n = u.rd .STALL_LATENCY n ∧ (t.stall n).rtt = (u.stall n).rtt) ∧
      (∀ d : Nat, natOfBytes (body.take 8) ≠ 0 → tick = natOfBytes (body.take 8) + natOfBytes ((body.drop 8).take 4) + d → d ≤ 40000 →
        (t.stall n).rtt = d :: (u.stall n).rtt.take 15 ∧
        t.get F.STALL_LATENCY_ONE_WAY n = (t.stall n).rtt.foldl (· + ·) 0 / (2 * (t.stall n).rtt.length) % 2 ^ 20 ∧
        t.get F.STALL_LATENCY_VALID n = b2n (decide (16 ≤ (u.stall n).rttCount + 1))) := by
  have hn : n.val < 2 ^ 20 := by omega
  have hst : natOfBytes ((body.drop 12).take 2) < 2 ^ 16 := natOfBytes_take_lt (body.drop 12) 2
  have hexec := heartbeatReceived_passed h
  have haRegs := hbShown_regs (u := u) (n := n) (seq := param.toNat) (st := natOfBytes ((body.drop 12).take 2))
  have haSeq := hbShown_seq (u := u) (st := natOfBytes ((body.drop 12).take 2)) hn param.isLt
  have haStatus := hbShown_status (u := u) (seq := param.toNat) hn hst
  have haOrphan := hbShown_orphan (u := u) (n := n) (seq := param.toNat) (st := natOfBytes ((body.drop 12).take 2))
  have haStall := hbShown_stall (u := u) (n := n) (seq := param.toNat) (st := natOfBytes ((body.drop 12).take 2))
  have haFrame := hbShown_frame (u := u) (n := n) (seq := param.toNat) (st := natOfBytes ((body.drop 12).take 2))
  generalize u.hbShown n param.toNat (natOfBytes ((body.drop 12).take 2)) = a at hexec haRegs haSeq haStatus haOrphan haStall haFrame
  have hbRegs := hbAlive_regs a n
  have hbOrphan := hbAlive_orphan a n
  have hbAwake := hbAlive_awake (s := a) (n := n)
  obtain ⟨hbRtt, hbCount⟩ := hbAlive_samples a n
  have hbFrame := hbAlive_frame a n
  generalize a.hbAlive n = b at hexec hbRegs hbOrphan hbAwake hbRtt hbCount hbFrame
  have hb {r : Reg} (hr : r ≠ .STALL_PROTO_STATUS) : b.rd r n = a.rd r n := hbRegs.rd_beside hn hr
  have ht {r : Reg} (hr : r ≠ .STALL_LATENCY) := (hbTimed_regs b n (natOfBytes (body.take 8))
    ((tick : Int) - natOfBytes (body.take 8) - natOfBytes ((body.drop 8).take 4))).rd_beside hn hr
  rw [haStall] at hbRtt hbCount hbAwake
  refine ⟨_, hexec, (get_congr (ht (by decide))).trans ((get_congr (hb (by decide))).trans haSeq),
    (get_congr (ht (by decide))).trans ((get_congr (hb (by decide))).trans haStatus),
    (get_congr (ht (by decide))).trans (hbOrphan.trans haOrphan), fun hq => ?_, ?_, ?_, fun hz => ?_, fun d hz htick hd => ?_⟩
  · obtain ⟨hstate, hrx⟩ := hbAwake hq
    have hnow : a.now = u.now := (congrArg State.now haFrame :)
    exact ⟨(get_congr (ht (by decide))).trans hstate, (hbTimed_hbRx ..).trans (hrx.trans (by rw [hnow]))⟩
  · exact ((haRegs.mono (by simp)).trans (hbRegs.mono (by simp))).trans ((hbTimed_regs b n _ _).mono (by simp))
  · have haBoth : { a with regs := u.regs, stalls := u.stalls } = u :=
      (congrArg (fun x : State => { x with stalls := u.stalls }) haFrame :)
    exact frame_trans (frame_trans haBoth hbFrame) (hbTimed_frame ..)
  · rw [State.hbTimed, if_pos hz]
    refine ⟨(hb (by decide)).trans (haRegs.rd_eq hn (by simpa using hn)), hbRtt⟩
  · have hdiff : (tick : Int) - natOfBytes (body.take 8) - natOfBytes ((body.drop 8).take 4) = d := by omega
    rw [State.hbTimed, if_neg hz, hdiff]
    have hsample := rttSample_taken (s := b) (n := n) hd
    rwa [hbRtt, hbCount] at hsample

end Heartbeat

/-! ### HEARTBEAT_SEND (R180, R181) -/

section Send

variable {n : Fin 16} {s : State}

theorem heartbeatSend_waits (h : s.stUp n = false) : exec (.heartbeatSend n) s = .next s := by
  change execHeartbeatSend n s = _
  exact congrArg Host.Outcome.next (if_pos (by simp [h]))

/-- The next Heartbeat is due, and takes its HB_SEQ. -/
def State.hbDue (s : State) (n : Nat) : State :=
  (s.reach ((s.stall n).hbTx + 4000)).modStall n fun y =>
    { y with hbTx := (s.reach ((s.stall n).hbTx + 4000)).now, hbSeq := (y.hbSeq + 1) % 2 ^ 32 }

/-- KEEPER and HOLD as sent are shown (R192). -/
def State.hbSentShown (s : State) (n : Nat) : State :=
  ((s.hbDue n).put F.STALL_PROTO_STATUS_KEEPER_SENT n (b2n s.rights)).put F.STALL_PROTO_STATUS_HOLD_SENT n (b2n (s.ctl.mode == .hold))

theorem hbSentShown_seq (s : State) (n : Nat) : ((s.hbSentShown n).stall n).hbSeq = ((s.stall n).hbSeq + 1) % 2 ^ 32 := by
  have hstall : (s.hbSentShown n).stall n = (s.hbDue n).stall n := rfl
  rw [hstall, State.hbDue, stall_modStall_same]
  rfl

theorem hbSentShown_keeper (s : State) (n : Nat) : (s.hbSentShown n).get F.STALL_PROTO_STATUS_KEEPER_SENT n = b2n s.rights := by
  unfold State.hbSentShown
  rw [get_put_beside _ F.STALL_PROTO_STATUS_HOLD_SENT F.STALL_PROTO_STATUS_KEEPER_SENT _ _ rfl (by decide),
    get_put_same _ F.STALL_PROTO_STATUS_KEEPER_SENT _ _ (by decide)]
  exact Nat.mod_eq_of_lt (by cases s.rights <;> decide)

theorem hbSentShown_regs (s : State) (n : Nat) : RegsBut [(.STALL_PROTO_STATUS, n)] s (s.hbSentShown n) := by
  have hdue : RegsBut [(.STALL_PROTO_STATUS, n)] s (s.hbDue n) := .of_regs rfl _
  unfold State.hbSentShown
  exact (hdue.put F.STALL_PROTO_STATUS_KEEPER_SENT _ List.mem_cons_self).put F.STALL_PROTO_STATUS_HOLD_SENT _ List.mem_cons_self

theorem hbSentShown_frame (s : State) (n : Nat) :
    { s.hbSentShown n with regs := s.regs, stalls := s.stalls } = s.reach ((s.stall n).hbTx + 4000) := rfl

/-- The body of a Heartbeat (Table 4.8): TIME, a reserved word, KEEPER, HOLD and PAIRED. -/
def State.hbBody (s : State) (n : Nat) : List Byte :=
  bytesOfNat 8 (s.hbSentShown n).now ++ bytesOfNat 4 0 ++
    bytesOfNat 2 (b2n s.rights + 2 * b2n (s.ctl.mode == .hold) + 4 * b2n (s.isOn F.PAIR_CFG_ENABLE)) ++ bytesOfNat 2 0

theorem heartbeatSend_sends (hu : s.stUp n = true) (hf : s.fwdIn n = false) (hp : s.isOn F.STALL_LINK_CFG_PPORT_SEL n = false) :
    exec (.heartbeatSend n) s = .next ((s.hbSentShown n).emit (.camPacket n (packetWhole 0x30 0 (s.stall n).hbSeq (s.hbBody n)))) := by
  change execHeartbeatSend n s = _
  exact congrArg Host.Outcome.next (if_neg (by simp [hu, hf, hp]))

theorem heartbeatSend_effect (hu : s.stUp n = true) (hf : s.fwdIn n = false) (hp : s.isOn F.STALL_LINK_CFG_PPORT_SEL n = false) :
    ∃ t, exec (.heartbeatSend n) s = .next t ∧ t.now = max s.now ((s.stall n).hbTx + 4000) ∧
      (t.stall n).hbSeq = ((s.stall n).hbSeq + 1) % 2 ^ 32 ∧
      t.sent = s.sent ++ [.camPacket n (packetWhole 0x30 0 (s.stall n).hbSeq
        (bytesOfNat 8 t.now ++ bytesOfNat 4 0 ++
          bytesOfNat 2 (b2n s.rights + 2 * b2n (s.ctl.mode == .hold) + 4 * b2n (s.isOn F.PAIR_CFG_ENABLE)) ++ bytesOfNat 2 0))] ∧
      t.get F.STALL_PROTO_STATUS_KEEPER_SENT n = b2n s.rights ∧
      RegsBut [(.STALL_PROTO_STATUS, n.val)] s t ∧ { t with regs := s.regs, stalls := s.stalls, sent := s.sent, tb := s.tb } = s := by
  have hexec := heartbeatSend_sends hu hf hp
  have hseq := hbSentShown_seq s n
  have hkeeper := hbSentShown_keeper s n
  have hregs := hbSentShown_regs s n
  have hframe := hbSentShown_frame s n
  unfold State.hbBody at hexec
  generalize s.hbSentShown n = t at hexec hseq hkeeper hregs hframe
  have hnow : t.now = max s.now ((s.stall n).hbTx + 4000) := (congrArg State.now hframe :)
  have hsent : t.sent = s.sent := (congrArg State.sent hframe :)
  have hrest : { t with regs := s.regs, stalls := s.stalls, sent := s.sent, tb := s.tb } = s :=
    (congrArg (fun x : State => { x with regs := s.regs, stalls := s.stalls, sent := s.sent, tb := s.tb }) hframe :)
  exact ⟨_, hexec, hnow, hseq, congrArg (· ++ _) hsent, hkeeper, hregs, hrest⟩

end Send

/-! ### CNT_CLEAR (R191) -/

section Clear

variable {s : State}

theorem rd_rst_same (s : State) (r : Reg) (i : Nat) : (s.rst r i).rd r i = r.rst i := rd_wr_same s r i _

theorem rd_rst_reg (s : State) {r q : Reg} {i j : Nat} (h : q ≠ r) (hi : i < 2 ^ 20) (hj : j < 2 ^ 20) : (s.rst r i).rd q j = s.rd q j :=
  rd_wr_reg s _ h hi hj

/-- The counters of stall `n`, before those of its port. -/
def State.stallCntClear (s : State) (n : Nat) : State :=
  ((((s.rst .STALL_PKT_ERR n).rst .STALL_FRAME_ERR n).rst .STALL_CTRL_ERR n).rst .STALL_TRIG_COUNT n).rst .STALL_PATH_ERR n

/-- The registers that it zeroes. -/
def stallCounters : List Reg := [.STALL_PKT_ERR, .STALL_FRAME_ERR, .STALL_CTRL_ERR, .STALL_TRIG_COUNT, .STALL_PATH_ERR]

theorem stallCntClear_zero {n : Nat} (hn : n < 2 ^ 20) {r : Reg} (hr : r ∈ stallCounters) : (s.stallCntClear n).rd r n = 0 := by
  unfold State.stallCntClear
  simp only [stallCounters, List.mem_cons, List.not_mem_nil, or_false] at hr
  rcases hr with rfl | rfl | rfl | rfl | rfl
  · rw [rd_rst_reg _ (by decide) hn hn, rd_rst_reg _ (by decide) hn hn, rd_rst_reg _ (by decide) hn hn, rd_rst_reg _ (by decide) hn hn]
    exact rd_rst_same ..
  · rw [rd_rst_reg _ (by decide) hn hn, rd_rst_reg _ (by decide) hn hn, rd_rst_reg _ (by decide) hn hn]
    exact rd_rst_same ..
  · rw [rd_rst_reg _ (by decide) hn hn, rd_rst_reg _ (by decide) hn hn]
    exact rd_rst_same ..
  · rw [rd_rst_reg _ (by decide) hn hn]
    exact rd_rst_same ..
  · exact rd_rst_same ..

theorem OnlyRegs.rst {l : List (Reg × Nat)} {s t : State} (h : OnlyRegs l s t) {r : Reg} {i : Nat} (hm : (r, i) ∈ l) :
    OnlyRegs l s (t.rst r i) := ⟨h.1, h.2.wr _ hm⟩

theorem stallCntClear_onlyRegs {n : Nat} {l : List (Reg × Nat)} (hl : ∀ r ∈ stallCounters, (r, n) ∈ l) : OnlyRegs l s (s.stallCntClear n) := by
  have h0 : OnlyRegs l s s := ⟨rfl, .refl l s⟩
  unfold State.stallCntClear
  exact ((((h0.rst (hl _ (by decide))).rst (hl _ (by decide))).rst (hl _ (by decide))).rst (hl _ (by decide))).rst (hl _ (by decide))

theorem protoCntClear_eq (s : State) (n : Nat) :
    s.protoCntClear n = if 14 ≤ n ∧ n < 16 then (s.stallCntClear n).rst .PPORT_COUNT (n - 14) else s.stallCntClear n := rfl

theorem protoCntClear_zero {n : Nat} (hn : n < 2 ^ 20) {r : Reg} (hr : r ∈ stallCounters) : (s.protoCntClear n).rd r n = 0 := by
  rw [protoCntClear_eq]
  split
  · refine (rd_rst_reg _ ?_ (by omega) hn).trans (stallCntClear_zero hn hr)
    rintro rfl
    exact absurd hr (by decide)
  · exact stallCntClear_zero hn hr

theorem protoCntClear_effect (n : Fin 16) (s : State) :
    ∃ t, exec (.protoCntClear n) s = .next t ∧ t.rd .STALL_PKT_ERR n = 0 ∧ t.rd .STALL_FRAME_ERR n = 0 ∧ t.rd .STALL_CTRL_ERR n = 0 ∧
      t.rd .STALL_TRIG_COUNT n = 0 ∧ t.rd .STALL_PATH_ERR n = 0 ∧ (14 ≤ n.val → t.rd .PPORT_COUNT (n.val - 14) = 0) ∧
      OnlyRegs [(.STALL_PKT_ERR, n.val), (.STALL_FRAME_ERR, n.val), (.STALL_CTRL_ERR, n.val), (.STALL_TRIG_COUNT, n.val),
        (.STALL_PATH_ERR, n.val), (.PPORT_COUNT, n.val - 14)] s t := by
  have hn : n.val < 2 ^ 20 := by omega
  have hzero {r : Reg} (hr : r ∈ stallCounters) := protoCntClear_zero (s := s) hn hr
  refine ⟨s.protoCntClear n, rfl, hzero (by decide), hzero (by decide), hzero (by decide), hzero (by decide), hzero (by decide), fun hp => ?_, ?_⟩
  · rw [protoCntClear_eq, if_pos ⟨hp, n.isLt⟩]
    exact rd_rst_same ..
  · have hstall := stallCntClear_onlyRegs (s := s) (n := n) (l := [(.STALL_PKT_ERR, n.val), (.STALL_FRAME_ERR, n.val), (.STALL_CTRL_ERR, n.val),
      (.STALL_TRIG_COUNT, n.val), (.STALL_PATH_ERR, n.val), (.PPORT_COUNT, n.val - 14)]) (by simp [stallCounters])
    rw [protoCntClear_eq]
    split
    · exact hstall.rst (by simp)
    · exact hstall

end Clear

/-! ### The statement O15 -/

/-- Settles O15 (R171 to R181, R191 to R199): Events, control requests and their responses, time-outs and quarantine, Heartbeats, and
CNT_CLEAR. -/
theorem eventsControlRequestsAndHeartbeats : Obligations.EventsControlRequestsAndHeartbeats := by
  refine ⟨fun n param body crc e tick room s u => ⟨eventPacketReceived_refused, eventPacketReceived_effect⟩,
    fun n s => ⟨controlRequestPop_waits, fun id h it hup hown hlive hrun htrough hfree hhead hgap hfirst => ?_⟩,
    fun n id param body crc e tick s u => ⟨controlResponseReceived_refused, fun h =>
      ⟨fun q k => controlResponseReceived_completes h, controlResponseReceived_counts h⟩⟩,
    fun n s => ⟨controlTimeout_none, fun q r => controlTimeout_effect, fun b => controlIdQuarantineEnd_all,
      fun q r => controlIdQuarantineEnd_one, controlIdQuarantineEnd_none⟩,
    fun n param body crc e tick s u => ⟨heartbeatReceived_refused, heartbeatReceived_effect⟩,
    fun n s => ⟨heartbeatSend_waits, heartbeatSend_effect, protoCntClear_effect n s⟩⟩
  have ready : PopReady n s id h it := ⟨hup, hown, hlive, hrun, htrough, hfree, hhead, hgap, hfirst⟩
  exact ⟨controlRequestPop_sends ready, fun k hbad hcfg ht hne hroom => controlRequestPop_refuses ready hbad hcfg ht hne hroom⟩

end Sys2Proof.Machine

/-! SUPPORT. Contexts' records and the copies of their tack sets (R206, R215, R241): what a change of a record leaves, and a write to a
word of a copy. -/

namespace Sys2Proof

/-! ### Tables -/

theorem Tab.erase_insert {α : Type} (k : Nat) (v : α) (t : Tab α) : Tab.erase k (Tab.insert k v t) = Tab.erase k t := by
  induction t with
  | nil => simp [Tab.insert, Tab.erase]
  | cons e t ih =>
    obtain ⟨j, w⟩ := e
    unfold Tab.insert
    split
    · simp [Tab.erase]
    · simp only [Tab.erase, ih]

theorem Tab.erase_erase {α : Type} (k : Nat) (t : Tab α) : Tab.erase k (Tab.erase k t) = Tab.erase k t := by
  induction t with
  | nil => rfl
  | cons e t ih =>
    obtain ⟨j, w⟩ := e
    by_cases h : j = k <;> simp [Tab.erase, h, ih]

/-- The last of two writes to a key stands. -/
theorem Tab.set_set {α : Type} [DecidableEq α] (d : α) (t : Tab α) (k : Nat) (v w : α) : Tab.set d (Tab.set d t k v) k w = Tab.set d t k w := by
  have herase : Tab.erase k (Tab.set d t k v) = Tab.erase k t := by
    unfold Tab.set
    split
    · exact Tab.erase_erase k t
    · rw [Tab.erase_insert, Tab.erase_erase]
  change (if w = d then Tab.erase k (Tab.set d t k v) else Tab.insert k w (Tab.erase k (Tab.set d t k v))) = _
  rw [herase]
  rfl

/-! ### Words and bytes (R5, R13) -/

theorem getLsbD_wordOfBytes (l : List Byte) {k : Nat} (hk : k < 64) : (wordOfBytes l).getLsbD k = ((l[k / 8]?).getD 0).getLsbD (k % 8) := by
  induction l generalizing k with
  | nil => simp [wordOfBytes]
  | cons b l ih =>
    rw [wordOfBytes, BitVec.getLsbD_or, BitVec.getLsbD_setWidth, BitVec.getLsbD_shiftLeft]
    by_cases h : k < 8
    · simp [hk, h, Nat.div_eq_of_lt h, Nat.mod_eq_of_lt h]
    · have hdiv : k / 8 = (k - 8) / 8 + 1 := by omega
      have hmod : k % 8 = (k - 8) % 8 := by omega
      rw [ih (by omega), hdiv, hmod]
      simp [hk, h, BitVec.getLsbD_of_ge b k (by omega)]

namespace Machine

/-- A bit of the mask of enabled bytes. -/
theorem getLsbD_byteMask (be : BitVec 8) {k : Nat} (hk : k < 64) : (byteMask be).getLsbD k = be.getLsbD (k / 8) := by
  have h8 : k / 8 < 8 := by omega
  rw [byteMask, getLsbD_wordOfBytes _ hk, List.getElem?_map, List.getElem?_range h8, Option.map_some, Option.getD_some]
  split
  · next h =>
    have hone {i : Nat} (hi : i < 8) : (0xFF : Byte).getLsbD i = true := by interval_cases i <;> rfl
    rw [h, hone (by omega)]
  · next h => exact BitVec.getLsbD_zero.trans (Bool.eq_false_iff.mpr h).symm

/-- A word written under a mask of bytes: each byte is the new one where it is enabled. -/
theorem bits_masked (old v : Word) (be : BitVec 8) {k : Nat} (hk : k < 8) :
    bits ((old &&& ~~~byteMask be) ||| (v &&& byteMask be)) (8 * k) 8 = if be.getLsbD k then bits v (8 * k) 8 else bits old (8 * k) 8 := by
  apply Nat.eq_of_testBit_eq
  intro i
  rw [apply_ite (Nat.testBit · i), testBit_bits, testBit_bits, testBit_bits]
  by_cases hi : i < 8
  · have hmask : (byteMask be).getLsbD (8 * k + i) = be.getLsbD k := by
      rw [getLsbD_byteMask be (by omega), show (8 * k + i) / 8 = k by omega]
    rw [BitVec.getLsbD_or, BitVec.getLsbD_and, BitVec.getLsbD_and, BitVec.getLsbD_not, hmask, decide_eq_true (show 8 * k + i < 64 by omega)]
    cases be.getLsbD k <;> simp
  · simp [hi]

/-! ### The record of a context -/

variable (s : State) (c : Nat)

@[simp] theorem ctx_modCtx_same (f : Ctx → Ctx) : (s.modCtx c f).ctx c = f (s.ctx c) := Tab.get_set_same ..

theorem ctx_modCtx_other {c d : Nat} (f : Ctx → Ctx) (h : d ≠ c) : (s.modCtx c f).ctx d = s.ctx d := Tab.get_set_other _ _ _ _ h

theorem ctx_congr {s t : State} (h : t.ctxs = s.ctxs) (c : Nat) : t.ctx c = s.ctx c := congrArg (Tab.get Ctx.zero · c) h

theorem modCtx_modCtx (f g : Ctx → Ctx) : (s.modCtx c f).modCtx c g = s.modCtx c fun x => g (f x) := by
  have hctx := ctx_modCtx_same s c f
  unfold State.modCtx State.setCtx at hctx ⊢
  dsimp only at hctx ⊢
  rw [hctx, Tab.set_set]

theorem modCtx_congr {f g : Ctx → Ctx} (h : f (s.ctx c) = g (s.ctx c)) : s.modCtx c f = s.modCtx c g := by
  unfold State.modCtx
  rw [h]

/-! ### A copy's words (R215, R241) -/

theorem copyLocked_eq (b : Bool) : s.copyLocked c b = true ↔
    s.get F.CTX_STATUS_ACTIVE_COPY c = (if b then 2 else 1) ∨ s.get F.CTX_STATUS_PENDING_COPY c = (if b then 2 else 1) ∨
      ∃ k, (s.ctx c).check = some k ∧ k.b = b := by
  unfold State.copyLocked copyCode
  cases (s.ctx c).check <;> simp [or_assoc]

/-- A locked copy keeps its bytes. -/
theorem copyWrite_locked {s : State} {c : Nat} {b : Bool} (h : s.copyLocked c b = true) (i : Nat) (v m : Word) :
    s.copyWrite c b i v m = s.put F.CTX_STATUS_LOCKED_WRITE c 1 := if_pos h

theorem copy_setCopy_same (x : Ctx) (b : Bool) (t : Tab Word) : (x.setCopy b t).copy b = t := by cases b <;> rfl

theorem copy_setCopy_other (x : Ctx) (b : Bool) (t : Tab Word) : (x.setCopy b t).copy (!b) = x.copy (!b) := by cases b <;> rfl

theorem setCopy_frame (x : Ctx) (b : Bool) (t : Tab Word) : { x.setCopy b t with a := x.a, b := x.b } = x := by cases b <;> rfl

section CopyWrite

variable {s : State} {c : Fin 64} {b : Bool}

theorem tackCopyWrite_locked (h : s.copyLocked c b = true) (w : Fin 128) (v : Word) (be : BitVec 8) :
    ∃ t, exec (.tackCopyWrite c b w v be) s = .next t ∧ t.isOn F.CTX_STATUS_LOCKED_WRITE c = true ∧
      OnlyRegs [(.CTX_STATUS, c.val)] s t ∧ t.get F.CTX_STATUS_ACTIVE_COPY c = s.get F.CTX_STATUS_ACTIVE_COPY c ∧
      t.get F.CTX_STATUS_PENDING_COPY c = s.get F.CTX_STATUS_PENDING_COPY c := by
  refine ⟨s.put F.CTX_STATUS_LOCKED_WRITE c 1, ?_, ?_, put_onlyRegs .., get_put_beside _ _ _ _ _ rfl (by decide),
    get_put_beside _ _ _ _ _ rfl (by decide)⟩
  · change Host.Outcome.next (s.copyWrite c b w v (byteMask be)) = _
    rw [copyWrite_locked h]
  · exact decide_eq_true (get_put_same _ _ _ _ (by decide))

theorem tackCopyWrite_free (h : s.copyLocked c b = false) (w : Fin 128) (v : Word) (be : BitVec 8) :
    ∃ t, exec (.tackCopyWrite c b w v be) s = .next t ∧ { t with ctxs := s.ctxs } = s ∧
      (∀ d, d ≠ c.val → t.ctx d = s.ctx d) ∧ { t.ctx c with a := (s.ctx c).a, b := (s.ctx c).b } = s.ctx c ∧
      (t.ctx c).copy (!b) = (s.ctx c).copy (!b) ∧
      (∀ j, j ≠ w.val → Tab.get 0 ((t.ctx c).copy b) j = Tab.get 0 ((s.ctx c).copy b) j) ∧
      (∀ k, k < 8 → bits (Tab.get 0 ((t.ctx c).copy b) w.val) (8 * k) 8 =
        if be.getLsbD k then bits v (8 * k) 8 else bits (Tab.get 0 ((s.ctx c).copy b) w.val) (8 * k) 8) := by
  refine ⟨s.copyWrite c b w v (byteMask be), rfl, ?_⟩
  rw [State.copyWrite, if_neg (by simp [h])]
  refine ⟨rfl, fun d hd => ctx_modCtx_other _ _ hd, ?_⟩
  rw [ctx_modCtx_same]
  refine ⟨setCopy_frame .., copy_setCopy_other .., fun j hj => ?_, fun k hk => ?_⟩
  · rw [copy_setCopy_same]
    exact Tab.get_set_other _ _ _ _ hj
  · rw [copy_setCopy_same, Tab.get_set_same]
    exact bits_masked _ _ _ hk

end CopyWrite

end Machine
end Sys2Proof

/-! SUPPORT. Commits of tack sets (R241 to R247): GO, CANCEL, the checks of a copy and what each of them comes to. -/

namespace Sys2Proof.Machine

/-! ### Where only registers are written -/

section Registers

variable {l : List (Reg × Nat)} {s t : State}

theorem OnlyRegs.refl (l : List (Reg × Nat)) (s : State) : OnlyRegs l s s := ⟨rfl, .refl l s⟩

theorem OnlyRegs.put (h : OnlyRegs l s t) (f : Fld) {i : Nat} (n : Nat) (hm : (f.r, i) ∈ l) : OnlyRegs l s (t.put f i n) :=
  ⟨h.1, h.2.put f n hm⟩

theorem OnlyRegs.ctxs (h : OnlyRegs l s t) : t.ctxs = s.ctxs := (congrArg State.ctxs h.1 :)

theorem OnlyRegs.stalls (h : OnlyRegs l s t) : t.stalls = s.stalls := (congrArg State.stalls h.1 :)

theorem OnlyRegs.rest {u : State} (h : OnlyRegs l s t) (hrest : { s with regs := u.regs, ctxs := u.ctxs } = u) :
    { t with regs := u.regs, ctxs := u.ctxs } = u :=
  (congrArg (fun x : State => { x with regs := u.regs, ctxs := u.ctxs }) h.1 :).trans hrest

end Registers

/-! ### What CTX_COMMIT shows (Table 5.10) -/

section Shown

variable (s : State) (c : Nat)

theorem showResult_result {r : Nat} (hr : r < 16) (o : Nat) : (s.showResult c r o).get F.CTX_COMMIT_RESULT c = r := by
  unfold State.showResult
  rw [get_put_beside _ F.CTX_COMMIT_GO F.CTX_COMMIT_RESULT _ _ rfl (by decide),
    get_put_beside _ F.CTX_COMMIT_BAD_OFFSET F.CTX_COMMIT_RESULT _ _ rfl (by decide), get_put_same _ _ _ _ (by decide)]
  exact Nat.mod_eq_of_lt hr

theorem showResult_badOffset (r : Nat) {o : Nat} (ho : o < 1024) : (s.showResult c r o).get F.CTX_COMMIT_BAD_OFFSET c = o := by
  unfold State.showResult
  rw [get_put_beside _ F.CTX_COMMIT_GO F.CTX_COMMIT_BAD_OFFSET _ _ rfl (by decide), get_put_same _ _ _ _ (by decide)]
  exact Nat.mod_eq_of_lt ho

theorem showResult_go (r o : Nat) : (s.showResult c r o).isOn F.CTX_COMMIT_GO c = (r == cmChecking) := by
  unfold State.showResult State.isOn
  rw [get_put_same _ _ _ _ (by decide)]
  cases r == cmChecking <;> rfl

theorem showResult_onlyRegs (r o : Nat) : OnlyRegs [(.CTX_COMMIT, c)] s (s.showResult c r o) :=
  (((OnlyRegs.refl _ s).put F.CTX_COMMIT_RESULT _ List.mem_cons_self).put F.CTX_COMMIT_BAD_OFFSET _ List.mem_cons_self).put
    F.CTX_COMMIT_GO _ List.mem_cons_self

theorem showResult_ctx (r o d : Nat) : (s.showResult c r o).ctx d = s.ctx d := rfl

variable {s c}

theorem RegsBut.showResult {l : List (Reg × Nat)} {t : State} (h : RegsBut l s t) (r o : Nat) (hm : (Reg.CTX_COMMIT, c) ∈ l) :
    RegsBut l s (t.showResult c r o) := h.trans ((showResult_onlyRegs t c r o).2.mono (by simpa using hm))

/-- A result shown leaves every field of another register. -/
theorem get_showResult (f : Fld) {i r o : Nat} (hf : f.r ≠ .CTX_COMMIT) (hi : i < 2 ^ 20) (hc : c < 2 ^ 20) :
    (s.showResult c r o).get f i = s.get f i :=
  (showResult_onlyRegs s c r o).2.get_eq f hi (by simpa using ⟨hf, hc⟩)

end Shown

/-! ### Grooms that wait for a commit (R529) -/

theorem tackOver_frame (s : State) (c result : Nat) : { s.tackOver c result with grooms := s.grooms } = s := by
  unfold State.tackOver
  refine List.foldlRecOn (motive := fun a : State => { a with grooms := s.grooms } = s) _ _ rfl fun a ha g _ => ?_
  dsimp only
  split
  · split <;> exact ha
  · exact ha

theorem tackOver_regs (s : State) (c result : Nat) : (s.tackOver c result).regs = s.regs := by
  have h := tackOver_frame s c result
  generalize s.tackOver c result = t at h ⊢
  exact (congrArg State.regs h :)

theorem tackOver_get (s : State) (c result : Nat) (f : Fld) (i : Nat) : (s.tackOver c result).get f i = s.get f i :=
  get_congr (rd_congr (tackOver_regs s c result) _ _)

/-! ### GO (R242, R247) -/

/-- The state with `v` and a GO written to CTX_COMMIT, before CANCEL and GO act. -/
def State.commitWritten (s : State) (c : Nat) (v : Word) : State :=
  s.wr .CTX_COMMIT c (writeFields .CTX_COMMIT (s.rd .CTX_COMMIT c) (((v ||| 0x10) &&& allBytes) &&& ~~~0x30) allBytes)

section Go

variable (s : State) (c : Fin 64) (v : Word)

theorem commitWritten_copy : (s.commitWritten c v).isOn F.CTX_COMMIT_COPY c = bit v 0 := by
  rw [← bit_eq_isOn, State.commitWritten, rd_wr_same]
  refine (getLsbD_writeFields (r := .CTX_COMMIT) (f := ⟨0, 1, .rw⟩) (by decide) (by decide) _ _ (by decide) (by decide) (by decide)).trans ?_
  simp [FTy.written, bit, allBytes]

theorem commitWritten_result : (s.commitWritten c v).get F.CTX_COMMIT_RESULT c = s.get F.CTX_COMMIT_RESULT c := by
  rw [State.get, State.commitWritten, rd_wr_same]
  exact bits_writeFields_ro _ _ (by decide) (by decide) (by decide)

theorem commitWritten_onlyRegs : OnlyRegs [(.CTX_COMMIT, c.val)] s (s.commitWritten c v) := wr_onlyRegs ..

theorem commitWritten_pending : (s.commitWritten c v).get F.CTX_STATUS_PENDING_COPY c = s.get F.CTX_STATUS_PENDING_COPY c :=
  (commitWritten_onlyRegs s c v).2.get_eq _ (by omega) (by simp; omega)

theorem commitWritten_ctx (d : Nat) : (s.commitWritten c v).ctx d = s.ctx d := rfl

variable {s c v}

theorem commitGo_refused (h : (s.ctx c).check.isSome = true ∨ s.get F.CTX_STATUS_PENDING_COPY c ≠ 0) (b : Bool) (g : Option Nat) :
    s.commitGo c b g = (false, s.put F.CTX_COMMIT_GO_REFUSED c 1) := if_pos h

theorem commitGo_taken (h : (s.ctx c).check = none) (hp : s.get F.CTX_STATUS_PENDING_COPY c = 0) (b : Bool) (g : Option Nat) :
    s.commitGo c b g = (true, (s.modCtx c fun x => { x with check := some ⟨b, g⟩ }).showResult c cmChecking 0) := by
  refine if_neg ?_
  rw [h, hp]
  simp

/-- GO acts on the copy named, once a CANCEL with it has found nothing to cancel. -/
theorem tackCommitGo_written (h : bit v 5 = false ∨ s.get F.CTX_STATUS_PENDING_COPY c = 0) :
    exec (.tackCommitGo c v) s = .next ((s.commitWritten c v).commitGo c (bit v 0) none).2 := by
  have hcancel : (if bit ((v ||| 0x10) &&& allBytes) 5 then (s.commitWritten c v).commitCancel c else s.commitWritten c v) = s.commitWritten c v := by
    rcases h with h | h
    · refine if_neg ?_
      rw [bit_allBytes _ (by decide)]
      simpa [bit] using h
    · rw [State.commitCancel, if_pos ((commitWritten_pending s c v).trans h), ite_self]
  have hgo : bit ((v ||| 0x10) &&& allBytes) 4 = true := by
    rw [bit_allBytes _ (by decide)]
    simp [bit]
  have hact {a : State} (ha : (if bit ((v ||| 0x10) &&& allBytes) 5 then (s.commitWritten c v).commitCancel c else s.commitWritten c v) = a) :
      s.ctxCommitWrite c (v ||| 0x10) allBytes = (a.commitGo c (a.isOn F.CTX_COMMIT_COPY c) none).2 := by
    subst ha
    exact if_pos hgo
  change Host.Outcome.next (s.ctxCommitWrite c (v ||| 0x10) allBytes) = _
  rw [hact hcancel, commitWritten_copy]

/-- A GO beside a commit under check or pending. -/
theorem tackCommitGo_refused (hbusy : (s.ctx c).check.isSome = true ∨ s.get F.CTX_STATUS_PENDING_COPY c ≠ 0) (h : bit v 5 = false) :
    ∃ t, exec (.tackCommitGo c v) s = .next t ∧ t.isOn F.CTX_COMMIT_GO_REFUSED c = true ∧ OnlyRegs [(.CTX_COMMIT, c.val)] s t ∧
      t.get F.CTX_COMMIT_RESULT c = s.get F.CTX_COMMIT_RESULT c := by
  obtain ⟨hrest, hregs⟩ := commitWritten_onlyRegs s c v
  have hresult := commitWritten_result s c v
  have hexec : exec (.tackCommitGo c v) s = .next ((s.commitWritten c v).put F.CTX_COMMIT_GO_REFUSED c 1) := by
    rw [tackCommitGo_written (.inl h), commitGo_refused]
    rwa [commitWritten_pending, commitWritten_ctx]
  generalize s.commitWritten c v = a at hrest hregs hresult hexec
  refine ⟨_, hexec, decide_eq_true (get_put_same _ _ _ _ (by decide)), ⟨hrest, hregs.put F.CTX_COMMIT_GO_REFUSED _ List.mem_cons_self⟩, ?_⟩
  exact (get_put_beside _ F.CTX_COMMIT_GO_REFUSED F.CTX_COMMIT_RESULT _ _ rfl (by decide)).trans hresult

theorem tackCommitGo_taken (hfree : (s.ctx c).check = none) (hp : s.get F.CTX_STATUS_PENDING_COPY c = 0) :
    ∃ t, exec (.tackCommitGo c v) s = .next t ∧ t.ctx c = { s.ctx c with check := some ⟨bit v 0, none⟩ } ∧
      (∀ d, d ≠ c.val → t.ctx d = s.ctx d) ∧ t.get F.CTX_COMMIT_RESULT c = 1 ∧ t.isOn F.CTX_COMMIT_GO c = true ∧
      RegsBut [(.CTX_COMMIT, c.val)] s t ∧ { t with regs := s.regs, ctxs := s.ctxs } = s := by
  obtain ⟨hrest, hregs⟩ := commitWritten_onlyRegs s c v
  have hctx (d : Nat) := commitWritten_ctx s c v d
  have hexec : exec (.tackCommitGo c v) s =
      .next (((s.commitWritten c v).modCtx c fun x => { x with check := some ⟨bit v 0, none⟩ }).showResult c cmChecking 0) := by
    rw [tackCommitGo_written (.inr hp), commitGo_taken (by rwa [commitWritten_ctx]) (by rwa [commitWritten_pending])]
  generalize s.commitWritten c v = a at hrest hregs hctx hexec
  refine ⟨_, hexec, ?_, fun d hd => ?_, showResult_result _ _ (by decide) _, showResult_go .., ?_, ?_⟩
  · rw [showResult_ctx, ctx_modCtx_same, hctx]
  · rw [showResult_ctx, ctx_modCtx_other _ _ hd, hctx]
  · exact RegsBut.showResult (t := a.modCtx c _) hregs _ _ List.mem_cons_self
  · exact (congrArg (fun x : State => { x with ctxs := s.ctxs }) hrest :)

/-! ### CANCEL (R246) -/

theorem tackCommitCancel_none (h : s.get F.CTX_STATUS_PENDING_COPY c = 0) : exec (.tackCommitCancel c) s = .next s := by
  change Host.Outcome.next (s.commitCancel c) = _
  rw [State.commitCancel, if_pos h]

theorem tackCommitCancel_ends (h : s.get F.CTX_STATUS_PENDING_COPY c ≠ 0) :
    ∃ t, exec (.tackCommitCancel c) s = .next t ∧ t.get F.CTX_STATUS_PENDING_COPY c = 0 ∧ t.get F.CTX_COMMIT_RESULT c = 8 ∧
      t.get F.CTX_STATUS_ACTIVE_COPY c = s.get F.CTX_STATUS_ACTIVE_COPY c ∧ t.ctxs = s.ctxs ∧
      RegsBut [(.CTX_COMMIT, c.val), (.CTX_STATUS, c.val)] s t ∧ { t with regs := s.regs, grooms := s.grooms } = s := by
  have hexec : exec (.tackCommitCancel c) s = .next (((s.put F.CTX_STATUS_PENDING_COPY c 0).showResult c cmCancelled 0).tackOver c cmCancelled) := by
    change Host.Outcome.next (s.commitCancel c) = _
    rw [State.commitCancel, if_neg h]
  have h1 : RegsBut [(.CTX_COMMIT, c.val), (.CTX_STATUS, c.val)] s (s.put F.CTX_STATUS_PENDING_COPY c 0) := (RegsBut.refl _ s).put _ _ (by simp)
  have hpend : (s.put F.CTX_STATUS_PENDING_COPY c 0).get F.CTX_STATUS_PENDING_COPY c = 0 := get_put_same _ _ _ _ (by decide)
  have hact : (s.put F.CTX_STATUS_PENDING_COPY c 0).get F.CTX_STATUS_ACTIVE_COPY c = s.get F.CTX_STATUS_ACTIVE_COPY c :=
    get_put_beside _ _ _ _ _ rfl (by decide)
  have hrest : { (s.put F.CTX_STATUS_PENDING_COPY c 0) with regs := s.regs } = s := rfl
  generalize s.put F.CTX_STATUS_PENDING_COPY c 0 = s1 at hexec h1 hpend hact hrest
  have h2 := h1.showResult cmCancelled 0 (c := c) (by simp)
  have hresult := showResult_result s1 c (r := cmCancelled) (by decide) 0
  have hget (f : Fld) (hf : f.r ≠ .CTX_COMMIT) := get_showResult (s := s1) (c := c) (i := c) (r := cmCancelled) (o := 0) f hf (by omega) (by omega)
  have hrest2 : { (s1.showResult c cmCancelled 0) with regs := s.regs } = s := hrest
  generalize s1.showResult c cmCancelled 0 = s2 at hexec h2 hresult hget hrest2
  have hframe := tackOver_frame s2 c cmCancelled
  have hregs := tackOver_regs s2 c cmCancelled
  have hover (f : Fld) := tackOver_get s2 c cmCancelled f c
  generalize s2.tackOver c cmCancelled = t at hexec hframe hregs hover
  refine ⟨t, hexec, ?_, ?_, ?_, ?_, h2.trans (.of_regs hregs _), ?_⟩
  · rw [hover, hget _ (by decide), hpend]
  · rw [hover, hresult]
    rfl
  · rw [hover, hget _ (by decide), hact]
  · exact (congrArg State.ctxs hframe :).trans (congrArg State.ctxs hrest2 :)
  · exact (congrArg (fun x : State => { x with regs := s.regs, grooms := s.grooms }) hframe :).trans
      (congrArg (fun x : State => { x with grooms := s.grooms }) hrest2 :)

end Go

end Sys2Proof.Machine

/-! SUPPORT. The checks of a copy (R217, R242, R245): which of them a copy fails first, and how the check ends. -/

namespace Sys2Proof.Machine

/-! ### What the checks come to (R242) -/

/-- Whether a copy's sequence is newer than the active one (R242). -/
def State.newerCopy (s : State) (c : Nat) (u : Tab Word) : Bool :=
  match s.active c with
  | none => cfield u 0 0 32 != 0
  | some a => newer (cfield u 0 0 32) (cfield a 0 0 32)

/-- Whether a copy binds its context elsewhere than the active one (R211). -/
def State.moves (s : State) (c : Nat) (u : Tab Word) : Bool :=
  match s.active c with
  | none => false
  | some a => cStall a != cStall u || cChute a != cChute u || cBay a != cBay u || cBypass a != cBypass u

section Checks

variable {s : State} {c : Nat} {u : Tab Word}

theorem newer_iff {q a : Nat} : newer q a = true ↔ 1 ≤ (q + 2 ^ 32 - a) % 2 ^ 32 ∧ (q + 2 ^ 32 - a) % 2 ^ 32 ≤ 2 ^ 31 - 1 := by
  unfold newer
  simp only [Bool.and_eq_true, decide_eq_true_eq]

theorem moves_iff : s.moves c u = true ↔
    ∃ a, s.active c = some a ∧ ¬ (cStall a = cStall u ∧ cChute a = cChute u ∧ cBay a = cBay u ∧ cBypass a = cBypass u) := by
  unfold State.moves
  cases s.active c with
  | none => simp
  | some a =>
    simp only [Bool.or_eq_true, bne_iff_ne, ne_eq, Option.some.injEq, exists_eq_left', not_and_or, or_assoc]

theorem badOffset_eq_some {o : Nat} (ho : o < 1024) (h8 : o % 8 = 0) (hf : s.copyFails u o = true)
    (hp : ∀ p, p < o → p % 8 = 0 → s.copyFails u p = false) : s.badOffset u = some o := by
  have hfind : (List.range 128).find? (s.copyFails u ∘ (8 * ·)) = some (o / 8) := by
    rw [List.find?_range_eq_some]
    refine ⟨?_, List.mem_range.mpr (by omega), fun j hj => ?_⟩
    · rwa [Function.comp_apply, Nat.mul_div_cancel' (Nat.dvd_of_mod_eq_zero h8)]
    · rw [Function.comp_apply, hp _ (by omega) (by omega)]
      rfl
  unfold State.badOffset
  rw [List.find?_map, hfind, Option.map_some, Nat.mul_div_cancel' (Nat.dvd_of_mod_eq_zero h8)]

theorem badOffset_eq_none (hp : ∀ p, p < 1024 → p % 8 = 0 → s.copyFails u p = false) : s.badOffset u = none := by
  unfold State.badOffset
  rw [List.find?_eq_none]
  intro p hmem
  obtain ⟨k, hk, rfl⟩ := List.mem_map.mp hmem
  have hk := List.mem_range.mp hk
  rw [hp _ (by omega) (by omega)]
  decide

theorem checkCopy_crc (h : cfield u 0x3F8 0 32 ≠ crc32c (copyBytes u)) : s.checkCopy c u = (cmCrc, 0) := if_pos h

section GoodCrc

variable (hcrc : cfield u 0x3F8 0 32 = crc32c (copyBytes u))
include hcrc

theorem checkCopy_stale (h : s.newerCopy c u = false) : s.checkCopy c u = (cmStale, 0) := by
  have hold : (!s.newerCopy c u) = true := by rw [h]; rfl
  exact (if_neg (not_not_intro hcrc)).trans (if_pos hold)

theorem checkCopy_fields (h : s.newerCopy c u = true) : s.checkCopy c u = match s.badOffset u with
    | some o => (cmBadField, o)
    | none => if s.ctxOn c && s.moves c u then (cmRebind, 0) else (cmPending, 0) := by
  have hnew : ¬ (!s.newerCopy c u) = true := by rw [h]; decide
  exact (if_neg (not_not_intro hcrc)).trans (if_neg hnew)

theorem checkCopy_badField (h : s.newerCopy c u = true) {o : Nat} (ho : s.badOffset u = some o) : s.checkCopy c u = (cmBadField, o) := by
  rw [checkCopy_fields hcrc h, ho]

theorem checkCopy_rebind (h : s.newerCopy c u = true) (ho : s.badOffset u = none) (hon : s.ctxOn c = true) (hm : s.moves c u = true) :
    s.checkCopy c u = (cmRebind, 0) := by
  rw [checkCopy_fields hcrc h, ho]
  exact if_pos (by rw [hon, hm]; rfl)

theorem checkCopy_good (h : s.newerCopy c u = true) (ho : s.badOffset u = none) (hm : (s.ctxOn c && s.moves c u) = false) :
    s.checkCopy c u = (cmPending, 0) := by
  rw [checkCopy_fields hcrc h, ho]
  exact if_neg (by rw [hm]; decide)

end GoodCrc

end Checks

/-! ### Fault records (R735) -/

theorem fault_regsBut (s : State) (code : Nat) (data : Word) {l : List (Reg × Nat)} (hm : (Reg.LOG_STATUS, 0) ∈ l) :
    RegsBut l s (s.fault code data) := by
  unfold State.fault
  exact RegsBut.put (t := { s with mgmt := _ }) (.of_regs rfl _) F.LOG_STATUS_FAULTS_PENDING _ hm

/-- A fault that occurs has a pending record. -/
theorem fault_recorded (s : State) (code : Nat) (data : Word) : ∃ f ∈ (s.fault code data).mgmt.faults, f.code = code := by
  have hupd (l : List FaultRec) : ∃ f ∈ State.fault.upd s code data l, f.code = code := by
    induction l with
    | nil => exact ⟨_, List.mem_cons_self, rfl⟩
    | cons g l ih =>
      unfold State.fault.upd
      split
      · next h => exact ⟨_, List.mem_cons_self, h⟩
      · obtain ⟨f, hf, hcode⟩ := ih
        exact ⟨f, List.mem_cons_of_mem _ hf, hcode⟩
  exact hupd _

/-! ### What shows a result -/

/-- Nothing but registers, management records and grooms differs between `s` and `t`. -/
def Shown (s t : State) : Prop := { t with regs := s.regs, mgmt := s.mgmt, grooms := s.grooms } = s

namespace Shown

variable {s a t : State}

theorem of_onlyRegs {l : List (Reg × Nat)} (h : OnlyRegs l s t) : Shown s t :=
  (congrArg (fun x : State => { x with mgmt := s.mgmt, grooms := s.grooms }) h.1 :)

theorem trans (h : Shown s a) (k : Shown a t) : Shown s t :=
  (congrArg (fun x : State => { x with regs := s.regs, mgmt := s.mgmt, grooms := s.grooms }) k :).trans h

theorem ctxs (h : Shown s t) : t.ctxs = s.ctxs := (congrArg State.ctxs h :)

theorem rest (h : Shown a t) (hrest : { a with regs := s.regs, ctxs := s.ctxs, mgmt := s.mgmt, grooms := s.grooms } = s) :
    { t with regs := s.regs, ctxs := s.ctxs, mgmt := s.mgmt, grooms := s.grooms } = s :=
  (congrArg (fun x : State => { x with regs := s.regs, ctxs := s.ctxs, mgmt := s.mgmt, grooms := s.grooms }) h :).trans hrest

theorem fault (s : State) (code : Nat) (data : Word) : Shown s (s.fault code data) := by
  unfold State.fault
  have hrecord (m : Mgmt) : Shown s { s with mgmt := m } := rfl
  exact (hrecord _).trans (of_onlyRegs (put_onlyRegs _ _ _ _))

theorem countEvent (s : State) (code : Nat) : Shown s (s.countEvent code) := rfl

theorem tackOver (s : State) (c result : Nat) : Shown s (s.tackOver c result) := by
  have h := tackOver_frame s c result
  generalize s.tackOver c result = t at h
  exact (congrArg (fun x : State => { x with regs := s.regs, mgmt := s.mgmt }) h :)

end Shown

/-! ### How a check ends (R242, R245) -/

/-- The registers that the end of a check may write. -/
def checkRegs (c : Nat) : List (Reg × Nat) := [(.CTX_COMMIT, c), (.CTX_STATUS, c), (.CTX_COUNT2, c), (.CTX_APPLIED, c), (.LOG_STATUS, 0)]

/-- From `s` to `t` the check of context `c` has ended, whatever its result. -/
structure CheckEnded (c : Nat) (s t : State) : Prop where
  ctxs : t.ctxs = (s.modCtx c fun x => { x with check := none, seqDue := (t.ctx c).seqDue }).ctxs
  regs : RegsBut (checkRegs c) s t
  rest : { t with regs := s.regs, ctxs := s.ctxs, mgmt := s.mgmt, grooms := s.grooms } = s
  go : t.isOn F.CTX_COMMIT_GO c = false

/-- The copies active and pending are as before, and none has been applied. -/
structure CopiesStand (c : Nat) (s t : State) : Prop where
  active : t.get F.CTX_STATUS_ACTIVE_COPY c = s.get F.CTX_STATUS_ACTIVE_COPY c
  pending : t.get F.CTX_STATUS_PENDING_COPY c = s.get F.CTX_STATUS_PENDING_COPY c
  seqDue : (t.ctx c).seqDue = (s.ctx c).seqDue

/-- The state with no copy of context `c` under check. -/
def State.unchecked (s : State) (c : Nat) : State := s.modCtx c fun x => { x with check := none }

section Ends

variable (s : State) {c : Nat} (hc : c < 2 ^ 20)

theorem unchecked_ctx (c : Nat) : (s.unchecked c).ctx c = { s.ctx c with check := none } := ctx_modCtx_same ..

theorem unchecked_regs (c : Nat) : (s.unchecked c).regs = s.regs := rfl

/-- A result shown: the check has ended and the record of the context shows no more than that. -/
theorem CheckEnded.of_shown {s a t : State} {c : Nat} (hctxs : a.ctxs = (s.unchecked c).ctxs)
    (hrest : { a with regs := s.regs, ctxs := s.ctxs, mgmt := s.mgmt, grooms := s.grooms } = s) (hshown : Shown a t)
    (hregs : RegsBut (checkRegs c) s t) (hgo : t.isOn F.CTX_COMMIT_GO c = false) : CheckEnded c s t ∧ (t.ctx c).seqDue = (s.ctx c).seqDue := by
  have ht : t.ctxs = (s.unchecked c).ctxs := hshown.ctxs.trans hctxs
  have hdue : (t.ctx c).seqDue = (s.ctx c).seqDue := by rw [ctx_congr ht, unchecked_ctx]
  refine ⟨⟨?_, hregs, hshown.rest hrest, hgo⟩, hdue⟩
  rw [ht, hdue]
  exact congrArg State.ctxs (modCtx_congr s c rfl)

include hc

/-- A check fails with a result other than CRC: the result and the offset are shown. -/
theorem checkFailed_ends {r o : Nat} (hr : r < 16) (hne : r ≠ cmChecking) (ho : o < 1024) :
    let t := (s.unchecked c).showResult c r o
    CheckEnded c s t ∧ CopiesStand c s t ∧ t.get F.CTX_COMMIT_RESULT c = r ∧ t.get F.CTX_COMMIT_BAD_OFFSET c = o := by
  have hshown := Shown.of_onlyRegs (showResult_onlyRegs (s.unchecked c) c r o)
  intro t
  have hregs : RegsBut (checkRegs c) s t := (RegsBut.of_regs (unchecked_regs s c) _).showResult _ _ (by simp [checkRegs])
  have hgo : t.isOn F.CTX_COMMIT_GO c = false := (showResult_go ..).trans (beq_eq_false_iff_ne.mpr hne)
  obtain ⟨hended, hdue⟩ := CheckEnded.of_shown (s := s) rfl rfl hshown hregs hgo
  have hget (f : Fld) (hf : f.r = .CTX_STATUS) : t.get f c = s.get f c :=
    (get_showResult f (by rw [hf]; decide) hc hc).trans (get_congr (rd_congr (unchecked_regs s c) _ _))
  exact ⟨hended, ⟨hget _ rfl, hget _ rfl, hdue⟩, showResult_result _ _ hr _, showResult_badOffset _ _ _ ho⟩

/-- A copy that passes on an enabled context becomes pending (R242). -/
theorem checkPassed_pends (b : Bool) :
    let t := ((s.unchecked c).showResult c cmPending 0).put F.CTX_STATUS_PENDING_COPY c (copyCode b)
    CheckEnded c s t ∧ t.get F.CTX_COMMIT_RESULT c = cmPending ∧ t.get F.CTX_STATUS_PENDING_COPY c = copyCode b ∧
      t.get F.CTX_STATUS_ACTIVE_COPY c = s.get F.CTX_STATUS_ACTIVE_COPY c := by
  obtain ⟨hfail, hstand, hresult, -⟩ := checkFailed_ends s hc (r := cmPending) (o := 0) (by decide) (by decide) (by decide)
  have hctxs := (Shown.of_onlyRegs (showResult_onlyRegs (s.unchecked c) c cmPending 0)).ctxs
  generalize (s.unchecked c).showResult c cmPending 0 = a at hfail hstand hresult hctxs
  intro t
  have hshown : Shown a t := .of_onlyRegs (put_onlyRegs ..)
  have hcommit (f : Fld) (hf : f.r = .CTX_COMMIT) : t.get f c = a.get f c := get_put_reg _ _ _ _ _ _ (by rw [hf]; decide) hc hc
  have hregs : RegsBut (checkRegs c) s t := hfail.regs.put _ _ (by simp [checkRegs])
  have hgo : t.isOn F.CTX_COMMIT_GO c = false := (isOn_congr (hcommit _ rfl)).trans hfail.go
  refine ⟨(CheckEnded.of_shown hctxs hfail.rest hshown hregs hgo).1, (hcommit _ rfl).trans hresult, (get_put_same _ _ _ _ (by decide)).trans ?_,
    (get_put_beside _ F.CTX_STATUS_PENDING_COPY F.CTX_STATUS_ACTIVE_COPY _ _ rfl (by decide)).trans hstand.active⟩
  cases b <;> rfl

/-- A copy that fails its CRC is counted and recorded as fault TACK_CRC. -/
theorem checkCrc_ends (data : Word) :
    let t := (((s.unchecked c).showResult c cmCrc 0).inc F.CTX_COUNT2_TACK_CRC c).fault 1 data
    CheckEnded c s t ∧ CopiesStand c s t ∧ t.get F.CTX_COMMIT_RESULT c = cmCrc ∧
      t.get F.CTX_COUNT2_TACK_CRC c = min (s.get F.CTX_COUNT2_TACK_CRC c + 1) 65535 ∧ ∃ f ∈ t.mgmt.faults, f.code = 1 := by
  obtain ⟨hfail, hstand, hresult, -⟩ := checkFailed_ends s hc (r := cmCrc) (o := 0) (by decide) (by decide) (by decide)
  have hcount : ((s.unchecked c).showResult c cmCrc 0).get F.CTX_COUNT2_TACK_CRC c = s.get F.CTX_COUNT2_TACK_CRC c :=
    (get_showResult _ (by decide) hc hc).trans (get_congr (rd_congr (unchecked_regs s c) _ _))
  have hctxs := (Shown.of_onlyRegs (showResult_onlyRegs (s.unchecked c) c cmCrc 0)).ctxs
  generalize (s.unchecked c).showResult c cmCrc 0 = a at hfail hstand hresult hcount hctxs
  intro t
  have hshown : Shown a t := (Shown.of_onlyRegs (put_onlyRegs a F.CTX_COUNT2_TACK_CRC _ _)).trans (.fault _ 1 data)
  have hinc : RegsBut [(.CTX_COUNT2, c), (.LOG_STATUS, 0)] a t :=
    ((RegsBut.refl _ a).inc F.CTX_COUNT2_TACK_CRC (by simp)).trans (fault_regsBut _ 1 data (by simp))
  have hget (f : Fld) (hf : f.r ≠ .CTX_COUNT2 ∧ f.r ≠ .LOG_STATUS) : t.get f c = a.get f c :=
    hinc.get_eq f hc (by simpa using ⟨⟨hf.1, hc⟩, hf.2⟩)
  have hregs : RegsBut (checkRegs c) s t := hfail.regs.trans (hinc.mono (by simp [checkRegs]))
  have hgo : t.isOn F.CTX_COMMIT_GO c = false := (isOn_congr (hget _ (by decide))).trans hfail.go
  obtain ⟨hended, hdue⟩ := CheckEnded.of_shown hctxs hfail.rest hshown hregs hgo
  refine ⟨hended, ⟨(hget _ (by decide)).trans hstand.active, (hget _ (by decide)).trans hstand.pending, hdue⟩,
    (hget _ (by decide)).trans hresult, ?_, fault_recorded ..⟩
  have hfault : t.get F.CTX_COUNT2_TACK_CRC c = (a.inc F.CTX_COUNT2_TACK_CRC c).get F.CTX_COUNT2_TACK_CRC c :=
    (fault_regsBut (l := [(.LOG_STATUS, 0)]) _ 1 data List.mem_cons_self).get_eq F.CTX_COUNT2_TACK_CRC hc (by simp)
  rw [hfault, ← hcount]
  exact get_inc_same a F.CTX_COUNT2_TACK_CRC c (by decide)

end Ends

/-! ### Activation (R243, R245, R253) -/

/-- A context with `next` to be found in its tag records: after those that wait now, the first of sequence `seq` or later. -/
def Ctx.awaits (x : Ctx) (seq : Nat) : Ctx := { x with seqDue := some (x.tags.length, seq) }

/-- The state with what CTX_STATUS and CTX_APPLIED say of an activation. -/
def State.activeShown (s : State) (c : Nat) (b : Bool) (frame : Nat) : State :=
  (((s.put F.CTX_STATUS_ACTIVE_COPY c (copyCode b)).put F.CTX_STATUS_PENDING_COPY c 0).put F.CTX_APPLIED_APPLIED_FRAME_ID c frame).put
    F.CTX_APPLIED_ACTIVE_SEQUENCE c (cfield ((s.ctx c).copy b) 0 0 32)

theorem activate_eq (s : State) (c : Nat) (b : Bool) (frame seq : Nat) : s.activate c b frame seq =
    ((((s.activeShown c b frame).modCtx c (·.awaits seq)).showResult c cmApplied 0).countEvent 4).tackOver c cmApplied := rfl

theorem modCtx_ctxs_congr {s t : State} (h : t.ctxs = s.ctxs) (c : Nat) (f : Ctx → Ctx) : (t.modCtx c f).ctxs = (s.modCtx c f).ctxs := by
  unfold State.modCtx State.setCtx
  dsimp only
  rw [ctx_congr h, h]

section Active

variable (s : State) {c : Nat} (b : Bool)

theorem activeShown_onlyRegs (c frame : Nat) : OnlyRegs [(.CTX_STATUS, c), (.CTX_APPLIED, c)] s (s.activeShown c b frame) :=
  ((((OnlyRegs.refl _ s).put F.CTX_STATUS_ACTIVE_COPY _ (by simp)).put F.CTX_STATUS_PENDING_COPY _ (by simp)).put
    F.CTX_APPLIED_APPLIED_FRAME_ID _ (by simp)).put F.CTX_APPLIED_ACTIVE_SEQUENCE _ (by simp)

theorem activeShown_applied (c frame : Nat) :
    (s.activeShown c b frame).get F.CTX_APPLIED_ACTIVE_SEQUENCE c = cfield ((s.ctx c).copy b) 0 0 32 ∧
      (s.activeShown c b frame).get F.CTX_APPLIED_APPLIED_FRAME_ID c = frame % 2 ^ 32 := by
  unfold State.activeShown
  constructor
  · rw [get_put_same _ _ _ _ (by decide)]
    exact Nat.mod_eq_of_lt (bits_lt _ _ _)
  · rw [get_put_beside _ F.CTX_APPLIED_ACTIVE_SEQUENCE F.CTX_APPLIED_APPLIED_FRAME_ID _ _ rfl (by decide), get_put_same _ _ _ _ (by decide)]

theorem activeShown_copies (hc : c < 2 ^ 20) (frame : Nat) :
    (s.activeShown c b frame).get F.CTX_STATUS_ACTIVE_COPY c = copyCode b ∧ (s.activeShown c b frame).get F.CTX_STATUS_PENDING_COPY c = 0 := by
  have happlied (a : State) (f g : Fld) (n m : Nat) (hf : f.r = .CTX_APPLIED) (hg : g.r = .CTX_APPLIED) (h : Fld) (hh : h.r = .CTX_STATUS) :
      ((a.put f c n).put g c m).get h c = a.get h c :=
    (get_put_reg _ _ _ _ _ _ (by rw [hg, hh]; decide) hc hc).trans (get_put_reg _ _ _ _ _ _ (by rw [hf, hh]; decide) hc hc)
  unfold State.activeShown
  constructor
  · rw [happlied _ _ _ _ _ rfl rfl _ rfl, get_put_beside _ F.CTX_STATUS_PENDING_COPY F.CTX_STATUS_ACTIVE_COPY _ _ rfl (by decide),
      get_put_same _ _ _ _ (by decide)]
    cases b <;> rfl
  · rw [happlied _ _ _ _ _ rfl rfl _ rfl, get_put_same _ _ _ _ (by decide)]
    rfl

/-- A result shown at an activation: beside CTX_COMMIT no register changes. -/
theorem appliedShown_effect (hc : c < 2 ^ 20) :
    let t := ((s.showResult c cmApplied 0).countEvent 4).tackOver c cmApplied
    Shown s t ∧ RegsBut [(.CTX_COMMIT, c)] s t ∧ t.get F.CTX_COMMIT_RESULT c = cmApplied ∧ t.isOn F.CTX_COMMIT_GO c = false ∧
      ∀ f : Fld, f.r ≠ .CTX_COMMIT → t.get f c = s.get f c := by
  have hresult := showResult_result s c (r := cmApplied) (by decide) 0
  have hgo : (s.showResult c cmApplied 0).isOn F.CTX_COMMIT_GO c = false := showResult_go ..
  have honly := showResult_onlyRegs s c cmApplied 0
  generalize s.showResult c cmApplied 0 = a at hresult hgo honly
  intro t
  have hregs : t.regs = a.regs := tackOver_regs ..
  have hget (f : Fld) : t.get f c = a.get f c := get_congr (rd_congr hregs _ _)
  have hbut : RegsBut [(.CTX_COMMIT, c)] s t := honly.2.trans (.of_regs hregs _)
  exact ⟨(Shown.of_onlyRegs honly).trans ((Shown.countEvent a 4).trans (.tackOver _ c cmApplied)), hbut, (hget _).trans hresult,
    (isOn_congr (hget _)).trans hgo, fun f hf => hbut.get_eq f hc (by simpa using ⟨hf, hc⟩)⟩

end Active

/-- A copy that passes on a context that is not enabled is applied at once (R245). -/
theorem checkPassed_applies (s : State) {c : Nat} (hc : c < 2 ^ 20) (b : Bool) :
    let t := (s.unchecked c).activate c b 0 0
    CheckEnded c s t ∧ t.get F.CTX_COMMIT_RESULT c = cmApplied ∧ t.get F.CTX_STATUS_ACTIVE_COPY c = copyCode b ∧
      t.get F.CTX_STATUS_PENDING_COPY c = 0 ∧ t.get F.CTX_APPLIED_ACTIVE_SEQUENCE c = cfield ((s.ctx c).copy b) 0 0 32 ∧
      t.get F.CTX_APPLIED_APPLIED_FRAME_ID c = 0 := by
  have honly := activeShown_onlyRegs (s.unchecked c) b c 0
  obtain ⟨hseq, hframe⟩ := activeShown_applied (s.unchecked c) b c 0
  obtain ⟨hact, hpend⟩ := activeShown_copies (s.unchecked c) b hc 0
  have hcopy : ((s.unchecked c).ctx c).copy b = (s.ctx c).copy b := by
    rw [unchecked_ctx]
    cases b <;> rfl
  rw [hcopy] at hseq
  rw [activate_eq]
  generalize (s.unchecked c).activeShown c b 0 = a at honly hseq hframe hact hpend
  have hctxs : (a.modCtx c (·.awaits 0)).ctxs = (s.modCtx c fun x => Ctx.awaits { x with check := none } 0).ctxs := by
    rw [modCtx_ctxs_congr (Shown.of_onlyRegs honly).ctxs, State.unchecked, modCtx_modCtx]
  have hrest : { a.modCtx c (·.awaits 0) with regs := s.regs, ctxs := s.ctxs, mgmt := s.mgmt, grooms := s.grooms } = s :=
    (Shown.of_onlyRegs honly).rest (s := s) rfl
  have hbut : RegsBut (checkRegs c) s (a.modCtx c (·.awaits 0)) := honly.2.mono (by simp [checkRegs])
  have hregs (f : Fld) : (a.modCtx c (·.awaits 0)).get f c = a.get f c := rfl
  generalize a.modCtx c (·.awaits 0) = a2 at hctxs hrest hbut hregs
  obtain ⟨hshown, hcommit, hresult, hgo, hget⟩ := appliedShown_effect a2 hc
  intro t
  have ht : t.ctxs = (s.modCtx c fun x => Ctx.awaits { x with check := none } 0).ctxs := hshown.ctxs.trans hctxs
  have hdue : t.ctx c = Ctx.awaits { s.ctx c with check := none } 0 := by rw [ctx_congr ht, ctx_modCtx_same]
  refine ⟨⟨?_, hbut.trans (hcommit.mono (by simp [checkRegs])), hshown.rest hrest, hgo⟩, hresult, ?_, ?_, ?_, ?_⟩
  · rw [ht, hdue]
    exact congrArg State.ctxs (modCtx_congr s c rfl)
  · rw [hget _ (by decide), hregs, hact]
  · rw [hget _ (by decide), hregs, hpend]
  · rw [hget _ (by decide), hregs, hseq]
  · rw [hget _ (by decide), hregs, hframe, Nat.zero_mod]

end Sys2Proof.Machine

/-! SUPPORT. What the end of a stack leaves of the contexts: every copy of a tack set keeps its words, and CTX_STATUS what it shows. One
lemma for each operation on the way. -/

namespace Sys2Proof.Machine

/-- The two copies of a context's tack set. -/
def Ctx.copies (x : Ctx) : Tab Word × Tab Word := (x.a, x.b)

/-- Register `r`, number `i`, is no CTX_STATUS, wherever its number leads. -/
def OffStatus (r : Reg) (i : Nat) : Prop := 168 ≤ r.ctorIdx ∨ r.ctorIdx < 167 ∧ i < 2 ^ 20

/-- `t` shows what `s` does in every CTX_STATUS, and every copy is as in `s`. -/
structure CopiesKept (s t : State) : Prop where
  status : ∀ i, i < 2 ^ 20 → t.rd .CTX_STATUS i = s.rd .CTX_STATUS i
  copies : ∀ d, (t.ctx d).copies = (s.ctx d).copies

namespace CopiesKept

variable {s t u : State}

theorem refl (s : State) : CopiesKept s s := ⟨fun _ _ => rfl, fun _ => rfl⟩

theorem trans (h : CopiesKept s t) (k : CopiesKept t u) : CopiesKept s u :=
  ⟨fun i hi => (k.status i hi).trans (h.status i hi), fun d => (k.copies d).trans (h.copies d)⟩

/-- A change of what is neither register nor context. -/
theorem store (h : CopiesKept s t) (hr : u.regs = t.regs) (hc : u.ctxs = t.ctxs) : CopiesKept s u :=
  h.trans ⟨fun i _ => rd_congr hr _ i, fun d => congrArg Ctx.copies (ctx_congr hc d)⟩

theorem wr (h : CopiesKept s t) {r : Reg} {i : Nat} (v : Word) (hr : OffStatus r i) : CopiesKept s (t.wr r i v) := by
  have hkey (j : Nat) (hj : j < 2 ^ 20) : regKey .CTX_STATUS j ≠ regKey r i := by
    have hidx : Reg.CTX_STATUS.ctorIdx = 167 := rfl
    unfold OffStatus at hr
    unfold regKey
    omega
  exact h.trans ⟨fun j hj => rd_wr_key _ _ _ _ _ _ (hkey j hj), fun _ => rfl⟩

theorem get (h : CopiesKept s t) {f : Fld} (hf : f.r = .CTX_STATUS) {i : Nat} (hi : i < 2 ^ 20) : t.get f i = s.get f i :=
  get_congr (by rw [hf]; exact h.status i hi)

theorem ite {a b : State} {p : Prop} [Decidable p] (ha : CopiesKept s a) (hb : CopiesKept s b) : CopiesKept s (if p then a else b) := by
  split <;> assumption

theorem put (h : CopiesKept s t) (f : Fld) {i : Nat} (n : Nat) (hr : OffStatus f.r i) : CopiesKept s (t.put f i n) := h.wr _ hr

theorem inc (h : CopiesKept s t) (f : Fld) {i : Nat} (hr : OffStatus f.r i) : CopiesKept s (t.inc f i) := h.wr _ hr

theorem incWrap (h : CopiesKept s t) (f : Fld) {i : Nat} (hr : OffStatus f.r i) : CopiesKept s (t.incWrap f i) := h.wr _ hr

theorem addSat (h : CopiesKept s t) (f : Fld) {i : Nat} (n : Nat) (hr : OffStatus f.r i) : CopiesKept s (t.addSat f i n) := h.wr _ hr

theorem foldl {β : Type} {f : State → β → State} {l : List β} (h : CopiesKept s t) (hf : ∀ a, ∀ b ∈ l, CopiesKept a (f a b)) :
    CopiesKept s (l.foldl f t) :=
  List.foldlRecOn (motive := CopiesKept s) l f h fun _ ha b hb => ha.trans (hf _ b hb)

theorem foldl_snd {α β : Type} {f : α × State → β → α × State} {l : List β} {x : α × State} (h : CopiesKept s x.2)
    (hf : ∀ a, ∀ b ∈ l, CopiesKept a.2 (f a b).2) : CopiesKept s (l.foldl f x).2 :=
  List.foldlRecOn (motive := fun a : α × State => CopiesKept s a.2) l f h fun _ ha b hb => ha.trans (hf _ b hb)

theorem snd_ite {α : Type} {p : Prop} [Decidable p] {x y : α × State} (hx : CopiesKept s x.2) (hy : CopiesKept s y.2) :
    CopiesKept s (if p then x else y).2 := by
  split <;> assumption

/-! ### Messages, alarms and events -/

theorem emit (h : CopiesKept s t) (o : Out) : CopiesKept s (t.emit o) :=
  h.store rfl rfl

theorem sendVector (h : CopiesKept s t) (fn v : Nat) (c : MsgClass) : CopiesKept s (t.sendVector fn v c) := by
  unfold State.sendVector
  exact .ite h (h.store rfl rfl)

theorem raiseYard (h : CopiesKept s t) (p u : Nat) : CopiesKept s (t.raiseYard p u) := by
  unfold State.raiseYard
  exact .ite h (.ite (h.inc _ (.inr ⟨by decide, by decide⟩)) (h.store rfl rfl))

theorem countEvent (h : CopiesKept s t) (code : Nat) : CopiesKept s (t.countEvent code) := h.store rfl rfl

theorem placeRequest (h : CopiesKept s t) (r : ModeReq) : CopiesKept s (t.placeRequest r) := by
  unfold State.placeRequest
  exact .ite h (h.store rfl rfl)

theorem alarm (h : CopiesKept s t) {code : Nat} (data : Word) (hc : code < 256) : CopiesKept s (t.alarm code data) := by
  unfold State.alarm
  extract_lets hold seq s1 s2 m s3
  have hidx : Reg.ALARM_SUMMARY.ctorIdx < 167 := by decide
  have h2 : CopiesKept s s2 := (h.put F.ALARM_STATUS_NEXT_SEQ _ (.inr ⟨by decide, by decide⟩)).inc
      ⟨.ALARM_SUMMARY, _, 16⟩ (.inr ⟨hidx, by omega⟩)
  have h3 : CopiesKept s s3 := h2.store rfl rfl
  exact .ite (h3.placeRequest _) h3

/-! ### The fen -/

theorem fenStore (h : CopiesKept s t) (a : Nat) (w : Word) (poison : Bool) : CopiesKept s (t.fenStore a w poison) :=
  h.store rfl rfl

theorem fenUe (h : CopiesKept s t) (a : Nat) : CopiesKept s (t.fenUe a) := by
  have h1 : CopiesKept s (t.inc F.FEN_ECC_UE) := h.inc _ (.inr ⟨by decide, by decide⟩)
  unfold State.fenUe
  exact .alarm (.ite h1 ((h1.put F.FEN_UE_ADDR_ADDR _ (.inr ⟨by decide, by decide⟩)).put F.FEN_UE_ADDR_VALID _
    (.inr ⟨by decide, by decide⟩))) _
    (by decide)

theorem engineRead (h : CopiesKept s t) (a : Nat) : CopiesKept s (t.engineRead a).2.2 := by
  unfold State.engineRead
  split
  · exact h.inc _ (.inr ⟨by decide, by decide⟩)
  · split
    · exact h
    · exact h.inc _ (.inr ⟨by decide, by decide⟩)
    · exact h.fenUe a

theorem engineWrite (h : CopiesKept s t) (a : Nat) (w : Word) (poison : Bool) : CopiesKept s (t.engineWrite a w poison) := by
  unfold State.engineWrite
  exact .ite (h.fenStore _ _ _) (h.inc _ (.inr ⟨by decide, by decide⟩))

theorem fenMerge (h : CopiesKept s t) (a : Nat) (w : Word) (be : BitVec 8) (poison : Bool) : CopiesKept s (t.fenMerge a w be poison) := by
  unfold State.fenMerge
  dsimp only
  split
  · exact h.fenStore _ _ _
  · split
    · exact h.fenStore _ _ _
    · exact (h.inc F.FEN_ECC_STORED_POISON (.inr ⟨by decide, by decide⟩)).fenStore _ _ _
    · exact (h.fenUe a).fenStore _ _ _

theorem engineWriteBytes (h : CopiesKept s t) (fuel a : Nat) (bs : List Byte) : CopiesKept s (State.engineWriteBytes fuel t a bs) := by
  induction fuel generalizing t a bs with
  | zero => exact h
  | succ fuel ih =>
    cases bs with
    | nil => exact h
    | cons b bs => exact ih (.ite (h.fenMerge _ _ _ _) (h.inc _ (.inr ⟨by decide, by decide⟩))) _ _

/-! ### Troughs -/

theorem setTrg (h : CopiesKept s t) (k : Nat) (x : Trough) : CopiesKept s (t.setTrg k x) := h.store rfl rfl

theorem writeSlot (h : CopiesKept s t) (k i : Nat) (w : TWord) : CopiesKept s (t.writeSlot k i w) := by
  unfold State.writeSlot
  exact .ite ((h.fenStore _ _ _).fenStore _ _ _) (h.store rfl rfl)

theorem putWords (h : CopiesKept s t) (k i : Nat) (ws : List TWord) : CopiesKept s (t.putWords k i ws) := by
  induction ws generalizing t i with
  | nil => exact h
  | cons w ws ih => exact ih (h.writeSlot k _ w) _

theorem noteHead (h : CopiesKept s t) (k : Nat) : CopiesKept s (t.noteHead k) := by
  unfold State.noteHead State.noteTaken State.raiseMark
  exact .ite (.ite (.ite (.ite (h.wr _ (.inl (by decide))) h) (.ite (h.wr _ (.inl (by decide))) h)) h) h

section Trough

variable {k : Nat} (hk : k < 2 ^ 20)
include hk

theorem trgThresh (h : CopiesKept s t) (before : Nat) : CopiesKept s (t.trgThresh k before) :=
  trgThresh_rec (P := CopiesKept s) k before h (fun _ f _ hf ha => ha.put f _ (.inr ⟨by rw [hf]; decide, hk⟩))
    (fun _ _ _ _ ha => ha.sendVector _ _ _) fun _ _ _ ha => ha.raiseYard _ _

theorem markDrops (h : CopiesKept s t) (n tick : Nat) : CopiesKept s (t.markDrops k n tick) := by
  unfold State.markDrops
  exact .ite h (.ite (h.writeSlot _ _ _) (((h.writeSlot _ _ _).setTrg _ _).incWrap _ (.inr ⟨by decide, hk⟩)))

theorem dropItem (h : CopiesKept s t) : CopiesKept s (t.dropItem k) :=
  (h.inc F.TRG_DROPS_DROPPED (.inr ⟨by decide, hk⟩)).markDrops hk _ _

theorem dropPending (h : CopiesKept s t) : CopiesKept s (t.dropPending k) :=
  (h.inc F.TRG_DROPS_DROPPED (.inr ⟨by decide, hk⟩)).setTrg _ _

theorem pushBurst (h : CopiesKept s t) (ws : List TWord) : CopiesKept s (t.pushBurst k ws) := by
  have hm (a : State) (ha : CopiesKept s a) : CopiesKept s (a.mirrorNote k ws) := by
    unfold State.mirrorNote
    exact .ite (ha.store rfl rfl) ha
  unfold State.pushBurst
  exact .ite (hm _ ((h.putWords _ _ _).setTrg _ _)) (h.dropItem hk)

theorem pushItem (h : CopiesKept s t) (ws : List Word) : CopiesKept s (t.pushItem k ws) := by
  unfold State.pushItem
  exact .ite (h.inc _ (.inr ⟨by decide, by decide⟩)) (.ite (h.dropPending hk) (.ite (h.setTrg _ _) ((h.pushBurst hk _).trgThresh hk _)))

theorem dropHead (h : CopiesKept s t) : CopiesKept s (t.dropHead k) :=
  ((((h.noteHead k).setTrg _ _).addSat F.TRG_COUNT_POISON_POPS _ (.inr ⟨by decide, hk⟩)).addSat F.TRG_ECC_POISON_POPS _
    (.inr ⟨by decide, by decide⟩)).trgThresh hk _

end Trough

/-! ### Pools and blocks -/

section Pool

variable {p : Nat} (hp : p < 256)
include hp

theorem poolWatch (h : CopiesKept s t) : CopiesKept s (t.poolWatch p) := by
  have hr : OffStatus .FEN_POOL_STATUS p := .inr ⟨by decide, by omega⟩
  unfold State.poolWatch
  extract_lets free low was s1 s2
  have h1 : CopiesKept s s1 := h.put F.FEN_POOL_STATUS_LOW _ hr
  have h2 : CopiesKept s s2 := .ite ((h1.inc F.FEN_POOL_COUNT_LOW_EVENTS (.inr ⟨by decide, by omega⟩)).alarm _ (by decide)) h1
  exact .ite (h2.put F.FEN_POOL_STATUS_MIN_FREE _ hr) h2

theorem allocBlock (h : CopiesKept s t) : CopiesKept s (t.allocBlock p).2 := by
  have hr : OffStatus .FEN_POOL_COUNT p := .inr ⟨by decide, by omega⟩
  unfold State.allocBlock
  split
  · exact .ite (h.inc F.FEN_POOL_COUNT_EMPTY_POPS hr) h
  · next it _ =>
    extract_lets a s1 s2
    have h1 : CopiesKept s s1 := h.dropHead (by omega)
    have h2 : CopiesKept s s2 := h1.store rfl rfl
    exact (h2.incWrap F.FEN_POOL_COUNT_ALLOCS hr).poolWatch hp

theorem of_allocBlock {b : Option Nat} {u : State} (h : CopiesKept s t) (he : t.allocBlock p = (b, u)) : CopiesKept s u := by
  have ha := h.allocBlock hp
  rw [he] at ha
  exact ha

end Pool

theorem releaseBlock (h : CopiesKept s t) (a : Nat) : CopiesKept s (t.releaseBlock a) := by
  have hr : OffStatus .FEN_RELEASE_STATUS 0 := .inr ⟨by decide, by decide⟩
  unfold State.releaseBlock
  split
  · exact h.inc _ hr
  · next p hp =>
    have hp : p < 256 := List.mem_range.mp (List.mem_of_find?_eq_some hp)
    have ho (b : Tab Bool) : CopiesKept s { t with outBits := b } := h.store rfl rfl
    exact .ite (h.inc _ hr) (.ite (h.inc _ hr) (((ho _).pushItem (k := 144 + p) (by omega) _).poolWatch hp))

theorem abandon (h : CopiesKept s t) (c : Nat) (p : Prod) : CopiesKept s (t.abandon c p).2 :=
  (h.foldl fun a b _ => (refl a).releaseBlock b).inc _ (.inl (by decide))

/-! ### Contexts and products -/

theorem modCtx (h : CopiesKept s t) (c : Nat) {f : Ctx → Ctx} (hf : ∀ x, (f x).copies = x.copies) :
    CopiesKept s (t.modCtx c f) :=
  h.trans ⟨fun _ _ => rfl, fun d => by
    by_cases hd : d = c
    · rw [hd, ctx_modCtx_same, hf]
    · rw [ctx_modCtx_other _ _ hd]⟩

theorem queueTags (h : CopiesKept s t) (c : Nat) (l : List (Option TagDue)) : CopiesKept s (t.queueTags c l) := h.modCtx c fun _ => rfl

theorem mapWords (h : CopiesKept s t) (n a : Nat) : CopiesKept s (State.mapWords n a t).2 := by
  induction n generalizing t a with
  | zero => exact h
  | succ n ih => exact ih (h.engineRead a) _

theorem read32 (h : CopiesKept s t) (a n : Nat) : CopiesKept s (t.read32 a n).2.2 := by
  unfold State.read32 State.mapVals
  split
  · exact h
  · exact h.mapWords _ _

theorem write32 (h : CopiesKept s t) (a : Nat) (l : List Int) : CopiesKept s (t.write32 a l) := h.engineWriteBytes _ a _

theorem sendWrites (h : CopiesKept s t) (fuel a : Nat) (bs : List Byte) (rel : Bool) :
    CopiesKept s (State.sendWrites fuel t a bs rel) := by
  induction fuel generalizing t a bs with
  | zero => exact h
  | succ fuel ih =>
    cases bs with
    | nil => exact h
    | cons b bs =>
      have h1 : CopiesKept s t.fromL1 := h.store rfl rfl
      exact ih (h1.emit _) _ _

section Product

variable {pool : Nat} (hp : pool < 256)
include hp

theorem fillBlocks (h : CopiesKept s t) (c fuel : Nat) (p : Prod) (q : List Byte) :
    CopiesKept s (State.fillBlocks c pool fuel p q t).2 := by
  induction fuel generalizing t p q with
  | zero => exact h
  | succ fuel ih =>
    unfold State.fillBlocks
    split
    · split
      · exact h
      · split
        · next he => exact (h.of_allocBlock hp he).abandon c p
        · next he => exact ih (h.of_allocBlock hp he) _ _
    · extract_lets off room s1 rest p1
      have h1 : CopiesKept s s1 := h.engineWriteBytes _ _ _
      split
      · exact h1
      · split
        · next he => exact (h1.of_allocBlock hp he).abandon c p1
        · next he => exact ih ((h1.of_allocBlock hp he).engineWrite _ _ _) _ _

theorem prodAppend (h : CopiesKept s t) (c : Nat) (relaxed : Bool) (p : Prod) (bs : List Byte) :
    CopiesKept s (t.prodAppend c pool relaxed p bs).2 := by
  unfold State.prodAppend
  split
  · exact h
  · split
    · exact .snd_ite (h.sendWrites _ _ _ _) h
    · exact h.fillBlocks hp _ _ _ _

end Product

theorem prodEnd (h : CopiesKept s t) (p : Prod) : CopiesKept s (t.prodEnd p).2 := by
  unfold State.prodEnd
  split
  · exact .snd_ite h (h.engineWriteBytes _ _ _)
  · exact h

/-! ### Stacks -/

theorem showStack (h : CopiesKept s t) (c : Nat) : CopiesKept s (t.showStack c) :=
  ((h.put F.RED_CTX_STATE_STACK_OPEN _ (.inl (by decide))).put F.RED_CTX_STATE_STAGE_BUSY _ (.inl (by decide))).put F.RED_CTX_STATE_STACK_FRAMES _
    (.inl (by decide))

theorem shortProduct (h : CopiesKept s t) (c kind : Nat) (k : Stack) (r : Nat) (reg : Region) :
    CopiesKept s (t.shortProduct c kind k r reg).2.2 := by
  unfold State.shortProduct
  extract_lets u s0 a e
  have ha : CopiesKept s a.2.2 := by
    refine List.foldlRecOn (motive := fun a : Prod × Bool × State => CopiesKept s a.2.2) _ _ (h.prodAppend (cPool_lt _) _ _ _ _)
      fun a ha oy _ => ?_
    refine CopiesKept.prodAppend (cPool_lt _) ?_ _ _ _ _
    split
    · exact ha
    · exact ha.read32 _ _
  exact ha.prodEnd _

theorem closeStack (h : CopiesKept s t) (c : Nat) : CopiesKept s (t.closeStack c) := by
  unfold State.closeStack
  split
  · exact h
  · extract_lets s1 eng kind rs a s2
    have h1 : CopiesKept s s1 := h.modCtx c fun _ => rfl
    have ha : CopiesKept s a.2 := by
      refine CopiesKept.foldl_snd (x := (_, s1)) h1 fun a r _ => ?_
      dsimp only
      split
      · exact .refl _
      · exact (CopiesKept.refl a.2).shortProduct _ _ _ _ _
    exact CopiesKept.showStack (.ite h1 (ha.queueTags _ _)) _

/-! ### Herds -/

theorem setHerd (h : CopiesKept s t) (k : Nat) (x : Herd) : CopiesKept s (t.setHerd k x) := h.store rfl rfl

theorem herdRelease (h : CopiesKept s t) (k : Nat) (x : HerdSlot) : CopiesKept s (t.herdRelease k x) := by
  unfold State.herdRelease
  extract_lets y ms gap s1 s2
  have h2 : CopiesKept s s2 := ((h.setHerd k _).incWrap F.HERD_COUNT_RECORDS (.inl (by decide))).put
      F.HERD_STATUS_LAST_SLOT _ (.inl (by decide))
  exact .ite ((h2.inc F.HERD_COUNT_INCOMPLETE (.inl (by decide))).countEvent _) h2

theorem herdGo (h : CopiesKept s t) (k : Nat) : CopiesKept s (t.herdGo k) := by
  have hs (n : Nat) : ∀ a : State, CopiesKept s a → CopiesKept s (a.herdSettle k n) := by
    induction n with
    | zero => exact fun _ ha => ha
    | succ n ih =>
      intro a ha
      unfold State.herdSettle
      split
      · exact ha
      · split
        · exact ha
        · exact ih _ (ha.herdRelease k _)
  exact hs _ t h

theorem herdPassAll (h : CopiesKept s t) (c : Nat) : CopiesKept s (t.herdPassAll c) :=
  h.foldl fun a k _ => .ite (((CopiesKept.refl a).setHerd k _).herdGo k) (.refl a)

/-! ### Shift-and-add -/

theorem stagedImage (h : CopiesKept s t) (copy : Tab Word) (half : Nat) (reg : Region) : CopiesKept s (t.stagedImage copy half reg).2.2 :=
  List.foldlRecOn (motive := fun a : List (List Int) × Bool × State => CopiesKept s a.2.2) _ _ h fun _ ha _ _ => ha.read32 _ _

theorem saaProduct (h : CopiesKept s t) (c : Nat) (k : Stack) (short : Bool) (reg : Region) (prior : Nat) (u : Option (List (List Int))) :
    CopiesKept s (t.saaProduct c k short reg prior u).2.2 := by
  unfold State.saaProduct
  extract_lets copy s0 a e
  have ha : CopiesKept s a.2.2 := by
    refine List.foldlRecOn (motive := fun a : Prod × Bool × State => CopiesKept s a.2.2) _ _ (h.prodAppend (cPool_lt _) _ _ _ _)
      fun a ha oy _ => ?_
    refine prodAppend (cPool_lt _) ?_ _ _ _ _
    split
    · exact ha
    · exact ha.read32 _ _
  exact ha.prodEnd _

theorem resampleEnd (h : CopiesKept s t) (c : Nat) : CopiesKept s (t.resampleEnd c) := by
  unfold State.resampleEnd
  split
  · extract_lets copy reg im d s1 flags src k1 u s2 s3 k2 s4 p q3
    have h1 : CopiesKept s s1 := (h.stagedImage _ _ _).modCtx c fun _ => rfl
    have h2 : CopiesKept s s2 := by
      unfold s2
      split
      · exact ((h1.put F.RED_CTX_OFFSET_DX _ (.inl (by decide))).put F.RED_CTX_OFFSET_DY _ (.inl (by decide))).put
          F.RED_CTX_OFFSET_VALID _ (.inl (by decide))
      · exact h1.inc _ (.inl (by decide))
    have h3 : CopiesKept s s3.1 := by
      unfold s3
      clear_value u
      cases u with
      | none => exact h2
      | some m =>
        refine List.foldlRecOn (motive := fun a : State × Bool => CopiesKept s a.1) _ _ h2 fun a ha oy _ => ?_
        dsimp only
        split
        · exact ha.write32 _ _
        · exact (ha.read32 _ _).write32 _ _
    have h4 : CopiesKept s s4 := h3.modCtx c fun _ => rfl
    split
    · exact (CopiesKept.ite (h4.closeStack c) h4).showStack c
    · have hp : CopiesKept s p.2.2 := h2.saaProduct _ _ _ _ _ _
      have hq : CopiesKept s q3 := hp.modCtx c fun _ => rfl
      exact (hq.queueTags c _).showStack c
  · exact h

theorem endStack (h : CopiesKept s t) (c : Nat) : CopiesKept s (t.endStack c) :=
  (h.foldl fun a _ _ => .ite (.refl a) ((CopiesKept.refl a).resampleEnd c)).closeStack c


/-- Beside ARMED, a disarmed context's stack may end and its herds may settle. -/
theorem disarm {c : Nat} (ha : s.isOn F.CTX_STATUS_ARMED c = true) : CopiesKept (s.put F.CTX_STATUS_ARMED c 0) (s.disarm c) := by
  unfold State.disarm
  rw [ha, if_neg (by decide)]
  refine herdPassAll ?_ c
  split
  · exact .refl _
  · exact .ite ((CopiesKept.refl _).modCtx c fun _ => rfl) ((CopiesKept.refl _).endStack c)

end CopiesKept

end Sys2Proof.Machine

/-! SUPPORT. TACK_CHECK_COMPLETE (R242, R245): the check that a copy fails first decides how it ends. -/

namespace Sys2Proof.Machine

variable {s : State} {c : Fin 64}

/-- With nothing under check there is nothing to end. -/
theorem tackCheckComplete_none (h : (s.ctx c).check = none) : exec (.tackCheckComplete c) s = .next s := by
  change Host.Outcome.next (match (s.ctx c.val).check with | none => s | some k => _) = _
  rw [h]

/-- The state after a check of copy `b` by register has come to `r`. -/
def State.checkedAs (s : State) (c : Nat) (b : Bool) (r : Nat × Nat) : State :=
  if r.1 = cmCrc then
    (((s.unchecked c).showResult c cmCrc 0).inc F.CTX_COUNT2_TACK_CRC c).fault 1 (field 0 6 c ||| field 8 1 (b2n b))
  else if r.1 = cmPending then
    if (s.unchecked c).ctxOn c then ((s.unchecked c).showResult c cmPending 0).put F.CTX_STATUS_PENDING_COPY c (copyCode b)
    else (s.unchecked c).activate c b 0 0
  else (s.unchecked c).showResult c r.1 r.2

/-- The state after the check of copy `b` by register. -/
def State.copyChecked (s : State) (c : Nat) (b : Bool) : State := s.checkedAs c b (s.checkCopy c ((s.ctx c).copy b))

theorem tackCheckComplete_eq {b : Bool} (h : (s.ctx c).check = some ⟨b, none⟩) :
    exec (.tackCheckComplete c) s = .next (s.copyChecked c b) := by
  change execTackCheckComplete c s = _
  unfold execTackCheckComplete
  rw [h]
  rfl


theorem badOffset_lt {u : Tab Word} {o : Nat} (h : s.badOffset u = some o) : o < 1024 := by
  obtain ⟨k, hk, rfl⟩ := List.mem_map.mp (List.mem_of_find?_eq_some h)
  have := List.mem_range.mp hk
  omega

/-- What a check can come to. -/
theorem checkCopy_cases (s : State) (c : Nat) (u : Tab Word) : s.checkCopy c u = (cmCrc, 0) ∨ s.checkCopy c u = (cmPending, 0) ∨
    ∃ r o, s.checkCopy c u = (r, o) ∧ r ∈ [cmStale, cmBadField, cmRebind] ∧ o < 1024 := by
  by_cases hcrc : cfield u 0x3F8 0 32 = crc32c (copyBytes u)
  · cases hnew : s.newerCopy c u with
    | false => exact .inr (.inr ⟨_, _, checkCopy_stale hcrc hnew, by simp, by decide⟩)
    | true =>
      cases hbad : s.badOffset u with
      | some o => exact .inr (.inr ⟨_, _, checkCopy_badField hcrc hnew hbad, by simp, badOffset_lt hbad⟩)
      | none =>
        cases hmove : s.ctxOn c && s.moves c u with
        | false => exact .inr (.inl (checkCopy_good hcrc hnew hbad hmove))
        | true =>
          rw [Bool.and_eq_true] at hmove
          exact .inr (.inr ⟨_, _, checkCopy_rebind hcrc hnew hbad hmove.1 hmove.2, by simp, by decide⟩)
  · exact .inl (checkCopy_crc hcrc)

section Ends

variable (s : State) {c : Nat} (hc : c < 2 ^ 20) (b : Bool)

theorem checkedAs_pending (c : Nat) : s.checkedAs c b (cmPending, 0) =
    if s.ctxOn c then ((s.unchecked c).showResult c cmPending 0).put F.CTX_STATUS_PENDING_COPY c (copyCode b)
    else (s.unchecked c).activate c b 0 0 := rfl

theorem checkedAs_failed {r : Nat} (hr : r ∈ [cmStale, cmBadField, cmRebind]) (c o : Nat) :
    s.checkedAs c b (r, o) = (s.unchecked c).showResult c r o := by
  have hcrc : r ≠ cmCrc := by rintro rfl; revert hr; decide
  have hpend : r ≠ cmPending := by rintro rfl; revert hr; decide
  exact (if_neg hcrc).trans (if_neg hpend)

include hc

theorem checkedAs_failed_ends {r o : Nat} (hr : r ∈ [cmStale, cmBadField, cmRebind]) (ho : o < 1024) :
    let t := s.checkedAs c b (r, o)
    CheckEnded c s t ∧ CopiesStand c s t ∧ t.get F.CTX_COMMIT_RESULT c = r ∧ t.get F.CTX_COMMIT_BAD_OFFSET c = o := by
  have hlt : ∀ r ∈ [cmStale, cmBadField, cmRebind], r < 16 ∧ r ≠ cmChecking := by decide
  rw [checkedAs_failed s b hr]
  exact checkFailed_ends s hc (hlt r hr).1 (hlt r hr).2 ho

theorem copyChecked_ended : CheckEnded c s (s.copyChecked c b) := by
  unfold State.copyChecked
  rcases checkCopy_cases s c ((s.ctx c).copy b) with h | h | ⟨r, o, h, hr, ho⟩
  · rw [h]
    exact (checkCrc_ends s hc _).1
  · rw [h, checkedAs_pending]
    split
    · exact (checkPassed_pends s hc b).1
    · exact (checkPassed_applies s hc b).1
  · rw [h]
    exact (checkedAs_failed_ends s hc b hr ho).1

theorem copyChecked_of_failed {r o : Nat} (h : s.checkCopy c ((s.ctx c).copy b) = (r, o)) (hr : r ∈ [cmStale, cmBadField, cmRebind])
    (ho : o < 1024) : CopiesStand c s (s.copyChecked c b) ∧ (s.copyChecked c b).get F.CTX_COMMIT_RESULT c = r ∧
      (s.copyChecked c b).get F.CTX_COMMIT_BAD_OFFSET c = o := by
  unfold State.copyChecked
  rw [h]
  exact (checkedAs_failed_ends s hc b hr ho).2

theorem copyChecked_of_crc (h : s.checkCopy c ((s.ctx c).copy b) = (cmCrc, 0)) :
    CopiesStand c s (s.copyChecked c b) ∧ (s.copyChecked c b).get F.CTX_COMMIT_RESULT c = cmCrc ∧
      (s.copyChecked c b).get F.CTX_COUNT2_TACK_CRC c = min (s.get F.CTX_COUNT2_TACK_CRC c + 1) 65535 ∧
      ∃ f ∈ (s.copyChecked c b).mgmt.faults, f.code = 1 := by
  unfold State.copyChecked
  rw [h]
  exact (checkCrc_ends s hc _).2

theorem copyChecked_of_passed_on (h : s.checkCopy c ((s.ctx c).copy b) = (cmPending, 0)) (hon : s.ctxOn c = true) :
    (s.copyChecked c b).get F.CTX_COMMIT_RESULT c = cmPending ∧ (s.copyChecked c b).get F.CTX_STATUS_PENDING_COPY c = copyCode b ∧
      (s.copyChecked c b).get F.CTX_STATUS_ACTIVE_COPY c = s.get F.CTX_STATUS_ACTIVE_COPY c := by
  unfold State.copyChecked
  rw [h, checkedAs_pending, if_pos hon]
  exact (checkPassed_pends s hc b).2

theorem copyChecked_of_passed_off (h : s.checkCopy c ((s.ctx c).copy b) = (cmPending, 0)) (hon : s.ctxOn c = false) :
    (s.copyChecked c b).get F.CTX_COMMIT_RESULT c = cmApplied ∧ (s.copyChecked c b).get F.CTX_STATUS_ACTIVE_COPY c = copyCode b ∧
      (s.copyChecked c b).get F.CTX_STATUS_PENDING_COPY c = 0 ∧
      (s.copyChecked c b).get F.CTX_APPLIED_ACTIVE_SEQUENCE c = cfield ((s.ctx c).copy b) 0 0 32 ∧
      (s.copyChecked c b).get F.CTX_APPLIED_APPLIED_FRAME_ID c = 0 := by
  unfold State.copyChecked
  rw [h, checkedAs_pending, if_neg (Bool.eq_false_iff.mp hon)]
  exact (checkPassed_applies s hc b).2

end Ends

end Sys2Proof.Machine

/-! SUPPORT. Enabling and disabling contexts, and the counters of a context (R211, R212, R250, R256). -/

namespace Sys2Proof.Machine

theorem OnlyRegs.copiesKept {l : List (Reg × Nat)} {s t : State} (h : OnlyRegs l s t)
    (hl : ∀ p ∈ l, Reg.CTX_STATUS ≠ p.1 ∧ p.2 < 2 ^ 20) : CopiesKept s t :=
  ⟨fun _ hi => h.2.rd_eq hi hl, fun d => congrArg Ctx.copies (ctx_congr h.ctxs d)⟩

/-! ### Herds follow their members (R425, R460) -/

/-- The registers of herd status. -/
def herdStatusRegs : List (Reg × Nat) := (List.range 16).map fun h => (.HERD_STATUS, h)

theorem herdStatusRegs_beside {r : Reg} (hr : r ≠ .HERD_STATUS) : ∀ p ∈ herdStatusRegs, r ≠ p.1 ∧ p.2 < 2 ^ 20 := by
  intro p hp
  obtain ⟨h, hh, rfl⟩ := List.mem_map.mp hp
  have := List.mem_range.mp hh
  exact ⟨hr, by omega⟩

theorem herdRefresh_onlyRegs (s : State) : OnlyRegs herdStatusRegs s s.herdRefresh := by
  refine List.foldlRecOn (motive := OnlyRegs herdStatusRegs s) _ _ (.refl _ s) fun a ha h hh => ?_
  have hm : (Reg.HERD_STATUS, h) ∈ herdStatusRegs := List.mem_map_of_mem hh
  have hput (n : Nat) : OnlyRegs herdStatusRegs s (a.put F.HERD_STATUS_MEMBERS h n) := ha.put _ n hm
  dsimp only
  split
  · split
    · exact (hput _).put _ _ hm
    · exact hput _
  · exact ha

theorem get_herdRefresh (s : State) (f : Fld) {i : Nat} (hi : i < 2 ^ 20) (hf : f.r ≠ .HERD_STATUS) : s.herdRefresh.get f i = s.get f i :=
  (herdRefresh_onlyRegs s).2.get_eq f hi (herdStatusRegs_beside hf)

/-! ### CNT_CLEAR (R250, R256, R464) -/

section CntClear

variable (s : State) {c : Nat} (hc : c < 2 ^ 20)

/-- The registers that CNT_CLEAR clears with copy `u` active. -/
def clearedRegs (c : Nat) (u : Option (Tab Word)) : List (Reg × Nat) :=
  [(.CTX_COUNT, c), (.CTX_COUNT2, c), (.CTX_DEST_COUNT, c)] ++ (u.map fun t => (Reg.CHUTE_COUNT, cChute t)).toList

theorem ctxCntClear_onlyRegs (c : Nat) : OnlyRegs (clearedRegs c (s.active c)) s (s.ctxCntClear c) := by
  unfold State.ctxCntClear clearedRegs
  have h (l : List (Reg × Nat)) : OnlyRegs ([(.CTX_COUNT, c), (.CTX_COUNT2, c), (.CTX_DEST_COUNT, c)] ++ l) s
      (((s.rst .CTX_COUNT c).rst .CTX_COUNT2 c).rst .CTX_DEST_COUNT c) :=
    (((OnlyRegs.refl _ s).rst (by simp)).rst (by simp)).rst (by simp)
  cases s.active c with
  | none => exact h _
  | some u => exact (h _).rst (by simp)

theorem cChute_lt (u : Tab Word) : cChute u < 4 := bits_lt _ _ _

include hc

theorem ctxCntClear_zero : (s.ctxCntClear c).rd .CTX_COUNT c = 0 ∧ (s.ctxCntClear c).rd .CTX_COUNT2 c = 0 ∧
    (s.ctxCntClear c).rd .CTX_DEST_COUNT c = 0 := by
  have h : (((s.rst .CTX_COUNT c).rst .CTX_COUNT2 c).rst .CTX_DEST_COUNT c).rd .CTX_COUNT c = 0 ∧
      (((s.rst .CTX_COUNT c).rst .CTX_COUNT2 c).rst .CTX_DEST_COUNT c).rd .CTX_COUNT2 c = 0 ∧
      (((s.rst .CTX_COUNT c).rst .CTX_COUNT2 c).rst .CTX_DEST_COUNT c).rd .CTX_DEST_COUNT c = 0 := by
    refine ⟨?_, ?_, rd_rst_same ..⟩
    · rw [rd_rst_reg _ (by decide) hc hc, rd_rst_reg _ (by decide) hc hc]
      exact rd_rst_same ..
    · rw [rd_rst_reg _ (by decide) hc hc]
      exact rd_rst_same ..
  unfold State.ctxCntClear
  cases s.active c with
  | none => exact h
  | some u =>
    have hu : cChute u < 2 ^ 20 := (cChute_lt u).trans (by decide)
    dsimp only
    rwa [rd_rst_reg _ (by decide) hu hc, rd_rst_reg _ (by decide) hu hc, rd_rst_reg _ (by decide) hu hc]

omit hc in
theorem ctxCntClear_chute {u : Tab Word} (h : s.active c = some u) : (s.ctxCntClear c).rd .CHUTE_COUNT (cChute u) = 0 := by
  unfold State.ctxCntClear
  rw [h]
  exact rd_rst_same ..

end CntClear

/-! ### Writes of CTX_CTRL (Table 5.8) -/

/-- The state with what the bits of `v` beside ENABLE clear. -/
def State.ctrlCleared (s : State) (c : Nat) (v : Word) : State :=
  let a := if bit v 1 then s.put F.CTX_CTRL_ENABLE_REJECTED c 0 else s
  if bit v 8 then a.ctxCntClear c else a

theorem ctrlCleared_of_off {s : State} {v : Word} (c : Nat) (h1 : bit v 1 = false) (h8 : bit v 8 = false) : s.ctrlCleared c v = s := by
  unfold State.ctrlCleared
  rw [h1, h8]
  rfl

theorem ctxCtrlWrite_eq (s : State) (c : Nat) {v w : Word} (h1 : bit w 1 = bit v 1) (h8 : bit w 8 = bit v 8) :
    s.ctxCtrlWrite c w allBytes = if bit w 0 then (s.ctrlCleared c v).ctxEnable c else (s.ctrlCleared c v).ctxDisable c := by
  unfold State.ctxCtrlWrite State.ctrlCleared
  dsimp only
  rw [bit_allBytes _ (by decide), bit_allBytes _ (by decide), h1, h8]
  rfl

theorem contextEnable_eq (s : State) (c : Fin 64) (v : Word) : exec (.contextEnable c v) s = .next ((s.ctrlCleared c v).ctxEnable c) := by
  change Host.Outcome.next (s.ctxCtrlWrite c (v ||| 1) allBytes) = _
  rw [ctxCtrlWrite_eq s c (v := v) (by simp [bit]) (by simp [bit]), if_pos (by simp [bit])]

theorem contextDisable_eq (s : State) (c : Fin 64) (v : Word) : exec (.contextDisable c v) s = .next ((s.ctrlCleared c v).ctxDisable c) := by
  change Host.Outcome.next (s.ctxCtrlWrite c (v &&& ~~~1#64) allBytes) = _
  rw [ctxCtrlWrite_eq s c (v := v) (by simp [bit]) (by simp [bit]), if_neg (by simp [bit])]

/-! ### Enabling (R211, R414) -/

section Enable

variable {s : State} {c : Nat}

theorem ctxEnable_of_on (h : s.ctxOn c = true) : s.ctxEnable c = s := if_pos h

theorem ctxEnable_of_refused (h : s.ctxOn c = false) (hr : s.enableRefused c = true) : s.ctxEnable c = s.put F.CTX_CTRL_ENABLE_REJECTED c 1 :=
  (if_neg (Bool.eq_false_iff.mp h)).trans (if_pos hr)

theorem ctxEnable_of_taken (h : s.ctxOn c = false) (hr : s.enableRefused c = false) : s.ctxEnable c =
    ((s.put F.CTX_CTRL_ENABLE c 1).modCtx c fun x => { x with epoch := none, lastId := 0 }).herdRefresh :=
  (if_neg (Bool.eq_false_iff.mp h)).trans (if_neg (Bool.eq_false_iff.mp hr))

theorem ctxEnable_regsBut (s : State) (c : Nat) : RegsBut ((.CTX_CTRL, c) :: herdStatusRegs) s (s.ctxEnable c) := by
  have hput (f : Fld) (hf : f.r = .CTX_CTRL) (n : Nat) : RegsBut ((.CTX_CTRL, c) :: herdStatusRegs) s (s.put f c n) :=
    (RegsBut.refl _ s).put f n (by rw [hf]; exact List.mem_cons_self)
  have hmod (a : State) (f : Ctx → Ctx) : RegsBut ((.CTX_CTRL, c) :: herdStatusRegs) a (a.modCtx c f) := .of_regs rfl _
  have hherd (a : State) : RegsBut ((.CTX_CTRL, c) :: herdStatusRegs) a a.herdRefresh :=
    (herdRefresh_onlyRegs a).2.mono fun _ hp => List.mem_cons_of_mem _ hp
  unfold State.ctxEnable
  split
  · exact .refl _ _
  · split
    · exact hput _ rfl _
    · exact ((hput F.CTX_CTRL_ENABLE rfl 1).trans (hmod _ _)).trans (hherd _)

/-- Whether ENABLE is refused (R211). -/
theorem enableRefused_iff : s.enableRefused c = true ↔ s.active c = none ∨ ∃ a, s.active c = some a ∧
    (2 ^ s.get F.CHUTE_CFG_BAYS (cChute a) ≤ cBay a ∨
      ∃ d u, d < 64 ∧ d ≠ c ∧ s.ctxOn d = true ∧ s.active d = some u ∧ cStall u = cStall a) := by
  unfold State.enableRefused State.bays
  cases s.active c with
  | none => simp
  | some a =>
    simp only [Bool.or_eq_true, decide_eq_true_eq, List.any_eq_true, List.mem_range, Bool.and_eq_true, bne_iff_ne, ne_eq,
      reduceCtorEq, false_or, Option.some.injEq, exists_eq_left']
    refine or_congr_right (exists_congr fun d => ?_)
    cases hd : s.active d <;> simp [and_assoc]

end Enable

end Sys2Proof.Machine

/-! SUPPORT. What CONTEXT_ENABLE and CONTEXT_DISABLE do (R211, R212, R250). -/

namespace Sys2Proof.Machine

/-! ### CONTEXT_ENABLE (R211, R414) -/

section Enable

variable {s : State} {c : Fin 64} {v : Word}

theorem contextEnable_of_on (h : s.ctxOn c = true) (h1 : bit v 1 = false) (h8 : bit v 8 = false) : exec (.contextEnable c v) s = .next s := by
  rw [contextEnable_eq, ctrlCleared_of_off _ h1 h8, ctxEnable_of_on h]

theorem contextEnable_of_off (h1 : bit v 1 = false) (h8 : bit v 8 = false) : exec (.contextEnable c v) s = .next (s.ctxEnable c) := by
  rw [contextEnable_eq, ctrlCleared_of_off _ h1 h8]

theorem ctxEnable_refused_effect (h : s.ctxOn c = false) (hr : s.enableRefused c = true) :
    (s.ctxEnable c).ctxOn c = false ∧ (s.ctxEnable c).isOn F.CTX_CTRL_ENABLE_REJECTED c = true ∧
      OnlyRegs [(.CTX_CTRL, c.val)] s (s.ctxEnable c) := by
  rw [ctxEnable_of_refused h hr]
  refine ⟨(isOn_congr (f := F.CTX_CTRL_ENABLE) (g := F.CTX_CTRL_ENABLE) ?_).trans h, 
    decide_eq_true (get_put_same _ _ _ _ (by decide)), put_onlyRegs ..⟩
  exact get_put_beside _ F.CTX_CTRL_ENABLE_REJECTED F.CTX_CTRL_ENABLE _ _ rfl (by decide)

theorem ctxEnable_taken_effect (h : s.ctxOn c = false) (hr : s.enableRefused c = false) :
    (s.ctxEnable c).ctxOn c = true ∧ ((s.ctxEnable c).ctx c).epoch = none ∧ (∀ d, d ≠ c.val → (s.ctxEnable c).ctx d = s.ctx d) ∧
      { s.ctxEnable c with regs := s.regs, ctxs := s.ctxs } = s := by
  have hput := put_onlyRegs s F.CTX_CTRL_ENABLE c 1
  have hon : (s.put F.CTX_CTRL_ENABLE c 1).ctxOn c = true := decide_eq_true (get_put_same _ _ _ _ (by decide))
  rw [ctxEnable_of_taken h hr]
  generalize s.put F.CTX_CTRL_ENABLE c 1 = a at hput hon
  have hctx := ctx_modCtx_same a c fun x => { x with epoch := none, lastId := 0 }
  have hother (d : Nat) (hd : d ≠ c.val) : (a.modCtx c fun x => { x with epoch := none, lastId := 0 }).ctx d = s.ctx d :=
    (ctx_modCtx_other a _ hd).trans (ctx_congr hput.ctxs d)
  have hrest : { (a.modCtx c fun x => { x with epoch := none, lastId := 0 }) with regs := s.regs, ctxs := s.ctxs } = s :=
    (congrArg (fun x : State => { x with ctxs := s.ctxs }) hput.1 :)
  have hon : (a.modCtx c fun x => { x with epoch := none, lastId := 0 }).ctxOn c = true := hon
  generalize (a.modCtx c fun x => { x with epoch := none, lastId := 0 }) = b at hctx hother hrest hon
  have hherd := herdRefresh_onlyRegs b
  have hctxs := ctx_congr hherd.ctxs
  refine ⟨(isOn_congr (get_herdRefresh b F.CTX_CTRL_ENABLE (by omega) (by decide))).trans hon, ?_, fun d hd => (hctxs d).trans (hother d hd),
    hherd.rest hrest⟩
  exact (congrArg Ctx.epoch ((hctxs c).trans hctx) :)

/-- CNT_CLEAR beside an ENABLE. -/
theorem contextEnable_clears (h8 : bit v 8 = true) :
    ∃ t, exec (.contextEnable c v) s = .next t ∧ t.rd .CTX_COUNT c = 0 ∧ t.rd .CTX_COUNT2 c = 0 := by
  have hc : c.val < 2 ^ 20 := by omega
  have hcleared (r : Reg) (h : ∀ a : State, (a.ctxCntClear c).rd r c = 0) : (s.ctrlCleared c v).rd r c = 0 := by
    unfold State.ctrlCleared
    rw [h8]
    exact h _
  have hkeep (a : State) (r : Reg) (hr : r ≠ .CTX_CTRL ∧ r ≠ .HERD_STATUS) : (a.ctxEnable c).rd r c = a.rd r c :=
    (ctxEnable_regsBut a c).rd_eq hc fun p hp => by
      rcases List.mem_cons.mp hp with rfl | hp
      · exact ⟨hr.1, hc⟩
      · exact herdStatusRegs_beside hr.2 p hp
  refine ⟨_, contextEnable_eq s c v, ?_, ?_⟩
  · exact (hkeep _ .CTX_COUNT (by decide)).trans (hcleared _ fun a => (ctxCntClear_zero a hc).1)
  · exact (hkeep _ .CTX_COUNT2 (by decide)).trans (hcleared _ fun a => (ctxCntClear_zero a hc).2.1)

end Enable

/-! ### CONTEXT_DISABLE (R212, R250) -/

theorem disarm_flows (s : State) (c : Nat) : Flows s (s.disarm c) := by
  have hput : Flows s (s.put F.CTX_STATUS_ARMED c 0) := (Flows.refl s).put _ _ (.inl rfl)
  unfold State.disarm
  refine .ite (.refl s) (Flows.herdPassAll ?_ c)
  split
  · exact hput
  · exact .ite (hput.modCtx c _) (hput.endStack c)

/-- A disarmed context is not armed; its copies and the copies active and pending stand. -/
theorem disarm_effect (s : State) {c : Nat} (hc : c < 2 ^ 20) : (s.disarm c).isOn F.CTX_STATUS_ARMED c = false ∧
    (s.disarm c).get F.CTX_STATUS_ACTIVE_COPY c = s.get F.CTX_STATUS_ACTIVE_COPY c ∧
    ∀ d, ((s.disarm c).ctx d).copies = (s.ctx d).copies := by
  cases ha : s.isOn F.CTX_STATUS_ARMED c with
  | false =>
    have h : s.disarm c = s := if_pos (by rw [ha]; rfl)
    rw [h]
    exact ⟨ha, rfl, fun _ => rfl⟩
  | true =>
    have hkept := CopiesKept.disarm ha
    have harmed : (s.put F.CTX_STATUS_ARMED c 0).isOn F.CTX_STATUS_ARMED c = false :=
      decide_eq_false (by rw [get_put_same _ _ _ _ (by decide)]; decide)
    have hactive : (s.put F.CTX_STATUS_ARMED c 0).get F.CTX_STATUS_ACTIVE_COPY c = s.get F.CTX_STATUS_ACTIVE_COPY c :=
      get_put_beside _ F.CTX_STATUS_ARMED F.CTX_STATUS_ACTIVE_COPY _ _ rfl (by decide)
    exact ⟨(isOn_congr (hkept.get rfl hc)).trans harmed, (hkept.get rfl hc).trans hactive,
      fun d => (hkept.copies d).trans (congrArg Ctx.copies (ctx_congr (put_onlyRegs s F.CTX_STATUS_ARMED c 0).ctxs d))⟩

theorem ctxDisable_of_off {s : State} {c : Nat} (h : s.ctxOn c = false) : s.ctxDisable c = s := if_pos (by rw [h]; rfl)

theorem ctxDisable_of_on {s : State} {c : Nat} (h : s.ctxOn c = true) :
    s.ctxDisable c = (((s.disarm c).herdPassAll c).put F.CTX_CTRL_ENABLE c 0).herdRefresh := if_neg (by rw [h]; decide)

/-- A context disabled is disarmed (R212); its copies and the stalls stand. -/
theorem ctxDisable_effect {s : State} {c : Nat} (hc : c < 2 ^ 20) (h : s.ctxOn c = true) :
    (s.ctxDisable c).ctxOn c = false ∧ (s.ctxDisable c).isOn F.CTX_STATUS_ARMED c = false ∧
      ((s.ctxDisable c).ctx c).copies = (s.ctx c).copies ∧ (s.ctxDisable c).stalls = s.stalls ∧
      (s.ctxDisable c).get F.CTX_STATUS_ACTIVE_COPY c = s.get F.CTX_STATUS_ACTIVE_COPY c := by
  obtain ⟨harmed, hactive, hcopies⟩ := disarm_effect s hc
  have hflows := (disarm_flows s c).herdPassAll c
  have hkept := (CopiesKept.refl (s.disarm c)).herdPassAll c
  rw [ctxDisable_of_on h]
  generalize (s.disarm c).herdPassAll c = a at hflows hkept
  have hput := put_onlyRegs a F.CTX_CTRL_ENABLE c 0
  have hoff : (a.put F.CTX_CTRL_ENABLE c 0).ctxOn c = false := decide_eq_false (by rw [get_put_same _ _ _ _ (by decide)]; decide)
  generalize a.put F.CTX_CTRL_ENABLE c 0 = b at hput hoff
  have hherd := herdRefresh_onlyRegs b
  have hall : CopiesKept (s.disarm c) b.herdRefresh :=
    (hkept.trans (hput.copiesKept (by simpa using hc))).trans (hherd.copiesKept (herdStatusRegs_beside (by decide)))
  exact ⟨(isOn_congr (get_herdRefresh b F.CTX_CTRL_ENABLE hc (by decide))).trans hoff, (isOn_congr (hall.get rfl hc)).trans harmed,
    (hall.copies c).trans (hcopies c), (hherd.stalls.trans hput.stalls).trans hflows.stalls, (hall.get rfl hc).trans hactive⟩

section Disable

variable {s : State} {c : Fin 64} {v : Word}

/-- From `s` to `t` registers were written, but not what enables context `c` or shows its active copy. -/
def BindingKept (c : Nat) (s t : State) : Prop :=
  t.ctxOn c = s.ctxOn c ∧ t.get F.CTX_STATUS_ACTIVE_COPY c = s.get F.CTX_STATUS_ACTIVE_COPY c ∧ t.ctxs = s.ctxs ∧ t.stalls = s.stalls

theorem bindingKept_putRejected (s : State) {c : Nat} (hc : c < 2 ^ 20) (n : Nat) : BindingKept c s (s.put F.CTX_CTRL_ENABLE_REJECTED c n) :=
  ⟨isOn_congr (get_put_beside s F.CTX_CTRL_ENABLE_REJECTED F.CTX_CTRL_ENABLE c n rfl (by decide)),
    get_put_reg s F.CTX_CTRL_ENABLE_REJECTED F.CTX_STATUS_ACTIVE_COPY c c n (by decide) hc hc, (put_onlyRegs ..).ctxs, (put_onlyRegs ..).stalls⟩

/-- CNT_CLEAR reaches counters only. -/
theorem mem_clearedRegs {c : Nat} (hc : c < 2 ^ 20) {u : Option (Tab Word)} {p : Reg × Nat} (hp : p ∈ clearedRegs c u) :
    p.1 ∈ [Reg.CTX_COUNT, .CTX_COUNT2, .CTX_DEST_COUNT, .CHUTE_COUNT] ∧ p.2 < 2 ^ 20 := by
  simp only [clearedRegs, List.mem_append, List.mem_cons, List.not_mem_nil, or_false, Option.mem_toList, Option.map_eq_some_iff] at hp
  obtain (rfl | rfl | rfl) | ⟨u, -, rfl⟩ := hp
  · exact ⟨by simp, hc⟩
  · exact ⟨by simp, hc⟩
  · exact ⟨by simp, hc⟩
  · exact ⟨by simp, (cChute_lt u).trans (by decide)⟩

theorem bindingKept_ctxCntClear (s : State) {c : Nat} (hc : c < 2 ^ 20) : BindingKept c s (s.ctxCntClear c) := by
  have h := ctxCntClear_onlyRegs s c
  have hget (f : Fld) (hf : f.r ∉ [Reg.CTX_COUNT, .CTX_COUNT2, .CTX_DEST_COUNT, .CHUTE_COUNT]) : (s.ctxCntClear c).get f c = s.get f c :=
    h.2.get_eq f hc fun p hp => ⟨fun e => hf (e ▸ (mem_clearedRegs hc hp).1), (mem_clearedRegs hc hp).2⟩
  exact ⟨isOn_congr (hget F.CTX_CTRL_ENABLE (by decide)), hget _ (by decide), h.ctxs, h.stalls⟩

theorem BindingKept.trans {c : Nat} {s t u : State} (h : BindingKept c s t) (k : BindingKept c t u) : BindingKept c s u :=
  ⟨k.1.trans h.1, k.2.1.trans h.2.1, k.2.2.1.trans h.2.2.1, k.2.2.2.trans h.2.2.2⟩

theorem bindingKept_ctrlCleared (s : State) {c : Nat} (hc : c < 2 ^ 20) (v : Word) : BindingKept c s (s.ctrlCleared c v) := by
  have hrefl (a : State) : BindingKept c a a := ⟨rfl, rfl, rfl, rfl⟩
  have hput : BindingKept c s (if bit v 1 then s.put F.CTX_CTRL_ENABLE_REJECTED c 0 else s) := by
    split
    · exact bindingKept_putRejected s hc 0
    · exact hrefl s
  unfold State.ctrlCleared
  dsimp only
  generalize (if bit v 1 then s.put F.CTX_CTRL_ENABLE_REJECTED c 0 else s) = a at hput ⊢
  split
  · exact hput.trans (bindingKept_ctxCntClear a hc)
  · exact hput

theorem contextDisable_of_off (h : s.ctxOn c = false) (h1 : bit v 1 = false) (h8 : bit v 8 = false) :
    exec (.contextDisable c v) s = .next s := by
  rw [contextDisable_eq, ctrlCleared_of_off _ h1 h8, ctxDisable_of_off h]

theorem contextDisable_of_on (h : s.ctxOn c = true) :
    ∃ t, exec (.contextDisable c v) s = .next t ∧ t.ctxOn c = false ∧ t.isOn F.CTX_STATUS_ARMED c = false ∧
      (t.ctx c).a = (s.ctx c).a ∧ (t.ctx c).b = (s.ctx c).b ∧ t.stalls = s.stalls ∧
      t.get F.CTX_STATUS_ACTIVE_COPY c = s.get F.CTX_STATUS_ACTIVE_COPY c := by
  obtain ⟨hon, hactive, hctxs, hstalls⟩ := bindingKept_ctrlCleared s (c := c) (by omega) v
  obtain ⟨hoff, harmed, hcopies, hstalls', hactive'⟩ := ctxDisable_effect (c := c) (by omega) (hon.trans h)
  have hcopies : (((s.ctrlCleared c v).ctxDisable c).ctx c).copies = (s.ctx c).copies := by rw [hcopies, ctx_congr hctxs]
  exact ⟨_, contextDisable_eq s c v, hoff, harmed, congrArg Prod.fst hcopies, congrArg Prod.snd hcopies, hstalls'.trans hstalls,
    hactive'.trans hactive⟩

end Disable

end Sys2Proof.Machine

/-! SUPPORT. Writes of the chutes' bays and of the defect base (R255, R257). -/

namespace Sys2Proof.Machine

variable {s : State}

/-! ### CHUTE_BAYS_WRITE (R255) -/

/-- Whether an enabled context's active copy names chute `k`. -/
def State.chuteUsed (s : State) (k : Nat) : Bool := (List.range 64).any fun c => s.ctxOn c && ((s.active c).map fun t => cChute t == k).getD false

theorem chuteUsed_iff {k : Nat} : s.chuteUsed k = true ↔ ∃ c u, c < 64 ∧ s.ctxOn c = true ∧ s.active c = some u ∧ cChute u = k := by
  simp only [State.chuteUsed, List.any_eq_true, List.mem_range, Bool.and_eq_true]
  refine exists_congr fun c => ?_
  cases s.active c <;> simp

/-- The state with CFG_REJECTED cleared where `v` clears it. -/
def State.chuteCleared (s : State) (k : Nat) (v : Word) : State := if bit v 2 then s.put F.CHUTE_CFG_CFG_REJECTED k 0 else s

theorem chuteBaysWrite_eq (s : State) (k : Fin 4) (v : Word) : exec (.chuteBaysWrite k v) s =
    .next (if bits v 0 2 = 3 ∨ s.chuteUsed k = true then (s.chuteCleared k v).put F.CHUTE_CFG_CFG_REJECTED k 1
      else (s.chuteCleared k v).put F.CHUTE_CFG_BAYS k (bits v 0 2)) := by
  have hmask : ¬ allBytes &&& 3 = 0 := by decide
  change Host.Outcome.next (s.chuteCfgWrite k v allBytes) = _
  unfold State.chuteCfgWrite State.chuteCleared
  dsimp only
  rw [bit_allBytes _ (by decide), if_neg hmask]
  rfl

section Bays

variable (s) (k : Fin 4) (v : Word)

theorem chuteCleared_onlyRegs : OnlyRegs [(.CHUTE_CFG, k.val)] s (s.chuteCleared k v) := by
  unfold State.chuteCleared
  split
  · exact put_onlyRegs ..
  · exact .refl _ s

theorem chuteCleared_bays : (s.chuteCleared k v).get F.CHUTE_CFG_BAYS k = s.get F.CHUTE_CFG_BAYS k := by
  unfold State.chuteCleared
  split
  · exact get_put_beside s F.CHUTE_CFG_CFG_REJECTED F.CHUTE_CFG_BAYS k 0 rfl (by decide)
  · rfl

theorem chuteCleared_rejected (h : bit v 2 = true) : (s.chuteCleared k v).isOn F.CHUTE_CFG_CFG_REJECTED k = false := by
  rw [State.chuteCleared, if_pos h]
  exact decide_eq_false (by rw [get_put_same _ _ _ _ (by decide)]; decide)

end Bays

theorem chuteBaysWrite_refused {k : Fin 4} {v : Word} (h : bits v 0 2 = 3 ∨ s.chuteUsed k = true) :
    ∃ t, exec (.chuteBaysWrite k v) s = .next t ∧ OnlyRegs [(.CHUTE_CFG, k.val)] s t ∧ t.isOn F.CHUTE_CFG_CFG_REJECTED k = true ∧
      t.get F.CHUTE_CFG_BAYS k = s.get F.CHUTE_CFG_BAYS k := by
  have honly := chuteCleared_onlyRegs s k v
  have hbays := chuteCleared_bays s k v
  rw [chuteBaysWrite_eq, if_pos h]
  generalize s.chuteCleared k v = a at honly hbays
  exact ⟨_, rfl, honly.put F.CHUTE_CFG_CFG_REJECTED 1 List.mem_cons_self, decide_eq_true (get_put_same _ _ _ _ (by decide)),
    (get_put_beside a F.CHUTE_CFG_CFG_REJECTED F.CHUTE_CFG_BAYS k 1 rfl (by decide)).trans hbays⟩

theorem chuteBaysWrite_taken {k : Fin 4} {v : Word} (h : ¬ (bits v 0 2 = 3 ∨ s.chuteUsed k = true)) :
    ∃ t, exec (.chuteBaysWrite k v) s = .next t ∧ OnlyRegs [(.CHUTE_CFG, k.val)] s t ∧ t.get F.CHUTE_CFG_BAYS k = bits v 0 2 ∧
      (bit v 2 = true → t.isOn F.CHUTE_CFG_CFG_REJECTED k = false) := by
  have honly := chuteCleared_onlyRegs s k v
  have hrejected := chuteCleared_rejected s k v
  rw [chuteBaysWrite_eq, if_neg h]
  generalize s.chuteCleared k v = a at honly hrejected
  refine ⟨_, rfl, honly.put F.CHUTE_CFG_BAYS _ List.mem_cons_self, ?_, fun hv => ?_⟩
  · exact (get_put_same _ _ _ _ (by decide)).trans (Nat.mod_eq_of_lt (bits_lt _ _ _))
  · exact (isOn_congr (get_put_beside a F.CHUTE_CFG_BAYS F.CHUTE_CFG_CFG_REJECTED k _ rfl (by decide))).trans (hrejected hv)

/-! ### DEFECT_BASE_WRITE (R257) -/

/-- Whether defect base `b` cannot be taken: a context is enabled, or the list would leave the fen. -/
def State.baseBad (s : State) (b : Nat) : Prop := (∃ c, c < 64 ∧ s.ctxOn c = true) ∨ fenEnd < b * 0x10000 + 0x1000000

/-- The state with REJECTED cleared where `v` clears it. -/
def State.baseCleared (s : State) (v : Word) : State := if bit v 0 then s.put F.CHUTE_DEFECT_BASE_REJECTED 0 0 else s

theorem any_ctxOn : (List.range 64).any s.ctxOn = true ↔ ∃ c, c < 64 ∧ s.ctxOn c = true := by
  simp only [List.any_eq_true, List.mem_range]

theorem defectBaseWrite_eq (s : State) (v : Word) : s.defectBaseWrite v allBytes =
    if (List.range 64).any s.ctxOn = true ∨ fenEnd < bits v 16 21 * 0x10000 + 0x1000000 then
      (s.baseCleared v).put F.CHUTE_DEFECT_BASE_REJECTED 0 1
    else (s.baseCleared v).put F.CHUTE_DEFECT_BASE_BASE 0 (bits v 16 21) := by
  have hmask : ¬ allBytes &&& fieldMask 16 21 = 0 := by decide
  have hv : (s.rd .CHUTE_DEFECT_BASE &&& ~~~allBytes) ||| (v &&& allBytes) = v := by
    simp only [allBytes, BitVec.not_allOnes, BitVec.and_zero, BitVec.zero_or, BitVec.and_allOnes]
  unfold State.defectBaseWrite State.baseCleared
  dsimp only
  rw [bit_allBytes _ (by decide), if_neg hmask, hv]

section Base

variable (s) (v : Word)

theorem baseCleared_onlyRegs : OnlyRegs [(.CHUTE_DEFECT_BASE, 0)] s (s.baseCleared v) := by
  unfold State.baseCleared
  split
  · exact put_onlyRegs ..
  · exact .refl _ s

theorem baseCleared_base : (s.baseCleared v).get F.CHUTE_DEFECT_BASE_BASE = s.get F.CHUTE_DEFECT_BASE_BASE := by
  unfold State.baseCleared
  split
  · exact get_put_beside s F.CHUTE_DEFECT_BASE_REJECTED F.CHUTE_DEFECT_BASE_BASE 0 0 rfl (by decide)
  · rfl

end Base

theorem defectBaseWrite_refused {v : Word} (h : s.baseBad (bits v 16 21)) :
    ∃ t, exec (.defectBaseWrite v) s = .next t ∧ OnlyRegs [(.CHUTE_DEFECT_BASE, 0)] s t ∧
      t.isOn F.CHUTE_DEFECT_BASE_REJECTED 0 = true ∧ t.get F.CHUTE_DEFECT_BASE_BASE = s.get F.CHUTE_DEFECT_BASE_BASE := by
  have honly := baseCleared_onlyRegs s v
  have hbase := baseCleared_base s v
  have hwrite := (defectBaseWrite_eq s v).trans (if_pos (h.imp any_ctxOn.mpr id))
  generalize s.baseCleared v = a at honly hbase hwrite
  exact ⟨_, congrArg Host.Outcome.next hwrite, honly.put F.CHUTE_DEFECT_BASE_REJECTED 1 List.mem_cons_self,
    decide_eq_true (get_put_same _ _ _ _ (by decide)),
    (get_put_beside a F.CHUTE_DEFECT_BASE_REJECTED F.CHUTE_DEFECT_BASE_BASE 0 1 rfl (by decide)).trans hbase⟩

theorem defectBaseWrite_taken {v : Word} (h : ¬ s.baseBad (bits v 16 21)) :
    ∃ t, exec (.defectBaseWrite v) s = .next t ∧ OnlyRegs [(.CHUTE_DEFECT_BASE, 0)] s t ∧ t.get F.CHUTE_DEFECT_BASE_BASE = bits v 16 21 := by
  have honly := baseCleared_onlyRegs s v
  have hwrite := (defectBaseWrite_eq s v).trans (if_neg fun hb => h (hb.imp any_ctxOn.mp id))
  generalize s.baseCleared v = a at honly hwrite
  exact ⟨_, congrArg Host.Outcome.next hwrite, honly.put F.CHUTE_DEFECT_BASE_BASE _ List.mem_cons_self,
    (get_put_same _ _ _ _ (by decide)).trans (Nat.mod_eq_of_lt (bits_lt _ _ _))⟩

end Sys2Proof.Machine

/-! SUPPORT. The tack sets' statement (R211, R212, R241 to R247, R250 to R257), clause by clause. -/

namespace Sys2Proof.Machine

/-- Settles O17 (R211, R212, R241 to R247, R250 to R257): locked copies, commits and their checks, enabling and disabling, counters, bays
and the defect base. That a context disabled is disarmed is the model's reading (log 82). -/
theorem tackSetsAreLockedCheckedAndAppliedAsCommitsSay : Obligations.TackSetsAreLockedCheckedAndAppliedAsCommitsSay := by
  refine ⟨fun c b w v be s => ⟨fun h => tackCopyWrite_locked ((copyLocked_eq s c b).mpr h) w v be, fun ha hp hk => tackCopyWrite_free ?_ w v be⟩,
    fun c v s => ⟨fun h => tackCommitGo_refused (.inl h), fun h => tackCommitGo_refused (.inr h), tackCommitGo_taken, tackCommitCancel_none,
      tackCommitCancel_ends⟩,
    fun c s => ⟨tackCheckComplete_none, fun b h => ?_⟩,
    fun c v s => ⟨contextEnable_of_on, fun hoff h1 h8 => ⟨_, contextEnable_of_off h1 h8, ?_⟩, contextEnable_clears, contextDisable_of_off,
      contextDisable_of_on, ?_⟩,
    fun k v s => ?_, fun v s => ?_⟩
  · refine Bool.eq_false_iff.mpr fun h => ?_
    rcases (copyLocked_eq s c b).mp h with h | h | ⟨k, hk', hb⟩
    · exact ha h
    · exact hp h
    · exact hk k hk' hb
  · have hc : c.val < 2 ^ 20 := by omega
    have hended := copyChecked_ended s hc b
    refine ⟨_, tackCheckComplete_eq h, hended.ctxs, hended.regs, hended.rest, hended.go, ?_⟩
    intro u keeps fresh moved
    have hkeeps (hs : CopiesStand c s (s.copyChecked c b)) : keeps := ⟨hs.active, hs.pending, hs.seqDue⟩
    have hfresh : fresh ↔ s.newerCopy c u = true := by
      unfold fresh State.newerCopy
      cases s.active c with
      | none => simp
      | some a => exact newer_iff.symm
    refine ⟨fun hcrc => ?_, fun hcrc hold => ?_, fun o hcrc hnew ho h8 hfail hpass => ?_, fun hcrc hnew hpass => ?_⟩
    · obtain ⟨hstand, hends⟩ := copyChecked_of_crc s hc b (checkCopy_crc hcrc)
      exact ⟨hkeeps hstand, hends⟩
    · have hcheck := checkCopy_stale hcrc (Bool.eq_false_iff.mpr (hold ∘ hfresh.mpr))
      obtain ⟨hstand, hresult, -⟩ := copyChecked_of_failed s hc b hcheck (by simp) (by decide)
      exact ⟨hkeeps hstand, hresult⟩
    · have hcheck := checkCopy_badField hcrc (hfresh.mp hnew) (badOffset_eq_some ho h8 hfail hpass)
      obtain ⟨hstand, hresult⟩ := copyChecked_of_failed s hc b hcheck (by simp) ho
      exact ⟨hkeeps hstand, hresult⟩
    · have hbad := badOffset_eq_none hpass
      refine ⟨fun hon hmove => ?_, fun hon hstay => ?_, fun hoff => ?_⟩
      · have hcheck := checkCopy_rebind hcrc (hfresh.mp hnew) hbad hon (moves_iff.mpr hmove)
        obtain ⟨hstand, hresult, -⟩ := copyChecked_of_failed s hc b hcheck (by simp) (by decide)
        exact ⟨hkeeps hstand, hresult⟩
      · have hmove : s.moves c u = false := Bool.eq_false_iff.mpr (hstay ∘ moves_iff.mp)
        exact copyChecked_of_passed_on s hc b (checkCopy_good hcrc (hfresh.mp hnew) hbad (by rw [hmove, Bool.and_false])) hon
      · exact copyChecked_of_passed_off s hc b (checkCopy_good hcrc (hfresh.mp hnew) hbad (by rw [hoff, Bool.false_and])) hoff
  · refine ⟨fun h => ctxEnable_refused_effect hoff (enableRefused_iff.mpr h), fun h => ?_⟩
    obtain ⟨hon, hepoch, hothers, hrest⟩ := ctxEnable_taken_effect hoff (Bool.eq_false_iff.mpr (h ∘ enableRefused_iff.mp))
    exact ⟨hon, hepoch, hothers, ctxEnable_regsBut s c, hrest⟩
  · obtain ⟨hcount, hcount2, hdest⟩ := ctxCntClear_zero s (c := c) (by omega)
    have honly := ctxCntClear_onlyRegs s c
    refine ⟨_, rfl, hcount, hcount2, hdest, fun h => ?_, fun u h => ⟨ctxCntClear_chute s h, ?_⟩⟩
    · rwa [h] at honly
    · rwa [h] at honly
  · by_cases h : bits v 0 2 = 3 ∨ s.chuteUsed k = true
    · obtain ⟨t, hexec, honly, hends⟩ := chuteBaysWrite_refused h
      exact ⟨t, hexec, honly, fun _ => hends, fun hno => absurd (h.imp id chuteUsed_iff.mp) hno⟩
    · obtain ⟨t, hexec, honly, hends⟩ := chuteBaysWrite_taken h
      exact ⟨t, hexec, honly, fun hno => absurd (hno.imp id chuteUsed_iff.mpr) h, fun _ => hends⟩
  · by_cases h : s.baseBad (bits v 16 21)
    · obtain ⟨t, hexec, honly, hends⟩ := defectBaseWrite_refused h
      exact ⟨t, hexec, honly, fun _ => hends, fun hno => absurd h hno⟩
    · obtain ⟨t, hexec, honly, hends⟩ := defectBaseWrite_taken h
      exact ⟨t, hexec, honly, fun hno => absurd hno h, fun _ => hends⟩

end Sys2Proof.Machine

/-! SUPPORT. Items too long for one push (R376, R379): what a push of one leaves of its queue; and the statement O18, which is refuted. -/

namespace Sys2Proof.Machine

section TooLong

variable {s : State} {k : Nat}

theorem writeSlot_trg (s : State) (k i : Nat) (w : TWord) : (s.writeSlot k i w).trg k = s.trg k := by
  unfold State.trg
  rw [writeSlot_troughs]

/-- Recording drops makes a queue longer by one marker at most. -/
theorem markDrops_vis (s : State) (k n tick : Nat) : ((s.markDrops k n tick).trg k).vis ≤ (s.trg k).vis + 1 := by
  unfold State.markDrops
  extract_lets x last w m s1
  split
  · exact Nat.le_succ _
  · split
    · rw [writeSlot_trg]
      exact Nat.le_succ _
    · exact (congrArg Trough.vis (trg_setTrg_same s1 k _)).le

theorem dropItem_vis (s : State) (k : Nat) : ((s.dropItem k).trg k).vis ≤ (s.trg k).vis + 1 := markDrops_vis _ k 1 _

/-- No item of more than 4,096 words joins a queue, whatever room there is (R376). -/
theorem pushItem_tooLong {m : Nat} {ws : List Word} (hk : k < 2 ^ 20) (h : s.hasRoom k m) (hlen : 4096 < ws.length) :
    ((s.pushItem k ws).trg k).vis ≤ (s.trg k).vis + 1 := by
  obtain ⟨hon, hawake, hopen, -⟩ := h
  have hpush : s.pushItem k ws = (s.dropItem k).trgThresh k (s.trg k).vis := by
    unfold State.pushItem State.pushBurst
    extract_lets before x
    rw [if_neg (by simp [hon]), if_neg (by simp [hawake]), if_neg (by simp [show x.openBy = none from hopen]),
      if_neg (by rw [itemWords_length]; omega)]
  rw [hpush, ((QueueKept.refl k (s.dropItem k)).trgThresh _ hk hk).queue]
  exact dropItem_vis s k

end TooLong

theorem windowResultPush_pushes {c : Fin 64} {s : State} {k : Nat} {p : List Word} {rest : List (Nat × List Word)}
    (h : (s.ctx c).results = (k, p) :: rest) :
    exec (.windowResultPush c) s = .next ((s.modCtx c fun x => { x with results := rest }).pushItem k p) := by
  change execWindowResultPush c s = _
  unfold execWindowResultPush
  rw [h]

/-- READY with trough 400 enabled, empty and 8,192 words long. -/
def State.longTrough : State :=
  { (State.reset.put F.TRG_CFG_ENABLE 400 1).put F.TRG_CFG_SIZE_LOG2 400 13 with ctl := ⟨.ready, .quiet, none, []⟩ }

/-- A result packet of 4,097 words. -/
def longResult : List Word := List.replicate 4097 0

theorem longResult_length : longResult.length = 4097 := List.length_replicate

/-- The same state with the packet due from context 0. -/
def State.longDue : State := State.longTrough.modCtx 0 fun x => { x with results := [(400, longResult)] }

theorem trg_modCtx (s : State) (c : Nat) (f : Ctx → Ctx) (k : Nat) : (s.modCtx c f).trg k = s.trg k := rfl

theorem hasRoom_modCtx {s : State} {k m : Nat} (h : s.hasRoom k m) (c : Nat) (f : Ctx → Ctx) : (s.modCtx c f).hasRoom k m := h

theorem longDue_hasRoom : State.longDue.hasRoom 400 longResult.length := by
  rw [longResult_length]
  refine hasRoom_modCtx (s := State.longTrough) ?_ 0 _
  exact ⟨by decide, by decide, by decide, by decide⟩

/-- Refutes O18: where a trough has room for a result packet, WINDOW_RESULT_PUSH is said to queue it whole, but a packet of more than 4,096
words is dropped whatever the room (R376). The model forms packets of at most 1,026 words (R280); the statement does not say so. -/
theorem not_baysTakeTheirSegmentsRowByRowBehindTheirMaps : ¬ Obligations.BaysTakeTheirSegmentsRowByRowBehindTheirMaps := by
  unfold Obligations.BaysTakeTheirSegmentsRowByRowBehindTheirMaps
  intro h
  obtain ⟨-, -, hpush⟩ := h
  obtain ⟨-, hresult, -⟩ := hpush 0 State.longDue
  have hdue : (State.longDue.ctx (0 : Fin 64)).results = [(400, longResult)] := congrArg Ctx.results (ctx_modCtx_same ..)
  have hne : longResult ≠ [] := List.ne_nil_of_length_pos (by rw [longResult_length]; decide)
  obtain ⟨t, ht, -, hvis, -⟩ := hresult 400 longResult [] hdue hne (by decide) (by decide) longDue_hasRoom
  rw [windowResultPush_pushes hdue] at ht
  obtain rfl := Host.Outcome.next.inj ht
  have hroom := hasRoom_modCtx longDue_hasRoom (0 : Fin 64) fun x => { x with results := [] }
  have hlong : 4096 < longResult.length := by rw [longResult_length]; decide
  have hshort := pushItem_tooLong (by decide) hroom hlong
  rw [hvis, longResult_length, trg_modCtx] at hshort
  omega

end Sys2Proof.Machine

/-! SUPPORT. The crib's load at GO (R235): the words of its image are read as an engine reads them (R354, R355), so an uncorrectable one
raises alarm FEN_UE; and the statement O19, which is refuted. -/

namespace Sys2Proof.Machine

/-! ### A hold-causing alarm asks for HOLD (R48, R728) -/

/-- The mode controller holds a request. -/
def State.asked (s : State) : Prop := s.ctl.pend ≠ []

section Asked

variable {s : State}

theorem placeRequest_asked (s : State) (r : ModeReq) : (s.placeRequest r).asked := by
  unfold State.placeRequest
  extract_lets hold
  split
  · next h =>
    intro hnil
    rw [show s.ctl.pend = [] from hnil] at h
    simp at h
  · exact List.append_ne_nil_of_right_ne_nil _ (List.cons_ne_nil _ _)

theorem alarm_keeps_asked (h : s.asked) (code : Nat) (data : Word) : (s.alarm code data).asked := by
  unfold State.alarm
  extract_lets hold seq s1 s2 m s3
  split
  · exact placeRequest_asked _ _
  · exact h

theorem alarm_asks {code : Nat} (h : bit (s.rd .ALARM_CFG code) 0 = true) (data : Word) : (s.alarm code data).asked := by
  unfold State.alarm
  extract_lets hold seq s1 s2 m s3
  rw [if_pos h]
  exact placeRequest_asked _ _

theorem fenUe_keeps_asked (h : s.asked) (a : Nat) : (s.fenUe a).asked := by
  unfold State.fenUe
  extract_lets s1 s2
  refine alarm_keeps_asked ?_ _ _
  unfold s2
  split <;> exact h

theorem fenUe_asks (h : bit (s.rd .ALARM_CFG 0x18) 0 = true) (a : Nat) : (s.fenUe a).asked := by
  unfold State.fenUe
  extract_lets s1 s2
  have h1 : s1.rd .ALARM_CFG 0x18 = s.rd .ALARM_CFG 0x18 := rd_wr_reg _ _ (by decide) (by decide) (by decide)
  refine alarm_asks ?_ _
  unfold s2
  split
  · rwa [h1]
  · rwa [rd_put_key _ _ _ _ _ _ (by decide), rd_put_key _ _ _ _ _ _ (by decide), h1]

theorem engineRead_keeps_asked (h : s.asked) (a : Nat) : (s.engineRead a).2.2.asked := by
  unfold State.engineRead
  split
  · exact h
  · split
    · exact h
    · exact h
    · exact fenUe_keeps_asked h a

theorem engineRead_asks {a : Nat} (hu : s.fenUsable a = true) (hc : s.fenCheck a = 2) (h : bit (s.rd .ALARM_CFG 0x18) 0 = true) :
    (s.engineRead a).2.2.asked := by
  unfold State.engineRead
  rw [if_neg (by simp [hu]), hc]
  exact fenUe_asks h a

theorem engineReadWords_keeps_asked (h : s.asked) (n a : Nat) : (State.engineReadWords n a s).2.2.asked := by
  induction n generalizing s a with
  | zero => exact h
  | succ n ih => exact ih (engineRead_keeps_asked h a) (a + 8)

/-- The first word of an image is uncorrectable, and FEN_UE is hold-causing. -/
theorem engineReadWords_asks {a : Nat} (hu : s.fenUsable a = true) (hc : s.fenCheck a = 2) (h : bit (s.rd .ALARM_CFG 0x18) 0 = true)
    {n : Nat} (hn : n ≠ 0) : (State.engineReadWords n a s).2.2.asked := by
  obtain ⟨m, rfl⟩ := Nat.exists_eq_succ_of_ne_zero hn
  exact engineReadWords_keeps_asked (engineRead_asks hu hc h) m (a + 8)

end Asked

/-! ### A load of the crib that starts (R235) -/

/-- A load that no check refuses leaves the mode controller as the reading of its image does. -/
theorem cribGo_ctl {s : State} (hfree : s.cribLoad = none) (hkind : s.get F.CRIB_LOAD_KIND = 1)
    (hpin : s.cribPinned (s.get F.CRIB_LOAD_SLOT) = false) (hfit : s.get F.CRIB_LOAD_ADDR_ADDR * 64 + 262144 ≤ fenEnd)
    {r : List Word × Bool × State} (hr : State.engineReadWords 32768 (s.get F.CRIB_LOAD_ADDR_ADDR * 64) s = r) :
    s.cribGo.ctl = r.2.2.ctl := by
  unfold State.cribGo
  dsimp only
  rw [if_neg (by simp [hfree]), if_neg (by simp [hkind]), if_neg (by simp [hpin]), if_neg (by omega), hr]
  rfl

/-- READY with FEN_UE made hold-causing, and an image for the crib at 0x40000 whose first word is uncorrectable. -/
def State.badImage : State :=
  { (State.reset.put F.ALARM_CFG_HOLD 0x18 1).put F.CRIB_LOAD_ADDR_ADDR 0 0x1000 with
    ctl := ⟨.ready, .quiet, none, []⟩, fenChk := [(0x8000, 2)] }

/-- The state with a GO of CRIB_LOAD for slot 0 and kind LIN written. -/
def State.badImageGo : State :=
  State.badImage.wr .CRIB_LOAD 0 (writeFields .CRIB_LOAD (State.badImage.rd .CRIB_LOAD) ((0x100 ||| 0x10000) &&& ~~~0x10000) allBytes)

theorem badImageGo_asks : State.badImageGo.cribGo.asked := by
  have hread := engineReadWords_asks (s := State.badImageGo) (a := State.badImageGo.get F.CRIB_LOAD_ADDR_ADDR * 64) (n := 32768)
    (by decide) (by decide) (by decide) (by decide)
  generalize hr : State.engineReadWords 32768 (State.badImageGo.get F.CRIB_LOAD_ADDR_ADDR * 64) State.badImageGo = r at hread
  have hctl := cribGo_ctl (by decide) (by decide) (by decide) (by decide) hr
  unfold State.asked
  rwa [hctl]

/-- Refutes O19: a CRIB_LOAD that starts is said to leave the mode controller alone, but where FEN_UE is hold-causing (R728) and a word of
the image is uncorrectable, reading the image asks for HOLD (R235, R355). -/
theorem not_cribAndPaddockLoadsEndWholeOrEmpty : ¬ Obligations.CribAndPaddockLoadsEndWholeOrEmpty := by
  unfold Obligations.CribAndPaddockLoadsEndWholeOrEmpty
  intro h
  obtain ⟨hcrib, -⟩ := h
  obtain ⟨-, hfree⟩ := hcrib 0x100 State.badImage
  obtain ⟨t, ht, -, -, -, -, -, -, -, hctl, -⟩ := hfree rfl
  have hexec : exec (.cribLoadGo 0x100) State.badImage = .next State.badImageGo.cribGo := by
    change Host.Outcome.next (State.badImage.cribLoadWrite (0x100 ||| 0x10000) allBytes) = _
    unfold State.cribLoadWrite
    rw [if_pos (by decide)]
    rfl
  rw [hexec] at ht
  obtain rfl := Host.Outcome.next.inj ht
  exact badImageGo_asks (congrArg ModeCtl.pend hctl)

end Sys2Proof.Machine

/-! SUPPORT. Converters and virtual stalls (chapter 7): their records after a change of one, and which fields a write of another field or
another register leaves as they read before. -/

namespace Sys2Proof.Machine

/-! ### Fields of registers of one number -/

section Fields

variable (s : State) {f g : Fld} {r : Reg} (i : Nat)

/-- Two registers of one number have two keys, whatever the number. -/
theorem regKey_ne_of_reg {r q : Reg} (h : q ≠ r) (i : Nat) : regKey q i ≠ regKey r i := by
  intro e
  refine h ?_
  rw [← Reg.ofNat_ctorIdx q, ← Reg.ofNat_ctorIdx r]
  exact congrArg Reg.ofNat (by unfold regKey at e; omega)

theorem rd_wr_off (v : Word) (h : g.r ≠ r) : (s.wr r i v).rd g.r i = s.rd g.r i := rd_wr_key _ _ _ _ _ _ (regKey_ne_of_reg h i)

theorem get_wr_off (v : Word) (h : g.r ≠ r) : (s.wr r i v).get g i = s.get g i := get_congr (rd_wr_off s i v h)

/-- A field that shares no bit with the one written. -/
theorem get_put_apart (n : Nat) (h : g.r ≠ f.r ∨ g.lo + g.w ≤ f.lo ∨ f.lo + f.w ≤ g.lo) : (s.put f i n).get g i = s.get g i := by
  by_cases hr : g.r = f.r
  · exact get_put_beside s f g i n hr (h.resolve_left (not_not.mpr hr))
  · exact get_wr_off s i _ hr

theorem get_inc_apart (h : g.r ≠ f.r ∨ g.lo + g.w ≤ f.lo ∨ f.lo + f.w ≤ g.lo) : (s.inc f i).get g i = s.get g i := get_put_apart s i _ h

theorem get_addSat_apart (n : Nat) (h : g.r ≠ f.r ∨ g.lo + g.w ≤ f.lo ∨ f.lo + f.w ≤ g.lo) : (s.addSat f i n).get g i = s.get g i :=
  get_put_apart s i _ h

theorem get_incWrap_apart (h : g.r ≠ f.r ∨ g.lo + g.w ≤ f.lo ∨ f.lo + f.w ≤ g.lo) : (s.incWrap f i).get g i = s.get g i :=
  get_put_apart s i _ h

theorem get_incWrap_same (h : f.lo + f.w ≤ 64) : (s.incWrap f i).get f i = (s.get f i + 1) % 2 ^ f.w := get_put_same s f i _ h

end Fields

theorem RegsBut.modAdc {l : List (Reg × Nat)} {s t : State} (n : Nat) (f : Adc → Adc) (h : RegsBut l s t) : RegsBut l s (t.modAdc n f) := h

theorem get_raiseYard (s : State) (p u : Nat) {f : Fld} {i : Nat} (hf : f.r ≠ .YARD_GLOBAL) (hi : i < 2 ^ 20) :
    (s.raiseYard p u).get f i = s.get f i :=
  (raiseYard_regsBut s p u).get_eq f hi (by simp [hf])

/-! ### The record of a converter and of a virtual stall -/

section Records

variable (s : State)

@[simp] theorem adc_modAdc_same (n : Nat) (f : Adc → Adc) : (s.modAdc n f).adc n = f (s.adc n) := Tab.get_set_same ..

theorem adc_modAdc_other {n k : Nat} (f : Adc → Adc) (h : k ≠ n) : (s.modAdc n f).adc k = s.adc k := Tab.get_set_other _ _ _ _ h

@[simp] theorem adc_put (f : Fld) (i v n : Nat) : (s.put f i v).adc n = s.adc n := rfl

@[simp] theorem vst_modVst_same (v : Nat) (f : Vst → Vst) : (s.modVst v f).vst v = f (s.vst v) := Tab.get_set_same ..

@[simp] theorem get_modAdc (n : Nat) (f : Adc → Adc) (g : Fld) (i : Nat) : (s.modAdc n f).get g i = s.get g i := rfl

@[simp] theorem get_modVst (v : Nat) (f : Vst → Vst) (g : Fld) (i : Nat) : (s.modVst v f).get g i = s.get g i := rfl

@[simp] theorem get_reach (t : Nat) (g : Fld) (i : Nat) : (s.reach t).get g i = s.get g i := rfl

end Records

theorem adc_congr {s t : State} (h : t.adcs = s.adcs) (n : Nat) : t.adc n = s.adc n := congrArg (Tab.get Adc.zero · n) h

theorem vst_congr {s t : State} (h : t.vsts = s.vsts) (v : Nat) : t.vst v = s.vst v := congrArg (Tab.get Vst.zero · v) h

theorem isOn_iff {s : State} {f : Fld} {i : Nat} : s.isOn f i = true ↔ s.get f i = 1 := decide_eq_true_iff

theorem isOn_eq_false_iff {s : State} {f : Fld} {i : Nat} : s.isOn f i = false ↔ s.get f i ≠ 1 := decide_eq_false_iff_not

/-- A converter put into a state, whatever becomes of its record. -/
theorem adcSt_adcTo (s : State) (n : Nat) {st : Nat} (h : st < 8) : (s.adcTo n st).adcSt n = st :=
  (get_put_same s F.ADC_STATUS_STATE n st (by decide)).trans (Nat.mod_eq_of_lt h)

theorem adcTo_get (s : State) (n st : Nat) (f : Fld) (h : f.r ≠ .ADC_STATUS ∨ 3 ≤ f.lo) : (s.adcTo n st).get f n = s.get f n :=
  get_put_apart s n st (h.imp_right .inr)

@[simp] theorem adcSt_modAdc (s : State) (n : Nat) (f : Adc → Adc) (k : Nat) : (s.modAdc n f).adcSt k = s.adcSt k := rfl

/-! ### The lattice (R310, R312) -/

theorem firstSample_ge (low : Bool) (t : Nat) : t + 1600 ≤ firstSample low t := by
  unfold firstSample
  cases low <;> simp <;> omega

theorem firstSample_high (t : Nat) : firstSample false t % 5 = 0 ∧ firstSample false t < t + 1605 := by
  simp only [firstSample, Bool.false_eq_true, if_false]
  omega

theorem firstSample_low (t : Nat) : firstSample true t % 40 = 0 ∧ firstSample true t < t + 1640 := by
  simp only [firstSample, if_true]
  omega

/-! ### What a converter is judged by -/

/-- From `s` to `t` converter `k` stands as it was: its record, its registers, the mode, and who is a member of which virtual stall. -/
structure ConverterKept (k : Nat) (s t : State) : Prop where
  adc : t.adc k = s.adc k
  rd : ∀ r, r ≠ .YARD_GLOBAL → t.rd r k = s.rd r k
  cfg : ∀ v, v < 4 → t.rd .VST_CFG v = s.rd .VST_CFG v
  ctl : t.ctl = s.ctl

namespace ConverterKept

variable {k : Nat} {s t u : State}

theorem refl (k : Nat) (s : State) : ConverterKept k s s := ⟨rfl, fun _ _ => rfl, fun _ _ => rfl, rfl⟩

theorem trans (h : ConverterKept k s t) (g : ConverterKept k t u) : ConverterKept k s u :=
  ⟨g.adc.trans h.adc, fun r hr => (g.rd r hr).trans (h.rd r hr), fun v hv => (g.cfg v hv).trans (h.cfg v hv), g.ctl.trans h.ctl⟩

theorem get (h : ConverterKept k s t) (f : Fld) (hf : f.r ≠ .YARD_GLOBAL) : t.get f k = s.get f k := get_congr (h.rd _ hf)

theorem adcSt (h : ConverterKept k s t) : t.adcSt k = s.adcSt k := h.get _ (by decide)

theorem inHold (h : ConverterKept k s t) : t.inHold = s.inHold := by
  unfold State.inHold State.modeAhead
  rw [h.ctl]

theorem badBuffer (h : ConverterKept k s t) : t.badBuffer k = s.badBuffer k := by
  unfold State.badBuffer
  rw [h.get F.ADC_BUF_SIZE_LOG2 (by decide), h.get F.ADC_CFG_DEST (by decide)]

end ConverterKept

/-- Membership is a matter of VST_CFG alone (R329). -/
theorem vstOf_congr {s t : State} (h : ∀ v, v < 4 → t.rd .VST_CFG v = s.rd .VST_CFG v) (n : Nat) : t.vstOf n = s.vstOf n := by
  unfold State.vstOf
  refine List.find?_congr fun v hv => ?_
  have hcfg := h v (List.mem_range.mp hv)
  unfold State.vstOn State.vstMembers
  rw [isOn_congr (get_congr (f := F.VST_CFG_ENABLE) hcfg), hcfg]

theorem inHold_congr {s t : State} (h : t.ctl = s.ctl) : t.inHold = s.inHold := by
  unfold State.inHold State.modeAhead
  rw [h]

/-- A fold over converters whose step for one leaves every other as it was: what it does to converter `k` is its step for `k`. -/
theorem foldl_converters {P : State → Prop} {f : State → Nat → State} (hf : ∀ a m, P a → m < 8 → P (f a m) ∧ ∀ k, k < 8 → k ≠ m → ConverterKept k a (f a m))
    {k : Nat} (hk : k < 8) (l : List Nat) (hl : l.Nodup) (h8 : ∀ m ∈ l, m < 8) {s : State} (hs : P s) :
    (k ∉ l → ConverterKept k s (l.foldl f s)) ∧
    (k ∈ l → ∃ u, P u ∧ ConverterKept k s u ∧ ConverterKept k (f u k) (l.foldl f s)) := by
  induction l generalizing s with
  | nil => exact ⟨fun _ => ConverterKept.refl k s, fun h => absurd h List.not_mem_nil⟩
  | cons m l ih =>
    obtain ⟨hm, hl⟩ := List.nodup_cons.mp hl
    obtain ⟨hP, hother⟩ := hf s m hs (h8 m List.mem_cons_self)
    obtain ⟨hout, hin⟩ := ih hl (fun j hj => h8 j (List.mem_cons_of_mem _ hj)) hP
    refine ⟨fun hk' => ?_, fun hk' => ?_⟩
    · rw [List.mem_cons, not_or] at hk'
      exact (hother k hk hk'.1).trans (hout hk'.2)
    · by_cases hkm : k = m
      · subst hkm
        exact ⟨s, hs, ConverterKept.refl k s, hout hm⟩
      · obtain ⟨u, hu, hsu, hend⟩ := hin ((List.mem_cons.mp hk').resolve_left hkm)
        exact ⟨u, hu, (hother k hk hkm).trans hsu, hend⟩

/-! ### A run begins (R312, R313, R316) -/

section RunStart

variable (s : State) (n tick : Nat) (v : Option Nat)

theorem runStart_frame : { s.runStart n tick v with regs := s.regs, adcs := s.adcs } = s := rfl

theorem runStart_adc_other {k : Nat} (h : k ≠ n) : (s.runStart n tick v).adc k = s.adc k := adc_modAdc_other _ _ h

theorem runStart_regsBut : RegsBut [(.ADC_STATUS, n), (.ADC_RUN_INFO, n), (.ADC_COUNT, n)] s (s.runStart n tick v) :=
  .modAdc n _ (.put (.wr (.put (.put (.refl _ s) F.ADC_STATUS_STATE asRunning (by simp)) F.ADC_STATUS_RUN_INPUT _ (by simp)) _ (by simp))
    F.ADC_COUNT_RUNS _ (by simp))

theorem runStart_start : ((s.runStart n tick v).adc n).start = tick := congrArg Adc.start (adc_modAdc_same ..)

theorem runStart_t0 : ((s.runStart n tick v).adc n).t0 = firstSample (s.adcLow n) tick := congrArg Adc.t0 (adc_modAdc_same ..)

theorem runStart_offset : ((s.runStart n tick v).adc n).offset = signed 16 (s.get F.ADC_COEF_OFFSET (7 * n + s.get F.ADC_CFG_INPUT n)) :=
  congrArg Adc.offset (adc_modAdc_same ..)

theorem runStart_gain : ((s.runStart n tick v).adc n).gain = s.get F.ADC_COEF_GAIN (7 * n + s.get F.ADC_CFG_INPUT n) :=
  congrArg Adc.gain (adc_modAdc_same ..)

theorem runStart_taken : ((s.runStart n tick v).adc n).taken = 0 := congrArg Adc.taken (adc_modAdc_same ..)

theorem runStart_adcSt : (s.runStart n tick v).adcSt n = 2 := by
  unfold State.runStart State.adcSt State.adcTo
  simp (disch := decide) only [get_modAdc, get_incWrap_apart, get_wr_off, get_put_apart, get_put_same]
  rfl

theorem runStart_input : (s.runStart n tick v).get F.ADC_STATUS_RUN_INPUT n = s.get F.ADC_CFG_INPUT n := by
  unfold State.runStart State.adcTo
  simp (disch := decide) only [get_modAdc, get_incWrap_apart, get_wr_off, get_put_same]
  exact Nat.mod_eq_of_lt (get_lt s F.ADC_CFG_INPUT n)

theorem runStart_runs : (s.runStart n tick v).get F.ADC_COUNT_RUNS n = (s.get F.ADC_COUNT_RUNS n + 1) % 65536 := by
  unfold State.runStart State.adcTo
  simp (disch := decide) only [get_modAdc, get_incWrap_same, get_wr_off, get_put_apart]
  rfl

theorem runStart_drops : (s.runStart n tick v).get F.ADC_COUNT_URGENT_DROP n = s.get F.ADC_COUNT_URGENT_DROP n := by
  unfold State.runStart State.adcTo
  simp (disch := decide) only [get_modAdc, get_incWrap_apart, get_wr_off, get_put_apart]

theorem runStart_info : ((s.runStart n tick v).rd .ADC_RUN_INFO n).toNat = ((s.runStart n tick v).adc n).t0 % 2 ^ 64 := by
  have hkey : regKey .ADC_RUN_INFO n ≠ regKey .ADC_COUNT n := regKey_ne_of_reg (by decide) n
  have hrd : (s.runStart n tick v).rd .ADC_RUN_INFO n = BitVec.ofNat 64 (firstSample (s.adcLow n) tick) :=
    (rd_wr_key _ _ _ _ _ _ hkey).trans (rd_wr_same ..)
  rw [hrd, runStart_t0, BitVec.toNat_ofNat]

end RunStart

/-! ### An urgent request dropped (R319) -/

section UrgentDrop

variable {s : State} {n : Nat} (hn : n < 8)
include hn

theorem urgentDrop_count : (s.urgentDrop n).get F.ADC_COUNT_URGENT_DROP n = min (s.get F.ADC_COUNT_URGENT_DROP n + 1) 65535 :=
  (get_raiseYard _ _ _ (by decide) (by omega)).trans (get_inc_same _ _ _ (by decide))

theorem urgentDrop_get (f : Fld) (hf : f.r ≠ .YARD_GLOBAL) (ha : f.r ≠ .ADC_COUNT) : (s.urgentDrop n).get f n = s.get f n :=
  (get_raiseYard _ _ _ hf (by omega)).trans (get_inc_apart _ _ (.inl ha))

theorem urgentDrop_raised : ∃ e ∈ (s.urgentDrop n).yard.raised, e.id = 401 + 2 * n :=
  raiseYard_mem _ _ (decide_eq_true (by omega))

end UrgentDrop

theorem urgentDrop_regsBut (s : State) (n : Nat) : RegsBut [(.ADC_COUNT, n), (.YARD_GLOBAL, 0)] s (s.urgentDrop n) :=
  ((RegsBut.refl _ s).inc F.ADC_COUNT_URGENT_DROP (by simp)).trans ((raiseYard_regsBut _ _ _).mono (by simp))

theorem urgentDrop_frame (s : State) (n : Nat) : { s.urgentDrop n with regs := s.regs, yard := s.yard } = s :=
  congrArg (fun t : State => { t with regs := s.regs }) (raiseYard_frame (s.inc F.ADC_COUNT_URGENT_DROP n) (401 + 2 * n) s.now)

/-! ### A start meets one converter (Table 7.2) -/

section StartOne

variable {s : State} {n : Nat} (tick : Nat) (v : Option Nat)

theorem startOne_off (h : s.adcSt n = 0) : s.startOne n tick v = (false, s) := if_pos h

theorem startOne_ignored (h : s.adcSt n = 4 ∨ s.adcSt n = 5 ∨ 0 < s.adcSt n ∧ s.inHold = true) :
    s.startOne n tick v = (false, s.startIgnored n) := by
  unfold State.startOne asOff asRunning asIdle asUrgent
  dsimp only
  rw [if_neg (by omega)]
  by_cases hh : s.inHold = true
  · rw [if_pos hh]
  · have hbusy : s.adcSt n = 4 ∨ s.adcSt n = 5 := h.imp_right fun h => h.resolve_right fun h => hh h.2
    rw [if_neg hh, if_neg (by omega), if_pos (by omega)]

theorem startOne_running (h : s.adcSt n = 2) (hh : s.inHold = false) (ha : (s.adc n).arrived / 10 ≠ s.now / 10) :
    s.startOne n tick v = (false, s.startIgnored n) := by
  unfold State.startOne asOff asRunning asIdle asUrgent
  dsimp only
  rw [if_neg (by omega), if_neg (by simp [hh]), if_neg fun hm => ha hm.2.2, if_pos (by omega)]

/-- A start that a converter in IDLE or URGENT can take. -/
theorem startOne_ready (h : s.adcSt n = 1 ∨ s.adcSt n = 3) (hh : s.inHold = false) : s.startOne n tick v =
    if s.badBuffer n then (false, (s.startIgnored n).put F.ADC_STATUS_CFG_REJECTED n 1)
    else (true, (if s.adcSt n = 3 then s.urgentDrop n else s).runStart n tick v) := by
  unfold State.startOne asOff asRunning asIdle asUrgent
  dsimp only
  rw [if_neg (by omega), if_neg (by simp [hh]), if_neg (by omega), if_neg (by omega)]

theorem startOne_idle (h : s.adcSt n = 1) (hh : s.inHold = false) (hb : s.badBuffer n = false) :
    s.startOne n tick v = (true, s.runStart n tick v) := by
  rw [startOne_ready tick v (.inl h) hh, if_neg (by simp [hb]), if_neg (by omega)]

theorem startOne_urgent (h : s.adcSt n = 3) (hh : s.inHold = false) (hb : s.badBuffer n = false) :
    s.startOne n tick v = (true, (s.urgentDrop n).runStart n tick v) := by
  rw [startOne_ready tick v (.inr h) hh, if_neg (by simp [hb]), if_pos h]

theorem startOne_badBuffer (h : s.adcSt n = 1) (hh : s.inHold = false) (hb : s.badBuffer n = true) :
    s.startOne n tick v = (false, (s.startIgnored n).put F.ADC_STATUS_CFG_REJECTED n 1) := by
  rw [startOne_ready tick v (.inl h) hh, if_pos hb]

end StartOne

/-- The registers that a start may write. -/
def startRegs (n : Nat) : List (Reg × Nat) := [(.ADC_STATUS, n), (.ADC_RUN_INFO, n), (.ADC_COUNT, n), (.YARD_GLOBAL, 0)]

/-- `t` differs from `s` by a start at converter `n` at most. -/
structure StartOnly (n : Nat) (s t : State) : Prop where
  regs : RegsBut (startRegs n) s t
  adc : ∀ k, k ≠ n → t.adc k = s.adc k
  ctl : t.ctl = s.ctl

theorem StartOnly.refl (n : Nat) (s : State) : StartOnly n s s := ⟨RegsBut.refl _ _, fun _ _ => rfl, rfl⟩

theorem StartOnly.trans {n : Nat} {s t u : State} (h : StartOnly n s t) (g : StartOnly n t u) : StartOnly n s u :=
  ⟨h.regs.trans g.regs, fun k hk => (g.adc k hk).trans (h.adc k hk), g.ctl.trans h.ctl⟩

theorem StartOnly.cfg {n : Nat} {s t : State} (hn : n < 8) (h : StartOnly n s t) {v : Nat} (hv : v < 4) : t.rd .VST_CFG v = s.rd .VST_CFG v :=
  h.regs.rd_eq (by omega) (by simp [startRegs]; omega)

theorem StartOnly.other {n k : Nat} {s t : State} (hn : n < 8) (h : StartOnly n s t) (hk : k < 8) (hne : k ≠ n) : ConverterKept k s t where
  adc := h.adc k hne
  rd r hr := by
    refine h.regs r k fun p hp e => ?_
    have hp2 : p.2 < 2 ^ 20 := by
      simp only [startRegs, List.mem_cons, List.not_mem_nil, or_false] at hp
      rcases hp with rfl | rfl | rfl | rfl <;> dsimp only <;> omega
    obtain ⟨hreg, hidx⟩ := regKey_inj (by omega) hp2 e
    simp only [startRegs, List.mem_cons, List.not_mem_nil, or_false] at hp
    rcases hp with rfl | rfl | rfl | rfl
    · exact hne hidx
    · exact hne hidx
    · exact hne hidx
    · exact hr hreg
  cfg _ hv := h.cfg hn hv
  ctl := h.ctl

theorem StartOnly.wr {n : Nat} {s t : State} (h : StartOnly n s t) {r : Reg} {i : Nat} (v : Word) (hm : (r, i) ∈ startRegs n) :
    StartOnly n s (t.wr r i v) := ⟨h.regs.wr v hm, h.adc, h.ctl⟩

theorem StartOnly.modAdc {n : Nat} {s t : State} (h : StartOnly n s t) (f : Adc → Adc) : StartOnly n s (t.modAdc n f) :=
  ⟨h.regs, fun k hk => (adc_modAdc_other t f hk).trans (h.adc k hk), h.ctl⟩

theorem runStart_startOnly (s : State) (n tick : Nat) (v : Option Nat) : StartOnly n s (s.runStart n tick v) :=
  ⟨(runStart_regsBut s n tick v).mono (by simp [startRegs]), fun _ => runStart_adc_other s n tick v, rfl⟩

theorem startIgnored_startOnly (s : State) (n : Nat) : StartOnly n s (s.startIgnored n) :=
  (StartOnly.refl n s).wr _ (by simp [startRegs])

theorem urgentDrop_startOnly (s : State) (n : Nat) : StartOnly n s (s.urgentDrop n) :=
  ⟨(urgentDrop_regsBut s n).mono (by simp [startRegs]), fun k _ => adc_congr (congrArg State.adcs (urgentDrop_frame s n) :) k,
    (congrArg State.ctl (urgentDrop_frame s n) :)⟩

/-- All that a start can do to one converter. -/
theorem startOne_startOnly (s : State) (n tick : Nat) (v : Option Nat) : StartOnly n s (s.startOne n tick v).2 := by
  unfold State.startOne
  dsimp only
  split
  · exact .refl n s
  split
  · exact startIgnored_startOnly s n
  split
  · split
    · exact ((StartOnly.refl n s).modAdc _).wr _ (by simp [startRegs])
    · exact .refl n s
  split
  · exact startIgnored_startOnly s n
  split
  · exact (startIgnored_startOnly s n).wr _ (by simp [startRegs])
  · split
    · exact (urgentDrop_startOnly s n).trans (runStart_startOnly ..)
    · exact runStart_startOnly ..

/-! ### Converters outside every virtual stall -/

section Alone

variable {s : State} {n : Nat} (tick : Nat)

theorem adcStart_alone (h : s.vstOf n = none) : s.adcStart n tick = (s.startOne n tick none).2 := by
  unfold State.adcStart
  rw [h]

theorem adcStop_alone (h : s.vstOf n = none) : s.adcStop n tick = s.stopOne n tick := by
  unfold State.adcStop
  rw [h]

theorem stopOne_still (h : s.adcSt n ≠ 2) : s.stopOne n tick = s := if_neg h

/-- A stop of a running converter: its samples end 1,600 ticks on, or where an earlier stop ends them (R317). -/
theorem stopOne_running (h : s.adcSt n = 2) : (s.stopOne n tick).adc n =
    { s.adc n with stopAt := some (min ((s.adc n).stopAt.getD (tick + 1600)) (tick + 1600)) } := by
  unfold State.stopOne
  rw [if_pos (show s.adcSt n = asRunning from h), adc_modAdc_same]
  cases (s.adc n).stopAt <;> simp

end Alone

theorem stopOne_frame (s : State) (n tick : Nat) : { s.stopOne n tick with adcs := s.adcs } = s := by
  unfold State.stopOne
  split <;> rfl

theorem stopOne_adc_other (s : State) {n k : Nat} (tick : Nat) (h : k ≠ n) : (s.stopOne n tick).adc k = s.adc k := by
  unfold State.stopOne
  split
  · exact adc_modAdc_other _ _ h
  · rfl

theorem stopOne_startOnly (s : State) (n tick : Nat) : StartOnly n s (s.stopOne n tick) :=
  ⟨RegsBut.of_regs (congrArg State.regs (stopOne_frame s n tick) :) _, fun _ => stopOne_adc_other s tick,
    (congrArg State.ctl (stopOne_frame s n tick) :)⟩

end Sys2Proof.Machine

/-! SUPPORT. Starts and stops of converters outside every virtual stall (R312, R313, R316, R317, R319, R322, R337): ADC_CTRL, the yard's start,
and ADC_GLOBAL_START. -/

namespace Sys2Proof.Machine

/-- An event taken from a consumer changes the yard alone. -/
theorem takeEvent_frame {s u : State} {q tick : Nat} (h : s.takeEvent q = some (tick, u)) : { s with yard := u.yard } = u := by
  unfold State.takeEvent at h
  split at h
  · cases h
  · cases h
    rfl

/-! ### ADC_CTRL (R337) -/

section Ctrl

variable {n : Fin 8} {s : State} (hv : s.vstOf n = none)
include hv

theorem adcCtrlStart_alone {began : Bool} {t : State} (h : s.startOne n s.now none = (began, t)) : exec (.adcCtrlStart n) s = .next t :=
  congrArg Host.Outcome.next
    ((rfl : s.adcCtrlWrite n 1 = s.adcStart n s.now).trans ((adcStart_alone _ hv).trans (congrArg (·.2) h)))

theorem adcCtrlStop_alone : exec (.adcCtrlStop n) s = .next (s.stopOne n s.now) :=
  congrArg Host.Outcome.next ((rfl : s.adcCtrlWrite n 2 = s.adcStop n s.now).trans (adcStop_alone _ hv))

theorem adcCtrlStart_off (h : s.adcSt n = 0) : exec (.adcCtrlStart n) s = .next s :=
  adcCtrlStart_alone hv (startOne_off _ _ h)

/-- A start in IDLE with a usable buffer begins a run (R312, R316, R322). -/
theorem adcCtrlStart_begins (h : s.adcSt n = 1) (hh : s.inHold = false) (hb : s.badBuffer n = false) :
    ∃ t, exec (.adcCtrlStart n) s = .next t ∧ t.adcSt n = 2 ∧
      (t.rd .ADC_RUN_INFO n).toNat = (t.adc n).t0 % 2 ^ 64 ∧ s.now + 1600 ≤ (t.adc n).t0 ∧
      (s.adcLow n = false → (t.adc n).t0 % 5 = 0 ∧ (t.adc n).t0 < s.now + 1605) ∧
      (s.adcLow n = true → (t.adc n).t0 % 40 = 0 ∧ (t.adc n).t0 < s.now + 1640) ∧
      t.get F.ADC_STATUS_RUN_INPUT n = s.get F.ADC_CFG_INPUT n ∧ t.get F.ADC_COUNT_RUNS n = (s.get F.ADC_COUNT_RUNS n + 1) % 65536 ∧
      (t.adc n).offset = signed 16 (s.get F.ADC_COEF_OFFSET (7 * n.val + s.get F.ADC_CFG_INPUT n)) ∧
      (t.adc n).gain = s.get F.ADC_COEF_GAIN (7 * n.val + s.get F.ADC_CFG_INPUT n) ∧ (t.adc n).taken = 0 ∧
      RegsBut [(.ADC_STATUS, n.val), (.ADC_RUN_INFO, n.val), (.ADC_COUNT, n.val)] s t ∧
      (∀ k, k ≠ n.val → t.adc k = s.adc k) ∧ { t with regs := s.regs, adcs := s.adcs } = s := by
  have ht0 := runStart_t0 s n s.now none
  refine ⟨s.runStart n s.now none, adcCtrlStart_alone hv (startOne_idle _ _ h hh hb), runStart_adcSt .., runStart_info ..,
    ?_, fun hl => ?_, fun hl => ?_, runStart_input .., runStart_runs .., runStart_offset .., runStart_gain .., runStart_taken ..,
    runStart_regsBut _ _ _ _, fun _ => runStart_adc_other _ _ _ _, runStart_frame ..⟩
  · rw [ht0]
    exact firstSample_ge ..
  · rw [ht0, hl]
    exact firstSample_high _
  · rw [ht0, hl]
    exact firstSample_low _

/-- A start that is ignored is counted (Table 7.2). -/
theorem adcCtrlStart_ignored (h : s.startOne n s.now none = (false, s.startIgnored n)) :
    ∃ t, exec (.adcCtrlStart n) s = .next t ∧ OnlyRegs [(.ADC_COUNT, n.val)] s t ∧
      t.get F.ADC_COUNT_START_IGNORED n = min (s.get F.ADC_COUNT_START_IGNORED n + 1) 65535 :=
  ⟨_, adcCtrlStart_alone hv h, put_onlyRegs .., get_inc_same _ _ _ (by decide)⟩

/-- DEST RECORD without a record buffer (R322). -/
theorem adcCtrlStart_badBuffer (h : s.adcSt n = 1) (hh : s.inHold = false) (hb : s.badBuffer n = true) :
    ∃ t, exec (.adcCtrlStart n) s = .next t ∧ OnlyRegs [(.ADC_COUNT, n.val), (.ADC_STATUS, n.val)] s t ∧ t.adcSt n = 1 ∧
      t.isOn F.ADC_STATUS_CFG_REJECTED n = true ∧
      t.get F.ADC_COUNT_START_IGNORED n = min (s.get F.ADC_COUNT_START_IGNORED n + 1) 65535 := by
  refine ⟨_, adcCtrlStart_alone hv (startOne_badBuffer _ _ h hh hb), ⟨rfl, ?_⟩, ?_, isOn_iff.mpr (get_put_same _ _ _ _ (by decide)), ?_⟩
  · exact ((RegsBut.refl _ s).inc F.ADC_COUNT_START_IGNORED (by simp)).put F.ADC_STATUS_CFG_REJECTED 1 (by simp)
  · exact (get_put_apart _ _ _ (by decide)).trans ((get_inc_apart s _ (by decide)).trans h)
  · exact (get_put_apart _ _ _ (by decide)).trans (get_inc_same s _ _ (by decide))

/-- A start in URGENT abandons the urgent request and begins a run (R319). -/
theorem adcCtrlStart_urgent (h : s.adcSt n = 3) (hh : s.inHold = false) (hb : s.badBuffer n = false) :
    ∃ t, exec (.adcCtrlStart n) s = .next t ∧ t.adcSt n = 2 ∧
      t.get F.ADC_COUNT_URGENT_DROP n = min (s.get F.ADC_COUNT_URGENT_DROP n + 1) 65535 ∧ (∃ e ∈ t.yard.raised, e.id = 401 + 2 * n.val) :=
  ⟨_, adcCtrlStart_alone hv (startOne_urgent _ _ h hh hb), runStart_adcSt ..,
    (runStart_drops ..).trans (urgentDrop_count n.isLt), urgentDrop_raised (s := s) n.isLt⟩

theorem adcYardStart_refused (h : s.isOn F.ADC_CFG_CONS_URGENT n = true ∨ s.takeEvent (304 + n) = none) :
    exec (.adcYardStart n) s = .next s := by
  change execAdcYardStart n s = _
  unfold execAdcYardStart
  rw [hv]
  rcases h with h | h
  · rw [if_pos h]
  · rw [h]
    exact congrArg _ (ite_self _)

theorem adcYardStart_taken {tick : Nat} {u : State} (h : s.isOn F.ADC_CFG_CONS_URGENT n = false) (he : s.takeEvent (304 + n) = some (tick, u)) :
    exec (.adcYardStart n) s = .next (u.startOne n tick none).2 := by
  have hu : u.vstOf n = none := by rwa [← takeEvent_frame he]
  change execAdcYardStart n s = _
  unfold execAdcYardStart
  rw [hv, he, if_neg (by simp [h])]
  exact congrArg Host.Outcome.next (adcStart_alone tick hu)

/-- A yard event starts with its own tick (R313). -/
theorem adcYardStart_begins {tick : Nat} {u : State} (h : s.isOn F.ADC_CFG_CONS_URGENT n = false)
    (he : s.takeEvent (304 + n) = some (tick, u)) (h1 : s.adcSt n = 1) (hh : s.inHold = false) (hb : s.badBuffer n = false)
    (hl : s.adcLow n = false) :
    ∃ t, exec (.adcYardStart n) s = .next t ∧ t.adcSt n = 2 ∧ t.yard = u.yard ∧ (t.adc n).t0 % 5 = 0 ∧
      tick + 1600 ≤ (t.adc n).t0 ∧ (t.adc n).t0 < tick + 1605 := by
  have hexec := adcYardStart_taken hv h he
  have hu := takeEvent_frame he
  have h1u : u.adcSt n = 1 := by rwa [← hu]
  have hhu : u.inHold = false := by rwa [← hu]
  have hbu : u.badBuffer n = false := by rwa [← hu]
  have hlu : u.adcLow n = false := by rwa [← hu]
  rw [startOne_idle _ _ h1u hhu hbu] at hexec
  obtain ⟨hmod, hlt⟩ := firstSample_high tick
  refine ⟨_, hexec, runStart_adcSt .., rfl, ?_⟩
  rw [runStart_t0, hlu]
  exact ⟨hmod, firstSample_ge .., hlt⟩

theorem adcCtrlStop_still (h : s.adcSt n ≠ 2) : exec (.adcCtrlStop n) s = .next s :=
  (adcCtrlStop_alone hv).trans (congrArg _ (stopOne_still _ h))

theorem adcCtrlStop_running (h : s.adcSt n = 2) :
    ∃ t, exec (.adcCtrlStop n) s = .next t ∧ { t with adcs := s.adcs } = s ∧ (∀ k, k ≠ n.val → t.adc k = s.adc k) ∧
      t.adc n = { s.adc n with stopAt := some (min ((s.adc n).stopAt.getD (s.now + 1600)) (s.now + 1600)) } :=
  ⟨_, adcCtrlStop_alone hv, stopOne_frame .., fun _ => stopOne_adc_other s _, stopOne_running _ h⟩

end Ctrl

theorem adcCntClear_effect (n : Fin 8) (s : State) :
    ∃ t, exec (.adcCntClear n) s = .next t ∧ OnlyRegs [(.ADC_COUNT, n.val)] s t ∧ t.rd .ADC_COUNT n = 0 :=
  ⟨s.rst .ADC_COUNT n, rfl, wr_onlyRegs .., rd_rst_same s .ADC_COUNT n⟩

/-! ### ADC_GLOBAL_START (R337) -/

section Global

variable {s : State}

/-- No converter is a member of an enabled virtual stall. -/
def State.allAlone (s : State) : Prop := ∀ k, k < 8 → s.vstOf k = none

theorem StartOnly.allAlone {n : Nat} {s t : State} (hn : n < 8) (h : StartOnly n s t) (hs : s.allAlone) : t.allAlone := fun k hk =>
  (vstOf_congr (fun _ hv => h.cfg hn hv) k).trans (hs k hk)

/-- One converter's part in a write of ADC_GLOBAL_START, whether a start or a stop. -/
theorem globalPart_kept {f : State → Nat → State} {p : Nat → Bool} (hf : ∀ a m, a.vstOf m = none → StartOnly m a (f a m)) (a : State) (m : Nat)
    (ha : a.allAlone) (hm : m < 8) : (if p m then f a m else a).allAlone ∧ ∀ k, k < 8 → k ≠ m → ConverterKept k a (if p m then f a m else a) := by
  have hstep : StartOnly m a (if p m then f a m else a) := by
    split
    · exact hf a m (ha m hm)
    · exact .refl m a
  exact ⟨hstep.allAlone hm ha, fun k hk hne => hstep.other hm hk hne⟩

/-- What a write of ADC_GLOBAL_START does to converter `k`, which it names or not. -/
theorem globalFold {f : State → Nat → State} {p : Nat → Bool} (hf : ∀ a m, a.vstOf m = none → StartOnly m a (f a m)) (hs : s.allAlone) {k : Nat}
    (hk : k < 8) :
    ∃ u, u.vstOf k = none ∧ ConverterKept k s u ∧ ConverterKept k (if p k then f u k else u) ((List.range 8).foldl (fun a m => if p m then f a m else a) s) := by
  obtain ⟨u, hu, hsu, hend⟩ := (foldl_converters (globalPart_kept (p := p) hf) hk (List.range 8) List.nodup_range
    (fun _ => List.mem_range.mp) hs).2 (List.mem_range.mpr hk)
  exact ⟨u, hu k hk, hsu, hend⟩

theorem adcStart_startOnly (tick : Nat) (a : State) (m : Nat) (h : a.vstOf m = none) : StartOnly m a (a.adcStart m tick) := by
  rw [adcStart_alone tick h]
  exact startOne_startOnly ..

theorem adcStop_startOnly (tick : Nat) (a : State) (m : Nat) (h : a.vstOf m = none) : StartOnly m a (a.adcStop m tick) := by
  rw [adcStop_alone tick h]
  exact stopOne_startOnly ..

variable (mask : BitVec 8)

theorem bit_mask_low (k : Nat) : bit (mask.zeroExtend 64) k = mask.getLsbD k := by
  unfold bit
  rw [BitVec.getLsbD_setWidth]
  by_cases h : k < 64
  · simp [h]
  · simp [h, BitVec.getLsbD_of_ge mask k (by omega)]

theorem bit_mask_high (k : Nat) : bit (mask.zeroExtend 64 <<< 8) (8 + k) = mask.getLsbD k := by
  have h := bit_mask_low mask k
  unfold bit at h ⊢
  rw [BitVec.getLsbD_shiftLeft, Nat.add_sub_cancel_left, h]
  by_cases hk : 8 + k < 64
  · simp [hk]
  · simp [hk, BitVec.getLsbD_of_ge mask k (by omega)]

theorem adcGlobalStart_eq : s.adcGlobalWrite (mask.zeroExtend 64) =
    (List.range 8).foldl (fun a k => if mask.getLsbD k then a.adcStart k s.now else a) s := by
  have hstops : (List.range 8).foldl (fun a k => if bit (mask.zeroExtend 64) (8 + k) then a.adcStop k s.now else a) s = s := by
    refine List.foldl_fixed' (fun k => if_neg ?_) _
    rw [bit_mask_low, BitVec.getLsbD_of_ge mask _ (by omega)]
    decide
  unfold State.adcGlobalWrite
  rw [hstops]
  simp only [bit_mask_low]

theorem adcGlobalStop_eq : s.adcGlobalWrite (mask.zeroExtend 64 <<< 8) =
    (List.range 8).foldl (fun a k => if mask.getLsbD k then a.adcStop k s.now else a) s := by
  have hstarts (a : State) : (List.range 8).foldl (fun a k => if bit (mask.zeroExtend 64 <<< 8) k then a.adcStart k s.now else a) a = a := by
    refine (List.foldl_ext _ (fun a _ => a) a fun a k hk => if_neg ?_).trans (List.foldl_fixed' (fun _ => rfl) _)
    have hk := List.mem_range.mp hk
    unfold bit
    rw [BitVec.getLsbD_shiftLeft]
    simp [hk]
  unfold State.adcGlobalWrite
  simp only [hstarts, bit_mask_high]

/-- The starts of one write share its tick (R313). -/
theorem adcGlobalStart_effect (hs : s.allAlone) (hh : s.inHold = false) :
    ∃ t, exec (.adcGlobalStart mask) s = .next t ∧
      (∀ k, k < 8 → mask.getLsbD k = false → t.adc k = s.adc k ∧ t.adcSt k = s.adcSt k) ∧
      (∀ k, k < 8 → mask.getLsbD k = true → s.adcSt k = 1 → s.badBuffer k = false → t.adcSt k = 2 ∧ (t.adc k).start = s.now) := by
  refine ⟨_, congrArg Host.Outcome.next (adcGlobalStart_eq mask), fun k hk hm => ?_, fun k hk hm h1 hb => ?_⟩
  all_goals obtain ⟨u, hu, hsu, hend⟩ := globalFold (p := mask.getLsbD) (adcStart_startOnly s.now) hs hk
  · rw [if_neg (by simp [hm])] at hend
    exact ⟨hend.adc.trans hsu.adc, hend.adcSt.trans hsu.adcSt⟩
  · rw [if_pos hm, adcStart_alone _ hu, startOne_idle _ _ (hsu.adcSt.trans h1) (hsu.inHold.trans hh) (hsu.badBuffer.trans hb)] at hend
    exact ⟨hend.adcSt.trans (runStart_adcSt ..), (congrArg Adc.start hend.adc).trans (runStart_start ..)⟩

theorem adcGlobalStop_effect (hs : s.allAlone) :
    ∃ t, exec (.adcGlobalStop mask) s = .next t ∧ { t with adcs := s.adcs } = s ∧
      (∀ k, k < 8 → mask.getLsbD k = false ∨ s.adcSt k ≠ 2 → t.adc k = s.adc k) ∧
      (∀ k, k < 8 → mask.getLsbD k = true → s.adcSt k = 2 → (s.adc k).stopAt = none → (t.adc k).stopAt = some (s.now + 1600)) := by
  refine ⟨_, congrArg Host.Outcome.next (adcGlobalStop_eq mask), ?_, fun k hk hm => ?_, fun k hk hm h2 hstop => ?_⟩
  · refine (List.foldlRecOn (motive := fun t : State => t.allAlone ∧ { t with adcs := s.adcs } = s) _ _ ⟨hs, rfl⟩ fun a ha m hm => ?_).2
    have hm := List.mem_range.mp hm
    refine ⟨(globalPart_kept (adcStop_startOnly s.now) a m ha.1 hm).1, ?_⟩
    split
    · rw [adcStop_alone _ (ha.1 m hm)]
      exact (congrArg (fun t : State => { t with adcs := s.adcs }) (stopOne_frame a m s.now)).trans ha.2
    · exact ha.2
  all_goals obtain ⟨u, hu, hsu, hend⟩ := globalFold (p := mask.getLsbD) (adcStop_startOnly s.now) hs hk
  · refine hend.adc.trans (Eq.trans ?_ hsu.adc)
    split
    · next hon =>
      rw [adcStop_alone _ hu, stopOne_still _ fun h => hm.elim (by simp [hon]) (· (hsu.adcSt.symm.trans h))]
    · rfl
  · rw [if_pos hm, adcStop_alone _ hu] at hend
    rw [hend.adc, stopOne_running _ (hsu.adcSt.trans h2), hsu.adc, hstop]
    simp

end Global

end Sys2Proof.Machine

/-! SUPPORT. Recording and the end of a run (R315, R317, R320 to R324): whole words written to the fen, what the last unit and the record of a
run leave alone, and the two commands. -/

namespace Sys2Proof

/-- The registers that a run writes as it records and pushes: its counters and WR_OFFSET, the fen's and the troughs' counts, and alarms. -/
def Reg.runTally : Reg → Bool
  | .FEN_SCRUB_COUNT | .FEN_ECC | .FEN_UE_ADDR | .ALARM_STATUS | .ALARM_SUMMARY | .YARD_GLOBAL | .TRG_STATUS | .TRG_DROPS | .TRG_ECC
  | .ADC_COUNT | .ADC_BUF_POS => true
  | _ => false

theorem bytesOfNat_natOfBytes (l : List Byte) : bytesOfNat l.length (natOfBytes l) = l := by
  induction l with
  | nil => rfl
  | cons b l ih =>
    have hb : b.toNat < 256 := b.isLt
    rw [List.length_cons, natOfBytes, bytesOfNat, show (b.toNat + 256 * natOfBytes l) / 256 = natOfBytes l by omega, ih]
    congr 1
    apply BitVec.eq_of_toNat_eq
    rw [BitVec.toNat_ofNat]
    omega

/-- Halfwords laid out as bytes: the low byte of each and the byte above it (R5). -/
theorem getElem?_halfwords (l : List Nat) (i : Nat) :
    (l.flatMap (bytesOfNat 2))[2 * i]? = l[i]?.map (BitVec.ofNat 8) ∧
    (l.flatMap (bytesOfNat 2))[2 * i + 1]? = l[i]?.map fun v => BitVec.ofNat 8 (v / 256) := by
  induction l generalizing i with
  | nil => simp
  | cons v l ih =>
    cases i with
    | zero => simp [bytesOfNat]
    | succ i => simpa [bytesOfNat, Nat.mul_succ] using ih i

namespace Machine

/-! ### Whole words written (R346) -/

section Aligned

theorem fenUsable_congr {s t : State} (h : t.regs = s.regs) (a : Nat) : t.fenUsable a = s.fenUsable a := by
  unfold State.fenUsable State.segAt
  simp only [rd_congr h]

theorem fenByte_fenStore_at (s : State) (a : Nat) {l : List Byte} (hl : l.length = 8) {i : Nat} (hi : i < 8) :
    (s.fenStore a (BitVec.ofNat 64 (natOfBytes l)) false).fenByte (a + i) = l[i] := by
  have hlt : natOfBytes l < 2 ^ 64 := by
    have h := natOfBytes_lt l
    rwa [hl] at h
  have hbytes : bytesOfNat 8 (BitVec.ofNat 64 (natOfBytes l)).toNat = l := by
    rw [BitVec.toNat_ofNat, Nat.mod_eq_of_lt hlt, ← hl, bytesOfNat_natOfBytes]
  refine (get_storeBytes_at _ _ _ i (by rw [length_bytesOfNat]; exact hi)).trans ?_
  simp only [hbytes]

variable {s : State} {fuel a : Nat} {l : List Byte}

/-- Eight bytes from a word's address are one word stored. -/
theorem engineWriteBytes_word (ha : a % 8 = 0) (hl : 8 ≤ l.length) (hu : s.fenUsable a = true) :
    State.engineWriteBytes (fuel + 1) s a l =
      State.engineWriteBytes fuel (s.fenStore a (BitVec.ofNat 64 (natOfBytes (l.take 8))) false) (a + 8) (l.drop 8) := by
  cases l with
  | nil => simp at hl
  | cons b l =>
    have hn : min (8 - 0) (b :: l).length = 8 := by omega
    have hword : a / 8 * 8 = a := by omega
    conv_lhs => unfold State.engineWriteBytes
    simp only [ha, hn, hu, hword, if_true, State.fenMerge, Nat.mul_zero, Nat.pow_zero, Nat.mul_one]
    rw [if_pos (by decide)]

/-- Bytes that fill whole words are stored one by one, and nothing else changes. -/
theorem engineWriteBytes_aligned {k : Nat} (hk : k ≤ fuel) (ha : a % 8 = 0) (hl : l.length = 8 * k)
    (hu : ∀ i, i < 8 * k → s.fenUsable (a + i) = true) :
    { State.engineWriteBytes fuel s a l with fen := s.fen, fenChk := s.fenChk, fenFix := s.fenFix } = s ∧
    (∀ i b, l[i]? = some b → (State.engineWriteBytes fuel s a l).fenByte (a + i) = b) ∧
    (∀ j, j < a ∨ a + 8 * k ≤ j → (State.engineWriteBytes fuel s a l).fenByte j = s.fenByte j) := by
  induction k generalizing s fuel a l with
  | zero =>
    obtain rfl : l = [] := List.length_eq_zero_iff.mp hl
    have hnone : State.engineWriteBytes fuel s a [] = s := by cases fuel <;> rfl
    rw [hnone]
    exact ⟨rfl, fun i b h => by simp at h, fun _ _ => rfl⟩
  | succ k ih =>
    obtain ⟨fuel, rfl⟩ := Nat.exists_eq_add_of_lt (Nat.lt_of_lt_of_le (Nat.succ_pos k) hk)
    rw [Nat.zero_add, engineWriteBytes_word ha (by omega) (hu 0 (by omega))]
    have hlen : (l.take 8).length = 8 := by rw [List.length_take]; omega
    obtain ⟨hframe, hin, hout⟩ := ih (s := s.fenStore a (BitVec.ofNat 64 (natOfBytes (l.take 8))) false) (fuel := fuel) (a := a + 8)
      (l := l.drop 8) (by omega) (by omega) (by rw [List.length_drop]; omega) fun i hi => by
        refine (fenUsable_congr (s := s) rfl _).trans ?_
        rw [Nat.add_assoc]
        exact hu (8 + i) (by omega)
    refine ⟨(congrArg (fun t : State => { t with fen := s.fen, fenChk := s.fenChk, fenFix := s.fenFix }) hframe :), fun i b h => ?_,
      fun j hj => (hout j (by omega)).trans (fenByte_fenStore_other _ _ _ _ _ (by omega))⟩
    by_cases hi : i < 8
    · rw [hout _ (by omega), fenByte_fenStore_at s a hlen hi]
      rw [← List.getElem?_take_of_lt hi, List.getElem?_eq_getElem (by omega)] at h
      exact Option.some_inj.mp h
    · have hb := hin (i - 8) b (by rw [List.getElem?_drop, show 8 + (i - 8) = i by omega]; exact h)
      rwa [show a + 8 + (i - 8) = a + i by omega] at hb

end Aligned

/-! ### What a run leaves alone -/

/-- From `s` to `t` no register but the tallies of a run is written, no converter but `n` changes, and the mode stands. -/
structure RunKept (n : Nat) (s t : State) : Prop where
  rd : ∀ {r : Reg} {i : Nat}, r.runTally = false → i < 2 ^ 20 → t.rd r i = s.rd r i
  adc : ∀ k, k ≠ n → t.adc k = s.adc k
  mode : t.ctl.mode = s.ctl.mode

namespace RunKept

variable {n : Nat} {s t u : State}

theorem refl (n : Nat) (s : State) : RunKept n s s := ⟨fun _ _ => rfl, fun _ _ => rfl, rfl⟩

theorem trans (h : RunKept n s t) (g : RunKept n t u) : RunKept n s u :=
  ⟨fun hr hi => (g.rd hr hi).trans (h.rd hr hi), fun k hk => (g.adc k hk).trans (h.adc k hk), g.mode.trans h.mode⟩

theorem get (h : RunKept n s t) (f : Fld) {i : Nat} (hf : f.r.runTally = false) (hi : i < 2 ^ 20) : t.get f i = s.get f i :=
  get_congr (h.rd hf hi)

/-- A change of what is neither register nor converter nor mode. -/
theorem store (h : RunKept n s t) (hr : u.regs = t.regs) (ha : u.adcs = t.adcs) (hm : u.ctl.mode = t.ctl.mode) : RunKept n s u :=
  h.trans ⟨fun _ _ => rd_congr hr _ _, fun k _ => adc_congr ha k, hm⟩

theorem wr (h : RunKept n s t) {r : Reg} {i : Nat} (v : Word) (hr : r.runTally = true) (hi : i < 2 ^ 20) : RunKept n s (t.wr r i v) :=
  h.trans ⟨fun hq hj => rd_wr_reg _ _ (fun e => by rw [e, hr] at hq; cases hq) hi hj, fun _ _ => rfl, rfl⟩

theorem inc (h : RunKept n s t) (f : Fld) {i : Nat} (hr : f.r.runTally = true) (hi : i < 2 ^ 20) : RunKept n s (t.inc f i) := h.wr _ hr hi

theorem put (h : RunKept n s t) (f : Fld) {i : Nat} (v : Nat) (hr : f.r.runTally = true) (hi : i < 2 ^ 20) : RunKept n s (t.put f i v) :=
  h.wr _ hr hi

theorem modAdc (h : RunKept n s t) (f : Adc → Adc) : RunKept n s (t.modAdc n f) :=
  h.trans ⟨fun _ _ => rfl, fun _ => adc_modAdc_other t f, rfl⟩

theorem ite {a b : State} {p : Prop} [Decidable p] (ha : RunKept n s a) (hb : RunKept n s b) : RunKept n s (if p then a else b) := by
  split <;> assumption

theorem raiseYard (h : RunKept n s t) (p u : Nat) : RunKept n s (t.raiseYard p u) := by
  unfold State.raiseYard
  exact .ite h (.ite (h.inc _ rfl (by decide)) (h.store rfl rfl rfl))

theorem sendVector (h : RunKept n s t) (fn v : Nat) (c : MsgClass) : RunKept n s (t.sendVector fn v c) := by
  unfold State.sendVector
  exact .ite h (h.store rfl rfl rfl)

theorem alarm (h : RunKept n s t) {code : Nat} (data : Word) (hc : code < 256) : RunKept n s (t.alarm code data) := by
  unfold State.alarm State.placeRequest
  extract_lets hold seq s1 s2 m s3 q
  have h2 : RunKept n s s2 := (h.put F.ALARM_STATUS_NEXT_SEQ _ rfl (by decide)).inc ⟨.ALARM_SUMMARY, _, 16⟩ rfl (by omega)
  have h3 : RunKept n s s3 := h2.store rfl rfl rfl
  exact .ite (.ite h3 (h3.store rfl rfl rfl)) h3

theorem fenUe (h : RunKept n s t) (a : Nat) : RunKept n s (t.fenUe a) := by
  have h1 : RunKept n s (t.inc F.FEN_ECC_UE) := h.inc _ rfl (by decide)
  unfold State.fenUe
  exact .alarm (.ite h1 ((h1.put F.FEN_UE_ADDR_ADDR _ rfl (by decide)).put F.FEN_UE_ADDR_VALID _ rfl (by decide))) _ (by decide)

theorem fenMerge (h : RunKept n s t) (a : Nat) (w : Word) (be : BitVec 8) (poison : Bool) : RunKept n s (t.fenMerge a w be poison) := by
  unfold State.fenMerge
  dsimp only
  split
  · exact h.store rfl rfl rfl
  split
  · exact h.store rfl rfl rfl
  · exact (h.inc F.FEN_ECC_STORED_POISON rfl (by decide)).store rfl rfl rfl
  · exact (h.fenUe a).store rfl rfl rfl

theorem engineWriteBytes (h : RunKept n s t) (fuel a : Nat) (bs : List Byte) : RunKept n s (State.engineWriteBytes fuel t a bs) := by
  induction fuel generalizing t a bs with
  | zero => exact h
  | succ fuel ih =>
    cases bs with
    | nil => exact h
    | cons b bs => exact ih (.ite (h.fenMerge _ _ _ _) (h.inc _ rfl (by decide))) _ _

theorem setTrg (h : RunKept n s t) (k : Nat) (x : Trough) : RunKept n s (t.setTrg k x) := h.store rfl rfl rfl

theorem writeSlot (h : RunKept n s t) (k i : Nat) (w : TWord) : RunKept n s (t.writeSlot k i w) := by
  have hframe := writeSlot_frame t k i w
  exact h.store (congrArg State.regs hframe :) (congrArg State.adcs hframe :) (congrArg (·.ctl.mode) hframe :)

theorem putWords (h : RunKept n s t) (k i : Nat) (ws : List TWord) : RunKept n s (t.putWords k i ws) := by
  have hframe := putWords_frame k i ws t
  exact h.store (congrArg State.regs hframe :) (congrArg State.adcs hframe :) (congrArg (·.ctl.mode) hframe :)

theorem mirrorNote (h : RunKept n s t) (k : Nat) (ws : List TWord) : RunKept n s (t.mirrorNote k ws) := by
  have hframe := mirrorNote_frame t k ws
  exact h.store (congrArg State.regs hframe :) (congrArg State.adcs hframe :) (congrArg (·.ctl.mode) hframe :)

section Push

variable {k : Nat} (hk : k < 2 ^ 20)
include hk

theorem trgThresh (h : RunKept n s t) (before : Nat) : RunKept n s (t.trgThresh k before) :=
  trgThresh_rec (P := RunKept n s) k before h (fun _ f _ hf ha => ha.put f _ (by rw [hf]; rfl) hk) (fun _ _ _ _ ha => ha.sendVector ..)
    fun _ _ _ ha => ha.raiseYard ..

theorem dropItem (h : RunKept n s t) : RunKept n s (t.dropItem k) := by
  have h1 : RunKept n s (t.inc F.TRG_DROPS_DROPPED k) := h.inc _ rfl hk
  unfold State.dropItem State.markDrops
  exact .ite h1 (.ite (h1.writeSlot ..) (((h1.writeSlot ..).setTrg ..).put _ _ rfl hk))

theorem pushItem (h : RunKept n s t) (ws : List Word) : RunKept n s (t.pushItem k ws) := by
  unfold State.pushItem State.dropPending State.pushBurst State.commitItem
  exact .ite (h.inc _ rfl (by decide)) (.ite ((h.inc _ rfl hk).setTrg ..) (.ite (h.setTrg ..)
    ((RunKept.ite (((h.putWords ..).setTrg ..).mirrorNote ..) (h.dropItem hk)).trgThresh hk _)))

end Push

end RunKept

theorem engineWriteBytes_frame (fuel a : Nat) (bs : List Byte) (s : State) : { State.engineWriteBytes fuel s a bs with
    regs := s.regs, ctl := s.ctl, mgmt := s.mgmt, fen := s.fen, fenChk := s.fenChk, fenFix := s.fenFix } = s := by
  induction fuel generalizing s a bs with
  | zero => rfl
  | succ fuel ih =>
    cases bs with
    | nil => rfl
    | cons b bs =>
      unfold State.engineWriteBytes
      refine (congrArg (fun t : State => { t with
        regs := s.regs, ctl := s.ctl, mgmt := s.mgmt, fen := s.fen, fenChk := s.fenChk, fenFix := s.fenFix }) (ih _ _ _)).trans ?_
      split
      · exact fenMerge_frame ..
      · rfl

/-- Room in a trough is a matter of TRG_CFG, the mode and its queue. -/
theorem hasRoom_congr {s t : State} {k m : Nat} (hcfg : t.rd .TRG_CFG k = s.rd .TRG_CFG k) (hmode : t.ctl.mode = s.ctl.mode)
    (hq : t.trg k = s.trg k) (h : s.hasRoom k m) : t.hasRoom k m := by
  have hget {f : Fld} (hf : f.r = .TRG_CFG) : t.get f k = s.get f k := get_congr (hf ▸ hcfg)
  unfold State.hasRoom State.trgAsleep State.trgOn State.trgFar State.trgSize at h ⊢
  rw [hq, hmode, hget rfl, isOn_congr (hget (f := F.TRG_CFG_ENABLE) rfl), isOn_congr (hget (f := F.TRG_CFG_LOCATION) rfl)]
  exact h

/-! ### Samples corrected and units written (R315, R320, R321) -/

theorem correct_clamped (offset : Int) (gain : Nat) (x : BitVec 14) :
    (correct offset gain x).1 = max (-8192) (min 8191 (((x.toInt + offset) * gain + 32768) / 65536)) := by
  unfold correct
  norm_num only
  split
  · omega
  · split <;> dsimp only <;> omega

/-- Correcting samples counts those that saturate, and flags the run by them. -/
theorem correctRun_state (s : State) (n : Nat) (xs : List (BitVec 14)) : ∃ c, (s.correctRun n xs).2 =
    (s.addSat F.ADC_COUNT_CLIP n c).modAdc n fun b => { b with clipped := b.clipped || c != 0 } := ⟨_, rfl⟩

theorem correctRun_kept (s : State) {n : Nat} (hn : n < 8) (xs : List (BitVec 14)) : RunKept n s (s.correctRun n xs).2 := by
  obtain ⟨c, hc⟩ := correctRun_state s n xs
  rw [hc]
  exact .modAdc (.put (.refl n s) F.ADC_COUNT_CLIP _ rfl (by omega)) _

theorem correctRun_get (s : State) (n : Nat) (xs : List (BitVec 14)) (f : Fld) (hf : f.r ≠ .ADC_COUNT) :
    (s.correctRun n xs).2.get f n = s.get f n := get_addSat_apart s n _ (.inl hf)

theorem correctRun_values (s : State) (n : Nat) (xs : List (BitVec 14)) :
    (s.correctRun n xs).1 = xs.map fun x => (correct (s.adc n).offset (s.adc n).gain x).1 := List.map_map

theorem correctRun_taken (s : State) (n : Nat) (xs : List (BitVec 14)) : ((s.correctRun n xs).2.adc n).taken = (s.adc n).taken := by
  obtain ⟨c, hc⟩ := correctRun_state s n xs
  rw [hc]
  exact (congrArg Adc.taken (adc_modAdc_same ..) :)

/-- The bytes of a unit, padded (R320). -/
def unitBytes (ys : List Int) : List Byte :=
  (ys.map (unsigned 16) ++ List.replicate (32 - ys.length) (0x8000 : Nat)).flatMap (bytesOfNat 2)

/-- A unit's bytes are written; WR_OFFSET has not moved yet. -/
def State.unitStored (s : State) (n : Nat) (ys : List Int) : State :=
  s.engineWriteBytes 9 (s.get F.ADC_BUF_BASE n * 2 ^ 16 + s.get F.ADC_BUF_POS_WR_OFFSET n % 2 ^ s.get F.ADC_BUF_SIZE_LOG2 n) (unitBytes ys)

/-- WR_OFFSET moves past a unit, and WRAPS counts its return to 0 (R321). -/
theorem writeUnit_eq (s : State) (n : Nat) (ys : List Int) :
    s.writeUnit n ys =
      (let next := (s.get F.ADC_BUF_POS_WR_OFFSET n + 64) % 2 ^ s.get F.ADC_BUF_SIZE_LOG2 n
       let t := (s.unitStored n ys).put F.ADC_BUF_POS_WR_OFFSET n next
       if next = 0 then t.incWrap F.ADC_BUF_POS_WRAPS n else t) := rfl

theorem writeUnit_kept (s : State) {n : Nat} (hn : n < 8) (ys : List Int) : RunKept n s (s.writeUnit n ys) := by
  have h : RunKept n s (s.unitStored n ys) := (RunKept.refl n s).engineWriteBytes ..
  have h1 (v : Nat) := h.put F.ADC_BUF_POS_WR_OFFSET (i := n) v rfl (by omega)
  rw [writeUnit_eq]
  exact .ite ((h1 _).put F.ADC_BUF_POS_WRAPS _ rfl (by omega)) (h1 _)

theorem writeUnit_regs_only (s : State) (n : Nat) (ys : List Int) : { s.writeUnit n ys with regs := (s.unitStored n ys).regs } = s.unitStored n ys := by
  rw [writeUnit_eq]
  dsimp only
  split <;> rfl

theorem unitStored_troughs (s : State) (n : Nat) (ys : List Int) : (s.unitStored n ys).troughs = s.troughs :=
  (congrArg State.troughs (engineWriteBytes_frame 9 _ _ s) :)

theorem writeUnit_troughs (s : State) (n : Nat) (ys : List Int) : (s.writeUnit n ys).troughs = s.troughs :=
  (congrArg State.troughs (writeUnit_regs_only s n ys) :).trans (unitStored_troughs s n ys)

/-- WR_OFFSET after a unit. -/
theorem writeUnit_offset (s : State) (n : Nat) (ys : List Int) (h : s.get F.ADC_BUF_SIZE_LOG2 n ≤ 34) :
    (s.writeUnit n ys).get F.ADC_BUF_POS_WR_OFFSET n = (s.get F.ADC_BUF_POS_WR_OFFSET n + 64) % 2 ^ s.get F.ADC_BUF_SIZE_LOG2 n := by
  have hlt : (s.get F.ADC_BUF_POS_WR_OFFSET n + 64) % 2 ^ s.get F.ADC_BUF_SIZE_LOG2 n < 2 ^ 34 :=
    (Nat.mod_lt _ (by positivity)).trans_le (Nat.pow_le_pow_right (by decide) h)
  rw [writeUnit_eq]
  dsimp only
  generalize (s.get F.ADC_BUF_POS_WR_OFFSET n + 64) % 2 ^ s.get F.ADC_BUF_SIZE_LOG2 n = next at hlt ⊢
  split
  · exact (get_incWrap_apart _ _ (by decide)).trans ((get_put_same _ _ _ _ (by decide)).trans (Nat.mod_eq_of_lt hlt))
  · exact (get_put_same _ _ _ _ (by decide)).trans (Nat.mod_eq_of_lt hlt)

/-- The bytes of a whole unit: sample `i` stands at bytes `2 * i` and `2 * i + 1`. -/
theorem unitBytes_get {ys : List Int} (hlen : ys.length = 32) {i : Nat} {y : Int} (h : ys[i]? = some y) :
    (unitBytes ys)[2 * i]? = some (BitVec.ofNat 8 (unsigned 16 y)) ∧ (unitBytes ys)[2 * i + 1]? = some (BitVec.ofNat 8 (unsigned 16 y / 256)) := by
  obtain ⟨hlow, hhigh⟩ := getElem?_halfwords (ys.map (unsigned 16) ++ List.replicate (32 - ys.length) (0x8000 : Nat)) i
  rw [hlen, Nat.sub_self, List.replicate_zero, List.append_nil, List.getElem?_map, h] at hlow hhigh
  unfold unitBytes
  rw [hlen, Nat.sub_self, List.replicate_zero, List.append_nil]
  exact ⟨hlow, hhigh⟩

theorem unitBytes_length {ys : List Int} (hlen : ys.length = 32) : (unitBytes ys).length = 8 * 8 := by
  unfold unitBytes
  rw [List.length_flatMap]
  simp [length_bytesOfNat, hlen, Function.comp_def]

end Machine

end Sys2Proof

/-! SUPPORT. ADC_UNIT_COMMIT and ADC_RUN_END (R315, R317, R320 to R324). -/

namespace Sys2Proof.Machine

/-! ### ADC_UNIT_COMMIT (R315, R320, R321) -/

/-- Storage that an engine may use stays usable: FEN_SEG_ACTIVE is no tally of a run. -/
theorem RunKept.fenUsable {n a : Nat} {s t : State} (h : RunKept n s t) (hu : s.fenUsable a = true) : t.fenUsable a = true := by
  unfold State.fenUsable State.segAt segOf at hu ⊢
  simp only [Bool.and_eq_true, decide_eq_true_eq] at hu ⊢
  have ha : a / 0x40000000 / 16 < 2 ^ 20 := by
    have := hu.1.2
    unfold fenEnd at this
    omega
  rw [h.rd rfl ha]
  exact hu

/-- The state with the time of a unit's last sample reached and its samples corrected. -/
def State.unitCorrected (s : State) (n : Nat) (xs : List (BitVec 14)) : State :=
  ((s.reach (Machine.sampleAt (s.adcLow n) (s.adc n).t0 ((s.adc n).taken + 31))).correctRun n xs).2

section Unit

variable {n : Fin 8} {xs : List (BitVec 14)} {s : State}

theorem adcUnitCommit_refused (h : s.adcSt n ≠ 2 ∨ (s.adc n).dest = 1 ∨ xs.length ≠ 32) : exec (.adcUnitCommit n xs) s = .next s := by
  change execAdcUnitCommit n xs s = _
  unfold execAdcUnitCommit asRunning
  exact congrArg _ (if_pos (by tauto))

theorem adcUnitCommit_taken (h2 : s.adcSt n = 2) (hd : (s.adc n).dest ≠ 1) (hlen : xs.length = 32)
    (hend : ∀ k, s.runLimit n = some k → (s.adc n).taken + 32 ≤ k) :
    exec (.adcUnitCommit n xs) s = .next (((s.unitCorrected n xs).writeUnit n (xs.map fun x => (correct (s.adc n).offset (s.adc n).gain x).1)).modAdc n
      fun b => { b with taken := b.taken + 32 }) := by
  change execAdcUnitCommit n xs s = _
  unfold execAdcUnitCommit asRunning
  dsimp only
  rw [if_neg, correctRun_values]
  · rfl
  · rintro (h | h | h | h)
    · exact h h2
    · exact hd h
    · exact h hlen
    · split at h
      · next k hk => exact absurd (hend k hk) (Nat.not_le.mpr (of_decide_eq_true h))
      · cases h

theorem unitCorrected_kept (s : State) (n : Fin 8) (xs : List (BitVec 14)) : RunKept n s (s.unitCorrected n xs) :=
  RunKept.trans (t := s.reach _) ⟨fun _ _ => rfl, fun _ _ => rfl, rfl⟩ (correctRun_kept _ n.isLt xs)

theorem adcUnitCommit_stores (h2 : s.adcSt n = 2) (hd : (s.adc n).dest ≠ 1) (hlen : xs.length = 32)
    (hend : ∀ k, s.runLimit n = some k → (s.adc n).taken + 32 ≤ k) (h64 : s.get F.ADC_BUF_POS_WR_OFFSET n % 64 = 0)
    (h16 : 16 ≤ s.get F.ADC_BUF_SIZE_LOG2 n) (h34 : s.get F.ADC_BUF_SIZE_LOG2 n ≤ 34) :
    (let size := 2 ^ s.get F.ADC_BUF_SIZE_LOG2 n
     let a := s.get F.ADC_BUF_BASE n * 65536 + s.get F.ADC_BUF_POS_WR_OFFSET n % size
     (∀ k, k < 64 → s.fenUsable (a + k) = true) →
     ∃ t, exec (.adcUnitCommit n xs) s = .next t ∧ (t.adc n).taken = (s.adc n).taken + 32 ∧
      t.get F.ADC_BUF_POS_WR_OFFSET n = (s.get F.ADC_BUF_POS_WR_OFFSET n + 64) % size ∧
      (∀ i x, xs[i]? = some x →
        let y := max (-8192) (min 8191 (((x.toInt + (s.adc n).offset) * (s.adc n).gain + 32768) / 65536))
        t.fenByte (a + 2 * i) = BitVec.ofNat 8 (unsigned 16 y) ∧ t.fenByte (a + 2 * i + 1) = BitVec.ofNat 8 (unsigned 16 y / 256)) ∧
      (∀ j, (j < a ∨ a + 64 ≤ j) → t.fenByte j = s.fenByte j) ∧ t.adcSt n = 2) := by
  intro size a hu
  have hcorr := unitCorrected_kept s n xs
  have hoff : (s.unitCorrected n xs).get F.ADC_BUF_POS_WR_OFFSET n = s.get F.ADC_BUF_POS_WR_OFFSET n := correctRun_get _ _ xs _ (by decide)
  have htaken : ((s.unitCorrected n xs).adc n).taken = (s.adc n).taken := correctRun_taken ..
  have hfen : (s.unitCorrected n xs).fen = s.fen := rfl
  have hexec := adcUnitCommit_taken h2 hd hlen hend
  have hvalue {i : Nat} {x : BitVec 14} (hx : xs[i]? = some x) :
      (xs.map fun x => (correct (s.adc n).offset (s.adc n).gain x).1)[i]? =
        some (max (-8192) (min 8191 (((x.toInt + (s.adc n).offset) * (s.adc n).gain + 32768) / 65536))) := by
    rw [List.getElem?_map, hx, Option.map_some, correct_clamped]
  have hylen : (xs.map fun x => (correct (s.adc n).offset (s.adc n).gain x).1).length = 32 := by rw [List.length_map, hlen]
  generalize s.unitCorrected n xs = c at hcorr hoff htaken hfen hexec
  generalize (xs.map fun x => (correct (s.adc n).offset (s.adc n).gain x).1) = ys at hexec hvalue hylen
  have hsize : c.get F.ADC_BUF_SIZE_LOG2 n = s.get F.ADC_BUF_SIZE_LOG2 n := hcorr.get _ rfl (by omega)
  have hbase : c.get F.ADC_BUF_BASE n = s.get F.ADC_BUF_BASE n := hcorr.get _ rfl (by omega)
  have ha : a % 8 = 0 := by
    have hmod : s.get F.ADC_BUF_POS_WR_OFFSET n % size % 2 ^ 6 = 0 := by
      rw [Nat.mod_mod_of_dvd _ (Nat.pow_dvd_pow 2 (by omega))]
      exact h64
    omega
  have hplace : c.unitStored n ys = State.engineWriteBytes 9 c a (unitBytes ys) := by
    unfold State.unitStored
    rw [hsize, hbase, hoff]
    rfl
  obtain ⟨hframe, hin, hout⟩ := engineWriteBytes_aligned (s := c) (k := 8) (fuel := 9) (by decide) ha (unitBytes_length hylen)
    fun i hi => hcorr.fenUsable (hu i hi)
  rw [← hplace] at hframe hin hout
  have hwrite := writeUnit_regs_only c n ys
  have hbyte (j : Nat) : (c.writeUnit n ys).fenByte j = (c.unitStored n ys).fenByte j := (congrArg (State.fenByte · j) hwrite :)
  have hadc : (c.writeUnit n ys).adcs = c.adcs := (congrArg State.adcs hwrite :).trans (congrArg State.adcs hframe :)
  refine ⟨_, hexec, ?_, ?_, fun i x hx => ?_, fun j hj => ?_, ?_⟩
  · rw [adc_modAdc_same, adc_congr hadc, htaken]
  · rw [get_modAdc, writeUnit_offset c n ys (by rwa [hsize]), hsize, hoff]
  · obtain ⟨hlow, hhigh⟩ := unitBytes_get hylen (hvalue hx)
    rw [Nat.add_assoc a]
    exact ⟨(hbyte _).trans (hin _ _ hlow), (hbyte _).trans (hin _ _ hhigh)⟩
  · refine (hbyte j).trans ((hout j hj).trans ?_)
    unfold State.fenByte
    rw [hfen]
  · exact ((hcorr.trans (writeUnit_kept c n.isLt ys)).get F.ADC_STATUS_STATE rfl (by omega)).trans h2

end Unit

/-! ### The record of a run (R323, R324) -/

section Record

variable {s : State} {n : Nat} {samples : Nat} {stopped : Bool}

/-- The state that pushes a run's record: ADC_STATUS and ADC_RUN_INFO show the run's end. -/
def State.runShown (s : State) (n : Nat) (stopped : Bool) : State :=
  ((s.put F.ADC_STATUS_LAST_STOPPED n (b2n stopped)).put F.ADC_STATUS_LAST_CLIPPED n (b2n (s.adc n).clipped)).wr .ADC_RUN_INFO n
    (BitVec.ofNat 64 (s.adc n).t0)

/-- What RUN_TROUGH gets of a run that has been shown. -/
def State.recordPushed (s : State) (n : Nat) (ws : List Word) : State :=
  if 400 ≤ s.get F.ADC_CFG_RUN_TROUGH n then s.pushItem (s.get F.ADC_CFG_RUN_TROUGH n) ws else s

/-- The last steps of a run: it is shown, its record of four words is pushed, its producer raises, and the converter is IDLE. -/
theorem runRecord_steps (s : State) (n samples : Nat) (stopped : Bool) : ∃ ws : List Word, ws.length = 4 ∧
    s.runRecord n samples stopped =
      ((((s.runShown n stopped).recordPushed n ws).raiseYard (400 + 2 * n) ((s.runShown n stopped).recordPushed n ws).now).adcTo n asIdle).modAdc n
        fun b => { b with vst := none, stopAt := none, modeEnd := false } := ⟨_, rfl, rfl⟩

theorem recordPushed_kept (s : State) (n : Nat) (ws : List Word) : RunKept n s (s.recordPushed n ws) :=
  .ite ((RunKept.refl n s).pushItem (Nat.lt_of_lt_of_le (get_lt s F.ADC_CFG_RUN_TROUGH n) (by decide)) ws) (.refl n s)

theorem runShown_get (f : Fld) (hs : f.r ≠ .ADC_STATUS) (hi : f.r ≠ .ADC_RUN_INFO) : (s.runShown n stopped).get f n = s.get f n :=
  (get_wr_off _ _ _ hi).trans ((get_put_apart _ _ _ (.inl hs)).trans (get_put_apart _ _ _ (.inl hs)))

theorem runShown_regsBut (s : State) (n : Nat) (stopped : Bool) : RegsBut [(.ADC_STATUS, n), (.ADC_RUN_INFO, n)] s (s.runShown n stopped) :=
  .wr (.put (.put (.refl _ s) F.ADC_STATUS_LAST_STOPPED _ (by simp)) F.ADC_STATUS_LAST_CLIPPED _ (by simp)) _ (by simp)

theorem runShown_stopped : (s.runShown n stopped).get F.ADC_STATUS_LAST_STOPPED n = b2n stopped := by
  unfold State.runShown
  simp (disch := decide) only [get_wr_off, get_put_apart, get_put_same]
  cases stopped <;> rfl

/-- A record of four words reaches an enabled, awake trough that has room for it. -/
theorem recordPushed_vis {ws : List Word} (hws : ws.length = 4) (h400 : 400 ≤ s.get F.ADC_CFG_RUN_TROUGH n)
    (hroom : s.hasRoom (s.get F.ADC_CFG_RUN_TROUGH n) 4) :
    ((s.recordPushed n ws).trg (s.get F.ADC_CFG_RUN_TROUGH n)).vis = (s.trg (s.get F.ADC_CFG_RUN_TROUGH n)).vis + 4 := by
  unfold State.recordPushed
  rw [if_pos h400, (pushItem_visible (Nat.lt_of_lt_of_le (get_lt s F.ADC_CFG_RUN_TROUGH n) (by decide)) hroom hws.le (by omega)).1, hws]

theorem runRecord_effect (hn : n < 8) :
    (s.runRecord n samples stopped).adcSt n = 1 ∧
    ((s.runRecord n samples stopped).isOn F.ADC_STATUS_LAST_STOPPED n = true ↔ stopped = true) ∧
    (∃ e ∈ (s.runRecord n samples stopped).yard.raised, e.id = 400 + 2 * n) ∧
    (∀ m, m ≠ n → (s.runRecord n samples stopped).adc m = s.adc m) ∧
    (s.get F.ADC_CFG_RUN_TROUGH n < 400 → (s.runRecord n samples stopped).troughs = s.troughs) ∧
    (400 ≤ s.get F.ADC_CFG_RUN_TROUGH n → s.hasRoom (s.get F.ADC_CFG_RUN_TROUGH n) 4 →
      ((s.runRecord n samples stopped).trg (s.get F.ADC_CFG_RUN_TROUGH n)).vis = (s.trg (s.get F.ADC_CFG_RUN_TROUGH n)).vis + 4) := by
  obtain ⟨ws, hws, hsteps⟩ := runRecord_steps s n samples stopped
  have hpush := recordPushed_kept (s.runShown n stopped) n ws
  have hraise := hpush.raiseYard (400 + 2 * n) ((s.runShown n stopped).recordPushed n ws).now
  have htrough := runShown_get (s := s) (n := n) (stopped := stopped) F.ADC_CFG_RUN_TROUGH (by decide) (by decide)
  have hcfg : (s.runShown n stopped).rd .TRG_CFG (s.get F.ADC_CFG_RUN_TROUGH n) = s.rd .TRG_CFG (s.get F.ADC_CFG_RUN_TROUGH n) :=
    (runShown_regsBut s n stopped).rd_eq (Nat.lt_of_lt_of_le (get_lt s F.ADC_CFG_RUN_TROUGH n) (by decide)) (by simp; omega)
  rw [hsteps]
  refine ⟨(adcSt_modAdc ..).trans (adcSt_adcTo _ _ (by decide)), ?_, raiseYard_mem _ _ (decide_eq_true (by omega)), fun m hm => ?_, fun hlow => ?_, fun hhigh hroom => ?_⟩
  · have hget := (hraise.get F.ADC_STATUS_LAST_STOPPED rfl (show n < 2 ^ 20 by omega)).trans runShown_stopped
    rw [isOn_iff, get_modAdc, adcTo_get _ _ _ _ (by decide), hget]
    cases stopped <;> simp [b2n]
  · exact (adc_modAdc_other _ _ hm).trans (hraise.adc m hm)
  · refine (raiseYard_troughs ..).trans ?_
    unfold State.recordPushed
    rw [htrough, if_neg (by omega)]
    rfl
  · have hvis := recordPushed_vis hws (htrough ▸ hhigh) (htrough.symm ▸ hasRoom_congr hcfg rfl rfl hroom)
    rw [htrough] at hvis
    refine Eq.trans ?_ hvis
    exact congrArg (fun q => (Tab.get Trough.zero q (s.get F.ADC_CFG_RUN_TROUGH n)).vis) (raiseYard_troughs ..)

end Record

/-! ### ADC_RUN_END (R317, R321, R323, R324) -/

section RunEnd

/-- The state with a run's last unit written and its stray samples counted. -/
def State.lastUnit (s : State) (n : Nat) (xs : List (BitVec 14)) (stray : Nat) : State :=
  let r := s.correctRun n (if (s.adc n).dest = 1 then [] else xs)
  let t := (r.2.addSat F.ADC_COUNT_CLIP n stray).modAdc n fun b => { b with clipped := b.clipped || stray != 0 }
  if r.1 = [] then t else t.writeUnit n r.1

theorem runEnd_alone {s : State} {n : Nat} (h : (s.adc n).vst = none) (xs : List (BitVec 14)) (samples stray : Nat) (stopped : Bool) :
    s.runEnd n xs samples stray stopped = (s.lastUnit n xs stray).runRecord n samples stopped := by
  unfold State.runEnd
  dsimp only
  rw [h]
  rfl

theorem lastUnit_kept (s : State) {n : Nat} (hn : n < 8) (xs : List (BitVec 14)) (stray : Nat) : RunKept n s (s.lastUnit n xs stray) := by
  unfold State.lastUnit
  extract_lets r t
  have ht : RunKept n s t := .modAdc (.put (correctRun_kept s hn _) F.ADC_COUNT_CLIP _ rfl (by omega)) _
  exact .ite ht (ht.trans (writeUnit_kept t hn _))

theorem lastUnit_troughs (s : State) (n : Nat) (xs : List (BitVec 14)) (stray : Nat) : (s.lastUnit n xs stray).troughs = s.troughs := by
  unfold State.lastUnit
  extract_lets r t
  split
  · rfl
  · exact writeUnit_troughs t n r.1

/-- A run outside a scan ends by a stop that leaves it short of its length (Table 7.3). -/
theorem runStopped_alone {s : State} {n : Nat} (h : (s.adc n).vst = none) (k : Nat) :
    s.runStopped n k = true ↔ (s.adc n).stopAt.isSome = true ∧ ((s.adc n).len = 0 ∨ k < (s.adc n).len) := by
  unfold State.runStopped
  dsimp only
  rw [h]
  cases (s.adc n).stopAt <;> simp

variable {n : Fin 8} {xs : List (BitVec 14)} {stray : Nat} {s : State}

theorem adcRunEnd_refused (h : s.adcSt n ≠ 2 ∨ 32 ≤ xs.length) : exec (.adcRunEnd n xs stray) s = .next s := by
  change execAdcRunEnd n xs stray s = _
  unfold execAdcRunEnd asRunning
  exact congrArg _ (if_pos h)

theorem adcRunEnd_endless (h2 : s.adcSt n = 2) (hlen : xs.length < 32) (hm : (s.adc n).modeEnd = false) (hk : s.runLimit n = none) :
    exec (.adcRunEnd n xs stray) s = .next s := by
  change execAdcRunEnd n xs stray s = _
  unfold execAdcRunEnd asRunning
  dsimp only
  rw [if_neg (by omega), if_neg (by simp [hm]), hk]

theorem adcRunEnd_ends {k : Nat} (h2 : s.adcSt n = 2) (hlen : xs.length < 32) (hm : (s.adc n).modeEnd = false) (hv : (s.adc n).vst = none)
    (hk : s.runLimit n = some k) (hd : (s.adc n).dest = 1 ∨ (s.adc n).taken + xs.length = k) :
    ∃ u : State, u = { s with tb := u.tb } ∧ exec (.adcRunEnd n xs stray) s = .next ((u.lastUnit n xs stray).runRecord n k (s.runStopped n k)) := by
  refine ⟨if k = 0 then s else s.reach (sampleAt (s.adcLow n) (s.adc n).t0 (k - 1)), ?_, ?_⟩
  · split <;> rfl
  · rw [← runEnd_alone (by split <;> exact hv)]
    change execAdcRunEnd n xs stray s = _
    unfold execAdcRunEnd asRunning
    dsimp only
    rw [if_neg (by omega), if_neg (by simp [hm]), hk]
    exact congrArg _ (if_neg fun h => hd.elim h.1 h.2)

theorem adcRunEnd_effect (k : Nat) (h2 : s.adcSt n = 2) (hlen : xs.length < 32) (hm : (s.adc n).modeEnd = false) (hv : (s.adc n).vst = none)
    (hk : s.runLimit n = some k) (hd : (s.adc n).dest = 1 ∨ (s.adc n).taken + xs.length = k) :
    ∃ t, exec (.adcRunEnd n xs stray) s = .next t ∧ t.adcSt n = 1 ∧
      (t.isOn F.ADC_STATUS_LAST_STOPPED n = true ↔ (s.adc n).stopAt.isSome = true ∧ ((s.adc n).len = 0 ∨ k < (s.adc n).len)) ∧
      (∃ e ∈ t.yard.raised, e.id = 400 + 2 * n.val) ∧ (∀ m, m ≠ n.val → t.adc m = s.adc m) ∧
      (s.get F.ADC_CFG_RUN_TROUGH n < 400 → t.troughs = s.troughs) ∧
      (400 ≤ s.get F.ADC_CFG_RUN_TROUGH n → s.hasRoom (s.get F.ADC_CFG_RUN_TROUGH n) 4 →
        (t.trg (s.get F.ADC_CFG_RUN_TROUGH n)).vis = (s.trg (s.get F.ADC_CFG_RUN_TROUGH n)).vis + 4) := by
  obtain ⟨u, hu, hexec⟩ := adcRunEnd_ends (stray := stray) h2 hlen hm hv hk hd
  have hkept : RunKept n s (u.lastUnit n xs stray) :=
    RunKept.trans (t := u) (by rw [hu]; exact ⟨fun _ _ => rfl, fun _ _ => rfl, rfl⟩) (lastUnit_kept u n.isLt xs stray)
  have htroughs : (u.lastUnit n xs stray).troughs = s.troughs := (lastUnit_troughs u n xs stray).trans (by rw [hu])
  generalize u.lastUnit n xs stray = p at hexec hkept htroughs
  have hrun : p.get F.ADC_CFG_RUN_TROUGH n = s.get F.ADC_CFG_RUN_TROUGH n := hkept.get _ rfl (by omega)
  have hlt : s.get F.ADC_CFG_RUN_TROUGH n < 2 ^ 20 := (get_lt s F.ADC_CFG_RUN_TROUGH n).trans (by decide)
  have hq : p.trg (s.get F.ADC_CFG_RUN_TROUGH n) = s.trg (s.get F.ADC_CFG_RUN_TROUGH n) := congrArg (Tab.get Trough.zero · _) htroughs
  obtain ⟨hst, hstopped, hraised, hother, hlow, hhigh⟩ := runRecord_effect (s := p) (samples := k) (stopped := s.runStopped n k) n.isLt
  rw [hrun] at hlow hhigh
  exact ⟨_, hexec, hst, hstopped.trans (runStopped_alone hv k), hraised, fun m hm => (hother m hm).trans (hkept.adc m hm),
    fun h => (hlow h).trans htroughs, fun h hroom => (hhigh h (hasRoom_congr (hkept.rd rfl hlt) hkept.mode hq hroom)).trans (congrArg (·.vis + 4) hq)⟩

end RunEnd

end Sys2Proof.Machine

/-! SUPPORT. Urgent conversions (R317 to R319, R341), power (R325) and the map convergence (R314): what each command does by the converter's
state. -/

namespace Sys2Proof.Machine

section Urgent

variable {n : Fin 8} {s u : State}

/-! ### A request (R317, R319, R326) -/

/-- An urgent request of tick `t` reaches its converter. -/
def State.urgentAsked (s : State) (n : Nat) (yard : Bool) (t : Nat) : State :=
  if s.adcSt n = asOff then s
  else if (s.inHold && yard) || s.adcSt n != asIdle then s.urgentDrop n
  else (s.adcTo n asUrgent).modAdc n fun a => { a with urgent := t }

theorem urgentAsked_taken {yard : Bool} (h : s.adcSt n = 1) (hh : (s.inHold && yard) = false) (t : Nat) :
    s.urgentAsked n yard t = (s.adcTo n asUrgent).modAdc n fun a => { a with urgent := t } := by
  unfold State.urgentAsked asOff asIdle
  rw [if_neg (by omega), if_neg (by simp [h, hh])]

theorem urgentAsked_dropped {yard : Bool} (h : 0 < s.adcSt n) (hh : (s.inHold && yard) = true ∨ 1 < s.adcSt n) (t : Nat) :
    s.urgentAsked n yard t = s.urgentDrop n := by
  unfold State.urgentAsked asOff asIdle
  rw [if_neg (by omega), if_pos]
  rcases hh with hh | hh
  · simp [hh]
  · simp [show s.adcSt n ≠ 1 by omega]

theorem adcUrgentRequest_groom : exec (.adcUrgentRequest n false) s = .next (s.urgentAsked n false s.now) := rfl

theorem adcUrgentRequest_yard {tick : Nat} (h : s.isOn F.ADC_CFG_CONS_URGENT n = true) (he : s.takeEvent (304 + n) = some (tick, u)) :
    exec (.adcUrgentRequest n true) s = .next (u.urgentAsked n true tick) := by
  change execAdcUrgentRequest n true s = _
  unfold execAdcUrgentRequest
  rw [if_pos rfl, if_neg (by simp [h]), he]
  rfl

theorem adcUrgentRequest_off (h : s.adcSt n = 0) : exec (.adcUrgentRequest n false) s = .next s := congrArg Host.Outcome.next (if_pos h)

theorem adcUrgentRequest_idle (h : s.adcSt n = 1) :
    ∃ t, exec (.adcUrgentRequest n false) s = .next t ∧ t.adcSt n = 3 ∧ t.adc n = { s.adc n with urgent := s.now } ∧
      OnlyRegs [(.ADC_STATUS, n.val)] { s with adcs := t.adcs } t :=
  ⟨_, adcUrgentRequest_groom.trans (congrArg _ (urgentAsked_taken h (Bool.and_false _) _)),
    (adcSt_modAdc ..).trans (adcSt_adcTo _ _ (by decide)), adc_modAdc_same .., rfl,
    (put_onlyRegs s F.ADC_STATUS_STATE n.val asUrgent).2⟩

theorem adcUrgentRequest_busy (h : 1 < s.adcSt n) :
    ∃ t, exec (.adcUrgentRequest n false) s = .next t ∧ t.adcSt n = s.adcSt n ∧ t.adcs = s.adcs ∧
      t.get F.ADC_COUNT_URGENT_DROP n = min (s.get F.ADC_COUNT_URGENT_DROP n + 1) 65535 ∧ (∃ e ∈ t.yard.raised, e.id = 401 + 2 * n.val) :=
  ⟨_, adcUrgentRequest_groom.trans (congrArg _ (urgentAsked_dropped (by omega) (.inr h) _)), urgentDrop_get n.isLt _ (by decide) (by decide),
    (congrArg State.adcs (urgentDrop_frame s n) :), urgentDrop_count n.isLt, urgentDrop_raised n.isLt⟩

theorem adcUrgentRequest_unasked (h : s.isOn F.ADC_CFG_CONS_URGENT n = false ∨ s.takeEvent (304 + n) = none) :
    exec (.adcUrgentRequest n true) s = .next s := by
  change execAdcUrgentRequest n true s = _
  unfold execAdcUrgentRequest
  rw [if_pos rfl]
  rcases h with h | h
  · rw [if_pos (by simp [h])]
  · rw [h]
    exact congrArg _ (ite_self _)

theorem adcUrgentRequest_event (tick : Nat) (u : State) (h : s.isOn F.ADC_CFG_CONS_URGENT n = true)
    (he : s.takeEvent (304 + n) = some (tick, u)) :
    ∃ t, exec (.adcUrgentRequest n true) s = .next t ∧
      (s.adcSt n = 1 → s.inHold = false → t.adcSt n = 3 ∧ (t.adc n).urgent = tick) ∧
      (0 < s.adcSt n → s.inHold = true → t.get F.ADC_COUNT_URGENT_DROP n = min (s.get F.ADC_COUNT_URGENT_DROP n + 1) 65535) := by
  have hu := takeEvent_frame he
  have hst : u.adcSt n = s.adcSt n := by rw [← hu]; rfl
  have hhold : u.inHold = s.inHold := by rw [← hu]; rfl
  have hdrops : u.get F.ADC_COUNT_URGENT_DROP n = s.get F.ADC_COUNT_URGENT_DROP n := by rw [← hu]; rfl
  refine ⟨_, adcUrgentRequest_yard h he, fun h1 hh => ?_, fun h0 hh => ?_⟩
  · rw [urgentAsked_taken (hst.trans h1) (by rw [hhold, hh]; rfl)]
    exact ⟨(adcSt_modAdc ..).trans (adcSt_adcTo _ _ (by decide)), congrArg Adc.urgent (adc_modAdc_same ..)⟩
  · rw [urgentAsked_dropped (by omega) (.inl (by rw [hhold, hh]; rfl)), urgentDrop_count n.isLt, hdrops]

/-! ### A result, and its read (R315, R318, R341) -/

theorem adcUrgentResult_none (x : BitVec 14) (h : s.adcSt n ≠ 3) : exec (.adcUrgentResult n x) s = .next s := congrArg Host.Outcome.next (if_pos h)

/-- ADC_URGENT_RESULT as a conversion leaves it. -/
def urgentWord (y : Int) (input t : Nat) : Word := field 0 16 (unsigned 16 y) ||| field 16 3 input ||| field 19 1 1 ||| field 32 32 (t % 2 ^ 32)

theorem urgentWord_fields (y : Int) (input t : Nat) (h : input < 2 ^ 3) :
    bits (urgentWord y input t) 0 16 = unsigned 16 y ∧ bits (urgentWord y input t) 16 3 = input ∧ bits (urgentWord y input t) 19 1 = 1 := by
  have hy : unsigned 16 y < 2 ^ 16 := by
    unfold unsigned
    omega
  unfold urgentWord
  refine ⟨?_, ?_, ?_⟩
  · rw [bits_or_mask (bits_field_apart _ (by decide)), bits_or_mask (bits_field_apart _ (by decide)),
      bits_or_mask (bits_field_apart _ (by decide)), bits_field_same _ _ _ (by decide), Nat.mod_eq_of_lt hy]
  · rw [bits_or_mask (bits_field_apart _ (by decide)), bits_or_mask (bits_field_apart _ (by decide)),
      bits_or_zero (bits_field_apart _ (by decide)), bits_field_same _ _ _ (by decide), Nat.mod_eq_of_lt h]
  · rw [bits_or_mask (bits_field_apart _ (by decide)),
      bits_or_zero (by rw [bits_or_zero (bits_field_apart _ (by decide)), bits_field_apart _ (by decide)]), bits_field_same _ _ _ (by decide)]
    rfl

/-- A conversion leaves its result in ADC_URGENT_RESULT and counts a saturated one; then its producer raises and the converter is IDLE. -/
theorem adcUrgentResult_steps (x : BitVec 14) (h : s.adcSt n = 3) : ∃ (tick : Nat) (p : State),
    exec (.adcUrgentResult n x) s = .next ((p.raiseYard (400 + 2 * n) p.now).adcTo n asIdle) ∧
    p.rd .ADC_URGENT_RESULT n = urgentWord (correct (s.coef n (s.get F.ADC_CFG_URGENT_INPUT n)).1 (s.coef n (s.get F.ADC_CFG_URGENT_INPUT n)).2 x).1
      (s.get F.ADC_CFG_URGENT_INPUT n) tick := by
  have hkey : regKey .ADC_URGENT_RESULT n ≠ regKey .ADC_COUNT n := regKey_ne_of_reg (by decide) n
  refine ⟨firstSample (s.adcLow n) (s.adc n).urgent, _, congrArg Host.Outcome.next (if_neg (not_not.mpr h)), ?_⟩
  split
  · exact (rd_wr_key _ _ _ _ _ _ hkey).trans (rd_wr_same ..)
  · exact rd_wr_same ..

theorem adcUrgentResult_shown (x : BitVec 14) (h : s.adcSt n = 3) : ∃ t, exec (.adcUrgentResult n x) s = .next t ∧ t.adcSt n = 1 ∧
    t.isOn F.ADC_URGENT_RESULT_VALID n = true ∧ t.get F.ADC_URGENT_RESULT_INPUT n = s.get F.ADC_CFG_URGENT_INPUT n ∧
    (∃ e ∈ t.yard.raised, e.id = 400 + 2 * n.val) ∧
    t.get F.ADC_URGENT_RESULT_SAMPLE n = unsigned 16 (max (-8192) (min 8191 (((BitVec.toInt x +
      signed 16 (s.get F.ADC_COEF_OFFSET (7 * n.val + s.get F.ADC_CFG_URGENT_INPUT n))) *
      s.get F.ADC_COEF_GAIN (7 * n.val + s.get F.ADC_CFG_URGENT_INPUT n) + 32768) / 65536))) := by
  obtain ⟨tick, p, hexec, hword⟩ := adcUrgentResult_steps x h
  have hget (f : Fld) (hf : f.r = .ADC_URGENT_RESULT) : ((p.raiseYard (400 + 2 * n) p.now).adcTo n asIdle).get f n =
      bits (p.rd .ADC_URGENT_RESULT n) f.lo f.w := by
    rw [adcTo_get _ _ _ _ (.inl (by simp [hf])), get_raiseYard _ _ _ (by simp [hf]) (by omega), State.get, hf]
  obtain ⟨hsample, hinput, hvalid⟩ := urgentWord_fields (correct (s.coef n (s.get F.ADC_CFG_URGENT_INPUT n)).1
    (s.coef n (s.get F.ADC_CFG_URGENT_INPUT n)).2 x).1 _ tick (get_lt s F.ADC_CFG_URGENT_INPUT n)
  rw [← hword] at hsample hinput hvalid
  rw [correct_clamped] at hsample
  exact ⟨_, hexec, adcSt_adcTo _ _ (by decide), isOn_iff.mpr ((hget _ rfl).trans hvalid), (hget _ rfl).trans hinput,
    raiseYard_mem _ _ (decide_eq_true (by omega)), (hget _ rfl).trans hsample⟩

theorem urgentResultRead_effect : ∃ t, exec (.urgentResultRead n) s = .next t ∧ OnlyRegs [(.ADC_URGENT_RESULT, n.val)] { s with sent := t.sent } t ∧
    t.isOn F.ADC_URGENT_RESULT_VALID n = false ∧
    t.sent = s.sent ++ [.completion 0 0 (bytesOfNat 8 (s.rd .ADC_URGENT_RESULT n).toNat) false] := by
  refine ⟨_, rfl, ⟨rfl, (put_onlyRegs s F.ADC_URGENT_RESULT_VALID n.val 0).2⟩, isOn_eq_false_iff.mpr ?_, rfl⟩
  exact fun h => absurd ((get_put_same s F.ADC_URGENT_RESULT_VALID n 0 (by decide)).symm.trans h) (by decide)

/-! ### Waking and convergence (R314, R325) -/

theorem adcWakeComplete_wakes (h : s.adcSt n = 5) :
    ∃ t, exec (.adcWakeComplete n) s = .next t ∧ t.adcSt n = 1 ∧ OnlyRegs [(.ADC_STATUS, n.val)] s t :=
  ⟨_, congrArg Host.Outcome.next (if_pos h), adcSt_adcTo _ _ (by decide), put_onlyRegs ..⟩

theorem adcWakeComplete_awake (h : s.adcSt n ≠ 5) : exec (.adcWakeComplete n) s = .next s := congrArg Host.Outcome.next (if_neg h)

theorem mmcConverged_none (h : s.adcSt n = 0 ∨ s.adcLow n = true ∨ s.isOn F.ADC_CFG_MMC_FREEZE n = true) : exec (.mmcConverged n) s = .next s :=
  congrArg Host.Outcome.next (if_pos h)

theorem mmcConverged_shown (h0 : s.adcSt n ≠ 0) (hl : s.adcLow n = false) (hf : s.isOn F.ADC_CFG_MMC_FREEZE n = false) :
    ∃ t, exec (.mmcConverged n) s = .next t ∧ t.isOn F.ADC_STATUS_MMC_CONVERGED n = true ∧ OnlyRegs [(.ADC_STATUS, n.val)] s t :=
  ⟨_, congrArg Host.Outcome.next (if_neg (by simp [hl, hf, asOff, h0])), isOn_iff.mpr (get_put_same _ _ _ _ (by decide)), put_onlyRegs ..⟩

end Urgent

end Sys2Proof.Machine

/-! SUPPORT. Writes of ADC_CFG and ADC_BUF (R309, R325, R338, R340), field by field. -/

namespace Sys2Proof.Machine

/-! ### A write judged field by field (Table 7.2) -/

/-- A field of a word being written that must stay (`no`): where it would change it keeps its old bits, and the write is marked. -/
def keepField (old : Word) (a : Word × Bool) (lo w : Nat) (no : Bool) : Word × Bool :=
  if no && bits old lo w != bits a.1 lo w then (setBits a.1 lo w (bits old lo w), true) else a

section KeepField

variable (old : Word) (a : Word × Bool) {lo w : Nat} (no : Bool)

theorem keepField_same (h : lo + w ≤ 64) : bits (keepField old a lo w no).1 lo w = if no then bits old lo w else bits a.1 lo w := by
  unfold keepField
  split
  · next hc =>
    rw [if_pos (by simp_all), bits_setBits_same _ _ _ _ h, Nat.mod_eq_of_lt (bits_lt _ _ _)]
  · next hc =>
    cases no
    · rfl
    · have heq : bits old lo w = bits a.1 lo w := by simpa using hc
      rw [if_pos rfl, heq]

theorem keepField_apart {lo' w' : Nat} (h : lo' + w' ≤ lo ∨ lo + w ≤ lo') : bits (keepField old a lo w no).1 lo' w' = bits a.1 lo' w' := by
  unfold keepField
  split
  · exact bits_setBits_other _ _ _ _ _ _ h
  · rfl

theorem keepField_mark (h : a.2 = true) : (keepField old a lo w no).2 = true := by
  unfold keepField
  split
  · rfl
  · exact h

theorem keepField_refuses (hno : no = true) (h : bits old lo w ≠ bits a.1 lo w) : (keepField old a lo w no).2 = true := by
  unfold keepField
  rw [if_pos (by simp [hno, h])]

end KeepField

/-- ADC_CFG as a write of `v` leaves it, and whether a field was refused. -/
def State.cfgTaken (s : State) (n : Nat) (v : Word) : Word × Bool :=
  let old := s.rd .ADC_CFG n
  let new := writeFields .ADC_CFG old v allBytes
  let busy := s.adcSt n != asIdle
  keepField old (keepField old (keepField old (keepField old (keepField old (new, false) 0 3 (bits new 0 3 == 7)) 8 3 (bits new 8 3 == 7)) 3 2
    (busy || bits new 3 2 == 3)) 5 1 busy) 16 16 busy

/-- The converter follows LOWPWR: from the first flag to the second (R325). -/
def State.cfgPowered (t : State) (n : Nat) : Bool → Bool → State
  | false, true => t.put F.ADC_STATUS_LOWPWR_ACTIVE n 1
  | true, false => ((t.put F.ADC_STATUS_LOWPWR_ACTIVE n 0).put F.ADC_STATUS_MMC_CONVERGED n 0).adcTo n asWaking
  | _, _ => t

/-- ADC_CFG written, and the refusal of a field shown. -/
def State.cfgShown (s : State) (n : Nat) (v : Word) : State :=
  if (s.cfgTaken n v).2 then (s.wr .ADC_CFG n (s.cfgTaken n v).1).put F.ADC_STATUS_CFG_REJECTED n 1 else s.wr .ADC_CFG n (s.cfgTaken n v).1

theorem adcCfgWrite_exec (n : Fin 8) (v : Word) (s : State) :
    exec (.adcCfgWrite n v) s = .next ((s.cfgShown n v).cfgPowered n (bit (s.rd .ADC_CFG n) 5) (bit (s.cfgTaken n v).1 5)) := rfl

section Cfg

variable {s : State} {n : Nat} {v : Word}

theorem cfgTaken_input : bits (s.cfgTaken n v).1 0 3 = if bits v 0 3 = 7 then s.get F.ADC_CFG_INPUT n else bits v 0 3 := by
  unfold State.cfgTaken
  simp (disch := decide) only [keepField_apart, keepField_same, bits_writeFields_rw, beq_iff_eq]
  rfl

theorem cfgTaken_urgentInput : bits (s.cfgTaken n v).1 8 3 = if bits v 8 3 = 7 then s.get F.ADC_CFG_URGENT_INPUT n else bits v 8 3 := by
  unfold State.cfgTaken
  simp (disch := decide) only [keepField_apart, keepField_same, bits_writeFields_rw, beq_iff_eq]
  rfl

theorem cfgTaken_dest : bits (s.cfgTaken n v).1 3 2 = if s.adcSt n ≠ 1 ∨ bits v 3 2 = 3 then s.get F.ADC_CFG_DEST n else bits v 3 2 := by
  unfold State.cfgTaken
  simp (disch := decide) only [keepField_apart, keepField_same, bits_writeFields_rw, beq_iff_eq, Bool.or_eq_true, bne_iff_ne]
  rfl

theorem cfgTaken_lowpwr : bits (s.cfgTaken n v).1 5 1 = if s.adcSt n ≠ 1 then s.get F.ADC_CFG_LOWPWR n else bits v 5 1 := by
  unfold State.cfgTaken
  simp (disch := decide) only [keepField_apart, keepField_same, bits_writeFields_rw, bne_iff_ne]
  rfl

theorem cfgTaken_trough : bits (s.cfgTaken n v).1 16 16 = if s.adcSt n ≠ 1 then s.get F.ADC_CFG_RUN_TROUGH n else bits v 16 16 := by
  unfold State.cfgTaken
  simp (disch := decide) only [keepField_apart, keepField_same, bits_writeFields_rw, bne_iff_ne]
  rfl

theorem cfgTaken_refused (h7 : bits v 0 3 = 7) (h : s.get F.ADC_CFG_INPUT n ≠ 7) : (s.cfgTaken n v).2 = true := by
  have hnew : bits (writeFields .ADC_CFG (s.rd .ADC_CFG n) v allBytes) 0 3 = 7 := (bits_writeFields_rw _ _ (by decide) (by decide) (by decide)).trans h7
  unfold State.cfgTaken
  refine keepField_mark _ _ _ (keepField_mark _ _ _ (keepField_mark _ _ _ (keepField_mark _ _ _ (keepField_refuses _ _ _ ?_ ?_))))
  · rw [hnew]
    rfl
  · rw [hnew]
    exact h

theorem cfgShown_cfg : (s.cfgShown n v).rd .ADC_CFG n = (s.cfgTaken n v).1 := by
  unfold State.cfgShown
  split
  · exact (rd_wr_key _ _ _ _ _ _ (regKey_ne_of_reg (by decide) n)).trans (rd_wr_same ..)
  · exact rd_wr_same ..

theorem cfgShown_status (f : Fld) (hr : f.r = .ADC_STATUS) (hf : f.lo + f.w ≤ 5) : (s.cfgShown n v).get f n = s.get f n := by
  have hw := get_wr_off s (g := f) (r := .ADC_CFG) n (s.cfgTaken n v).1 (by rw [hr]; decide)
  unfold State.cfgShown
  split
  · exact (get_put_apart _ _ _ (.inr (.inl hf))).trans hw
  · exact hw

theorem cfgShown_onlyRegs (s : State) (n : Nat) (v : Word) : OnlyRegs [(.ADC_CFG, n), (.ADC_STATUS, n)] s (s.cfgShown n v) := by
  have hw : RegsBut [(.ADC_CFG, n), (.ADC_STATUS, n)] s (s.wr .ADC_CFG n (s.cfgTaken n v).1) := (RegsBut.refl _ s).wr _ (by simp)
  unfold State.cfgShown
  split
  · exact ⟨rfl, hw.put F.ADC_STATUS_CFG_REJECTED 1 (by simp)⟩
  · exact ⟨rfl, hw⟩

theorem cfgPowered_onlyRegs (t : State) (n : Nat) (a b : Bool) : OnlyRegs [(.ADC_CFG, n), (.ADC_STATUS, n)] t (t.cfgPowered n a b) := by
  cases a <;> cases b
  · exact ⟨rfl, .refl _ t⟩
  · exact ⟨rfl, .put (.refl _ t) F.ADC_STATUS_LOWPWR_ACTIVE 1 (by simp)⟩
  · exact ⟨rfl, .put (.put (.put (.refl _ t) F.ADC_STATUS_LOWPWR_ACTIVE 0 (by simp)) F.ADC_STATUS_MMC_CONVERGED 0 (by simp))
      F.ADC_STATUS_STATE asWaking (by simp)⟩
  · exact ⟨rfl, .refl _ t⟩

theorem cfgPowered_get (t : State) (n : Nat) (a b : Bool) (f : Fld) (hf : f.r ≠ .ADC_STATUS ∨ 5 ≤ f.lo) : (t.cfgPowered n a b).get f n = t.get f n := by
  have hlow (k : Nat) : (t.put F.ADC_STATUS_LOWPWR_ACTIVE n k).get f n = t.get f n :=
    get_put_apart t n k (hf.imp_right fun h => .inr (by exact Nat.le_trans (by decide) h))
  cases a <;> cases b
  · rfl
  · exact hlow 1
  · refine (adcTo_get _ _ _ _ (hf.imp_right (by omega))).trans ((get_put_apart _ n 0 (hf.imp_right .inr)).trans (hlow 0))
  · rfl

theorem cfgPowered_wakes (t : State) (n : Nat) : (t.cfgPowered n true false).adcSt n = 5 ∧ (t.cfgPowered n true false).adcLow n = false := by
  refine ⟨adcSt_adcTo _ _ (by decide), isOn_eq_false_iff.mpr ?_⟩
  unfold State.cfgPowered
  rw [adcTo_get _ _ _ _ (by decide), get_put_apart _ _ _ (by decide), get_put_same _ _ _ _ (by decide)]
  decide

theorem cfgPowered_sleeps (t : State) (n : Nat) : (t.cfgPowered n false true).adcSt n = t.adcSt n ∧ (t.cfgPowered n false true).adcLow n = true :=
  ⟨get_put_apart _ _ _ (by decide), isOn_iff.mpr (get_put_same _ _ _ _ (by decide))⟩

end Cfg

theorem OnlyRegs.trans {l : List (Reg × Nat)} {s t u : State} (h : OnlyRegs l s t) (g : OnlyRegs l t u) : OnlyRegs l s u :=
  ⟨(congrArg (fun a : State => { a with regs := s.regs }) g.1).trans h.1, h.2.trans g.2⟩

theorem adcCfgWrite_effect (n : Fin 8) (v : Word) (s : State) :
    ∃ t, exec (.adcCfgWrite n v) s = .next t ∧ OnlyRegs [(.ADC_CFG, n.val), (.ADC_STATUS, n.val)] s t ∧
      t.get F.ADC_CFG_INPUT n = (if bits v 0 3 = 7 then s.get F.ADC_CFG_INPUT n else bits v 0 3) ∧
      t.get F.ADC_CFG_URGENT_INPUT n = (if bits v 8 3 = 7 then s.get F.ADC_CFG_URGENT_INPUT n else bits v 8 3) ∧
      t.get F.ADC_CFG_DEST n = (if s.adcSt n ≠ 1 ∨ bits v 3 2 = 3 then s.get F.ADC_CFG_DEST n else bits v 3 2) ∧
      t.get F.ADC_CFG_LOWPWR n = (if s.adcSt n ≠ 1 then s.get F.ADC_CFG_LOWPWR n else bits v 5 1) ∧
      t.get F.ADC_CFG_RUN_TROUGH n = (if s.adcSt n ≠ 1 then s.get F.ADC_CFG_RUN_TROUGH n else bits v 16 16) ∧
      (bits v 0 3 = 7 → s.get F.ADC_CFG_INPUT n ≠ 7 → t.isOn F.ADC_STATUS_CFG_REJECTED n = true) ∧
      (s.adcSt n = 1 → s.get F.ADC_CFG_LOWPWR n = 1 → bit v 5 = false → t.adcSt n = 5 ∧ t.adcLow n = false) ∧
      (s.adcSt n = 1 → s.get F.ADC_CFG_LOWPWR n = 0 → bit v 5 = true → t.adcSt n = 1 ∧ t.adcLow n = true) := by
  have hcfg (f : Fld) (hf : f.r = .ADC_CFG) : ((s.cfgShown n v).cfgPowered n (bit (s.rd .ADC_CFG n) 5) (bit (s.cfgTaken n v).1 5)).get f n =
      bits (s.cfgTaken n v).1 f.lo f.w := by
    rw [cfgPowered_get _ _ _ _ _ (.inl (by simp [hf])), State.get, hf, cfgShown_cfg]
  have hold : b2n (bit (s.rd .ADC_CFG n) 5) = s.get F.ADC_CFG_LOWPWR n := (bits_one_eq_bit ..).symm
  have hnew : b2n (bit (s.cfgTaken n v).1 5) = if s.adcSt n ≠ 1 then s.get F.ADC_CFG_LOWPWR n else b2n (bit v 5) := by
    rw [← bits_one_eq_bit, ← bits_one_eq_bit, cfgTaken_lowpwr]
  refine ⟨_, adcCfgWrite_exec n v s, (cfgShown_onlyRegs s n v).trans (cfgPowered_onlyRegs ..), (hcfg _ rfl).trans cfgTaken_input,
    (hcfg _ rfl).trans cfgTaken_urgentInput, (hcfg _ rfl).trans cfgTaken_dest, (hcfg _ rfl).trans cfgTaken_lowpwr,
    (hcfg _ rfl).trans cfgTaken_trough, fun h7 h => ?_, fun h1 h hv => ?_, fun h1 h hv => ?_⟩
  · rw [isOn_iff, cfgPowered_get _ _ _ _ _ (.inr (by decide)), State.cfgShown, if_pos (cfgTaken_refused h7 h)]
    exact get_put_same _ _ _ _ (by decide)
  all_goals rw [h] at hold; rw [if_neg (not_not.mpr h1), hv] at hnew
  · rw [(by simpa [b2n] using hold : bit (s.rd .ADC_CFG n) 5 = true), (by simpa [b2n] using hnew : bit (s.cfgTaken n v).1 5 = false)]
    exact cfgPowered_wakes ..
  · rw [(by simpa [b2n] using hold : bit (s.rd .ADC_CFG n) 5 = false), (by simpa [b2n] using hnew : bit (s.cfgTaken n v).1 5 = true)]
    obtain ⟨hst, hlow⟩ := cfgPowered_sleeps (s.cfgShown n v) n
    exact ⟨hst.trans ((cfgShown_status F.ADC_STATUS_STATE rfl (by decide)).trans h1), hlow⟩

/-! ### ADC_BUF (R320, R340) -/

/-- What refuses a record buffer: a converter that is not IDLE, a base that its size does not divide, or an end past the fen. -/
theorem adcBufWrite_effect (n : Fin 8) (v : Word) (s : State) :
    ∃ t, exec (.adcBufWrite n v) s = .next t ∧ OnlyRegs [(.ADC_BUF, n.val), (.ADC_STATUS, n.val)] s t ∧
      (let no := s.adcSt n ≠ 1 ∨ bits v 16 21 * 65536 % 2 ^ bits v 0 6 ≠ 0 ∨ 0x1800000000 < bits v 16 21 * 65536 + 2 ^ bits v 0 6
       (no → t.isOn F.ADC_STATUS_CFG_REJECTED n = true ∧ t.rd .ADC_BUF n = s.rd .ADC_BUF n) ∧
       (¬ no → t.get F.ADC_BUF_BASE n = bits v 16 21 ∧ t.get F.ADC_BUF_SIZE_LOG2 n = bits v 0 6)) := by
  have hsize : bits (writeFields .ADC_BUF (s.rd .ADC_BUF n) v allBytes) 0 6 = bits v 0 6 := bits_writeFields_rw _ _ (by decide) (by decide) (by decide)
  have hbase : bits (writeFields .ADC_BUF (s.rd .ADC_BUF n) v allBytes) 16 21 = bits v 16 21 :=
    bits_writeFields_rw _ _ (by decide) (by decide) (by decide)
  have hexec : exec (.adcBufWrite n v) s = .next (
      if s.adcSt n ≠ 1 ∨ bits v 16 21 * 65536 % 2 ^ bits v 0 6 ≠ 0 ∨ 0x1800000000 < bits v 16 21 * 65536 + 2 ^ bits v 0 6 then
        s.put F.ADC_STATUS_CFG_REJECTED n 1
      else s.wr .ADC_BUF n (writeFields .ADC_BUF (s.rd .ADC_BUF n) v allBytes)) := by
    change Host.Outcome.next (s.adcBufWrite n v allBytes) = _
    unfold State.adcBufWrite fenEnd asIdle
    dsimp only
    rw [hsize, hbase]
    simp only [Bool.or_eq_true, bne_iff_ne, decide_eq_true_eq, or_assoc]
    rfl
  refine ⟨_, hexec, ?_, fun hno => ?_, fun hno => ?_⟩
  · split
    · exact ⟨rfl, (RegsBut.refl _ s).put F.ADC_STATUS_CFG_REJECTED 1 (by simp)⟩
    · exact ⟨rfl, (RegsBut.refl _ s).wr _ (by simp)⟩
  · rw [if_pos hno]
    exact ⟨isOn_iff.mpr (get_put_same _ _ _ _ (by decide)), rd_wr_key _ _ _ _ _ _ (regKey_ne_of_reg (by decide) n.val)⟩
  · rw [if_neg hno]
    unfold State.get
    rw [rd_wr_same]
    exact ⟨hbase, hsize⟩

end Sys2Proof.Machine

/-! SUPPORT. System calibration (R327, R328, R342): GO, and the end of a phase; and the statement O20. -/

namespace Sys2Proof.Machine

/-! ### GO (Table 7.9) -/

/-- The word that a GO of ADC_CAL writes: `p` its PHASE. -/
def calWord (v : Word) (p : Nat) : Word := setBits (setBits v 4 1 p) 8 1 1

/-- ADC_CAL written with a GO. -/
def State.calWritten (s : State) (n : Nat) (v : Word) (p : Nat) : State :=
  s.wr .ADC_CAL n (writeFields .ADC_CAL (s.rd .ADC_CAL n) (calWord v p) allBytes)

/-- A GO that is not taken shows its result and takes back the ZERO phase. -/
def State.calRefused (s : State) (n r : Nat) : State := ((s.modAdc n fun a => { a with zeroFor := none }).put F.ADC_CAL_RESULT n r).put F.ADC_CAL_GO n 0

section Go

variable {s : State} {n : Nat} {v : Word} {p : Nat}

theorem calWritten_get (f : Fld) (hf : f.r ≠ .ADC_CAL) : (s.calWritten n v p).get f n = s.get f n := get_wr_off s n _ hf

theorem calWritten_input : (s.calWritten n v p).get F.ADC_CAL_INPUT n = bits v 0 3 := by
  unfold State.calWritten State.get calWord
  rw [rd_wr_same, bits_writeFields_rw _ _ (by decide) (by decide) (by decide), bits_setBits_other _ _ _ _ _ _ (by decide),
    bits_setBits_other _ _ _ _ _ _ (by decide)]

theorem calWritten_phase : (s.calWritten n v p).get F.ADC_CAL_PHASE n = p % 2 := by
  unfold State.calWritten State.get calWord
  rw [rd_wr_same, bits_writeFields_rw _ _ (by decide) (by decide) (by decide), bits_setBits_other _ _ _ _ _ _ (by decide),
    bits_setBits_same _ _ _ _ (by decide), pow_one]

theorem calWritten_regsBut (s : State) (n : Nat) (v : Word) (p : Nat) {l : List (Reg × Nat)} (hl : (.ADC_CAL, n) ∈ l) : RegsBut l s (s.calWritten n v p) :=
  (RegsBut.refl l s).wr _ hl

/-- A GO that is taken begins a phase: `p` its PHASE. -/
def State.calBegun (s : State) (n : Nat) (v : Word) (p : Nat) : State :=
  (((((s.calWritten n v p).modAdc n fun a => { a with zeroFor := none }).adcTo n asCal).modAdc n fun a =>
    { a with cal := some (bits v 0 3, decide (p % 2 = 1)), start := s.now, t0 := firstSample (s.adcLow n) s.now }).put
      F.ADC_CAL_RESULT n 1).put F.ADC_CAL_GO n 1

/-- A GO by the state it finds: refused, out of order, or taken. -/
theorem adcCalWrite_go : s.adcCalWrite n (calWord v p) allBytes =
    if s.adcSt n ≠ 1 ∨ bits v 0 3 = 7 ∨ s.inHold = true then (s.calWritten n v p).calRefused n 4
    else if p % 2 = 1 ∧ (s.adc n).zeroFor ≠ some (bits v 0 3) then (s.calWritten n v p).calRefused n 6
    else s.calBegun n v p := by
  have hgo : bit (calWord v p &&& allBytes) 8 = true := by
    unfold bit calWord allBytes
    rw [BitVec.and_allOnes, getLsbD_setBits]
    rfl
  have hst : (s.calWritten n v p).adcSt n = s.adcSt n := calWritten_get _ (by decide)
  have hinput := calWritten_input (s := s) (n := n) (v := v) (p := p)
  have hphase : (s.calWritten n v p).isOn F.ADC_CAL_PHASE n = decide (p % 2 = 1) := congrArg (fun k => decide (k = 1)) calWritten_phase
  unfold State.calBegun State.calRefused
  unfold State.calWritten at hst hinput hphase ⊢
  unfold State.adcCalWrite asIdle
  dsimp only
  rw [if_neg (by simp [hgo]), hst, hinput, hphase]
  simp only [decide_eq_true_eq]
  rfl

/-- A GO refused or out of order: its result, and nothing but ADC_CAL written. -/
theorem calRefused_effect {r : Nat} (hr : r < 16) :
    ((s.calWritten n v p).calRefused n r).get F.ADC_CAL_RESULT n = r ∧ ((s.calWritten n v p).calRefused n r).adcSt n = s.adcSt n ∧
    ((s.calWritten n v p).calRefused n r).get F.ADC_CAL_GO n = 0 ∧ RegsBut [(.ADC_CAL, n)] s ((s.calWritten n v p).calRefused n r) := by
  unfold State.calRefused State.adcSt
  refine ⟨?_, ?_, get_put_same _ _ _ _ (by decide), ?_⟩
  · rw [get_put_apart _ _ _ (by decide), get_put_same _ _ _ _ (by decide)]
    exact Nat.mod_eq_of_lt hr
  · rw [get_put_apart _ _ _ (by decide), get_put_apart _ _ _ (by decide), get_modAdc, calWritten_get _ (by decide)]
  · exact .put (.put (.modAdc n _ (calWritten_regsBut s n v p (by simp))) F.ADC_CAL_RESULT r (by simp)) F.ADC_CAL_GO 0 (by simp)

/-- A GO taken: the converter is in CAL, and the phase in progress is known. -/
theorem calBegun_effect :
    (s.calBegun n v p).adcSt n = 4 ∧ (s.calBegun n v p).get F.ADC_CAL_RESULT n = 1 ∧ (s.calBegun n v p).get F.ADC_CAL_GO n = 1 ∧
    ((s.calBegun n v p).adc n).cal = some (bits v 0 3, decide (p % 2 = 1)) ∧ RegsBut [(.ADC_CAL, n), (.ADC_STATUS, n)] s (s.calBegun n v p) := by
  unfold State.calBegun
  refine ⟨?_, ?_, get_put_same _ _ _ _ (by decide), by rw [adc_put, adc_put, adc_modAdc_same], ?_⟩
  · refine (get_put_apart _ _ _ (by decide)).trans ((get_put_apart _ _ _ (by decide)).trans ?_)
    exact (adcSt_modAdc ..).trans (adcSt_adcTo _ _ (by decide))
  · exact (get_put_apart _ _ _ (by decide)).trans (get_put_same _ _ _ _ (by decide))
  · exact .put (.put (.modAdc n _ (.put (.modAdc n _ (calWritten_regsBut s n v p (by simp))) F.ADC_STATUS_STATE asCal (by simp)))
      F.ADC_CAL_RESULT 1 (by simp)) F.ADC_CAL_GO 1 (by simp)

end Go

section GoCommands

variable {n : Fin 8} {v : Word} {s : State}

/-- Both commands are a write of ADC_CAL with GO; they differ in PHASE. -/
theorem adcCal_exec {c : Instr} (hc : c = .adcCalZero n v ∨ c = .adcCalFull n v) :
    exec c s = .next (s.adcCalWrite n (calWord v (b2n (decide (c = .adcCalFull n v)))) allBytes) := by
  rcases hc with rfl | rfl
  · rw [decide_eq_false (by simp)]
    rfl
  · rw [decide_eq_true rfl]
    rfl

theorem b2n_phase (b : Bool) : (b2n b % 2 = 1) = (b = true) := by cases b <;> simp [b2n]

theorem adcCal_refused (h : s.adcSt n ≠ 1 ∨ bits v 0 3 = 7) (c : Instr) (hc : c = .adcCalZero n v ∨ c = .adcCalFull n v) :
    ∃ t, exec c s = .next t ∧ t.get F.ADC_CAL_RESULT n = 4 ∧ t.adcSt n = s.adcSt n ∧ t.get F.ADC_CAL_GO n = 0 ∧ RegsBut [(.ADC_CAL, n.val)] s t :=
  ⟨_, (adcCal_exec hc).trans (by rw [adcCalWrite_go, if_pos (h.imp_right .inl)]), calRefused_effect (by decide)⟩

theorem adcCal_begins (h1 : s.adcSt n = 1) (h7 : bits v 0 3 ≠ 7) (hh : s.inHold = false) (c : Instr)
    (hc : c = .adcCalZero n v ∨ c = .adcCalFull n v ∧ (s.adc n).zeroFor = some (bits v 0 3)) :
    ∃ t, exec c s = .next t ∧ t.adcSt n = 4 ∧ t.get F.ADC_CAL_RESULT n = 1 ∧ t.get F.ADC_CAL_GO n = 1 ∧
      (t.adc n).cal = some (bits v 0 3, decide (c = .adcCalFull n v)) ∧ RegsBut [(.ADC_CAL, n.val), (.ADC_STATUS, n.val)] s t := by
  have hpaired : ¬ (c = .adcCalFull n v ∧ (s.adc n).zeroFor ≠ some (bits v 0 3)) := by
    rintro ⟨rfl, hne⟩
    exact hc.elim (by simp) fun h => hne h.2
  obtain ⟨hst, hresult, hgo, hcal, hregs⟩ := calBegun_effect (s := s) (n := n.val) (v := v) (p := b2n (decide (c = .adcCalFull n v)))
  refine ⟨_, (adcCal_exec (hc.imp_right And.left)).trans ?_, hst, hresult, hgo, ?_, hregs⟩
  · rw [adcCalWrite_go, if_neg (by simp [h1, h7, hh]), if_neg (by rwa [b2n_phase, decide_eq_true_eq])]
  · rw [hcal]
    simp only [b2n_phase, Bool.decide_eq_true]

theorem adcCal_outOfOrder (h1 : s.adcSt n = 1) (h7 : bits v 0 3 ≠ 7) (hh : s.inHold = false) (hz : (s.adc n).zeroFor ≠ some (bits v 0 3)) :
    ∃ t, exec (.adcCalFull n v) s = .next t ∧ t.adcSt n = 1 ∧ t.get F.ADC_CAL_RESULT n = 6 ∧ RegsBut [(.ADC_CAL, n.val)] s t := by
  obtain ⟨hresult, hst, -, hregs⟩ := calRefused_effect (s := s) (n := n.val) (v := v) (p := 1) (r := 6) (by decide)
  have hexec : exec (.adcCalFull n v) s = .next (s.adcCalWrite n (calWord v 1) allBytes) := rfl
  rw [adcCalWrite_go, if_neg (by simp [h1, h7, hh]), if_pos ⟨rfl, hz⟩] at hexec
  exact ⟨_, hexec, hst.trans h1, hresult, hregs⟩

end GoCommands

/-! ### The end of a phase (R327, R328) -/

/-- A sum of samples in its range is what its register reads back as. -/
theorem signed_unsigned {i : Int} (hlo : -2 ^ 31 ≤ i) (hhi : i < 2 ^ 31) : signed 32 (unsigned 32 i) = i := by
  unfold signed unsigned
  norm_num only at *
  split <;> omega

theorem unsigned_lt (w : Nat) (i : Int) : unsigned w i < 2 ^ w := by
  have hlt := Int.emod_lt_of_pos i (b := 2 ^ w) (by positivity)
  have hnn := Int.emod_nonneg i (b := 2 ^ w) (by positivity)
  unfold unsigned
  zify
  rwa [Int.toNat_of_nonneg hnn]

/-- Where the means are not in order, or the gain does not fit, no coefficients come of them. -/
theorem calCoef_none {z f : Int} {target : Nat}
    (h : f ≤ z ∨ 0x3FFFF < (2 * ((min target 8191 : Nat) * 2 ^ 32) + (f - z)) / (2 * (f - z))) : calCoef z f target = none := by
  unfold calCoef roundDiv
  split
  · rfl
  · dsimp only
    rw [if_pos]
    have hg := h.resolve_left (by omega)
    omega

theorem calCoef_some {z f : Int} {target : Nat} (hz : z < f)
    (h : (2 * ((min target 8191 : Nat) * 2 ^ 32) + (f - z)) / (2 * (f - z)) ≤ 0x3FFFF) :
    calCoef z f target = some (-((2 * z + 65536) / 131072), ((2 * ((min target 8191 : Nat) * 2 ^ 32) + (f - z)) / (2 * (f - z))).toNat) := by
  unfold calCoef roundDiv
  rw [if_neg (by omega)]
  dsimp only
  rw [if_neg (by omega)]
  norm_num

section PhaseEnd

variable {n : Fin 8} {sum : Int} {s : State}

theorem adcCalPhaseEnd_none (h : (s.adc n).cal = none ∨ s.adcSt n ≠ 4) : exec (.adcCalPhaseEnd n sum) s = .next s := by
  change execAdcCalPhaseEnd n sum s = _
  unfold execAdcCalPhaseEnd
  split
  · rfl
  · next hcal => exact congrArg _ (if_pos (h.resolve_left (by simp [hcal])))

/-- The state in which a phase ends: the time of its last sample is reached. -/
def State.calReached (s : State) (n : Nat) : State := s.reach (Machine.sampleAt (s.adcLow n) (s.adc n).t0 65535)

theorem adcCalPhaseEnd_zeroExec {i : Nat} (hcal : (s.adc n).cal = some (i, false)) (h4 : s.adcSt n = 4) : exec (.adcCalPhaseEnd n sum) s =
    .next ((((s.calReached n).put F.ADC_CAL_MEAN_ZERO n (unsigned 32 sum)).calDone n 2).modAdc n fun a => { a with zeroFor := some i }) := by
  change execAdcCalPhaseEnd n sum s = _
  unfold execAdcCalPhaseEnd
  rw [hcal]
  exact congrArg _ (if_neg (not_not.mpr h4))

theorem adcCalPhaseEnd_fullExec {i : Nat} (hcal : (s.adc n).cal = some (i, true)) (h4 : s.adcSt n = 4) : exec (.adcCalPhaseEnd n sum) s =
    .next (match calCoef (signed 32 (s.get F.ADC_CAL_MEAN_ZERO n)) (signed 32 (unsigned 32 sum)) (s.get F.ADC_CAL_CAL_TARGET n) with
      | none => ((s.calReached n).put F.ADC_CAL_MEAN_FULL n (unsigned 32 sum)).calDone n 5
      | some (o, g) => (((s.calReached n).put F.ADC_CAL_MEAN_FULL n (unsigned 32 sum)).put F.ADC_COEF_OFFSET (7 * n.val + i) (unsigned 16 o)).put
          F.ADC_COEF_GAIN (7 * n.val + i) g |>.calDone n 3) := by
  change execAdcCalPhaseEnd n sum s = _
  unfold execAdcCalPhaseEnd
  rw [hcal]
  exact congrArg _ (if_neg (not_not.mpr h4))

/-- What the last step of a phase shows. -/
theorem calDone_effect (t : State) (m : Nat) {r : Nat} (hr : r < 16) : (t.calDone m r).adcSt m = 1 ∧ (t.calDone m r).get F.ADC_CAL_RESULT m = r ∧
    (t.calDone m r).get F.ADC_CAL_GO m = 0 ∧ RegsBut [(.ADC_CAL, m), (.ADC_STATUS, m)] t (t.calDone m r) := by
  unfold State.calDone
  refine ⟨(adcSt_modAdc ..).trans (adcSt_adcTo _ _ (by decide)), ?_, ?_, ?_⟩
  · rw [get_modAdc, adcTo_get _ _ _ _ (by decide), get_put_apart _ _ _ (by decide), get_put_same _ _ _ _ (by decide)]
    exact Nat.mod_eq_of_lt hr
  · rw [get_modAdc, adcTo_get _ _ _ _ (by decide), get_put_same _ _ _ _ (by decide)]
    rfl
  · exact .modAdc m _ (.put (.put (.put (.refl _ t) F.ADC_CAL_RESULT r (by simp)) F.ADC_CAL_GO 0 (by simp)) F.ADC_STATUS_STATE asIdle (by simp))

theorem adcCalPhaseEnd_zero (i : Nat) (hcal : (s.adc n).cal = some (i, false)) (h4 : s.adcSt n = 4) :
    ∃ t, exec (.adcCalPhaseEnd n sum) s = .next t ∧ t.adcSt n = 1 ∧ t.get F.ADC_CAL_RESULT n = 2 ∧ t.get F.ADC_CAL_GO n = 0 ∧
      t.get F.ADC_CAL_MEAN_ZERO n = unsigned 32 sum ∧ (t.adc n).zeroFor = some i := by
  obtain ⟨hst, hresult, hgo, hregs⟩ := calDone_effect ((s.calReached n).put F.ADC_CAL_MEAN_ZERO n (unsigned 32 sum)) n.val (r := 2) (by decide)
  refine ⟨_, adcCalPhaseEnd_zeroExec hcal h4, hst, hresult, hgo, (hregs.get_eq _ (by omega) (by simp; omega)).trans ?_,
    congrArg Adc.zeroFor (adc_modAdc_same ..)⟩
  exact (get_put_same _ _ _ _ (by decide)).trans (Nat.mod_eq_of_lt (unsigned_lt 32 sum))

theorem adcCalPhaseEnd_full (i : Nat) (hcal : (s.adc n).cal = some (i, true)) (hi : i < 7) (h4 : s.adcSt n = 4) (hlo : -2 ^ 31 ≤ sum)
    (hhi : sum < 2 ^ 31) :
    ∃ t, exec (.adcCalPhaseEnd n sum) s = .next t ∧ t.adcSt n = 1 ∧ t.get F.ADC_CAL_MEAN_FULL n = unsigned 32 sum ∧
      (let z := signed 32 (s.get F.ADC_CAL_MEAN_ZERO n)
       let g := (2 * (min (s.get F.ADC_CAL_CAL_TARGET n) 8191 * 2 ^ 32) + (sum - z)) / (2 * (sum - z))
       (sum ≤ z ∨ 0x3FFFF < g → t.get F.ADC_CAL_RESULT n = 5 ∧ t.rd .ADC_COEF (7 * n.val + i) = s.rd .ADC_COEF (7 * n.val + i)) ∧
       (z < sum → g ≤ 0x3FFFF → t.get F.ADC_CAL_RESULT n = 3 ∧ t.get F.ADC_COEF_GAIN (7 * n.val + i) = g.toNat ∧
         t.get F.ADC_COEF_OFFSET (7 * n.val + i) = unsigned 16 (-((2 * z + 65536) / 131072)))) := by
  have hexec := adcCalPhaseEnd_fullExec (sum := sum) hcal h4
  have hidx : 7 * n.val + i < 2 ^ 20 := by omega
  rw [signed_unsigned hlo hhi] at hexec
  have hmean : ((s.calReached n).put F.ADC_CAL_MEAN_FULL n (unsigned 32 sum)).get F.ADC_CAL_MEAN_FULL n = unsigned 32 sum :=
    (get_put_same _ _ _ _ (by decide)).trans (Nat.mod_eq_of_lt (unsigned_lt 32 sum))
  by_cases hbad : sum ≤ signed 32 (s.get F.ADC_CAL_MEAN_ZERO n) ∨ 0x3FFFF <
      (2 * ((min (s.get F.ADC_CAL_CAL_TARGET n) 8191 : Nat) * 2 ^ 32) + (sum - signed 32 (s.get F.ADC_CAL_MEAN_ZERO n))) /
        (2 * (sum - signed 32 (s.get F.ADC_CAL_MEAN_ZERO n)))
  · rw [calCoef_none hbad] at hexec
    obtain ⟨hst, hresult, -, hregs⟩ := calDone_effect ((s.calReached n).put F.ADC_CAL_MEAN_FULL n (unsigned 32 sum)) n.val (r := 5) (by decide)
    refine ⟨_, hexec, hst, (hregs.get_eq _ (by omega) (by simp; omega)).trans hmean, fun _ => ⟨hresult, ?_⟩, fun hz hg => ?_⟩
    · exact (hregs.rd_eq hidx (by simp; omega)).trans (rd_wr_reg _ _ (by decide) (by omega) hidx)
    · exact absurd hbad (by omega)
  · rw [calCoef_some (by omega) (by omega)] at hexec
    obtain ⟨hst, hresult, -, hregs⟩ := calDone_effect _ n.val (r := 3) (by decide)
    refine ⟨_, hexec, hst, ?_, fun h => absurd h hbad, fun hz hg => ⟨hresult, ?_, ?_⟩⟩
    · refine (hregs.get_eq _ (by omega) (by simp; omega)).trans (Eq.trans ?_ hmean)
      exact (get_put_reg _ _ _ _ _ _ (by decide) hidx (by omega)).trans (get_put_reg _ _ _ _ _ _ (by decide) hidx (by omega))
    · refine (hregs.get_eq _ hidx (by simp; omega)).trans ((get_put_same _ _ _ _ (by decide)).trans ?_)
      exact Nat.mod_eq_of_lt (by change Int.toNat _ < 2 ^ 18; omega)
    · refine (hregs.get_eq _ hidx (by simp; omega)).trans ((get_put_apart _ _ _ (by decide)).trans ?_)
      exact (get_put_same _ _ _ _ (by decide)).trans (Nat.mod_eq_of_lt (unsigned_lt 16 _))

end PhaseEnd

/-! ### The statement O20 -/

/-- Settles O20 (R309 to R328, R337 to R343): starts and stops, units and run ends, urgent conversions, configuration, power and calibration. -/
theorem convertersStartRecordConvertAndCalibrateByTheirTables : Obligations.ConvertersStartRecordConvertAndCalibrateByTheirTables := by
  refine ⟨fun n s hv => ⟨adcCtrlStart_off hv, adcCtrlStart_begins hv, fun h => adcCtrlStart_ignored hv (startOne_ignored _ _ h),
      fun h2 hh ha => adcCtrlStart_ignored hv (startOne_running _ _ h2 hh ha), adcCtrlStart_badBuffer hv, adcCtrlStart_urgent hv,
      adcYardStart_refused hv, fun tick u h he h1 hh hb hl => adcYardStart_begins hv h he h1 hh hb hl, adcCtrlStop_still hv, adcCtrlStop_running hv⟩,
    adcCntClear_effect, fun mask s hs hh => ⟨adcGlobalStart_effect mask hs hh, adcGlobalStop_effect mask hs⟩,
    fun n xs s => ⟨adcUnitCommit_refused, adcUnitCommit_stores⟩, fun n xs stray s => ⟨adcRunEnd_refused, adcRunEnd_endless, adcRunEnd_effect⟩,
    fun n s => ⟨adcUrgentRequest_off, adcUrgentRequest_idle, adcUrgentRequest_busy, adcUrgentRequest_unasked, adcUrgentRequest_event,
      adcUrgentResult_none, adcUrgentResult_shown, urgentResultRead_effect, adcWakeComplete_wakes, adcWakeComplete_awake, mmcConverged_none,
      mmcConverged_shown⟩,
    fun n v s => ⟨adcCfgWrite_effect n v s, adcBufWrite_effect n v s, adcCal_refused, adcCal_begins, adcCal_outOfOrder⟩,
    fun n sum s => ⟨adcCalPhaseEnd_none, adcCalPhaseEnd_zero, adcCalPhaseEnd_full⟩⟩

end Sys2Proof.Machine

/-! SUPPORT. Virtual stalls enabled and disabled (R329, R335), and the start of a frame (R334). -/

namespace Sys2Proof.Machine

/-! ### A write of VST_CFG (R329, Table 7.10) -/

/-- VST_CFG of a disabled virtual stall as a write of `w` leaves it, ENABLE still 0. -/
def State.vstConfigured (s : State) (v : Nat) (w : Word) : State :=
  s.wr .VST_CFG v (setBits (writeFields .VST_CFG (s.rd .VST_CFG v) w allBytes) 14 1 0)

/-- A virtual stall that is enabled is UP, its scan not begun, and its frame memory is that of none. -/
def State.vstEnabled (s : State) (v : Nat) : State :=
  let t := ((s.put F.VST_CFG_ENABLE v 1).put F.VST_STATUS_STATE v 1).modVst v fun _ => Vst.zero
  (t.raiseYard (64 + 4 * (16 + v) + 2) t.now).modStall (16 + v) fun x => { x with ref := none, skip := none, gapPend := false }

/-- An idle virtual stall that is disabled is DISABLED, and holds no frame back. -/
def State.vstDisabled (s : State) (v : Nat) : State :=
  let t := (s.put F.VST_CFG_ENABLE v 0).put F.VST_STATUS_STATE v 0
  (t.raiseYard (64 + 4 * (16 + v) + 3) t.now).modStall (16 + v) fun x => { x with held := none, heldPkts := [] }

section Cfg

variable {s : State} {v : Nat} {w : Word}

theorem vstOn_eq_bit (s : State) (v : Nat) : s.vstOn v = bit (s.rd .VST_CFG v) 14 := (bit_eq_isOn s .VST_CFG 14 v).symm

theorem bit_cfgWritten (old w : Word) : bit (writeFields .VST_CFG old w allBytes) 14 = bit w 14 :=
  getLsbD_writeFields (f := ⟨14, 1, .rw⟩) (by decide) (by decide) old w (by decide) (by decide) (by decide)

theorem vstCfgWrite_off (h : s.vstOn v = false) : s.vstCfgWrite v w allBytes =
    if bit w 14 = false then s.vstConfigured v w
    else if (s.vstConfigured v w).vstRefused v then (s.vstConfigured v w).put F.VST_STATUS_CFG_REJECTED v 1
    else (s.vstConfigured v w).vstEnabled v := by
  rw [vstOn_eq_bit] at h
  unfold State.vstCfgWrite
  dsimp only
  rw [if_neg (by simp [h]), bit_cfgWritten]
  cases bit w 14 <;> rfl

/-- An enabled virtual stall takes ENABLE alone: another change is refused (R329). -/
theorem vstCfgWrite_on (h : s.vstOn v = true) : ∃ t, OnlyRegs [(.VST_STATUS, v)] s t ∧
    s.vstCfgWrite v w allBytes = if bit w 14 then t else t.vstDisable v := by
  rw [vstOn_eq_bit] at h
  unfold State.vstCfgWrite
  dsimp only
  rw [if_pos h, bit_cfgWritten]
  refine ⟨_, ?_, rfl⟩
  split
  · exact ⟨rfl, .refl _ s⟩
  · exact put_onlyRegs s F.VST_STATUS_CFG_REJECTED v 1

theorem vstConfigured_off : (s.vstConfigured v w).vstOn v = false := by
  unfold State.vstConfigured
  rw [vstOn_eq_bit, rd_wr_same, bit_setBits_same _ _ (by decide)]
  rfl

theorem vstConfigured_members : (s.vstConfigured v w).get F.VST_CFG_MEMBERS v = bits w 0 8 := by
  unfold State.vstConfigured State.get
  rw [rd_wr_same, bits_setBits_other _ _ _ _ _ _ (by decide), bits_writeFields_rw _ _ (by decide) (by decide) (by decide)]

theorem vstEnabled_effect (hv : v < 4) :
    (s.vstEnabled v).get F.VST_CFG_MEMBERS v = s.get F.VST_CFG_MEMBERS v ∧ (s.vstEnabled v).vstOn v = true ∧
    (s.vstEnabled v).get F.VST_STATUS_STATE v = 1 ∧ (s.vstEnabled v).vst v = Vst.zero ∧
    (∃ e ∈ (s.vstEnabled v).yard.raised, e.id = 64 + 4 * (16 + v) + 2) ∧ (s.vstEnabled v).adcs = s.adcs ∧ (s.vstEnabled v).ctxs = s.ctxs := by
  have hget (f : Fld) (hf : f.r ≠ .YARD_GLOBAL) : (s.vstEnabled v).get f v = ((s.put F.VST_CFG_ENABLE v 1).put F.VST_STATUS_STATE v 1).get f v :=
    get_raiseYard _ _ _ hf (by omega)
  refine ⟨?_, isOn_iff.mpr ?_, ?_, ?_, raiseYard_mem _ _ (decide_eq_true (by omega)), raiseYard_adcs .., raiseYard_ctxs ..⟩
  · rw [hget _ (by decide), get_put_apart _ _ _ (by decide), get_put_apart _ _ _ (by decide)]
  · rw [hget _ (by decide), get_put_apart _ _ _ (by decide), get_put_same _ _ _ _ (by decide)]
    rfl
  · rw [hget _ (by decide), get_put_same _ _ _ _ (by decide)]
    rfl
  · exact (vst_congr (raiseYard_vsts ..) v).trans (vst_modVst_same ..)

theorem vstDisabled_effect (hv : v < 4) :
    (s.vstDisabled v).vstOn v = false ∧ (s.vstDisabled v).get F.VST_STATUS_STATE v = 0 ∧
    (∃ e ∈ (s.vstDisabled v).yard.raised, e.id = 64 + 4 * (16 + v) + 3) ∧ (s.vstDisabled v).adcs = s.adcs ∧ (s.vstDisabled v).ctxs = s.ctxs := by
  have hget (f : Fld) (hf : f.r ≠ .YARD_GLOBAL) : (s.vstDisabled v).get f v = ((s.put F.VST_CFG_ENABLE v 0).put F.VST_STATUS_STATE v 0).get f v :=
    get_raiseYard _ _ _ hf (by omega)
  refine ⟨isOn_eq_false_iff.mpr ?_, ?_, raiseYard_mem _ _ (decide_eq_true (by omega)), raiseYard_adcs .., raiseYard_ctxs ..⟩
  · rw [hget _ (by decide), get_put_apart _ _ _ (by decide), get_put_same _ _ _ _ (by decide)]
    decide
  · rw [hget _ (by decide), get_put_same _ _ _ _ (by decide)]
    rfl

theorem vstClose_shut (h : (s.vst v).frameOpen = false) (bad : Bool) : s.vstClose v bad = s := if_neg (by simp [h])

theorem adcStop_still {n : Nat} (h : s.adcSt n ≠ 2) (tick : Nat) : s.adcStop n tick = s := by
  unfold State.adcStop
  split
  · rw [if_neg fun hl => h hl.2, stopOne_still _ h]
  · exact stopOne_still _ h

/-- Disabling with no frame open and no run that a stop would end. -/
theorem vstDisable_idle (hf : (s.vst v).frameOpen = false) (hn : ∀ n, s.vstLead v = some n → s.vstOf n = some v → s.adcSt n ≠ 2) :
    s.vstDisable v = s.vstDisabled v := by
  unfold State.vstDisable
  dsimp only
  cases hlead : s.vstLead v with
  | none =>
    dsimp only
    rw [vstClose_shut hf]
    rfl
  | some n =>
    have hstop : (if s.vstOf n = some v then s.adcStop n (s.now - 1600) else s) = s := by
      split
      · next ho => exact adcStop_still (hn n hlead ho) _
      · rfl
    dsimp only
    rw [hstop, vstClose_shut hf]
    rfl

end Cfg

/-! ### VST_ENABLE and VST_DISABLE (R329, R335) -/

section Commands

variable (v : Fin 4) (w : Word) {s : State}

theorem bit_enabling (w : Word) : bit (setBits w 14 1 1) 14 = true := bit_setBits_same w 1 (by decide)

theorem bit_disabling (w : Word) : bit (setBits w 14 1 0) 14 = false := bit_setBits_same w 0 (by decide)

theorem vstEnable_off (h : s.vstOn v = false) :
    (let s1 := s.wr .VST_CFG v (setBits (writeFields .VST_CFG (s.rd .VST_CFG v) (setBits w 14 1 1) allBytes) 14 1 0)
     ∃ t, exec (.vstEnable v w) s = .next t ∧ t.get F.VST_CFG_MEMBERS v = bits w 0 8 ∧
      (s1.vstRefused v = true → t.vstOn v = false ∧ t.isOn F.VST_STATUS_CFG_REJECTED v = true ∧
        OnlyRegs [(.VST_CFG, v.val), (.VST_STATUS, v.val)] s t) ∧
      (s1.vstRefused v = false → t.vstOn v = true ∧ t.get F.VST_STATUS_STATE v = 1 ∧ t.vst v = Vst.zero ∧
        (∃ e ∈ t.yard.raised, e.id = 64 + 4 * (16 + v.val) + 2) ∧ t.adcs = s.adcs ∧ t.ctxs = s.ctxs)) := by
  change ∃ t, _ ∧ _ ∧ ((s.vstConfigured v (setBits w 14 1 1)).vstRefused v = true → _) ∧
    ((s.vstConfigured v (setBits w 14 1 1)).vstRefused v = false → _)
  have hexec : exec (.vstEnable v w) s = .next (s.vstCfgWrite v (setBits w 14 1 1) allBytes) := rfl
  have hmembers := vstConfigured_members (s := s) (v := v.val) (w := setBits w 14 1 1)
  rw [bits_setBits_other _ _ _ _ _ _ (by decide)] at hmembers
  rw [vstCfgWrite_off h, if_neg (by rw [bit_enabling]; decide)] at hexec
  cases hr : (s.vstConfigured v (setBits w 14 1 1)).vstRefused v with
  | true =>
    rw [if_pos hr] at hexec
    refine ⟨_, hexec, (get_put_apart _ _ _ (by decide)).trans hmembers, fun _ => ⟨?_, isOn_iff.mpr (get_put_same _ _ _ _ (by decide)), rfl, ?_⟩,
      fun h => absurd h (by decide)⟩
    · exact (isOn_congr (get_put_apart _ _ _ (by decide))).trans vstConfigured_off
    · exact .put (.wr (.refl _ s) _ (by simp)) F.VST_STATUS_CFG_REJECTED 1 (by simp)
  | false =>
    rw [if_neg (by simp [hr])] at hexec
    obtain ⟨hkept, hrest⟩ := vstEnabled_effect (s := s.vstConfigured v (setBits w 14 1 1)) v.isLt
    exact ⟨_, hexec, hkept.trans hmembers, fun h => absurd h (by decide), fun _ => hrest⟩

theorem vstEnable_on (h : s.vstOn v = true) : ∃ t, exec (.vstEnable v w) s = .next t ∧ t.vstOn v = true ∧ OnlyRegs [(.VST_STATUS, v.val)] s t := by
  obtain ⟨t, ht, hwrite⟩ := vstCfgWrite_on (w := setBits w 14 1 1) h
  refine ⟨t, congrArg Host.Outcome.next (hwrite.trans (if_pos (bit_enabling w))), ?_, ht⟩
  exact (isOn_congr (ht.2.get_eq F.VST_CFG_ENABLE (by omega) (by simp; omega))).trans h

theorem vstDisable_off (h : s.vstOn v = false) : ∃ t, exec (.vstDisable v w) s = .next t ∧ t.vstOn v = false ∧ OnlyRegs [(.VST_CFG, v.val)] s t :=
  ⟨_, congrArg Host.Outcome.next ((vstCfgWrite_off h).trans (if_pos (bit_disabling w))), vstConfigured_off, wr_onlyRegs ..⟩

theorem vstDisable_on (h : s.vstOn v = true) (hf : (s.vst v).frameOpen = false)
    (hn : ∀ n, s.vstLead v = some n → s.vstOf n = some v → s.adcSt n ≠ 2) :
    ∃ t, exec (.vstDisable v w) s = .next t ∧ t.vstOn v = false ∧ t.get F.VST_STATUS_STATE v = 0 ∧
      (∃ e ∈ t.yard.raised, e.id = 64 + 4 * (16 + v.val) + 3) ∧ t.adcs = s.adcs ∧ t.ctxs = s.ctxs := by
  obtain ⟨u, ⟨hframe, hregs⟩, hwrite⟩ := vstCfgWrite_on (w := setBits w 14 1 0) h
  have hcfg (k : Nat) (hk : k < 4) : u.rd .VST_CFG k = s.rd .VST_CFG k := hregs.rd_eq (by omega) (by simp; omega)
  have hlead : u.vstLead v = s.vstLead v := by
    unfold State.vstLead State.vstMembers
    rw [hcfg v v.isLt]
  have hidle : u.vstDisable v = u.vstDisabled v := by
    refine vstDisable_idle ((congrArg Vst.frameOpen (vst_congr (congrArg State.vsts hframe :) v)).trans hf) fun n hl ho => ?_
    have hn8 : n < 8 := by
      have hmem := List.mem_of_mem_head? (hlead.symm.trans hl)
      unfold State.vstMembers at hmem
      exact List.mem_range.mp (List.mem_filter.mp hmem).1
    rw [State.adcSt, hregs.get_eq F.ADC_STATUS_STATE (by omega) (by simp; omega)]
    exact hn n (hlead.symm.trans hl) ((vstOf_congr hcfg n).symm.trans ho)
  obtain ⟨hoff, hstate, hraised, hadcs, hctxs⟩ := vstDisabled_effect (s := u) v.isLt
  refine ⟨_, congrArg Host.Outcome.next (hwrite.trans ((if_neg (by simp [bit_disabling])).trans hidle)), hoff, hstate, hraised,
    hadcs.trans (congrArg State.adcs hframe :), hctxs.trans (congrArg State.ctxs hframe :)⟩

end Commands

/-! ### Whether the scan goes on (R331, R335) -/

section Scanning

variable {s : State} {v : Nat}

theorem scanning_stopped (h : s.get F.VST_STATUS_STATE v ≠ 2) (e : Nat) : s.scanning v e = false := by
  unfold State.scanning
  simp [h]

theorem scanning_endless (h : s.get F.VST_STATUS_STATE v = 2) (he : (s.vst v).ending = none) (hm : ∀ n ∈ s.vstMembers v, (s.adc n).modeEnd = false)
    (e : Nat) : s.scanning v e = true := by
  have hany : ((s.vstMembers v).any fun n => (s.adc n).modeEnd) = false := List.any_eq_false.mpr fun n hn => by simp [hm n hn]
  unfold State.scanning
  rw [hany, he, h]
  rfl

end Scanning

/-! ### VST_FRAME_START (R334) -/

section FrameStart

variable {v : Fin 4} {s : State}

theorem vstFrameStart_none (h : s.get F.VST_STATUS_STATE v ≠ 2 ∨ (s.vst v).frameOpen = true) : exec (.vstFrameStart v) s = .next s := by
  refine congrArg Host.Outcome.next (if_pos ?_)
  rcases h with h | h
  · rw [scanning_stopped h]
    rfl
  · rw [h]
    simp

/-- A virtual stall's part in the start of a frame. -/
def Vst.frameBegun (y : Vst) : Vst := { y with nextId := (y.nextId + 1) % 2 ^ 32, frameOpen := true, line := [] }

/-- The state with a frame begun: the next FRAME_ID is used, shown and counted. -/
def State.vstBegun (s : State) (v : Nat) : State :=
  ((s.modVst v Vst.frameBegun).incWrap F.VST_COUNT_FRAMES v).put
    F.VST_STATUS_LAST_FRAME_ID v (s.vst v).nextId

theorem vstBegun_effect (s : State) (v : Nat) :
    ((s.vstBegun v).vst v).frameOpen = true ∧ ((s.vstBegun v).vst v).nextId = ((s.vst v).nextId + 1) % 2 ^ 32 ∧
    (s.vstBegun v).get F.VST_STATUS_LAST_FRAME_ID v = (s.vst v).nextId % 2 ^ 32 ∧
    (s.vstBegun v).get F.VST_COUNT_FRAMES v = (s.get F.VST_COUNT_FRAMES v + 1) % 2 ^ 32 := by
  have hvst : (s.vstBegun v).vst v = (s.vst v).frameBegun := vst_modVst_same s v Vst.frameBegun
  refine ⟨by rw [hvst]; rfl, by rw [hvst]; rfl, get_put_same _ F.VST_STATUS_LAST_FRAME_ID _ _ (by decide), ?_⟩
  unfold State.vstBegun
  rw [get_put_apart _ _ _ (by decide), get_incWrap_same _ _ (by decide), get_modVst]

theorem vstBegun_regsBut (s : State) (v : Nat) : RegsBut [(.VST_COUNT, v), (.VST_STATUS, v)] s (s.vstBegun v) :=
  .put (.put (.refl _ s) F.VST_COUNT_FRAMES _ (by simp)) F.VST_STATUS_LAST_FRAME_ID _ (by simp)

theorem vstBegun_ctxOfStall (s : State) {v : Nat} (hv : v < 4) (n : Nat) : (s.vstBegun v).ctxOfStall n = s.ctxOfStall n := by
  unfold State.ctxOfStall
  refine List.find?_congr fun c hc => ?_
  have hlt := List.mem_range.mp hc
  have hon : (s.vstBegun v).ctxOn c = s.ctxOn c :=
    isOn_congr ((vstBegun_regsBut s v).get_eq F.CTX_CTRL_ENABLE (by omega) (by simp; omega))
  have hactive : (s.vstBegun v).active c = s.active c := by
    unfold State.active
    rw [(vstBegun_regsBut s v).get_eq F.CTX_STATUS_ACTIVE_COPY (by omega) (by simp; omega)]
    rfl
  rw [hon, hactive]

/-- A stall without a context discards the frame and remembers its number. -/
theorem vstFrameStart_discarded (h2 : s.get F.VST_STATUS_STATE v = 2) (hf : (s.vst v).frameOpen = false) (hpx : (s.vst v).px = 0)
    (he : (s.vst v).ending = none) (hframes : s.get F.VST_GEOM_FRAMES v = 0) (hm : ∀ n, (s.adc n).modeEnd = false)
    (hframe : (s.stall (16 + v)).frame = none) (hctx : s.ctxOfStall (16 + v) = none) :
    ∃ p, exec (.vstFrameStart v) s = .next (((s.reach p).vstBegun v).modStall (16 + v) fun x => { x with skip := some ((s.vst v).nextId % 256, false) }) := by
  let p := if s.isOn F.VST_CFG_TIMING v then (s.vst v).began else s.pixelAt v (s.vst v).px
  have hclose : (s.reach p).closeFrame (16 + v) true = s.reach p := closeFrame_none (s.reach p) (openFrame_of_none hframe) true
  have hnone : (((s.reach p).vstBegun v).stall (16 + v)).frame = none := hframe
  refine ⟨p, ?_⟩
  change execVstFrameStart v s = _
  unfold execVstFrameStart
  dsimp only
  rw [if_neg (by simp [scanning_endless h2 he fun n _ => hm n, hf, hpx, hframes]), hclose]
  refine congrArg Host.Outcome.next ((if_neg (c := (((s.reach p).vstBegun v).stall (16 + v)).frame.isSome = true) (by simp [hnone])).trans ?_)
  refine (judgeFrame_discards (u := (s.reach p).vstBegun v) (.inl ((vstBegun_ctxOfStall (s.reach p) v.isLt _).trans hctx))).trans ?_
  unfold State.fsDiscard State.stAdd
  rw [if_neg (by omega)]

theorem vstFrameStart_effect (h2 : s.get F.VST_STATUS_STATE v = 2) (hf : (s.vst v).frameOpen = false) (hpx : (s.vst v).px = 0)
    (he : (s.vst v).ending = none) (hframes : s.get F.VST_GEOM_FRAMES v = 0) (hm : ∀ n, (s.adc n).modeEnd = false)
    (hframe : (s.stall (16 + v)).frame = none) (hctx : s.ctxOfStall (16 + v) = none) :
    ∃ t, exec (.vstFrameStart v) s = .next t ∧ (t.vst v).frameOpen = true ∧ (t.vst v).nextId = ((s.vst v).nextId + 1) % 2 ^ 32 ∧
      t.get F.VST_STATUS_LAST_FRAME_ID v = (s.vst v).nextId % 2 ^ 32 ∧
      t.get F.VST_COUNT_FRAMES v = (s.get F.VST_COUNT_FRAMES v + 1) % 2 ^ 32 ∧
      (t.stall (16 + v)).skip = some ((s.vst v).nextId % 256, false) ∧ t.adcs = s.adcs := by
  obtain ⟨p, hexec⟩ := vstFrameStart_discarded h2 hf hpx he hframes hm hframe hctx
  obtain ⟨hopen, hid, hlast, hcount⟩ := vstBegun_effect (s.reach p) v
  refine ⟨_, hexec, hopen, hid, hlast, hcount, ?_, rfl⟩
  rw [stall_modStall_same]

end FrameStart

end Sys2Proof.Machine

/-! SUPPORT. A pixel of a virtual stall with one member (R332, R333), and the dwell without a boundary (R332). -/

namespace Sys2Proof.Machine

/-! ### The value of a pixel (R333) -/

/-- With offset 0 and gain 1 a sample is its own corrected value (R315). -/
theorem correct_identity (x : BitVec 14) : (correct 0 65536 x).1 = x.toInt := by
  have hlo := BitVec.le_toInt x
  have hhi := BitVec.toInt_lt (x := x)
  rw [correct_clamped]
  norm_num at hlo hhi ⊢
  omega

/-- The mean of a pixel's samples rounded half up, 0 without samples. -/
def meanLevel (xs : List (BitVec 14)) : Int :=
  if xs = [] then 0 else (2 * (xs.map BitVec.toInt).foldl (· + ·) 0 + (xs.length : Int)) / (2 * (xs.length : Int))

/-- A mean with OUT_OFFSET added and clamped to the depth. -/
def State.outPixel (s : State) (v : Nat) (xs : List (BitVec 14)) : Int :=
  max 0 (min (meanLevel xs + signed 24 (s.get F.VST_CFG_OUT_OFFSET v)) (2 ^ (8 + 2 * s.get F.VST_CFG_DEPTH v) - 1))

/-- What a pixel leaves of the registers and the member: clipped samples counted unless the member stores none, and the pixel counted
where it had none. -/
def State.pixelCounted (s : State) (v n : Nat) (xs : List (BitVec 14)) : State :=
  let t := if (s.adc n).dest = 2 then s else (s.correctRun n xs).2
  if xs = [] then t.inc F.VST_COUNT_SHORT_PIXEL v else t

/-- `t` is `s` after a pixel of samples `xs` that is not its line's last. -/
structure PixelPassed (s : State) (v : Nat) (xs : List (BitVec 14)) (t : State) : Prop where
  px : (t.vst v).px = (s.vst v).px + 1
  line : (t.vst v).line = (s.vst v).line ++ [(s.outPixel v xs).toNat]
  short : t.get F.VST_COUNT_SHORT_PIXEL v =
    if xs = [] then min (s.get F.VST_COUNT_SHORT_PIXEL v + 1) 65535 else s.get F.VST_COUNT_SHORT_PIXEL v
  stalls : t.stalls = s.stalls
  troughs : t.troughs = s.troughs
  fen : t.fen = s.fen

section Pixel

variable {s : State} {v n : Nat} (xs : List (BitVec 14))

theorem member_lt (h : n ∈ s.vstMembers v) : n < 8 := List.mem_range.mp (List.mem_filter.mp h).1

theorem pixelValue_mean (h : s.isOn F.VST_CFG_MEAN v = true) : s.pixelValue v (xs.map BitVec.toInt) = meanLevel xs := by
  unfold State.pixelValue meanLevel roundDiv
  dsimp only
  rw [if_pos h, List.length_map]
  simp only [List.map_eq_nil_iff]

theorem correctRun_identity (hoff : (s.adc n).offset = 0) (hgain : (s.adc n).gain = 65536) :
    (s.correctRun n xs).1 = xs.map BitVec.toInt := by
  rw [correctRun_values, hoff, hgain]
  exact List.map_congr_left fun x _ => correct_identity x

theorem pixelCounted_frame : { s.pixelCounted v n xs with regs := s.regs, adcs := s.adcs } = s := by
  unfold State.pixelCounted
  dsimp only
  split <;> split <;> rfl

theorem pixelCounted_short (hv : v < 4) (hn : n < 8) : (s.pixelCounted v n xs).get F.VST_COUNT_SHORT_PIXEL v =
    if xs = [] then min (s.get F.VST_COUNT_SHORT_PIXEL v + 1) 65535 else s.get F.VST_COUNT_SHORT_PIXEL v := by
  have hrun : (if (s.adc n).dest = 2 then s else (s.correctRun n xs).2).get F.VST_COUNT_SHORT_PIXEL v = s.get F.VST_COUNT_SHORT_PIXEL v := by
    split
    · rfl
    · exact (correctRun_kept s hn xs).get _ rfl (by omega)
  unfold State.pixelCounted
  dsimp only
  split
  · rw [get_inc_same _ _ _ (by decide), hrun]
    rfl
  · exact hrun

/-- One member's samples make one output pixel, whether combined or not. -/
theorem pixelOut_single (hm : s.vstMembers v = [n]) (hoff : (s.adc n).offset = 0) (hgain : (s.adc n).gain = 65536)
    (hmean : s.isOn F.VST_CFG_MEAN v = true) : s.pixelOut v [xs] = ([(s.outPixel v xs).toNat], s.pixelCounted v n xs) := by
  have hvalue : s.pixelValue v (s.correctRun n xs).1 = meanLevel xs := by rw [correctRun_identity xs hoff hgain, pixelValue_mean xs hmean]
  unfold State.pixelOut
  rw [hm]
  simp only [List.length_singleton, Nat.sub_self, List.replicate_zero, List.append_nil, List.zip_cons_cons, List.zip_nil_left,
    List.foldl_cons, List.foldl_nil, List.nil_append, hvalue, zero_add, ite_self, List.map_cons, List.map_nil]
  rfl

/-- A pixel inside a line is added to it, and the line is not passed. -/
theorem pixelEnd_inside (hv : v < 4) (hm : s.vstMembers v = [n]) (hoff : (s.adc n).offset = 0) (hgain : (s.adc n).gain = 65536)
    (hmean : s.isOn F.VST_CFG_MEAN v = true) (hpx : ((s.vst v).px % s.vstArea v + 1) % s.get F.VST_GEOM_SCAN_W v ≠ 0) :
    PixelPassed s v xs (s.pixelEnd v [xs]) ∧ (s.pixelEnd v [xs]).tb = s.tb ∧ (s.pixelEnd v [xs]).yard = s.yard := by
  have hframe := pixelCounted_frame (s := s) (v := v) (n := n) xs
  have hvst : (s.pixelCounted v n xs).vst v = s.vst v := vst_congr (congrArg State.vsts hframe :) v
  have hn : n < 8 := member_lt (v := v) (s := s) (by simp [hm])
  unfold State.pixelEnd
  dsimp only
  rw [if_pos hpx, pixelOut_single xs hm hoff hgain hmean]
  refine ⟨⟨?_, ?_, pixelCounted_short xs hv hn, (congrArg State.stalls hframe :), (congrArg State.troughs hframe :),
    (congrArg State.fen hframe :)⟩, (congrArg State.tb hframe :), (congrArg State.yard hframe :)⟩
  · rw [vst_modVst_same]
    exact congrArg (·.px + 1) hvst
  · rw [vst_modVst_same]

end Pixel

/-! ### VST_PIXEL_END and VST_PIXEL_EVENT (R331, R332) -/

section PixelCommands

variable (v : Fin 4) {s : State}

theorem vstPixelEnd_shut (xs : List (List (BitVec 14))) (h : (s.vst v).frameOpen = false) : exec (.vstPixelEnd v xs) s = .next s :=
  congrArg Host.Outcome.next (if_pos (by simp [h]))

theorem vstPixelEvent_shut (xs : List (List (BitVec 14))) (h : (s.vst v).frameOpen = false) : exec (.vstPixelEvent v xs) s = .next s := by
  refine congrArg Host.Outcome.next ?_
  cases s.vstLead v with
  | none => rfl
  | some n => exact if_pos (by simp [h])

theorem vstPixelEnd_external (xs : List (List (BitVec 14))) (h : s.isOn F.VST_CFG_TIMING v = true) : exec (.vstPixelEnd v xs) s = .next s :=
  congrArg Host.Outcome.next (if_pos (by simp [h]))

variable (xs : List (BitVec 14)) {n : Nat}

theorem scanning_single (hm : s.vstMembers v = [n]) (h2 : s.get F.VST_STATUS_STATE v = 2) (he : (s.vst v).ending = none)
    (hn : (s.adc n).modeEnd = false) (e : Nat) : s.scanning v e = true :=
  scanning_endless h2 he (fun m hmem => by rw [hm, List.mem_singleton] at hmem; rwa [hmem]) e

/-- With TIMING INTERNAL the pixel ends where its interval does. -/
theorem vstPixelEnd_passed (hm : s.vstMembers v = [n]) (hf : (s.vst v).frameOpen = true) (h2 : s.get F.VST_STATUS_STATE v = 2)
    (he : (s.vst v).ending = none) (hn : (s.adc n).modeEnd = false) (hoff : (s.adc n).offset = 0) (hgain : (s.adc n).gain = 65536)
    (hmean : s.isOn F.VST_CFG_MEAN v = true) (hpx : ((s.vst v).px % s.vstArea v + 1) % s.get F.VST_GEOM_SCAN_W v ≠ 0)
    (ht : s.isOn F.VST_CFG_TIMING v = false) :
    ∃ t, exec (.vstPixelEnd v [xs]) s = .next t ∧ PixelPassed s v xs t ∧
      s.pixelAt v (s.vst v).px + s.get F.VST_TIMING_DWELL v ≤ t.now := by
  let e := s.pixelAt v (s.vst v).px + s.get F.VST_TIMING_DWELL v
  obtain ⟨hpassed, htb, -⟩ := pixelEnd_inside (s := s.reach e) xs v.isLt hm hoff hgain hmean hpx
  have hscan := scanning_single v hm h2 he hn e
  refine ⟨(s.reach e).pixelEnd v [xs], congrArg Host.Outcome.next (if_neg (by simp [ht, hf, hscan, e])), ⟨hpassed.px, hpassed.line,
    hpassed.short, hpassed.stalls, hpassed.troughs, hpassed.fen⟩, ?_⟩
  exact (le_max_right s.tb.count e).trans_eq (congrArg (·.count) htb.symm)

/-- With TIMING EVENT the pixel ends 1,600 ticks after the event, where the next begins. -/
theorem vstPixelEvent_passed (hm : s.vstMembers v = [n]) (hf : (s.vst v).frameOpen = true) (h2 : s.get F.VST_STATUS_STATE v = 2)
    (he : (s.vst v).ending = none) (hn : (s.adc n).modeEnd = false) (hoff : (s.adc n).offset = 0) (hgain : (s.adc n).gain = 65536)
    (hmean : s.isOn F.VST_CFG_MEAN v = true) (hpx : ((s.vst v).px % s.vstArea v + 1) % s.get F.VST_GEOM_SCAN_W v ≠ 0)
    (ht : s.isOn F.VST_CFG_TIMING v = true) {tick : Nat} {u : State} (hu : s.isOn F.ADC_CFG_CONS_URGENT n = false)
    (hevent : s.takeEvent (304 + n) = some (tick, u)) :
    ∃ t, exec (.vstPixelEvent v [xs]) s = .next t ∧ PixelPassed s v xs t ∧ (t.vst v).began = tick + 1600 ∧
      t.yard.delivered = u.yard.delivered := by
  have hlead : s.vstLead v = some n := congrArg List.head? hm
  obtain ⟨y, rfl⟩ : ∃ y, u = { s with yard := y } := ⟨u.yard, (takeEvent_frame hevent).symm⟩
  obtain ⟨hpassed, -, hyard⟩ := pixelEnd_inside (s := State.reach { s with yard := y } (tick + 1600)) xs v.isLt hm hoff hgain hmean hpx
  have hscan := scanning_single v hm h2 he hn
  have hrest : State.scanning { s with yard := y } v (tick + 1600) = true := hscan (tick + 1600)
  have hexec : exec (.vstPixelEvent v [xs]) s = .next (((State.reach { s with yard := y } (tick + 1600)).pixelEnd v [xs]).modVst v fun x =>
      { x with began := tick + 1600 }) := by
    change execVstPixelEvent v [xs] s = _
    unfold execVstPixelEvent
    rw [hlead]
    dsimp only
    rw [if_neg (by simp [ht, hf, hscan, hu]), hevent]
    dsimp only
    rw [if_neg (by simp [hrest])]
  have hvst := vst_modVst_same ((State.reach { s with yard := y } (tick + 1600)).pixelEnd v [xs]) v fun x => { x with began := tick + 1600 }
  exact ⟨_, hexec, ⟨(congrArg Vst.px hvst).trans hpassed.px, (congrArg Vst.line hvst).trans hpassed.line, hpassed.short, hpassed.stalls,
    hpassed.troughs, hpassed.fen⟩, (congrArg Vst.began hvst :), congrArg (·.delivered) hyard⟩

end PixelCommands

/-! ### VST_DWELL_TIMEOUT (R332) -/

section Dwell

variable (v : Fin 4) {s : State}

theorem vstDwellTimeout_refused (h : s.isOn F.VST_CFG_TIMING v = false ∨ s.get F.VST_STATUS_STATE v ≠ 2) :
    exec (.vstDwellTimeout v) s = .next s := by
  refine congrArg Host.Outcome.next (if_pos ?_)
  rcases h with h | h
  · simp [h]
  · simp [scanning_stopped h]

/-- A stop at `tick` of every member of a virtual stall. -/
def State.membersStopped (s : State) (v tick : Nat) : State := (s.vstMembers v).foldl (fun a m => a.stopOne m tick) s

theorem membersStopped_frame (s : State) (v tick : Nat) : { s.membersStopped v tick with adcs := s.adcs } = s := by
  unfold State.membersStopped
  induction s.vstMembers v generalizing s with
  | nil => rfl
  | cons m l ih =>
    have hrest := congrArg (fun t : State => { t with adcs := s.adcs }) (ih (s.stopOne m tick))
    exact hrest.trans (stopOne_frame s m tick)

theorem membersStopped_stopAt {w n : Nat} (hn : n ∈ s.vstMembers w) (h2 : s.adcSt n = 2) (hs : (s.adc n).stopAt = none) (tick : Nat) :
    ((s.membersStopped w tick).adc n).stopAt = some (tick + 1600) := by
  have hstep (a : State) (m : Nat) (_ : True) (hm : m < 8) :
      True ∧ ∀ k, k < 8 → k ≠ m → ConverterKept k a (a.stopOne m tick) :=
    ⟨trivial, fun _ hk hne => (stopOne_startOnly a m tick).other hm hk hne⟩
  have hnodup : (s.vstMembers w).Nodup := List.nodup_range.filter _
  obtain ⟨u, -, hbefore, hafter⟩ :=
    (foldl_converters (P := fun _ => True) hstep (member_lt hn) _ hnodup (fun _ => member_lt) (s := s) trivial).2 hn
  unfold State.membersStopped
  rw [hafter.adc, stopOne_running _ (hbefore.adcSt.trans h2), hbefore.adc, hs]
  simp

theorem vstDwellTimeout_ends (ht : s.isOn F.VST_CFG_TIMING v = true) (h2 : s.get F.VST_STATUS_STATE v = 2) (he : (s.vst v).ending = none)
    (hm : ∀ n, (s.adc n).modeEnd = false) (hb : 1600 ≤ (s.vst v).began) :
    ∃ t, exec (.vstDwellTimeout v) s = .next t ∧ (t.vst v).ending = some ((s.vst v).began + s.get F.VST_TIMING_DWELL v) ∧
      (∀ n ∈ s.vstMembers v, s.adcSt n = 2 → (s.adc n).stopAt = none →
        (t.adc n).stopAt = some ((s.vst v).began + s.get F.VST_TIMING_DWELL v)) ∧
      t.regs = s.regs ∧ t.stalls = s.stalls := by
  let e := (s.vst v).began + s.get F.VST_TIMING_DWELL v
  have hscan := scanning_endless h2 he (fun n _ => hm n) e
  have hback : e - 1600 + 1600 = e := Nat.sub_add_cancel (hb.trans (Nat.le_add_right ..))
  have hframe := membersStopped_frame (s.reach e) v (e - 1600)
  have hvst := vst_modVst_same ((s.reach e).membersStopped v (e - 1600)) v fun y => { y with ending := some e }
  refine ⟨_, congrArg Host.Outcome.next (if_neg (by simp [ht, hscan, e])), (congrArg Vst.ending hvst :), fun n hn hst hs => ?_,
    (congrArg State.regs hframe :), (congrArg State.stalls hframe :)⟩
  exact (membersStopped_stopAt (s := s.reach e) hn hst hs (e - 1600)).trans (congrArg some hback)

end Dwell

/-- Settles O21, clause by clause: VST_CFG written with the stall disabled and enabled, the start of a frame, the pixels of a single
member with either timing, the commands outside a frame, and the dwell without a boundary. -/
theorem virtualStallsTurnPixelsIntoFrames : Obligations.VirtualStallsTurnPixelsIntoFrames := by
  unfold Obligations.VirtualStallsTurnPixelsIntoFrames
  refine ⟨fun v w s h => vstEnable_off v w h, fun v w s => ⟨vstEnable_on v w, vstDisable_off v w, vstDisable_on v w⟩,
    fun v s => ⟨vstFrameStart_none, vstFrameStart_effect⟩, ?_, fun v xs s h => ⟨vstPixelEnd_shut v xs h, vstPixelEvent_shut v xs h⟩,
    fun v s => ⟨vstDwellTimeout_refused v, vstDwellTimeout_ends v⟩⟩
  intro v xs s n hm hf h2 he hn hoff hgain hmean _ hpx
  refine ⟨fun ht => ?_, fun ht => ⟨vstPixelEnd_external v [xs] ht, fun tick u hu hevent => ?_⟩⟩
  · obtain ⟨t, hexec, ⟨hp, hl, hshort, hstalls, htroughs, hfen⟩, hnow⟩ := vstPixelEnd_passed v xs hm hf h2 he hn hoff hgain hmean hpx ht
    exact ⟨t, hexec, ⟨hp, hl, hshort, hstalls, htroughs, hfen⟩, hnow⟩
  · obtain ⟨t, hexec, ⟨hp, hl, hshort, hstalls, htroughs, hfen⟩, hbegan, hyard⟩ :=
      vstPixelEvent_passed v xs hm hf h2 he hn hoff hgain hmean hpx ht hu hevent
    exact ⟨t, hexec, ⟨hp, hl, hshort, hstalls, htroughs, hfen⟩, hbegan, hyard⟩

end Sys2Proof.Machine
